-- ==== Sys2Proof/Word.lean ====
section
/-!
DEFINITION. The word and byte types of register and memory images (00_scope.md R12, R13).
-/

namespace Sys2Proof

/-- A 32-bit register or record word. -/
abbrev Word := BitVec 32

/-- One byte of a memory image. -/
abbrev Byte := BitVec 8

end Sys2Proof
end

