-- ==== Sys2Proof/Syntax.lean ====
section
/-!
DEFINITION. The commands of the Poermun: one constructor for each row of the opcode table, with its operands, and the operand types.
-/

namespace Sys2Proof

/-- A signal identifier (02 R70). -/
abbrev Sid := BitVec 18

/-- A local address (00 R22). -/
abbrev LocalAddr := BitVec 40

/-- A phase: a ns within a tick (01 R30). -/
abbrev Phase := Fin 10000

/-- Who writes or reads: a SEQ or SUP core, or a host port (02 R113). -/
inductive Agent where
  | seq (n : Fin 8) | sup (n : Fin 2) | h0 | tlan | h3 | jtag
  deriving DecidableEq, Repr

/-- The form of a P3 write (02 R91): VALUE, the word at +4, both in one aligned 64-bit access, or WSEQ and AGE, a write to which is ignored. -/
inductive P3Form where
  | value (v : Word) | status (w : Word) | both (v w : Word) | counters
  deriving DecidableEq, Repr

/-- The form of a read of a store entry (02 R74): VALUE, the word at +4, or both in one aligned 64-bit access. -/
inductive ReadForm where
  | value | fields | both
  deriving DecidableEq, Repr

/-- The levels of the I/O banks that have a choice (20 R875): true for 3.3 V, false for 1.8 V. -/
structure BankLevels where
  io0 : Bool
  io2 : Bool
  io3 : Bool
  io4 : Bool
  io5 : Bool
  deriving DecidableEq, Repr

/-- One conversion of a converter (10 R438, R439): its code, and the voltages of the two balls of its pair at the hold instant, in µV. -/
structure AdcSample where
  code : BitVec 18
  p : Int
  n : Int
  deriving DecidableEq, Repr

/-- Which copies of a packet came back on their own ring's receive port (07 R337): ring A's on EWA, ring B's on EWB. -/
structure OwnPorts where
  a : Bool
  b : Bool
  deriving DecidableEq, Repr

/-- The width of a direct access (00 R18). -/
inductive Width where
  | byte | half | word | double
  deriving DecidableEq, Repr

/-- What a DRAM read of a SUP core meets in its cache (13 R593): its bytes, nothing, or a line with a parity error; a core's read is a load,
through the data cache, or an instruction fetch, through the instruction cache (12 R531, 13 R591). -/
inductive CacheUse where
  | hit | miss | parity
  | fetchHit | fetchMiss | fetchParity
  deriving DecidableEq, Repr

/-- The port a host command arrives on (16 R733). -/
inductive HostPort where
  | h0 | tlan | h3 | jtag
  deriving DecidableEq, Repr

/-- A host command beyond its opcode (16 R735): its port, the source MAC on the tool LAN, NORSP, CSEQ, ARG0, ARG1 and the LEN body bytes. -/
structure HostCmd where
  port : HostPort
  mac : BitVec 48
  norsp : Bool
  cseq : Word
  arg0 : Word
  arg1 : Word
  body : List Byte
  deriving DecidableEq, Repr

/-- A received CAN frame (08 R352, R359, R360): its start of frame, identifier word (ID, IDE, FDF, RTR), DLC, BRS, ESI and data; `res` tells
that the reserved bit behind FDF is recessive. -/
structure CanFrame where
  sofTick : BitVec 48
  sofPhase : Nat
  id : Word
  dlc : BitVec 4
  brs : Bool
  esi : Bool
  data : List Byte
  res : Bool
  deriving DecidableEq, Repr

/-- What a CAN channel counts at an error (08 R376, R380, ISO 11898-1): an error in a frame, with whether it saw a dominant bit in its passive
error flag and whether it is a stuff error of arbitration on its own recessive stuff bit; a bit error in its own active error or overload
flag; a dominant bit right behind its error flag; one more run of dominant bits that the standard counts. -/
inductive CanErr where
  | frame (dominant stuffArb : Bool) | flagBit | dominantAfter | dominantRun
  deriving DecidableEq, Repr

/-- A raw input line of a feedback channel in one sample (09 R395): its level, and how many consecutive samples it has held it. -/
structure RawLine where
  level : Bool
  held : Nat
  deriving DecidableEq, Repr

/-- What stands before the command of a tool-LAN frame (16 R720, R724): the ring port, the HSR sequence number, source and destination MAC,
EtherType, the four prefix bytes. -/
structure DevHead where
  portB : Bool
  seq : BitVec 16
  mac : BitVec 48
  dst : BitVec 48
  etype : BitVec 16
  pre : Word
  deriving DecidableEq, Repr

/-- A tool-LAN frame with its command (16 R725): OP, CFL and CSEQ. -/
structure DevFrame extends DevHead where
  op : Byte
  cfl : Byte
  cseq : Word
  deriving DecidableEq, Repr

/-- The times of a PTP Sync (16 R726), in ns, and its corrections, in units of 2^-16 ns: its domain, its origin and correction, those of its
Follow_Up where it is a two-step Sync, its time of receipt, and the four times of the port's last peer delay exchange. -/
structure PtpTimes where
  domain : Byte
  origin : Int
  corr : Int
  follow : Option (Int × Int)
  receipt : Int
  peer : Option (Int × Int × Int × Int)
  deriving DecidableEq, Repr

/-- A PTP Sync as it arrives (16 R726): its interval in ns, and its master's announced data set as one number, the smaller the better (priority1,
class, accuracy, variance, priority2, identity and steps removed, most significant first). -/
structure PtpSync extends PtpTimes where
  interval : Nat
  master : Nat
  deriving DecidableEq, Repr

/-- A returned copy's place (06 R276, 20 R879): the ring whose copy it is, and whether it came in on that ring's own port. -/
structure RingCopy where
  ring : Fin 2
  ownPort : Bool
  deriving DecidableEq, Repr

/-- What a write of HPC_CQTAIL hands over (16 R739): the word, and the entries that the host has written into its ring since its last write, from
the old tail on. -/
structure RingTail where
  word : Word
  images : List (List Byte)
  deriving DecidableEq, Repr

/-- A frame as it passes through the Poermun (16 R720, R721): its bytes from the HSR tag on, and the ns it stays. -/
structure Passing where
  bytes : List Byte
  stay : Nat
  deriving DecidableEq, Repr

/-- H0 as trained (16 R709): its width, and the words that the host writes into the configuration space as it enumerates H0. -/
structure H0Trained where
  width : Fin 8
  cfg : List (Nat × Word)
  deriving DecidableEq, Repr

/-- What is shifted into the TAP (16 R731): the IEEE 1149.1 instructions, DEBUG, or any other code. -/
inductive TapCode where
  | idcode | bypass | sample | extest | debug | other
  deriving DecidableEq, Repr

/-- The commands, in the order of the opcode table. -/
inductive Instr where
  /-- PORST_L_RISING (R769): PORST_L rises and the cold sequence begins, with AON running on REFCLK and the monitors armed. `banks` are the
  levels of the I/O banks as their supplies stand (20 R875). -/
  | porstLRising (banks : BankLevels)
  /-- PORST_L_LOW (R877): A low level on PORST_L of at least 10 µs puts every domain into cold reset. -/
  | porstLLow
  /-- REFCLK_FAULT (R29): The clock monitor finds REFCLK absent or deviating and puts the Poermun into cold reset. -/
  | refclkFault
  /-- VDD_AON_LOW (R768): VDD_AON falls below 0.72 V and the Poermun enters cold reset at once. -/
  | vddAonLow
  /-- VDD_AON_RECOVERED (R768): VDD_AON has held at or above 0.75 V for 1 ms with PORST_L high and REFCLK running, and the cold sequence
  runs. -/
  | vddAonRecovered
  /-- VMON (R768): A monitored rail stays outside its limits for more than 10 µs, which raises fault VMON of class COLD. `rail` 0
  VDD_CORE, 1 VDD_SD, 2 VDDA, 3 VDDQ (17 R797). -/
  | vmon (rail : Fin 4)
  /-- THERM (R768): A controller-die reading above 150 °C raises fault THERM, once per rise. -/
  | therm
  /-- THERMSD (R768): A controller-die reading above 165 °C raises fault THERMSD of class COLD. -/
  | thermsd
  /-- COLD_RESET_HOLD_END (R773): The 1 ms hold of an internal cold reset ends, or the die has cooled after THERMSD, and the cold
  sequence runs. `tj` is the controller-die reading in units of 0.25 °C. -/
  | coldResetHoldEnd (tj : Int)
  /-- PLL_LOCKED (R31): The timebase PLL locks, and fine mode takes effect at the next tick boundary. -/
  | pllLocked
  /-- PLL_LOCK_LOST (R31): The timebase PLL loses lock, and coarse mode takes effect at the next tick boundary. -/
  | pllLockLost
  /-- ZERO_FILL_DONE (R603): The zero fill of the store, journal, tile SRAMs, block RAMs and TCMs completes, and those arrays are marked
  initialised. -/
  | zeroFillDone
  /-- DRAM_TRAINING_DONE (R769): DRAM interface training completes during the cold sequence. -/
  | dramTrainingDone
  /-- MRAM_READABLE (R769): MRAM becomes readable during boot, and the odometer restore and the epoch read run. -/
  | mramReadable
  /-- MANIFEST_CHECK (R756): Both boot manifests have been read, are checked, and a candidate slot is chosen. -/
  | manifestCheck
  /-- IMAGE_LOAD_DONE (R756): An image has been loaded and hashed and is compared with its descriptor; a mismatch abandons the slot. -/
  | imageLoadDone
  /-- CONSIST_VERIFIED (R824): The consist of the running slot completes its ordered checks; a failure loads CST_LOADERR and abandons
  the slot. -/
  | consistVerified
  /-- CONSIST_LOAD (R825): The consist is applied to every block, the ledgers are zeroed, CLAIM_EPOCH is raised and the bypass opens. -/
  | consistLoad
  /-- BOOT_DONE (R769): BOOT_DONE asserts and the cores are released; SYNC_OUT and the coaches start at the next tick boundary. -/
  | bootDone
  /-- TICK_BOUNDARY (R26): A tick boundary passes: TICK increments, phase returns to 0, and every phase-0 action of the master phase
  table takes place. Fab time of phase 0 of the tick that ends (01 R45); `busy` lists the serial feedback channels whose data line reads
  0 (09 R405). -/
  | tickBoundary (fabSec : BitVec 48) (fabNs : Word) (busy : List Nat)
  /-- SYNC_OUT_PULSE_END (R36): The SYNC_OUT pulse width of SYNCW × 20 ns runs out and SYNC_OUT falls. -/
  | syncOutPulseEnd
  /-- READ_SYS_TICKLO (R58): A read of SYS_TICKLO returns TICK[31:0] and captures TICKHI and PHASE for that reader. -/
  | readSysTicklo (who : Agent)
  /-- READ_SYS_FABTLO (R58): A read of SYS_FABTLO captures SYS_FABHI, SYS_FABSEC and SYS_FABNS from the same set for that reader. -/
  | readSysFabtlo (who : Agent)
  /-- READ_LOW_WORD_CAPTURE (R654): A read of the low word of a 64-bit ODO or LDG counter captures its high word for that reader.
  The row is taken as a read of any local address (00 R18, R22, R24), of a width; `flips` names the stored bits of the bytes read that have
  flipped since they were last read or written, a mask for each byte: data bits at 0 to 7, check bits from 8 on (13 R587); `cache` is what a
  DRAM read of a SUP core meets in its cache (13 R593). -/
  | readLowWordCapture (who : Agent) (addr : LocalAddr) (width : Width) (flips : List Nat) (cache : CacheUse)
  /-- STORE_VALUE_READ (R74): A 32-bit read of a store VALUE returns the composed value and captures STATUS, WSEQ and AGE for that
  reader, which a read of the word at +4 then returns. `flips` are the bits of the entry's 8 bytes that have flipped (13 R587). -/
  | storeValueRead (who : Agent) (sid : Sid) (form : ReadForm) (flips : List Nat)
  /-- P3_QUEUE_WRITE (R89): A core or host store to the signal store enters the agent's P3 queue, stalling a core while the queue is
  full. `mac` is the source of a tool-LAN write. -/
  | p3QueueWrite (who : Agent) (mac : BitVec 48) (sid : Sid) (form : P3Form)
  /-- P3_ARBITER_TAKE (R88): The P3 arbiter takes one pending write every 20 ns, round robin, and stamps it. -/
  | p3ArbiterTake
  /-- BAR2_JOURNAL_WRITE (R93): A write into the journal part of BAR2 is discarded and handled as a claim refusal. -/
  | bar2JournalWrite
  /-- SIG_CLR_PEAKCLR (R124): A write to SIG_CLR clears the selected SIG_PnPEAK registers. -/
  | sigClrPeakclr (who : Agent) (v : Word)
  /-- TILE_COMMIT_POINT (R136): At phase 2,000 the store view freezes and each tile reaches its commit point. -/
  | tileCommitPoint
  /-- SLOT_EVALUATION (R187): A due slot is evaluated in its 100-cycle window, and its result is held until the commit. -/
  | slotEvaluation (t : Fin 16)
  /-- RESULT_COMMIT (R51): At phase 9,000 every held result is written to the store atomically through P1, and the local outputs take
  the values. -/
  | resultCommit
  /-- SLOT_SH_WRITE (R137): An SH write to a slot record enters the tile's shadow queue, and the writer waits while the queue is full.
  Word `w` of the record of a slot is written with `v`. -/
  | slotShWrite (who : Agent) (t : Fin 16) (slot : BitVec 8) (w : Fin 32) (v : Word)
  /-- SLOT_LV_WRITE (R138): An LV write to a slot record is used by the slot's next evaluation that starts after it. -/
  | slotLvWrite (who : Agent) (t : Fin 16) (slot : BitVec 8) (w : Fin 32) (v : Word)
  /-- SLOT_CS_WRITE (R139): A CS write to a slot record is checked and refused while the slot is enabled or has an enable waiting. -/
  | slotCsWrite (who : Agent) (t : Fin 16) (slot : BitVec 8) (w : Fin 32) (v : Word)
  /-- SLOT_ENABLE (R146): An enable is checked against the budget, range, cascade and producer rules, and is queued or refused. `v` is
  the CTL word written, with EN = 1. -/
  | slotEnable (who : Agent) (t : Fin 16) (slot : BitVec 8) (v : Word)
  /-- SLOT_DISABLE (R147): A disable is queued, and it lowers the load entries at the commit point where it takes effect. `v` is the CTL
  word written, with EN = 0. -/
  | slotDisable (who : Agent) (t : Fin 16) (slot : BitVec 8) (v : Word)
  /-- FLAGCLR (R201): A write to LTt_FLAGCLR clears the selected sticky flags of a slot before its next evaluation. -/
  | flagclr (who : Agent) (t : Fin 16) (v : Word)
  /-- INJ_START (R224): A START written to LTt_INJCMD is checked and starts the injection at the tile's commit point. -/
  | injStart (who : Agent) (t : Fin 16)
  /-- INJ_STOP (R223): A STOP written to LTt_INJCMD ends the injection at the tile's commit point. -/
  | injStop (who : Agent) (t : Fin 16)
  /-- CAP_ARM (R231): An ARM written to LTt_CAPCMD is checked and arms the capture at the commit point. -/
  | capArm (who : Agent) (t : Fin 16)
  /-- CAP_STOP (R233): A STOP written to LTt_CAPCMD ends or disarms the capture at the commit point. -/
  | capStop (who : Agent) (t : Fin 16)
  /-- COMPARTMENT_RETURN (R276): A returned copy of an IN or SAFE-U compartment arrives and is judged valid or not. A copy of
  compartment `comp` of the coach of the tick before (`ofPrev`) or of this tick, on a ring, on its own ring's port or on the other's; 64 bytes. -/
  | compartmentReturn (ofPrev : Bool) (copy : RingCopy) (comp : Nat) (bytes : List Byte)
  /-- COACH_HEADER_RETURN (R337): A returned coach copy is taken on either port, and wrap or a shift of its return time is noted. The 64
  header bytes, on the port of their ring or on the other; `time` is the return time in units of 0.125 ns. -/
  | coachHeaderReturn (ownPort : Bool) (bytes : List Byte) (time : Nat)
  /-- LANDING (R49): From phase 5,000, P0 lands the IN and SAFE data of the previous coach into the store. -/
  | landing
  /-- COACH_CUT (R50): At phase 9,500 the ring keeper takes the composed OUT seat values and the SAFE-D contents for the next coach. -/
  | coachCut
  /-- MAIL_WINDOW (R286): After the coach, the Poermun sends carriers, retransmissions and new DATA frames in order of precedence up to
  phase 9,900. -/
  | mailWindow
  /-- MAIL_RETRANSMIT (R284): A DATA frame not acknowledged within RETX ticks is sent again. -/
  | mailRetransmit
  /-- UPLINK_FRAME (R282): A returned carrier is judged, and an uplink frame is accepted into the core or host queue, with ACK and FREED
  taken. The copies of the carrier granted to node `d` as they came back on rings A and B; empty where none came. -/
  | uplinkFrame (d : Fin 64) (a b : List Byte) (own : OwnPorts)
  /-- MTXTAIL_WRITE (R290): A write of EWN_MTXTAIL past an entry adds the entry to the core transmit queue. -/
  | mtxtailWrite (who : Agent) (v : Word)
  /-- SURVEY_ROUND_START (R312): A survey round starts: continuously at first, periodically after that, or within 16 ticks of a trigger. -/
  | surveyRoundStart
  /-- ENUM_RETURN (R314): A returned ENUM packet finds and identifies nodes, or sets SURVERR for them. -/
  | enumReturn (a b : List Byte) (own : OwnPorts)
  /-- DELAY_RETURN (R315): A returned DELAY packet yields the node delays, round trips and asymmetry check. The copies on rings A and B,
  their departure stamps and their round trips, in units of 0.125 ns. -/
  | delayReturn (a b : List Byte) (own : OwnPorts) (depA depB rtA rtB : Word)
  /-- RX_BLOCK_LOCK_LOSS (R337): A receive port loses block lock, or EWA_LOS or EWB_LOS rises, and BREAK is set from the next coach. -/
  | rxBlockLockLoss (ring : Fin 2)
  /-- BREAK_HEAL (R337): After 1,000 consecutive clean ticks, BREAK clears and HEAL is set. -/
  | breakHeal
  /-- NCTL_READMIT (R351): A write of 1 to EWN_NCTLd.READMIT permits the node's return to SEAT after SAFEV. -/
  | nctlReadmit (who : Agent) (d : Fin 64)
  /-- NCTL_EXCLUDE (R351): A write to EWN_NCTLd.EXCLUDE excludes the node from SEAT, or ends the exclusion. -/
  | nctlExclude (who : Agent) (d : Fin 64) (on : Bool)
  /-- CAN_FRAME_VALID (R359): A received CAN frame becomes valid and is filtered, stamped and handled. -/
  | canFrameValid (n : Fin 8) (ph : Phase) (frame : CanFrame)
  /-- CAN_TXREQ (R366): A write to CANn_TXREQ requests a transmit buffer, or is refused with BUSY. CANn_TXREQ1 with `hi`, else
  CANn_TXREQ0. -/
  | canTxreq (who : Agent) (n : Fin 8) (hi : Bool) (mask : Word)
  /-- CAN_TXABORT (R367): A write to CANn_TXABORT withdraws a buffer whose frame has not started. -/
  | canTxabort (who : Agent) (n : Fin 8) (hi : Bool) (mask : Word)
  /-- CAN_RELEASE (R371): A schedule-matrix entry reaches its release phase, packs its buffer and makes it pending. -/
  | canRelease (n : Fin 8) (j : Fin 256)
  /-- CAN_WINDOW_EXPIRY (R373): A released frame that has not started within WIN µs is withdrawn with result LATE. -/
  | canWindowExpiry (n : Fin 8) (b : Fin 64) (ph : Phase)
  /-- CAN_FRAME_END (R368): A transmitted frame ends, and its buffer retires with its result and counter. `tdcv` is the transmitter
  delay measured in a frame with BRS (08 R357). -/
  | canFrameEnd (n : Fin 8) (ph : Phase) (tdcv : BitVec 8)
  /-- CAN_BUS_ERROR (R376): A bus error is detected, the error counters move, and the error state may change. `code` is LEC (08 R376),
  `kind` what is counted, and `tdcv` the delay measured in a frame of its own that the error struck behind FDF (R357). -/
  | canBusError (n : Fin 8) (ph : Phase) (code : Fin 8) (kind : CanErr) (tdcv : Option (BitVec 8))
  /-- BUSOFF_RECOVERY (R378): After 128 occurrences of 11 recessive bits, the channel leaves bus-off with TEC and REC at 0. -/
  | busoffRecovery (n : Fin 8)
  /-- CAN_RECOVER (R378): A write of RECOVER starts bus-off recovery under BOREC = 1. -/
  | canRecover (who : Agent) (n : Fin 8)
  /-- CAN_ON_WRITE (R369): A write of CANn_CTL.ON turns the channel on, or turns it off and retires its pending buffers with OFF. -/
  | canOnWrite (who : Agent) (n : Fin 8) (on : Bool)
  /-- FB_EDGE_ACCEPTED (R397): A filtered input change is accepted and the decoder changes the count. `a`, `b` and `z` are
  the raw lines of this sample: the filter accepts a level that has held FILT samples. -/
  | fbEdgeAccepted (n : Fin 32) (ph : Phase) (a b z : RawLine)
  /-- FB_SAMPLE (R400): At phase 20, a feedback channel writes its position and speed through P2. -/
  | fbSample (n : Fin 32)
  /-- SERIAL_WORD_DECODE (R406): A complete absolute-serial word is checked, decoded into CNT and written through P2. The bits of the
  word, the last one received in bit 0. -/
  | serialWordDecode (n : Fin 32) (word : BitVec 64)
  /-- COMPARE_PULSE_END (R416): A compare pulse of PW × 5 ns runs out and the pin returns to inactive. -/
  | comparePulseEnd (pin : Fin 32) (ph : Phase)
  /-- CMPVAL_WRITE (R418): A write of CMPVALu takes effect and sets or clears BEHIND. -/
  | cmpvalWrite (who : Agent) (n : Fin 32) (u : Fin 4) (v : Word)
  /-- FB_ON_WRITE (R420): A write of FBn_CTL.ON starts the channel with CNT at 0, or stops it and disarms the compare units. -/
  | fbOnWrite (who : Agent) (n : Fin 32) (on : Bool)
  /-- SYNC_ENTRY_START (R446): A SYNC entry waiting for phase 0 starts converting at phase 0. -/
  | syncEntryStart (k : Fin 8)
  /-- ADC_ENTRY_END (R442): An entry's last conversion ends, and the next entry starts or the pass ends. The entry's conversions,
  in order. -/
  | adcEntryEnd (k : Fin 8) (codes : List AdcSample)
  /-- ADC_ENTRY_RESULT (R444): 20 ns after an entry ends, its corrected result is written through P2 with its carried bits. -/
  | adcEntryResult (k : Fin 8)
  /-- REFBAD (R440): A converter's reference leaves 1 % of nominal, and REFBAD and REFERR are set. -/
  | refbad (k : Fin 8)
  /-- ADC_ON_WRITE (R448): A write of ADCk_CTL.ON starts a pass, or abandons the entry in progress and stops. -/
  | adcOnWrite (who : Agent) (k : Fin 8) (on : Bool)
  /-- ADC_GO (R448): A write of ADCk_CMD.GO starts a new pass, or is refused with BUSY or OFF. -/
  | adcGo (who : Agent) (k : Fin 8)
  /-- PWM_PERIOD_START (R455): A PWM period begins, takes the duty register and places its active interval. Period `j` of the tick. -/
  | pwmPeriodStart (n : Fin 32) (j : Nat)
  /-- PWM_ON_WRITE (R458): A write of PWMn_CTL.ON starts or stops the output, or is refused with RANGE or CLASS. -/
  | pwmOnWrite (who : Agent) (n : Fin 32) (on : Bool)
  /-- REDUCTION_WINDOW_END (R487): A reduction window ends, the banks swap, and records of the finished bank are written over the next
  window. -/
  | reductionWindowEnd (j : Fin 64)
  /-- SET_ENABLE (R520): A write of REC_SETCFGs.EN enables a recording set after its checks, or disables it. -/
  | setEnable (who : Agent) (j : Fin 64) (on : Bool)
  /-- SET_ARM (R497): An ARM written to REC_SETCMDs puts the current half into FILL, or is refused. -/
  | setArm (who : Agent) (j : Fin 64)
  /-- SET_RELEASE (R500): A RELEASE makes a DONE half IDLE, or puts it into FILL. -/
  | setRelease (who : Agent) (j : Fin 64)
  /-- SET_STOP (R500): A STOP makes every half of the set's region IDLE. -/
  | setStop (who : Agent) (j : Fin 64)
  /-- SET_TRIG (R509): A software trigger acts on one set with unit number 0xFF. -/
  | setTrig (who : Agent) (j : Fin 64)
  /-- TRG_ARM (R528): An ARM written to TRGu_CMD arms the unit and clears its qualifier and rate memory. -/
  | trgArm (who : Agent) (u : Fin 32)
  /-- TRG_DISARM (R528): A DISARM written to TRGu_CMD disarms the trigger unit. -/
  | trgDisarm (who : Agent) (u : Fin 32)
  /-- TRG_FIRE (R507): A FIRE written to TRGu_CMD fires the unit, ignoring its condition and its qualifier. -/
  | trgFire (who : Agent) (u : Fin 32)
  /-- TRIGGER_REARM (R508): A REPEAT unit re-arms HOLD ticks after it fired. -/
  | triggerRearm (u : Fin 32)
  /-- EVENT_RAISE (R543): A raise of a mapped event makes a cart, coalesces into one, or joins the pending count. -/
  | eventRaise (e : BitVec 10)
  /-- PENDING_CART (R544): A pending event count makes a cart once carts are free and its hitch is not suspended. -/
  | pendingCart
  /-- POSTCTL (R545): A write to POSTCTL makes a POST cart, queued or deferred, or returns an error status. `more` tells that another
  port operation of the same dispatcher cycle follows (12 R552). -/
  | postctl (p : Fin 10) (v : Word) (more : Bool)
  /-- POST_STALL_RELEASE (R560): A post stalled at the cart reserve completes once a cart may be made. -/
  | postStallRelease
  /-- TAKE (R546): A read of TAKE moves the prefetched cart to IN_SERVICE and returns its image. `more` tells that another port
  operation of the same dispatcher cycle follows (12 R552). -/
  | take (p : Fin 10) (more : Bool)
  /-- DONE (R547): A write of a tag to DONE retires the core's cart that is IN_SERVICE, or sets NOTOWN. `more` tells that another port
  operation of the same dispatcher cycle follows (12 R552). -/
  | done (p : Fin 10) (v : Word) (more : Bool)
  /-- CANCEL (R548): A write of a tag to CANCEL cancels the named cart if it is not in service. `more` tells that another port operation
  of the same dispatcher cycle follows (12 R552). -/
  | cancel (p : Fin 10) (v : Word) (more : Bool)
  /-- EVRAISE (R549): A write to EVRAISE raises a software event from 896 to 1,023. `more` tells that another port operation of the same
  dispatcher cycle follows (12 R552). -/
  | evraise (p : Fin 10) (v : Word) (more : Bool)
  /-- STEPCTL (R563): A write to STEPCTL arms or disarms a hitch's step timer. `more` tells that another port operation of the same
  dispatcher cycle follows (12 R552). -/
  | stepctl (p : Fin 10) (v : Word) (more : Bool)
  /-- STEP_TIMER_FIRE (R564): An armed step timer reaches DUE at phase 0 and makes a STEP cart or sets WAIT. -/
  | stepTimerFire
  /-- STEP_WAIT_CART (R564): A waiting step timer makes its STEP cart once carts are free and its hitch is not suspended. -/
  | stepWaitCart
  /-- DEFERRED_DUE (R545): A DEFERRED cart's delay runs out at phase 0, and the cart becomes QUEUED. -/
  | deferredDue
  /-- JCOMMIT (R567): A write of JCOMMIT commits the staging page to a hitch page, or is refused. `more` tells that another port
  operation of the same dispatcher cycle follows (12 R552). -/
  | jcommit (p : Fin 10) (v : Word) (more : Bool)
  /-- JCOMMIT_COMPLETE (R568): The commit engine finishes writing a hitch page, and JSTAT.BUSY clears. -/
  | jcommitComplete (p : Fin 10)
  /-- WATCHDOG_EXPIRY (R535): A core's watchdog runs out and raises fault WATCHDOG of class RESTART. -/
  | watchdogExpiry (c : Fin 10)
  /-- WDKICK (R585): A write to a core's own WDKICK restarts its watchdog. -/
  | wdkick (c : Fin 10)
  /-- CORE_STOP_TIMEOUT (R571): 1 ms after entry into stage 3, a SEQ1 to SEQ7 core that has not reached a DONE stops. -/
  | coreStopTimeout (c : Fin 8)
  /-- SRAM_SCRUB_READ (R594): An array's scrubber reads its next word and classifies it. `a` is the array; `flips` gives the stored
  bits of the word's bytes that have flipped since they were last read or written, a mask for each byte: data bits at 0 to 7, check bits from 8
  on (13 R587). -/
  | sramScrubRead (a : Fin 62) (flips : List Nat)
  /-- SCRUB_WRITEBACK (R596): A corrected word is written back in the next free array cycle unless an agent has written it since. `word`
  is the address / 8. -/
  | scrubWriteback (word : Nat)
  /-- DRAM_SCRUB_READ (R611): The DRAM scrubber reads its next block, writes back CEs and records each lap. The bits of
  the block's 64 bytes that have flipped, a mask for each byte; those of a word's check byte stand at bits 8 to 15 of one of its masks. -/
  | dramScrubRead (flips : List Nat)
  /-- DRAM_TEMP_READ (R610): Every 1 ms the DRAM die temperatures are read and the refresh rate is set. Die temperatures in °C. -/
  | dramTempRead (ts : List Int)
  /-- FILL_GO (R605): A write of MEM_FILLCMD.GO starts a fill, or refuses it with a code. -/
  | fillGo (who : Agent) (v : Word)
  /-- FILL_DONE (R606): A fill ends, loading CAUSE DONE and setting FILL. -/
  | fillDone
  /-- MEM_SINIT_WRITE (R604): A write to MEM_SINIT marks shared SRAM arrays initialised for the scrubber. -/
  | memSinitWrite (who : Agent) (v : Word)
  /-- HFRAC_ADVANCE (R625): Every 500,000 REFCLK cycles HFRAC advances, and HOURS increments when HFRAC passes 3,599. -/
  | hfracAdvance
  /-- HISTOGRAM_SAMPLE (R627): Once per second the odometer adds one to the histogram bin of each reading. -/
  | histogramSample
  /-- EXTREME_CHECK (R630): Every 1 ms the odometer replaces any extreme that a reading strictly exceeds. Readings: 0.25 °C, mV, mV. -/
  | extremeCheck (tjc : Int) (vcore vaon : Nat)
  /-- SNAPSHOT_CAPTURE (R631): The running totals are captured into the AON buffer for one of the snapshot causes. -/
  | snapshotCapture
  /-- SNAPSHOT_WRITE_DONE (R635): A snapshot copy has been written to MRAM and read back, or it fails and counts in ODO_SNAPERR. -/
  | snapshotWriteDone (good : Bool)
  /-- ODO_SNAP (R632): A write of ODO_CMD.SNAP requests a COMMAND snapshot at the next phase 0. -/
  | odoSnap (who : Agent)
  /-- ODO_CLR (R643): A write to ODO_CLR from H3 under maintenance writes a clear-history entry, or is refused. -/
  | odoClr (who : Agent) (v : Word)
  /-- CLEAR_APPLY (R644): At the first phase 0 after the entry is valid, the selected odometer parts are zeroed and a CLEAR snapshot is
  captured. -/
  | clearApply
  /-- ISLAND_RELEASE (R662): The island supervisor releases the island from RESET into STARTING. -/
  | islandRelease
  /-- ISLAND_SAMPLE (R665): At phase 0 the island samples SI, SO_RB and SAFE_CFG and updates filters, switch acceptance and readback
  faults. Levels of SI and SO_RB, SAFE_CFG, and errors corrected in island SRAM since the last sample (15 R660). -/
  | islandSample (si rb cfg : Word) (ces : Nat)
  /-- TP_PULSE_START (R671): A TP output is driven low from phase 1,000 in its pulse tick. -/
  | tpPulseStart (k : Fin 4)
  /-- TP_PULSE_CHECK (R672): The island samples the inputs fed from a test pulse before it ends; a high level is fault SI_TP. -/
  | tpPulseCheck (k : Fin 4) (si : Word)
  /-- TP_PULSE_END (R671): A test pulse of TPW µs ends, and TPk returns high. -/
  | tpPulseEnd (k : Fin 4)
  /-- SO_OFF_PULSE_START (R676): A safe output that is on is switched off for its off pulse. -/
  | soOffPulseStart (n : Fin 16)
  /-- SO_OFF_PULSE_CHECK (R676): 500 ns before the off pulse ends, SO_RB is sampled; a 1 is fault SO_OPFAIL. -/
  | soOffPulseCheck (n : Fin 16) (rb : Bool)
  /-- SO_OFF_PULSE_END (R677): An off pulse ends, the output turns on again, and SAF_OPCNT counts a pass. -/
  | soOffPulseEnd (n : Fin 16)
  /-- RULE_EVALUATION (R686): From phase 5,800 the rule unit evaluates every rule against the permit vector. `mis` names a rule on which
  the two halves of the rule unit differ (15 R657). -/
  | ruleEvaluation (mis : Option Nat)
  /-- ISLAND_OUTPUT_UPDATE (R687): At phase 9,300 the SO outputs, the force lines and the SAFE-D image change together. -/
  | islandOutputUpdate
  /-- RULE_DELAY_EXPIRY (R686): A demanding rule's delay of 100 × DLY ticks runs out, and its SOM acts. -/
  | ruleDelayExpiry (r : Fin 32)
  /-- DISCREPANCY_EXPIRY (R673): The permits of a pair have differed for more than DISC ms, which is fault SI_DISC. -/
  | discrepancyExpiry (p : Fin 12)
  /-- NODE_FRESH_TIMEOUT (R682): A safe node's last fresh frame ages beyond SWD, and the node becomes not fresh. -/
  | nodeFreshTimeout (k : Fin 16)
  /-- LOCKSTEP (R657): The comparator finds the lockstep cores differ, which is fault LOCKSTEP. -/
  | lockstep
  /-- CLOCK_FAULT (R658): The island's cycle count per tick leaves its window, or a tick boundary fails to arrive, which is fault CLOCK. -/
  | clockFault
  /-- VSAFE (R659): VDD_SAFE leaves LOW to HIGH, which is fault VSAFE. -/
  | vsafe (mv : Nat)
  /-- DEGTIME (R691): The degraded timer runs out, which is fault DEGTIME. -/
  | degtime
  /-- SAF_ACK (R688): A write of 1 to SAF_ACK from an authorised host port acknowledges at the next evaluation. -/
  | safAck (who : Agent) (v : Word)
  /-- PCIE_PERST (R878): PCIE_PERST_L goes low and resets the H0 link as a fundamental reset. -/
  | pciePerst
  /-- H0_LINK_LOSS (R716): The H0 link is lost, and open descriptors end with LINK. -/
  | h0LinkLoss
  /-- BAR4_WRITE (R710): A write to BAR4 is discarded and counted in HPC_BARREF. -/
  | bar4Write
  /-- HPC_CQTAIL (R739): A write of HPC_CQTAIL submits command-ring entries to the host command engine. -/
  | hpcCqtail (who : Agent) (t : RingTail)
  /-- PING (R736): PING returns TICK[31:0] and CLAIM_EPOCH. -/
  | ping (h : HostCmd)
  /-- RDSIG (R736): RDSIG returns the store entries of a range of SIDs. -/
  | rdsig (h : HostCmd)
  /-- WRSIG (R738): WRSIG writes SID and VALUE pairs as P3 transactions and returns a status for each. -/
  | wrsig (h : HostCmd)
  /-- RDREG (R899): RDREG reads BAR0 words in ascending order and reports the first access error. -/
  | rdreg (h : HostCmd)
  /-- WRREG (R899): WRREG writes BAR0 words in ascending order and stops at the first word not written as sent. -/
  | wrreg (h : HostCmd)
  /-- RDMEM (R736): RDMEM returns journal, MRAM or DRAM bytes. `flips` are the bits of those bytes that have flipped (13 R587). -/
  | rdmem (h : HostCmd) (flips : List Nat)
  /-- CLAIM (R746): CLAIM sets a supervisor's requested claim within its port ceiling, or is refused. -/
  | claim (h : HostCmd)
  /-- HBEAT (R744): HBEAT keeps a supervisor's heartbeat path up. -/
  | hbeat (h : HostCmd)
  /-- CLMSTAT (R736): CLMSTAT returns CLM_STAT and CLAIM_EPOCH. -/
  | clmstat (h : HostCmd)
  /-- EVENT (R736): EVENT raises one of the events 96 to 127. -/
  | event (h : HostCmd)
  /-- MAIL (R740): MAIL sends one DATA frame through the host command engine's mail queue. -/
  | mail (h : HostCmd)
  /-- MAIL_RESPONSE (R740): A MAIL command completes on the node's reply, its acknowledgement, a timeout or LOST. -/
  | mailResponse
  /-- WARM (R736): WARM requests a warm restart and is answered after CORE is released. -/
  | warm (h : HostCmd)
  /-- ALMREAD (R736): ALMREAD returns alarm table entries. -/
  | almread (h : HostCmd)
  /-- ALMACK (R753): ALMACK frees the alarm entry of a code, or resets entry 255. -/
  | almack (h : HostCmd)
  /-- ATTEST (R760): ATTEST starts signing a quote over a nonce, or returns BUSY. -/
  | attest (h : HostCmd)
  /-- ATTEST_DONE (R760): The quote signature completes and the ATTEST response is sent. -/
  | attestDone
  /-- QREAD (R736): QREAD returns bytes of the last quote. -/
  | qread (h : HostCmd)
  /-- CSTSTAGE (R826): CSTSTAGE writes bytes of a new consist into the bank that is not running, and starts verification at END. -/
  | cststage (h : HostCmd)
  /-- STAGE_VERIFY_DONE (R827): Verification of a staged consist ends with STAGE 3 or a loaded CST_STGERR. -/
  | stageVerifyDone
  /-- CSTSWAP (R829): CSTSWAP checks the swap conditions and starts a swap by warm restart. -/
  | cstswap (h : HostCmd)
  /-- CSTPATCH (R833): CSTPATCH checks a patch whole and schedules it for tick APPLY. -/
  | cstpatch (h : HostCmd)
  /-- PATCH_APPLY (R836): In the last cycle of tick APPLY − 1 the patch records are written, or the patch waits or is dropped. -/
  | patchApply
  /-- FLREAD (R736): FLREAD reads bytes of the xSPI flash. -/
  | flread (h : HostCmd)
  /-- FLERASE (R772): FLERASE erases 4 KiB flash sectors, or returns BUSY for the running slot. -/
  | flerase (h : HostCmd)
  /-- FLWRITE (R772): FLWRITE writes flash bytes, or returns BUSY for the running slot. -/
  | flwrite (h : HostCmd)
  /-- DEVICE_FRAME (R724): A tool-LAN device frame arrives and enters the command queue, or is discarded and counted. On another port than
  the tool LAN, whose known opcodes have rows of their own, it is a command with OP, CFL and CSEQ alone. -/
  | deviceFrame (port : HostPort) (head : DevHead) (op cfl : Byte) (cseq : Word)
  /-- HSR_FRAME (R720): An HSR frame is received and is forwarded, taken, discarded as a duplicate or removed. The port, source MAC, HSR
  sequence number, whether the tag is well formed, whether the frame is for the Poermun alone, whether it is an HBEAT command for it,
  and how it passes through the Poermun where it is forwarded (R721). -/
  | hsrFrame (portB : Bool) (mac : BitVec 48) (seq : BitVec 16) (tagOk alone hbeat : Bool) (p : Passing)
  /-- HSR_SUPERVISION (R720): The 2 s supervision interval runs out and HSR supervision frames are sent. -/
  | hsrSupervision
  /-- TOOL_LAN_LINK_LOSS (R723): PCS synchronisation is lost on a port for more than 1 ms, which counts as a link loss. -/
  | toolLanLinkLoss (portB : Bool)
  /-- PTP_SYNC (R727): A PTP Sync arrives, and the servo measures the offset and updates the trim target and PTPLOCK. -/
  | ptpSync (portB : Bool) (times : PtpTimes) (interval master : Nat)
  /-- PTP_SYNC_TIMEOUT (R728): Three Sync intervals pass without a Sync, and PTPLOCK becomes 0. -/
  | ptpSyncTimeout
  /-- USB_ATTACH (R729): H3 attaches once CORE runs, or detaches at a warm restart. -/
  | usbAttach (attach configured highSpeed : Bool)
  /-- DQ_TAIL (R715): A write of HPC_DQqTAIL adds descriptors to a DMA queue for acceptance. -/
  | dqTail (who : Agent) (q : Fin 8) (v : Word)
  /-- DESCRIPTOR_END (R716): A DMA descriptor ends with a status, advances HEAD, and may halt its queue. `code` is the status that the
  link gave it (16 R716); `data` what a DIR 1 transfer has brought. -/
  | descriptorEnd (q : Fin 8) (code : Fin 7) (data : List Byte)
  /-- COMPLETION_TIMEOUT (R716): A DMA completion does not arrive within 50 ms, and the descriptor ends with TIMEOUT. -/
  | completionTimeout (q : Fin 8)
  /-- DQ_ENABLE (R716): A write of 1 to HPC_DQqCTL.EN enables or resumes a DMA queue. -/
  | dqEnable (who : Agent) (q : Fin 8)
  /-- CLM_HB (R744): A write to CLM_HB from H0 is a path-1 heartbeat of the home-H0 supervisor. -/
  | clmHb (who : Agent)
  /-- PATH_TIMEOUT (R745): A heartbeat path has had no heartbeat for TO × PER ms and goes down. Path 1 is `p` = 0, path 2 `p` = 1. -/
  | pathTimeout (k : Fin 16) (p : Fin 2)
  /-- HOLD_EXPIRY (R745): A PENDING supervisor has had every path up for HOLD and becomes LIVE. -/
  | holdExpiry (k : Fin 16)
  /-- ALMRAISE (R751): A write to HPC_ALMRAISE raises an alarm into the alarm table. -/
  | almraise (who : Agent) (v : Word)
  /-- ARB_COMMIT (R758): A write of COMMITn to SEC_ARBCMD raises an anti-rollback counter to the running version. -/
  | arbCommit (who : Agent) (v : Word)
  /-- FUSE_JTAGCLOSE (R731): A write of the key value to SEC_FUSECMD blows fuse JTAGCLOSE. -/
  | fuseJtagclose (who : Agent) (v : Word)
  /-- VSUP_SAMPLE (R787): VSUP_SENSE is sampled every 1,000 ns, and the supply-sag governor is evaluated. -/
  | vsupSample (k : Fin 10) (mv : BitVec 16)
  /-- STAGE_LEAVE (R789): The leave timer of the highest stage runs out, the stage is left, and its actions are undone. -/
  | stageLeave
  /-- JOURNAL_SEAL_DONE (R793): The journal seal of step timers and hitch pages into MRAM completes, or is abandoned with SEALFAIL. -/
  | journalSealDone (good : Bool)
  /-- WARM_L (R775): WARM_L has been low for 10 µs after being high, which raises fault WARMPIN. -/
  | warmL
  /-- SYS_RSTREQ (R775): A core's write of the key value to SYS_RSTREQ raises fault WARMREQ. -/
  | sysRstreq (who : Agent) (v : Word)
  /-- WARM_RESTART_START (R778): At T0 the sequencer accepts a restart cause: the cores halt, channels stop and HOLD is set. -/
  | warmRestartStart
  /-- CORE_RESET (R778): At phase 9,600 with no CAN frame in progress, DRAM enters self-refresh and CORE is reset. DMA queues whose
  oldest descriptor is on the link (16 R718). -/
  | coreReset (onLink : List Nat)
  /-- RESTART_RELOAD_DONE (R778): The TCMs are reloaded, the consist is re-verified, and the consist is applied to the CORE blocks.
  Mirror and journal records found uncorrectable, and the TARGET of an image read with other bytes. -/
  | restartReloadDone (mirrorBad journalBad : List Nat) (bad : Option Nat)
  /-- ENGINE_RESUME (R164): At the next tick boundary the loop engine, dispatcher and recorder resume and the cores are released. -/
  | engineResume
  /-- RSTLATE (R779): The engines have not resumed by T0 + 20 ms, which is fault RSTLATE of class COLD. -/
  | rstlate
  /-- SYS_FACK (R799): A write of SYS_FACK removes a NOTE or ALARM entry at the head of the fault queue. -/
  | sysFack (who : Agent) (v : Word)
  /-- GOVERNOR_SLOT (R784): A start slot of the start governor admits the highest-priority pending island start. -/
  | governorSlot (k : Fin 10)
  /-- ISLAND_POWER_GOOD (R784): A started island reports power good 800 ns after its slot. -/
  | islandPowerGood (j : Fin 32)
  /-- LEDGER_CHECK (R852): At phase 9,700 the checker captures every ledger and tests each balance. Ledgers whose counters met an
  uncorrectable error (19 R856). -/
  | ledgerCheck (ue : List Nat)
  /-- LDG_SNAP (R860): A write of LDG_CMD.SNAP copies the next check's capture into the snapshot bank. -/
  | ldgSnap (who : Agent) (v : Word)
  /-- REGISTER_WRITE (R15): A write to a register with no row of its own acts under its field types and its port's authority. `more`
  tells that another port operation of the same dispatcher cycle follows (12 R552). `hi` is the upper word of a 64-bit access, and `flips`
  are the bits of the word read by a DRAM write of less than a word that have flipped (13 R608). -/
  | registerWrite (who : Agent) (addr : LocalAddr) (width : Width) (v hi : Word) (flips : List Nat) (more : Bool)
  /-- REFBAD_CLEAR (R440): A converter's reference returns within 1 % of nominal and REFBAD returns to 0. -/
  | refbadClear (k : Fin 8)
  /-- THERM_REARM (R768): A controller-die reading at or below 145 °C re-arms THERM so that a later rise raises it again. -/
  | thermRearm
  /-- RX_BLOCK_LOCK_REGAINED (R337): An Ewene receive port regains clause 107 block lock, or EWA_LOS or EWB_LOS falls. -/
  | rxBlockLockRegained (ring : Fin 2)
  /-- TLN_LINK_UP (R762): A tool-LAN port gains PCS synchronisation and TLN_STAT.LINKA or LINKB becomes 1. -/
  | tlnLinkUp (portB : Bool)
  /-- H0_LINK_UP (R709): The H0 PCIe link finishes training, after power-up or after PCIE_PERST_L rises, and HPC_STAT.LINKUP becomes 1. -/
  | h0LinkUp (gen : Fin 8) (link : H0Trained)
  /-- USB_VBUS_CHANGE (R783): A USB host is attached or detached at USB_VBUS, which requests a start of the H3 PHY island or lets it
  gate. -/
  | usbVbusChange (on : Bool)
  /-- TAP_INSTRUCTION (R731): An instruction is shifted into the JTAG TAP, and the instruction is offered or replaced by BYPASS
  according to JTAGCLOSE. -/
  | tapInstruction (code : TapCode)
  /-- MEMUE (R660): An uncorrectable error is read in island SRAM by the island or its own 50 ms scrubber, which is fault MEMUE. -/
  | memue
  /-- SELF_TEST_DONE (R663): The lockstep cores complete their self-test in STARTING, and a failure takes the island to SAFE. -/
  | selfTestDone (pass : Bool)
  /-- VWARN_CHANGE (R659): VDD_SAFE crosses 3 % above LOW, and SAF_STAT.VWARN changes. -/
  | vwarnChange (mv : Nat)
  /-- CAN_BUS_INTEGRATION (R381): A CAN channel that is integrating sees 11 recessive bits, joins the bus and leaves STATE 0. -/
  | canBusIntegration (n : Fin 8)
  /-- CAN_START_OF_FRAME (R366): A pending CAN buffer begins its start of frame and enters arbitration, winning or losing it. -/
  | canStartOfFrame (n : Fin 8) (ph : Phase) (won : Bool)
  deriving DecidableEq, Repr

end Sys2Proof
end

