-- ==== Sys2Proof/WellFormed.lean ====
section
/-!
DEFINITION. Which commands can occur: the lengths and ranges of operands that the constructors' types do not fix.
-/

namespace Sys2Proof

/-- A node address (06 glossary). -/
def nodeOk (d : Fin 64) : Bool := decide (1 ≤ d.val) && decide (d.val ≤ 62)

/-- A returned copy of a packet of `n` bytes; empty where none came back. -/
def copyOk (n : Nat) (b : List Byte) : Bool := b.isEmpty || b.length == n

/-- The body of a command is at most 1,456 bytes (16 R735). -/
def HostCmd.wf (h : HostCmd) : Bool := decide (h.body.length ≤ 1456)

/-- The operands lie within the ranges of the spec. DESIGN CHOICE (notes/assumptions/19.md). -/
def Instr.wf (i : Instr) : Bool :=
  match i with
  | .porstLRising _ => true
  | .porstLLow => true
  | .refclkFault => true
  | .vddAonLow => true
  | .vddAonRecovered => true
  | .vmon .. => true
  | .therm => true
  | .thermsd => true
  | .coldResetHoldEnd .. => true
  | .pllLocked => true
  | .pllLockLost => true
  | .zeroFillDone => true
  | .dramTrainingDone => true
  | .mramReadable => true
  | .manifestCheck => true
  | .imageLoadDone => true
  | .consistVerified => true
  | .consistLoad => true
  | .bootDone => true
  | .tickBoundary _ fabNs busy => decide (fabNs.toNat < 1000000000) && busy.all (fun n => decide (n < 32))
  | .syncOutPulseEnd => true
  | .readSysTicklo .. => true
  | .readSysFabtlo .. => true
  | .readLowWordCapture .. => true
  | .storeValueRead .. => true
  | .p3QueueWrite .. => true
  | .p3ArbiterTake => true
  | .bar2JournalWrite => true
  | .sigClrPeakclr .. => true
  | .tileCommitPoint => true
  | .slotEvaluation .. => true
  | .resultCommit => true
  | .slotShWrite .. => true
  | .slotLvWrite .. => true
  | .slotCsWrite .. => true
  | .slotEnable _ _ _ v => v.getLsbD 0
  | .slotDisable _ _ _ v => !v.getLsbD 0
  | .flagclr .. => true
  | .injStart .. => true
  | .injStop .. => true
  | .capArm .. => true
  | .capStop .. => true
  | .compartmentReturn _ _ comp bytes => decide (comp < 400) && bytes.length == 64
  | .coachHeaderReturn _ bytes _ => bytes.length == 64
  | .landing => true
  | .coachCut => true
  | .mailWindow => true
  | .mailRetransmit => true
  | .uplinkFrame d _ _ _ => nodeOk d
  | .mtxtailWrite .. => true
  | .surveyRoundStart => true
  | .enumReturn a b _ => copyOk 1012 a && copyOk 1012 b
  | .delayReturn a b _ _ _ _ _ => copyOk 516 a && copyOk 516 b
  | .rxBlockLockLoss .. => true
  | .breakHeal => true
  | .nctlReadmit _ d => nodeOk d
  | .nctlExclude _ d _ => nodeOk d
  | .canFrameValid _ _ frame => decide (frame.sofPhase < 10000) && decide (frame.data.length ≤ 64)
  | .canTxreq .. => true
  | .canTxabort .. => true
  | .canRelease .. => true
  | .canWindowExpiry .. => true
  | .canFrameEnd .. => true
  | .canBusError _ _ code _ _ => decide (1 ≤ code.val) && decide (code.val ≤ 6)
  | .busoffRecovery .. => true
  | .canRecover .. => true
  | .canOnWrite .. => true
  | .fbEdgeAccepted .. => true
  | .fbSample .. => true
  | .serialWordDecode .. => true
  | .comparePulseEnd .. => true
  | .cmpvalWrite .. => true
  | .fbOnWrite .. => true
  | .syncEntryStart .. => true
  | .adcEntryEnd .. => true
  | .adcEntryResult .. => true
  | .refbad .. => true
  | .adcOnWrite .. => true
  | .adcGo .. => true
  | .pwmPeriodStart _ j => decide (j < 100)
  | .pwmOnWrite .. => true
  | .reductionWindowEnd .. => true
  | .setEnable .. => true
  | .setArm .. => true
  | .setRelease .. => true
  | .setStop .. => true
  | .setTrig .. => true
  | .trgArm .. => true
  | .trgDisarm .. => true
  | .trgFire .. => true
  | .triggerRearm .. => true
  | .eventRaise .. => true
  | .pendingCart => true
  | .postctl .. => true
  | .postStallRelease => true
  | .take .. => true
  | .done .. => true
  | .cancel .. => true
  | .evraise .. => true
  | .stepctl .. => true
  | .stepTimerFire => true
  | .stepWaitCart => true
  | .deferredDue => true
  | .jcommit .. => true
  | .jcommitComplete .. => true
  | .watchdogExpiry .. => true
  | .wdkick .. => true
  | .coreStopTimeout .. => true
  | .sramScrubRead _ flips => flips.length == 8 && flips.all (fun m => decide (m < 8192))
  | .scrubWriteback word => decide (word < 2 ^ 38)
  | .dramScrubRead flips => flips.length == 64 && flips.all (fun m => decide (m < 65536))
  | .dramTempRead ts => !ts.isEmpty
  | .fillGo .. => true
  | .fillDone => true
  | .memSinitWrite .. => true
  | .hfracAdvance => true
  | .histogramSample => true
  | .extremeCheck _ vcore vaon => decide (vcore < 65536) && decide (vaon < 65536)
  | .snapshotCapture => true
  | .snapshotWriteDone .. => true
  | .odoSnap .. => true
  | .odoClr .. => true
  | .clearApply => true
  | .islandRelease => true
  | .islandSample .. => true
  | .tpPulseStart .. => true
  | .tpPulseCheck .. => true
  | .tpPulseEnd .. => true
  | .soOffPulseStart .. => true
  | .soOffPulseCheck .. => true
  | .soOffPulseEnd .. => true
  | .ruleEvaluation mis => mis.all (fun r => decide (r < 32))
  | .islandOutputUpdate => true
  | .ruleDelayExpiry .. => true
  | .discrepancyExpiry .. => true
  | .nodeFreshTimeout .. => true
  | .lockstep => true
  | .clockFault => true
  | .vsafe .. => true
  | .degtime => true
  | .safAck .. => true
  | .pciePerst => true
  | .h0LinkLoss => true
  | .bar4Write => true
  | .hpcCqtail _ t => t.images.all (fun b => decide (b.length ≤ 2048))
  | .ping h => h.wf
  | .rdsig h => h.wf
  | .wrsig h => h.wf
  | .rdreg h => h.wf
  | .wrreg h => h.wf
  | .rdmem h _ => h.wf
  | .claim h => h.wf
  | .hbeat h => h.wf
  | .clmstat h => h.wf
  | .event h => h.wf
  | .mail h => h.wf
  | .mailResponse => true
  | .warm h => h.wf
  | .almread h => h.wf
  | .almack h => h.wf
  | .attest h => h.wf
  | .attestDone => true
  | .qread h => h.wf
  | .cststage h => h.wf
  | .stageVerifyDone => true
  | .cstswap h => h.wf
  | .cstpatch h => h.wf
  | .patchApply => true
  | .flread h => h.wf
  | .flerase h => h.wf
  | .flwrite h => h.wf
  | .deviceFrame .. => true
  | .hsrFrame _ _ _ _ _ _ p => decide (p.stay ≤ 5000)
  | .hsrSupervision => true
  | .toolLanLinkLoss .. => true
  | .ptpSync _ _ interval _ => decide (0 < interval)
  | .ptpSyncTimeout => true
  | .usbAttach .. => true
  | .dqTail .. => true
  | .descriptorEnd _ code data => code != 0 && decide (data.length ≤ 2 ^ 24)
  | .completionTimeout .. => true
  | .dqEnable .. => true
  | .clmHb .. => true
  | .pathTimeout .. => true
  | .holdExpiry .. => true
  | .almraise .. => true
  | .arbCommit .. => true
  | .fuseJtagclose .. => true
  | .vsupSample .. => true
  | .stageLeave => true
  | .journalSealDone .. => true
  | .warmL => true
  | .sysRstreq .. => true
  | .warmRestartStart => true
  | .coreReset onLink => onLink.all (fun q => decide (q < 8))
  | .restartReloadDone mirrorBad journalBad bad => mirrorBad.all (fun l => decide (l < 4096)) && journalBad.all (fun j => decide (j < 8192)) && bad.all (fun t => decide (t < 12))
  | .engineResume => true
  | .rstlate => true
  | .sysFack .. => true
  | .governorSlot .. => true
  | .islandPowerGood .. => true
  | .ledgerCheck ue => ue.all (fun l => decide (l < 16))
  | .ldgSnap .. => true
  | .registerWrite .. => true
  | .refbadClear .. => true
  | .thermRearm => true
  | .rxBlockLockRegained .. => true
  | .tlnLinkUp .. => true
  | .h0LinkUp gen link => link.cfg.all (fun e => decide (e.1 < 4096)) && decide (1 ≤ gen.val) && decide (gen.val ≤ 5) &&
    (link.width == 1 || link.width == 2 || link.width == 4)
  | .usbVbusChange .. => true
  | .tapInstruction .. => true
  | .memue => true
  | .selfTestDone .. => true
  | .vwarnChange .. => true
  | .canBusIntegration .. => true
  | .canStartOfFrame .. => true

end Sys2Proof
end

