-- ==== Sys2Proof/Machine/Bits.lean ====
section
/-!
DEFINITION. Bit fields of words, little-endian images, and the arithmetic helpers of 00_scope.md R21.
-/

namespace Sys2Proof.Machine

/-- Bits [hi:lo] of a word as a number (00 R10). -/
def fld (w : Word) (hi lo : Nat) : Nat := (w.toNat >>> lo) % 2 ^ (hi + 1 - lo)

/-- Bit `b` of a word. -/
def bit (w : Word) (b : Nat) : Bool := fld w b b == 1

/-- The word with bits [hi:lo] replaced by the low bits of `v`; every other bit as before. -/
def setFld (w : Word) (hi lo v : Nat) : Word :=
  BitVec.ofNat 32 ((w.toNat - (fld w hi lo <<< lo)) + ((v % 2 ^ (hi + 1 - lo)) <<< lo))

/-- The word with bit `b` set to `x`. -/
def setBit (w : Word) (b : Nat) (x : Bool) : Word := setFld w b b x.toNat

/-- A Bool as the number 0 or 1. -/
def b2n (b : Bool) : Nat := b.toNat

/-- Bit `b` of a number. -/
def natBit (n b : Nat) : Bool := n / 2 ^ b % 2 == 1

/-- A number with bit `b` set. -/
def natSetBit (n b : Nat) : Nat := if natBit n b then n else n + 2 ^ b

/-- A number with bit `b` clear. -/
def natClrBit (n b : Nat) : Nat := if natBit n b then n - 2 ^ b else n

/-- The S32 value a word holds (00 R12). -/
def s32 (w : Word) : Int := w.toInt

/-- The word image of an integer, two's complement, low 32 bits. -/
def w32 (x : Int) : Word := BitVec.ofInt 32 x

/-- The word image of a number, low 32 bits. -/
def wn (n : Nat) : Word := BitVec.ofNat 32 n

/-- `x` limited to lo … hi, applied as min(max(x, lo), hi) (04 R182). -/
def clampI (x lo hi : Int) : Int := min (max x lo) hi

/-- sat32 of 00 R21. -/
def sat32 (x : Int) : Int := clampI x (-2147483648) 2147483647

/-- sat64 of 00 R21. -/
def sat64 (x : Int) : Int := clampI x (-9223372036854775808) 9223372036854775807

/-- x / d rounded to the nearest integer, ties to even, for a positive divisor. -/
def divNE (x : Int) (d : Nat) : Int :=
  let q := x / (d : Int)
  let r := x % (d : Int)
  if 2 * r < d then q
  else if 2 * r > d then q + 1
  else if q % 2 = 0 then q else q + 1

/-- round_ne(x, n) of 00 R21: x / 2^n to the nearest integer, ties to even. -/
def roundNE (x : Int) (n : Nat) : Int := divNE x (2 ^ n)

/-- The bytes of a number, least significant first (00 R13). -/
def leBytes : Nat → Nat → List Byte
  | 0, _ => []
  | k + 1, n => BitVec.ofNat 8 n :: leBytes k (n / 256)

/-- The number a little-endian byte list holds. -/
def ofLe : List Byte → Nat
  | [] => 0
  | b :: bs => b.toNat + 256 * ofLe bs

/-- The bytes of a number, most significant first. -/
def beBytes (k n : Nat) : List Byte := (leBytes k n).reverse

/-- The number a big-endian byte list holds. -/
def ofBe (bs : List Byte) : Nat := ofLe bs.reverse

/-- `n` bytes of value `b`. -/
def bytesOf (n : Nat) (b : Byte) : List Byte := List.replicate n b

/-- The first `n` bytes of a list, padded with zeros to exactly `n`. -/
def padTo (n : Nat) (l : List Byte) : List Byte := l.take n ++ List.replicate (n - l.length) 0

/-- Bytes [o, o+n) of a list, zero beyond its end. -/
def sliceB (l : List Byte) (o n : Nat) : List Byte := padTo n (l.drop o)

/-- The little-endian number in bytes [o, o+n) of a list. -/
def leAt (l : List Byte) (o n : Nat) : Nat := ofLe (sliceB l o n)

/-- How many of the numbers below `n` satisfy `p`. -/
def countBelow (n : Nat) (p : Nat → Bool) : Nat := ((List.range n).filter p).length

/-- Number of bits set among bits 0 … n−1. -/
def popcount (n x : Nat) : Nat := countBelow n (natBit x)

end Sys2Proof.Machine
end

