-- ==== Sys2Proof/Machine/Crc.lean ====
section
/-!
DEFINITION. The CRCs of the spec: CRC-32C (06 R257) and CRC-32, and the short CRC of serial encoders and CAN-style polynomials.
-/

namespace Sys2Proof.Machine

/-- One bit of a reflected CRC register with the reflected polynomial `p`. -/
def crcBit (p r : Nat) : Nat := if r % 2 = 1 then Nat.xor (r / 2) p else r / 2

/-- One byte into a reflected CRC register. -/
def crcByte (p r : Nat) (b : Byte) : Nat :=
  let x := Nat.xor r b.toNat
  crcBit p (crcBit p (crcBit p (crcBit p (crcBit p (crcBit p (crcBit p (crcBit p x)))))))

/-- A reflected 32-bit CRC with initial value and final XOR 0xFFFF_FFFF. -/
def crcRefl (p : Nat) (bs : List Byte) : Nat := Nat.xor (bs.foldl (crcByte p) 0xFFFFFFFF) 0xFFFFFFFF

/-- CRC-32C of 06 R257: polynomial 0x1EDC_6F41, reflected. -/
def crc32c (bs : List Byte) : Nat := crcRefl 0x82F63B78 bs

end Sys2Proof.Machine
end

