-- ==== Sys2Proof/Config.lean ====
section
/-!
DEFINITION. What the spec leaves open: uninterpreted constants with no body, so that no proof can see a value.
-/

namespace Sys2Proof.Config

/-- The cart index the dispatcher picks where several are free (12 R536 leaves the choice open): where it starts to look. -/
opaque cartPick : Nat → Nat
/-- Where between phases 5,000 and 5,800 a compartment's landing is stamped (01 R49), by compartment. -/
opaque landOffset : Nat → Nat
/-- The tag the engine chooses for a mail request (16 R740). -/
opaque mailTag : Nat → Nat
/-- Whether the firmware of a core that runs waits in WFI (12 R534, R583), by 16 × ns since cold boot + core. -/
opaque coreWaits : Nat → Bool
/-- The byte of a memory that nothing has written since power-up (13 R602, 17 R898), by local address. -/
opaque powerUpByte : Nat → BitVec 8
/-- The damage of the byte of a memory that nothing has written since power-up (13 R602): its check bits are arbitrary too. -/
opaque powerUpFlips : Nat → BitVec 13
/-- What the DRAM code makes of three or more flips of a word, and the check byte of a word (13 R607): its columns are internal. -/
opaque secdedSyndrome : Nat → Nat
opaque secdedCheck : Nat → Nat
/-- The byte of the boot flash that nothing has written, by flash offset: what the tool maker put there is outside the spec. -/
opaque flashByte : Nat → BitVec 8
/-- The sweep increment of 05 R216 where the product leaves 64 bits, by the exact product. -/
opaque sweepOver : Nat → Nat
/-- The fuse contents: serial number, MAC, key hashes (16 R754, R765), by register address. -/
opaque fuseWord : Nat → BitVec 32
/-- The fuses that no window exposes: the 256-bit device secret (16 R754), by byte, and the vendor and product IDs of H3 (16 R729). -/
opaque secretByte : Nat → BitVec 8
opaque usbFuses : BitVec 32
/-- A free value for each draw, where the spec names a result without stating it. -/
opaque freeNat : Nat → Nat

end Sys2Proof.Config
end

