-- ==== Sys2Proof/Machine/RegMap.lean ====
section
/-!
DEFINITION. The register map: every register of the spec's register tables, with its offset, its cold word, the bits of
each type (00 R15) and what a warm restart does to each bit (00 R16). Rows follow the tables of chapters 01 to 19.
-/

namespace Sys2Proof.Machine

/-- One row of the register map: `count` registers `stride` apart from `off` in a unit of its block; then the cold word and
the masks of the bits that are RW, W1C, W1S, CS, SH and LV, of the bits kept and taken from the consist at a warm restart,
the warm word of the other bits, and the bits whose cold value comes from the consist (18 R818). -/
structure RegRow where
  off : Nat
  count : Nat
  stride : Nat
  cold : Nat
  rw : Nat
  w1c : Nat
  w1s : Nat
  cs : Nat
  sh : Nat
  lv : Nat
  keep : Nat
  cons : Nat
  warm : Nat
  img : Nat
  deriving DecidableEq, Repr

/-- Register rows of the SYS block. The stepping of SYS_ID is the fuses' (17 R801): 0 here, loaded in the cold sequence.
DEDUCED (notes/assumptions/26.md). -/
def rowsSYS0 : List RegRow := [
  ⟨0x100, 1, 4, 0x0, 0x0, 0x0, 0x0, 0x0, 0x0, 0x0, 0xFFFFFFFF, 0x0, 0x0, 0x0⟩ /- SYS_TICKLO R60 -/,
  ⟨0x104, 1, 4, 0x0, 0x0, 0x0, 0x0, 0x0, 0x0, 0x0, 0xFFFF, 0x0, 0x0, 0x0⟩ /- SYS_TICKHI R61 -/,
  ⟨0x108, 1, 4, 0x0, 0x0, 0x0, 0x0, 0x0, 0x0, 0x0, 0x3FFF, 0x0, 0x0, 0x0⟩ /- SYS_PHASE R62 -/,
  ⟨0x10C, 1, 4, 0x54, 0xFFC, 0x0, 0x0, 0x0, 0x3, 0x0, 0xFFF, 0x0, 0x0, 0x3⟩ /- SYS_TBCTL R63 -/,
  ⟨0x110, 1, 4, 0x0, 0x0, 0x0, 0x0, 0x0, 0xFFFFFFFF, 0x0, 0xFFFFFFFF, 0x0, 0x0, 0x0⟩ /- SYS_TBTRIM R64 -/,
  ⟨0x114, 1, 4, 0x0, 0x0, 0x0, 0x0, 0x0, 0x0, 0x0, 0xFFFFFFFF, 0x0, 0x0, 0x0⟩ /- SYS_TBTRIMEFF R65 -/,
  ⟨0x118, 1, 4, 0x0, 0x0, 0x18, 0x0, 0x0, 0x0, 0x0, 0x1F, 0x0, 0x0, 0x0⟩ /- SYS_TBSTAT R66 -/,
  ⟨0x11C, 1, 4, 0x0, 0x0, 0x0, 0x0, 0x0, 0x0, 0x0, 0xFFFFFFFF, 0x0, 0x0, 0x0⟩ /- SYS_FABTLO R67 -/,
  ⟨0x120, 1, 4, 0x0, 0x0, 0x0, 0x0, 0x0, 0x0, 0x0, 0xFFFFFFFF, 0x0, 0x0, 0x0⟩ /- SYS_FABHI R68 -/,
  ⟨0x124, 1, 4, 0x0, 0x0, 0x0, 0x0, 0x0, 0x0, 0x0, 0xFFFFFFFF, 0x0, 0x0, 0x0⟩ /- SYS_FABSEC R69 -/,
  ⟨0x128, 1, 4, 0x0, 0x0, 0x0, 0x0, 0x0, 0x0, 0x0, 0xBFFFFFFF, 0x0, 0x0, 0x0⟩ /- SYS_FABNS R70 -/,
  ⟨0x0, 1, 4, 0x92000000, 0x0, 0x0, 0x0, 0x0, 0x0, 0x0, 0xFFFFFF00, 0x0, 0x0, 0x0⟩ /- SYS_ID R801 -/,
  ⟨0x4, 1, 4, 0x0, 0x0, 0x0, 0x0, 0x0, 0x0, 0x0, 0x7, 0x0, 0x0, 0x0⟩ /- SYS_STAT R801 -/,
  ⟨0x8, 1, 4, 0x0, 0x0, 0x0, 0x0, 0x0, 0x0, 0x0, 0xFFFFFF, 0x0, 0x0, 0x0⟩ /- SYS_RSTCAUSE R801 -/,
  ⟨0xC, 1, 4, 0x0, 0x0, 0x0, 0x0, 0x0, 0x0, 0x0, 0xFFFFFF, 0x0, 0x0, 0x0⟩ /- SYS_WARMLAST R801 -/,
  ⟨0x10, 1, 4, 0x0, 0x0, 0x0, 0x0, 0x0, 0x0, 0x0, 0xFFFFFFFF, 0x0, 0x0, 0x0⟩ /- SYS_WARMDUR R801 -/,
  ⟨0x14, 1, 4, 0x0, 0xF, 0x0, 0x0, 0x0, 0x0, 0x0, 0xF, 0x0, 0x0, 0xF⟩ /- SYS_RSTCFG R801 -/,
  ⟨0x18, 1, 4, 0x0, 0x0, 0x0, 0x0, 0x0, 0x0, 0x0, 0x0, 0x0, 0x0, 0x0⟩ /- SYS_RSTREQ R801 -/,
  ⟨0x1C, 1, 4, 0x0, 0x0, 0x0, 0x0, 0x0, 0x0, 0x0, 0xFFFFFFFF, 0x0, 0x0, 0x0⟩ /- SYS_EPOCH R801 -/,
  ⟨0x20, 1, 4, 0x0, 0x0, 0x0, 0x0, 0x0, 0x0, 0x0, 0xFFFFFFFF, 0x0, 0x0, 0x0⟩ /- SYS_BOOTT R801 -/,
  ⟨0x30, 1, 4, 0x0, 0x0, 0x0, 0x0, 0x0, 0x0, 0x0, 0x71F, 0x0, 0x0, 0x0⟩ /- SYS_FQSTAT R801 -/,
  ⟨0x34, 1, 4, 0x0, 0x0, 0x0, 0x0, 0x0, 0x0, 0x0, 0x0, 0x0, 0x0, 0x0⟩ /- SYS_FACK R801 -/,
  ⟨0x38, 1, 4, 0x0, 0x0, 0x0, 0x0, 0x0, 0x0, 0x0, 0xFFFFFFFF, 0x0, 0x0, 0x0⟩ /- SYS_FQLOST R801 -/,
  ⟨0x3C, 1, 4, 0x1, 0x1, 0x0, 0x0, 0x0, 0x0, 0x0, 0x1, 0x0, 0x0, 0x0⟩ /- SYS_FCTL R801 -/,
  ⟨0x40, 1, 4, 0x0, 0x0, 0xF, 0x0, 0x0, 0x0, 0x0, 0xF, 0x0, 0x0, 0x0⟩ /- SYS_EVT R801 -/]

/-- Register rows of the SYS block, part 1. -/
def rowsSYS1 : List RegRow := [
  ⟨0x44, 1, 4, 0xF, 0xF, 0x0, 0x0, 0x0, 0x0, 0x0, 0xF, 0x0, 0x0, 0x0⟩ /- SYS_EVTEN R801 -/,
  ⟨0x200, 16, 8, 0x0, 0x0, 0x0, 0x0, 0x0, 0x0, 0x0, 0xFF07FFFF, 0x0, 0x0, 0x0⟩ /- SYS_FQLO R801 -/,
  ⟨0x204, 16, 8, 0x0, 0x0, 0x0, 0x0, 0x0, 0x0, 0x0, 0xFFFFFFFF, 0x0, 0x0, 0x0⟩ /- SYS_FQHI R801 -/]

/-- Register rows of the SYS block, all parts. -/
def rowsSYS : List RegRow := rowsSYS0 ++ rowsSYS1

/-- Register rows of the PWR block. -/
def rowsPWR : List RegRow := [
  ⟨0x0, 1, 4, 0x0, 0x0, 0x0, 0x0, 0x0, 0x0, 0x0, 0x1F, 0x0, 0x0, 0x0⟩  /- PWR_STAT R802 -/,
  ⟨0x4, 1, 4, 0x0, 0x0, 0x0, 0x0, 0x0, 0x0, 0x0, 0xFFFF, 0x0, 0x0, 0x0⟩  /- PWR_VSUP R802 -/,
  ⟨0x8, 1, 4, 0x0, 0x0, 0x0, 0x0, 0x0, 0x0, 0x0, 0xFFFF, 0x0, 0x0, 0x0⟩  /- PWR_VCORE R802 -/,
  ⟨0xC, 1, 4, 0x0, 0x0, 0x0, 0x0, 0x0, 0x0, 0x0, 0xFFFF, 0x0, 0x0, 0x0⟩  /- PWR_VAON R802 -/,
  ⟨0x10, 1, 4, 0x0, 0x0, 0x0, 0x0, 0x0, 0x0, 0x0, 0xFFFF, 0x0, 0x0, 0x0⟩  /- PWR_TJC R802 -/,
  ⟨0x14, 1, 4, 0x0, 0x0, 0x0, 0x0, 0x0, 0x0, 0x0, 0xFFFFFFFF, 0x0, 0x0, 0x0⟩  /- PWR_STAGET R802 -/,
  ⟨0x18, 1, 4, 0x0, 0x0, 0x0, 0x0, 0x0, 0x0, 0x0, 0x7FFFFFF, 0x0, 0x0, 0x0⟩  /- PWR_ISLPWR R802 -/,
  ⟨0x1C, 1, 4, 0x0, 0x0, 0x0, 0x0, 0x0, 0x0, 0x0, 0x7FFFFFF, 0x0, 0x0, 0x0⟩  /- PWR_ISLREQ R802 -/,
  ⟨0x20, 1, 4, 0x0, 0x0, 0x0, 0x0, 0x0, 0x0, 0x0, 0xFFFFFFFF, 0x0, 0x0, 0x0⟩  /- PWR_GOVCNT R802 -/,
  ⟨0x24, 1, 4, 0x0, 0x0, 0x0, 0x0, 0x0, 0x0, 0x0, 0xFFFFFFFF, 0x0, 0x0, 0x0⟩  /- PWR_GOVQCNT R802 -/,
  ⟨0x28, 1, 4, 0x0, 0x0, 0x0, 0x0, 0x0, 0x0, 0x0, 0xFFFFFFFF, 0x0, 0x0, 0x0⟩  /- PWR_GOVMAXD R802 -/,
  ⟨0x30, 1, 4, 0x0, 0x0, 0x3F, 0x0, 0x0, 0x0, 0x0, 0x3F, 0x0, 0x0, 0x0⟩  /- PWR_EVT R802 -/,
  ⟨0x34, 1, 4, 0x3D, 0x3F, 0x0, 0x0, 0x0, 0x0, 0x0, 0x3F, 0x0, 0x0, 0x0⟩  /- PWR_EVTEN R802 -/]

/-- Register rows of the SEC block. -/
def rowsSEC : List RegRow := [
  ⟨0x0, 1, 4, 0x0, 0x0, 0x0, 0x0, 0x0, 0x0, 0x0, 0xFFFFFFFF, 0x0, 0x0, 0x0⟩  /- SEC_SERIALLO R765 -/,
  ⟨0x4, 1, 4, 0x0, 0x0, 0x0, 0x0, 0x0, 0x0, 0x0, 0xFFFFFFFF, 0x0, 0x0, 0x0⟩  /- SEC_SERIALHI R765 -/,
  ⟨0x8, 1, 4, 0x0, 0x0, 0x0, 0x0, 0x0, 0x0, 0x0, 0x7F01FD, 0x0, 0x0, 0x0⟩  /- SEC_BOOTSTAT R765 -/,
  ⟨0xC, 1, 4, 0x0, 0x0, 0x0, 0x0, 0x0, 0x0, 0x0, 0x1FFF, 0x0, 0x0, 0x0⟩  /- SEC_FUSE R765 -/,
  ⟨0x10, 1, 4, 0x0, 0x0, 0x0, 0x0, 0x0, 0x0, 0x0, 0x7F, 0x0, 0x0, 0x0⟩  /- SEC_ARB0 R765 -/,
  ⟨0x14, 1, 4, 0x0, 0x0, 0x0, 0x0, 0x0, 0x0, 0x0, 0x7F, 0x0, 0x0, 0x0⟩  /- SEC_ARB1 R765 -/,
  ⟨0x18, 1, 4, 0x0, 0x0, 0x0, 0x0, 0x0, 0x0, 0x0, 0x0, 0x0, 0x0, 0x0⟩  /- SEC_ARBCMD R765 -/,
  ⟨0x1C, 1, 4, 0x0, 0x0, 0x0, 0x0, 0x0, 0x0, 0x0, 0x0, 0x0, 0x0, 0x0⟩  /- SEC_FUSECMD R765 -/,
  ⟨0x20, 1, 4, 0x0, 0x0, 0x0, 0x0, 0x0, 0x0, 0x0, 0x3, 0x0, 0x0, 0x0⟩  /- SEC_QSTAT R765 -/,
  ⟨0x24, 1, 4, 0x0, 0x0, 0x3, 0x0, 0x0, 0x0, 0x0, 0x3, 0x0, 0x0, 0x0⟩  /- SEC_EVT R765 -/,
  ⟨0x28, 1, 4, 0x3, 0x3, 0x0, 0x0, 0x0, 0x0, 0x0, 0x3, 0x0, 0x0, 0x0⟩  /- SEC_EVTEN R765 -/,
  ⟨0x40, 8, 4, 0x0, 0x0, 0x0, 0x0, 0x0, 0x0, 0x0, 0xFFFFFFFF, 0x0, 0x0, 0x0⟩  /- SEC_MANHASH R765 -/,
  ⟨0x60, 8, 4, 0x0, 0x0, 0x0, 0x0, 0x0, 0x0, 0x0, 0xFFFFFFFF, 0x0, 0x0, 0x0⟩  /- SEC_CSTHASH R765 -/,
  ⟨0x80, 8, 4, 0x0, 0x0, 0x0, 0x0, 0x0, 0x0, 0x0, 0xFFFFFFFF, 0x0, 0x0, 0x0⟩  /- SEC_DEVPK R765 -/,
  ⟨0x100, 32, 4, 0x0, 0x0, 0x0, 0x0, 0x0, 0x0, 0x0, 0xFFFFFFFF, 0x0, 0x0, 0x0⟩  /- SEC_KEYHASH R765 -/,
  ⟨0x1000, 4312, 4, 0x0, 0x0, 0x0, 0x0, 0x0, 0x0, 0x0, 0xFFFFFFFF, 0x0, 0x0, 0x0⟩  /- SEC_QUOTE R765 -/]

/-- Register rows of the CST block. -/
def rowsCST : List RegRow := [
  ⟨0x0, 1, 4, 0x0, 0x0, 0x0, 0x0, 0x0, 0x0, 0x0, 0x7F, 0x0, 0x0, 0x0⟩  /- CST_STAT R839 -/,
  ⟨0x4, 1, 4, 0x0, 0x0, 0x0, 0x0, 0x0, 0x0, 0x0, 0xFFFFFFFF, 0x0, 0x0, 0x0⟩  /- CST_ID R839 -/,
  ⟨0x8, 1, 4, 0x0, 0x0, 0x0, 0x0, 0x0, 0x0, 0x0, 0x7F, 0x0, 0x0, 0x0⟩  /- CST_VERSION R839 -/,
  ⟨0xC, 1, 4, 0x0, 0x0, 0x0, 0x0, 0x0, 0x0, 0x0, 0xFFFFFFFF, 0x0, 0x0, 0x0⟩  /- CST_LEN R839 -/,
  ⟨0x10, 1, 4, 0x0, 0x0, 0x0, 0x0, 0x0, 0x0, 0x0, 0xFFFFFFFF, 0x0, 0x0, 0x0⟩  /- CST_STGLEN R839 -/,
  ⟨0x14, 1, 4, 0x0, 0x0, 0x0, 0x0, 0x0, 0x0, 0x0, 0xFFFFFFFF, 0x0, 0x0, 0x0⟩  /- CST_STGID R839 -/,
  ⟨0x18, 1, 4, 0x0, 0x0, 0x0, 0x0, 0x0, 0x0, 0x0, 0xFFFFFFFF, 0x0, 0x0, 0x0⟩  /- CST_LOADERR R839 -/,
  ⟨0x1C, 1, 4, 0x0, 0x0, 0x0, 0x0, 0x0, 0x0, 0x0, 0xFFFFFFFF, 0x0, 0x0, 0x0⟩  /- CST_STGERR R839 -/,
  ⟨0x20, 1, 4, 0x0, 0x0, 0x0, 0x0, 0x0, 0x0, 0x0, 0xFF00007F, 0x0, 0x0, 0x0⟩  /- CST_PERR R839 -/,
  ⟨0x24, 1, 4, 0x0, 0x0, 0x0, 0x0, 0x0, 0x0, 0x0, 0xFFFFFFFF, 0x0, 0x0, 0x0⟩  /- CST_PCNT R839 -/,
  ⟨0x28, 1, 4, 0x0, 0x0, 0x0, 0x0, 0x0, 0x0, 0x0, 0xFFFFFFFF, 0x0, 0x0, 0x0⟩  /- CST_PCRC R839 -/,
  ⟨0x2C, 1, 4, 0x0, 0x0, 0x0, 0x0, 0x0, 0x0, 0x0, 0x0, 0x0, 0x0, 0x0⟩  /- CST_PAPPLY R839 -/,
  ⟨0x30, 1, 4, 0x0, 0x0, 0x0, 0x0, 0x0, 0x0, 0x0, 0xFFFFFFFF, 0x0, 0x0, 0x0⟩  /- CST_PLOST R839 -/,
  ⟨0x34, 1, 4, 0x0, 0x0, 0x0, 0x0, 0x0, 0x0, 0x0, 0xFFFFFFFF, 0x0, 0x0, 0x0⟩  /- CST_CSREF R839 -/,
  ⟨0x38, 1, 4, 0x0, 0x0, 0x0, 0x0, 0x0, 0x0, 0x0, 0xFFFFFFFF, 0x0, 0x0, 0x0⟩  /- CST_SWAPCNT R839 -/,
  ⟨0x40, 1, 4, 0x0, 0x0, 0x0, 0x0, 0x0, 0x0, 0x0, 0xFFFFFFFF, 0x0, 0x0, 0x0⟩  /- CST_SEATPENDLO R839 -/,
  ⟨0x44, 1, 4, 0x0, 0x0, 0x0, 0x0, 0x0, 0x0, 0x0, 0xFFFFFFFF, 0x0, 0x0, 0x0⟩  /- CST_SEATPENDHI R839 -/,
  ⟨0x50, 1, 4, 0x0, 0x0, 0x3F, 0x0, 0x0, 0x0, 0x0, 0x3F, 0x0, 0x0, 0x0⟩  /- CST_EVT R839 -/,
  ⟨0x54, 1, 4, 0x3F, 0x3F, 0x0, 0x0, 0x0, 0x0, 0x0, 0x3F, 0x0, 0x0, 0x0⟩  /- CST_EVTEN R839 -/]

/-- Register rows of the SIG block. -/
def rowsSIG : List RegRow := [
  ⟨0x0, 1, 4, 0x0, 0x0, 0x0, 0x0, 0x0, 0x0, 0x0, 0x3, 0x0, 0x0, 0x0⟩  /- SIG_STAT R114 -/,
  ⟨0x4, 1, 4, 0x0, 0x0, 0x0, 0x0, 0x0, 0x0, 0x0, 0x7FFFF, 0x0, 0x0, 0x0⟩  /- SIG_NDECL R115 -/,
  ⟨0x8, 1, 4, 0x0, 0x0, 0x0, 0x0, 0x0, 0x0, 0x0, 0x7FFFF, 0x0, 0x0, 0x0⟩  /- SIG_NOUT R115 -/,
  ⟨0x10, 4, 4, 0x0, 0x0, 0x0, 0x0, 0x0, 0x0, 0x0, 0xFFFFFFFF, 0x0, 0x0, 0x0⟩  /- SIG_PCNT R116 -/,
  ⟨0x20, 4, 4, 0x0, 0x0, 0x0, 0x0, 0x0, 0x0, 0x0, 0x7FF, 0x0, 0x0, 0x0⟩  /- SIG_PPEAK R117 -/,
  ⟨0x30, 1, 4, 0x0, 0x0, 0x0, 0x0, 0x0, 0x0, 0x0, 0xFFFFFFFF, 0x0, 0x0, 0x0⟩  /- SIG_PRODERR R118 -/,
  ⟨0x38, 1, 4, 0x0, 0x0, 0x0, 0x0, 0x0, 0x0, 0x0, 0xFFFFFFFF, 0x0, 0x0, 0x0⟩  /- SIG_GATEREF R118 -/,
  ⟨0x40, 1, 4, 0x0, 0x0, 0x0, 0x0, 0x0, 0x0, 0x0, 0xFFFFFFFF, 0x0, 0x0, 0x0⟩  /- SIG_FORCEREF R118 -/,
  ⟨0x44, 1, 4, 0x0, 0x0, 0x0, 0x0, 0x0, 0x0, 0x0, 0xFFFFFFFF, 0x0, 0x0, 0x0⟩  /- SIG_CLAMPCNT R118 -/,
  ⟨0x48, 1, 4, 0x0, 0x0, 0x0, 0x0, 0x0, 0x0, 0x0, 0xFFFFFFFF, 0x0, 0x0, 0x0⟩  /- SIG_UECNT R118 -/,
  ⟨0x34, 1, 4, 0x0, 0x0, 0x0, 0x0, 0x0, 0x0, 0x0, 0xF803FFFF, 0x0, 0x0, 0x0⟩  /- SIG_PRODLAST R119 -/,
  ⟨0x3C, 1, 4, 0x0, 0x0, 0x0, 0x0, 0x0, 0x0, 0x0, 0xF803FFFF, 0x0, 0x0, 0x0⟩  /- SIG_GATELAST R119 -/,
  ⟨0x4C, 1, 4, 0x0, 0x0, 0x0, 0x0, 0x0, 0x0, 0x0, 0x7FFFF, 0x0, 0x0, 0x0⟩  /- SIG_HELDCNT R120 -/,
  ⟨0x50, 1, 4, 0x0, 0x0, 0x0, 0x0, 0x0, 0x0, 0x0, 0xFFFF, 0x0, 0x0, 0x0⟩  /- SIG_FORCESTAT R121 -/,
  ⟨0x60, 1, 4, 0x0, 0x0, 0x1F, 0x0, 0x0, 0x0, 0x0, 0x1F, 0x0, 0x0, 0x0⟩  /- SIG_EVT R122 -/,
  ⟨0x64, 1, 4, 0x1F, 0x1F, 0x0, 0x0, 0x0, 0x0, 0x0, 0x1F, 0x0, 0x0, 0x0⟩  /- SIG_EVTEN R123 -/,
  ⟨0x68, 1, 4, 0x0, 0x0, 0x0, 0x0, 0x0, 0x0, 0x0, 0x0, 0x0, 0x0, 0x0⟩  /- SIG_CLR R124 -/]

/-- Register rows of the LPE block. -/
def rowsLPE : List RegRow := [
  ⟨0x0, 1, 4, 0x0, 0x0, 0x0, 0x0, 0x0, 0x0, 0x0, 0x0, 0x0, 0x0, 0x0⟩  /- LPE_STAT R166 -/,
  ⟨0x4, 1, 4, 0x0, 0x0, 0x0, 0x0, 0x0, 0x0, 0x0, 0xFFFFFFFF, 0x0, 0x0, 0x0⟩  /- LPE_RESUME R167 -/,
  ⟨0x8, 1, 4, 0x0, 0x0, 0x0, 0x0, 0x0, 0x0, 0x0, 0xFFFFFFFF, 0x0, 0x0, 0x0⟩  /- LPE_OVERRUN R168 -/,
  ⟨0xC, 1, 4, 0x0, 0x0, 0x0, 0x0, 0x0, 0x0, 0x0, 0xFFFFFFFF, 0x0, 0x0, 0x0⟩  /- LPE_LOST R168 -/,
  ⟨0x10, 1, 4, 0x0, 0x0, 0x0, 0x0, 0x0, 0x0, 0x0, 0xFFFFFFFF, 0x0, 0x0, 0x0⟩  /- LPE_SHQLOST R168 -/]

/-- Register rows of the EWN block. -/
def rowsEWN0 : List RegRow := [
  ⟨0x0, 1, 4, 0x0, 0x0, 0x0, 0x0, 0x0, 0x0, 0x0, 0x3, 0x0, 0x0, 0x0⟩ /- EWN_STAT R293 -/,
  ⟨0x4, 1, 4, 0x0, 0x0, 0x0, 0x0, 0xF1FF, 0x0, 0x0, 0xF1FF, 0x0, 0x0, 0xF1FF⟩ /- EWN_TTCFG R294 -/,
  ⟨0x8, 1, 4, 0x0, 0x0, 0x0, 0x0, 0xFFFFFFFF, 0x0, 0x0, 0xFFFFFFFF, 0x0, 0x0, 0xFFFFFFFF⟩ /- EWN_TTVER R295 -/,
  ⟨0x10, 1, 4, 0x0, 0x0, 0x0, 0x0, 0x0, 0x0, 0x0, 0xFFFFFFFF, 0x0, 0x0, 0x0⟩ /- EWN_LANDCNT R296 -/,
  ⟨0x14, 1, 4, 0x0, 0x0, 0x0, 0x0, 0x0, 0x0, 0x0, 0xFFFFFFFF, 0x0, 0x0, 0x0⟩ /- EWN_MISSCNT R296 -/,
  ⟨0x18, 1, 4, 0x0, 0x0, 0x0, 0x0, 0x0, 0x0, 0x0, 0xFFFFFFFF, 0x0, 0x0, 0x0⟩ /- EWN_CRCA R296 -/,
  ⟨0x1C, 1, 4, 0x0, 0x0, 0x0, 0x0, 0x0, 0x0, 0x0, 0xFFFFFFFF, 0x0, 0x0, 0x0⟩ /- EWN_CRCB R296 -/,
  ⟨0x20, 1, 4, 0x0, 0x0, 0x0, 0x0, 0x0, 0x0, 0x0, 0xFFFFFFFF, 0x0, 0x0, 0x0⟩ /- EWN_HCRC R296 -/,
  ⟨0x24, 1, 4, 0x0, 0x0, 0x0, 0x0, 0x0, 0x0, 0x0, 0xFFFFFFFF, 0x0, 0x0, 0x0⟩ /- EWN_NARROW R296 -/,
  ⟨0x28, 1, 4, 0x0, 0x0, 0x0, 0x0, 0x0, 0x0, 0x0, 0xF00001FF, 0x0, 0x0, 0x0⟩ /- EWN_MISSLAST R297 -/,
  ⟨0x40, 1, 4, 0x0, 0x0, 0x0, 0x0, 0x0, 0xFCFFFF0F, 0x0, 0xFCFFFF0F, 0x0, 0x0, 0xFCFFFF0F⟩ /- EWN_MAILCFG R298 -/,
  ⟨0x44, 1, 4, 0x0, 0xFFFF, 0x0, 0x0, 0x0, 0x0, 0x0, 0xFFFF, 0x0, 0x0, 0x0⟩ /- EWN_MTXTAIL R299 -/,
  ⟨0x48, 1, 4, 0x0, 0x0, 0x0, 0x0, 0x0, 0x0, 0x0, 0xFFFF, 0x0, 0x0, 0x0⟩ /- EWN_MTXHEAD R299 -/,
  ⟨0x4C, 1, 4, 0x0, 0x0, 0x0, 0x0, 0x0, 0x0, 0x0, 0xFFFF, 0x0, 0x0, 0x0⟩ /- EWN_MRXTAIL R299 -/,
  ⟨0x50, 1, 4, 0x0, 0xFFFF, 0x0, 0x0, 0x0, 0x0, 0x0, 0xFFFF, 0x0, 0x0, 0x0⟩ /- EWN_MRXHEAD R299 -/,
  ⟨0x54, 1, 4, 0x0, 0x0, 0x0, 0x0, 0x0, 0x0, 0x0, 0xFFFFFFFF, 0x0, 0x0, 0x0⟩ /- EWN_MTXCNT R300 -/,
  ⟨0x58, 1, 4, 0x0, 0x0, 0x0, 0x0, 0x0, 0x0, 0x0, 0xFFFFFFFF, 0x0, 0x0, 0x0⟩ /- EWN_MRXCNT R300 -/,
  ⟨0x5C, 1, 4, 0x0, 0x0, 0x0, 0x0, 0x0, 0x0, 0x0, 0xFFFFFFFF, 0x0, 0x0, 0x0⟩ /- EWN_MRETX R300 -/,
  ⟨0x60, 1, 4, 0x0, 0x0, 0x0, 0x0, 0x0, 0x0, 0x0, 0xFFFFFFFF, 0x0, 0x0, 0x0⟩ /- EWN_MLOST R300 -/,
  ⟨0x64, 1, 4, 0x0, 0x0, 0x0, 0x0, 0x0, 0x0, 0x0, 0xFFFFFFFF, 0x0, 0x0, 0x0⟩ /- EWN_MDUP R300 -/,
  ⟨0x68, 1, 4, 0x0, 0x0, 0x0, 0x0, 0x0, 0x0, 0x0, 0xFFFFFFFF, 0x0, 0x0, 0x0⟩ /- EWN_CARRUNUSED R300 -/,
  ⟨0x6C, 1, 4, 0x0, 0x0, 0x0, 0x0, 0x0, 0x0, 0x0, 0x3FFFFF, 0x0, 0x0, 0x0⟩ /- EWN_MLOSTLAST R301 -/,
  ⟨0x70, 1, 4, 0x0, 0x0, 0xF, 0x0, 0x0, 0x0, 0x0, 0xF, 0x0, 0x0, 0x0⟩ /- EWN_EVT R302 -/,
  ⟨0x74, 1, 4, 0x7, 0xF, 0x0, 0x0, 0x0, 0x0, 0x0, 0xF, 0x0, 0x0, 0x0⟩ /- EWN_EVTEN R303 -/,
  ⟨0x84, 62, 4, 0x0, 0x0, 0x0, 0x0, 0x0, 0x0, 0x0, 0x11F1F, 0x0, 0x0, 0x1F00⟩ /- EWN_NMAIL R305 -/]

/-- Register rows of the EWN block, part 1. -/
def rowsEWN1 : List RegRow := [
  ⟨0x200, 1, 4, 0x0, 0x0, 0x0, 0x0, 0x0, 0xFF0F, 0x0, 0xFF0F, 0x0, 0x0, 0xFF0F⟩ /- EWN_SURVCFG R343 -/,
  ⟨0x204, 1, 4, 0x0, 0x0, 0x8, 0x0, 0x0, 0x0, 0x0, 0x3F, 0x0, 0x0, 0x0⟩ /- EWN_SURVSTAT R344 -/,
  ⟨0x208, 1, 4, 0x0, 0x0, 0x0, 0x0, 0x0, 0x0, 0x0, 0xFFFF, 0x0, 0x0, 0x0⟩ /- EWN_RTA R345 -/,
  ⟨0x20C, 1, 4, 0x0, 0x0, 0x0, 0x0, 0x0, 0x0, 0x0, 0xFFFF, 0x0, 0x0, 0x0⟩ /- EWN_RTB R345 -/,
  ⟨0x210, 1, 4, 0x0, 0x0, 0x0, 0x0, 0x0, 0x0, 0x0, 0xFFFFFFFF, 0x0, 0x0, 0x0⟩ /- EWN_BRKMARGIN R346 -/,
  ⟨0x214, 1, 4, 0x0, 0x0, 0x0, 0x0, 0x0, 0x0, 0x0, 0xFFFFFFFF, 0x0, 0x0, 0x0⟩ /- EWN_DIVCNT R346 -/,
  ⟨0x218, 1, 4, 0x0, 0x0, 0x0, 0x0, 0x0, 0x0, 0x0, 0xFFFFFFFF, 0x0, 0x0, 0x0⟩ /- EWN_BRKCNT R346 -/,
  ⟨0x21C, 1, 4, 0x0, 0x0, 0x0, 0x0, 0x0, 0x0, 0x0, 0xFFFFFFFF, 0x0, 0x0, 0x0⟩ /- EWN_SURVCNT R346 -/,
  ⟨0x220, 1, 4, 0x0, 0x0, 0x0, 0x0, 0x0, 0x0, 0x0, 0x1FF, 0x0, 0x0, 0x0⟩ /- EWN_DIVLAST R347 -/,
  ⟨0x230, 1, 4, 0x0, 0x0, 0x3F, 0x0, 0x0, 0x0, 0x0, 0x3F, 0x0, 0x0, 0x0⟩ /- EWN_EVT2 R348 -/,
  ⟨0x234, 1, 4, 0x1F, 0x3F, 0x0, 0x0, 0x0, 0x0, 0x0, 0x3F, 0x0, 0x0, 0x0⟩ /- EWN_EVTEN2 R348 -/,
  ⟨0x404, 62, 4, 0x0, 0x0, 0x0, 0x0, 0x0, 0x0, 0x0, 0xF00300F0, 0x0, 0x0, 0x0⟩ /- EWN_NSTAT R349 -/,
  ⟨0x504, 62, 4, 0x0, 0x0, 0x0, 0x0, 0x0, 0x0, 0x0, 0xFFFFFFFF, 0x0, 0x0, 0x0⟩ /- EWN_NDLYA R350 -/,
  ⟨0x604, 62, 4, 0x0, 0x0, 0x0, 0x0, 0x0, 0x0, 0x0, 0xFFFFFFFF, 0x0, 0x0, 0x0⟩ /- EWN_NDLYB R350 -/,
  ⟨0x704, 62, 4, 0x0, 0x2, 0x0, 0x0, 0x0, 0x0, 0x0, 0x2, 0x0, 0x0, 0x0⟩ /- EWN_NCTL R351 -/]

/-- Register rows of the EWN block, all parts. -/
def rowsEWN : List RegRow := rowsEWN0 ++ rowsEWN1

/-- Register rows of the TLN block. -/
def rowsTLN : List RegRow := [
  ⟨0x0, 1, 4, 0x0, 0x0, 0x0, 0x0, 0xF, 0x0, 0x0, 0xF, 0x0, 0x0, 0xF⟩  /- TLN_CTL R762 -/,
  ⟨0x4, 1, 4, 0x0, 0x0, 0x0, 0x0, 0x0, 0x0, 0x0, 0x1F, 0x0, 0x0, 0x0⟩  /- TLN_STAT R762 -/,
  ⟨0x8, 1, 4, 0x0, 0x0, 0x0, 0x0, 0x0, 0x0, 0x0, 0xFFFFFFFF, 0x0, 0x0, 0x0⟩  /- TLN_MACLO R762 -/,
  ⟨0xC, 1, 4, 0x0, 0x0, 0x0, 0x0, 0x0, 0x0, 0x0, 0xFFFF, 0x0, 0x0, 0x0⟩  /- TLN_MACHI R762 -/,
  ⟨0x10, 1, 4, 0x88B5, 0x0, 0x0, 0x0, 0xFFFF, 0x0, 0x0, 0xFFFF, 0x0, 0x0, 0xFFFF⟩  /- TLN_ETYPE R762, R724 -/,
  ⟨0x14, 1, 4, 0x0, 0x0, 0x0, 0x0, 0xFFFFFFFF, 0x0, 0x0, 0xFFFFFFFF, 0x0, 0x0, 0xFFFFFFFF⟩  /- TLN_ALMMACLO R762 -/,
  ⟨0x18, 1, 4, 0x0, 0x0, 0x0, 0x0, 0xFFFF, 0x0, 0x0, 0xFFFF, 0x0, 0x0, 0xFFFF⟩  /- TLN_ALMMACHI R762 -/,
  ⟨0x20, 1, 4, 0x0, 0x0, 0x0, 0x0, 0xFF, 0x0, 0x0, 0xFF, 0x0, 0x0, 0xFF⟩  /- TLN_PTPCFG R762 -/,
  ⟨0x24, 1, 4, 0x0, 0x0, 0x0, 0x0, 0x0, 0x0, 0x0, 0xFFFFFFFF, 0x0, 0x0, 0x0⟩  /- TLN_PTPOFS R762 -/,
  ⟨0x30, 1, 4, 0x0, 0x0, 0x0, 0x0, 0x0, 0x0, 0x0, 0xFFFFFFFF, 0x0, 0x0, 0x0⟩  /- TLN_RXCMD R762 -/,
  ⟨0x34, 1, 4, 0x0, 0x0, 0x0, 0x0, 0x0, 0x0, 0x0, 0xFFFFFFFF, 0x0, 0x0, 0x0⟩  /- TLN_CMDDROP R762 -/,
  ⟨0x38, 1, 4, 0x0, 0x0, 0x0, 0x0, 0x0, 0x0, 0x0, 0xFFFFFFFF, 0x0, 0x0, 0x0⟩  /- TLN_BADPFX R762 -/,
  ⟨0x3C, 1, 4, 0x0, 0x0, 0x0, 0x0, 0x0, 0x0, 0x0, 0xFFFFFFFF, 0x0, 0x0, 0x0⟩  /- TLN_DUP R762 -/,
  ⟨0x40, 1, 4, 0x0, 0x0, 0x0, 0x0, 0x0, 0x0, 0x0, 0xFFFFFFFF, 0x0, 0x0, 0x0⟩  /- TLN_LLOSSA R762 -/,
  ⟨0x44, 1, 4, 0x0, 0x0, 0x0, 0x0, 0x0, 0x0, 0x0, 0xFFFFFFFF, 0x0, 0x0, 0x0⟩  /- TLN_LLOSSB R762 -/,
  ⟨0x48, 1, 4, 0x0, 0x0, 0x0, 0x0, 0x0, 0x0, 0x0, 0xFFFFFFFF, 0x0, 0x0, 0x0⟩  /- TLN_ALMTX R762 -/,
  ⟨0x50, 1, 4, 0x0, 0x0, 0xF, 0x0, 0x0, 0x0, 0x0, 0xF, 0x0, 0x0, 0x0⟩  /- TLN_EVT R762 -/,
  ⟨0x54, 1, 4, 0xF, 0xF, 0x0, 0x0, 0x0, 0x0, 0x0, 0xF, 0x0, 0x0, 0x0⟩  /- TLN_EVTEN R762 -/]

/-- Register rows of the HPC block. -/
def rowsHPC0 : List RegRow := [
  ⟨0x0, 1, 4, 0x0, 0x0, 0x0, 0x0, 0x0, 0x0, 0x0, 0x17F, 0x0, 0x0, 0x0⟩ /- HPC_STAT R761 -/,
  ⟨0x10, 1, 4, 0x0, 0x0, 0x0, 0x0, 0xFFFFF800, 0x0, 0x0, 0xFFFFF800, 0x0, 0x0, 0x0⟩ /- HPC_CQBASELO R761 -/,
  ⟨0x14, 1, 4, 0x0, 0x0, 0x0, 0x0, 0xFFFFFFFF, 0x0, 0x0, 0xFFFFFFFF, 0x0, 0x0, 0x0⟩ /- HPC_CQBASEHI R761 -/,
  ⟨0x18, 1, 4, 0x0, 0x1F, 0x0, 0x0, 0x0, 0x0, 0x0, 0x1F, 0x0, 0x0, 0x0⟩ /- HPC_CQCTL R761 -/,
  ⟨0x1C, 1, 4, 0x0, 0xFFFFFFFF, 0x0, 0x0, 0x0, 0x0, 0x0, 0xFFFFFFFF, 0x0, 0x0, 0x0⟩ /- HPC_CQTAIL R761 -/,
  ⟨0x20, 1, 4, 0x0, 0x0, 0x0, 0x0, 0x0, 0x0, 0x0, 0xFFFFFFFF, 0x0, 0x0, 0x0⟩ /- HPC_CQHEAD R761 -/,
  ⟨0x24, 1, 4, 0x0, 0x0, 0x0, 0x0, 0xFFFFF800, 0x0, 0x0, 0xFFFFF800, 0x0, 0x0, 0x0⟩ /- HPC_RQBASELO R761 -/,
  ⟨0x28, 1, 4, 0x0, 0x0, 0x0, 0x0, 0xFFFFFFFF, 0x0, 0x0, 0xFFFFFFFF, 0x0, 0x0, 0x0⟩ /- HPC_RQBASEHI R761 -/,
  ⟨0x2C, 1, 4, 0x0, 0x0, 0x0, 0x0, 0x0, 0x0, 0x0, 0xFFFFFFFF, 0x0, 0x0, 0x0⟩ /- HPC_RQTAIL R761 -/,
  ⟨0x30, 1, 4, 0x0, 0xFFFFFFFF, 0x0, 0x0, 0x0, 0x0, 0x0, 0xFFFFFFFF, 0x0, 0x0, 0x0⟩ /- HPC_RQHEAD R761 -/,
  ⟨0x40, 1, 4, 0x0, 0x0, 0x0, 0x0, 0x0, 0x0, 0x0, 0xFFFFFFFF, 0x0, 0x0, 0x0⟩ /- HPC_BARREF R761 -/,
  ⟨0x44, 1, 4, 0x0, 0x0, 0x0, 0x0, 0x0, 0x0, 0x0, 0xFFFFFFFF, 0x0, 0x0, 0x0⟩ /- HPC_CMDCNT R761 -/,
  ⟨0x48, 1, 4, 0x0, 0x0, 0x0, 0x0, 0x0, 0x0, 0x0, 0xFFFFFFFF, 0x0, 0x0, 0x0⟩ /- HPC_AUTHREF R761 -/,
  ⟨0x50, 1, 4, 0x0, 0x0, 0x0, 0x0, 0x0, 0x0, 0x0, 0x0, 0x0, 0x0, 0x0⟩ /- HPC_ALMRAISE R761 -/,
  ⟨0x54, 1, 4, 0x0, 0xFFFFFFFF, 0x0, 0x0, 0x0, 0x0, 0x0, 0xFFFFFFFF, 0x0, 0x0, 0x0⟩ /- HPC_ALMDATA R761 -/,
  ⟨0x60, 8, 4, 0x0, 0x0, 0xFFFFFFFF, 0x0, 0x0, 0x0, 0x0, 0xFFFFFFFF, 0x0, 0x0, 0x0⟩ /- HPC_ALMDIRTY R761 -/,
  ⟨0x80, 1, 4, 0x0, 0x0, 0x0, 0x0, 0x0, 0x0, 0x0, 0x1FF, 0x0, 0x0, 0x0⟩ /- HPC_ALMCNT R761 -/,
  ⟨0x90, 1, 4, 0x0, 0x0, 0xF, 0x0, 0x0, 0x0, 0x0, 0xF, 0x0, 0x0, 0x0⟩ /- HPC_EVT R761 -/,
  ⟨0x94, 1, 4, 0xF, 0xF, 0x0, 0x0, 0x0, 0x0, 0x0, 0xF, 0x0, 0x0, 0x0⟩ /- HPC_EVTEN R761 -/,
  ⟨0x100, 32, 4, 0x0, 0x803F03FF, 0x0, 0x0, 0x0, 0x0, 0x0, 0x803F03FF, 0x0, 0x0, 0x0⟩ /- HPC_EVVEC R761 -/,
  ⟨0x200, 8, 32, 0x0, 0xFFFFFFE0, 0x0, 0x0, 0x0, 0x0, 0x0, 0xFFFFFFE0, 0x0, 0x0, 0x0⟩ /- HPC_DQBASELO R761 -/,
  ⟨0x204, 8, 32, 0x0, 0xFF, 0x0, 0x0, 0x0, 0x0, 0x0, 0xFF, 0x0, 0x0, 0x0⟩ /- HPC_DQBASEHI R761 -/,
  ⟨0x208, 8, 32, 0x0, 0x1F, 0x0, 0x0, 0x0, 0x0, 0x0, 0x1E, 0x0, 0x0, 0x0⟩ /- HPC_DQCTL R761 -/,
  ⟨0x20C, 8, 32, 0x0, 0xFFF, 0x0, 0x0, 0x0, 0x0, 0x0, 0xFFF, 0x0, 0x0, 0x0⟩ /- HPC_DQTAIL R761 -/,
  ⟨0x210, 8, 32, 0x0, 0x0, 0x0, 0x0, 0x0, 0x0, 0x0, 0xFFF, 0x0, 0x0, 0x0⟩ /- HPC_DQHEAD R761 -/]

/-- Register rows of the HPC block, part 1. -/
def rowsHPC1 : List RegRow := [
  ⟨0x214, 8, 32, 0x0, 0x0, 0x2, 0x0, 0x0, 0x0, 0x0, 0xF3, 0x0, 0x0, 0x0⟩ /- HPC_DQSTAT R761 -/,
  ⟨0x218, 8, 32, 0x0, 0x0, 0x0, 0x0, 0x0, 0x0, 0x0, 0xFFFFFFFF, 0x0, 0x0, 0x0⟩ /- HPC_DQDONE R761 -/,
  ⟨0x21C, 8, 32, 0x0, 0x0, 0x0, 0x0, 0x0, 0x0, 0x0, 0xFFFFFFFF, 0x0, 0x0, 0x0⟩ /- HPC_DQLAST R761 -/]

/-- Register rows of the HPC block, all parts. -/
def rowsHPC : List RegRow := rowsHPC0 ++ rowsHPC1

/-- Register rows of the SVC block. -/
def rowsSVC : List RegRow := [
  ⟨0x0, 1, 4, 0x0, 0x0, 0x0, 0x0, 0x0, 0x0, 0x0, 0x0, 0x0, 0x0, 0x0⟩  /- SVC_STAT R763 -/,
  ⟨0x4, 1, 4, 0x0, 0x0, 0x0, 0x0, 0x0, 0x0, 0x0, 0x0, 0x0, 0x0, 0x0⟩  /- SVC_RXCMD R763 -/,
  ⟨0x8, 1, 4, 0x0, 0x0, 0x0, 0x0, 0x0, 0x0, 0x0, 0x0, 0x0, 0x0, 0x0⟩  /- SVC_RSPLOST R763 -/,
  ⟨0x10, 1, 4, 0x0, 0x0, 0x3, 0x0, 0x0, 0x0, 0x0, 0x0, 0x0, 0x0, 0x0⟩  /- SVC_EVT R763 -/,
  ⟨0x14, 1, 4, 0x3, 0x3, 0x0, 0x0, 0x0, 0x0, 0x0, 0x0, 0x0, 0x3, 0x0⟩  /- SVC_EVTEN R763 -/]

/-- Register rows of the CLM block. -/
def rowsCLM : List RegRow := [
  ⟨0x0, 1, 4, 0x0, 0x0, 0x0, 0x0, 0x0, 0x0, 0x0, 0x1FFFFF, 0x0, 0x0, 0x0⟩  /- CLM_STAT R764 -/,
  ⟨0x4, 1, 4, 0x0, 0x0, 0x0, 0x0, 0x0, 0x0, 0x0, 0x0, 0x0, 0x0, 0x0⟩  /- CLM_HB R764 -/,
  ⟨0x8, 1, 4, 0x0, 0x0, 0x0, 0x0, 0x0, 0x0, 0x0, 0xFFFFFFFF, 0x0, 0x0, 0x0⟩  /- CLM_CHGCNT R764 -/,
  ⟨0xC, 1, 4, 0x0, 0x0, 0x0, 0x0, 0x0, 0x0, 0x0, 0xFFFFFFFF, 0x0, 0x0, 0x0⟩  /- CLM_PATHALMCNT R764 -/,
  ⟨0x10, 1, 4, 0x0, 0x0, 0x0, 0x0, 0x0, 0x0, 0x0, 0xFFFFFFFF, 0x0, 0x0, 0x0⟩  /- CLM_FAILCNT R764 -/,
  ⟨0x14, 1, 4, 0x0, 0x0, 0x0, 0x0, 0x0, 0x0, 0x0, 0xFFFFFFFF, 0x0, 0x0, 0x0⟩  /- CLM_CEILREF R764 -/,
  ⟨0x20, 1, 4, 0x0, 0x0, 0x1F, 0x0, 0x0, 0x0, 0x0, 0x1F, 0x0, 0x0, 0x0⟩  /- CLM_EVT R764 -/,
  ⟨0x24, 1, 4, 0x1F, 0x1F, 0x0, 0x0, 0x0, 0x0, 0x0, 0x1F, 0x0, 0x0, 0x0⟩  /- CLM_EVTEN R764 -/,
  ⟨0x100, 16, 16, 0x0, 0x0, 0x0, 0x0, 0x3FFF7F03, 0x0, 0x0, 0x3FFF7F03, 0x0, 0x0, 0x3FFF7F03⟩  /- CLM_SVCFG R764 -/,
  ⟨0x104, 16, 16, 0x0, 0x0, 0x0, 0x0, 0xFFFFFFFF, 0x0, 0x0, 0xFFFFFFFF, 0x0, 0x0, 0xFFFFFFFF⟩  /- CLM_SVMACLO R764 -/,
  ⟨0x108, 16, 16, 0x0, 0x0, 0x0, 0x0, 0xFFFF, 0x0, 0x0, 0xFFFF, 0x0, 0x0, 0xFFFF⟩  /- CLM_SVMACHI R764 -/,
  ⟨0x10C, 16, 16, 0x0, 0x0, 0x0, 0x0, 0x0, 0x0, 0x0, 0x3FFFFF, 0x0, 0x0, 0x0⟩  /- CLM_SVSTAT R764 -/]

/-- Register rows of the REC block. -/
def rowsREC0 : List RegRow := [
  ⟨0x0, 1, 4, 0x0, 0x0, 0x0, 0x0, 0x0, 0x0, 0x0, 0x0, 0x0, 0x0, 0x0⟩ /- REC_STAT R517 -/,
  ⟨0x4, 1, 4, 0x0, 0x0, 0x0, 0x0, 0x0, 0x0, 0x0, 0x0, 0xFFFFFFFF, 0x0, 0x0⟩ /- REC_DCEIL R517 -/,
  ⟨0x8, 1, 4, 0x0, 0x0, 0x0, 0x0, 0x0, 0x0, 0x0, 0x0, 0xFFFFFFFF, 0x0, 0x0⟩ /- REC_SCEIL R517 -/,
  ⟨0xC, 1, 4, 0x0, 0x0, 0x0, 0x0, 0x0, 0x0, 0x0, 0xFFFFFFFF, 0x0, 0x0, 0x0⟩ /- REC_TICKPEAK R517 -/,
  ⟨0x10, 1, 4, 0x0, 0x0, 0x0, 0x0, 0x0, 0x0, 0x0, 0xFFFFFFFF, 0x0, 0x0, 0x0⟩ /- REC_SHEDFROZEN R518 -/,
  ⟨0x14, 1, 4, 0x0, 0x0, 0x0, 0x0, 0x0, 0x0, 0x0, 0xFFFFFFFF, 0x0, 0x0, 0x0⟩ /- REC_SHEDSTRFULL R518 -/,
  ⟨0x18, 1, 4, 0x0, 0x0, 0x0, 0x0, 0x0, 0x0, 0x0, 0xFFFFFFFF, 0x0, 0x0, 0x0⟩ /- REC_SHEDSAG R518 -/,
  ⟨0x1C, 1, 4, 0x0, 0x0, 0x0, 0x0, 0x0, 0x0, 0x0, 0xFFFFFFFF, 0x0, 0x0, 0x0⟩ /- REC_SHEDBUDGET R518 -/,
  ⟨0x20, 1, 4, 0x0, 0x0, 0x0, 0x0, 0x0, 0x0, 0x0, 0xFFFFFFFF, 0x0, 0x0, 0x0⟩ /- REC_SHEDCMAX R518 -/,
  ⟨0x24, 1, 4, 0x0, 0x0, 0x0, 0x0, 0x0, 0x0, 0x0, 0xFFFFFFFF, 0x0, 0x0, 0x0⟩ /- REC_SHEDTYPE R518 -/,
  ⟨0x30, 1, 4, 0x0, 0x0, 0x0, 0x0, 0x0, 0x0, 0x0, 0xFFFFFFFF, 0x0, 0x0, 0x0⟩ /- REC_MTRGLAST R519 -/,
  ⟨0x34, 1, 4, 0x0, 0x0, 0x0, 0x0, 0x0, 0x0, 0x0, 0x0, 0x0, 0x0, 0x0⟩ /- REC_CFGERR R519 -/,
  ⟨0x1000, 64, 64, 0x0, 0x3C0001, 0x0, 0x0, 0x7C0FFFE, 0x0, 0x0, 0x0, 0x7FCFFFF, 0x0, 0x7FCFFFF⟩ /- REC_SETCFG R520 -/,
  ⟨0x1004, 64, 64, 0x0, 0x0, 0x0, 0x0, 0x3FFFF, 0x0, 0x0, 0x0, 0x3FFFF, 0x0, 0x3FFFF⟩ /- REC_SETSLO R521 -/,
  ⟨0x1008, 64, 64, 0x0, 0x0, 0x0, 0x0, 0x3FFFF, 0x0, 0x0, 0x0, 0x3FFFF, 0x0, 0x3FFFF⟩ /- REC_SETSHI R521 -/,
  ⟨0x100C, 64, 64, 0x0, 0x0, 0x0, 0x0, 0x0, 0xFFFFFFFF, 0x0, 0x0, 0xFFFFFFFF, 0x0, 0xFFFFFFFF⟩ /- REC_SETDB R521 -/,
  ⟨0x1010, 64, 64, 0x0, 0x0, 0x0, 0x0, 0xFFFFFFF, 0x0, 0x0, 0x0, 0xFFFFFFF, 0x0, 0xFFFFFFF⟩ /- REC_SETCHG R521 -/,
  ⟨0x1014, 64, 64, 0x0, 0x0, 0x0, 0x0, 0x1FFFFF, 0x0, 0x0, 0x0, 0x1FFFFF, 0x0, 0x1FFFFF⟩ /- REC_SETRED R521 -/,
  ⟨0x1018, 64, 64, 0x0, 0x0, 0x0, 0x0, 0x0, 0xFFFF, 0x0, 0x0, 0xFFFF, 0x0, 0xFFFF⟩ /- REC_SETGAP R521 -/,
  ⟨0x101C, 64, 64, 0x0, 0x0, 0x0, 0x0, 0x1FFFFFFF, 0x0, 0x0, 0x0, 0x1FFFFFFF, 0x0, 0x1FFFFFFF⟩ /- REC_SETRB R521 -/,
  ⟨0x1020, 64, 64, 0x0, 0x0, 0x0, 0x0, 0xFFFFFFFF, 0x0, 0x0, 0x0, 0xFFFFFFFF, 0x0, 0xFFFFFFFF⟩ /- REC_SETRS R521 -/,
  ⟨0x1024, 64, 64, 0x0, 0x0, 0x0, 0x0, 0x0, 0x0, 0xFFFFFFFF, 0x0, 0xFFFFFFFF, 0x0, 0xFFFFFFFF⟩ /- REC_SETPOST R521 -/,
  ⟨0x1028, 64, 64, 0x0, 0x0, 0x0, 0x0, 0x0, 0x0, 0x0, 0x0, 0x0, 0x0, 0x0⟩ /- REC_SETCMD R522 -/,
  ⟨0x102C, 64, 64, 0x0, 0x0, 0xF0000, 0x0, 0x0, 0x0, 0x0, 0xFF0F003F, 0x0, 0x0, 0x0⟩ /- REC_SETSTAT R523 -/,
  ⟨0x1030, 64, 64, 0x0, 0x0, 0x0, 0x0, 0x0, 0x0, 0x0, 0xFFFFFFFF, 0x0, 0x0, 0x0⟩ /- REC_SETPOS R524 -/]

/-- Register rows of the REC block, part 1. -/
def rowsREC1 : List RegRow := [
  ⟨0x1034, 64, 64, 0x0, 0x0, 0x0, 0x0, 0x0, 0x0, 0x0, 0xFFFFFFFF, 0x0, 0x0, 0x0⟩ /- REC_SETOLD R524 -/,
  ⟨0x1038, 64, 64, 0x0, 0x0, 0x0, 0x0, 0x0, 0x0, 0x0, 0xFFFFFFFF, 0x0, 0x0, 0x0⟩ /- REC_SETTPOS R524 -/,
  ⟨0x103C, 64, 64, 0x0, 0x0, 0x0, 0x0, 0x0, 0x0, 0x0, 0xFFFFFFFF, 0x0, 0x0, 0x0⟩ /- REC_SETPREC R524 -/,
  ⟨0x4000, 64, 32, 0x0, 0x0, 0x0, 0x0, 0x0, 0x0, 0x0, 0xFFFFFFFF, 0x0, 0x0, 0x0⟩ /- REC_LISSUED R525 -/,
  ⟨0x4004, 64, 32, 0x0, 0x0, 0x0, 0x0, 0x0, 0x0, 0x0, 0xFFFFFFFF, 0x0, 0x0, 0x0⟩ /- REC_LRSTDISC R525 -/,
  ⟨0x4008, 64, 32, 0x0, 0x0, 0x0, 0x0, 0x0, 0x0, 0x0, 0xFFFFFFFF, 0x0, 0x0, 0x0⟩ /- REC_LREGWR R525 -/,
  ⟨0x400C, 64, 32, 0x0, 0x0, 0x0, 0x0, 0x0, 0x0, 0x0, 0xFFFFFFFF, 0x0, 0x0, 0x0⟩ /- REC_LREGSHED R525 -/,
  ⟨0x4010, 64, 32, 0x0, 0x0, 0x0, 0x0, 0x0, 0x0, 0x0, 0xFFFFFFFF, 0x0, 0x0, 0x0⟩ /- REC_LSTRWR R525 -/,
  ⟨0x4014, 64, 32, 0x0, 0x0, 0x0, 0x0, 0x0, 0x0, 0x0, 0xFFFFFFFF, 0x0, 0x0, 0x0⟩ /- REC_LSTRSHED R525 -/,
  ⟨0x4018, 64, 32, 0x0, 0x0, 0x0, 0x0, 0x0, 0x0, 0x0, 0xFFFFFFFF, 0x0, 0x0, 0x0⟩ /- REC_LCHGSHED R525 -/,
  ⟨0x401C, 64, 32, 0x0, 0x0, 0x0, 0x0, 0x0, 0x0, 0x0, 0xFFFFFFFF, 0x0, 0x0, 0x0⟩ /- REC_LMISSTRG R525 -/,
  ⟨0x2000, 32, 64, 0x0, 0x0, 0x0, 0x0, 0x1FFC0007, 0x0, 0x0, 0x0, 0x1FFC0007, 0x0, 0x1FFC0007⟩ /- REC_TRGCFG R526 -/,
  ⟨0x2004, 32, 64, 0x0, 0x0, 0x0, 0x0, 0x3FFFF, 0x0, 0x0, 0x0, 0x3FFFF, 0x0, 0x3FFFF⟩ /- REC_TRGSRC R527 -/,
  ⟨0x2008, 32, 64, 0x0, 0x0, 0x0, 0x0, 0x0, 0xFFFFFFFF, 0x0, 0x0, 0xFFFFFFFF, 0x0, 0xFFFFFFFF⟩ /- REC_TRGA R527 -/,
  ⟨0x200C, 32, 64, 0x0, 0x0, 0x0, 0x0, 0x0, 0xFFFFFFFF, 0x0, 0x0, 0xFFFFFFFF, 0x0, 0xFFFFFFFF⟩ /- REC_TRGB R527 -/,
  ⟨0x2010, 32, 64, 0x0, 0x0, 0x0, 0x0, 0x0, 0xFFFFFFFF, 0x0, 0x0, 0xFFFFFFFF, 0x0, 0xFFFFFFFF⟩ /- REC_TRGMASK R527 -/,
  ⟨0x2014, 32, 64, 0x0, 0x0, 0x0, 0x0, 0x0, 0xFFFFFFFF, 0x0, 0x0, 0xFFFFFFFF, 0x0, 0xFFFFFFFF⟩ /- REC_TRGTGTLO R527 -/,
  ⟨0x2018, 32, 64, 0x0, 0x0, 0x0, 0x0, 0x0, 0xFFFFFFFF, 0x0, 0x0, 0xFFFFFFFF, 0x0, 0xFFFFFFFF⟩ /- REC_TRGTGTHI R527 -/,
  ⟨0x201C, 32, 64, 0x0, 0x0, 0x0, 0x0, 0x0, 0xFFFF, 0x0, 0x0, 0xFFFF, 0x0, 0xFFFF⟩ /- REC_TRGHOLD R527 -/,
  ⟨0x2020, 32, 64, 0x0, 0x0, 0x0, 0x0, 0x0, 0x0, 0x0, 0x0, 0x0, 0x0, 0x0⟩ /- REC_TRGCMD R528 -/,
  ⟨0x2024, 32, 64, 0x0, 0x0, 0x0, 0x0, 0x0, 0x0, 0x0, 0x0, 0x0, 0x0, 0x0⟩ /- REC_TRGSTAT R529 -/,
  ⟨0x2028, 32, 64, 0x0, 0x0, 0x0, 0x0, 0x0, 0x0, 0x0, 0x0, 0x0, 0x0, 0x0⟩ /- REC_TRGFIRECNT R529 -/,
  ⟨0x202C, 32, 64, 0x0, 0x0, 0x0, 0x0, 0x0, 0x0, 0x0, 0x0, 0x0, 0x0, 0x0⟩ /- REC_TRGLASTT R529 -/,
  ⟨0x2030, 32, 64, 0x0, 0x0, 0x0, 0x0, 0x0, 0x0, 0x0, 0x0, 0x0, 0x0, 0x0⟩ /- REC_TRGLASTP R529 -/,
  ⟨0x2034, 32, 64, 0x0, 0x0, 0x0, 0x0, 0x0, 0x0, 0x0, 0x0, 0x0, 0x0, 0x0⟩ /- REC_TRGUNUSED R529 -/]

/-- Register rows of the REC block, part 2. -/
def rowsREC2 : List RegRow := [
  ⟨0x3000, 64, 64, 0x0, 0x0, 0x0, 0x0, 0xFFFFF000, 0x0, 0x0, 0x0, 0xFFFFF000, 0x0, 0xFFFFF000⟩ /- REC_STRBASELO R530 -/,
  ⟨0x3004, 64, 64, 0x0, 0x0, 0x0, 0x0, 0xFFFFFFFF, 0x0, 0x0, 0x0, 0xFFFFFFFF, 0x0, 0xFFFFFFFF⟩ /- REC_STRBASEHI R530 -/,
  ⟨0x3008, 64, 64, 0x0, 0x0, 0x0, 0x0, 0xFFFFFF1F, 0x0, 0x0, 0x0, 0xFFFFFF1F, 0x0, 0xFFFFFF1F⟩ /- REC_STRCFG R530 -/,
  ⟨0x300C, 64, 64, 0x0, 0x0, 0x0, 0x0, 0xFFFFFFF8, 0x0, 0x0, 0x0, 0xFFFFFFF8, 0x0, 0xFFFFFFF8⟩ /- REC_STRWBLO R530 -/,
  ⟨0x3010, 64, 64, 0x0, 0x0, 0x0, 0x0, 0xFFFFFFFF, 0x0, 0x0, 0x0, 0xFFFFFFFF, 0x0, 0xFFFFFFFF⟩ /- REC_STRWBHI R530 -/,
  ⟨0x3014, 64, 64, 0x0, 0xFFFFFFFF, 0x0, 0x0, 0x0, 0x0, 0x0, 0xFFFFFFFF, 0x0, 0x0, 0x0⟩ /- REC_STRCON R530 -/,
  ⟨0x3018, 64, 64, 0x0, 0x0, 0x0, 0x0, 0x0, 0x0, 0x0, 0xFFFFFFFF, 0x0, 0x0, 0x0⟩ /- REC_STRPROD R530 -/,
  ⟨0x301C, 64, 64, 0x0, 0x0, 0x0, 0x0, 0x0, 0x0, 0x0, 0x0, 0x0, 0x0, 0x0⟩ /- REC_STRSTAT R530 -/]

/-- Register rows of the REC block, all parts. -/
def rowsREC : List RegRow := rowsREC0 ++ rowsREC1 ++ rowsREC2

/-- Register rows of the DSP block. -/
def rowsDSP0 : List RegRow := [
  ⟨0x0, 1, 4, 0x0, 0x0, 0x0, 0x0, 0x0, 0x0, 0x0, 0x0, 0x0, 0x0, 0x0⟩ /- DSP_STAT R577 -/,
  ⟨0x4, 1, 4, 0x0, 0x0, 0x0, 0x0, 0x0, 0x0, 0x0, 0x0, 0x0, 0x0, 0x0⟩ /- DSP_EVUNMAP R578 -/,
  ⟨0x8, 1, 4, 0x0, 0x0, 0x0, 0x0, 0x0, 0x0, 0x0, 0x0, 0x0, 0x0, 0x0⟩ /- DSP_EVSAT R578 -/,
  ⟨0xC, 1, 4, 0x0, 0x0, 0x0, 0x0, 0x0, 0x0, 0x0, 0x0, 0x0, 0x0, 0x0⟩ /- DSP_PORTERRCNT R578 -/,
  ⟨0x10, 1, 4, 0x0, 0x0, 0x0, 0x0, 0x0, 0x0, 0x0, 0x0, 0x0, 0x0, 0x0⟩ /- DSP_EVSATLAST R579 -/,
  ⟨0x20, 1, 4, 0x0, 0x0, 0x7, 0x0, 0x0, 0x0, 0x0, 0x0, 0x0, 0x0, 0x0⟩ /- DSP_EVT R580 -/,
  ⟨0x24, 1, 4, 0x7, 0x7, 0x0, 0x0, 0x0, 0x0, 0x0, 0x0, 0x0, 0x7, 0x0⟩ /- DSP_EVTEN R580 -/,
  ⟨0x800, 1, 4, 0x0, 0x0, 0x0, 0x0, 0x0, 0x0, 0x0, 0xFFFFFFFF, 0x0, 0x0, 0x0⟩ /- DSP_RSTCARTS R581 -/,
  ⟨0x804, 1, 4, 0x0, 0x0, 0x0, 0x0, 0x0, 0x0, 0x0, 0xFFFFFFFF, 0x0, 0x0, 0x0⟩ /- DSP_RSTPEND R581 -/,
  ⟨0x808, 1, 4, 0x0, 0x0, 0x0, 0x0, 0x0, 0x0, 0x0, 0xFFFFFFFF, 0x0, 0x0, 0x0⟩ /- DSP_RSTTICK R581 -/,
  ⟨0x80C, 1, 4, 0x0, 0x0, 0x0, 0x0, 0x0, 0x0, 0x0, 0xFFFFFFFF, 0x0, 0x0, 0x0⟩ /- DSP_RSTCNT R581 -/,
  ⟨0x4000, 1024, 4, 0x0, 0x0, 0x0, 0x0, 0x1F, 0x0, 0x0, 0x0, 0x1F, 0x0, 0x1F⟩ /- DSP_HITCH R575 -/,
  ⟨0x5000, 1024, 4, 0x0, 0x0, 0x0, 0x0, 0xBFFF, 0x0, 0x0, 0x0, 0xBFFF, 0x0, 0xBFFF⟩ /- DSP_EVMAP R576 -/,
  ⟨0x1000, 10, 256, 0xFFFFFFFF, 0x0, 0x0, 0x0, 0x0, 0x0, 0x0, 0x0, 0x0, 0xFFFFFFFF, 0x0⟩ /- DSP_PTAKE R582 -/,
  ⟨0x1004, 10, 256, 0x0, 0x0, 0x0, 0x0, 0x0, 0x0, 0x0, 0x0, 0x0, 0x0, 0x0⟩ /- DSP_PTAKEARG R582 -/,
  ⟨0x1008, 10, 256, 0x0, 0x0, 0x0, 0x0, 0x0, 0x0, 0x0, 0x0, 0x0, 0x0, 0x0⟩ /- DSP_PTAKET R582 -/,
  ⟨0x100C, 10, 256, 0x0, 0x0, 0x0, 0x0, 0x0, 0x0, 0x0, 0x0, 0x0, 0x0, 0x0⟩ /- DSP_PTAKEP R582 -/,
  ⟨0x1010, 10, 256, 0x0, 0xFFFFFFFF, 0x0, 0x0, 0x0, 0x0, 0x0, 0x0, 0x0, 0x0, 0x0⟩ /- DSP_PPOSTARG R582 -/,
  ⟨0x1014, 10, 256, 0x0, 0xFFFFFFFF, 0x0, 0x0, 0x0, 0x0, 0x0, 0x0, 0x0, 0x0, 0x0⟩ /- DSP_PPOSTDLY R582 -/,
  ⟨0x1018, 10, 256, 0x0, 0x0, 0x0, 0x0, 0x0, 0x0, 0x0, 0x0, 0x0, 0x0, 0x0⟩ /- DSP_PPOSTCTL R582 -/,
  ⟨0x101C, 10, 256, 0x0, 0x0, 0x0, 0x0, 0x0, 0x0, 0x0, 0x0, 0x0, 0x0, 0x0⟩ /- DSP_PPOSTRES R582 -/,
  ⟨0x1020, 10, 256, 0x0, 0x0, 0x0, 0x0, 0x0, 0x0, 0x0, 0x0, 0x0, 0x0, 0x0⟩ /- DSP_PDONE R582 -/,
  ⟨0x1024, 10, 256, 0x0, 0x0, 0x0, 0x0, 0x0, 0x0, 0x0, 0x0, 0x0, 0x0, 0x0⟩ /- DSP_PCANCEL R582 -/,
  ⟨0x1028, 10, 256, 0x0, 0x0, 0x0, 0x0, 0x0, 0x0, 0x0, 0x0, 0x0, 0x0, 0x0⟩ /- DSP_PCANRES R582 -/,
  ⟨0x102C, 10, 256, 0x0, 0x0, 0x0, 0x0, 0x0, 0x0, 0x0, 0x0, 0x0, 0x0, 0x0⟩ /- DSP_PEVRAISE R582 -/]

/-- Register rows of the DSP block, part 1. -/
def rowsDSP1 : List RegRow := [
  ⟨0x1030, 10, 256, 0x0, 0x0, 0x0, 0x0, 0x0, 0x0, 0x0, 0x0, 0x0, 0x0, 0x0⟩ /- DSP_PJCOMMIT R582 -/,
  ⟨0x1034, 10, 256, 0x0, 0x0, 0x0, 0x0, 0x0, 0x0, 0x0, 0x0, 0x0, 0x0, 0x0⟩ /- DSP_PJSTAT R582 -/,
  ⟨0x1040, 10, 256, 0x0, 0xFFFFFFFF, 0x0, 0x0, 0x0, 0x0, 0x0, 0x0, 0x0, 0x0, 0x0⟩ /- DSP_PSTEPLO R582 -/,
  ⟨0x1044, 10, 256, 0x0, 0xFFFF, 0x0, 0x0, 0x0, 0x0, 0x0, 0x0, 0x0, 0x0, 0x0⟩ /- DSP_PSTEPHI R582 -/,
  ⟨0x1048, 10, 256, 0x0, 0x0, 0x0, 0x0, 0x0, 0x0, 0x0, 0x0, 0x0, 0x0, 0x0⟩ /- DSP_PSTEPCTL R582 -/,
  ⟨0x1050, 10, 256, 0x0, 0x0, 0x1, 0x0, 0x0, 0x0, 0x0, 0x0, 0x0, 0x0, 0x0⟩ /- DSP_PERR R582 -/,
  ⟨0x1054, 10, 256, 0x0, 0x3, 0x0, 0x0, 0x0, 0x0, 0x0, 0x0, 0x0, 0x0, 0x0⟩ /- DSP_PINTEN R582 -/]

/-- Register rows of the DSP block, all parts. -/
def rowsDSP : List RegRow := rowsDSP0 ++ rowsDSP1

/-- Register rows of the MEM block. -/
def rowsMEM0 : List RegRow := [
  ⟨0x0, 1, 4, 0x0, 0x0, 0x0, 0x0, 0x0, 0x0, 0x0, 0x1A, 0x0, 0x0, 0x0⟩ /- MEM_STAT R613 -/,
  ⟨0x4, 1, 4, 0x0, 0x1FFFF, 0x0, 0x0, 0x0, 0x0, 0x0, 0x1FFFF, 0x0, 0x0, 0x1FFFF⟩ /- MEM_SSCRUB R614 -/,
  ⟨0x8, 1, 4, 0x0, 0x0, 0x0, 0xFFFF, 0x0, 0x0, 0x0, 0xFFFF, 0x0, 0x0, 0x0⟩ /- MEM_SINIT R615 -/,
  ⟨0xC, 1, 4, 0x4, 0xFF, 0x0, 0x0, 0x0, 0x0, 0x0, 0xFF, 0x0, 0x0, 0x0⟩ /- MEM_TRKCFG R616 -/,
  ⟨0x10, 1, 4, 0x0, 0x0, 0x0, 0x0, 0x0, 0x0, 0x0, 0xFFFFFFFF, 0x0, 0x0, 0x0⟩ /- MEM_CECNT R617 -/,
  ⟨0x14, 1, 4, 0x0, 0x0, 0x0, 0x0, 0x0, 0x0, 0x0, 0xFFFFFFFF, 0x0, 0x0, 0x0⟩ /- MEM_UECNT R617 -/,
  ⟨0x18, 1, 4, 0x0, 0x0, 0x0, 0x0, 0x0, 0x0, 0x0, 0xFFFFFFFF, 0x0, 0x0, 0x0⟩ /- MEM_HARDCNT R617 -/,
  ⟨0x1C, 1, 4, 0x0, 0x0, 0x0, 0x0, 0x0, 0x0, 0x0, 0xFFFFFFFF, 0x0, 0x0, 0x0⟩ /- MEM_TRKEVICT R617 -/,
  ⟨0x20, 1, 4, 0x0, 0x0, 0x0, 0x0, 0x0, 0x0, 0x0, 0xFFFFFFFF, 0x0, 0x0, 0x0⟩ /- MEM_DRMWUE R617 -/,
  ⟨0x24, 1, 4, 0x0, 0x0, 0x0, 0x0, 0x0, 0x0, 0x0, 0xFFFFFFFF, 0x0, 0x0, 0x0⟩ /- MEM_CACHEPE R617 -/,
  ⟨0x28, 1, 4, 0x0, 0x0, 0x0, 0x0, 0x0, 0x0, 0x0, 0xFFFFFFFF, 0x0, 0x0, 0x0⟩ /- MEM_SLAPMAX R617 -/,
  ⟨0x30, 1, 4, 0x0, 0x0, 0x0, 0x0, 0x0, 0x0, 0x0, 0xFFFFFFFF, 0x0, 0x0, 0x0⟩ /- MEM_ERRLASTLO R618 -/,
  ⟨0x34, 1, 4, 0x0, 0x0, 0x0, 0x0, 0x0, 0x0, 0x0, 0xFF3000FF, 0x0, 0x0, 0x0⟩ /- MEM_ERRLASTHI R618 -/,
  ⟨0x38, 1, 4, 0x0, 0x0, 0x0, 0x0, 0x0, 0x0, 0x0, 0xFFFFFFFF, 0x0, 0x0, 0x0⟩ /- MEM_TRKLAST R619 -/,
  ⟨0x40, 1, 4, 0x0, 0xFFFFFFFF, 0x0, 0x0, 0x0, 0x0, 0x0, 0xFFFFFFFF, 0x0, 0x0, 0xFFFFFFFF⟩ /- MEM_DSCRCFG R620 -/,
  ⟨0x44, 1, 4, 0x0, 0xFFFFFFFF, 0x0, 0x0, 0x0, 0x0, 0x0, 0xFFFFFFFF, 0x0, 0x0, 0xFFFFFFFF⟩ /- MEM_DSCRLO R620 -/,
  ⟨0x48, 1, 4, 0x0, 0xFFFFFFFF, 0x0, 0x0, 0x0, 0x0, 0x0, 0xFFFFFFFF, 0x0, 0x0, 0xFFFFFFFF⟩ /- MEM_DSCRHI R620 -/,
  ⟨0x4C, 1, 4, 0x0, 0x0, 0x0, 0x0, 0x0, 0x0, 0x0, 0xFFFFFFFF, 0x0, 0x0, 0x0⟩ /- MEM_DSCRPOS R620 -/,
  ⟨0x50, 1, 4, 0x0, 0x0, 0x0, 0x0, 0x0, 0x0, 0x0, 0xFFFFFFFF, 0x0, 0x0, 0x0⟩ /- MEM_DLAP R620 -/,
  ⟨0x54, 1, 4, 0x0, 0x0, 0x100, 0x0, 0x0, 0x0, 0x0, 0x1FF, 0x0, 0x0, 0x0⟩ /- MEM_DREF R621 -/,
  ⟨0x60, 1, 4, 0x0, 0xFFFFFFFF, 0x0, 0x0, 0x0, 0x0, 0x0, 0xFFFFFFFF, 0x0, 0x0, 0x0⟩ /- MEM_FILLADRLO R622 -/,
  ⟨0x64, 1, 4, 0x0, 0xFFFFFFFF, 0x0, 0x0, 0x0, 0x0, 0x0, 0xFFFFFFFF, 0x0, 0x0, 0x0⟩ /- MEM_FILLADRHI R622 -/,
  ⟨0x68, 1, 4, 0x0, 0xFFFFFFFF, 0x0, 0x0, 0x0, 0x0, 0x0, 0xFFFFFFFF, 0x0, 0x0, 0x0⟩ /- MEM_FILLLEN R622 -/,
  ⟨0x6C, 1, 4, 0x0, 0xFFFFFFFF, 0x0, 0x0, 0x0, 0x0, 0x0, 0xFFFFFFFF, 0x0, 0x0, 0x0⟩ /- MEM_FILLPATLO R622 -/,
  ⟨0x70, 1, 4, 0x0, 0xFFFFFFFF, 0x0, 0x0, 0x0, 0x0, 0x0, 0xFFFFFFFF, 0x0, 0x0, 0x0⟩ /- MEM_FILLPATHI R622 -/]

/-- Register rows of the MEM block, part 1. -/
def rowsMEM1 : List RegRow := [
  ⟨0x74, 1, 4, 0x0, 0x0, 0x0, 0x0, 0x0, 0x0, 0x0, 0x0, 0x0, 0x0, 0x0⟩ /- MEM_FILLCMD R622 -/,
  ⟨0x78, 1, 4, 0x0, 0x0, 0x0, 0x0, 0x0, 0x0, 0x0, 0xFFFFFFFF, 0x0, 0x0, 0x0⟩ /- MEM_FILLSTAT R622 -/,
  ⟨0x7C, 1, 4, 0x0, 0x0, 0x0, 0x0, 0x0, 0x0, 0x0, 0xFFFFFFFF, 0x0, 0x0, 0x0⟩ /- MEM_FILLDONEB R622 -/,
  ⟨0x80, 1, 4, 0x0, 0x0, 0x7F, 0x0, 0x0, 0x0, 0x0, 0x7F, 0x0, 0x0, 0x0⟩ /- MEM_EVT R623 -/,
  ⟨0x84, 1, 4, 0x7E, 0x7F, 0x0, 0x0, 0x0, 0x0, 0x0, 0x7F, 0x0, 0x0, 0x0⟩ /- MEM_EVTEN R623 -/,
  ⟨0x100, 62, 4, 0x0, 0x0, 0x0, 0x0, 0x0, 0x0, 0x0, 0x7F, 0x0, 0x0, 0x0⟩ /- MEM_SPARE R624 -/]

/-- Register rows of the MEM block, all parts. -/
def rowsMEM : List RegRow := rowsMEM0 ++ rowsMEM1

/-- Register rows of the JRN block. -/
def rowsJRN : List RegRow := [
  ]

/-- Register rows of the ODO block. -/
def rowsODO : List RegRow := [
  ⟨0x0, 1, 4, 0x0, 0x0, 0x0, 0x0, 0x0, 0x0, 0x0, 0x3F, 0x0, 0x0, 0x0⟩  /- ODO_STAT R648 -/,
  ⟨0x4, 1, 4, 0x0, 0x0, 0x0, 0x0, 0x0, 0x0, 0x0, 0xFFFFFFFF, 0x0, 0x0, 0x0⟩  /- ODO_HOURS R649 -/,
  ⟨0x8, 1, 4, 0x0, 0x0, 0x0, 0x0, 0x0, 0x0, 0x0, 0xFFFFFFFF, 0x0, 0x0, 0x0⟩  /- ODO_HFRAC R649 -/,
  ⟨0xC, 1, 4, 0x0, 0x0, 0x0, 0x0, 0x0, 0x0, 0x0, 0xFFFFFFFF, 0x0, 0x0, 0x0⟩  /- ODO_PCYC R649 -/,
  ⟨0x10, 1, 4, 0x0, 0x0, 0x0, 0x0, 0x0, 0x0, 0x0, 0xFFFFFFFF, 0x0, 0x0, 0x0⟩  /- ODO_SEQ R649 -/,
  ⟨0x14, 1, 4, 0x0, 0x0, 0x0, 0x0, 0x0, 0x0, 0x0, 0x0, 0x0, 0x0, 0x0⟩  /- ODO_CMD R650 -/,
  ⟨0x18, 1, 4, 0x0, 0x0, 0x0, 0x0, 0x0, 0x0, 0x0, 0x0, 0x0, 0x0, 0x0⟩  /- ODO_CLR R650 -/,
  ⟨0x1C, 1, 4, 0x0, 0x0, 0x0, 0x0, 0x0, 0x0, 0x0, 0xFF0F, 0x0, 0x0, 0x0⟩  /- ODO_CLRSTAT R651 -/,
  ⟨0x20, 1, 4, 0x0, 0x0, 0x0, 0x0, 0x0, 0x0, 0x0, 0xFFFFFFFF, 0x0, 0x0, 0x0⟩  /- ODO_SNAPERR R652 -/,
  ⟨0x24, 1, 4, 0x0, 0x0, 0x0, 0x0, 0x0, 0x0, 0x0, 0xFFFFFFFF, 0x0, 0x0, 0x0⟩  /- ODO_CLRREF R652 -/,
  ⟨0x30, 1, 4, 0x0, 0x0, 0xF, 0x0, 0x0, 0x0, 0x0, 0xF, 0x0, 0x0, 0x0⟩  /- ODO_EVT R653 -/,
  ⟨0x34, 1, 4, 0xE, 0xF, 0x0, 0x0, 0x0, 0x0, 0x0, 0xF, 0x0, 0x0, 0x0⟩  /- ODO_EVTEN R653 -/,
  ⟨0x40, 1, 4, 0x0, 0x0, 0x0, 0x0, 0x0, 0x0, 0x0, 0xFFFFFFFF, 0x0, 0x0, 0x0⟩  /- ODO_LISSUEDLO R654 -/,
  ⟨0x44, 1, 4, 0x0, 0x0, 0x0, 0x0, 0x0, 0x0, 0x0, 0xFFFFFFFF, 0x0, 0x0, 0x0⟩  /- ODO_LISSUEDHI R654 -/,
  ⟨0x48, 1, 4, 0x0, 0x0, 0x0, 0x0, 0x0, 0x0, 0x0, 0xFFFFFFFF, 0x0, 0x0, 0x0⟩  /- ODO_LSNAPLO R654 -/,
  ⟨0x4C, 1, 4, 0x0, 0x0, 0x0, 0x0, 0x0, 0x0, 0x0, 0xFFFFFFFF, 0x0, 0x0, 0x0⟩  /- ODO_LSNAPHI R654 -/,
  ⟨0x50, 1, 4, 0x0, 0x0, 0x0, 0x0, 0x0, 0x0, 0x0, 0xFFFFFFFF, 0x0, 0x0, 0x0⟩  /- ODO_LCLEARLO R654 -/,
  ⟨0x54, 1, 4, 0x0, 0x0, 0x0, 0x0, 0x0, 0x0, 0x0, 0xFFFFFFFF, 0x0, 0x0, 0x0⟩  /- ODO_LCLEARHI R654 -/,
  ⟨0x58, 1, 4, 0x0, 0x0, 0x0, 0x0, 0x0, 0x0, 0x0, 0xFFFFFFFF, 0x0, 0x0, 0x0⟩  /- ODO_LSATLO R654 -/,
  ⟨0x5C, 1, 4, 0x0, 0x0, 0x0, 0x0, 0x0, 0x0, 0x0, 0xFFFFFFFF, 0x0, 0x0, 0x0⟩  /- ODO_LSATHI R654 -/,
  ⟨0x60, 1, 4, 0x0, 0x0, 0x0, 0x0, 0x0, 0x0, 0x0, 0xFFFFFFFF, 0x0, 0x0, 0x0⟩  /- ODO_LFLIGHTLO R654 -/,
  ⟨0x64, 1, 4, 0x0, 0x0, 0x0, 0x0, 0x0, 0x0, 0x0, 0xFFFFFFFF, 0x0, 0x0, 0x0⟩  /- ODO_LFLIGHTHI R654 -/]

/-- Register rows of the SAF block. -/
def rowsSAF : List RegRow := [
  ⟨0x0, 1, 4, 0x0, 0x0, 0x0, 0x0, 0x0, 0x0, 0x0, 0x7F7, 0x0, 0x0, 0x0⟩  /- SAF_STAT R699 -/,
  ⟨0x4, 1, 4, 0x0, 0x0, 0x0, 0x0, 0x0, 0x0, 0x0, 0xFFFFFFFF, 0x0, 0x0, 0x0⟩  /- SAF_CFGSTAT R700 -/,
  ⟨0x8, 1, 4, 0x0, 0x0, 0x0, 0x0, 0x0, 0x0, 0x0, 0xFFFFFFFF, 0x0, 0x0, 0x0⟩  /- SAF_DEMAND R701 -/,
  ⟨0xC, 1, 4, 0x0, 0x0, 0x0, 0x0, 0x0, 0x0, 0x0, 0xFFFFFFFF, 0x0, 0x0, 0x0⟩  /- SAF_LATCH R701 -/,
  ⟨0x10, 1, 4, 0xFFFF, 0x0, 0x0, 0x0, 0x0, 0x0, 0x0, 0xFFFFFFFF, 0x0, 0x0, 0x0⟩  /- SAF_OUT R702 -/,
  ⟨0x14, 1, 4, 0x0, 0x0, 0x0, 0x0, 0x0, 0x0, 0x0, 0xFFFFFF, 0x0, 0x0, 0x0⟩  /- SAF_SIPERM R703 -/,
  ⟨0x18, 1, 4, 0x0, 0x0, 0x0, 0x0, 0x0, 0x0, 0x0, 0xFFFFFF, 0x0, 0x0, 0x0⟩  /- SAF_SIFLT R703 -/,
  ⟨0x1C, 1, 4, 0x0, 0x0, 0x0, 0x0, 0x0, 0x0, 0x0, 0xFFFFFF, 0x0, 0x0, 0x0⟩  /- SAF_SOFLT R703 -/,
  ⟨0x20, 1, 4, 0x0, 0x0, 0xFFFF0000, 0x0, 0x0, 0x0, 0x0, 0xFFFFFFFF, 0x0, 0x0, 0x0⟩  /- SAF_NODE R704 -/,
  ⟨0x24, 1, 4, 0x0, 0x0, 0x0, 0x0, 0x0, 0x0, 0x0, 0xF0FFFFFF, 0x0, 0x0, 0x0⟩  /- SAF_FAULT1 R705 -/,
  ⟨0x28, 1, 4, 0x0, 0x0, 0x0, 0x0, 0x0, 0x0, 0x0, 0xF0FFFFFF, 0x0, 0x0, 0x0⟩  /- SAF_FAULT2 R705 -/,
  ⟨0x2C, 1, 4, 0x0, 0x0, 0x0, 0x0, 0x0, 0x0, 0x0, 0xFFFFFFFF, 0x0, 0x0, 0x0⟩  /- SAF_DEGT R706 -/,
  ⟨0x30, 1, 4, 0x0, 0x0, 0x0, 0x0, 0x0, 0x0, 0x0, 0x0, 0x0, 0x0, 0x0⟩  /- SAF_ACK R706 -/,
  ⟨0x34, 1, 4, 0x0, 0x0, 0x3F, 0x0, 0x0, 0x0, 0x0, 0x3F, 0x0, 0x0, 0x0⟩  /- SAF_EVT R707 -/,
  ⟨0x38, 1, 4, 0x3F, 0x3F, 0x0, 0x0, 0x0, 0x0, 0x0, 0x3F, 0x0, 0x0, 0x0⟩  /- SAF_EVTEN R707 -/,
  ⟨0x40, 1, 4, 0x0, 0x0, 0x0, 0x0, 0x0, 0x0, 0x0, 0xFFFFFFFF, 0x0, 0x0, 0x0⟩  /- SAF_NODETOCNT R708 -/,
  ⟨0x44, 1, 4, 0x0, 0x0, 0x0, 0x0, 0x0, 0x0, 0x0, 0xFFFFFFFF, 0x0, 0x0, 0x0⟩  /- SAF_SUREJ R708 -/,
  ⟨0x48, 1, 4, 0x0, 0x0, 0x0, 0x0, 0x0, 0x0, 0x0, 0xFFFFFFFF, 0x0, 0x0, 0x0⟩  /- SAF_OPCNT R708 -/,
  ⟨0x4C, 1, 4, 0x0, 0x0, 0x0, 0x0, 0x0, 0x0, 0x0, 0xFFFFFFFF, 0x0, 0x0, 0x0⟩  /- SAF_CECNT R708 -/,
  ⟨0x50, 1, 4, 0x0, 0x0, 0x0, 0x0, 0x0, 0x0, 0x0, 0xFFFFFFFF, 0x0, 0x0, 0x0⟩  /- SAF_FLTCNT R708 -/]

/-- Register rows of the LDG block. -/
def rowsLDG : List RegRow := [
  ⟨0x0, 1, 4, 0x0, 0x0, 0x0, 0x0, 0x0, 0x0, 0x0, 0x3FF, 0x0, 0x0, 0x0⟩  /- LDG_STAT R861 -/,
  ⟨0x4, 1, 4, 0x0, 0x0, 0x0, 0x0, 0x0, 0x0, 0x0, 0xFF0000FF, 0x0, 0x0, 0x0⟩  /- LDG_FAILLAST R861 -/,
  ⟨0x8, 1, 4, 0x0, 0x0, 0x0, 0x0, 0x0, 0x0, 0x0, 0xFFFFFFFF, 0x0, 0x0, 0x0⟩  /- LDG_FAILDIFFLO R861 -/,
  ⟨0xC, 1, 4, 0x0, 0x0, 0x0, 0x0, 0x0, 0x0, 0x0, 0xFFFFFFFF, 0x0, 0x0, 0x0⟩  /- LDG_FAILDIFFHI R861 -/,
  ⟨0x10, 1, 4, 0x0, 0x0, 0x0, 0x0, 0x0, 0x0, 0x0, 0xFFFFFFFF, 0x0, 0x0, 0x0⟩  /- LDG_FAILCNT R861 -/,
  ⟨0x14, 1, 4, 0x0, 0x0, 0x0, 0x0, 0x0, 0x0, 0x0, 0xFFFFFFFF, 0x0, 0x0, 0x0⟩  /- LDG_NODEREF R861 -/,
  ⟨0x18, 1, 4, 0x0, 0x0, 0x0, 0x0, 0x0, 0x0, 0x0, 0xFFFFFFFF, 0x0, 0x0, 0x0⟩  /- LDG_LOGSHED R861 -/,
  ⟨0x1C, 1, 4, 0x0, 0x0, 0x0, 0x0, 0x0, 0x0, 0x0, 0xFFFFFFFF, 0x0, 0x0, 0x0⟩  /- LDG_LOGSEQ R861 -/,
  ⟨0x20, 1, 4, 0x0, 0x0, 0x0, 0x0, 0x0, 0x0, 0x0, 0xFFFFFFFF, 0x0, 0x0, 0x0⟩  /- LDG_LOGSKIP R861 -/,
  ⟨0x24, 1, 4, 0x0, 0x0, 0x0, 0x0, 0x0, 0x0, 0x0, 0x0, 0x0, 0x0, 0x0⟩  /- LDG_CMD R861 -/,
  ⟨0x28, 1, 4, 0x0, 0x0, 0x0, 0x0, 0x0, 0x0, 0x0, 0xFFFFFFFF, 0x0, 0x0, 0x0⟩  /- LDG_SNAPTICK R861 -/,
  ⟨0x30, 1, 4, 0x0, 0x0, 0xF, 0x0, 0x0, 0x0, 0x0, 0xF, 0x0, 0x0, 0x0⟩  /- LDG_EVT R861 -/,
  ⟨0x34, 1, 4, 0xF, 0xF, 0x0, 0x0, 0x0, 0x0, 0x0, 0xF, 0x0, 0x0, 0x0⟩  /- LDG_EVTEN R861 -/,
  ⟨0xC00, 64, 8, 0x0, 0x0, 0x0, 0x0, 0x0, 0x0, 0x0, 0xFFFFFFFF, 0x0, 0x0, 0x0⟩  /- LDG_TRGIN R861 -/,
  ⟨0xC04, 64, 8, 0x0, 0x0, 0x0, 0x0, 0x0, 0x0, 0x0, 0xFFFFFFFF, 0x0, 0x0, 0x0⟩  /- LDG_TRGACT R861 -/]

/-- Register rows of the COR block. -/
def rowsCOR : List RegRow := [
  ⟨0x0, 8, 4096, 0x0, 0x0, 0x0, 0x0, 0x0, 0x0, 0x0, 0x0, 0x0, 0x0, 0x0⟩  /- COR_SEQSTAT R583 -/,
  ⟨0x4, 8, 4096, 0x0, 0x0, 0x0, 0x0, 0xFFFFFF, 0x0, 0x0, 0x0, 0xFFFFFF, 0x0, 0xFFFFFF⟩  /- COR_SEQWDCFG R584 -/,
  ⟨0x8, 8, 4096, 0x0, 0x0, 0x0, 0x0, 0x0, 0x0, 0x0, 0x0, 0x0, 0x0, 0x0⟩  /- COR_SEQWDKICK R585 -/,
  ⟨0x8000, 2, 4096, 0x0, 0x0, 0x0, 0x0, 0x0, 0x0, 0x0, 0x0, 0x0, 0x0, 0x0⟩  /- COR_SUPSTAT R583 -/,
  ⟨0x8004, 2, 4096, 0x0, 0x0, 0x0, 0x0, 0xFFFFFF, 0x0, 0x0, 0x0, 0xFFFFFF, 0x0, 0xFFFFFF⟩  /- COR_SUPWDCFG R584 -/,
  ⟨0x8008, 2, 4096, 0x0, 0x0, 0x0, 0x0, 0x0, 0x0, 0x0, 0x0, 0x0, 0x0, 0x0⟩  /- COR_SUPWDKICK R585 -/]

/-- Register rows of the CAN block. -/
def rowsCAN0 : List RegRow := [
  ⟨0x0, 1, 4, 0x0, 0x1, 0x0, 0x0, 0xFC, 0x0, 0x0, 0x0, 0xFD, 0x0, 0xFD⟩ /- CAN_CTL R384 -/,
  ⟨0x4, 1, 4, 0x0, 0x0, 0x0, 0x0, 0x3FFFFF1F, 0x0, 0x0, 0x0, 0x3FFFFF1F, 0x0, 0x3FFFFF1F⟩ /- CAN_BTIME R385 -/,
  ⟨0x8, 1, 4, 0x0, 0x0, 0x0, 0x0, 0x78F1F1F, 0x0, 0x0, 0x0, 0x78F1F1F, 0x0, 0x78F1F1F⟩ /- CAN_DTIME R385 -/,
  ⟨0xC, 1, 4, 0x0, 0x0, 0x0, 0x0, 0x17F, 0x0, 0x0, 0x0, 0x17F, 0x0, 0x17F⟩ /- CAN_TDC R386 -/,
  ⟨0x10, 1, 4, 0x0, 0x0, 0x0, 0x0, 0x0, 0x0, 0x0, 0x0, 0x0, 0x0, 0x0⟩ /- CAN_STAT R387 -/,
  ⟨0x14, 1, 4, 0x0, 0x0, 0x0, 0x0, 0x0, 0x0, 0x0, 0x0, 0x0, 0x0, 0x0⟩ /- CAN_CFGERR R388 -/,
  ⟨0x18, 1, 4, 0x0, 0x0, 0x0, 0xFFFFFFFF, 0x0, 0x0, 0x0, 0x0, 0x0, 0x0, 0x0⟩ /- CAN_TXREQ0 R389 -/,
  ⟨0x1C, 1, 4, 0x0, 0x0, 0x0, 0xFFFFFFFF, 0x0, 0x0, 0x0, 0x0, 0x0, 0x0, 0x0⟩ /- CAN_TXREQ1 R389 -/,
  ⟨0x20, 1, 4, 0x0, 0x0, 0x0, 0xFFFFFFFF, 0x0, 0x0, 0x0, 0x0, 0x0, 0x0, 0x0⟩ /- CAN_TXABORT0 R389 -/,
  ⟨0x24, 1, 4, 0x0, 0x0, 0x0, 0xFFFFFFFF, 0x0, 0x0, 0x0, 0x0, 0x0, 0x0, 0x0⟩ /- CAN_TXABORT1 R389 -/,
  ⟨0x28, 1, 4, 0x0, 0x0, 0x0, 0x0, 0x0, 0x0, 0x0, 0x0, 0x0, 0x0, 0x0⟩ /- CAN_TXPEND0 R389 -/,
  ⟨0x2C, 1, 4, 0x0, 0x0, 0x0, 0x0, 0x0, 0x0, 0x0, 0x0, 0x0, 0x0, 0x0⟩ /- CAN_TXPEND1 R389 -/,
  ⟨0x30, 1, 4, 0x0, 0x7F, 0x0, 0x0, 0x0, 0x0, 0x0, 0x0, 0x0, 0x0, 0x0⟩ /- CAN_RXHEAD R390 -/,
  ⟨0x34, 1, 4, 0x0, 0x0, 0x0, 0x0, 0x0, 0x0, 0x0, 0x0, 0x0, 0x0, 0x0⟩ /- CAN_RXTAIL R390 -/,
  ⟨0x38, 1, 4, 0x0, 0x0, 0x0, 0x0, 0x1FF0F, 0x0, 0x0, 0x0, 0x1FF0F, 0x0, 0x1FF0F⟩ /- CAN_SCHCFG R391 -/,
  ⟨0x40, 1, 4, 0x0, 0x0, 0x0, 0x0, 0x0, 0x0, 0x0, 0x0, 0x0, 0x0, 0x0⟩ /- CAN_RXCNT R392 -/,
  ⟨0x44, 1, 4, 0x0, 0x0, 0x0, 0x0, 0x0, 0x0, 0x0, 0x0, 0x0, 0x0, 0x0⟩ /- CAN_RXLOST R392 -/,
  ⟨0x48, 1, 4, 0x0, 0x0, 0x0, 0x0, 0x0, 0x0, 0x0, 0x0, 0x0, 0x0, 0x0⟩ /- CAN_RXNOMATCH R392 -/,
  ⟨0x4C, 1, 4, 0x0, 0x0, 0x0, 0x0, 0x0, 0x0, 0x0, 0x0, 0x0, 0x0, 0x0⟩ /- CAN_SHORTCNT R392 -/,
  ⟨0x50, 1, 4, 0x0, 0x0, 0x0, 0x0, 0x0, 0x0, 0x0, 0x0, 0x0, 0x0, 0x0⟩ /- CAN_TXSENT R392 -/,
  ⟨0x54, 1, 4, 0x0, 0x0, 0x0, 0x0, 0x0, 0x0, 0x0, 0x0, 0x0, 0x0, 0x0⟩ /- CAN_TXLATE R392 -/,
  ⟨0x58, 1, 4, 0x0, 0x0, 0x0, 0x0, 0x0, 0x0, 0x0, 0x0, 0x0, 0x0, 0x0⟩ /- CAN_TXSKIP R392 -/,
  ⟨0x5C, 1, 4, 0x0, 0x0, 0x0, 0x0, 0x0, 0x0, 0x0, 0x0, 0x0, 0x0, 0x0⟩ /- CAN_NARROW R392 -/,
  ⟨0x60, 1, 4, 0x0, 0x0, 0x0, 0x0, 0x0, 0x0, 0x0, 0x0, 0x0, 0x0, 0x0⟩ /- CAN_BUSERR R392 -/,
  ⟨0x64, 1, 4, 0x0, 0x0, 0x0, 0x0, 0x0, 0x0, 0x0, 0x0, 0x0, 0x0, 0x0⟩ /- CAN_BOFFCNT R392 -/]

/-- Register rows of the CAN block, part 1. -/
def rowsCAN1 : List RegRow := [
  ⟨0x70, 1, 4, 0x0, 0x0, 0x3FF, 0x0, 0x0, 0x0, 0x0, 0x0, 0x0, 0x0, 0x0⟩ /- CAN_EVT R393 -/,
  ⟨0x74, 1, 4, 0x3EA, 0x3FF, 0x0, 0x0, 0x0, 0x0, 0x0, 0x0, 0x0, 0x3EA, 0x0⟩ /- CAN_EVTEN R393 -/]

/-- Register rows of the CAN block, all parts. -/
def rowsCAN : List RegRow := rowsCAN0 ++ rowsCAN1

/-- Register rows of the FB block. -/
def rowsFB0 : List RegRow := [
  ⟨0x0, 1, 4, 0x0, 0x1, 0x0, 0x0, 0x3FFE, 0xF0000, 0x0, 0x0, 0xF3FFF, 0x0, 0xF3FFF⟩ /- FB_CTL R423 -/,
  ⟨0x4, 1, 4, 0x0, 0x0, 0x0, 0x0, 0xFEFFFFFF, 0x0, 0x0, 0x0, 0xFEFFFFFF, 0x0, 0xFEFFFFFF⟩ /- FB_SER R424 -/,
  ⟨0x8, 1, 4, 0x0, 0x0, 0x0, 0x0, 0x3FFFF, 0x0, 0x0, 0x0, 0x3FFFF, 0x0, 0x3FFFF⟩ /- FB_SERCRC R425 -/,
  ⟨0xC, 1, 4, 0x0, 0x0, 0x0, 0x0, 0xF0000FFF, 0x0, 0x0, 0x0, 0xF0000FFF, 0x0, 0xF0000FFF⟩ /- FB_SERREQ R426 -/,
  ⟨0x10, 1, 4, 0x0, 0x0, 0x0, 0x0, 0x8003FFFF, 0x0, 0x0, 0x0, 0x8003FFFF, 0x0, 0x8003FFFF⟩ /- FB_POSSID R427 -/,
  ⟨0x14, 1, 4, 0x0, 0x0, 0x0, 0x0, 0x8003FFFF, 0x0, 0x0, 0x0, 0x8003FFFF, 0x0, 0x8003FFFF⟩ /- FB_SPDSID R427 -/,
  ⟨0x18, 1, 4, 0x0, 0x0, 0x0, 0x0, 0x0, 0xFFFFFFFF, 0x0, 0x0, 0xFFFFFFFF, 0x0, 0xFFFFFFFF⟩ /- FB_IDXSPC R428 -/,
  ⟨0x1C, 1, 4, 0x0, 0x0, 0x0, 0x0, 0x0, 0xFFFF, 0x0, 0x0, 0xFFFF, 0x0, 0xFFFF⟩ /- FB_IDXTOL R428 -/,
  ⟨0x20, 1, 4, 0x0, 0x0, 0x0, 0x0, 0x0, 0x0, 0x0, 0x0, 0x0, 0x0, 0x0⟩ /- FB_CNT R429 -/,
  ⟨0x24, 1, 4, 0x0, 0x0, 0x0, 0x0, 0x0, 0x0, 0x0, 0x0, 0x0, 0x0, 0x0⟩ /- FB_LATCH R429 -/,
  ⟨0x28, 1, 4, 0x0, 0x0, 0x0, 0x0, 0x0, 0x0, 0x0, 0x0, 0x0, 0x0, 0x0⟩ /- FB_IDXCAP R429 -/,
  ⟨0x2C, 1, 4, 0x0, 0x0, 0x0, 0x0, 0x0, 0x0, 0x0, 0x0, 0x0, 0x0, 0x0⟩ /- FB_IDXDEV R429 -/,
  ⟨0x30, 1, 4, 0x0, 0x0, 0x0, 0x0, 0x0, 0x0, 0x0, 0x0, 0x0, 0x0, 0x0⟩ /- FB_SPD R429 -/,
  ⟨0x34, 1, 4, 0x0, 0x0, 0x0, 0x0, 0x0, 0x0, 0x0, 0x0, 0x0, 0x0, 0x0⟩ /- FB_SERRAWLO R429 -/,
  ⟨0x38, 1, 4, 0x0, 0x0, 0x0, 0x0, 0x0, 0x0, 0x0, 0x0, 0x0, 0x0, 0x0⟩ /- FB_SERRAWHI R429 -/,
  ⟨0x3C, 1, 4, 0x0, 0x0, 0x0, 0x0, 0x0, 0x0, 0x0, 0x0, 0x0, 0x0, 0x0⟩ /- FB_CFGERR R430 -/,
  ⟨0x40, 1, 4, 0x0, 0x0, 0xFC, 0x0, 0x0, 0x0, 0x0, 0x0, 0x0, 0x0, 0x0⟩ /- FB_STAT R431 -/,
  ⟨0x44, 1, 4, 0x0, 0x0, 0x0, 0x0, 0x0, 0x0, 0x0, 0x0, 0x0, 0x0, 0x0⟩ /- FB_ILLCNT R432 -/,
  ⟨0x48, 1, 4, 0x0, 0x0, 0x0, 0x0, 0x0, 0x0, 0x0, 0x0, 0x0, 0x0, 0x0⟩ /- FB_SERERR R432 -/,
  ⟨0x4C, 1, 4, 0x0, 0x0, 0x0, 0x0, 0x0, 0x0, 0x0, 0x0, 0x0, 0x0, 0x0⟩ /- FB_IDXCNT R432 -/,
  ⟨0x50, 1, 4, 0x0, 0x0, 0xF, 0x0, 0x0, 0x0, 0x0, 0x0, 0x0, 0x0, 0x0⟩ /- FB_EVT R433 -/,
  ⟨0x54, 1, 4, 0xE, 0xF, 0x0, 0x0, 0x0, 0x0, 0x0, 0x0, 0x0, 0xE, 0x0⟩ /- FB_EVTEN R433 -/,
  ⟨0x100, 4, 32, 0x0, 0x0, 0x0, 0x0, 0x0, 0x0, 0xFFFF3F31, 0x0, 0xFFFF3F31, 0x0, 0xFFFF3F31⟩ /- FB_CMPCFG R434 -/,
  ⟨0x104, 4, 32, 0x0, 0x0, 0x0, 0x0, 0x0, 0x0, 0xFFFFFFFF, 0x0, 0xFFFFFFFF, 0x0, 0xFFFFFFFF⟩ /- FB_CMPVAL R435 -/,
  ⟨0x108, 4, 32, 0x0, 0x0, 0x0, 0x0, 0x0, 0x0, 0xFFFFFFFF, 0x0, 0xFFFFFFFF, 0x0, 0xFFFFFFFF⟩ /- FB_CMPINC R435 -/]

/-- Register rows of the FB block, part 1. -/
def rowsFB1 : List RegRow := [
  ⟨0x10C, 4, 32, 0x0, 0x0, 0x0, 0x0, 0x0, 0x0, 0x0, 0x0, 0x0, 0x0, 0x0⟩ /- FB_CMPTS R435 -/,
  ⟨0x110, 4, 32, 0x0, 0x0, 0x0, 0x0, 0x0, 0x0, 0x0, 0x0, 0x0, 0x0, 0x0⟩ /- FB_CMPST R436 -/,
  ⟨0x114, 4, 32, 0x0, 0x0, 0x0, 0x0, 0x0, 0x0, 0x0, 0x0, 0x0, 0x0, 0x0⟩ /- FB_CMPCNT R435 -/]

/-- Register rows of the FB block, all parts. -/
def rowsFB : List RegRow := rowsFB0 ++ rowsFB1

/-- Register rows of the ADC block. -/
def rowsADC : List RegRow := [
  ⟨0x0, 1, 4, 0x0, 0x1, 0x0, 0x0, 0x7F02, 0x0, 0x0, 0x0, 0x7F03, 0x0, 0x7F03⟩  /- ADC_CTL R459 -/,
  ⟨0x4, 1, 4, 0x0, 0x0, 0x0, 0x0, 0x0, 0x0, 0x0, 0x0, 0x0, 0x0, 0x0⟩  /- ADC_CMD R460 -/,
  ⟨0x8, 1, 4, 0x0, 0x0, 0x0, 0x0, 0x0, 0x0, 0x0, 0x0, 0x0, 0x0, 0x0⟩  /- ADC_STAT R461 -/,
  ⟨0xC, 1, 4, 0x0, 0x0, 0x0, 0x0, 0x0, 0x0, 0x0, 0x0, 0x0, 0x0, 0x0⟩  /- ADC_CFGERR R462 -/,
  ⟨0x10, 1, 4, 0x0, 0x0, 0x0, 0x0, 0x0, 0x0, 0x0, 0x0, 0x0, 0x0, 0x0⟩  /- ADC_ENTCNT R463 -/,
  ⟨0x14, 1, 4, 0x0, 0x0, 0x0, 0x0, 0x0, 0x0, 0x0, 0x0, 0x0, 0x0, 0x0⟩  /- ADC_OVRCNT R463 -/,
  ⟨0x18, 1, 4, 0x0, 0x0, 0x0, 0x0, 0x0, 0x0, 0x0, 0x0, 0x0, 0x0, 0x0⟩  /- ADC_LATECNT R463 -/,
  ⟨0x1C, 1, 4, 0x0, 0x0, 0x0, 0x0, 0x0, 0x0, 0x0, 0x0, 0x0, 0x0, 0x0⟩  /- ADC_PASSCNT R463 -/,
  ⟨0x20, 1, 4, 0x0, 0x0, 0x3F, 0x0, 0x0, 0x0, 0x0, 0x0, 0x0, 0x0, 0x0⟩  /- ADC_EVT R464 -/,
  ⟨0x24, 1, 4, 0x3E, 0x3F, 0x0, 0x0, 0x0, 0x0, 0x0, 0x0, 0x0, 0x3E, 0x0⟩  /- ADC_EVTEN R464 -/,
  ⟨0x100, 16, 8, 0x0, 0x0, 0x0, 0x0, 0x0, 0xFFFFFFFF, 0x0, 0x0, 0xFFFFFFFF, 0x0, 0xFFFFFFFF⟩  /- ADC_OFS R465 -/,
  ⟨0x104, 16, 8, 0x0, 0x0, 0x0, 0x0, 0x0, 0xFFFFFFFF, 0x0, 0x0, 0xFFFFFFFF, 0x0, 0xFFFFFFFF⟩  /- ADC_GAIN R465 -/,
  ⟨0x1000, 4, 64, 0x0, 0x1, 0x0, 0x0, 0x7F0006, 0x0, 0x0, 0x7F0007, 0x0, 0x0, 0x7F0007⟩  /- ADC_PWMCTL R466 -/,
  ⟨0x1004, 4, 64, 0x0, 0x0, 0x0, 0x0, 0x3FFFF, 0x0, 0x0, 0x3FFFF, 0x0, 0x0, 0x3FFFF⟩  /- ADC_PWMSID R467 -/,
  ⟨0x1008, 4, 64, 0x0, 0x0, 0x0, 0x0, 0x0, 0x0, 0x0, 0xFFFFFFFF, 0x0, 0x0, 0x0⟩  /- ADC_PWMDUTY R468 -/,
  ⟨0x100C, 4, 64, 0x0, 0x0, 0x0, 0x0, 0x0, 0x0, 0x0, 0xFFFFFFFF, 0x0, 0x0, 0x0⟩  /- ADC_PWMHIGH R468 -/,
  ⟨0x1010, 4, 64, 0x0, 0x0, 0x0, 0x0, 0x0, 0x0, 0x0, 0xFFFFFFFF, 0x0, 0x0, 0x0⟩  /- ADC_PWMNARROW R468 -/]

/-- Register rows of the LT block. LTt_JRNSLOT and LTt_EVT.JRNERR keep their values over a warm restart that loses no slot of the tile (03 R173,
R174). DESIGN CHOICE (notes/assumptions/89.md). -/
def rowsLT0 : List RegRow := [
  ⟨0x0, 1, 4, 0x0, 0x0, 0x0, 0x0, 0x0, 0x0, 0x0, 0x7F0001, 0x0, 0x0, 0x7F0001⟩ /- LT_STAT R169 -/,
  ⟨0x4, 1, 4, 0x0, 0x0, 0x0, 0x0, 0x0, 0x0, 0x0, 0x1FF, 0x0, 0x0, 0x1FF⟩ /- LT_NEN R170 -/,
  ⟨0x8, 1, 4, 0x0, 0x0, 0x0, 0x0, 0x0, 0x0, 0x0, 0x0, 0x0, 0x0, 0x0⟩ /- LT_EVALCNT R171 -/,
  ⟨0xC, 1, 4, 0x0, 0x0, 0x0, 0x0, 0x0, 0x0, 0x0, 0x0, 0x0, 0x0, 0x0⟩ /- LT_CFGERR R172 -/,
  ⟨0x10, 1, 4, 0x0, 0x0, 0x0, 0x0, 0x0, 0x0, 0x0, 0xFF, 0x0, 0x0, 0x0⟩ /- LT_JRNSLOT R173 -/,
  ⟨0x14, 1, 4, 0x0, 0x0, 0xFFF, 0x0, 0x0, 0x0, 0x0, 0x2, 0x0, 0x0, 0x0⟩ /- LT_EVT R174 -/,
  ⟨0x18, 1, 4, 0xF, 0xFFFF, 0x0, 0x0, 0x0, 0x0, 0x0, 0x0, 0x0, 0xF, 0x0⟩ /- LT_EVTEN R175 -/,
  ⟨0x1C, 1, 4, 0x0, 0x0, 0x0, 0x0, 0x0, 0x0, 0x0, 0x0, 0x0, 0x0, 0x0⟩ /- LT_FLAGCLR R207 -/,
  ⟨0x20, 1, 4, 0xFFF, 0xFFF, 0x0, 0x0, 0x0, 0x0, 0x0, 0x0, 0x0, 0xFFF, 0x0⟩ /- LT_FLAGEVM R208 -/,
  ⟨0x24, 1, 4, 0x0, 0x0, 0x0, 0x0, 0x0, 0x0, 0x0, 0x0, 0x0, 0x0, 0x0⟩ /- LT_FLAGLAST R209 -/,
  ⟨0x40, 1, 4, 0x0, 0x0, 0x0, 0x0, 0xFF1FFF33, 0x0, 0x0, 0x0, 0x0, 0x0, 0x0⟩ /- LT_INJCTL R237 -/,
  ⟨0x44, 1, 4, 0x0, 0x0, 0x0, 0x0, 0xFFFFFFFF, 0x0, 0x0, 0x0, 0x0, 0x0, 0x0⟩ /- LT_INJAMP R238 -/,
  ⟨0x48, 1, 4, 0x0, 0x0, 0x0, 0x0, 0xFFFFFFFF, 0x0, 0x0, 0x0, 0x0, 0x0, 0x0⟩ /- LT_INJLEN R238 -/,
  ⟨0x4C, 1, 4, 0x0, 0x0, 0x0, 0x0, 0xFFFFFFFF, 0x0, 0x0, 0x0, 0x0, 0x0, 0x0⟩ /- LT_INJP1 R238 -/,
  ⟨0x50, 1, 4, 0x0, 0x0, 0x0, 0x0, 0xFFFFFFFF, 0x0, 0x0, 0x0, 0x0, 0x0, 0x0⟩ /- LT_INJP2 R238 -/,
  ⟨0x54, 1, 4, 0x0, 0x0, 0x0, 0x0, 0xFFFFFFFF, 0x0, 0x0, 0x0, 0x0, 0x0, 0x0⟩ /- LT_INJP3 R238 -/,
  ⟨0x58, 1, 4, 0x0, 0x0, 0x0, 0x0, 0xFFF, 0x0, 0x0, 0x0, 0x0, 0x0, 0x0⟩ /- LT_INJABM R239 -/,
  ⟨0x5C, 1, 4, 0x0, 0x0, 0x0, 0x0, 0x0, 0x0, 0x0, 0x0, 0x0, 0x0, 0x0⟩ /- LT_INJCMD R240 -/,
  ⟨0x88, 1, 4, 0x0, 0x0, 0x0, 0x0, 0x0, 0x0, 0x0, 0x0, 0x0, 0x0, 0x0⟩ /- LT_CAPCMD R240 -/,
  ⟨0x60, 1, 4, 0x0, 0x0, 0x0, 0x0, 0x0, 0x0, 0x0, 0xF0, 0x0, 0x0, 0x0⟩ /- LT_INJSTAT R241 -/,
  ⟨0x64, 1, 4, 0x0, 0x0, 0x0, 0x0, 0x0, 0x0, 0x0, 0xFFFFFFFF, 0x0, 0x0, 0x0⟩ /- LT_INJCNT R242 -/,
  ⟨0x68, 1, 4, 0x0, 0x0, 0x0, 0x0, 0x0, 0x0, 0x0, 0xFFFFFFFF, 0x0, 0x0, 0x0⟩ /- LT_INJVAL R242 -/,
  ⟨0x6C, 1, 4, 0x0, 0x0, 0x0, 0x0, 0x0, 0x0, 0x0, 0xFFFFFFFF, 0x0, 0x0, 0x0⟩ /- LT_INJT0 R242 -/,
  ⟨0x80, 1, 4, 0x0, 0x0, 0x0, 0x0, 0xFF3F0FFF, 0x0, 0x0, 0xFF3F0FFF, 0x0, 0x0, 0x0⟩ /- LT_CAPCTL R243 -/,
  ⟨0x84, 1, 4, 0x0, 0x0, 0x0, 0x0, 0xFFF1FFF, 0x0, 0x0, 0xFFF1FFF, 0x0, 0x0, 0x0⟩ /- LT_CAPLEN R244 -/]

/-- Register rows of the LT block, part 1. -/
def rowsLT1 : List RegRow := [
  ⟨0x8C, 1, 4, 0x0, 0x0, 0x0, 0x0, 0x0, 0x0, 0x0, 0xFFC, 0x0, 0x0, 0x0⟩ /- LT_CAPSTAT R245 -/,
  ⟨0x90, 1, 4, 0x0, 0x0, 0x0, 0x0, 0x0, 0x0, 0x0, 0xFFFFFFFF, 0x0, 0x0, 0x0⟩ /- LT_CAPPTR R246 -/,
  ⟨0x94, 1, 4, 0x0, 0x0, 0x0, 0x0, 0x0, 0x0, 0x0, 0xFFFFFFFF, 0x0, 0x0, 0x0⟩ /- LT_CAPCNT R246 -/,
  ⟨0x98, 1, 4, 0x0, 0x0, 0x0, 0x0, 0x0, 0x0, 0x0, 0xFFFFFFFF, 0x0, 0x0, 0x0⟩ /- LT_CAPT0 R246 -/]

/-- Register rows of the LT block, all parts. -/
def rowsLT : List RegRow := rowsLT0 ++ rowsLT1

/-- The rows of a block by its index in 00 R23; 32 stands for the tile registers of a tile window. -/
def blockRows : Nat → List RegRow
  | 0 => rowsSYS
  | 1 => rowsPWR
  | 2 => rowsSEC
  | 3 => rowsCST
  | 4 => rowsSIG
  | 5 => rowsLPE
  | 6 => rowsEWN
  | 7 => rowsTLN
  | 8 => rowsHPC
  | 9 => rowsSVC
  | 10 => rowsCLM
  | 11 => rowsREC
  | 12 => rowsDSP
  | 13 => rowsMEM
  | 15 => rowsODO
  | 16 => rowsSAF
  | 17 => rowsLDG
  | 21 => rowsCOR
  | 18 => rowsCAN
  | 19 => rowsFB
  | 20 => rowsADC
  | 32 => rowsLT
  | _ => []

/-- The base of register block `i` (00 R22). -/
def blockBase (i : Nat) : Nat := 0x10000000 + i * 0x100000

/-- The size of a unit within a block (00 R23): CAN 64 KiB, FB 32 KiB, ADC 128 KiB, otherwise the whole block. -/
def unitSize : Nat → Nat
  | 18 => 0x10000
  | 19 => 0x8000
  | 20 => 0x20000
  | _ => 0x100000

/-- A register address as (block, unit, offset in the unit); tile registers give block 32 with the tile as unit. -/
def splitAddr (a : Nat) : Option (Nat × Nat × Nat) :=
  if 0x10000000 ≤ a ∧ a < 0x10000000 + 22 * 0x100000 then
    let i := (a - 0x10000000) / 0x100000
    let o := (a - 0x10000000) % 0x100000
    if i = 18 ∧ o / 0x10000 ≥ 8 then none else some (i, o / unitSize i, o % unitSize i)
  else if 0x18000000 ≤ a ∧ a < 0x18000000 + 16 * 0x100000 then
    let t := (a - 0x18000000) / 0x100000
    let o := (a - 0x18000000) % 0x100000
    if 0x80000 ≤ o ∧ o < 0x81000 then some (32, t, o - 0x80000) else none
  else none

/-- The first row of a list that holds offset `o`. -/
def findRow (rows : List RegRow) (o : Nat) : Option RegRow :=
  match rows with
  | [] => none
  | r :: rest =>
    if r.off ≤ o ∧ (o - r.off) % r.stride = 0 ∧ (o - r.off) / r.stride < r.count then some r else findRow rest o

/-- The row of the register at a local address, if one is there. -/
def rowOf (a : Nat) : Option RegRow :=
  match splitAddr a with
  | none => none
  | some (b, _, o) => findRow (blockRows b) o

/-- The cold value of the register at a local address (00 R16); 0 where the cold value comes from a consist, but for TLN_ETYPE (16 R724).
DESIGN CHOICE (notes/assumptions/1.md). -/
def regCold (a : Nat) : Word :=
  match rowOf a with
  | none => 0
  | some r => wn r.cold

namespace Reg

/-- SYS_TICKLO (R60). -/
def sysTicklo : Nat := 0x10000100
/-- SYS_TICKHI (R61). -/
def sysTickhi : Nat := 0x10000104
/-- SYS_PHASE (R62). -/
def sysPhase : Nat := 0x10000108
/-- SYS_TBCTL (R63). -/
def sysTbctl : Nat := 0x1000010C
/-- SYS_TBTRIM (R64). -/
def sysTbtrim : Nat := 0x10000110
/-- SYS_TBTRIMEFF (R65). -/
def sysTbtrimeff : Nat := 0x10000114
/-- SYS_TBSTAT (R66). -/
def sysTbstat : Nat := 0x10000118
/-- SYS_FABTLO (R67). -/
def sysFabtlo : Nat := 0x1000011C
/-- SYS_FABHI (R68). -/
def sysFabhi : Nat := 0x10000120
/-- SYS_FABSEC (R69). -/
def sysFabsec : Nat := 0x10000124
/-- SYS_FABNS (R70). -/
def sysFabns : Nat := 0x10000128
/-- SYS_ID (R801). -/
def sysId : Nat := 0x10000000
/-- SYS_STAT (R801). -/
def sysStat : Nat := 0x10000004
/-- SYS_RSTCAUSE (R801). -/
def sysRstcause : Nat := 0x10000008
/-- SYS_WARMLAST (R801). -/
def sysWarmlast : Nat := 0x1000000C
/-- SYS_WARMDUR (R801). -/
def sysWarmdur : Nat := 0x10000010
/-- SYS_RSTCFG (R801). -/
def sysRstcfg : Nat := 0x10000014
/-- SYS_RSTREQ (R801). -/
def sysRstreq : Nat := 0x10000018
/-- SYS_EPOCH (R801). -/
def sysEpoch : Nat := 0x1000001C
/-- SYS_BOOTT (R801). -/
def sysBoott : Nat := 0x10000020
/-- SYS_FQSTAT (R801). -/
def sysFqstat : Nat := 0x10000030
/-- SYS_FACK (R801). -/
def sysFack : Nat := 0x10000034
/-- SYS_FQLOST (R801). -/
def sysFqlost : Nat := 0x10000038
/-- SYS_FCTL (R801). -/
def sysFctl : Nat := 0x1000003C
/-- SYS_EVT (R801). -/
def sysEvt : Nat := 0x10000040
/-- SYS_EVTEN (R801). -/
def sysEvten : Nat := 0x10000044
/-- SYS_FQLO (R801). -/
def sysFqlo (i : Nat) : Nat := 0x10000200 + 8 * i
/-- SYS_FQHI (R801). -/
def sysFqhi (i : Nat) : Nat := 0x10000204 + 8 * i
/-- PWR_STAT (R802). -/
def pwrStat : Nat := 0x10100000
/-- PWR_VSUP (R802). -/
def pwrVsup : Nat := 0x10100004
/-- PWR_VCORE (R802). -/
def pwrVcore : Nat := 0x10100008
/-- PWR_VAON (R802). -/
def pwrVaon : Nat := 0x1010000C
/-- PWR_TJC (R802). -/
def pwrTjc : Nat := 0x10100010
/-- PWR_STAGET (R802). -/
def pwrStaget : Nat := 0x10100014
/-- PWR_ISLPWR (R802). -/
def pwrIslpwr : Nat := 0x10100018
/-- PWR_ISLREQ (R802). -/
def pwrIslreq : Nat := 0x1010001C
/-- PWR_GOVCNT (R802). -/
def pwrGovcnt : Nat := 0x10100020
/-- PWR_GOVQCNT (R802). -/
def pwrGovqcnt : Nat := 0x10100024
/-- PWR_GOVMAXD (R802). -/
def pwrGovmaxd : Nat := 0x10100028
/-- PWR_EVT (R802). -/
def pwrEvt : Nat := 0x10100030
/-- PWR_EVTEN (R802). -/
def pwrEvten : Nat := 0x10100034
/-- SEC_SERIALLO (R765). -/
def secSeriallo : Nat := 0x10200000
/-- SEC_SERIALHI (R765). -/
def secSerialhi : Nat := 0x10200004
/-- SEC_BOOTSTAT (R765). -/
def secBootstat : Nat := 0x10200008
/-- SEC_FUSE (R765). -/
def secFuse : Nat := 0x1020000C
/-- SEC_ARB0 (R765). -/
def secArb0 : Nat := 0x10200010
/-- SEC_ARB1 (R765). -/
def secArb1 : Nat := 0x10200014
/-- SEC_ARBCMD (R765). -/
def secArbcmd : Nat := 0x10200018
/-- SEC_FUSECMD (R765). -/
def secFusecmd : Nat := 0x1020001C
/-- SEC_QSTAT (R765). -/
def secQstat : Nat := 0x10200020
/-- SEC_EVT (R765). -/
def secEvt : Nat := 0x10200024
/-- SEC_EVTEN (R765). -/
def secEvten : Nat := 0x10200028
/-- SEC_MANHASH (R765). -/
def secManhash (i : Nat) : Nat := 0x10200040 + 4 * i
/-- SEC_CSTHASH (R765). -/
def secCsthash (i : Nat) : Nat := 0x10200060 + 4 * i
/-- SEC_DEVPK (R765). -/
def secDevpk (i : Nat) : Nat := 0x10200080 + 4 * i
/-- SEC_KEYHASH (R765). -/
def secKeyhash (i : Nat) : Nat := 0x10200100 + 4 * i
/-- SEC_QUOTE (R765). -/
def secQuote (i : Nat) : Nat := 0x10201000 + 4 * i
/-- CST_STAT (R839). -/
def cstStat : Nat := 0x10300000
/-- CST_ID (R839). -/
def cstId : Nat := 0x10300004
/-- CST_VERSION (R839). -/
def cstVersion : Nat := 0x10300008
/-- CST_LEN (R839). -/
def cstLen : Nat := 0x1030000C
/-- CST_STGLEN (R839). -/
def cstStglen : Nat := 0x10300010
/-- CST_STGID (R839). -/
def cstStgid : Nat := 0x10300014
/-- CST_LOADERR (R839). -/
def cstLoaderr : Nat := 0x10300018
/-- CST_STGERR (R839). -/
def cstStgerr : Nat := 0x1030001C
/-- CST_PERR (R839). -/
def cstPerr : Nat := 0x10300020
/-- CST_PCNT (R839). -/
def cstPcnt : Nat := 0x10300024
/-- CST_PCRC (R839). -/
def cstPcrc : Nat := 0x10300028
/-- CST_PAPPLY (R839). -/
def cstPapply : Nat := 0x1030002C
/-- CST_PLOST (R839). -/
def cstPlost : Nat := 0x10300030
/-- CST_CSREF (R839). -/
def cstCsref : Nat := 0x10300034
/-- CST_SWAPCNT (R839). -/
def cstSwapcnt : Nat := 0x10300038
/-- CST_SEATPENDLO (R839). -/
def cstSeatpendlo : Nat := 0x10300040
/-- CST_SEATPENDHI (R839). -/
def cstSeatpendhi : Nat := 0x10300044
/-- CST_EVT (R839). -/
def cstEvt : Nat := 0x10300050
/-- CST_EVTEN (R839). -/
def cstEvten : Nat := 0x10300054
/-- SIG_STAT (R114). -/
def sigStat : Nat := 0x10400000
/-- SIG_NDECL (R115). -/
def sigNdecl : Nat := 0x10400004
/-- SIG_NOUT (R115). -/
def sigNout : Nat := 0x10400008
/-- SIG_PCNT (R116). -/
def sigPcnt (i : Nat) : Nat := 0x10400010 + 4 * i
/-- SIG_PPEAK (R117). -/
def sigPpeak (i : Nat) : Nat := 0x10400020 + 4 * i
/-- SIG_PRODERR (R118). -/
def sigProderr : Nat := 0x10400030
/-- SIG_GATEREF (R118). -/
def sigGateref : Nat := 0x10400038
/-- SIG_FORCEREF (R118). -/
def sigForceref : Nat := 0x10400040
/-- SIG_CLAMPCNT (R118). -/
def sigClampcnt : Nat := 0x10400044
/-- SIG_UECNT (R118). -/
def sigUecnt : Nat := 0x10400048
/-- SIG_PRODLAST (R119). -/
def sigProdlast : Nat := 0x10400034
/-- SIG_GATELAST (R119). -/
def sigGatelast : Nat := 0x1040003C
/-- SIG_HELDCNT (R120). -/
def sigHeldcnt : Nat := 0x1040004C
/-- SIG_FORCESTAT (R121). -/
def sigForcestat : Nat := 0x10400050
/-- SIG_EVT (R122). -/
def sigEvt : Nat := 0x10400060
/-- SIG_EVTEN (R123). -/
def sigEvten : Nat := 0x10400064
/-- SIG_CLR (R124). -/
def sigClr : Nat := 0x10400068
/-- LPE_STAT (R166). -/
def lpeStat : Nat := 0x10500000
/-- LPE_RESUME (R167). -/
def lpeResume : Nat := 0x10500004
/-- LPE_OVERRUN (R168). -/
def lpeOverrun : Nat := 0x10500008
/-- LPE_LOST (R168). -/
def lpeLost : Nat := 0x1050000C
/-- LPE_SHQLOST (R168). -/
def lpeShqlost : Nat := 0x10500010
/-- EWN_STAT (R293). -/
def ewnStat : Nat := 0x10600000
/-- EWN_TTCFG (R294). -/
def ewnTtcfg : Nat := 0x10600004
/-- EWN_TTVER (R295). -/
def ewnTtver : Nat := 0x10600008
/-- EWN_LANDCNT (R296). -/
def ewnLandcnt : Nat := 0x10600010
/-- EWN_MISSCNT (R296). -/
def ewnMisscnt : Nat := 0x10600014
/-- EWN_CRCA (R296). -/
def ewnCrca : Nat := 0x10600018
/-- EWN_CRCB (R296). -/
def ewnCrcb : Nat := 0x1060001C
/-- EWN_HCRC (R296). -/
def ewnHcrc : Nat := 0x10600020
/-- EWN_NARROW (R296). -/
def ewnNarrow : Nat := 0x10600024
/-- EWN_MISSLAST (R297). -/
def ewnMisslast : Nat := 0x10600028
/-- EWN_MAILCFG (R298). -/
def ewnMailcfg : Nat := 0x10600040
/-- EWN_MTXTAIL (R299). -/
def ewnMtxtail : Nat := 0x10600044
/-- EWN_MTXHEAD (R299). -/
def ewnMtxhead : Nat := 0x10600048
/-- EWN_MRXTAIL (R299). -/
def ewnMrxtail : Nat := 0x1060004C
/-- EWN_MRXHEAD (R299). -/
def ewnMrxhead : Nat := 0x10600050
/-- EWN_MTXCNT (R300). -/
def ewnMtxcnt : Nat := 0x10600054
/-- EWN_MRXCNT (R300). -/
def ewnMrxcnt : Nat := 0x10600058
/-- EWN_MRETX (R300). -/
def ewnMretx : Nat := 0x1060005C
/-- EWN_MLOST (R300). -/
def ewnMlost : Nat := 0x10600060
/-- EWN_MDUP (R300). -/
def ewnMdup : Nat := 0x10600064
/-- EWN_CARRUNUSED (R300). -/
def ewnCarrunused : Nat := 0x10600068
/-- EWN_MLOSTLAST (R301). -/
def ewnMlostlast : Nat := 0x1060006C
/-- EWN_EVT (R302). -/
def ewnEvt : Nat := 0x10600070
/-- EWN_EVTEN (R303). -/
def ewnEvten : Nat := 0x10600074
/-- EWN_NMAIL (R305). -/
def ewnNmail (i : Nat) : Nat := 0x10600080 + 4 * i
/-- EWN_SURVCFG (R343). -/
def ewnSurvcfg : Nat := 0x10600200
/-- EWN_SURVSTAT (R344). -/
def ewnSurvstat : Nat := 0x10600204
/-- EWN_RTA (R345). -/
def ewnRta : Nat := 0x10600208
/-- EWN_RTB (R345). -/
def ewnRtb : Nat := 0x1060020C
/-- EWN_BRKMARGIN (R346). -/
def ewnBrkmargin : Nat := 0x10600210
/-- EWN_DIVCNT (R346). -/
def ewnDivcnt : Nat := 0x10600214
/-- EWN_BRKCNT (R346). -/
def ewnBrkcnt : Nat := 0x10600218
/-- EWN_SURVCNT (R346). -/
def ewnSurvcnt : Nat := 0x1060021C
/-- EWN_DIVLAST (R347). -/
def ewnDivlast : Nat := 0x10600220
/-- EWN_EVT2 (R348). -/
def ewnEvt2 : Nat := 0x10600230
/-- EWN_EVTEN2 (R348). -/
def ewnEvten2 : Nat := 0x10600234
/-- EWN_NSTAT (R349). -/
def ewnNstat (i : Nat) : Nat := 0x10600400 + 4 * i
/-- EWN_NDLYA (R350). -/
def ewnNdlya (i : Nat) : Nat := 0x10600500 + 4 * i
/-- EWN_NDLYB (R350). -/
def ewnNdlyb (i : Nat) : Nat := 0x10600600 + 4 * i
/-- EWN_NCTL (R351). -/
def ewnNctl (i : Nat) : Nat := 0x10600700 + 4 * i
/-- TLN_CTL (R762). -/
def tlnCtl : Nat := 0x10700000
/-- TLN_STAT (R762). -/
def tlnStat : Nat := 0x10700004
/-- TLN_MACLO (R762). -/
def tlnMaclo : Nat := 0x10700008
/-- TLN_MACHI (R762). -/
def tlnMachi : Nat := 0x1070000C
/-- TLN_ETYPE (R762). -/
def tlnEtype : Nat := 0x10700010
/-- TLN_ALMMACLO (R762). -/
def tlnAlmmaclo : Nat := 0x10700014
/-- TLN_ALMMACHI (R762). -/
def tlnAlmmachi : Nat := 0x10700018
/-- TLN_PTPCFG (R762). -/
def tlnPtpcfg : Nat := 0x10700020
/-- TLN_PTPOFS (R762). -/
def tlnPtpofs : Nat := 0x10700024
/-- TLN_RXCMD (R762). -/
def tlnRxcmd : Nat := 0x10700030
/-- TLN_CMDDROP (R762). -/
def tlnCmddrop : Nat := 0x10700034
/-- TLN_BADPFX (R762). -/
def tlnBadpfx : Nat := 0x10700038
/-- TLN_DUP (R762). -/
def tlnDup : Nat := 0x1070003C
/-- TLN_LLOSSA (R762). -/
def tlnLlossa : Nat := 0x10700040
/-- TLN_LLOSSB (R762). -/
def tlnLlossb : Nat := 0x10700044
/-- TLN_ALMTX (R762). -/
def tlnAlmtx : Nat := 0x10700048
/-- TLN_EVT (R762). -/
def tlnEvt : Nat := 0x10700050
/-- TLN_EVTEN (R762). -/
def tlnEvten : Nat := 0x10700054
/-- HPC_STAT (R761). -/
def hpcStat : Nat := 0x10800000
/-- HPC_CQBASELO (R761). -/
def hpcCqbaselo : Nat := 0x10800010
/-- HPC_CQBASEHI (R761). -/
def hpcCqbasehi : Nat := 0x10800014
/-- HPC_CQCTL (R761). -/
def hpcCqctl : Nat := 0x10800018
/-- HPC_CQTAIL (R761). -/
def hpcCqtail : Nat := 0x1080001C
/-- HPC_CQHEAD (R761). -/
def hpcCqhead : Nat := 0x10800020
/-- HPC_RQBASELO (R761). -/
def hpcRqbaselo : Nat := 0x10800024
/-- HPC_RQBASEHI (R761). -/
def hpcRqbasehi : Nat := 0x10800028
/-- HPC_RQTAIL (R761). -/
def hpcRqtail : Nat := 0x1080002C
/-- HPC_RQHEAD (R761). -/
def hpcRqhead : Nat := 0x10800030
/-- HPC_BARREF (R761). -/
def hpcBarref : Nat := 0x10800040
/-- HPC_CMDCNT (R761). -/
def hpcCmdcnt : Nat := 0x10800044
/-- HPC_AUTHREF (R761). -/
def hpcAuthref : Nat := 0x10800048
/-- HPC_ALMRAISE (R761). -/
def hpcAlmraise : Nat := 0x10800050
/-- HPC_ALMDATA (R761). -/
def hpcAlmdata : Nat := 0x10800054
/-- HPC_ALMDIRTY (R761). -/
def hpcAlmdirty (i : Nat) : Nat := 0x10800060 + 4 * i
/-- HPC_ALMCNT (R761). -/
def hpcAlmcnt : Nat := 0x10800080
/-- HPC_EVT (R761). -/
def hpcEvt : Nat := 0x10800090
/-- HPC_EVTEN (R761). -/
def hpcEvten : Nat := 0x10800094
/-- HPC_EVVEC (R761). -/
def hpcEvvec (i : Nat) : Nat := 0x10800100 + 4 * i
/-- HPC_DQBASELO (R761). -/
def hpcDqbaselo (i : Nat) : Nat := 0x10800200 + 32 * i
/-- HPC_DQBASEHI (R761). -/
def hpcDqbasehi (i : Nat) : Nat := 0x10800204 + 32 * i
/-- HPC_DQCTL (R761). -/
def hpcDqctl (i : Nat) : Nat := 0x10800208 + 32 * i
/-- HPC_DQTAIL (R761). -/
def hpcDqtail (i : Nat) : Nat := 0x1080020C + 32 * i
/-- HPC_DQHEAD (R761). -/
def hpcDqhead (i : Nat) : Nat := 0x10800210 + 32 * i
/-- HPC_DQSTAT (R761). -/
def hpcDqstat (i : Nat) : Nat := 0x10800214 + 32 * i
/-- HPC_DQDONE (R761). -/
def hpcDqdone (i : Nat) : Nat := 0x10800218 + 32 * i
/-- HPC_DQLAST (R761). -/
def hpcDqlast (i : Nat) : Nat := 0x1080021C + 32 * i
/-- SVC_STAT (R763). -/
def svcStat : Nat := 0x10900000
/-- SVC_RXCMD (R763). -/
def svcRxcmd : Nat := 0x10900004
/-- SVC_RSPLOST (R763). -/
def svcRsplost : Nat := 0x10900008
/-- SVC_EVT (R763). -/
def svcEvt : Nat := 0x10900010
/-- SVC_EVTEN (R763). -/
def svcEvten : Nat := 0x10900014
/-- CLM_STAT (R764). -/
def clmStat : Nat := 0x10A00000
/-- CLM_HB (R764). -/
def clmHb : Nat := 0x10A00004
/-- CLM_CHGCNT (R764). -/
def clmChgcnt : Nat := 0x10A00008
/-- CLM_PATHALMCNT (R764). -/
def clmPathalmcnt : Nat := 0x10A0000C
/-- CLM_FAILCNT (R764). -/
def clmFailcnt : Nat := 0x10A00010
/-- CLM_CEILREF (R764). -/
def clmCeilref : Nat := 0x10A00014
/-- CLM_EVT (R764). -/
def clmEvt : Nat := 0x10A00020
/-- CLM_EVTEN (R764). -/
def clmEvten : Nat := 0x10A00024
/-- CLM_SVCFG (R764). -/
def clmSvcfg (i : Nat) : Nat := 0x10A00100 + 16 * i
/-- CLM_SVMACLO (R764). -/
def clmSvmaclo (i : Nat) : Nat := 0x10A00104 + 16 * i
/-- CLM_SVMACHI (R764). -/
def clmSvmachi (i : Nat) : Nat := 0x10A00108 + 16 * i
/-- CLM_SVSTAT (R764). -/
def clmSvstat (i : Nat) : Nat := 0x10A0010C + 16 * i
/-- REC_STAT (R517). -/
def recStat : Nat := 0x10B00000
/-- REC_DCEIL (R517). -/
def recDceil : Nat := 0x10B00004
/-- REC_SCEIL (R517). -/
def recSceil : Nat := 0x10B00008
/-- REC_TICKPEAK (R517). -/
def recTickpeak : Nat := 0x10B0000C
/-- REC_SHEDFROZEN (R518). -/
def recShedfrozen : Nat := 0x10B00010
/-- REC_SHEDSTRFULL (R518). -/
def recShedstrfull : Nat := 0x10B00014
/-- REC_SHEDSAG (R518). -/
def recShedsag : Nat := 0x10B00018
/-- REC_SHEDBUDGET (R518). -/
def recShedbudget : Nat := 0x10B0001C
/-- REC_SHEDCMAX (R518). -/
def recShedcmax : Nat := 0x10B00020
/-- REC_SHEDTYPE (R518). -/
def recShedtype : Nat := 0x10B00024
/-- REC_MTRGLAST (R519). -/
def recMtrglast : Nat := 0x10B00030
/-- REC_CFGERR (R519). -/
def recCfgerr : Nat := 0x10B00034
/-- REC_SETCFG (R520). -/
def recSetcfg (i : Nat) : Nat := 0x10B01000 + 64 * i
/-- REC_SETSLO (R521). -/
def recSetslo (i : Nat) : Nat := 0x10B01004 + 64 * i
/-- REC_SETSHI (R521). -/
def recSetshi (i : Nat) : Nat := 0x10B01008 + 64 * i
/-- REC_SETDB (R521). -/
def recSetdb (i : Nat) : Nat := 0x10B0100C + 64 * i
/-- REC_SETCHG (R521). -/
def recSetchg (i : Nat) : Nat := 0x10B01010 + 64 * i
/-- REC_SETRED (R521). -/
def recSetred (i : Nat) : Nat := 0x10B01014 + 64 * i
/-- REC_SETGAP (R521). -/
def recSetgap (i : Nat) : Nat := 0x10B01018 + 64 * i
/-- REC_SETRB (R521). -/
def recSetrb (i : Nat) : Nat := 0x10B0101C + 64 * i
/-- REC_SETRS (R521). -/
def recSetrs (i : Nat) : Nat := 0x10B01020 + 64 * i
/-- REC_SETPOST (R521). -/
def recSetpost (i : Nat) : Nat := 0x10B01024 + 64 * i
/-- REC_SETCMD (R522). -/
def recSetcmd (i : Nat) : Nat := 0x10B01028 + 64 * i
/-- REC_SETSTAT (R523). -/
def recSetstat (i : Nat) : Nat := 0x10B0102C + 64 * i
/-- REC_SETPOS (R524). -/
def recSetpos (i : Nat) : Nat := 0x10B01030 + 64 * i
/-- REC_SETOLD (R524). -/
def recSetold (i : Nat) : Nat := 0x10B01034 + 64 * i
/-- REC_SETTPOS (R524). -/
def recSettpos (i : Nat) : Nat := 0x10B01038 + 64 * i
/-- REC_SETPREC (R524). -/
def recSetprec (i : Nat) : Nat := 0x10B0103C + 64 * i
/-- REC_LISSUED (R525). -/
def recLissued (i : Nat) : Nat := 0x10B04000 + 32 * i
/-- REC_LRSTDISC (R525). -/
def recLrstdisc (i : Nat) : Nat := 0x10B04004 + 32 * i
/-- REC_LREGWR (R525). -/
def recLregwr (i : Nat) : Nat := 0x10B04008 + 32 * i
/-- REC_LREGSHED (R525). -/
def recLregshed (i : Nat) : Nat := 0x10B0400C + 32 * i
/-- REC_LSTRWR (R525). -/
def recLstrwr (i : Nat) : Nat := 0x10B04010 + 32 * i
/-- REC_LSTRSHED (R525). -/
def recLstrshed (i : Nat) : Nat := 0x10B04014 + 32 * i
/-- REC_LCHGSHED (R525). -/
def recLchgshed (i : Nat) : Nat := 0x10B04018 + 32 * i
/-- REC_LMISSTRG (R525). -/
def recLmisstrg (i : Nat) : Nat := 0x10B0401C + 32 * i
/-- REC_TRGCFG (R526). -/
def recTrgcfg (i : Nat) : Nat := 0x10B02000 + 64 * i
/-- REC_TRGSRC (R527). -/
def recTrgsrc (i : Nat) : Nat := 0x10B02004 + 64 * i
/-- REC_TRGA (R527). -/
def recTrga (i : Nat) : Nat := 0x10B02008 + 64 * i
/-- REC_TRGB (R527). -/
def recTrgb (i : Nat) : Nat := 0x10B0200C + 64 * i
/-- REC_TRGMASK (R527). -/
def recTrgmask (i : Nat) : Nat := 0x10B02010 + 64 * i
/-- REC_TRGTGTLO (R527). -/
def recTrgtgtlo (i : Nat) : Nat := 0x10B02014 + 64 * i
/-- REC_TRGTGTHI (R527). -/
def recTrgtgthi (i : Nat) : Nat := 0x10B02018 + 64 * i
/-- REC_TRGHOLD (R527). -/
def recTrghold (i : Nat) : Nat := 0x10B0201C + 64 * i
/-- REC_TRGCMD (R528). -/
def recTrgcmd (i : Nat) : Nat := 0x10B02020 + 64 * i
/-- REC_TRGSTAT (R529). -/
def recTrgstat (i : Nat) : Nat := 0x10B02024 + 64 * i
/-- REC_TRGFIRECNT (R529). -/
def recTrgfirecnt (i : Nat) : Nat := 0x10B02028 + 64 * i
/-- REC_TRGLASTT (R529). -/
def recTrglastt (i : Nat) : Nat := 0x10B0202C + 64 * i
/-- REC_TRGLASTP (R529). -/
def recTrglastp (i : Nat) : Nat := 0x10B02030 + 64 * i
/-- REC_TRGUNUSED (R529). -/
def recTrgunused (i : Nat) : Nat := 0x10B02034 + 64 * i
/-- REC_STRBASELO (R530). -/
def recStrbaselo (i : Nat) : Nat := 0x10B03000 + 64 * i
/-- REC_STRBASEHI (R530). -/
def recStrbasehi (i : Nat) : Nat := 0x10B03004 + 64 * i
/-- REC_STRCFG (R530). -/
def recStrcfg (i : Nat) : Nat := 0x10B03008 + 64 * i
/-- REC_STRWBLO (R530). -/
def recStrwblo (i : Nat) : Nat := 0x10B0300C + 64 * i
/-- REC_STRWBHI (R530). -/
def recStrwbhi (i : Nat) : Nat := 0x10B03010 + 64 * i
/-- REC_STRCON (R530). -/
def recStrcon (i : Nat) : Nat := 0x10B03014 + 64 * i
/-- REC_STRPROD (R530). -/
def recStrprod (i : Nat) : Nat := 0x10B03018 + 64 * i
/-- REC_STRSTAT (R530). -/
def recStrstat (i : Nat) : Nat := 0x10B0301C + 64 * i
/-- DSP_STAT (R577). -/
def dspStat : Nat := 0x10C00000
/-- DSP_EVUNMAP (R578). -/
def dspEvunmap : Nat := 0x10C00004
/-- DSP_EVSAT (R578). -/
def dspEvsat : Nat := 0x10C00008
/-- DSP_PORTERRCNT (R578). -/
def dspPorterrcnt : Nat := 0x10C0000C
/-- DSP_EVSATLAST (R579). -/
def dspEvsatlast : Nat := 0x10C00010
/-- DSP_EVT (R580). -/
def dspEvt : Nat := 0x10C00020
/-- DSP_EVTEN (R580). -/
def dspEvten : Nat := 0x10C00024
/-- DSP_RSTCARTS (R581). -/
def dspRstcarts : Nat := 0x10C00800
/-- DSP_RSTPEND (R581). -/
def dspRstpend : Nat := 0x10C00804
/-- DSP_RSTTICK (R581). -/
def dspRsttick : Nat := 0x10C00808
/-- DSP_RSTCNT (R581). -/
def dspRstcnt : Nat := 0x10C0080C
/-- DSP_HITCH (R575). -/
def dspHitch (i : Nat) : Nat := 0x10C04000 + 4 * i
/-- DSP_EVMAP (R576). -/
def dspEvmap (i : Nat) : Nat := 0x10C05000 + 4 * i
/-- DSP_PTAKE (R582). -/
def dspPtake (i : Nat) : Nat := 0x10C01000 + 256 * i
/-- DSP_PTAKEARG (R582). -/
def dspPtakearg (i : Nat) : Nat := 0x10C01004 + 256 * i
/-- DSP_PTAKET (R582). -/
def dspPtaket (i : Nat) : Nat := 0x10C01008 + 256 * i
/-- DSP_PTAKEP (R582). -/
def dspPtakep (i : Nat) : Nat := 0x10C0100C + 256 * i
/-- DSP_PPOSTARG (R582). -/
def dspPpostarg (i : Nat) : Nat := 0x10C01010 + 256 * i
/-- DSP_PPOSTDLY (R582). -/
def dspPpostdly (i : Nat) : Nat := 0x10C01014 + 256 * i
/-- DSP_PPOSTCTL (R582). -/
def dspPpostctl (i : Nat) : Nat := 0x10C01018 + 256 * i
/-- DSP_PPOSTRES (R582). -/
def dspPpostres (i : Nat) : Nat := 0x10C0101C + 256 * i
/-- DSP_PDONE (R582). -/
def dspPdone (i : Nat) : Nat := 0x10C01020 + 256 * i
/-- DSP_PCANCEL (R582). -/
def dspPcancel (i : Nat) : Nat := 0x10C01024 + 256 * i
/-- DSP_PCANRES (R582). -/
def dspPcanres (i : Nat) : Nat := 0x10C01028 + 256 * i
/-- DSP_PEVRAISE (R582). -/
def dspPevraise (i : Nat) : Nat := 0x10C0102C + 256 * i
/-- DSP_PJCOMMIT (R582). -/
def dspPjcommit (i : Nat) : Nat := 0x10C01030 + 256 * i
/-- DSP_PJSTAT (R582). -/
def dspPjstat (i : Nat) : Nat := 0x10C01034 + 256 * i
/-- DSP_PSTEPLO (R582). -/
def dspPsteplo (i : Nat) : Nat := 0x10C01040 + 256 * i
/-- DSP_PSTEPHI (R582). -/
def dspPstephi (i : Nat) : Nat := 0x10C01044 + 256 * i
/-- DSP_PSTEPCTL (R582). -/
def dspPstepctl (i : Nat) : Nat := 0x10C01048 + 256 * i
/-- DSP_PERR (R582). -/
def dspPerr (i : Nat) : Nat := 0x10C01050 + 256 * i
/-- DSP_PINTEN (R582). -/
def dspPinten (i : Nat) : Nat := 0x10C01054 + 256 * i
/-- MEM_STAT (R613). -/
def memStat : Nat := 0x10D00000
/-- MEM_SSCRUB (R614). -/
def memSscrub : Nat := 0x10D00004
/-- MEM_SINIT (R615). -/
def memSinit : Nat := 0x10D00008
/-- MEM_TRKCFG (R616). -/
def memTrkcfg : Nat := 0x10D0000C
/-- MEM_CECNT (R617). -/
def memCecnt : Nat := 0x10D00010
/-- MEM_UECNT (R617). -/
def memUecnt : Nat := 0x10D00014
/-- MEM_HARDCNT (R617). -/
def memHardcnt : Nat := 0x10D00018
/-- MEM_TRKEVICT (R617). -/
def memTrkevict : Nat := 0x10D0001C
/-- MEM_DRMWUE (R617). -/
def memDrmwue : Nat := 0x10D00020
/-- MEM_CACHEPE (R617). -/
def memCachepe : Nat := 0x10D00024
/-- MEM_SLAPMAX (R617). -/
def memSlapmax : Nat := 0x10D00028
/-- MEM_ERRLASTLO (R618). -/
def memErrlastlo : Nat := 0x10D00030
/-- MEM_ERRLASTHI (R618). -/
def memErrlasthi : Nat := 0x10D00034
/-- MEM_TRKLAST (R619). -/
def memTrklast : Nat := 0x10D00038
/-- MEM_DSCRCFG (R620). -/
def memDscrcfg : Nat := 0x10D00040
/-- MEM_DSCRLO (R620). -/
def memDscrlo : Nat := 0x10D00044
/-- MEM_DSCRHI (R620). -/
def memDscrhi : Nat := 0x10D00048
/-- MEM_DSCRPOS (R620). -/
def memDscrpos : Nat := 0x10D0004C
/-- MEM_DLAP (R620). -/
def memDlap : Nat := 0x10D00050
/-- MEM_DREF (R621). -/
def memDref : Nat := 0x10D00054
/-- MEM_FILLADRLO (R622). -/
def memFilladrlo : Nat := 0x10D00060
/-- MEM_FILLADRHI (R622). -/
def memFilladrhi : Nat := 0x10D00064
/-- MEM_FILLLEN (R622). -/
def memFilllen : Nat := 0x10D00068
/-- MEM_FILLPATLO (R622). -/
def memFillpatlo : Nat := 0x10D0006C
/-- MEM_FILLPATHI (R622). -/
def memFillpathi : Nat := 0x10D00070
/-- MEM_FILLCMD (R622). -/
def memFillcmd : Nat := 0x10D00074
/-- MEM_FILLSTAT (R622). -/
def memFillstat : Nat := 0x10D00078
/-- MEM_FILLDONEB (R622). -/
def memFilldoneb : Nat := 0x10D0007C
/-- MEM_EVT (R623). -/
def memEvt : Nat := 0x10D00080
/-- MEM_EVTEN (R623). -/
def memEvten : Nat := 0x10D00084
/-- MEM_SPARE (R624). -/
def memSpare (i : Nat) : Nat := 0x10D00100 + 4 * i
/-- ODO_STAT (R648). -/
def odoStat : Nat := 0x10F00000
/-- ODO_HOURS (R649). -/
def odoHours : Nat := 0x10F00004
/-- ODO_HFRAC (R649). -/
def odoHfrac : Nat := 0x10F00008
/-- ODO_PCYC (R649). -/
def odoPcyc : Nat := 0x10F0000C
/-- ODO_SEQ (R649). -/
def odoSeq : Nat := 0x10F00010
/-- ODO_CMD (R650). -/
def odoCmd : Nat := 0x10F00014
/-- ODO_CLR (R650). -/
def odoClr : Nat := 0x10F00018
/-- ODO_CLRSTAT (R651). -/
def odoClrstat : Nat := 0x10F0001C
/-- ODO_SNAPERR (R652). -/
def odoSnaperr : Nat := 0x10F00020
/-- ODO_CLRREF (R652). -/
def odoClrref : Nat := 0x10F00024
/-- ODO_EVT (R653). -/
def odoEvt : Nat := 0x10F00030
/-- ODO_EVTEN (R653). -/
def odoEvten : Nat := 0x10F00034
/-- ODO_LISSUEDLO (R654). -/
def odoLissuedlo : Nat := 0x10F00040
/-- ODO_LISSUEDHI (R654). -/
def odoLissuedhi : Nat := 0x10F00044
/-- ODO_LSNAPLO (R654). -/
def odoLsnaplo : Nat := 0x10F00048
/-- ODO_LSNAPHI (R654). -/
def odoLsnaphi : Nat := 0x10F0004C
/-- ODO_LCLEARLO (R654). -/
def odoLclearlo : Nat := 0x10F00050
/-- ODO_LCLEARHI (R654). -/
def odoLclearhi : Nat := 0x10F00054
/-- ODO_LSATLO (R654). -/
def odoLsatlo : Nat := 0x10F00058
/-- ODO_LSATHI (R654). -/
def odoLsathi : Nat := 0x10F0005C
/-- ODO_LFLIGHTLO (R654). -/
def odoLflightlo : Nat := 0x10F00060
/-- ODO_LFLIGHTHI (R654). -/
def odoLflighthi : Nat := 0x10F00064
/-- SAF_STAT (R699). -/
def safStat : Nat := 0x11000000
/-- SAF_CFGSTAT (R700). -/
def safCfgstat : Nat := 0x11000004
/-- SAF_DEMAND (R701). -/
def safDemand : Nat := 0x11000008
/-- SAF_LATCH (R701). -/
def safLatch : Nat := 0x1100000C
/-- SAF_OUT (R702). -/
def safOut : Nat := 0x11000010
/-- SAF_SIPERM (R703). -/
def safSiperm : Nat := 0x11000014
/-- SAF_SIFLT (R703). -/
def safSiflt : Nat := 0x11000018
/-- SAF_SOFLT (R703). -/
def safSoflt : Nat := 0x1100001C
/-- SAF_NODE (R704). -/
def safNode : Nat := 0x11000020
/-- SAF_FAULT1 (R705). -/
def safFault1 : Nat := 0x11000024
/-- SAF_FAULT2 (R705). -/
def safFault2 : Nat := 0x11000028
/-- SAF_DEGT (R706). -/
def safDegt : Nat := 0x1100002C
/-- SAF_ACK (R706). -/
def safAck : Nat := 0x11000030
/-- SAF_EVT (R707). -/
def safEvt : Nat := 0x11000034
/-- SAF_EVTEN (R707). -/
def safEvten : Nat := 0x11000038
/-- SAF_NODETOCNT (R708). -/
def safNodetocnt : Nat := 0x11000040
/-- SAF_SUREJ (R708). -/
def safSurej : Nat := 0x11000044
/-- SAF_OPCNT (R708). -/
def safOpcnt : Nat := 0x11000048
/-- SAF_CECNT (R708). -/
def safCecnt : Nat := 0x1100004C
/-- SAF_FLTCNT (R708). -/
def safFltcnt : Nat := 0x11000050
/-- LDG_STAT (R861). -/
def ldgStat : Nat := 0x11100000
/-- LDG_FAILLAST (R861). -/
def ldgFaillast : Nat := 0x11100004
/-- LDG_FAILDIFFLO (R861). -/
def ldgFaildifflo : Nat := 0x11100008
/-- LDG_FAILDIFFHI (R861). -/
def ldgFaildiffhi : Nat := 0x1110000C
/-- LDG_FAILCNT (R861). -/
def ldgFailcnt : Nat := 0x11100010
/-- LDG_NODEREF (R861). -/
def ldgNoderef : Nat := 0x11100014
/-- LDG_LOGSHED (R861). -/
def ldgLogshed : Nat := 0x11100018
/-- LDG_LOGSEQ (R861). -/
def ldgLogseq : Nat := 0x1110001C
/-- LDG_LOGSKIP (R861). -/
def ldgLogskip : Nat := 0x11100020
/-- LDG_CMD (R861). -/
def ldgCmd : Nat := 0x11100024
/-- LDG_SNAPTICK (R861). -/
def ldgSnaptick : Nat := 0x11100028
/-- LDG_EVT (R861). -/
def ldgEvt : Nat := 0x11100030
/-- LDG_EVTEN (R861). -/
def ldgEvten : Nat := 0x11100034
/-- LDG_TRGIN (R861). -/
def ldgTrgin (i : Nat) : Nat := 0x11100C00 + 8 * i
/-- LDG_TRGACT (R861). -/
def ldgTrgact (i : Nat) : Nat := 0x11100C04 + 8 * i
/-- COR_SEQSTAT (R583). -/
def corSeqstat (i : Nat) : Nat := 0x11500000 + 4096 * i
/-- COR_SEQWDCFG (R584). -/
def corSeqwdcfg (i : Nat) : Nat := 0x11500004 + 4096 * i
/-- COR_SEQWDKICK (R585). -/
def corSeqwdkick (i : Nat) : Nat := 0x11500008 + 4096 * i
/-- COR_SUPSTAT (R583). -/
def corSupstat (i : Nat) : Nat := 0x11508000 + 4096 * i
/-- COR_SUPWDCFG (R584). -/
def corSupwdcfg (i : Nat) : Nat := 0x11508004 + 4096 * i
/-- COR_SUPWDKICK (R585). -/
def corSupwdkick (i : Nat) : Nat := 0x11508008 + 4096 * i
/-- CAN_CTL (R384). -/
def canCtl (n : Nat) : Nat := 0x11200000 + 0x10000 * n
/-- CAN_BTIME (R385). -/
def canBtime (n : Nat) : Nat := 0x11200004 + 0x10000 * n
/-- CAN_DTIME (R385). -/
def canDtime (n : Nat) : Nat := 0x11200008 + 0x10000 * n
/-- CAN_TDC (R386). -/
def canTdc (n : Nat) : Nat := 0x1120000C + 0x10000 * n
/-- CAN_STAT (R387). -/
def canStat (n : Nat) : Nat := 0x11200010 + 0x10000 * n
/-- CAN_CFGERR (R388). -/
def canCfgerr (n : Nat) : Nat := 0x11200014 + 0x10000 * n
/-- CAN_TXREQ0 (R389). -/
def canTxreq0 (n : Nat) : Nat := 0x11200018 + 0x10000 * n
/-- CAN_TXREQ1 (R389). -/
def canTxreq1 (n : Nat) : Nat := 0x1120001C + 0x10000 * n
/-- CAN_TXABORT0 (R389). -/
def canTxabort0 (n : Nat) : Nat := 0x11200020 + 0x10000 * n
/-- CAN_TXABORT1 (R389). -/
def canTxabort1 (n : Nat) : Nat := 0x11200024 + 0x10000 * n
/-- CAN_TXPEND0 (R389). -/
def canTxpend0 (n : Nat) : Nat := 0x11200028 + 0x10000 * n
/-- CAN_TXPEND1 (R389). -/
def canTxpend1 (n : Nat) : Nat := 0x1120002C + 0x10000 * n
/-- CAN_RXHEAD (R390). -/
def canRxhead (n : Nat) : Nat := 0x11200030 + 0x10000 * n
/-- CAN_RXTAIL (R390). -/
def canRxtail (n : Nat) : Nat := 0x11200034 + 0x10000 * n
/-- CAN_SCHCFG (R391). -/
def canSchcfg (n : Nat) : Nat := 0x11200038 + 0x10000 * n
/-- CAN_RXCNT (R392). -/
def canRxcnt (n : Nat) : Nat := 0x11200040 + 0x10000 * n
/-- CAN_RXLOST (R392). -/
def canRxlost (n : Nat) : Nat := 0x11200044 + 0x10000 * n
/-- CAN_RXNOMATCH (R392). -/
def canRxnomatch (n : Nat) : Nat := 0x11200048 + 0x10000 * n
/-- CAN_SHORTCNT (R392). -/
def canShortcnt (n : Nat) : Nat := 0x1120004C + 0x10000 * n
/-- CAN_TXSENT (R392). -/
def canTxsent (n : Nat) : Nat := 0x11200050 + 0x10000 * n
/-- CAN_TXLATE (R392). -/
def canTxlate (n : Nat) : Nat := 0x11200054 + 0x10000 * n
/-- CAN_TXSKIP (R392). -/
def canTxskip (n : Nat) : Nat := 0x11200058 + 0x10000 * n
/-- CAN_NARROW (R392). -/
def canNarrow (n : Nat) : Nat := 0x1120005C + 0x10000 * n
/-- CAN_BUSERR (R392). -/
def canBuserr (n : Nat) : Nat := 0x11200060 + 0x10000 * n
/-- CAN_BOFFCNT (R392). -/
def canBoffcnt (n : Nat) : Nat := 0x11200064 + 0x10000 * n
/-- CAN_EVT (R393). -/
def canEvt (n : Nat) : Nat := 0x11200070 + 0x10000 * n
/-- CAN_EVTEN (R393). -/
def canEvten (n : Nat) : Nat := 0x11200074 + 0x10000 * n
/-- FB_CTL (R423). -/
def fbCtl (n : Nat) : Nat := 0x11300000 + 0x8000 * n
/-- FB_SER (R424). -/
def fbSer (n : Nat) : Nat := 0x11300004 + 0x8000 * n
/-- FB_SERCRC (R425). -/
def fbSercrc (n : Nat) : Nat := 0x11300008 + 0x8000 * n
/-- FB_SERREQ (R426). -/
def fbSerreq (n : Nat) : Nat := 0x1130000C + 0x8000 * n
/-- FB_POSSID (R427). -/
def fbPossid (n : Nat) : Nat := 0x11300010 + 0x8000 * n
/-- FB_SPDSID (R427). -/
def fbSpdsid (n : Nat) : Nat := 0x11300014 + 0x8000 * n
/-- FB_IDXSPC (R428). -/
def fbIdxspc (n : Nat) : Nat := 0x11300018 + 0x8000 * n
/-- FB_IDXTOL (R428). -/
def fbIdxtol (n : Nat) : Nat := 0x1130001C + 0x8000 * n
/-- FB_CNT (R429). -/
def fbCnt (n : Nat) : Nat := 0x11300020 + 0x8000 * n
/-- FB_LATCH (R429). -/
def fbLatch (n : Nat) : Nat := 0x11300024 + 0x8000 * n
/-- FB_IDXCAP (R429). -/
def fbIdxcap (n : Nat) : Nat := 0x11300028 + 0x8000 * n
/-- FB_IDXDEV (R429). -/
def fbIdxdev (n : Nat) : Nat := 0x1130002C + 0x8000 * n
/-- FB_SPD (R429). -/
def fbSpd (n : Nat) : Nat := 0x11300030 + 0x8000 * n
/-- FB_SERRAWLO (R429). -/
def fbSerrawlo (n : Nat) : Nat := 0x11300034 + 0x8000 * n
/-- FB_SERRAWHI (R429). -/
def fbSerrawhi (n : Nat) : Nat := 0x11300038 + 0x8000 * n
/-- FB_CFGERR (R430). -/
def fbCfgerr (n : Nat) : Nat := 0x1130003C + 0x8000 * n
/-- FB_STAT (R431). -/
def fbStat (n : Nat) : Nat := 0x11300040 + 0x8000 * n
/-- FB_ILLCNT (R432). -/
def fbIllcnt (n : Nat) : Nat := 0x11300044 + 0x8000 * n
/-- FB_SERERR (R432). -/
def fbSererr (n : Nat) : Nat := 0x11300048 + 0x8000 * n
/-- FB_IDXCNT (R432). -/
def fbIdxcnt (n : Nat) : Nat := 0x1130004C + 0x8000 * n
/-- FB_EVT (R433). -/
def fbEvt (n : Nat) : Nat := 0x11300050 + 0x8000 * n
/-- FB_EVTEN (R433). -/
def fbEvten (n : Nat) : Nat := 0x11300054 + 0x8000 * n
/-- FB_CMPCFG (R434). -/
def fbCmpcfg (n i : Nat) : Nat := 0x11300100 + 0x8000 * n + 32 * i
/-- FB_CMPVAL (R435). -/
def fbCmpval (n i : Nat) : Nat := 0x11300104 + 0x8000 * n + 32 * i
/-- FB_CMPINC (R435). -/
def fbCmpinc (n i : Nat) : Nat := 0x11300108 + 0x8000 * n + 32 * i
/-- FB_CMPTS (R435). -/
def fbCmpts (n i : Nat) : Nat := 0x1130010C + 0x8000 * n + 32 * i
/-- FB_CMPST (R436). -/
def fbCmpst (n i : Nat) : Nat := 0x11300110 + 0x8000 * n + 32 * i
/-- FB_CMPCNT (R435). -/
def fbCmpcnt (n i : Nat) : Nat := 0x11300114 + 0x8000 * n + 32 * i
/-- ADC_CTL (R459). -/
def adcCtl (n : Nat) : Nat := 0x11400000 + 0x20000 * n
/-- ADC_CMD (R460). -/
def adcCmd (n : Nat) : Nat := 0x11400004 + 0x20000 * n
/-- ADC_STAT (R461). -/
def adcStat (n : Nat) : Nat := 0x11400008 + 0x20000 * n
/-- ADC_CFGERR (R462). -/
def adcCfgerr (n : Nat) : Nat := 0x1140000C + 0x20000 * n
/-- ADC_ENTCNT (R463). -/
def adcEntcnt (n : Nat) : Nat := 0x11400010 + 0x20000 * n
/-- ADC_OVRCNT (R463). -/
def adcOvrcnt (n : Nat) : Nat := 0x11400014 + 0x20000 * n
/-- ADC_LATECNT (R463). -/
def adcLatecnt (n : Nat) : Nat := 0x11400018 + 0x20000 * n
/-- ADC_PASSCNT (R463). -/
def adcPasscnt (n : Nat) : Nat := 0x1140001C + 0x20000 * n
/-- ADC_EVT (R464). -/
def adcEvt (n : Nat) : Nat := 0x11400020 + 0x20000 * n
/-- ADC_EVTEN (R464). -/
def adcEvten (n : Nat) : Nat := 0x11400024 + 0x20000 * n
/-- ADC_OFS (R465). -/
def adcOfs (n i : Nat) : Nat := 0x11400100 + 0x20000 * n + 8 * i
/-- ADC_GAIN (R465). -/
def adcGain (n i : Nat) : Nat := 0x11400104 + 0x20000 * n + 8 * i
/-- ADC_PWMCTL (R466). -/
def adcPwmctl (n i : Nat) : Nat := 0x11401000 + 0x20000 * n + 64 * i
/-- ADC_PWMSID (R467). -/
def adcPwmsid (n i : Nat) : Nat := 0x11401004 + 0x20000 * n + 64 * i
/-- ADC_PWMDUTY (R468). -/
def adcPwmduty (n i : Nat) : Nat := 0x11401008 + 0x20000 * n + 64 * i
/-- ADC_PWMHIGH (R468). -/
def adcPwmhigh (n i : Nat) : Nat := 0x1140100C + 0x20000 * n + 64 * i
/-- ADC_PWMNARROW (R468). -/
def adcPwmnarrow (n i : Nat) : Nat := 0x11401010 + 0x20000 * n + 64 * i
/-- LT_STAT (R169). -/
def ltStat (n : Nat) : Nat := 0x18080000 + 0x100000 * n
/-- LT_NEN (R170). -/
def ltNen (n : Nat) : Nat := 0x18080004 + 0x100000 * n
/-- LT_EVALCNT (R171). -/
def ltEvalcnt (n : Nat) : Nat := 0x18080008 + 0x100000 * n
/-- LT_CFGERR (R172). -/
def ltCfgerr (n : Nat) : Nat := 0x1808000C + 0x100000 * n
/-- LT_JRNSLOT (R173). -/
def ltJrnslot (n : Nat) : Nat := 0x18080010 + 0x100000 * n
/-- LT_EVT (R174). -/
def ltEvt (n : Nat) : Nat := 0x18080014 + 0x100000 * n
/-- LT_EVTEN (R175). -/
def ltEvten (n : Nat) : Nat := 0x18080018 + 0x100000 * n
/-- LT_FLAGCLR (R207). -/
def ltFlagclr (n : Nat) : Nat := 0x1808001C + 0x100000 * n
/-- LT_FLAGEVM (R208). -/
def ltFlagevm (n : Nat) : Nat := 0x18080020 + 0x100000 * n
/-- LT_FLAGLAST (R209). -/
def ltFlaglast (n : Nat) : Nat := 0x18080024 + 0x100000 * n
/-- LT_INJCTL (R237). -/
def ltInjctl (n : Nat) : Nat := 0x18080040 + 0x100000 * n
/-- LT_INJAMP (R238). -/
def ltInjamp (n : Nat) : Nat := 0x18080044 + 0x100000 * n
/-- LT_INJLEN (R238). -/
def ltInjlen (n : Nat) : Nat := 0x18080048 + 0x100000 * n
/-- LT_INJP1 (R238). -/
def ltInjp1 (n : Nat) : Nat := 0x1808004C + 0x100000 * n
/-- LT_INJP2 (R238). -/
def ltInjp2 (n : Nat) : Nat := 0x18080050 + 0x100000 * n
/-- LT_INJP3 (R238). -/
def ltInjp3 (n : Nat) : Nat := 0x18080054 + 0x100000 * n
/-- LT_INJABM (R239). -/
def ltInjabm (n : Nat) : Nat := 0x18080058 + 0x100000 * n
/-- LT_INJCMD (R240). -/
def ltInjcmd (n : Nat) : Nat := 0x1808005C + 0x100000 * n
/-- LT_CAPCMD (R240). -/
def ltCapcmd (n : Nat) : Nat := 0x18080088 + 0x100000 * n
/-- LT_INJSTAT (R241). -/
def ltInjstat (n : Nat) : Nat := 0x18080060 + 0x100000 * n
/-- LT_INJCNT (R242). -/
def ltInjcnt (n : Nat) : Nat := 0x18080064 + 0x100000 * n
/-- LT_INJVAL (R242). -/
def ltInjval (n : Nat) : Nat := 0x18080068 + 0x100000 * n
/-- LT_INJT0 (R242). -/
def ltInjt0 (n : Nat) : Nat := 0x1808006C + 0x100000 * n
/-- LT_CAPCTL (R243). -/
def ltCapctl (n : Nat) : Nat := 0x18080080 + 0x100000 * n
/-- LT_CAPLEN (R244). -/
def ltCaplen (n : Nat) : Nat := 0x18080084 + 0x100000 * n
/-- LT_CAPSTAT (R245). -/
def ltCapstat (n : Nat) : Nat := 0x1808008C + 0x100000 * n
/-- LT_CAPPTR (R246). -/
def ltCapptr (n : Nat) : Nat := 0x18080090 + 0x100000 * n
/-- LT_CAPCNT (R246). -/
def ltCapcnt (n : Nat) : Nat := 0x18080094 + 0x100000 * n
/-- LT_CAPT0 (R246). -/
def ltCapt0 (n : Nat) : Nat := 0x18080098 + 0x100000 * n

end Reg

end Sys2Proof.Machine
end

