-- ==== Sys2Proof/Machine/State.lean ====
section
/-!
DEFINITION. The state of the Poermun as plain data: the register file, the typed state behind it, the queue of waiting
commands, and the state right after reset.
-/

namespace Sys2Proof.Machine

/-- Raised by no meaning: every command of the table ends in a next state. Kept because the interface names a fault type. Safe. -/
inductive Fault where
  /-- Never raised. Safe: no claim can rest on it. -/
  | never
  deriving DecidableEq, Repr

/-- The reasons a command has no meaning. -/
inductive Refusal where
  /-- Raised by the dispatch of a command that has no meaning yet. Safe: the machine stops by name. -/
  | notModelled (mnemonic : String)
  deriving DecidableEq, Repr

/-- The timebase (01 R25–R45): TICK, phase, the modes of the PLL and the trim. -/
structure TimeBase where
  /-- TICK, below 2^48 (R26). -/
  tick : Nat
  /-- The phase last reached, 0 to 9,999 (R30). -/
  phase : Nat
  /-- The PLL is locked; the mode in force is SYS_TBSTAT.FINE and follows at a boundary (R31, R32). -/
  pllLocked : Bool
  /-- The trim accumulator in units of 10^-5 ns (R43). -/
  trimAcc : Nat
  /-- The last effective trim other than 0 was negative (R44). -/
  trimNeg : Bool
  /-- Phase-clock cycles of the tick now running (R43). -/
  tickLen : Nat
  /-- Phase-clock cycles from cold boot to phase 0 of the tick now running: what durations in ns are measured from. It has no wrap (R27). -/
  base : Nat
  /-- The first tick boundary after BOOT_DONE has passed (R35). -/
  syncArmed : Bool
  /-- The phase at which the SYNC_OUT pulse now high ends (R36). -/
  syncEnd : Nat
  /-- Fab time of the recorded set: TICK, seconds, nanoseconds, and whether a set has been recorded, which happens only under PTPLOCK
  (R45, R70). -/
  fabTick : Nat
  fabSec : Nat
  fabNs : Nat
  fabValid : Bool
  deriving DecidableEq, Repr

/-- What one reader's read of a low register captured (01 R58, 14 R654, 14 R638, 12 R546). -/
structure LowCap where
  tickHi : Nat
  phase : Nat
  fabHi : Nat
  fabSec : Nat
  fabNs : Nat
  fabValid : Bool
  /-- Captured high words by the address of the high register (14 R654, R638). -/
  words : Tab Word
  deriving DecidableEq, Repr

/-- The capture of a reader that has read nothing. DESIGN CHOICE (notes/assumptions/67.md). -/
def LowCap.none : LowCap :=
  { tickHi := 0, phase := 0, fabHi := 0, fabSec := 0, fabNs := 0, fabValid := false, words := [] }

/-- The producer the consist gives a SID (02 R80). -/
inductive Producer where
  /-- An IN or SAFE seat, through P0. -/
  | seat
  /-- A loop slot by LID, through P1. -/
  | slot (lid : Nat)
  /-- A local channel through P2: kind 0 CAN, 1 feedback, 2 converter; and its number. -/
  | chan (kind unit : Nat)
  /-- Port P3, with the writer mask: SEQ, SUP, HOST. -/
  | p3 (seq sup host : Bool)
  deriving DecidableEq, Repr

/-- The attributes of a declared SID (02 R80). -/
structure SidDecl where
  producer : Producer
  isOut : Bool
  guard : Bool
  limit : Nat
  initial : Int
  fallback : Int
  lo : Int
  hi : Int
  lossFallback : Bool
  fgrp : Nat
  deriving DecidableEq, Repr

/-- The four carried status bits (02 R77). -/
structure Carried where
  valid : Bool
  ovr : Bool
  sat : Bool
  fault : Bool
  deriving DecidableEq, Repr

/-- The stored part of a SID's entry (02 R71, R95). -/
structure Entry where
  value : Int
  carried : Carried
  subst : Bool
  held : Bool
  gated : Bool
  /-- An uncorrectable error marks the entry (R111). -/
  ue : Bool
  /-- TICK of the last accepted write; none before the first. -/
  lastTick : Option Nat
  wseq : Nat
  /-- SRC code (R113) of the last accepted write; none before the first. -/
  lastSrc : Option Nat
  deriving DecidableEq, Repr

/-- A composed read of an entry (02 R71, R96): VALUE, the STATUS byte, WSEQ, AGE. -/
structure StoreRead where
  value : Int
  status : Nat
  wseq : Nat
  age : Nat
  deriving DecidableEq, Repr

/-- One waiting P3 write (02 R88): the writer's SRC code, the supervisor it is attributed to, the SID and the form; `pair` marks a pair of
the WRSIG command that the port runs (16 R738). -/
structure P3Write where
  src : Nat
  sup : Option Nat
  sid : Nat
  form : P3Form
  pair : Bool
  deriving DecidableEq, Repr

/-- The signal store and the output gate (chapter 02). -/
structure Store where
  decls : Tab SidDecl
  entries : Tab Entry
  /-- SH attribute writes waiting for the tick boundary (R81). -/
  shadow : List (Nat × SidDecl)
  /-- Waiting P3 writes by agent: 0–9 the cores, 10 the host command engine (R88). The first four are in the agent's queue; what follows them
  is held by the stalled core, or waits under the flow control of its port (R89). -/
  p3q : Tab (List P3Write)
  /-- The agent the arbiter looks at first. -/
  p3next : Nat
  /-- The frozen view that tiles read (R47, R78), by SID. -/
  frozen : Tab StoreRead
  /-- The last VALUE read of each reader: SID and what was captured (R74). -/
  caps : Tab (Option (Nat × StoreRead))
  /-- Transactions of each port in this tick (R117). -/
  portTick : Tab Nat
  /-- The holder in force at the gate (R103), by supervisor number. -/
  gateHolder : Option Nat
  /-- The freeze of this tick has been taken (01 R47), and the gate instant of this tick has passed (R103). -/
  froze : Bool
  gateDone : Bool
  /-- The entries as they stood at phase 9,500, kept from the first write stamped there or later until the coach is cut (01 R50). -/
  cutView : Option (Tab Entry)
  deriving DecidableEq, Repr

/-- A journal record (03 R158). -/
structure JRec where
  integ : Int
  out : Int
  spr : Int
  dst : Int
  pvl : Int
  stamp : Nat
  mode : Nat
  flags : Nat
  deriving DecidableEq, Repr

/-- A journal record of zeros (13 R603). -/
def JRec.zero : JRec := ⟨0, 0, 0, 0, 0, 0, 0, 0⟩

/-- The state of a slot's law (04 R186, R187) as LTt_SLOTST shows it (03 R177). -/
structure SlotState where
  integ : Int
  out : Int
  spr : Int
  dst : Int
  pvl : Int
  pvlValid : Bool
  stamp : Nat
  mode : Nat
  flags : Nat
  spdir : Int
  b1s1 : Int
  b1s2 : Int
  b2s1 : Int
  b2s2 : Int
  /-- FLAGCLR bits that wait for the next evaluation (04 R201). -/
  clr : Nat
  /-- The state at the end of the last evaluation, as LTt_SLOTST shows it (03 R177). -/
  last : JRec
  /-- The last evaluation ran as a substituted HOLD (04 R210), and the last one that was committed. -/
  wasSub : Bool
  heldSub : Bool
  /-- The value added at the injection point in the last evaluation (05 R229). -/
  added : Int
  deriving DecidableEq, Repr

/-- The state of a slot before anything has initialised it: all zero. -/
def SlotState.zero : SlotState :=
  { integ := 0, out := 0, spr := 0, dst := 0, pvl := 0, pvlValid := false, stamp := 0, mode := 0, flags := 0, spdir := 0, b1s1 := 0
    b1s2 := 0, b2s1 := 0, b2s2 := 0, clr := 0, last := JRec.zero, wasSub := false, heldSub := false
    added := 0 }

/-- One entry of a tile's shadow queue (03 R137, 05 R223). -/
inductive ShCmd where
  /-- A record word: slot, word, value, the SH bits it writes. -/
  | word (slot w : Nat) (v : Word) (mask : Nat)
  | injStart
  | injStop
  | capArm
  | capStop
  deriving DecidableEq, Repr

/-- A result held for phase 9,000 (03 R142): what R202 commits, R203 journals and R229 captures. -/
structure Held where
  lid : Nat
  /-- The OUTSID of the record as the evaluation read it. -/
  outsid : Nat
  out : Int
  sat : Bool
  fault : Bool
  jrec : JRec
  /-- The value added at the injection point and whether the sample was replaced by 0 (05 R219, R229). -/
  inj : Int
  injRun : Bool
  injZero : Bool
  /-- An injection that the capture of SRC 1 waited for had ended before this evaluation (05 R233). -/
  injOver : Bool
  pv : Int
  err : Int
  raised : Nat
  deriving DecidableEq, Repr

/-- The generator and the capture unit of a tile beyond their registers (05 R212–R233). -/
structure TuneUnit where
  prbs : Nat
  prbsOut : Bool
  phi : Nat
  inc : Nat
  /-- Samples of the injection, without the wrap of LTt_INJCNT (R212, R213). -/
  samples : Nat
  /-- Evaluations of the capture slot since its first (R230). -/
  capEvals : Nat
  /-- An injection has started since the arm, and its sample 0 has come (R231). -/
  capNext : Bool
  capInjSeen : Bool
  /-- That injection has ended (R233), and records since. -/
  capInjEnded : Bool
  capPost : Nat
  /-- The injection, and the capture, ended at the commit point or commit now running: a higher cause of the same moment replaces its cause
  (R226, R233). -/
  injNow : Bool
  capNow : Bool
  deriving DecidableEq, Repr

/-- A generator and capture unit at rest. -/
def TuneUnit.zero : TuneUnit :=
  { prbs := 0, prbsOut := false, phi := 0, inc := 0, samples := 0, capEvals := 0, capNext := false
    capInjSeen := false, capInjEnded := false, capPost := 0, injNow := false, capNow := false }

/-- A write that waits for its tile's next commit point because the shadow queue is full (03 R137), with its writer's SRC code. -/
inductive HeldWrite where
  /-- Word `w` of a slot record. -/
  | record (src lid w : Nat) (v : Word)
  /-- LTt_INJCMD, or LTt_CAPCMD. -/
  | tune (src t : Nat) (capture : Bool) (v : Word)
  deriving DecidableEq, Repr

/-- The loop engine (chapters 03 to 05). -/
structure Engine where
  /-- Slot records in force: word w of LID at 32 × LID + w (03 R133). -/
  recs : Tab Word
  /-- Records written since the last commit point, to be mirrored (03 R159). -/
  dirty : List Nat
  /-- The record mirror, laid out as recs, with SEL and JV in word 31 (03 R159). -/
  mirror : Tab Word
  /-- Mirror records with an uncorrectable error, by LID. -/
  mirrorBad : List Nat
  /-- Journal records: set x of LID at 2 × LID + x (03 R157). -/
  journal : Tab JRec
  /-- Journal records with an uncorrectable error, by 2 × LID + set. -/
  journalBad : List Nat
  slots : Tab SlotState
  /-- Shadow queues by tile (03 R137). -/
  shq : Tab (List ShCmd)
  /-- Due slots of each tile not yet evaluated in this tick, and how many were due (03 R141). -/
  due : Tab (List Nat)
  dueN : Tab Nat
  /-- Enabled slots now shed, by LID (17 R791). -/
  shed : List Nat
  /-- Slots due in this tick whether shed or not, by LID (05 R233). -/
  dueAll : List Nat
  held : List Held
  /-- Slots that R186 initialises at the next commit point. -/
  initNext : List Nat
  tune : Tab TuneUnit
  /-- Injection table words: entry i of tile t at 4,096 × t + i (05 R217). -/
  injTab : Tab Word
  /-- Capture buffer words: word i of tile t at 16,384 × t + i (05 R229). -/
  capBuf : Tab Word
  /-- A capture was running when CORE was reset, by tile (05 R234). -/
  capMark : List Nat
  /-- Writes held by stalled cores, or under the flow control of a port (03 R137). -/
  waits : List HeldWrite
  /-- Slots of each tile evaluated in this tick (03 R169). -/
  evals : Tab Nat
  /-- The commit point of this tick, and its commit of phase 9,000, are past (03 R136, R142). -/
  pointDone : Bool
  commitDone : Bool
  deriving DecidableEq, Repr

/-- One write of a transaction as the recorder sees it: SID, value offered or stored, carried bits as in STATUS, OUTCOME of 11 R470,
and the composed STATUS after an accepted write. -/
structure TxnWrite where
  sid : Nat
  value : Int
  status : Nat
  outcome : Nat
  seen : Nat
  deriving DecidableEq, Repr

/-- A store transaction as presented to the recorder (02 R85, R92): port, SRC code, the TAG of its raw record without the outcome
(11 R477), its stamp, its writes, and bytes of that record beyond the written values. -/
structure Txn where
  port : Nat
  src : Nat
  tag : Nat
  tick : Nat
  phase : Nat
  writes : List TxnWrite
  body : List Byte
  deriving DecidableEq, Repr

/-- What a command has left for the recorder and the dispatcher, in order of happening. -/
inductive Note where
  /-- Event EVT(n) raised. -/
  | event (n : Nat)
  /-- A store transaction. -/
  | txn (t : Txn)
  /-- A capture-stream record for a recording set (05 R236). -/
  | capture (set : Nat) (bytes : List Byte)
  deriving DecidableEq, Repr

/-- An entry of the alarm table (16 R750). -/
structure AlarmEntry where
  code : Nat
  sev : Nat
  count : Nat
  first : Nat
  last : Nat
  data : Nat
  deriving DecidableEq, Repr

/-- An entry of the incident log (19 R858). -/
structure LogEntry where
  seq : Nat
  tick : Nat
  phase : Nat
  kind : Nat
  code : Nat
  item : Nat
  deriving DecidableEq, Repr

/-- An entry of the fault queue (17 R798, R801). -/
structure FaultEntry where
  code : Nat
  cls : Nat
  acted : Bool
  item : Nat
  tick : Nat
  deriving DecidableEq, Repr

/-- Ledgers, alarms, incident log and fault queue (16 R750, 17 R798, 19 R840–R862). -/
structure Books where
  /-- Counter j of ledger L at 16 × L + j; of the CAN ledger of channel n at 128 + 16 × n + j (19 R862). -/
  led : Tab Nat
  /-- The alarm table; entry 255 is OVERFLOW (16 R750). -/
  alarms : Tab AlarmEntry
  /-- Entries dirty for the tool LAN and for H3 (16 R752); those of H0 are HPC_ALMDIRTY. -/
  dirtyLan : List Nat
  dirtyUsb : List Nat
  /-- Alarm entries sent in this tick (16 R752): SRC code 12 of H3, or 32 for TLA and 33 for TLB; destination MAC (0 for H3); bytes. -/
  alarmsOut : List (Nat × Nat × List Byte)
  /-- MSI-X signals sent, by vector (16 R711), and the vectors that are pending behind their mask bits, as the PBA shows them (R761). -/
  msix : Tab Nat
  msixPend : List Nat
  /-- The incident log by position, the last number given, the entries written and those taken in this tick (19 R858, R859). -/
  log : Tab LogEntry
  logSeq : Nat
  logWritten : Nat
  logTick : Nat
  /-- The fault queue, head first (17 R798). -/
  faultQ : List FaultEntry
  /-- A COLD fault that acts with this command: code and ITEM (17 R773). -/
  cold : Option (Nat × Nat)
  /-- The snapshot bank (19 R860): the captured words by LDG offset, and a SNAP that waits for the next check. -/
  snapBank : Tab Word
  snapWaits : Bool
  /-- Supervisors made ABSENT by a swap since the last gate instant (18 R832, 19 R851). -/
  swapOut : List Nat
  deriving DecidableEq, Repr

/-- An extreme of the odometer (14 R630). -/
structure Extreme where
  value : Int
  hours : Nat
  pcyc : Nat
  tick : Nat
  deriving DecidableEq, Repr

/-- A snapshot write that runs (14 R631, R635): copy 0 A or 1 B, CAUSE, the image without its last three words, and the units it carries:
all, and those of them in histogram bins. -/
structure SnapWrite where
  copy : Nat
  cause : Nat
  seq : Nat
  img : List Byte
  units : Nat
  unitsH : Nat
  /-- FLAGS.FINAL: its cause is FINAL, or it is a merge that includes it (R636). -/
  fin : Bool
  deriving DecidableEq, Repr

/-- A clear whose history entry has been written (14 R644): its MASK. -/
structure OdoClear where
  mask : Nat
  deriving DecidableEq, Repr

/-- The running totals that a capture copies (14 R631): counters, histogram bins, and the units they hold that no snapshot has. -/
structure OdoSums where
  cnt : Tab Nat
  hist : Tab Nat
  pend : Nat
  pendH : Nat
  deriving DecidableEq, Repr

/-- The running totals of the odometer (chapter 14). -/
structure Odometer where
  /-- The 64 counters (R628). -/
  cnt : Tab Nat
  /-- Histogram bins: TJC at 0, TJD at 128, VSUP at 256, VCORE at 320 (R627). -/
  hist : Tab Nat
  ext : Tab Extreme
  /-- Units not yet in a completed snapshot, cleared or lost (19 R848), and those of them in histogram bins. -/
  pend : Nat
  pendH : Nat
  /-- The snapshot write that runs (R633), and the highest CAUSE that waits; 0 for none. -/
  write : Option SnapWrite
  waits : Nat
  /-- A FINAL capture is due and waits for a clear in progress, or for the restore (R632, R636, R644). -/
  finalDue : Bool
  clear : Option OdoClear
  /-- The totals as the last phase 0 found them, before the increments of its own cycle (R631, R644). -/
  edge : OdoSums
  deriving DecidableEq, Repr

/-- The warm-restart sequencer (17 R775–R781). -/
structure RestartUnit where
  /-- The accepted cause, until the resume: code and ITEM. -/
  cause : Option (Nat × Nat)
  /-- A cause that waits for stage 5 to be left (17 R777). -/
  waiting : Option (Nat × Nat)
  /-- T0 in ns since cold boot, and of the CORE reset. -/
  t0 : Nat
  coreT : Nat
  /-- CORE is held in reset. -/
  inCore : Bool
  /-- The images and the consist are reloaded and the tiles restored: the TICK in which that ended. -/
  reloaded : Option Nat
  /-- PWM outputs keep their duty: from T0 to the first coach with HOLD = 0 (10 R457). -/
  pwmHold : Bool
  /-- Times of the warm restarts in the last 60 s, in ns (17 R776). -/
  times : List Nat
  /-- This warm restart carries a swap (18 R830), and its PERSIST blocks have the new consist. -/
  swap : Bool
  swapped : Bool
  deriving DecidableEq, Repr

/-- One compartment of the timetable: KIND and owner (06 R259, R260). -/
structure CompCfg where
  kind : Nat
  owner : Nat
  deriving DecidableEq, Repr

/-- A seat of the timetable (06 R263): its place, format, rate and residue, LOCAL, the SID and the nodes that hold it. -/
structure Seat where
  comp : Nat
  offset : Nat
  w : Nat
  signed : Bool
  stat : Bool
  m : Nat
  q : Nat
  loc : Nat
  sid : Nat
  nodes : List Nat
  deriving DecidableEq, Repr

/-- The consist's record of a node (18 R815, 06 R269, 07 R314, R328); delays in units of 0.125 ns. -/
structure NodeCfg where
  vendor : Nat
  product : Nat
  rb : Nat
  rdy : Nat
  dloA : Nat
  dhiA : Nat
  dloB : Nat
  dhiB : Nat
  lossLo : Nat
  lossHi : Nat
  deriving DecidableEq, Repr

/-- What NODEINFO reported (07 R328). -/
structure NodeInfo where
  loss : Nat
  ttcap : Nat
  rdyn : Nat
  caps : Nat
  deriving DecidableEq, Repr

/-- A node as the Poermun keeps it beyond its registers (06 R283, 07 R316, R324–R328). -/
structure NodeSt where
  txSeq : Nat
  acked : Nat
  freed : Nat
  rxSeq : Nat
  mreq : Bool
  missRun : Nat
  /-- Computed delays of the last rounds, newest first, at most eight (07 R316). -/
  hisA : List Int
  hisB : List Int
  /-- TTVERs for which the node has returned SEATACK status 0 (R325). -/
  seatAck : List Nat
  info : Option NodeInfo
  /-- It has left SEAT for SAFEV and READMIT has not been written since (07 R325). -/
  barred : Bool
  /-- The last ENUM identified it (07 R314). -/
  ident : Bool
  deriving DecidableEq, Repr

/-- A node not yet admitted to anything. -/
def NodeSt.zero : NodeSt :=
  { txSeq := 0, acked := 0, freed := 0, rxSeq := 0, mreq := false, missRun := 0, hisA := [], hisB := [], seatAck := [], info := none
    barred := false, ident := false }

/-- A downlink mail frame (06 R278, R284): `own` 0 for the core queue, 1 for the engine's; `start` the byte offset of its entry. -/
structure MailFrame where
  dst : Nat
  type : Nat
  more : Bool
  corr : Nat
  body : List Byte
  own : Nat
  start : Nat
  mseq : Nat
  sent : Nat
  tries : Nat
  deriving DecidableEq, Repr

/-- A coach (06 R254, R255): its tick, flags, versions, ADMIT, and the payloads the Poermun writes, by compartment. -/
structure Coach where
  tick : Nat
  hold : Bool
  brk : Bool
  survey : Bool
  ttver : Nat
  epoch : Nat
  admits : List Nat
  body : Tab (List Byte)
  deriving DecidableEq, Repr

/-- The Ewene backbone (chapters 06 and 07). -/
structure Ewene where
  comps : Tab CompCfg
  seats : List Seat
  nodeCfg : Tab NodeCfg
  ride : Nat
  nodes : Tab NodeSt
  /-- The coach of this tick, of the tick before, and the one cut for the next tick. -/
  now : Option Coach
  prev : Option Coach
  next : Option Coach
  /-- Returned copies of the coach of this tick and of the tick before: compartment × 2 + ring, the 64 bytes (06 R276). -/
  retNow : Tab (List Byte)
  retPrev : Tab (List Byte)
  /-- Mail: queued frames of the core queue and of the engine, sent frames not acknowledged, the words of the two queue memories. -/
  coreQ : List MailFrame
  engQ : List MailFrame
  unacked : List MailFrame
  txMem : Tab Word
  rxMem : Tab Word
  /-- The end of the last core entry that is in the queue (06 R290). -/
  coreEnd : Nat
  /-- The next first transmission is taken from the engine's queue (06 R286). -/
  engTurn : Bool
  /-- Carriers granted and not returned: the node and the CAP of the grant (06 R285); the node after which the rotation goes on (06 R287);
  carriers granted in this tick (R286). -/
  carriers : List (Nat × Nat)
  rot : Nat
  carSent : Nat
  /-- Bytes of line used in this tick so far, after the coach and a survey packet (06 R286). -/
  linePos : Nat
  /-- Survey (07 R311–R313): stage 0 none, 1 ENUM, 2 DELAY, 3 DELAYSET tick; SSEQ; the packet of this tick has left; the tick in
  which the last round started; a round has been triggered; round trips of the last rounds, newest first; a DELAYSET to send: its APPLY and each node's changed or unchanged delays. -/
  stage : Nat
  sseq : Nat
  sent : Bool
  roundAt : Option Nat
  trigger : Bool
  hisRtA : List Nat
  hisRtB : List Nat
  delaySet : Option (Nat × List (Nat × Word × Word))
  found : List Nat
  /-- Header copies in this tick (07 R337): returned on ring A, on ring B; wrapped A, wrapped B; and return times, newest first. -/
  hdrA : Bool
  hdrB : Bool
  wrapA : Bool
  wrapB : Bool
  retA : List Nat
  retB : List Nat
  /-- Block lock of the receive ports EWA and EWB. -/
  lockA : Bool
  lockB : Bool
  /-- Consecutive ticks in which both copies returned on their own ports, and the tick the BREAK episode started. -/
  clean : Nat
  breakAt : Nat
  /-- SAFE-U compartments landed in this tick, for the island: compartment and payload (15 R682). -/
  safeU : List (Nat × List Byte)
  /-- The SAFE-D payloads the island has prepared, by compartment (15 R687). -/
  safeD : Tab (List Byte)
  /-- Packets sent in this tick: ring, type octet (06 R250), bytes. -/
  wire : List (Nat × Nat × List Byte)
  /-- Uplink frames for the host command engine (06 R288): node, header and body. -/
  engRx : List (Nat × List Byte)
  /-- Nodes that have left SEAT since the last cut: the next coach does not admit them (07 R326). -/
  leftSeat : List Nat
  deriving DecidableEq, Repr

/-- A safe node as the island sees it (15 R682): ECHO, the TICK from which its age counts, and SIN of its last fresh frame. -/
structure SafeNode where
  echo : Option Nat
  last : Option Nat
  sin : Nat
  deriving DecidableEq, Repr

/-- A node from which no fresh frame has come. -/
def SafeNode.zero : SafeNode := ⟨none, none, 0⟩

/-- An input of the island (15 R670): the last sample, how many samples have agreed, and the accepted level. -/
structure SafeIn where
  raw : Bool
  run : Nat
  acc : Option Bool
  deriving DecidableEq, Repr

/-- An input with no sample. -/
def SafeIn.zero : SafeIn := ⟨false, 0, none⟩

/-- A pair of inputs (15 R673): its permit, both permits have been 0 since it was 0, and the TICK since which they have differed. -/
structure SafePair where
  permit : Bool
  opened : Bool
  differ : Option Nat
  /-- The discrepancy that stands has raised its fault. -/
  told : Bool
  deriving DecidableEq, Repr

/-- A pair as the island leaves RESET. -/
def SafePair.zero : SafePair := ⟨false, false, none, false⟩

/-- A safe output (15 R674–R677): the ns at which it last went on or off, its off pulse's start and whether its check has passed. -/
structure SafeOut where
  since : Nat
  pulse : Option Nat
  checked : Bool
  deriving DecidableEq, Repr

/-- An output as the island leaves RESET. -/
def SafeOut.zero : SafeOut := ⟨0, none, false⟩

/-- What the SAFE-D entries carry beside SCNT (15 R679): RUN, SAFEST, MAINT, and the safe nodes whose CMD is not 0. -/
structure SafeImage where
  run : Bool
  safe : Bool
  maint : Bool
  enabled : List Nat
  deriving DecidableEq, Repr

/-- The image of an island that does not run. -/
def SafeImage.zero : SafeImage := ⟨false, false, false, []⟩

/-- The safety island (chapter 15). -/
structure Island where
  /-- Nodes that a SAFE-D compartment serves in some profile (15 R678). -/
  serves : List Nat
  /-- The profiles of the consist, by PROFILE (18 R821), and the one in force. -/
  profiles : Tab (List Byte)
  prof : List Byte
  /-- SAFE_CFG: samples that have agreed, the accepted setting, samples that have differed from it, samples of a changed MAINT. -/
  cfgRun : Nat
  cfgAcc : Option Nat
  cfgBad : Nat
  maintRun : Nat
  ins : Tab SafeIn
  pairs : Tab SafePair
  outs : Tab SafeOut
  /-- SO_RB as last sampled (15 R663). -/
  rb : Nat
  /-- TP outputs now low, those that have pulsed since RESET, inputs high at phase 0 of a pulse tick of their TP. -/
  tpLow : List Nat
  tpDone : List Nat
  tpRaw : List Nat
  nodes : Tab SafeNode
  scnt : Nat
  /-- TICK at which each rule's demand began (15 R686). -/
  demandAt : Tab (Option Nat)
  /-- An acknowledgement waits for the next evaluation (15 R688), and one has been received in STARTING. -/
  ack : Bool
  startAck : Bool
  selfTest : Bool
  /-- The end of the degraded timer in ns (15 R691). -/
  degEnd : Option Nat
  /-- Degraded faults cleared by an acknowledgement: code, ITEM, ns (15 R693), and those standing. -/
  acked : List (Nat × Nat × Nat)
  standing : List (Nat × Nat)
  /-- TICK of the last fault of class Degraded (15 R692), and of the fault that took the island to SAFE, until a second of that tick (15 R695). -/
  degTick : Option Nat
  safeTick : Option Nat
  /-- What the SAFE-D entries of the next coach cut carry (15 R679, R687). -/
  image : SafeImage
  deriving DecidableEq, Repr

/-- The island in RESET (15 R661, R662). -/
def Island.zero : Island :=
  { serves := [], profiles := [], prof := [], cfgRun := 0, cfgAcc := none, cfgBad := 0, maintRun := 0, ins := [], pairs := []
    outs := [], rb := 0, tpLow := [], tpDone := [], tpRaw := [], nodes := [], scnt := 0, demandAt := [], ack := false
    startAck := false, selfTest := false, degEnd := none, acked := [], standing := [], degTick := none
    safeTick := none, image := SafeImage.zero }

/-- Where a cart stands (12 R537): DEFERRED until a TICK, QUEUED, PREFETCHED or IN_SERVICE at a port. -/
inductive CartPlace where
  | deferred (due : Nat)
  | queued
  | prefetched (port : Nat)
  | inService (port : Nat)
  deriving DecidableEq, Repr

/-- A cart of the pool (12 R536–R538). `cycle` is the ns in which it became QUEUED and `ord` its number in order of becoming QUEUED. -/
structure Cart where
  index : Nat
  gen : Nat
  hitch : Nat
  level : Nat
  kind : Nat
  arg : Nat
  cycle : Nat
  ord : Nat
  rtick : Nat
  rphase : Nat
  src : Nat
  place : CartPlace
  deriving DecidableEq, Repr

/-- A step timer (12 R562). -/
structure StepTimer where
  due : Nat
  level : Nat
  armed : Bool
  wait : Bool
  deriving DecidableEq, Repr

/-- A record of zeros (12 R570). -/
def StepTimer.zero : StepTimer := ⟨0, 0, false, false⟩

/-- A hitch-page commit that has been accepted (12 R567, R568): the hitch, bytes +4 to +1015 of the page, and the new SEQ once the commit
engine serves it. -/
structure PageCommit where
  hitch : Nat
  body : List Byte
  seq : Option Nat
  deriving DecidableEq, Repr

/-- What a core holds while its page commit runs (12 R567, R568): a store to its staging page, or a further JCOMMIT. -/
inductive Stalled where
  | store (a : Nat) (bs : List Byte)
  | commit (v : Word)
  deriving DecidableEq, Repr

/-- An operation of a port that waits for the end of its dispatcher cycle (12 R552): the port, the register's offset in the port, the word. -/
structure PortOp where
  port : Nat
  reg : Nat
  word : Word
  deriving DecidableEq, Repr

/-- What only a core's own instructions read or change (12 R531): the program counter, the general and the floating-point registers, fcsr, the
privilege mode (0 user, 1 supervisor, 3 machine), the 16 PMP entries, satp of Sv39, and the machine-mode trap registers mstatus, mtvec, mepc and
mcause. PRESUMED (notes/assumptions/71.md). -/
structure CoreArch where
  pc : BitVec 64
  x : Tab (BitVec 64)
  f : Tab (BitVec 64)
  fcsr : Word
  mode : Nat
  pmpcfg : Tab (BitVec 8)
  pmpaddr : Tab (BitVec 54)
  satp : BitVec 64
  mstatus : BitVec 64
  mtvec : BitVec 64
  mepc : BitVec 64
  mcause : BitVec 64
  deriving DecidableEq, Repr

/-- A core as reset leaves it. PRESUMED (notes/assumptions/71.md). -/
def CoreArch.reset : CoreArch :=
  { pc := 0, x := [], f := [], fcsr := 0, mode := 3, pmpcfg := [], pmpaddr := [], satp := 0, mstatus := 0, mtvec := 0, mepc := 0, mcause := 0 }

/-- The dispatcher and the cores (chapter 12). -/
structure Dispatcher where
  /-- The pool, in order of making. -/
  carts : List Cart
  /-- GEN of the next cart of each index (R536). -/
  gens : Tab Nat
  serial : Nat
  /-- Pending counts by event (R543), and 1 + ord of the last cart each coalescing event made. -/
  pend : Tab Nat
  coal : Tab Nat
  /-- Posts that wait at the reserve (R560), by port: POSTCTL, POSTARG, POSTDLY. -/
  posts : Tab (Option (Word × Word × Word))
  timers : Tab StepTimer
  commits : Tab (Option PageCommit)
  /-- Carts of each hitch that left by RESTART (R572). -/
  lost : Tab Nat
  /-- When each core's watchdog was last restarted (R535), none before its release or once it has acted, and when a core stopped under R571:
  TICK × 10,000 + phase, since TICKS counts ticks. -/
  kicks : Tab (Option Nat)
  stopped : Tab (Option Nat)
  /-- Time in ns of the entry into stage 3 (R571). -/
  stage3 : Option Nat
  /-- A dispatcher cycle is open: another operation of it follows, and the operations and raises met so far wait for it to run (R552). -/
  cycleOpen : Bool
  ops : List PortOp
  raises : List Nat
  /-- Dispatcher cycles so far in which something happened (R541, R551), and TICK of the last cycle of phase 0 (R545, R564). -/
  cycles : Nat
  zeroAt : Option Nat
  /-- The port that the commit engine looks at first (R568). -/
  jturn : Nat
  /-- Accesses that each core holds until its page commit completes, in order (R567, R568). -/
  stalls : Tab (List Stalled)
  /-- The instruction-set state of each core, where it differs from that after reset (R531). -/
  arch : Tab CoreArch
  deriving DecidableEq, Repr

/-- A fill that covers [lo, lo + len) with a 64-bit pattern, or an erased or zeroed area (13 R603, R605). -/
structure MemFill where
  lo : Nat
  len : Nat
  pat : Nat
  deriving DecidableEq, Repr

/-- An entry of the repeat tracker (13 R597): the word's address / 8, its CEs, WB. -/
structure TrackEntry where
  word : Nat
  count : Nat
  wb : Bool
  deriving DecidableEq, Repr

/-- The memory system beyond its registers (chapter 13). -/
structure MemUnit where
  /-- Oldest entry first. -/
  track : List TrackEntry
  /-- Next word of each SRAM scrubber, and the TICK at which its lap began (R594, R595). -/
  pos : Tab Nat
  lap : Tab Nat
  /-- Corrected words that wait for a free cycle (R596), by address / 8, with the bits in which what was read differs from what was
  written. -/
  wback : List (Nat × List Nat)
  /-- Words remapped to spares (R599). -/
  spared : List Nat
  /-- CORE and PERSIST arrays are initialised (R603). -/
  init : Bool
  /-- The fill that runs: where it stands, the bytes left, its pattern, and the 20th of a ns at which it stood there (R605, R606). -/
  fill : Option (Nat × Nat × Nat × Nat)
  /-- ns since which every die has stayed 5 °C below the present refresh row (R610). -/
  cool : Option Nat
  /-- ns at which the DRAM scrubber's lap began (R611), and the ns of the last DRAM reading. -/
  dlap : Nat
  dread : Option Nat
  tjd : Int
  /-- The dies are in self-refresh (R612). -/
  selfRef : Bool
  /-- The MODEL's own count of cold resets: what volatile memory holds after each is another free value (R602). -/
  colds : Nat
  /-- Stored bits that differ from the codeword of the byte written (R587, R590), by place: data bits at 0 to 7, check bits from 8 on; the
  check byte of a DRAM word has a place of its own (R607). -/
  flips : Tab Nat
  /-- Bytes of DRAM held in the data caches of SUP0 and SUP1 (12 R531), by 2^40 × core and address, and in their instruction caches, by
2^40 × (16 + core) and address; bit 8 is the byte's parity bit (13 R586). -/
  lines : Tab (BitVec 9)
  deriving DecidableEq, Repr

/-- A supervisor beyond its registers (16 R745–R747): ns of the last heartbeat of each path, ns at which PENDING began and the state held
before, ns at which its requested claim took its value. -/
structure Sv where
  last1 : Nat
  last2 : Nat
  pendAt : Nat
  was : Nat
  reqAt : Nat
  deriving DecidableEq, Repr

/-- A supervisor from cold boot. -/
def Sv.zero : Sv := ⟨0, 0, 0, 0, 0⟩

/-- Who sent a host command and how it is answered (16 R735, R743): SRC code, source MAC on the tool LAN, NORSP, CSEQ. -/
structure HostHdr where
  src : Nat
  mac : Nat
  norsp : Bool
  cseq : Nat
  deriving DecidableEq, Repr

/-- A MAIL command that has not completed (16 R740): its CORR, DST, WAITRSP and the ns of its timeout. -/
structure MailCmd where
  hdr : HostHdr
  corr : Nat
  waitRsp : Bool
  stop : Nat
  deriving DecidableEq, Repr

/-- An accepted descriptor (16 R714, R715): its ring index and fields as read; `cut` marks one that the reset of CORE has cut (R718). -/
structure DmaDesc where
  idx : Nat
  adr : Nat
  ctl : Nat
  len : Nat
  ladr : Nat
  hadr : Nat
  tag : Nat
  status : Nat
  cut : Bool
  deriving DecidableEq, Repr

/-- What is owed to a descriptor that has ended (16 R715, R717, R718): the address of its STATUS word, the status, its queue, HEAD past it, and
the vector signalled after the word. -/
structure DqLate where
  adr : Nat
  status : Nat
  queue : Nat
  head : Nat
  vector : Option Nat
  deriving DecidableEq, Repr

/-- A WRSIG command that runs (16 R738): its sender, its pairs, and the status of each pair stamped so far. -/
structure WrsigRun where
  hdr : HostHdr
  pairs : Nat
  done : List Byte
  deriving DecidableEq, Repr

/-- A command frame in the tool-LAN command queue (16 R725): source MAC, opcode, NORSP and CSEQ. -/
structure LanCmd where
  mac : Nat
  op : Nat
  norsp : Bool
  cseq : Nat
  deriving DecidableEq, Repr

/-- The PTP clock (16 R726–R728): the delay measured on each port by its peer delay exchanges, by port, in ns; the data set of the master whose
Syncs it takes, in the order of the best master clock algorithm, with the ns of its last Sync and its Sync interval; the servo's output; the
consecutive Syncs within 100 ns; ns of the last Sync of TLA. -/
structure PtpClock where
  peer : Tab Int
  master : Option (Nat × Nat × Nat)
  good : Nat
  servo : Int
  lastA : Option Nat
  deriving DecidableEq, Repr

/-- A clock that has heard no master. -/
def PtpClock.zero : PtpClock := ⟨[], none, 0, 0, none⟩

/-- The host ports, claims and security blocks (chapter 16). -/
structure Hosts where
  sv : Tab Sv
  /-- The tool-LAN command queue (R725). -/
  lanQ : List LanCmd
  /-- The port whose turn is next (R738): 0 H0, 1 the tool LAN, 2 H3, 3 JTAG. -/
  turn : Nat
  mails : List MailCmd
  /-- CORR of engine frames retired LOST (R740). -/
  lost : List Nat
  /-- The WRSIG command that each port runs, by SRC code (R738). -/
  wrsig : Tab (Option WrsigRun)
  /-- WARM commands that wait for the release of CORE (R736). -/
  warm : List HostHdr
  attest : Option HostHdr
  quote : List Byte
  /-- What this command has sent: SRC code of the port, or 32 for TLA and 33 for TLB; destination MAC; bytes. -/
  sent : List (Nat × Nat × List Byte)
  dq : Tab (List DmaDesc)
  dqNext : Nat
  /-- STATUS words owed at the release of CORE, in order (R718). -/
  dqLate : List DqLate
  /-- HSR sequence numbers seen: MAC, number, ns; and the next of the Poermun's own (R720). -/
  hsrSeen : List (Nat × Nat × Nat)
  hsrSeq : Nat
  ptp : PtpClock
  /-- The words of H0's PCIe configuration space that the host has written (R709), by offset. -/
  pciCfg : Tab Word
  /-- The fuses that no window exposes (R754): the device secret S, and the vendor and product IDs of H3 (R729), as AON has loaded them. -/
  secret : List Byte
  usbIds : Word
  /-- The TAP instruction in force (R731). -/
  tap : Nat
  /-- Fuse words blown or raised since manufacture, by register address. -/
  fuses : Tab Word
  /-- ns from which on, while CORE is in reset, or until which, once it is released, SV15's path timer stands still (R749). -/
  svStill : Option Nat
  /-- Nodes whose SEATACK refused the staged timetable, to which it is sent again in the next survey round (18 R828). -/
  resend : List Nat
  /-- TTVER of the staged consist and the nodes of its NODES section, while STAGE is 3 (18 R828). -/
  stgTtver : Nat
  stgNodes : List Nat
  /-- A warm restart has cut a verification (18 R827). -/
  verifyCut : Bool
  /-- The VBUS level at USB_VBUS (17 R783). -/
  vbus : Bool
  deriving DecidableEq, Repr

/-- A pending island start (17 R785, R786): the island, its priority, ns of arrival, and whether it has missed a slot. -/
structure StartReq where
  isl : Nat
  prio : Nat
  arrived : Nat
  late : Bool
  deriving DecidableEq, Repr

/-- The power platform beyond its registers (chapter 17). -/
structure Power where
  /-- Samples below the entry threshold of each stage in a row (R788), by stage. -/
  below : Tab Nat
  /-- ns from which the leave timer runs (R789), and the last VSUP_SENSE sample. -/
  leave : Option Nat
  mv : Nat
  /-- Pending starts; and started islands with the ns of power good (R784, R785). -/
  starts : List StartReq
  rising : List (Nat × Nat)
  /-- THERM may be raised again (R768). -/
  therm : Bool
  /-- TICK at which the running journal seal started (R793). -/
  sealTick : Option Nat
  /-- An internal cold reset holds every domain (R773); true after THERMSD, until the die has cooled. -/
  hold : Option Bool
  /-- VDD_AON has been low and is not yet back (R768). -/
  aonLow : Bool
  /-- PORST_L is high (R767). -/
  porst : Bool
  /-- The levels of the I/O banks as sampled when PORST_L last rose (20 R875). -/
  banks : Option BankLevels
  /-- VDD_SAFE in mV as last read (15 R659, R662). -/
  safeMv : Option Nat
  deriving DecidableEq, Repr

/-- The cold sequence (17 R769). -/
structure Boot where
  /-- AON is out of cold reset: the sequence runs, or has run. -/
  on : Bool
  pll : Bool
  zeroed : Bool
  trained : Bool
  mram : Bool
  /-- The slot chosen and those abandoned (16 R756), and the images still to be loaded. -/
  slot : Option Nat
  gone : List Nat
  images : Nat
  verified : Bool
  loaded : Bool
  deriving DecidableEq, Repr

/-- A pending patch (18 R833, R837): APPLY, its records, the ticks it has waited. -/
structure Patch where
  apply : Nat
  recs : List (List Byte)
  waited : Nat
  deriving DecidableEq, Repr

/-- A transmission of a CAN buffer from its request or release on (08 R364–R374): the buffer, whether the matrix released it, release
time in ns and window in µs, the copied ID, FLAGS and DATA words, TICK of its last start of frame, and whether it has been withdrawn
while on the bus. -/
structure CanPend where
  buf : Nat
  sched : Bool
  rel : Nat
  win : Nat
  words : List Word
  sof : Option Nat
  quit : Bool
  deriving DecidableEq, Repr

/-- A CAN channel beyond its registers and tables (chapter 08). -/
structure CanChan where
  pend : List CanPend
  /-- The frame that has won arbitration and is on the bus. -/
  bus : Option CanPend
  tec : Nat
  recv : Nat
  /-- It has seen 11 recessive bits since it was turned on (R381). -/
  joined : Bool
  /-- RECOVER has been written since it went bus-off (R378). -/
  recovering : Bool
  /-- Switched off by supply-sag shedding (R382). -/
  shed : Bool
  /-- The result of a frame on the bus that may not be retransmitted: OFF, SHED or RESTART; 0 for none. -/
  leave : Nat
  /-- It was the transmitter of the frame that its last error flag answered (R376). -/
  flagTx : Bool
  deriving DecidableEq, Repr

/-- A channel at reset. -/
def CanChan.zero : CanChan :=
  { pend := [], bus := none, tec := 0, recv := 0, joined := false, recovering := false, shed := false, leave := 0, flagTx := false }

/-- A feedback channel beyond its registers (chapter 09). Edge times are in samples of 5 ns since cold boot. -/
structure FbChan where
  /-- Accepted levels of A, B and Z (R395). -/
  a : Bool
  b : Bool
  z : Bool
  /-- The index condition held in the previous sample (R408). -/
  idxWas : Bool
  /-- The count at the reference index, while valid (R410). -/
  ref : Option Nat
  /-- Time of the last counted edge (R411). -/
  lastEdge : Option Nat
  /-- Latched counts and edge times of the last ticks, newest first, at most 257 (R411). -/
  hist : List (Nat × Option Nat)
  /-- CNT at the last good words, newest first, at most 257 (R412). -/
  words : List Nat
  /-- FAULT is owed to the next sample (R401). -/
  err : Bool
  /-- No good word has come since CNT was set to 0 (R406). -/
  firstWord : Bool
  /-- The change d of CNT at the last good word (R414, R418). -/
  lastD : Int
  /-- The time in ns at which the word now clocked in began, and whether the data line read 0 then (R402, R405). -/
  word : Option Nat
  noIdle : Bool
  /-- The sample of this tick is still to come (R400). -/
  due : Bool
  /-- The last measured speed was saturated (R401). -/
  spdSat : Bool
  deriving DecidableEq, Repr

/-- A channel at rest. -/
def FbChan.zero : FbChan :=
  { a := false, b := false, z := false, idxWas := false, ref := none, lastEdge := none, hist := [], words := [], err := false
    firstWord := true, lastD := 0, word := none, noIdle := false, due := false, spdSat := false }

/-- A pulse of a compare unit (09 R416): channel, unit, pin, and the times in ns from which and until which it is active. -/
structure CmpPulse where
  ch : Nat
  unit : Nat
  pin : Nat
  start : Nat
  stop : Nat
  deriving DecidableEq, Repr

/-- A finished entry of a converter whose result is to be written (10 R442, R443): value, SAT, OVR, FAULT. -/
structure AdcResult where
  entry : Nat
  value : Int
  sat : Bool
  ovr : Bool
  fault : Bool
  /-- The time of its write in ns, 20 ns after the entry's end (10 R442). -/
  due : Nat
  deriving DecidableEq, Repr

/-- A converter's sequencer (10 R442–R448): the entry's start in ns while it executes, the ns at which its wait began. -/
structure AdcSeq where
  running : Option Nat
  waiting : Option Nat
  result : Option AdcResult
  /-- REFBAD has been 1 during the execution (R444). -/
  refSeen : Bool
  /-- The last phase 0 fell within an entry of this pass (R446). -/
  spanned : Bool
  deriving DecidableEq, Repr

/-- A sequencer that has stopped. -/
def AdcSeq.zero : AdcSeq := ⟨none, none, none, false, false⟩

/-- A PWM output in the period now running (10 R455): its start and length, and the active interval, as phases. -/
structure PwmPeriod where
  start : Nat
  on : Nat
  off : Nat
  deriving DecidableEq, Repr

/-- A GAP record owed to a destination (11 R479, R512–R514): its cause, the records lost so far, TICK of the first one lost. -/
structure RecGap where
  cause : Nat
  lost : Nat
  first : Nat
  /-- The record waits until the supply-sag stage that sheds is left (R513). -/
  hold : Bool
  deriving DecidableEq, Repr

/-- A finished window: its number, the accumulators whose turn has come, and PARTIAL (11 R487, R488). -/
structure RedOut where
  win : Nat
  next : Nat
  part : Bool
  deriving DecidableEq, Repr

/-- A recording set beyond its registers (11 R480–R503). Positions and lengths are in bytes within the current half. -/
structure RecSet where
  pos : Nat
  /-- Lengths of the records that the half still holds, oldest first. -/
  lens : List Nat
  /-- Bytes from the start of the TRIG marker (R499); data records since the arm (R498) and since the marker (R499); POST as taken at
  the arm; the half has been filled once since its arm. -/
  mark : Nat
  pre : Nat
  postN : Nat
  goal : Nat
  wrapped : Bool
  /-- TICK[47:24] of the last TIME record in the region and in the stream; none asks for one (R480). -/
  timeR : Option Nat
  timeS : Option Nat
  gapR : Option RecGap
  gapS : Option RecGap
  /-- Change records written in this tick (R483). -/
  chgTick : Nat
  /-- The window now running (R486), and whether it is PARTIAL (R488). -/
  window : Nat
  partW : Bool
  /-- The finished window whose reduction records are being written (R487). -/
  out : Option RedOut
  /-- PROD at the last writeback (R511), as an unbounded count, and PROD as one. -/
  wbAt : Nat
  prod : Nat
  deriving DecidableEq, Repr

/-- A set that has recorded nothing. -/
def RecSet.zero : RecSet :=
  { pos := 0, lens := [], mark := 0, pre := 0, postN := 0, goal := 0, wrapped := false, timeR := none, timeS := none, gapR := none
    gapS := none, chgTick := 0, window := 0, partW := false, out := none, wbAt := 0, prod := 0 }

/-- A record in the write buffer on its way to DRAM (11 R490): its set, the half or region it goes to and where in it, its bytes, the TICK of its
admission, the set as it was before it, and REC_SETPOS and REC_SETOLD as they read once it is in DRAM. One without bytes only moves the two
registers, when a half begins anew. -/
structure BufRec where
  set : Nat
  base : Nat
  size : Nat
  off : Nat
  bytes : List Byte
  tick : Nat
  was : RecSet
  pos : Word
  old : Word
  deriving DecidableEq, Repr

/-- A change entry that is not marked RESYNC (11 R482). -/
structure ChgEntry where
  value : Int
  status : Nat
  tick : Nat
  deriving DecidableEq, Repr

/-- A reduction accumulator (11 R486). -/
structure RedAcc where
  count : Nat
  lo : Int
  hi : Int
  sum : Int
  first : Int
  last : Int
  status : Nat
  tick : Nat
  deriving DecidableEq, Repr

/-- A trigger unit beyond its registers (11 R504–R508): F_u before the present stamp, the previous value of COND RATE, TICK of the last
fire, and the TICK at which a REPEAT unit re-arms. -/
structure TrigUnit where
  was : Bool
  prev : Option Int
  fired : Option Nat
  rearm : Option (Nat × Nat)
  deriving DecidableEq, Repr

/-- A unit at rest. -/
def TrigUnit.zero : TrigUnit := ⟨false, none, none, none⟩

/-- The recorder engine (chapter 11): change entries by index, accumulators by 32,768 × bank + index, DRAM bytes admitted in this tick, the
write buffer, oldest record first, and when its first record begins to drain, in 24ths of a ns (R489, R490). -/
structure Recorder where
  sets : Tab RecSet
  trig : Tab TrigUnit
  chg : Tab (Option ChgEntry)
  red : Tab (Option RedAcc)
  bytes : Nat
  buf : List BufRec
  bufAt : Nat
  deriving DecidableEq, Repr

/-- What direct accesses were answered, by SRC code: the access errors answered on that port so far (00 R18), which on H0 are completer aborts
and on a core include load access faults (13 R591); the data that the port's last read returned; poisoned completions, and instruction access
faults of a core (13 R591). -/
structure Access where
  errs : Tab Nat
  data : Tab Nat
  poisoned : Tab Nat
  fetchErrs : Tab Nat
  deriving DecidableEq, Repr

/-- The pins the block drives (20 R891). DESIGN CHOICE (notes/assumptions/73.md). -/
structure Pins where
  syncOut : Bool
  /-- Compare pulses that run (09 R416); FBm_CMP is active while one names it. -/
  cmp : List CmpPulse
  /-- Outputs whose period runs, by PWM number (10 R455). -/
  pwm : Tab (Option PwmPeriod)
  /-- FBn_CTL as the reset of CORE found it, by channel: what the pad latches of PERSIST hold the compare pins and serial clocks to until
  the consist is back (09 R421, 20 R892). -/
  fbPads : Tab Word
  deriving DecidableEq, Repr

/-- The Poermun itself: everything but the queue of commands. -/
structure Chip where
  /-- The register file by local address; an unlisted register reads its cold value (00 R16). -/
  regs : Tab Word
  /-- SH register writes waiting for a tick boundary, in order of arrival (00 R15): address, value, bits. -/
  shadow : List (Nat × Word × Nat)
  tb : TimeBase
  lowCaps : Tab LowCap
  store : Store
  eng : Engine
  ewn : Ewene
  can : Tab CanChan
  fb : Tab FbChan
  adc : Tab AdcSeq
  recd : Recorder
  /-- Memory bytes by local address: DRAM, MRAM, shared SRAM, TCMs (00 R22). A byte that nothing has written is not listed. -/
  mem : List Host.Cell
  /-- Bytes that the block has written into host memory, by bus address. -/
  hostMem : List Host.Cell
  /-- Areas of memory filled with a pattern, newest first (13 R603, R605). -/
  fills : List MemFill
  isl : Island
  dsp : Dispatcher
  memu : MemUnit
  hst : Hosts
  pwr : Power
  boot : Boot
  patch : Option Patch
  books : Books
  odo : Odometer
  rst : RestartUnit
  pins : Pins
  acc : Access
  /-- What this command has left for the recorder and the dispatcher. -/
  notes : List Note
  /-- The MODEL's own counter of free values drawn. -/
  draws : Nat
  deriving DecidableEq, Repr

/-- The low-power sums of a machine in cold reset. -/
def Power.zero : Power :=
  { below := [], leave := none, mv := 0, starts := [], rising := [], therm := true, sealTick := none, hold := none, aonLow := false
    porst := false, banks := none, safeMv := none }

/-- The cold sequence before PORST_L rises. -/
def Boot.zero : Boot :=
  { on := false, pll := false, zeroed := false, trained := false, mram := false, slot := none, gone := [], images := 0
    verified := false, loaded := false }

/-- The timebase in cold reset: the trim has not yet shortened or lengthened a tick. -/
def TimeBase.zero : TimeBase :=
  { tick := 0, phase := 0, pllLocked := false, trimAcc := 0, trimNeg := false, tickLen := 10000, base := 0, syncArmed := false
    syncEnd := 0, fabTick := 0, fabSec := 0, fabNs := 0, fabValid := false }

/-- The signal store before a consist declares a SID. -/
def Store.zero : Store :=
  { decls := [], entries := [], shadow := [], p3q := [], p3next := 0, frozen := [], caps := [], portTick := [], gateHolder := none
    froze := false, gateDone := false, cutView := none }

/-- The loop engine before a consist fills its records. -/
def Engine.zero : Engine :=
  { recs := [], dirty := [], mirror := [], mirrorBad := [], journal := [], journalBad := [], slots := [], shq := [], due := []
    dueN := [], shed := [], dueAll := [], held := [], initNext := [], tune := [], injTab := [], capBuf := [], capMark := []
    waits := [], evals := [], pointDone := false, commitDone := false }

/-- The Ewene with no ring, mail or survey. -/
def Ewene.zero : Ewene :=
  { comps := [], seats := [], nodeCfg := [], ride := 0, nodes := [], now := none, prev := none, next := none, retNow := []
    retPrev := [], coreQ := [], engQ := [], unacked := [], txMem := [], rxMem := [], coreEnd := 0, engTurn := false, carriers := []
    rot := 0, carSent := 0, linePos := 0, stage := 0, sseq := 0, sent := false, roundAt := none, trigger := false, hisRtA := []
    hisRtB := [], delaySet := none, found := [], hdrA := false, hdrB := false, wrapA := false, wrapB := false, retA := []
    retB := [], lockA := false, lockB := false, clean := 0, breakAt := 0, safeU := [], safeD := [], wire := [], engRx := []
    leftSeat := [] }

/-- The dispatcher with every port idle. -/
def Dispatcher.zero : Dispatcher :=
  { carts := [], gens := [], serial := 0, pend := [], coal := [], posts := [], timers := [], commits := [], lost := [], kicks := []
    stopped := [], stage3 := none, cycleOpen := false, ops := [], raises := [], cycles := 0, zeroAt := none
    jturn := 0, stalls := [], arch := [] }

/-- The memory unit in cold reset. -/
def MemUnit.zero : MemUnit :=
  { track := [], pos := [], lap := [], wback := [], spared := [], init := false, fill := none, cool := none, dlap := 0
    dread := none, tjd := 0, selfRef := false, colds := 0, flips := [], lines := [] }

/-- The host ports with nothing claimed or queued. -/
def Hosts.zero : Hosts :=
  { sv := [], lanQ := [], turn := 0, mails := [], lost := [], wrsig := [], warm := [], attest := none, quote := [], sent := [], dq := []
    dqNext := 0, dqLate := [], hsrSeen := [], hsrSeq := 0, ptp := PtpClock.zero, pciCfg := [], secret := [], usbIds := 0, tap := 0, fuses := []
    svStill := none, resend := [], stgTtver := 0, stgNodes := [], verifyCut := false, vbus := false }

/-- Books in which nothing is entered. -/
def Books.zero : Books :=
  { led := [], alarms := [], dirtyLan := [], dirtyUsb := [], alarmsOut := [], msix := [], msixPend := [], log := [], logSeq := 0, logWritten := 0
    logTick := 0, faultQ := [], cold := none, snapBank := [], snapWaits := false, swapOut := [] }

/-- An odometer that has counted nothing. -/
def Odometer.zero : Odometer :=
  { cnt := [], hist := [], ext := [], pend := 0, pendH := 0, write := none, waits := 0, finalDue := false
    clear := none, edge := ⟨[], [], 0, 0⟩ }

/-- No warm restart runs. -/
def RestartUnit.zero : RestartUnit :=
  { cause := none, waiting := none, t0 := 0, coreT := 0, inCore := false, reloaded := none, pwmHold := false, times := []
    swap := false, swapped := false }

/-- The Poermun right after reset (00 R7, R16): PORST_L is low, every domain is in cold reset, TICK is 0, every register reads its cold value
and no memory byte has been written.
DESIGN CHOICE (notes/assumptions/1.md). DESIGN CHOICE (notes/assumptions/3.md). DESIGN CHOICE (notes/assumptions/69.md). -/
def Chip.reset : Chip :=
  { regs := [], shadow := []
    tb := TimeBase.zero
    lowCaps := []
    store := Store.zero
    eng := Engine.zero
    ewn := Ewene.zero
    can := [], fb := [], adc := []
    recd := { sets := [], trig := [], chg := [], red := [], bytes := 0, buf := [], bufAt := 0 }
    mem := [], hostMem := [], fills := []
    isl := Island.zero
    dsp := Dispatcher.zero
    memu := MemUnit.zero
    hst := Hosts.zero
    pwr := Power.zero
    boot := Boot.zero
    patch := none
    books := Books.zero
    odo := Odometer.zero
    rst := RestartUnit.zero
    pins := ⟨false, [], [], []⟩
    acc := ⟨[], [], [], []⟩
    notes := [], draws := 0 }

/-- The whole machine: the Poermun and the commands that wait, first in, first out. -/
structure State where
  chip : Chip
  pending : List Instr
  deriving DecidableEq, Repr

/-- The state right after reset: the Poermun in cold reset, and no command waiting. -/
def State.reset : State := ⟨Chip.reset, []⟩

end Sys2Proof.Machine
end

