-- ==== Sys2Proof/Machine/Ops.lean ====
section
/-!
DEFINITION. The named operations every meaning is written over: registers, time, events.
-/

namespace Sys2Proof.Machine

/-- The SRC code of a P3 agent (02 R113). -/
def agentSrc : Agent → Nat
  | .seq n => n.val
  | .sup n => 8 + n.val
  | .h0 => 10
  | .tlan => 11
  | .h3 => 12
  | .jtag => 16

/-- The SRC code of a host port (02 R113). -/
def srcIsHost (c : Nat) : Bool := c == 10 || c == 11 || c == 12 || c == 16

/-- The SRC code of a core (02 R113). -/
def srcIsCore (c : Nat) : Bool := c < 10

/-- The word a register holds. -/
def Chip.rd (s : Chip) (a : Nat) : Word := Tab.get (regCold a) s.regs a

/-- The state with a register's word replaced. -/
def Chip.wr (s : Chip) (a : Nat) (w : Word) : Chip := { s with regs := Tab.set (regCold a) s.regs a w }

/-- Bits [hi:lo] of a register. -/
def Chip.rdF (s : Chip) (a hi lo : Nat) : Nat := fld (s.rd a) hi lo

/-- Bit `b` of a register. -/
def Chip.rdBit (s : Chip) (a b : Nat) : Bool := bit (s.rd a) b

/-- A register with bits [hi:lo] replaced. -/
def Chip.wrF (s : Chip) (a hi lo v : Nat) : Chip := s.wr a (setFld (s.rd a) hi lo v)

/-- A register with bit `b` set or cleared. -/
def Chip.wrBit (s : Chip) (a b : Nat) (x : Bool) : Chip := s.wr a (setBit (s.rd a) b x)

/-- A wrapping 32-bit counter register advanced by `n`. -/
def Chip.bumpBy (s : Chip) (a n : Nat) : Chip := s.wr a (s.rd a + wn n)

/-- A wrapping 32-bit counter register advanced by one. -/
def Chip.bump (s : Chip) (a : Nat) : Chip := s.bumpBy a 1

/-- Event EVT(n) is raised. -/
def Chip.raise (s : Chip) (n : Nat) : Chip := { s with notes := s.notes ++ [.event n] }

/-- Flag bit `b` of an event register is set, and its event raised when bit `b` of the enable register is 1.
DEDUCED (notes/assumptions/76.md). -/
def Chip.flag (s : Chip) (evt en b event : Nat) : Chip :=
  let s1 := s.wrBit evt b true
  if s.rdBit en b then s1.raise event else s1

/-- The last phase of the tick now running: a shortened tick skips phase 9,999, and a lengthened one holds it for 2 ns (01 R43). -/
def Chip.lastPhase (s : Chip) : Nat := if s.tb.tickLen < 10000 then 9998 else 9999

/-- Phase `p` is reached; time never runs back. DESIGN CHOICE (notes/assumptions/2.md). DEDUCED (notes/assumptions/5.md). -/
def Chip.atPhase (s : Chip) (p : Nat) : Chip :=
  { s with tb := { s.tb with phase := max s.tb.phase (min p s.lastPhase) } }

/-- An SH write to register `a` goes to its shadow, in place of an earlier one of the same bits: the last write wins (00 R15, 01 R64). -/
def Chip.putShadow (s : Chip) (a : Nat) (v : Word) (mask : Nat) : Chip :=
  { s with shadow := s.shadow.filter (fun e => !(e.1 == a && e.2.2 == mask)) ++ [(a, v, mask)] }

/-- FINE in force (01 R31). -/
def Chip.fine (s : Chip) : Bool := s.rdBit Reg.sysTbstat 0

/-- A phase as a reading of it carries it: in coarse mode that of the step last reached (01 R31). DEDUCED (notes/assumptions/5.md). -/
def Chip.seenPhase (s : Chip) (p : Nat) : Nat := if s.fine then p else p / 20 * 20

/-- A reading of phase now. DEDUCED (notes/assumptions/5.md). -/
def Chip.phaseRead (s : Chip) : Nat := s.seenPhase s.tb.phase

/-- TICK plus `k`, wrapping (01 R27). -/
def tickAdd (t k : Nat) : Nat := (t + k) % 2 ^ 48

/-- Ticks from `t0` to `t`, through the wrap (01 R27). -/
def tickSince (t t0 : Nat) : Nat := (t + 2 ^ 48 - t0 % 2 ^ 48) % 2 ^ 48

/-- TICK[31:0]. -/
def Chip.tick32 (s : Chip) : Word := wn s.tb.tick

/-- Nanoseconds since cold boot, in cycles of the phase clock: what durations are measured by (01 R43). TICK's wrap does not show in it (R27).
DESIGN CHOICE (notes/assumptions/2.md). DESIGN CHOICE (notes/assumptions/73.md). -/
def Chip.nowNs (s : Chip) : Nat := s.tb.base + s.tb.phase

/-- TICK and phase of a moment `t` of `nowNs`, in this tick or a later one; later ticks are taken as 10,000 cycles long. -/
def Chip.tickOf (s : Chip) (t : Nat) : Nat × Nat :=
  if t < s.tb.base + s.tb.tickLen then (s.tb.tick, min (t - s.tb.base) s.lastPhase)
  else (tickAdd s.tb.tick (1 + (t - s.tb.base - s.tb.tickLen) / 10000), (t - s.tb.base - s.tb.tickLen) % 10000)

/-- A moment lies before the end of the tick now running. -/
def Chip.inTick (s : Chip) (t : Nat) : Bool := decide (t < s.tb.base + s.tb.tickLen)

/-- The time CSR of every core (12 R533): TICK × 10,000 + phase, with the phase as read (01 R31). -/
def Chip.timeCsr (s : Chip) : Nat := s.tb.tick * 10000 + s.phaseRead

/-- time and timeh of a SEQ core (12 R533). -/
def Chip.timeLo (s : Chip) : Word := wn (s.timeCsr % 2 ^ 32)
def Chip.timeHi (s : Chip) : Word := wn (s.timeCsr / 2 ^ 32)

/-- An access error is answered on a port or to a core (00 R18). -/
def Chip.accessError (s : Chip) (src : Nat) : Chip :=
  { s with acc := { s.acc with errs := Tab.set 0 s.acc.errs src (Tab.get 0 s.acc.errs src + 1) } }

/-- A read returns its data to the port or core that made it. -/
def Chip.returnData (s : Chip) (src v : Nat) : Chip := { s with acc := { s.acc with data := Tab.set 0 s.acc.data src v } }

/-- A read that is answered with an access error reads 0 (00 R18). -/
def Chip.readError (s : Chip) (src : Nat) : Chip := (s.accessError src).returnData src 0

/-- A completion leaves poisoned (13 R591). -/
def Chip.poison (s : Chip) (src : Nat) : Chip :=
  { s with acc := { s.acc with poisoned := Tab.set 0 s.acc.poisoned src (Tab.get 0 s.acc.poisoned src + 1) } }

/-- An instruction fetch of a core ends with an instruction access fault (13 R591). -/
def Chip.fetchFault (s : Chip) (src : Nat) : Chip :=
  { s with acc := { s.acc with fetchErrs := Tab.set 0 s.acc.fetchErrs src (Tab.get 0 s.acc.fetchErrs src + 1) } }

/-- One free value drawn: the state with the counter advanced. DESIGN CHOICE (notes/assumptions/3.md). -/
def Chip.draw (s : Chip) : Chip := { s with draws := s.draws + 1 }

/-- CORE is out of reset: it is held from the CORE reset of a warm restart until the release (02 R107), and before boot. -/
def Chip.booted (s : Chip) : Bool := s.rdBit Reg.sysStat 0

/-- The status register of core `c`, SEQ0–SEQ7 then SUP0–SUP1 (12 R583). -/
def coreStat (c : Nat) : Nat := if c < 8 then Reg.corSeqstat c else Reg.corSupstat (c - 8)

/-- The watchdog period register of core `c` (12 R584). -/
def coreWdcfg (c : Nat) : Nat := if c < 8 then Reg.corSeqwdcfg c else Reg.corSupwdcfg (c - 8)

end Sys2Proof.Machine
end

