-- ==== Sys2Proof/Machine/Books.lean ====
section
/-!
DEFINITION. Shared bookkeeping: ledger counters (chapter 19), the incident log, the alarm table (16 R750–R753), odometer
increments (14 R628, R629), faults (17 R796–R799).
-/

namespace Sys2Proof.Machine

/-- Counter j of ledger L advanced by n, modulo 2^64 (19 R853). -/
def Chip.led (s : Chip) (l j n : Nat) : Chip :=
  { s with books := { s.books with led := Tab.set 0 s.books.led (16 * l + j) ((Tab.get 0 s.books.led (16 * l + j) + n) % 2 ^ 64) } }

/-- Counter j of the ledger of CAN channel n advanced, and the same counter of ledger 5 (19 R849). -/
def Chip.ledCan (s : Chip) (ch j n : Nat) : Chip := (s.led (8 + ch) j n).led 5 j n

/-- Counter j of ledger L lowered by n, modulo 2^64. -/
def Chip.ledSub (s : Chip) (l j n : Nat) : Chip := s.led l j (2 ^ 64 - n % 2 ^ 64)

/-- A ledger counter. -/
def Chip.ledGet (s : Chip) (l j : Nat) : Nat := Tab.get 0 s.books.led (16 * l + j)

/-- Odometer counter `slot` takes n units at once (14 R628, R629): each accepted unit is issued and pending until a snapshot
(14 R647, 19 R848); units beyond the maximum are lost and counted in ODO_LSAT. DEDUCED (notes/assumptions/60.md). -/
def Chip.odoInc (s : Chip) (slot n : Nat) : Chip :=
  let old := Tab.get 0 s.odo.cnt slot
  let new := min (old + n) (2 ^ 64 - 1)
  let lost := n - (new - old)
  let s1 := { s with odo := { s.odo with cnt := Tab.set 0 s.odo.cnt slot new, pend := s.odo.pend + (new - old) } }
  let s2 := s1.led 4 0 n
  if lost = 0 then s2 else (s2.led 4 3 lost).flag Reg.odoEvt Reg.odoEvten 2 42

/-- An entry is offered to the incident log (19 R858, R859): it takes the next number; beyond 64 in a tick it is skipped and counted;
a full log loses its oldest entry. -/
def Chip.logEvent (s : Chip) (kind code item : Nat) : Chip :=
  let b := s.books
  let seq := b.logSeq % 0xFFFFFFFF + 1
  if b.logTick ≥ 64 then
    { s with books := { b with logSeq := seq, logTick := b.logTick + 1 } }.bump Reg.ldgLogskip
  else
    let e : LogEntry := ⟨seq, s.tb.tick, s.phaseRead, kind, code % 65536, item % 256⟩
    let b' := { b with
      logSeq := seq, logTick := b.logTick + 1, logWritten := b.logWritten + 1
      log := Tab.ins (Tab.erase b.log (b.logWritten % 1024)) (b.logWritten % 1024) e }
    let s1 := ({ s with books := b' }).wr Reg.ldgLogseq (wn seq)
    if b.logWritten ≥ 1024 then s1.bump Reg.ldgLogshed else s1

/-- The vector control word of MSI-X vector v, which is kept with its mask bit inverted: the mask is 1 from PERST on (16 R761).
PRESUMED (notes/assumptions/29.md). -/
def vectorCtl (v : Nat) : Nat := 0x1080800C + 16 * v

/-- The mask bit of MSI-X vector v is 0. -/
def vectorOpen (s : Chip) (v : Nat) : Bool := s.rdBit (vectorCtl v) 0

/-- MSI-X vector v is signalled on H0 (16 R711), or stays pending behind its mask bit (R761). PRESUMED (notes/assumptions/29.md). -/
def Chip.signal (s : Chip) (v : Nat) : Chip :=
  { s with books :=
      if vectorOpen s v then { s.books with msix := Tab.set 0 s.books.msix v (Tab.get 0 s.books.msix v + 1) }
      else { s.books with msixPend := s.books.msixPend.filter (· != v) ++ [v] } }

/-- A vector that is pending is sent once its mask bit is 0 (16 R761). PRESUMED (notes/assumptions/29.md). -/
def sendPending (s : Chip) (v : Nat) : Chip :=
  if s.books.msixPend.contains v && vectorOpen s v then
    { s with books := { s.books with msixPend := s.books.msixPend.filter (· != v) } }.signal v
  else s

/-- Entry 255 as it stands from cold boot (16 R751). -/
def overflowEntry : AlarmEntry := ⟨0xFFFF, 3, 0, 0, 0, 0⟩

/-- The entry of a code, if one is in use below 255. -/
def findAlarm (t : Tab AlarmEntry) (code : Nat) : Option Nat :=
  (t.find? (fun e => e.1 < 255 && e.2.code == code)).map (·.1)

/-- The lowest free entry below 255 for a new code; code 0xFFFF has entry 255 always (16 R750, R751). -/
def freeAlarm (t : Tab AlarmEntry) (code : Nat) : Option Nat :=
  if code = 0xFFFF then .none else (List.range 255).find? (fun k => (Tab.get? t k).isNone)

/-- The tool-LAN ports are in operation and one is linked, so an alarm frame leaves (16 R752). -/
def lanUp (s : Chip) : Bool := s.rdF Reg.tlnStat 1 0 != 0 && s.rdBit Reg.tlnCtl 0

/-- A tool-LAN port has PCS synchronisation and the ring passes through the Poermun (16 R722). -/
def lanPort (s : Chip) (portB : Bool) : Bool := s.rdBit Reg.tlnStat (b2n portB) && s.rdBit Reg.tlnCtl 0

/-- The two copies of a device frame of KIND `kind`, one for each port that is up (16 R720, R724): the HSR sequence number and the EtherType in
network order, the prefix, what follows it. PRESUMED (notes/assumptions/36.md). -/
def lanCopies (s : Chip) (mac kind : Nat) (body : List Byte) : List (Nat × Nat × List Byte) :=
  let bytes := beBytes 2 s.hst.hsrSeq ++ beBytes 2 (s.rdF Reg.tlnEtype 15 0) ++ leBytes 1 0xA7 ++ leBytes 1 kind ++ leBytes 2 0 ++ body
  ([false, true].filter (lanPort s)).map (fun b => (32 + b2n b, mac, bytes))

/-- The next HSR sequence number of the Poermun's own frames (16 R720). -/
def hsrNext (s : Chip) : Chip := { s with hst := { s.hst with hsrSeq := (s.hst.hsrSeq + 1) % 65536 } }

/-- H3 is attached and configured, so an entry leaves on EP3 (16 R752). -/
def usbUp (s : Chip) : Bool := s.rdBit Reg.svcStat 0 && s.rdBit Reg.svcStat 1

/-- An alarm entry as R750 of chapter 16 lays it out. -/
def alarmBytes (e : Option AlarmEntry) : List Byte :=
  match e with
  | .some x => leBytes 2 x.code ++ leBytes 1 x.sev ++ leBytes 1 1 ++ leBytes 4 x.count ++ leBytes 6 x.first ++ leBytes 6 x.last ++ leBytes 4 x.data
  | .none => bytesOf 24 0

/-- Entry k of the alarm table; entry 255 stands from cold boot. -/
def alarmEntry (s : Chip) (k : Nat) : Option AlarmEntry :=
  if k = 255 then .some ((Tab.get? s.books.alarms 255).getD overflowEntry) else Tab.get? s.books.alarms k

/-- Entry k leaves on the tool LAN in an alarm frame to TLN_ALMMAC (16 R724, R752). -/
def sendAlarmLan (s : Chip) (k : Nat) : Chip :=
  let mac := (s.rd Reg.tlnAlmmaclo).toNat + s.rdF Reg.tlnAlmmachi 15 0 * 2 ^ 32
  let s1 := hsrNext (s.bump Reg.tlnAlmtx)
  { s1 with books := { s1.books with alarmsOut := s1.books.alarmsOut ++ lanCopies s1 mac 2 (alarmBytes (alarmEntry s k)) } }

/-- Entry k leaves on EP3 of H3 (16 R729, R752). -/
def sendAlarmUsb (s : Chip) (k : Nat) : Chip :=
  { s with books := { s.books with alarmsOut := s.books.alarmsOut ++ [(12, 0, alarmBytes (alarmEntry s k))] } }

/-- A changed entry is dirty for each path and delivered on those that are up (16 R752): an alarm frame on the tool LAN, its bit in
HPC_ALMDIRTY and vector SEV on H0, EP3 of H3. -/
def alarmDirty (s : Chip) (k sev : Nat) : Chip :=
  let s1 := (s.wrBit (Reg.hpcAlmdirty (k / 32)) (k % 32) true).signal sev
  let s2 := if lanUp s then sendAlarmLan s1 k
    else { s1 with books := { s1.books with dirtyLan := s1.books.dirtyLan.filter (· != k) ++ [k] } }
  if usbUp s then sendAlarmUsb s2 k
  else { s2 with books := { s2.books with dirtyUsb := s2.books.dirtyUsb.filter (· != k) ++ [k] } }

/-- The alarm table with entry k replaced. -/
def setAlarm (s : Chip) (k : Nat) (e : AlarmEntry) : Chip :=
  { s with books := { s.books with alarms := Tab.ins (Tab.erase s.books.alarms k) k e } }

/-- An entry that takes one more raise (16 R751): COUNT saturates at 2^32 − 1. -/
def AlarmEntry.again (e : AlarmEntry) (tick data : Nat) : AlarmEntry :=
  { e with count := min (e.count + 1) (2 ^ 32 - 1), last := tick, data := data, first := if e.count = 0 then tick else e.first }

/-- An alarm is raised (16 R751) and offered to the incident log (19 R858). -/
def Chip.alarm (s : Chip) (code sev data : Nat) : Chip :=
  let t := s.books.alarms
  let s0 := s.logEvent 1 code sev
  let s1 := match findAlarm t code with
    | .some k =>
      match Tab.get? t k with
      | .some e => alarmDirty (setAlarm s0 k (e.again s.tb.tick data)) k e.sev
      | .none => s0
    | .none =>
      match freeAlarm t code with
      | .some k => alarmDirty (setAlarm s0 k ⟨code, sev, 1, s.tb.tick, s.tb.tick, data⟩) k sev
      | .none =>
        let e := (Tab.get? t 255).getD overflowEntry
        let e' := { e.again s.tb.tick data with sev := min e.sev sev }
        (alarmDirty (setAlarm s0 255 e') 255 e'.sev).flag Reg.hpcEvt Reg.hpcEvten 1 72
  s1.wr Reg.hpcAlmcnt (wn ((s1.books.alarms.filter (fun e => e.2.count != 0)).length))

/-- The class of a fault code (17 R797): 0 NOTE, 1 ALARM, 2 RESTART, 3 COLD. -/
def faultClass (code : Nat) : Nat :=
  if 1 ≤ code ∧ code ≤ 5 then 2
  else if 0x10 ≤ code ∧ code ≤ 0x14 then 3
  else if code = 0x28 then 0
  else 1

/-- The alarm SEV of a fault class (17 R796). -/
def classSev : Nat → Nat
  | 0 => 3
  | 1 => 2
  | _ => 0

/-- A RESTART action is in progress, from the acceptance of its cause to the resume (17 R798). -/
def Chip.restarting (s : Chip) : Bool := s.rst.cause.isSome || s.rdBit Reg.sysStat 1

/-- The warm restarts whose T0 lies within the last 60 s (17 R776). -/
def recentRestarts (s : Chip) : List Nat :=
  s.rst.times.filter (fun t => decide (s.nowNs < t + 60000000000))

/-- A RESTART fault would be one warm restart too many (17 R776). DESIGN CHOICE (notes/assumptions/24.md). -/
def rateExceeded (s : Chip) : Bool := decide ((recentRestarts s).length ≥ s.rdF Reg.sysRstcfg 3 0)

/-- A fault enters the queue, raises its alarm and is counted (17 R798, R799, 14 R628). DEDUCED (notes/assumptions/61.md). -/
def enterFault (s : Chip) (code item : Nat) (acted : Bool) : Chip :=
  let cls := faultClass code
  let s1 := (s.flag Reg.sysEvt Reg.sysEvten 0 0).odoInc (26 + cls) 1
  let s2 := if s1.books.faultQ.length < 16 then
      { s1 with books := { s1.books with faultQ := s1.books.faultQ ++ [⟨code, cls, acted, item, s.tb.tick⟩] } }
    else (s1.bump Reg.sysFqlost).flag Reg.sysEvt Reg.sysEvten 2 2
  s2.alarm code (classSev cls) item

/-- A fault of class COLD acts at once (17 R773, R798): the internal cold reset comes with this command. -/
def coldFault (s : Chip) (code item : Nat) : Chip :=
  let s1 := enterFault s code item true
  { s1 with books := { s1.books with cold := match s1.books.cold with
      | .some c => .some c
      | .none => .some (code, item) } }

/-- A fault of class RESTART (17 R775–R777, R798): one that finds an action in progress only enters the queue; one too many is
replaced by RSTRATE; at stage 5 the cause waits. -/
def restartFault (s : Chip) (code item : Nat) : Chip :=
  if s.restarting then enterFault s code item false
  else if rateExceeded s then coldFault s 0x12 (code % 256)
  else
    let s1 := enterFault s code item true
    if s.rdF Reg.pwrStat 2 0 = 5 then
      { s1 with rst := { s1.rst with waiting := match s1.rst.waiting with
          | .some c => .some c
          | .none => .some (code, item) } }
    else { s1 with rst := { s1.rst with cause := .some (code, item) } }

/-- A fault by its code (17 R797). -/
def Chip.fault (s : Chip) (code item : Nat) : Chip :=
  if faultClass code = 2 then restartFault s code item
  else if faultClass code = 3 then coldFault s code item
  else enterFault s code item true

end Sys2Proof.Machine
end

