-- ==== Sys2Proof/Machine/Islands.lean ====
section
/-!
DEFINITION. Power islands (17 R783–R785): requests to the start governor, and gating.
-/

namespace Sys2Proof.Machine

/-- The priority of an island's start (R785). The table names none for a CAN channel or the DRAM interface outside a shed stage; they
take that of an island that returns at the end of one. DESIGN CHOICE (notes/assumptions/21.md). -/
def islandPrio (i : Nat) : Nat := if i < 16 then 0 else if i = 24 then 2 else if i = 25 then 3 else 1

/-- A request to start island `i` waits at the start governor (R783, R785); a second request joins the first.
DESIGN CHOICE (notes/assumptions/20.md). -/
def askStart (s : Chip) (i : Nat) : Chip :=
  if s.rdBit Reg.pwrIslpwr i || s.rdBit Reg.pwrIslreq i || s.pwr.rising.any (fun e => e.1 == i) then s
  else { s.wrBit Reg.pwrIslreq i true with pwr := { s.pwr with starts := s.pwr.starts ++ [⟨i, islandPrio i, s.nowNs, false⟩] } }

/-- Island `i` has no function and is gated (R783): its power goes, and a start of it that has not ended is dropped. -/
def gateIsland (s : Chip) (i : Nat) : Chip :=
  let s1 := (s.wrBit Reg.pwrIslpwr i false).wrBit Reg.pwrIslreq i false
  { s1 with pwr := { s1.pwr with
      starts := s1.pwr.starts.filter (fun q => q.isl != i)
      rising := s1.pwr.rising.filter (fun e => e.1 != i) } }

/-- The hash and signature engine has nothing to do (R783): no quote, no verification of a staged consist, no hash of a warm restart. -/
def hashIdle (s : Chip) : Bool :=
  s.hst.attest.isNone && s.rdF Reg.cstStat 3 2 != 2 && !(s.rst.inCore && s.rst.reloaded.isNone)

/-- The hash and signature engine is gated once it has nothing to do (R783). -/
def hashRest (s : Chip) : Chip := if hashIdle s then gateIsland s 24 else s

end Sys2Proof.Machine
end

