-- ==== Sys2Proof/Machine/Memory.lean ====
section
/-!
DEFINITION. Memory bytes: one list of cells with strictly rising addresses. A byte that nothing has written is not listed and reads as a
free value (13 R602).
-/

namespace Sys2Proof.Machine

/-- Memory is in its canonical form: addresses strictly rising. DESIGN CHOICE (notes/assumptions/6.md). -/
def Memory.wf : List Host.Cell → Bool
  | [] => true
  | [_] => true
  | (a, _) :: (b, y) :: r => decide (a < b) && Memory.wf ((b, y) :: r)

/-- A byte of a memory replaced. -/
def memSet (m : List Host.Cell) (a : Nat) (b : Byte) : List Host.Cell := Tab.ins (Tab.erase m a) a b

/-- Cells of consecutive bytes from address `a` on. -/
def cellsFrom (a : Nat) : List Byte → List Host.Cell
  | [] => []
  | b :: bs => (a, b) :: cellsFrom (a + 1) bs

/-- Bytes of a memory replaced from address `a` on. -/
def memPut (m : List Host.Cell) (a : Nat) (bs : List Byte) : List Host.Cell :=
  m.filter (fun e => decide (e.1 < a)) ++ cellsFrom a bs ++ m.filter (fun e => decide (a + bs.length ≤ e.1))

/-- TCM of core `c` within the memory list: each core's own range of 00 R22, apart from every other. -/
def tcmBase (c : Nat) : Nat := 2 ^ 40 + c * 2 ^ 18

/-- The boot flash within the memory list (17 R770). -/
def flashBase : Nat := 2 ^ 41

/-- The island's ROM of 128 KiB and its SRAM of 64 KiB within the memory list (15 R655); no window of the local map shows them (00 R22). -/
def islandRom : Nat := 2 ^ 40 + 2 ^ 30
def islandSram : Nat := 2 ^ 40 + 2 ^ 30 + 2 ^ 20

/-- Memory that keeps its contents through a cold reset: the boot ROM and MRAM (00 R22), the island's ROM, and the boot flash. -/
def keepsCold (a : Nat) : Bool :=
  decide (a < 0x40000) || (decide (0x04000000 ≤ a) && decide (a < 0x06000000)) ||
    (decide (islandRom ≤ a) && decide (a < islandRom + 0x20000)) || decide (flashBase ≤ a)

/-- Byte `a` of a 64-bit pattern laid over memory. -/
def patByte (pat a : Nat) : Byte := BitVec.ofNat 8 (pat / 2 ^ (8 * (a % 8)))

/-- A byte that no write has reached: the pattern of the newest fill over it, or the free value of its address (13 R602).
DESIGN CHOICE (notes/assumptions/6.md). PRESUMED (notes/assumptions/27.md). -/
def backByte (fills : List MemFill) (colds a : Nat) : Byte :=
  match fills.find? (fun f => decide (f.lo ≤ a) && decide (a < f.lo + f.len)) with
  | .some f => patByte f.pat a
  | .none =>
    if flashBase ≤ a then Config.flashByte (a - flashBase)
    else Config.powerUpByte (if keepsCold a then a else a + 2 ^ 48 * colds)

/-- A byte of memory. DESIGN CHOICE (notes/assumptions/6.md). -/
def Chip.byteAt (s : Chip) (a : Nat) : Byte := (Tab.get? s.mem a).getD (backByte s.fills s.memu.colds a)

/-- Bytes are stored anew from a place on, with good check bits (13 R587, R589): their damage goes. -/
def clearFlips (s : Chip) (a n : Nat) : Chip :=
  { s with memu := { s.memu with flips := s.memu.flips.filter (fun (e : Nat × Nat) => decide (e.1 < a) || decide (a + n ≤ e.1)) } }

/-- An area is filled with a pattern, with good check bits: what was written there, its damage, and fills that it covers, go. -/
def Chip.fillMem (s : Chip) (lo len pat : Nat) : Chip :=
  { s with
    mem := s.mem.filter (fun (e : Host.Cell) => decide (e.1 < lo) || decide (lo + len ≤ e.1))
    fills := ⟨lo, len, pat⟩ :: s.fills.filter (fun f => decide (f.lo < lo) || decide (lo + len < f.lo + f.len))
    memu := { s.memu with flips := s.memu.flips.filter (fun (e : Nat × Nat) => decide (e.1 < lo) || decide (lo + len ≤ e.1)) } }

/-- `n` bytes from address `a` on, of cells in rising order that start there or later. -/
def spanBytes (back : Nat → Byte) : Nat → Nat → List Host.Cell → List Byte
  | 0, _, _ => []
  | n + 1, a, m =>
    match m with
    | [] => back a :: spanBytes back n (a + 1) []
    | (k, b) :: r => if k = a then b :: spanBytes back n (a + 1) r else back a :: spanBytes back n (a + 1) ((k, b) :: r)

/-- `n` bytes from a local address. -/
def Chip.bytes (s : Chip) (a n : Nat) : List Byte :=
  spanBytes (backByte s.fills s.memu.colds) n a (s.mem.filter (fun (e : Host.Cell) => decide (a ≤ e.1) && decide (e.1 < a + n)))

/-- The state with bytes written from a local address on. -/
def Chip.putBytes (s : Chip) (a : Nat) (bs : List Byte) : Chip := clearFlips { s with mem := memPut s.mem a bs } a bs.length

/-- Words are written (13 R589, R596, R598): the bytes written are good, WB of the words' entries is set, and a correction that waits for one
of them is dropped. -/
def touchWords (s : Chip) (addr len : Nat) : Chip :=
  let hit := fun (w : Nat) => decide (addr / 8 ≤ w) && decide (8 * w < addr + len)
  let s1 := clearFlips s addr len
  { s1 with memu := { s1.memu with
      track := s1.memu.track.map (fun e => if hit e.word then { e with wb := true } else e)
      wback := s1.memu.wback.filter (fun w => !hit w.1) } }

/-- An agent writes bytes into an SRAM (13 R598). -/
def Chip.writeBytes (s : Chip) (a : Nat) (bs : List Byte) : Chip := touchWords (s.putBytes a bs) a bs.length

/-- A 32-bit word at a local address. -/
def Chip.memWord (s : Chip) (a : Nat) : Word := wn (ofLe (s.bytes a 4))

/-- A byte of host memory as it stands there; 0 where nothing has been written. DESIGN CHOICE (notes/assumptions/45.md). -/
def Chip.hostByte (s : Chip) (a : Nat) : Byte := (Tab.get? s.hostMem a).getD 0

/-- Bytes of host memory written from a bus address on. -/
def Chip.putHost (s : Chip) (a : Nat) (bs : List Byte) : Chip := { s with hostMem := memPut s.hostMem a bs }

end Sys2Proof.Machine
end

