-- ==== Sys2Proof/Machine/Codes.lean ====
section
/-!
DEFINITION. How the memories keep their bytes (chapter 13): the byte code of the SRAMs, the word code of DRAM, the damage that stored bits
have taken, what a read returns and counts, the repeat tracker with its spares, partial writes of DRAM, and the fill engine's progress.
-/

namespace Sys2Proof.Machine

/-- The check bits of a byte, c0 at bit 0 to c4 at bit 4 (R587). -/
def checkBits (d : Nat) : Nat :=
  let b := fun (i : Nat) => natBit d i
  let c0 := b 0 != (b 1 != (b 3 != (b 4 != b 6)))
  let c1 := b 0 != (b 2 != (b 3 != (b 5 != b 6)))
  let c2 := b 1 != (b 2 != (b 3 != b 7))
  let c3 := b 4 != (b 5 != (b 6 != b 7))
  let low := b2n c0 + 2 * b2n c1 + 4 * b2n c2 + 8 * b2n c3
  low + 16 * ((popcount 8 d + popcount 4 low) % 2)

/-- The data bit at a codeword position, if it holds one (R587). -/
def dataAt (p : Nat) : Option Nat :=
  match p with
  | 3 => .some 0
  | 5 => .some 1
  | 6 => .some 2
  | 7 => .some 3
  | 9 => .some 4
  | 10 => .some 5
  | 11 => .some 6
  | 12 => .some 7
  | _ => .none

/-- decode_byte of R588: the byte that a read returns for the stored bits, and its class: 0 CLEAN, 1 CE, 2 UE. -/
def decodeByte (d c : Nat) : Nat × Nat :=
  let s := Nat.xor (checkBits d % 16) (c % 16)
  let odd := (popcount 8 d + popcount 5 c) % 2 = 1
  if s = 0 ∧ ¬ odd then (d, 0)
  else if s = 0 then (d, 1)
  else if odd ∧ s ≤ 12 then ((match dataAt s with
    | .some i => Nat.xor d (2 ^ i)
    | .none => d), 1)
  else (d, 2)

/-- Damage of a stored byte: a mask of the bits that differ from the codeword of the byte written, d0 to d7 at bits 0 to 7 and c0 to c4 at bits
8 to 12. What a read returns, as the bits in which it differs from the byte written, and its class (R588): the code is linear, so the byte
itself does not matter. DEDUCED (notes/assumptions/57.md). -/
def byteErr (m : Nat) : Nat × Nat := decodeByte (m % 256) (m / 256 % 32)

/-- The class of a byte read with damage (R588). -/
def byteClass (m : Nat) : Nat := (byteErr m).2

/-- A DRAM address (00 R22). -/
def isDram (a : Nat) : Bool := decide (0x100000000 ≤ a ∧ a < 0x800000000)

/-- A shared SRAM address (00 R22). -/
def isSram (a : Nat) : Bool := decide (0x01000000 ≤ a ∧ a < 0x02000000)

/-- An MRAM address (00 R22). -/
def isMram (a : Nat) : Bool := decide (0x04000000 ≤ a ∧ a < 0x06000000)

/-- A TCM within the memory list. -/
def isTcmAt (p : Nat) : Bool := decide (tcmBase 0 ≤ p ∧ p < tcmBase 10)

/-- MEMK of a place in memory (R618): 6, a block RAM, for any other. -/
def memKindAt (p : Nat) : Nat :=
  if p < 0x40000 then 0
  else if isSram p then 1
  else if 0x02000000 ≤ p ∧ p < 0x02200000 then 2
  else if 0x03000000 ≤ p ∧ p < 0x03200000 then 3
  else if 0x18000000 ≤ p ∧ p < 0x19000000 then 4
  else if isTcmAt p then 5
  else if isDram p then 7
  else 6

/-- The local address of a place in memory (00 R22): a core's own TCM stands at 0x0008_0000. -/
def localOf (p : Nat) : Nat := if isTcmAt p then 0x00080000 + (p - tcmBase 0) % 0x40000 else p

/-- Where the check byte of a DRAM word stands (R607): the raw DRAM holds 448 usable bytes in eight blocks of 64, the eighth with the check
bytes of their 56 words. DESIGN CHOICE (notes/assumptions/57.md). -/
def checkByteAt (word : Nat) : Nat :=
  let w := word - 0x20000000
  2 ^ 42 + w / 56 * 64 + w % 56

/-- The island's SRAM within the memory list (15 R655). -/
def isIslandSram (p : Nat) : Bool := decide (islandSram ≤ p ∧ p < islandSram + 0x10000)

/-- A place that nothing has written since power-up holds arbitrary data and check bits (R602): volatile memory that no write and no fill has
reached. -/
def neverWritten (s : Chip) (p : Nat) : Bool :=
  (isSram p || isDram p || isTcmAt p || isIslandSram p) && (Tab.get? s.mem p).isNone &&
    !s.fills.any (fun f => decide (f.lo ≤ p) && decide (p < f.lo + f.len))

/-- The damage of a stored byte (R587, R590, R602). DESIGN CHOICE (notes/assumptions/6.md). -/
def flipsAt (s : Chip) (p : Nat) : Nat :=
  match Tab.get? s.memu.flips p with
  | .some m => m
  | .none => if neverWritten s p then (Config.powerUpFlips (p + 2 ^ 48 * s.memu.colds)).toNat else 0

/-- The codeword that a byte `d` of SRAM at a place has in store (R587): its data bits and its check bits, damaged or not. -/
def storedAs (s : Chip) (p : Nat) (d : Byte) : Nat × Nat :=
  (Nat.xor d.toNat (flipsAt s p % 256), Nat.xor (checkBits d.toNat) (flipsAt s p / 256 % 32))

/-- The damage of a byte replaced. -/
def setFlips (s : Chip) (p m : Nat) : Chip := { s with memu := { s.memu with flips := Tab.ins (Tab.erase s.memu.flips p) p m } }

/-- Stored bits flip, from place `p` on (R590): `ms` has a mask for each byte, as in `byteErr`; in DRAM a word has one check byte, whose flips
stand at bits 8 to 15 of the mask of the word's first byte read. DESIGN CHOICE (notes/assumptions/57.md). -/
def upset (s : Chip) (p : Nat) (ms : List Nat) : Chip :=
  ms.zipIdx.foldl (fun x e =>
    let q := p + e.2
    if e.1 = 0 then x
    else if isDram p then
      let y := if e.1 % 256 = 0 then x else setFlips x q (Nat.xor (flipsAt x q) (e.1 % 256))
      let c := checkByteAt (q / 8)
      if e.1 / 256 = 0 then y else setFlips y c (Nat.xor (flipsAt y c) (e.1 / 256 % 256))
    else setFlips x q (Nat.xor (flipsAt x q) (e.1 % 8192))) s

/-- The bits of a 64-bit number. -/
def weight (m : Nat) : Nat := popcount 72 m

/-- What a read of DRAM word `word` returns, as the bits in which it differs from the word written, and its class (R591, R607, R609). Every
column of the code has odd weight, so an odd number of flips gives the syndrome of a column, whose bit is then flipped, or of none, and an even
number gives none or that of no column. Which it is for three flips or more depends on the columns, which are internal: a free value.
DESIGN CHOICE (notes/assumptions/57.md). -/
def dramErr (s : Chip) (word : Nat) : Nat × Nat :=
  let d := ofLe ((List.range 8).map (fun i => BitVec.ofNat 8 (flipsAt s (8 * word + i))))
  let m := d + 2 ^ 64 * (flipsAt s (checkByteAt word) % 256)
  let n := weight m
  let k := Config.secdedSyndrome m % 73
  if n = 0 then (0, 0)
  else if n = 1 then (0, 1)
  else if n = 2 then (d, 2)
  else if n % 2 = 1 then (if k < 64 then (Nat.xor d (2 ^ k), 1) else if k < 72 then (d, 1) else (d, 2))
  else if k = 0 then (d, 0)
  else (d, 2)

/-- Byte `i` of the eighth raw block of group `g` (R607): the check byte of the group's word `i`, and from 56 on 0.
DESIGN CHOICE (notes/assumptions/57.md). -/
def eighthBlock (s : Chip) (g i : Nat) : Nat :=
  let word := 0x20000000 + 56 * g + i
  if i < 56 then Nat.xor (Config.secdedCheck (ofLe (s.bytes (8 * word) 8)) % 256) (flipsAt s (checkByteAt word) % 256) else 0

/-- The class of an MRAM read (R586): each sector of 32 bytes corrects up to two flips and detects three. -/
def mramClass (s : Chip) (p : Nat) : Nat :=
  if (List.range 32).foldl (fun n i => n + popcount 8 (flipsAt s (p / 32 * 32 + i))) 0 ≤ 2 then 0 else 2

/-- What a read of the bytes from `lo` to `hi` of word `word` returns, as a mask for each byte of the word, and its class (R588, R609): a read of
fewer than 8 bytes decodes the bytes it reads. DEDUCED (notes/assumptions/57.md). -/
def wordErr (s : Chip) (word lo hi : Nat) : List Nat × Nat :=
  if isDram (8 * word) then
    let r := dramErr s word
    ((List.range 8).map (fun i => r.1 / 2 ^ (8 * i) % 256), r.2)
  else if isMram (8 * word) then
    let c := mramClass s (8 * word)
    ((List.range 8).map (fun i => if c = 0 then 0 else flipsAt s (8 * word + i) % 256), c)
  else
    let es := (List.range 8).map (fun i =>
      if lo ≤ 8 * word + i ∧ 8 * word + i < hi then byteErr (flipsAt s (8 * word + i)) else (0, 0))
    (es.map (·.1), es.foldl (fun c e => max c e.2) 0)

/-- Flag e of MEM_EVT (R623). -/
def Chip.memFlag (s : Chip) (e : Nat) : Chip := s.flag Reg.memEvt Reg.memEvten e (24 + e)

/-- A read of class CE or UE is counted (R592) with its address, its reader and its memory, and in the odometer (14 R628). A reader without a
code of its own in MEM_ERRLASTHI.SRC is 15, another block (R618). -/
def noteRead (s : Chip) (cls addr src memk : Nat) : Chip :=
  if cls = 0 then s
  else
    let s1 := s.bump (if cls = 1 then Reg.memCecnt else Reg.memUecnt)
    let s2 := (s1.wr Reg.memErrlastlo (wn addr)).wr Reg.memErrlasthi
      (wn (min src 15 * 2 ^ 28 + memk * 2 ^ 24 + cls * 2 ^ 20 + addr / 2 ^ 32 % 256))
    let s3 := s2.memFlag (cls - 1)
    if memk = 7 then s3.odoInc (6 + cls) 1
    else if memk = 0 then s3 else s3.odoInc (4 + cls) 1

/-- First address, words and MEMK of an SRAM array (R586). -/
def arrayOf (a : Nat) : Nat × Nat × Nat :=
  if a < 16 then (0x01000000 + a * 0x100000, 131072, 1)
  else if a < 20 then (0x02000000 + (a - 16) * 0x80000, 65536, 2)
  else if a < 36 then (0x03000000 + (a - 20) * 0x20000, 16384, 3)
  else if a < 52 then (0x18000000 + (a - 36) * 0x100000, 32768, 4)
  else (tcmBase (a - 52), 32768, 5)

/-- The array of a word address / 8, among the arrays. -/
def arrayAt (word : Nat) : Option Nat :=
  (List.range 62).find? (fun a => decide ((arrayOf a).1 ≤ 8 * word) && decide (8 * word < (arrayOf a).1 + 8 * (arrayOf a).2.1))

/-- The tracker with an entry replaced, or dropped. -/
def setTrack (s : Chip) (t : List TrackEntry) : Chip := { s with memu := { s.memu with track := t } }

/-- The word as a read has returned it stands in its place again, with good check bits (R596, R599): its damage goes, but for bits that the
code itself has taken for others. A place of it that nothing has written since power-up is written with it (R602). -/
def rewriteWord (s : Chip) (word : Nat) (xs : List Nat) : Chip :=
  let s0 := if (List.range 8).any (fun i => neverWritten s (8 * word + i)) then s.putBytes (8 * word) (s.bytes (8 * word) 8) else s
  let s1 := clearFlips s0 (8 * word) 8
  if isDram (8 * word) then
    let s2 := clearFlips s1 (checkByteAt word) 1
    if xs.all (· == 0) then s2
    else s2.putBytes (8 * word) ((s2.bytes (8 * word) 8).zipWith (fun b x => b ^^^ BitVec.ofNat 8 x) xs)
  else xs.zipIdx.foldl (fun y e => if e.1 = 0 then y else setFlips y (8 * word + e.2) (e.1 + 256 * checkBits e.1)) s1

/-- A word classed hard (R599, R600, R609): an SRAM word is remapped to a spare, which takes its corrected contents, or stays where it is once
every spare is in use; a DRAM word is only counted. -/
def hardWord (s : Chip) (word : Nat) (xs : List Nat) : Chip :=
  match arrayAt word with
  | .none => ((s.bump Reg.memHardcnt).memFlag 3).odoInc 9 1
  | .some a =>
    if s.rdF (Reg.memSpare a) 6 0 ≥ 64 then s.memFlag 4
    else
      let s1 := rewriteWord (setTrack s (s.memu.track.filter (fun e => e.word != word))) word xs
      let s2 := { s1 with memu := { s1.memu with spared := s1.memu.spared ++ [word] } }
      (((s2.bump Reg.memHardcnt).bump (Reg.memSpare a)).memFlag 3).odoInc 9 1

/-- The entry the tracker gives up: the lowest count, and among equal counts the oldest (R597). -/
def evictee : List TrackEntry → Option TrackEntry
  | [] => .none
  | e :: es => match evictee es with
    | .none => .some e
    | .some x => if e.count ≤ x.count then .some e else .some x

/-- The tracker takes a CE of a word (R597, R598). -/
def trackCe (s : Chip) (word : Nat) (xs : List Nat) : Chip :=
  let thr := max (s.rdF Reg.memTrkcfg 7 0) 1
  let reach := fun (x : Chip) (n : Nat) => if n = thr then (x.wr Reg.memTrklast (wn (localOf (8 * word) / 8))).memFlag 2 else x
  match s.memu.track.find? (fun e => e.word == word) with
  | .some e =>
    let n := min (e.count + 1) 255
    let s1 := setTrack s (s.memu.track.map (fun x => if x.word = word then { x with count := n } else x))
    let s2 := if n = e.count then s1 else reach s1 n
    if e.wb then hardWord s2 word xs else s2
  | .none =>
    if s.memu.track.length < 32 then reach (setTrack s (s.memu.track ++ [⟨word, 1, false⟩])) 1
    else
      match evictee s.memu.track with
      | .none => s
      | .some x => reach ((setTrack s (s.memu.track.filter (fun e => e != x) ++ [⟨word, 1, false⟩])).bump Reg.memTrkevict) 1

/-- What reading a span has come to: the Poermun, the worst class met, and the bits in which each byte differs from the one written. -/
structure SpanRead where
  chip : Chip
  cls : Nat
  errs : List Nat

/-- One word of a read, or the part of it in [`lo`, `hi`) (R588, R592, R597): counted, and tracked where it is corrected. The boot ROM's errors
are only counted (R601); MRAM corrects inside its die, and has no code in MEMK. -/
def readOne (src lo hi : Nat) (r : SpanRead) (word : Nat) : SpanRead :=
  let e := wordErr r.chip word lo hi
  let memk := memKindAt (8 * word)
  let mine := (List.range 8).filter (fun i => decide (lo ≤ 8 * word + i) && decide (8 * word + i < hi))
  let s1 := if isMram (8 * word) then r.chip else noteRead r.chip e.2 (localOf (8 * word)) src memk
  ⟨if e.2 = 1 ∧ memk ≠ 0 ∧ memk ≠ 6 then trackCe s1 word e.1 else s1, max r.cls e.2, r.errs ++ mine.map (fun i => e.1.getD i 0)⟩

/-- `n` bytes at a place are read by `src` (R588–R592). -/
def readSpan (s : Chip) (src p n : Nat) : SpanRead :=
  ((List.range ((p + n + 7) / 8 - p / 8)).map (p / 8 + ·)).foldl (readOne src p (p + n)) ⟨s, 0, []⟩

/-- Bytes as a read has returned them (R590, R591): corrected, or with the damage that the code could not correct. -/
def seenBytes (bs : List Byte) (errs : List Nat) : List Byte := bs.zipWith (fun b x => b ^^^ BitVec.ofNat 8 x) errs

/-- The bits in which the `n` bytes from offset `o` on were read differently, as one number. -/
def errBits (errs : List Nat) (o n : Nat) : Nat := ofLe (((errs.drop o).take n).map (BitVec.ofNat 8))

/-- A word as its four bytes from offset `o` of a span were read. -/
def wordAs (errs : List Nat) (o : Nat) (w : Word) : Word := w ^^^ wn (errBits errs o 4)

/-- A signed number of `n` bytes as they were read; one read as it was written is itself. -/
def intAs (errs : List Nat) (o n : Nat) (x : Int) : Int :=
  if errBits errs o n = 0 then x else (BitVec.ofInt (8 * n) x ^^^ BitVec.ofNat (8 * n) (errBits errs o n)).toInt

/-- A number of `n` bytes as they were read. -/
def natAs (errs : List Nat) (o n x : Nat) : Nat := Nat.xor x (errBits errs o n)

/-- A journal record as its 32 bytes were read (03 R158). -/
def JRec.asRead (r : JRec) (errs : List Nat) : JRec :=
  ⟨intAs errs 0 8 r.integ, intAs errs 8 4 r.out, intAs errs 12 4 r.spr, intAs errs 16 4 r.dst, intAs errs 20 4 r.pvl, natAs errs 24 4 r.stamp,
    Nat.xor r.mode (errBits errs 28 1 % 8), Nat.xor r.flags (errBits errs 28 2 / 16)⟩

/-- A slot's state as its bytes were read (03 R177): the fields that the evaluation goes on from. -/
def SlotState.asRead (x : SlotState) (errs : List Nat) : SlotState :=
  let j := JRec.asRead ⟨x.integ, x.out, x.spr, x.dst, x.pvl, x.stamp, x.mode, x.flags⟩ errs
  { x with
    integ := j.integ, out := j.out, spr := j.spr, dst := j.dst, pvl := j.pvl, stamp := j.stamp, mode := j.mode, flags := j.flags
    spdir := intAs errs 32 4 x.spdir, b1s1 := intAs errs 36 4 x.b1s1, b1s2 := intAs errs 40 4 x.b1s2
    b2s1 := intAs errs 44 4 x.b2s1, b2s2 := intAs errs 48 4 x.b2s2 }

/-- Bytes that a block reads from a memory, and the class met. -/
def readBytes (s : Chip) (src p n : Nat) : Chip × List Byte × Nat :=
  let r := readSpan s src p n
  (r.chip, seenBytes (s.bytes p n) r.errs, r.cls)

/-- An enabled recording set has a region (R605). -/
def regionSetOn (s : Chip) : Bool := (List.range 64).any (fun i => s.rdBit (Reg.recSetcfg i) 0 && s.rdBit (Reg.recSetcfg i) 14)

/-- Bytes the running fill writes in a ns: 8 in shared SRAM; 20 in DRAM, or 2 while a set with REGN is enabled (R605). -/
def fillRate (s : Chip) (a : Nat) : Nat := if isSram a then 8 else if regionSetOn s then 2 else 20

/-- The check bytes of the DRAM words in [a, a + n) are good (R607). -/
def clearChecks (s : Chip) (a n : Nat) : Chip :=
  if isDram a && decide (0 < n) then clearFlips s (checkByteAt (a / 8)) (checkByteAt ((a + n - 1) / 8) + 1 - checkByteAt (a / 8)) else s

/-- The fill engine writes whole words with the pattern and good check bits (R605). -/
def fillWords (s : Chip) (a n pat : Nat) : Chip := (clearChecks (touchWords (s.fillMem a n pat) a n) a n).bumpBy Reg.memFilldoneb n

/-- The running fill brought up to now, block by block (R605, R606); its clock counts 20ths of a ns. -/
def advanceFill (s : Chip) : Chip :=
  match s.memu.fill with
  | .none => s
  | .some (a, n, pat, t) =>
    let k := min n ((20 * s.nowNs - t) * fillRate s a / 20 / 64 * 64)
    if k = 0 then s
    else
      let s1 := fillWords s a k pat
      { s1 with memu := { s1.memu with fill := .some (a + k, n - k, pat, t + 20 * k / fillRate s a) } }

/-- An agent writes whole bytes of a memory (R589, R606, R598). -/
def agentWrite (s : Chip) (a : Nat) (bs : List Byte) : Chip := (advanceFill s).writeBytes a bs

/-- A write of fewer than 8 bytes of a DRAM word reads the word and writes it back whole (R608): a UE met there drops the write. The flag
tells that it was made. -/
def dramPart (s : Chip) (a : Nat) (bs : List Byte) : Chip × Bool :=
  if bs = [] then (s, true)
  else
    let w := a / 8
    let (s1, old, cls) := readBytes s 15 (8 * w) 8
    if cls = 2 then (s1.bump Reg.memDrmwue, false)
    else
      let o := a % 8
      ((clearFlips s1 (checkByteAt w) 1).writeBytes (8 * w) (old.take o ++ bs ++ old.drop (o + bs.length)), true)

/-- An agent writes bytes of shared SRAM or DRAM (R589, R606, R608): whole DRAM words are never read. The flag tells that nothing was
dropped. -/
def memWrite (s : Chip) (a : Nat) (bs : List Byte) : Chip × Bool :=
  if !isDram a then (agentWrite s a bs, true)
  else
    let h := min ((8 - a % 8) % 8) bs.length
    let t := (bs.length - h) % 8
    let m := bs.length - h - t
    let (s1, ok1) := dramPart (advanceFill s) a (bs.take h)
    let s2 := clearChecks (if m = 0 then s1 else s1.writeBytes (a + h) ((bs.drop h).take m)) (a + h) m
    let (s3, ok3) := dramPart s2 (a + h + m) (bs.drop (h + m))
    (s3, ok1 && ok3)

end Sys2Proof.Machine
end

