-- ==== Sys2Proof/Machine/Timebase.lean ====
section
/-!
DEFINITION. The timebase (chapter 01): boundary actions of the PLL mode, the trim and SYNC_OUT, and the low-word captures.
-/

namespace Sys2Proof.Machine

/-- The target of the trim for the source in force; `servo` is the output of the PTP servo, clamped where it was produced (R41).
A source that holds has the effective trim as its target (R39). -/
def trimTarget (s : Chip) (servo : Int) : Int :=
  let src := s.rdF Reg.sysTbctl 1 0
  if src = 1 then s32 (s.rd Reg.sysTbtrim)
  else if src = 2 then (if s.rdBit Reg.sysTbstat 1 then servo else s32 (s.rd Reg.sysTbtrimeff))
  else 0

/-- A trim target limited to ±50,000 ppb (R41). DEDUCED (notes/assumptions/14.md). -/
def trimClamp (t : Int) : Int := clampI t (-50000) 50000

/-- A clamped target sets LIMIT and raises EVT5 (R41). DEDUCED (notes/assumptions/14.md). -/
def noteTrimLimit (s : Chip) (t : Int) : Chip :=
  if trimClamp t = t then s else (s.wrBit Reg.sysTbstat 3 true).raise 5

/-- The effective trim one boundary later: at most 10 ppb nearer the target (R42). -/
def trimStep (eff target : Int) : Int := clampI target (eff - 10) (eff + 10)

/-- A pending change between coarse and fine mode takes effect at the boundary; a fall sets COARSEEV and raises EVT4 (R32, R33). A lock lost and
regained within one tick leaves nothing pending. DESIGN CHOICE (notes/assumptions/86.md). -/
def applyMode (s : Chip) : Chip :=
  if s.fine == s.tb.pllLocked then s
  else
    let s1 := s.wrBit Reg.sysTbstat 0 s.tb.pllLocked
    if s.tb.pllLocked then s1
    else (((s1.wrBit Reg.sysTbstat 4 true).raise 4).odoInc 37 1).fault 0x28 0

/-- The slew of the effective trim at a boundary (R42). -/
def slewTrim (s : Chip) (servo : Int) : Chip :=
  s.wr Reg.sysTbtrimeff (w32 (trimStep (s32 (s.rd Reg.sysTbtrimeff)) (trimTarget s servo)))

/-- SYS_TBSTAT.SLEWING: the effective trim and its target differ (R42, R66). -/
def slewing (s : Chip) : Bool := s32 (s.rd Reg.sysTbtrimeff) != trimTarget s s.hst.ptp.servo

/-- The accumulator at a boundary in fine mode, and the length of the tick now starting (R43, R44). DEDUCED (notes/assumptions/14.md). -/
def accumulateTrim (s : Chip) : Chip :=
  let eff := s32 (s.rd Reg.sysTbtrimeff)
  let neg := if eff = 0 then s.tb.trimNeg else decide (eff < 0)
  let acc0 := if neg == s.tb.trimNeg then s.tb.trimAcc else 0
  let acc := acc0 + eff.natAbs
  if acc ≥ 100000 then
    { s with tb := { s.tb with
        trimAcc := acc - 100000, trimNeg := neg, tickLen := if eff > 0 then 9999 else 10001 } }
  else { s with tb := { s.tb with trimAcc := acc, trimNeg := neg, tickLen := 10000 } }

/-- The trim at a boundary (R39–R44): the slew step first, then the accumulator with the effective trim it gives, an order the spec leaves
open. Trimming is suspended in coarse mode (R31): the effective trim and the accumulator are held and the tick has 10,000 cycles.
DESIGN CHOICE (notes/assumptions/86.md). -/
def applyTrim (s : Chip) (servo : Int) : Chip :=
  if s.fine then accumulateTrim (slewTrim s servo)
  else { s with tb := { s.tb with tickLen := 10000 } }

/-- The bits `mask` of register `a` take their values in `v`. A target taken into SYS_TBTRIM is clamped (R41, R64). -/
def applyShadowOne (s : Chip) (a : Nat) (v : Word) (mask : Nat) : Chip :=
  if a = Reg.sysTbtrim then noteTrimLimit (s.wr a (w32 (trimClamp (s32 v)))) (s32 v)
  else s.wr a ((s.rd a &&& ~~~ (wn mask)) ||| (v &&& wn mask))

/-- SH register writes take effect at the tick boundary, in order of arrival (00 R15). -/
def applyShadow (s : Chip) : Chip :=
  let s1 := s.shadow.foldl (fun x e => applyShadowOne x e.1 e.2.1 e.2.2) s
  { s1 with shadow := [] }

/-- At a boundary with PTPLOCK 1 the fab time of phase 0 of the previous tick is recorded with its TICK (R45). -/
def recordFab (s : Chip) (sec ns : Nat) : Chip :=
  if s.rdBit Reg.sysTbstat 1 then
    { s with tb := { s.tb with fabTick := tickSince s.tb.tick 1, fabSec := sec % 2 ^ 48, fabNs := ns % 1000000000, fabValid := true } }
  else s

/-- The width of the SYNC_OUT pulse that starts in this tick, in ns: SYNCW units of 20 ns, doubled at the mark (R36, R37). -/
def syncWidth (s : Chip) : Nat :=
  let w := s.rdF Reg.sysTbctl 11 4 * 20
  if s.rdBit Reg.sysTbctl 3 && s.tb.tick % 4096 == 0 then 2 * w else w

/-- SYNC_OUT rises at phase 0 once the first boundary after BOOT_DONE has come and while SYNCEN is 1 (R35, R36). -/
def syncRise (s : Chip) : Chip :=
  let s1 := if s.booted && !s.tb.syncArmed then { s with tb := { s.tb with syncArmed := true } } else s
  if s1.tb.syncArmed && s1.rdBit Reg.sysTbctl 2 then
    { s1 with pins := { s1.pins with syncOut := true }, tb := { s1.tb with syncEnd := syncWidth s1 } }
  else s1

/-- The pulse ends: SYNC_OUT falls at the end of its width (R36). -/
def syncFall (s : Chip) : Chip :=
  if s.pins.syncOut then { s.atPhase s.tb.syncEnd with pins := { s.pins with syncOut := false } } else s

/-- TICK advances and phase returns to 0 (R26, R27, R30). -/
def advanceTick (s : Chip) : Chip :=
  { s with tb := { s.tb with tick := tickAdd s.tb.tick 1, phase := 0, base := s.tb.base + s.tb.tickLen } }

/-- A read of SYS_TICKLO by a reader captures TICK[47:32] and the phase (R58). -/
def captureTick (s : Chip) (reader : Nat) : Chip :=
  let c := Tab.get LowCap.none s.lowCaps reader
  let c' : LowCap := { c with tickHi := s.tb.tick / 2 ^ 32, phase := s.phaseRead }
  { s with lowCaps := Tab.set LowCap.none s.lowCaps reader c' }

/-- A read of SYS_FABTLO by a reader captures the recorded set; VALID tells that it was recorded under PTPLOCK, and is 0 while PTPLOCK is 0
(R45, R58, R70). It is captured with the set: a later read of SYS_FABNS returns it though PTPLOCK has fallen since.
DEDUCED (notes/assumptions/90.md). -/
def captureFab (s : Chip) (reader : Nat) : Chip :=
  let c := Tab.get LowCap.none s.lowCaps reader
  let c' : LowCap :=
    { c with
      fabHi := s.tb.fabSec / 2 ^ 32 * 65536 + s.tb.fabTick / 2 ^ 32
      fabSec := s.tb.fabSec % 2 ^ 32
      fabNs := s.tb.fabNs
      fabValid := s.tb.fabValid && s.rdBit Reg.sysTbstat 1 }
  { s with lowCaps := Tab.set LowCap.none s.lowCaps reader c' }

/-- SYS_TBCTL as a write leaves it: SYNCW 0 is taken as 1 and above 100 as 100 (R63); TRIMSRC is shadowed and a write of 3
leaves it unchanged (R39). -/
def writeTbctl (s : Chip) (v : Word) : Chip :=
  let w := fld v 11 4
  let w' := if w = 0 then 1 else if w > 100 then 100 else w
  let s1 := ((s.wrF Reg.sysTbctl 11 4 w').wrF Reg.sysTbctl 3 2 (fld v 3 2))
  if fld v 1 0 = 3 then s1 else s1.putShadow Reg.sysTbctl v 3

end Sys2Proof.Machine
end

