-- ==== Sys2Proof/Machine/Store.lean ====
section
/-!
DEFINITION. The signal store and the output gate (chapter 02): composed reads, the write procedure of R95, the P3 queues
and arbiter, the changes of the gate.
-/

namespace Sys2Proof.Machine

/-- No carried bit. -/
def Carried.none : Carried := ⟨false, false, false, false⟩

/-- The carried bits VALID alone. -/
def Carried.ok : Carried := ⟨true, false, false, false⟩

/-- The carried bits as they stand in STATUS (R77). -/
def Carried.bits (c : Carried) : Nat := b2n c.valid + 4 * b2n c.ovr + 64 * b2n c.sat + 128 * b2n c.fault

/-- The entry a declared SID starts with (R76). -/
def initEntry (d : SidDecl) : Entry :=
  { value := if d.isOut then d.fallback else d.initial
    carried := Carried.none, subst := d.isOut, held := false, gated := false, ue := false
    lastTick := Option.none, wseq := 0, lastSrc := Option.none }

/-- What an undeclared SID reads (R75). -/
def undeclaredRead : StoreRead := ⟨0, 0x80, 0, 65535⟩

/-- AGE of an entry at a TICK (R78). -/
def ageAt (e : Entry) (tick : Nat) : Nat :=
  match e.lastTick with
  | .none => 65535
  | .some t => min 65535 (tickSince tick t)

/-- Force line `g` is asserted at the gate (R101, R121). -/
def Chip.forced (s : Chip) (g : Nat) : Bool := s.rdBit Reg.sigForcestat g

/-- The fallback replaces the stored value (R96). -/
def readsFallback (s : Chip) (d : SidDecl) (e : Entry) : Bool :=
  d.isOut && (s.forced d.fgrp || e.subst || e.ue)

/-- STALE at a read (R77, R96). -/
def readsStale (d : SidDecl) (e : Entry) (tick : Nat) : Bool :=
  d.limit != 0 && decide (ageAt e tick > d.limit) && !e.held

/-- The composed read of a declared entry (R96). -/
def composeRead (s : Chip) (d : SidDecl) (e : Entry) (tick : Nat) : StoreRead :=
  let fb := readsFallback s d e
  let st := b2n (e.carried.valid) + 2 * b2n (readsStale d e tick) + 4 * b2n e.carried.ovr + 8 * b2n fb
    + 16 * b2n e.held + 32 * b2n e.gated + 64 * b2n e.carried.sat + 128 * b2n (e.carried.fault || e.ue)
  ⟨if fb then d.fallback else e.value, st, e.wseq, ageAt e tick⟩

/-- store_read of R96 at a TICK, with R75 for an undeclared SID. -/
def Chip.storeRead (s : Chip) (sid : Nat) : StoreRead :=
  match Tab.get? s.store.decls sid, Tab.get? s.store.entries sid with
  | .some d, .some e => composeRead s d e s.tb.tick
  | .some d, .none => composeRead s d (initEntry d) s.tb.tick
  | .none, _ => undeclaredRead

/-- The entry of a declared SID. -/
def Chip.entryOf (s : Chip) (sid : Nat) (d : SidDecl) : Entry :=
  match Tab.get? s.store.entries sid with
  | .some e => e
  | .none => initEntry d

/-- The entry of a SID replaced. -/
def Chip.setEntry (s : Chip) (sid : Nat) (e : Entry) : Chip :=
  { s with store := { s.store with entries := Tab.ins (Tab.erase s.store.entries sid) sid e } }

/-- Who writes: the SRC code of R113, the unit behind P0 to P2 as its producer, and the supervisor a host write is attributed to. -/
structure Writer where
  src : Nat
  prod : Producer
  sup : Option Nat
  deriving DecidableEq, Repr

/-- The writer is the SID's producer (R83, R84). For P3 the mask is read by the kind of agent. -/
def producerOk (d : SidDecl) (w : Writer) : Bool :=
  match d.producer with
  | .p3 q u h =>
    (decide (w.src < 8) && q) || (decide (8 ≤ w.src ∧ w.src < 10) && u) || (srcIsHost w.src && h)
  | p => p == w.prod && decide (13 ≤ w.src ∧ w.src ≤ 15)

/-- The writer is the active holder in force at the gate (R102, R104). -/
def isHolder (s : Chip) (w : Writer) : Bool :=
  match w.sup, s.store.gateHolder with
  | .some a, .some b => a == b
  | _, _ => false

/-- The event of each flag of SIG_EVT (R112). -/
def sigEvent : Nat → Nat
  | 0 => 12
  | 1 => 70
  | 2 => 15
  | 3 => 14
  | _ => 13

/-- A flag of SIG_EVT. -/
def Chip.sigFlag (s : Chip) (b : Nat) : Chip := s.flag Reg.sigEvt Reg.sigEvten b (sigEvent b)

/-- A refusal by the producer check is counted (R84). -/
def countProd (s : Chip) (sid src : Nat) : Chip :=
  (((s.bump Reg.sigProderr).wr Reg.sigProdlast (wn (src * 2 ^ 27 + sid % 2 ^ 18)))).sigFlag 0

/-- A refusal by the claim check is counted (R106). -/
def countGate (s : Chip) (sid src : Nat) : Chip :=
  (((s.bump Reg.sigGateref).wr Reg.sigGatelast (wn (src * 2 ^ 27 + sid % 2 ^ 18)))).sigFlag 1

/-- A refusal under a force is counted (R99). -/
def countForce (s : Chip) : Chip := (s.bump Reg.sigForceref).sigFlag 2

/-- A clamp is counted (R97). -/
def countClamp (s : Chip) : Chip := ((s.bump Reg.sigClampcnt).sigFlag 3).odoInc 1 1

/-- What a write brings: a value or none (a +4 write leaves VALUE unchanged, R91), and the carried bits. -/
structure WriteReq where
  value : Option Int
  carried : Carried
  deriving DecidableEq, Repr

/-- The value an OUT SID's limits allow (R95, R97). -/
def gateClamp (d : SidDecl) (v : Int) : Int := clampI v d.lo d.hi

/-- The entry after an accepted write (R95): the value as the gate leaves it, the carried bits, the marks cleared. An
uncorrectable mark goes with a write of VALUE and stays under a +4 write (R111). DEDUCED (notes/assumptions/15.md). -/
def acceptedEntry (e : Entry) (v : Option Int) (c : Carried) (src tick : Nat) : Entry :=
  { value := v.getD e.value, carried := c, subst := false, held := false, gated := false
    ue := e.ue && v.isNone
    lastTick := .some tick, wseq := (e.wseq + 1) % 256, lastSrc := .some src }

/-- Whether the write is clamped. -/
def writeClamps (d : SidDecl) (r : WriteReq) : Bool :=
  match r.value with
  | .some v => d.isOut && (decide (v < d.lo) || decide (v > d.hi))
  | .none => false

/-- The carried bits an accepted write stores: SAT when clamped, VALID through P1 and P3 (R95). -/
def storedCarried (d : SidDecl) (r : WriteReq) (src : Nat) : Carried :=
  { r.carried with
    sat := r.carried.sat || writeClamps d r
    valid := r.carried.valid || src != 13 && src != 15 }

/-- Where a SID's entry stands (R71, 00 R22). -/
def entryAt (sid : Nat) : Nat := 0x02000000 + 8 * sid

/-- The bytes of an entry that an accepted write stores (R71, R91): both words, or the one at +4 alone. -/
def touchEntry (s : Chip) (sid : Nat) (r : WriteReq) : Chip :=
  if r.value.isSome then touchWords s (entryAt sid) 8 else touchWords s (entryAt sid + 4) 4

/-- store_write of R95 on one SID: the state after it and what the recorder sees of it. -/
def storeWrite (s : Chip) (sid : Nat) (r : WriteReq) (w : Writer) : Chip × TxnWrite :=
  match Tab.get? s.store.decls sid with
  | .none => (countProd s sid w.src, ⟨sid, r.value.getD 0, r.carried.bits, 2, 0⟩)
  | .some d =>
    let e := s.entryOf sid d
    if !producerOk d w then (countProd s sid w.src, ⟨sid, r.value.getD e.value, r.carried.bits, 2, 0⟩)
    else if d.guard && srcIsHost w.src && !isHolder s w then
      (countGate s sid w.src, ⟨sid, r.value.getD e.value, r.carried.bits, 3, 0⟩)
    else if d.isOut && s.forced d.fgrp then (countForce s, ⟨sid, r.value.getD e.value, r.carried.bits, 4, 0⟩)
    else
      let v := if d.isOut then r.value.map (gateClamp d) else r.value
      let c := storedCarried d r w.src
      let s1 := if writeClamps d r then countClamp s else s
      let e' := acceptedEntry e v c w.src s.tb.tick
      let s2 := touchEntry (s1.setEntry sid e') sid r
      (s2, ⟨sid, e'.value, c.bits, b2n (writeClamps d r), (s2.storeRead sid).status⟩)

/-- The writes of one transaction, in order. -/
def storeWrites (s : Chip) (ws : List (Nat × WriteReq)) (w : Writer) : Chip × List TxnWrite :=
  ws.foldl (fun (acc : Chip × List TxnWrite) q =>
    let r := storeWrite acc.1 q.1 q.2 w
    (r.1, acc.2 ++ [r.2])) (s, [])

/-- A transaction of port `p` is counted (R116, R117). -/
def countPort (s : Chip) (p : Nat) : Chip :=
  let n := Tab.get 0 s.store.portTick p + 1
  let s1 := { s.bump (Reg.sigPcnt p) with store := { s.store with portTick := Tab.set 0 s.store.portTick p n } }
  if n > s1.rdF (Reg.sigPpeak p) 10 0 then s1.wrF (Reg.sigPpeak p) 10 0 (min n 2047) else s1

/-- The view of every declared SID as composed at this TICK (01 R47, R78). -/
def freezeView (s : Chip) : Tab StoreRead := s.store.entries.map (fun (k, _) => (k, s.storeRead k))

/-- The freeze of this tick (01 R47, R78): taken once. -/
def freezeStore (s : Chip) : Chip :=
  if s.store.froze then s else { s with store := { s.store with frozen := freezeView s, froze := true } }

/-- The views that a write stamped now must not reach: from phase 2,000 on the frozen view of this tick (01 R47), and from phase 9,500 on the
entries that the coach of the next tick takes (01 R50). -/
def keepViews (s : Chip) : Chip :=
  let s1 := if 2000 ≤ s.phaseRead then freezeStore s else s
  if 9500 ≤ s1.phaseRead && s1.store.cutView.isNone then
    { s1 with store := { s1.store with cutView := .some s1.store.entries } } else s1

/-- One store transaction (R85): its writes under R95, the port's counters, and its presentation to the recorder (R92) with the TAG and
further bytes of its raw record. -/
def transaction (s : Chip) (port : Nat) (w : Writer) (tag : Nat) (ws : List (Nat × WriteReq)) (body : List Byte) : Chip :=
  let (s1, outs) := storeWrites (keepViews s) ws w
  let s2 := countPort s1 port
  { s2 with notes := s2.notes ++
      [.txn ⟨port, w.src, tag, s2.tb.tick, s2.phaseRead, outs, body⟩] }

/-- What a P3 form asks for (R91). DESIGN CHOICE (notes/assumptions/9.md). DEDUCED (notes/assumptions/15.md). -/
def p3Request : P3Form → Option WriteReq
  | .value v => .some ⟨.some (s32 v), Carried.none⟩
  | .status w => .some ⟨.none, ⟨true, bit w 2, bit w 6, bit w 7⟩⟩
  | .both v w => .some ⟨.some (s32 v), ⟨true, bit w 2, bit w 6, bit w 7⟩⟩
  | .counters => .none

/-- W of a raw P3 record (11 R477) and the written status byte. -/
def p3Tag : P3Form → Nat × List Byte
  | .value _ => (1, [])
  | .status w => (2, [BitVec.ofNat 8 w.toNat])
  | .both _ _ => (3, [])
  | .counters => (0, [])

/-- The number of an agent in the arbiter: the cores 0–9, the host command engine 10 (R83). -/
def p3Agent (src : Nat) : Nat := min src 10

/-- A write of an agent (R88, R89): it enters the agent's queue of four, or, while that is full, is held behind it by the stalled core or the
flow control of its port. A write of WSEQ or AGE is ignored (R91). DESIGN CHOICE (notes/assumptions/9.md). -/
def p3Enqueue (s : Chip) (w : P3Write) : Chip :=
  let a := p3Agent w.src
  if w.form = .counters then s
  else { s with store := { s.store with p3q := Tab.set [] s.store.p3q a (Tab.get [] s.store.p3q a ++ [w]) } }

/-- The writes in an agent's queue, and those held behind it (R88, R89). -/
def p3Queue (s : Chip) (a : Nat) : List P3Write := (Tab.get [] s.store.p3q a).take 4
def p3Held (s : Chip) (a : Nat) : List P3Write := (Tab.get [] s.store.p3q a).drop 4

/-- A core's write is held, so the core stalls (R89). -/
def stalled (s : Chip) (c : Nat) : Bool := p3Held s c != []

/-- Every core halts: a write that a stalled core holds never enters its queue; those in the queues are still stamped (17 R778). -/
def p3Halt (s : Chip) : Chip :=
  { s with store := { s.store with p3q := (List.range 10).foldl (fun t c => Tab.set [] t c (p3Queue s c)) s.store.p3q } }

/-- An agent's access to the store ends what its last read of VALUE captured (R74). -/
def dropCapture (s : Chip) (reader : Nat) : Chip := { s with store := { s.store with caps := Tab.set .none s.store.caps reader .none } }

/-- The status of a pair of WRSIG that has been stamped (16 R737, R738). -/
def notePair (s : Chip) (w : P3Write) (out : Nat) : Chip :=
  match w.pair, Tab.get .none s.hst.wrsig w.src with
  | true, .some k =>
    { s with hst := { s.hst with wrsig := Tab.set .none s.hst.wrsig w.src (.some { k with done := k.done ++ [BitVec.ofNat 8 out] }) } }
  | _, _ => s

/-- The first agent from `start` round robin, among eleven, that has a write pending (R88). DESIGN CHOICE (notes/assumptions/69.md). -/
def p3Pick (q : Tab (List P3Write)) (start : Nat) : Option Nat :=
  ((List.range 11).map (fun i => (start + i) % 11)).find? (fun a => Tab.get [] q a != [])

/-- The arbiter takes one write, which gets its stamp now (R87, R88, R90). -/
def p3Take (s : Chip) : Chip :=
  match p3Pick s.store.p3q s.store.p3next with
  | .none => s
  | .some a =>
    match Tab.get [] s.store.p3q a with
    | [] => s
    | w :: rest =>
      let s1 := { s with store := { s.store with
          p3q := Tab.set [] s.store.p3q a rest, p3next := (a + 1) % 11 } }
      let by3 : Writer := ⟨w.src, .p3 false false false, w.sup⟩
      match p3Request w.form with
      | .none => s1
      | .some r => notePair (transaction s1 3 by3 (w.src % 32 + 32 * (p3Tag w.form).1) [(w.sid, r)] (p3Tag w.form).2) w
          (storeWrite s1 w.sid r by3).2.outcome

/-- An entry as its eight bytes were read (R71, 13 R590, R591): VALUE, the bits of STATUS that are stored, and WSEQ. -/
def Entry.asRead (e : Entry) (errs : List Nat) : Entry :=
  let st := errs.getD 4 0
  { e with
    value := intAs errs 0 4 e.value
    carried := ⟨e.carried.valid != natBit st 0, e.carried.ovr != natBit st 2, e.carried.sat != natBit st 6, e.carried.fault != natBit st 7⟩
    subst := e.subst != natBit st 3, held := e.held != natBit st 4, gated := e.gated != natBit st 5
    wseq := natAs errs 5 1 e.wseq }

/-- The composed read of a SID whose bytes were read with the differences `errs` (R75, R96, R111). -/
def seenRead (s : Chip) (sid : Nat) (errs : List Nat) : StoreRead :=
  match Tab.get? s.store.decls sid with
  | .some d => composeRead s d ((s.entryOf sid d).asRead errs) s.tb.tick
  | .none => undeclaredRead

/-- A consumer `src` reads `n` bytes from offset `o` of a SID's entry (R111, 13 R592): one that meets an uncorrectable error marks the entry,
counts and flags it; so does one of an entry that is marked. With it come the bits in which each byte of the entry was read differently.
DEDUCED (notes/assumptions/12.md). -/
def seeBytes (s : Chip) (src sid o n : Nat) : Chip × List Nat :=
  match Tab.get? s.store.decls sid with
  | .none => (s, [])
  | .some d =>
    let r := readSpan s src (entryAt sid + o) n
    let e := r.chip.entryOf sid d
    (if r.cls == 2 || e.ue then ((r.chip.setEntry sid { e with ue := true }).bump Reg.sigUecnt).sigFlag 4 else r.chip,
      List.replicate o 0 ++ r.errs)

/-- A consumer reads `n` bytes from offset `o` of a SID's entry, and composes what it read (R96, R111). -/
def lookBytes (s : Chip) (src sid o n : Nat) : Chip × StoreRead :=
  let r := seeBytes s src sid o n
  (r.1, seenRead r.1 sid r.2)

/-- A consumer reads a SID's whole entry, and composes what it read (R96, R111). -/
def lookEntry (s : Chip) (src sid : Nat) : Chip × StoreRead := lookBytes s src sid 0 8

/-- The word at +4 of an entry: STATUS, WSEQ and AGE (R71). -/
def fieldsWord (r : StoreRead) : Nat := r.status % 256 + r.wseq % 256 * 2 ^ 8 + r.age % 65536 * 2 ^ 16

/-- A read of an entry by a reader (R74, R96): of VALUE, which captures the rest for that reader; of the word at +4, which returns what was
captured when the reader's previous store access was the read of VALUE of the same SID, and the current fields otherwise; or of both.
DEDUCED (notes/assumptions/82.md). -/
def readEntry (s : Chip) (reader sid : Nat) (form : ReadForm) : Chip :=
  match form, Tab.get .none s.store.caps reader with
  | .value, _ =>
    let (s1, r) := lookBytes s reader sid 0 4
    { s1 with store := { s1.store with caps := Tab.set .none s1.store.caps reader (.some (sid, r)) } }.returnData reader (w32 r.value).toNat
  | .fields, .some (k, r) =>
    if k = sid then (dropCapture s reader).returnData reader (fieldsWord r)
    else
      let (s1, q) := lookBytes s reader sid 4 4
      (dropCapture s1 reader).returnData reader (fieldsWord q)
  | .fields, .none =>
    let (s1, q) := lookBytes s reader sid 4 4
    s1.returnData reader (fieldsWord q)
  | .both, _ =>
    let (s1, r) := lookBytes s reader sid 0 8
    (dropCapture s1 reader).returnData reader ((w32 r.value).toNat + fieldsWord r * 2 ^ 32)

/-- Force lines as the island sets them (R98–R101): a released line sets the stored SUBST of its group's OUT SIDs (R100). -/
def setForceLines (s : Chip) (lines : Nat) : Chip :=
  let old := s.rd Reg.sigForcestat
  let released : Nat → Bool := fun g => bit old g && !natBit lines g
  let mark : Nat × Entry → Nat × Entry := fun (k, e) =>
    match Tab.get? s.store.decls k with
    | .some d => if d.isOut && released d.fgrp then (k, { e with subst := true }) else (k, e)
    | .none => (k, e)
  let s1 := { s with store := { s.store with entries := s.store.entries.map mark } }
  s1.wr Reg.sigForcestat (wn (lines % 65536))

/-- A SID's last accepted write came from a host (R105). -/
def Entry.byHost (e : Entry) : Bool := match e.lastSrc with
  | .some c => srcIsHost c
  | .none => false

/-- A SID's last accepted write came from a core (R107). -/
def Entry.byCore (e : Entry) : Bool := match e.lastSrc with
  | .some c => srcIsCore c
  | .none => false

/-- The gate's mark on an entry at a change of holder (R105): GATED on a host-written GUARD SID, SUBST on one of class OUT with
LOSSPOL = FALLBACK. -/
def gateMark (s : Chip) : Nat × Entry → Nat × Entry := fun (k, e) =>
  match Tab.get? s.store.decls k with
  | .some d =>
    if d.guard && e.byHost then (k, { e with gated := true, subst := e.subst || (d.isOut && d.lossFallback) }) else (k, e)
  | .none => (k, e)

/-- A change of holder takes effect at the gate (R103, R105), also in the entries kept for the coach cut of the same phase.
DESIGN CHOICE (notes/assumptions/65.md). -/
def gateChange (s : Chip) (holder : Option Nat) : Chip :=
  { s with store := { s.store with
      entries := s.store.entries.map (gateMark s), cutView := s.store.cutView.map (·.map (gateMark s)), gateHolder := holder } }

/-- The Poermun as the coach cut reads it: with the entries as they stood at phase 9,500 (01 R50). -/
def cutChip (s : Chip) : Chip :=
  match s.store.cutView with
  | .some es => { s with store := { s.store with entries := es } }
  | .none => s

/-- The coach cut reads a SID as it stood at phase 9,500 (01 R50): a read that meets an uncorrectable error is composed as one (R96, R111). -/
def cutLook (s : Chip) (sid : Nat) : Chip × StoreRead :=
  let r := seeBytes s 15 sid 0 8
  (r.1, match Tab.get? s.store.decls sid with
    | .some d =>
      let e := (cutChip r.1).entryOf sid d
      composeRead r.1 d ({ e with ue := e.ue || (r.1.entryOf sid d).ue }.asRead r.2) r.1.tb.tick
    | .none => undeclaredRead)

/-- HELD at the reset of CORE (R107): SIDs of P1 and P2, and P3 SIDs last written by a core. -/
def setHeld (s : Chip) : Chip :=
  let mark : Nat × Entry → Nat × Entry := fun (k, e) =>
    match Tab.get? s.store.decls k with
    | .some d =>
      match d.producer with
      | .slot _ => (k, { e with held := true })
      | .chan _ _ => (k, { e with held := true })
      | .p3 _ _ _ => if e.byCore then (k, { e with held := true }) else (k, e)
      | .seat => (k, e)
    | .none => (k, e)
  { s with store := { s.store with entries := s.store.entries.map mark } }

/-- SIG_HELDCNT: the SIDs whose HELD is set (R108). -/
def heldCount (s : Chip) : Nat := (s.store.entries.filter (fun e => e.2.held)).length

/-- A SID in the frozen view (R75 for an undeclared one). DEDUCED (notes/assumptions/12.md). -/
def frozenRead (s : Chip) (sid : Nat) : StoreRead :=
  match Tab.get? s.store.frozen sid with
  | .some r => r
  | .none => undeclaredRead

/-- A SID in the frozen view as an evaluation reads it (01 R47, R96, R111): the frozen fields with the differences `errs` of the read; of an
entry that is marked uncorrectable it returns FAULT, and for a SID of class OUT the fallback with SUBST. DEDUCED (notes/assumptions/12.md). -/
def frozenSeen (s : Chip) (sid : Nat) (errs : List Nat) : StoreRead :=
  let f := frozenRead s sid
  match Tab.get? s.store.decls sid with
  | .none => f
  | .some d =>
    let bad := (s.entryOf sid d).ue
    let st := natAs errs 4 1 f.status
    let v := intAs errs 0 4 f.value
    if !bad then ⟨v, st, natAs errs 5 1 f.wseq, f.age⟩
    else ⟨if d.isOut then d.fallback else v, (wn st ||| wn (if d.isOut then 0x88 else 0x80)).toNat, natAs errs 5 1 f.wseq, f.age⟩

/-- SH attribute writes take effect at the tick boundary (R81). -/
def applyStoreShadow (s : Chip) : Chip :=
  let decls := s.store.shadow.foldl (fun t e => Tab.ins (Tab.erase t e.1) e.1 e.2) s.store.decls
  { s with store := { s.store with decls := decls, shadow := [], portTick := [], froze := false, gateDone := false, cutView := .none } }

/-- A consist's declarations come into force and every declared entry is initialised (R76, R114, R115). -/
def loadDecls (s : Chip) (ds : Tab SidDecl) : Chip :=
  let s1 := touchWords { s with store := { s.store with
      decls := ds, entries := ds.map (fun (k, d) => (k, initEntry d)), shadow := [], frozen := [] } } 0x02000000 0x200000
  ((s1.wr Reg.sigNdecl (wn ds.length)).wr Reg.sigNout (wn (ds.filter (fun d => d.2.isOut)).length)).wrBit Reg.sigStat 0 true

end Sys2Proof.Machine
end

