-- ==== Sys2Proof/Machine/Law.lean ====
section
/-!
DEFINITION. The control law of chapter 04, number by number: one evaluation as a function of the record in force, the slot
state, the inputs and the injected sample.
-/

namespace Sys2Proof.Machine

/-- A biquad section's coefficients, Q8.24 (04 R192). -/
structure BiquadK where
  b0 : Int
  b1 : Int
  b2 : Int
  a1 : Int
  a2 : Int
  deriving DecidableEq, Repr

/-- An input reference: USE and the SID (03 R135). -/
structure SidRef where
  use : Bool
  sid : Nat
  deriving DecidableEq, Repr

/-- A slot record as the law reads it (03 R133, R134). -/
structure SlotCfg where
  pidx : Nat
  k : Nat
  shed : Nat
  isLocal : Bool
  bq2en : Bool
  bq1en : Bool
  direct : Bool
  mode : Nat
  en : Bool
  pv : SidRef
  sp : SidRef
  ff : SidRef
  trk : SidRef
  outsid : Nat
  inner : Nat
  manval : Int
  kp : Int
  ki : Int
  kd : Int
  dfc : Int
  kff : Int
  dband : Int
  ramp : Int
  ihi : Int
  ilo : Int
  ohi : Int
  olo : Int
  orate : Int
  bq1 : BiquadK
  bq2 : BiquadK
  deriving DecidableEq, Repr

/-- The input reference of a word: USE in bit 31, the SID in [17:0] (03 R135). -/
def sidRef (w : Word) : SidRef := ⟨bit w 31, fld w 17 0⟩

/-- A slot record read from its 32 words (03 R133, R134). -/
def slotCfgOf (g : Nat → Word) : SlotCfg :=
  let c := g 0
  let bq := fun (o : Nat) =>
    (⟨s32 (g o), s32 (g (o + 1)), s32 (g (o + 2)), s32 (g (o + 3)), s32 (g (o + 4))⟩ : BiquadK)
  { pidx := fld c 27 16, k := fld c 15 12, shed := fld c 9 8, isLocal := bit c 7, bq2en := bit c 6, bq1en := bit c 5
    direct := bit c 4, mode := fld c 3 1, en := bit c 0
    pv := sidRef (g 1), sp := sidRef (g 2), ff := sidRef (g 3), trk := sidRef (g 4)
    outsid := fld (g 5) 17 0, inner := fld (g 6) 7 0, manval := s32 (g 7)
    kp := s32 (g 8), ki := s32 (g 9), kd := s32 (g 10), dfc := s32 (g 11), kff := s32 (g 12), dband := s32 (g 13)
    ramp := s32 (g 14), ihi := s32 (g 15), ilo := s32 (g 16), ohi := s32 (g 17), olo := s32 (g 18), orate := s32 (g 19)
    bq1 := bq 20, bq2 := bq 25 }

/-- What an evaluation reads: values and whether each is usable (04 R183, R184). -/
structure LawIn where
  pv : Int
  pvOk : Bool
  tgt : Int
  spOk : Bool
  ff : Int
  ffOk : Bool
  trk : Int
  trkOk : Bool
  deriving DecidableEq, Repr

/-- An input is usable with VALID set and FAULT, STALE and HELD clear (04 R184). -/
def usable (r : StoreRead) : Bool :=
  natBit r.status 0 && !natBit r.status 7 && !natBit r.status 1 && !natBit r.status 4

/-- Flag numbers of 04 R199 as bit masks. -/
def fPSAT : Nat := 1
/-- ISAT. -/
def fISAT : Nat := 2
/-- IHOLD. -/
def fIHOLD : Nat := 4
/-- DSAT. -/
def fDSAT : Nat := 8
/-- FFSAT. -/
def fFFSAT : Nat := 16
/-- SUMSAT. -/
def fSUMSAT : Nat := 32
/-- BQSAT. -/
def fBQSAT : Nat := 64
/-- OLIM. -/
def fOLIM : Nat := 128
/-- RLIM. -/
def fRLIM : Nat := 256
/-- PVBAD. -/
def fPVBAD : Nat := 512
/-- SPBAD. -/
def fSPBAD : Nat := 1024
/-- INBAD. -/
def fINBAD : Nat := 2048

/-- A flag if a condition holds. -/
def fif (b : Bool) (f : Nat) : Nat := if b then f else 0

/-- sat(x, F): sat32 and the flag if the value changed (04 R187). -/
def satF (x : Int) (f : Nat) : Int × Nat := (sat32 x, fif (sat32 x != x) f)

/-- One biquad section (04 R192): output, states, and BQSAT. -/
def biquad (k : BiquadK) (s1 s2 x : Int) : Int × Int × Int × Nat :=
  let y := satF (roundNE (k.b0 * x) 24 + s1) fBQSAT
  let n1 := satF (roundNE (k.b1 * x - k.a1 * y.1) 24 + s2) fBQSAT
  let n2 := satF (roundNE (k.b2 * x - k.a2 * y.1) 24) fBQSAT
  (y.1, n1.1, n2.1, y.2 ||| n1.2 ||| n2.2)

/-- div_ne(a, b): a / b to the nearest integer, ties to even, for b of either sign (04 R193). -/
def divNEs (a b : Int) : Int := if b < 0 then divNE (-a) b.natAbs else divNE a b.natAbs

/-- The settled states of one section for an output y, and its steady input (04 R193). -/
def settleOne (k : BiquadK) (y : Int) : Int × Int × Int :=
  let n := k.b0 + k.b1 + k.b2
  let x := if n = 0 then 0 else sat32 (divNEs (y * (2 ^ 24 + k.a1 + k.a2)) n)
  let s2 := sat32 (roundNE (k.b2 * x - k.a2 * y) 24)
  let s1 := sat32 (roundNE (k.b1 * x - k.a1 * y) 24 + s2)
  (x, s1, s2)

/-- biquad_settle of 04 R193: the state with the enabled sections settled on output y, and the steady input of the first. -/
def biquadSettle (c : SlotCfg) (st : SlotState) (y : Int) : SlotState × Int :=
  let r2 := settleOne c.bq2 y
  let (st2, y2) := if c.bq2en then ({ st with b2s1 := r2.2.1, b2s2 := r2.2.2 }, r2.1) else (st, y)
  let r1 := settleOne c.bq1 y2
  if c.bq1en then ({ st2 with b1s1 := r1.2.1, b1s2 := r1.2.2 }, r1.1) else (st2, y2)

/-- A sample to be injected: its point and value (05 R219); none where no injection runs into the slot. -/
abbrev Inject := Option (Nat × Int)

/-- The sample applied at a point in an effective mode (05 R219): 0 elsewhere. -/
def injAt (inj : Inject) (point mode : Nat) : Int :=
  match inj with
  | .none => 0
  | .some (p, v) => if p = point && (mode == 2 || (p == 2 && mode == 1)) then v else 0

/-- The sample is replaced by 0 in this effective mode (05 R219). -/
def injReplaced (inj : Inject) (mode : Nat) : Bool :=
  match inj with
  | .none => false
  | .some (p, _) => !(mode == 2 || (p == 2 && mode == 1))

/-- What an evaluation gives: the next state, the output, the flags kept, whether it ran as a substituted HOLD, whether it was an
entry and a clamped entry, the error the P term used, and the value injected. -/
structure LawOut where
  st : SlotState
  y : Int
  flags : Nat
  sub : Bool
  entry : Bool
  clampedEntry : Bool
  err : Int
  inj : Int
  injZero : Bool
  deriving DecidableEq, Repr

/-- The effective mode and whether it is a substituted HOLD (04 R185, R195); modes 0 OFF to 4 HOLD. -/
def effMode (c : SlotCfg) (i : LawIn) : Nat × Bool :=
  let sub := (c.mode == 2 && !i.pvOk) || (c.mode == 3 && !i.trkOk)
  (if sub then 4 else c.mode, sub)

/-- Input flags (04 R185). -/
def inFlags (i : LawIn) : Nat :=
  fif (!i.pvOk) fPVBAD ||| fif (!i.spOk) fSPBAD ||| fif (!i.ffOk) fINBAD ||| fif (!i.trkOk) fINBAD

/-- Step 1, the setpoint ramp (04 R187). -/
def lawRamp (c : SlotCfg) (st : SlotState) (i : LawIn) (mode : Nat) : Int :=
  let tgt := if i.spOk then i.tgt else st.spr
  if mode = 4 then st.spr
  else if mode ≠ 2 then (if i.pvOk then i.pv else st.spr)
  else if c.ramp ≤ 0 then tgt
  else min (max tgt (sat32 (st.spr - c.ramp))) (sat32 (st.spr + c.ramp))

/-- The deadband of step 2 (04 R187, R189). -/
def deadband (db e : Int) : Int :=
  let d := max db 0
  if e > d then e - d else if e < -d then e + d else 0

/-- Step 2 with samples at points 0 and 1 (04 R187, 05 R219). -/
def lawErr (c : SlotCfg) (spr pv : Int) (inj : Inject) (mode : Nat) : Int × Nat :=
  let e0 := satF (spr + injAt inj 0 mode - pv) fPSAT
  let e1 := deadband c.dband e0.1
  match inj with
  | .some (1, _) =>
    let e2 := satF (e1 + injAt inj 1 mode) fPSAT
    (e2.1, e0.2 ||| e2.2)
  | _ => (e1, e0.2)

/-- Step 4, the derivative filter state (04 R187, R190). -/
def lawDeriv (c : SlotCfg) (st : SlotState) (pv : Int) : Int × Nat :=
  let d := if st.pvlValid then satF (roundNE (c.kd * (st.pvl - pv)) 24) fDSAT else (0, 0)
  let a := clampI c.dfc 0 (2 ^ 24)
  let n := satF (st.dst + roundNE (a * (d.1 - st.dst)) 24) fDSAT
  (n.1, d.2 ||| n.2)

/-- Step 6, the increment with the integration hold (04 R191). -/
def lawInc (c : SlotCfg) (outPrev e : Int) : Int × Nat :=
  let inc := c.ki * e
  if (decide (outPrev ≥ c.ohi) && decide (inc > 0)) || (decide (outPrev ≤ c.olo) && decide (inc < 0)) then (0, fIHOLD) else (inc, 0)

/-- The integrator brought into its format and its clamps, with ISAT (04 R187). -/
def lawIntClamp (c : SlotCfg) (integ : Int) : Int × Nat :=
  let ilo := c.ilo * 2 ^ 24
  let ihi := c.ihi * 2 ^ 24
  let it := clampI (sat64 integ) ilo ihi
  (it, fif (sat64 integ != integ) fISAT ||| fif (it != sat64 integ) fISAT)

/-- Step 8, the rate limit (04 R187, R194). -/
def lawRate (c : SlotCfg) (mode : Nat) (outPrev y : Int) : Int × Nat :=
  if mode ≠ 0 ∧ c.orate > 0 then
    let lo := sat32 (outPrev - c.orate)
    let hi := sat32 (outPrev + c.orate)
    if y < lo ∨ y > hi then (clampI y lo hi, fRLIM) else (y, 0)
  else (y, 0)

/-- Step 8, the output the mode selects (04 R187, R195). -/
def lawSelect (c : SlotCfg) (mode : Nat) (u trk outPrev : Int) : Int :=
  if mode = 2 then u else if mode = 1 then c.manval else if mode = 3 then trk else if mode = 4 then outPrev else 0

/-- One evaluation (04 R187), with the injected sample (05 R219). -/
def lawEval (c : SlotCfg) (st : SlotState) (i : LawIn) (inj : Inject) : LawOut :=
  let outPrev := st.out
  let (mode, sub) := effMode c i
  let entry := mode != st.mode
  let f := inFlags i
  let ff := if i.ffOk then i.ff else 0
  let spr := lawRamp c st i mode
  let (e, gE) := lawErr c spr i.pv inj mode
  let p := satF (roundNE (c.kp * e) 24) fPSAT
  let (dst, gD) := lawDeriv c st i.pv
  let fft := satF (roundNE (c.kff * ff) 24) fFFSAT
  let enterAuto := mode == 2 && entry
  let (st1, x0) := if enterAuto then biquadSettle c st outPrev else (st, 0)
  let (inc, gI) := if enterAuto then (0, 0) else lawInc c outPrev e
  let integ := if enterAuto then (x0 - p.1 - dst - fft.1) * 2 ^ 24 else st.integ + inc
  let clamped := enterAuto && (decide (integ < c.ilo * 2 ^ 24) || decide (integ > c.ihi * 2 ^ 24))
  let (it, gC) := lawIntClamp c integ
  let iT := satF (roundNE it 24) fISAT
  let u0 := satF (p.1 + iT.1 + dst + fft.1) fSUMSAT
  let r1 := biquad c.bq1 st1.b1s1 st1.b1s2 u0.1
  let (u1, n11, n12, gB1) := if c.bq1en then r1 else (u0.1, st1.b1s1, st1.b1s2, 0)
  let r2 := biquad c.bq2 st1.b2s1 st1.b2s2 u1
  let (u2, n21, n22, gB2) := if c.bq2en then r2 else (u1, st1.b2s1, st1.b2s2, 0)
  let y0 := lawSelect c mode u2 (if i.trkOk then i.trk else outPrev) outPrev
  let (y1, gInj) := match inj with
    | .some (2, _) => satF (y0 + injAt inj 2 mode) fSUMSAT
    | _ => (y0, 0)
  let (y2, fR) := lawRate c mode outPrev y1
  let y3 := clampI y2 c.olo c.ohi
  let fL := fif (y3 != y2) fOLIM
  let g := gE ||| p.2 ||| gD ||| fft.2 ||| gI ||| gC ||| iT.2 ||| u0.2 ||| gB1 ||| gB2 ||| gInj
  let flags := f ||| fR ||| fL ||| fif (mode == 2) g
  let stM :=
    if mode = 2 then { st1 with integ := it, dst := dst, b1s1 := n11, b1s2 := n12, b2s1 := n21, b2s2 := n22 }
    else if mode = 0 then { st1 with integ := 0, dst := 0, b1s1 := 0, b1s2 := 0, b2s1 := 0, b2s2 := 0 }
    else if mode = 4 then st1
    else { st1 with dst := dst }
  { st := { stM with
      spr := spr, pvl := if i.pvOk then i.pv else stM.pvl, pvlValid := i.pvOk, out := y3, mode := mode
      flags := stM.flags ||| flags, wasSub := sub }
    y := y3, flags := flags, sub := sub, entry := entry, clampedEntry := clamped, err := e
    inj := injAt inj 0 mode + injAt inj 1 mode + injAt inj 2 mode, injZero := injReplaced inj mode }

/-- The commit of an evaluation carries SAT for these flags (04 R202). -/
def satFlags : Nat := fPSAT ||| fISAT ||| fDSAT ||| fFFSAT ||| fSUMSAT ||| fBQSAT ||| fOLIM ||| fRLIM

/-- The journal record of an evaluation (03 R158, 04 R203). -/
def jrecOf (st : SlotState) (tick : Nat) : JRec :=
  ⟨st.integ, st.out, st.spr, st.dst, st.pvl, tick % 2 ^ 32, st.mode, st.flags⟩

end Sys2Proof.Machine
end

