-- ==== Sys2Proof/Machine/Inject.lean ====
section
/-!
DEFINITION. The injection generator of chapter 05: waveforms and the end of an injection; and the events of a tile.
-/

namespace Sys2Proof.Machine

/-- Event e of tile t: flag e of LTt_EVT (03 R176). -/
def Chip.tileFlag (s : Chip) (t e : Nat) : Chip :=
  s.flag (Reg.ltEvt t) (Reg.ltEvten t) e (512 + 16 * t + e)

/-- The generator and capture unit of a tile. -/
def Chip.tuneOf (s : Chip) (t : Nat) : TuneUnit := Tab.get TuneUnit.zero s.eng.tune t

/-- The generator and capture unit of a tile replaced. -/
def Chip.setTune (s : Chip) (t : Nat) (u : TuneUnit) : Chip :=
  { s with eng := { s.eng with tune := Tab.set TuneUnit.zero s.eng.tune t u } }

/-- π scaled by 2^96. -/
def piScaled : Nat := 0x3243f6a8885a308d313198a2e

/-- The remaining terms of the sine series, scaled by 2^96: `k` is the index of the next term, `t` the last term. -/
def sinTerms : Nat → Nat → Nat → Nat → Int
  | 0, _, _, _ => 0
  | f + 1, k, x2, t =>
    let t' : Nat := t * x2 / 2 ^ 96 / ((2 * k) * (2 * k + 1))
    (if k % 2 = 1 then -(t' : Int) else (t' : Int)) + sinTerms f (k + 1) x2 t'

/-- 2^30 × sin(π × i / 32,768) rounded to the nearest integer, for i from 0 to 16,384. -/
def sinQuarter (i : Nat) : Int :=
  let x := piScaled * i / 32768
  let v := (x : Int) + sinTerms 15 1 (x * x / 2 ^ 96) x
  (v * 2 ^ 31 + 2 ^ 96) / 2 ^ 97

/-- SIN16 of 05 R216: 2^30 × sin(2π × i / 65,536) rounded to the nearest integer. -/
def sin16 (i : Nat) : Int :=
  let q := i % 65536 / 16384
  let r := i % 16384
  if q = 0 then sinQuarter r
  else if q = 1 then sinQuarter (16384 - r)
  else if q = 2 then -sinQuarter r
  else -sinQuarter (16384 - r)

/-- The feedback taps of the PRBS register (05 R214). -/
def prbsTaps : Nat → List Nat
  | 7 => [7, 6] | 8 => [8, 6, 5, 4] | 9 => [9, 5] | 10 => [10, 7] | 11 => [11, 9] | 12 => [12, 6, 4, 1]
  | 13 => [13, 4, 3, 1] | 14 => [14, 5, 3, 1] | 15 => [15, 14] | 16 => [16, 15, 13, 4] | 17 => [17, 14] | 18 => [18, 11]
  | 19 => [19, 6, 2, 1] | 20 => [20, 17] | 21 => [21, 19] | 22 => [22, 21] | 23 => [23, 18]
  | _ => []

/-- prbs_bit of 05 R215: the new bit and the register. -/
def prbsBit (n reg : Nat) : Bool × Nat :=
  let fb := (prbsTaps n).foldl (fun b t => Bool.xor b (natBit reg (t - 1))) false
  (fb, (reg * 2 + fb.toNat) % 2 ^ n)

/-- HOLD or DEC: 0 means 256 (05 R237, R243). -/
def or256 (n : Nat) : Nat := if n = 0 then 256 else n

/-- The increment after one sample of a sweep (05 R216); beyond 64 bits the spec states none and the value is free.
DESIGN CHOICE (notes/assumptions/16.md). -/
def sweepInc (inc m : Nat) : Nat :=
  if m = 0 ∨ m = 2 ^ 31 then inc
  else
    let x := (roundNE ((inc * m : Nat) : Int) 31).toNat
    if x < 2 ^ 64 then x else Config.sweepOver x % 2 ^ 64

/-- The generator's state at a START (05 R215, R216, R217); a capture armed before it waits for this injection (R231). -/
def startGen (s : Chip) (t : Nat) : TuneUnit :=
  let n := s.rdF (Reg.ltInjctl t) 20 16
  let seed := (s.rd (Reg.ltInjp1 t)).toNat % 2 ^ n
  { s.tuneOf t with
    prbs := if seed = 0 then 2 ^ n - 1 else seed
    prbsOut := false, phi := 0, samples := 0, injNow := false, capNext := true
    inc := (s.rd (Reg.ltInjp1 t)).toNat * 2 ^ 32 }

/-- The index of the table word that the next sample takes, with WAVE = 3 (05 R217). -/
def tableIndex (s : Chip) (t : Nat) : Option Nat :=
  if s.rdF (Reg.ltInjctl t) 1 0 = 3 then
    .some ((s.tuneOf t).samples / or256 (s.rdF (Reg.ltInjctl t) 31 24) % (s.rd (Reg.ltInjp1 t)).toNat)
  else .none

/-- Sample j of the waveform in force, and the generator after it (05 R213–R217); `err` are the bits in which the table word was read
differently. -/
def nextSample (s : Chip) (t err : Nat) : Int × TuneUnit :=
  let u := s.tuneOf t
  let amp := s32 (s.rd (Reg.ltInjamp t))
  let hold := or256 (s.rdF (Reg.ltInjctl t) 31 24)
  match s.rdF (Reg.ltInjctl t) 1 0 with
  | 0 => (amp, u)
  | 1 =>
    let u' := if u.samples % hold = 0 then
        let r := prbsBit (s.rdF (Reg.ltInjctl t) 20 16) u.prbs
        { u with prbs := r.2, prbsOut := r.1 }
      else u
    (if u'.prbsOut then amp else -amp, u')
  | 2 =>
    (roundNE (amp * sin16 (u.phi / 65536)) 30,
      { u with phi := (u.phi + u.inc / 2 ^ 32) % 2 ^ 32, inc := sweepInc u.inc (s.rd (Reg.ltInjp3 t)).toNat })
  | _ =>
    let n := (s.rd (Reg.ltInjp1 t)).toNat
    let i := u.samples / hold % n
    (sat32 (roundNE (amp * s32 (Tab.get 0 s.eng.injTab (4096 * t + i) ^^^ wn err)) 24), u)

/-- A sweep has reached its end at this sample (05 R226, SWEEPEND): `inc` is the increment the sample used. -/
def sweepEnded (s : Chip) (t inc : Nat) : Bool :=
  let m := (s.rd (Reg.ltInjp3 t)).toNat
  let e := (s.rd (Reg.ltInjp2 t)).toNat
  s.rdF (Reg.ltInjctl t) 1 0 == 2 && e != 0 &&
    ((decide (m > 2 ^ 31) && decide (inc / 2 ^ 32 ≥ e)) || (m != 0 && decide (m < 2 ^ 31) && decide (inc / 2 ^ 32 ≤ e)))

/-- An injection ends with a cause (05 R226): RUN 0, CAUSE, INJEND, and INJABN for ABORT, DISABLE and SHED. One that a restart ends (cause 7)
starts no count of a capture's POST records: the capture ends with the restart too (R233, R234). One that ends before its sample 0 leaves a capture
armed with SRC = 1 armed, for the next injection that comes to a sample: R231 and R233 leave it open.
DESIGN CHOICE (notes/assumptions/88.md). -/
def endInjection (s : Chip) (t cause : Nat) : Chip :=
  let s1 := (s.wrBit (Reg.ltInjstat t) 0 false).wrF (Reg.ltInjstat t) 7 4 cause
  let s2 := s1.tileFlag t 8
  let s3 := if cause = 4 ∨ cause = 5 ∨ cause = 6 then s2.tileFlag t 9 else s2
  let u := s3.tuneOf t
  s3.setTune t { u with injNow := true, capInjEnded := if cause = 7 then u.capInjEnded else u.capInjSeen }

/-- A cause of the moment at which the injection has already ended: the higher code stands (05 R226). -/
def raiseCause (s : Chip) (t cause : Nat) : Chip :=
  if (s.tuneOf t).injNow && decide (s.rdF (Reg.ltInjstat t) 7 4 < cause) then
    let s1 := s.wrF (Reg.ltInjstat t) 7 4 cause
    if cause = 4 ∨ cause = 5 ∨ cause = 6 then s1.tileFlag t 9 else s1
  else s

/-- A refusal of this chapter: the code to the status register of the unit, and LTt_EVT bit 11 (05 R225, R232). -/
def tuneRefuse (s : Chip) (t reg code : Nat) : Chip := (s.wrF reg 11 8 code).tileFlag t 11

/-- A capture ends with a cause (05 R233); where it has ended at this moment already, the higher code stands. -/
def endCapture (s : Chip) (t cause : Nat) : Chip :=
  if s.rdF (Reg.ltCapstat t) 1 0 ≠ 0 then
    let s1 := (s.wrF (Reg.ltCapstat t) 1 0 0).wrF (Reg.ltCapstat t) 7 4 cause
    (s1.setTune t { s1.tuneOf t with capNow := true }).tileFlag t 10
  else if (s.tuneOf t).capNow && decide (s.rdF (Reg.ltCapstat t) 7 4 < cause) then s.wrF (Reg.ltCapstat t) 7 4 cause
  else s

/-- A moment of the tile begins at which several causes may end its injection or its capture (05 R226, R233). -/
def newMoment (s : Chip) (t : Nat) : Chip :=
  if (s.tuneOf t).injNow || (s.tuneOf t).capNow then s.setTune t { s.tuneOf t with injNow := false, capNow := false } else s

end Sys2Proof.Machine
end

