-- ==== Sys2Proof/Machine/Local.lean ====
section
/-!
DEFINITION. The limits of local loops (01 R53, R54): word timing of feedback channels (09 R407) and converter tables (10 R447).
-/

namespace Sys2Proof.Machine

/-- Twice the phase, in ns, at which a serial word's sample is stamped: (LEN − 0.5) × P + 5 × DLY + 10 (09 R402, R407). -/
def fbStamp2 (s : Chip) (n : Nat) : Nat :=
  let w := s.rd (Reg.fbSer n)
  (2 * fld w 13 8 - 1) * 5 * fld w 7 0 + 10 * fld w 31 26 + 20

/-- A serial channel's word is stamped by phase 1,999; the other modes sample at phase 20 (09 R407). -/
def fbTimely (s : Chip) (n : Nat) : Bool := s.rdF (Reg.fbCtl n) 3 1 != 2 || decide (fbStamp2 s n ≤ 3998)

/-- A word of entry e of a converter's table (10 R441). -/
def adcWord (s : Chip) (k e hi : Nat) : Word := s.rd (0x11400000 + 0x20000 * k + 0x400 + 8 * e + 4 * hi)

/-- Entries in use. -/
def adcNent (s : Chip) (k : Nat) : Nat := s.rdF (Reg.adcCtl k) 14 8

/-- SYNC of an entry. -/
def entrySync (s : Chip) (k e : Nat) : Bool := bit (adcWord s k e 1) 9

/-- The time an entry takes: settling and conversions, in ns (10 R442). -/
def entryTime (s : Chip) (k e : Nat) : Nat :=
  let w := adcWord s k e 1
  fld w 23 16 * 50 + (fld w 7 4 + 1) * 500

/-- The table from a SYNC entry to the entry before the next one, cyclically for LOOP = 1; `fuel` bounds the run. -/
def syncRun (s : Chip) (k : Nat) : Nat → Nat → List Nat
  | 0, _ => []
  | fuel + 1, e =>
    if e ≥ adcNent s k then
      if s.rdBit (Reg.adcCtl k) 1 then (if adcNent s k = 0 ∨ entrySync s k 0 then [] else 0 :: syncRun s k fuel 1) else []
    else if entrySync s k e then []
    else e :: syncRun s k fuel (e + 1)

/-- The run that a SYNC entry starts. -/
def runFrom (s : Chip) (k e : Nat) : List Nat := e :: syncRun s k (adcNent s k) (e + 1)

/-- SYNC entries of the table. -/
def syncEntries (s : Chip) (k : Nat) : List Nat := (List.range (adcNent s k)).filter (entrySync s k)

/-- Each entry of a run with the time from the run's start to its end. -/
def runEnds (s : Chip) (k : Nat) (run : List Nat) : List (Nat × Nat) :=
  (run.foldl (fun (acc : Nat × List (Nat × Nat)) e =>
    let t := acc.1 + entryTime s k e
    (t, acc.2 ++ [(e, t)])) (0, [])).2

/-- Every run from a SYNC entry lasts at most 9,980 ns (10 R447). -/
def adcRunsOk (s : Chip) (k : Nat) : Bool :=
  (syncEntries s k).all (fun e => (runEnds s k (runFrom s k e)).all (fun p => decide (p.2 ≤ 9980)))

/-- Entry e is stamped at or before phase 1,999 in a run that starts at phase 0 (10 R447). -/
def entryTimely (s : Chip) (k e : Nat) : Bool :=
  (syncEntries s k).any (fun y => (runEnds s k (runFrom s k y)).any (fun p => p.1 == e && decide (p.2 + 20 ≤ 1999)))

/-- Every table entry that writes a SID is stamped in time (10 R447). -/
def adcSidTimely (s : Chip) (k sid : Nat) : Bool :=
  (List.range (adcNent s k)).all (fun e =>
    !(bit (adcWord s k e 0) 31 && fld (adcWord s k e 0) 17 0 == sid) || entryTimely s k e)

/-- A SID that a converter or a feedback channel produces meets the limits of a local loop (01 R54). -/
def sidTimely (s : Chip) (sid : Nat) : Bool :=
  match Tab.get? s.store.decls sid with
  | .some d => match d.producer with
    | .chan 1 n => fbTimely s n
    | .chan 2 k => adcSidTimely s k sid
    | _ => true
  | .none => true

/-- The SID is produced by a converter entry or a feedback channel. -/
def sidLocal (s : Chip) (sid : Nat) : Bool :=
  match Tab.get? s.store.decls sid with
  | .some d => match d.producer with
    | .chan 1 _ => true
    | .chan 2 _ => true
    | _ => false
  | .none => false

/-- The inputs of a LOCAL slot, its PVSID first, meet 01 R54. -/
def localOk (s : Chip) (sids : List Nat) : Bool :=
  (match sids with
    | pv :: _ => sidLocal s pv
    | [] => false) && sids.all (sidTimely s)

/-- The SIDs that a LOCAL slot reads: the PVSID, and each input with USE = 1 (01 R54). -/
def localInputs (c : SlotCfg) : List Nat :=
  if c.isLocal then c.pv.sid :: (([c.sp, c.ff, c.trk].filter (·.use)).map (·.sid)) else []

/-- LIDs with a record that is not all zero in its CTL word. -/
def recordLids (s : Chip) : List Nat := (s.eng.recs.filter (fun e => e.1 % 32 == 0)).map (fun e => e.1 / 32)

/-- The SID feeds a local loop (01 R54). -/
def feedsLocal (s : Chip) (sid : Nat) : Bool :=
  (recordLids s).any (fun lid => (localInputs (slotCfgOf (fun w => Tab.get 0 s.eng.recs (32 * lid + w)))).contains sid)

/-- A converter's table may run (10 R447). -/
def adcTableOk (s : Chip) (k : Nat) : Bool :=
  adcRunsOk s k && (List.range (adcNent s k)).all (fun e =>
    !(bit (adcWord s k e 0) 31 && feedsLocal s (fld (adcWord s k e 0) 17 0)) || entryTimely s k e)

/-- A feedback channel may run (09 R407). -/
def fbStartOk (s : Chip) (n : Nat) : Bool :=
  let feeds := fun a => s.rdBit a 31 && feedsLocal s (s.rdF a 17 0)
  fbTimely s n || !(feeds (Reg.fbPossid n) || feeds (Reg.fbSpdsid n))

end Sys2Proof.Machine
end

