-- ==== Sys2Proof/Machine/Tiles.lean ====
section
/-!
DEFINITION. Loop tiles (chapter 03): record writes and their checks, the commit point, the due set, evaluations, the commit at
phase 9,000 with journal and capture.
-/

namespace Sys2Proof.Machine

/-- Word `w` of a slot record in force. -/
def recWord (s : Chip) (lid w : Nat) : Word := Tab.get 0 s.eng.recs (32 * lid + w)

/-- A slot record in force (03 R133). -/
def slotCfg (s : Chip) (lid : Nat) : SlotCfg := slotCfgOf (recWord s lid)

/-- The state of a slot's law. -/
def slotSt (s : Chip) (lid : Nat) : SlotState := Tab.get SlotState.zero s.eng.slots lid

/-- The state of a slot's law replaced. -/
def setSlotSt (s : Chip) (lid : Nat) (x : SlotState) : Chip :=
  { s with eng := { s.eng with slots := Tab.set SlotState.zero s.eng.slots lid x } }

/-- Where a slot's state stands in its tile (03 R177). -/
def slotStateAt (lid : Nat) : Nat := 0x18008000 + 0x100000 * (lid / 256) + 64 * (lid % 256)

/-- A record word in force replaced, and marked for the mirror (03 R159). -/
def setRecWord (s : Chip) (lid w : Nat) (v : Word) : Chip :=
  touchWords { s with eng := { s.eng with
      recs := Tab.set 0 s.eng.recs (32 * lid + w) v, dirty := s.eng.dirty ++ [32 * lid + w] } }
    (0x18000000 + 0x100000 * (lid / 256) + 128 * (lid % 256) + 4 * w) 4

/-- The shadow queue of a tile. -/
def shq (s : Chip) (t : Nat) : List ShCmd := Tab.get [] s.eng.shq t

/-- The shadow queue of a tile replaced. -/
def setShq (s : Chip) (t : Nat) (q : List ShCmd) : Chip :=
  { s with eng := { s.eng with shq := Tab.set [] s.eng.shq t q } }

/-- The word with the bits of `mask` taken from `v`. -/
def merge (old v : Word) (mask : Nat) : Word := (old &&& ~~~ (wn mask)) ||| (v &&& wn mask)

/-- A record word as it will stand once the waiting writes of its tile are applied (03 R140). -/
def recEff (s : Chip) (lid w : Nat) : Word :=
  (shq s (lid / 256)).foldl (fun x c => match c with
    | .word sl w' v m => if sl = lid % 256 ∧ w' = w then merge x v m else x
    | _ => x) (recWord s lid w)

/-- A slot record as it will stand once the waiting writes are applied. -/
def slotEff (s : Chip) (lid : Nat) : SlotCfg := slotCfgOf (recEff s lid)

/-- An enable of the slot waits in its tile's shadow queue (03 R139). -/
def enableWaits (s : Chip) (lid : Nat) : Bool :=
  (shq s (lid / 256)).any (fun c => match c with
    | .word sl w v m => sl == lid % 256 && w == 0 && natBit m 0 && bit v 0
    | _ => false)

/-- CTL bits by class (03 R134). -/
def ctlCs : Nat := 0x0FFFF390
/-- The SH bits of CTL. -/
def ctlSh : Nat := 0x61
/-- The LV bits of CTL. -/
def ctlLv : Nat := 0xE

/-- The bits of record word `w` that are CS, SH and LV (03 R133, R134, R135); reserved bits are in none (00 R17). -/
def wordCs (w : Nat) : Nat :=
  if w = 0 then ctlCs else if w ≤ 4 ∧ 1 ≤ w then 0x8003FFFF else if w = 5 then 0x3FFFF else if w = 6 then 0xFF else 0
/-- The SH bits of record word `w`. -/
def wordSh (w : Nat) : Nat := if w = 0 then ctlSh else if 8 ≤ w ∧ w ≤ 29 then 0xFFFFFFFF else 0
/-- The LV bits of record word `w`. -/
def wordLv (w : Nat) : Nat := if w = 0 then ctlLv else if w = 7 then 0xFFFFFFFF else 0

/-- The slot counts in its tile's load: enabled in force or with an enable waiting (03 R145). -/
def countsInLoad (s : Chip) (lid : Nat) : Bool := bit (recWord s lid 0) 0 || enableWaits s lid

/-- Rate exponent and phase index of the slots of a tile that count in its load. -/
def loadSlotsOf (s : Chip) (t : Nat) : List (Nat × Nat) :=
  (((List.range 256).map (fun sl => 256 * t + sl)).filter (countsInLoad s)).map (fun lid => ((slotEff s lid).k, (slotEff s lid).pidx))

/-- Load entry r of a tile (03 R145). -/
def loadEntry (s : Chip) (t r : Nat) : Nat := ((loadSlotsOf s t).filter (fun x => r % 2 ^ x.1 == x.2)).length

/-- The largest load entry of a tile (03 R169). -/
def loadMax (s : Chip) (t : Nat) : Nat :=
  let l := loadSlotsOf s t
  (List.range 4096).foldl (fun m r => max m (l.filter (fun x => r % 2 ^ x.1 == x.2)).length) 0

/-- Slots of a tile with EN in force (03 R170). -/
def enabledCount (s : Chip) (t : Nat) : Nat := countBelow 256 (fun sl => bit (recWord s (256 * t + sl) 0) 0)

/-- CTL values that RANGE refuses (03 R140). -/
def ctlRangeOk (c : Word) : Bool :=
  decide (fld c 15 12 ≤ 12) && decide (fld c 27 16 < 2 ^ fld c 15 12) && decide (fld c 3 1 ≤ 4) && decide (fld c 9 8 ≠ 3)

/-- RANGE at a write of word `w` (03 R140): the CTL fields, and PVSID with USE = 0. -/
def wordRangeOk (w : Nat) (v : Word) : Bool :=
  if w = 0 then ctlRangeOk v else if w = 1 then bit v 31 else true

/-- PRODUCER at a write of word `w` (03 R140). -/
def wordProducerOk (s : Chip) (lid w : Nat) (v : Word) : Bool :=
  if w = 5 then
    match Tab.get? s.store.decls (fld v 17 0) with
    | .some d => d.producer == .slot lid
    | .none => false
  else if 1 ≤ w ∧ w ≤ 4 then !bit v 31 || (Tab.get? s.store.decls (fld v 17 0)).isSome
  else true

/-- One direct cascade of outer `o` into inner `i` on a tile keeps the rules of 03 R152. -/
def directOk (s : Chip) (t o i : Nat) : Bool :=
  let co := slotEff s (256 * t + o)
  let ci := slotEff s (256 * t + i)
  decide (i > o) && !ci.sp.use && decide (co.k ≥ ci.k) && co.pidx % 2 ^ ci.k == ci.pidx &&
    (List.range 256).all (fun x => x == o || !((slotEff s (256 * t + x)).direct && (slotEff s (256 * t + x)).inner == i))

/-- The direct cascades that name slot `sl` of a tile, on either side, keep 03 R152. -/
def directRulesOk (s : Chip) (t sl : Nat) : Bool :=
  let c := slotEff s (256 * t + sl)
  (!c.direct || directOk s t sl c.inner) &&
    (List.range 256).all (fun o =>
      let co := slotEff s (256 * t + o)
      !(co.direct && co.inner == sl) || directOk s t o sl)

/-- The cascades across tiles that name a slot, on either side, keep 03 R155; a slot counts as enabled as its waiting writes leave it (R140).
DEDUCED (notes/assumptions/83.md). -/
def crossRulesOk (s : Chip) (lid : Nat) : Bool :=
  let c := slotEff s lid
  let asInner := match c.sp.use, Tab.get? s.store.decls c.sp.sid with
    | true, .some d => match d.producer with
      | .slot o => o / 256 == lid / 256 || (slotEff s o).outsid != c.sp.sid || decide ((slotEff s o).k ≥ c.k)
      | _ => true
    | _, _ => true
  let asOuter := (List.range 4096).all (fun i =>
    i / 256 == lid / 256 || !bit (recEff s i 0) 0 || !((slotEff s i).sp.use && (slotEff s i).sp.sid == c.outsid) ||
      decide (c.k ≥ (slotEff s i).k))
  asInner && asOuter

/-- The SIDs that feed a slot's inputs with USE = 1 (01 R54). -/
def usedInputs (c : SlotCfg) : List Nat :=
  ([c.pv, c.sp, c.ff, c.trk].filter (fun r => r.use)).map (fun r => r.sid)

/-- Every load entry that a waiting enable raises stays at or below 64 (03 R146). -/
def budgetOk (s : Chip) (lid : Nat) : Bool :=
  let c := slotEff s lid
  let l := loadSlotsOf s (lid / 256)
  (List.range 4096).all (fun r => r % 2 ^ c.k != c.pidx || decide ((l.filter (fun x => r % 2 ^ x.1 == x.2)).length ≤ 64))

/-- RANGE of every word of a record, with the limits of a local loop (03 R140, 01 R54). -/
def enableRangeOk (s : Chip) (lid : Nat) : Bool :=
  let c := slotEff s lid
  ctlRangeOk (recEff s lid 0) && wordRangeOk 1 (recEff s lid 1) && (!c.isLocal || localOk s (usedInputs c))

/-- PRODUCER of every word of a record (03 R140). -/
def enableProducerOk (s : Chip) (lid : Nat) : Bool :=
  [1, 2, 3, 4, 5].all (fun w => wordProducerOk s lid w (recEff s lid w))

/-- The first failing check of an enable of a slot, with the records as they will stand (03 R140): 0 for none. -/
def enableCheck (s : Chip) (lid : Nat) : Nat :=
  if !enableRangeOk s lid then 2
  else if !(directRulesOk s (lid / 256) (lid % 256) && crossRulesOk s lid) then 4
  else if !enableProducerOk s lid then 5
  else if !budgetOk s lid then 3
  else 0

/-- A refused write of a slot record (03 R140, R172). -/
def slotRefuse (s : Chip) (lid w code : Nat) : Chip :=
  let t := lid / 256
  (s.wr (Reg.ltCfgerr t) (wn (code * 2 ^ 28 + w * 256 + lid % 256))).tileFlag t 0

/-- The tile is powered (03 R130). -/
def tilePowered (s : Chip) (t : Nat) : Bool := s.rdBit (Reg.ltStat t) 0

/-- The write takes effect (03 R136–R139): CS and LV bits at once, SH bits through the shadow queue, or directly while the tile is
power-gated (R130), where an enable first asks the governor to start the tile (R131) and waits with the CTL words after it (R151). -/
def slotApply (s : Chip) (lid w : Nat) (v : Word) (enabling : Bool) : Chip :=
  let t := lid / 256
  let direct := wordCs w + wordLv w
  let s1 := if direct = 0 then s else setRecWord s lid w (merge (recWord s lid w) v direct)
  if wordSh w = 0 then s1
  else if tilePowered s t then setShq s1 t (shq s1 t ++ [.word (lid % 256) w v (wordSh w)])
  else if enabling then askStart (setShq s1 t (shq s1 t ++ [.word (lid % 256) w v (wordSh w)])) t
  else if w = 0 && enableWaits s lid then setShq s1 t (shq s1 t ++ [.word (lid % 256) w v (wordSh w)])
  else setRecWord s1 lid w (merge (recWord s1 lid w) v (wordSh w))

/-- The slot is enabled, or has an enable waiting (03 R139). -/
def slotRunning (s : Chip) (lid : Nat) : Bool := (slotCfg s lid).en || enableWaits s lid

/-- The write turns a slot's enable on (03 R146): EN is 0 once the waiting writes of the slot are applied (R151). -/
def slotEnabling (s : Chip) (lid w : Nat) (v : Word) : Bool := w == 0 && bit v 0 && !bit (recEff s lid 0) 0

/-- The write enters the shadow queue of its tile (03 R130, R131, R137). -/
def slotQueues (s : Chip) (lid w : Nat) (v : Word) : Bool :=
  wordSh w != 0 && (tilePowered s (lid / 256) || slotEnabling s lid w v || (w == 0 && enableWaits s lid))

/-- The write enters the shadow queue of its tile, which is full (03 R137). -/
def slotWaits (s : Chip) (lid w : Nat) (v : Word) : Bool := slotQueues s lid w v && decide ((shq s (lid / 256)).length ≥ 256)

/-- The code with which a write of a record word is refused when it finds room (03 R139, R140): 0 for none. -/
def slotJudge (s : Chip) (lid w : Nat) (v : Word) : Nat :=
  if slotRunning s lid && ((v ^^^ recWord s lid w) &&& wn (wordCs w)) != 0 then 1
  else if !wordRangeOk w v then 2
  else if !wordProducerOk s lid w v then 5
  else if slotEnabling s lid w v then enableCheck (slotApply s lid w v true) lid
  else 0

/-- The code with which a write of a record word is refused now: an enable that waits for room is checked when it finds it. -/
def slotCode (s : Chip) (lid w : Nat) (v : Word) : Nat :=
  if slotWaits s lid w v && slotEnabling s lid w v then
    (if slotRunning s lid && ((v ^^^ recWord s lid w) &&& wn (wordCs w)) != 0 then 1
    else if !wordRangeOk w v then 2
    else if !wordProducerOk s lid w v then 5
    else 0)
  else slotJudge s lid w v

/-- One write of a word of a slot record that is not refused (03 R135–R140). A writer that finds the shadow queue full waits and nothing
changes (R137). -/
def slotWrite (s : Chip) (lid w : Nat) (v : Word) : Chip :=
  if slotWaits s lid w v then s else slotApply s lid w v (slotEnabling s lid w v)

/-- A command of the tile queued for its commit point (05 R223); a full queue makes the writer wait (03 R137). -/
def tileQueue (s : Chip) (t : Nat) (c : ShCmd) : Chip :=
  if (shq s t).length ≥ 256 then s else setShq s t (shq s t ++ [c])

/-- A tile reads a SID of the frozen view (01 R47, 02 R111). -/
def frozenLook (s : Chip) (sid : Nat) : Chip × StoreRead :=
  let r := seeBytes s 13 sid 0 8
  (r.1, frozenSeen r.1 sid r.2)

/-- The slot state at the commit point where an enable comes into force (04 R186): read from the frozen view, and a read that meets an
uncorrectable error is counted (02 R111). LTt_SLOTST goes on showing the end of the last evaluation (03 R177); that a substituted HOLD before
the enable is forgotten is the model's choice (04 R210). DESIGN CHOICE (notes/assumptions/76.md). -/
def initSlot (s0 : Chip) (lid : Nat) : Chip :=
  let c := slotCfg s0 lid
  let (s1, pv) := frozenLook s0 c.pv.sid
  let (s2, o) := lookEntry s1 13 c.outsid
  let (s, sp) := if !usable pv && c.sp.use then frozenLook s2 c.sp.sid else (s2, undeclaredRead)
  let spr := if usable pv then pv.value else if c.sp.use && usable sp then sp.value else 0
  let old := slotSt s lid
  touchWords (setSlotSt s lid { SlotState.zero with
    spr := spr, spdir := spr, out := o.value, stamp := old.stamp, pvl := old.pvl
    flags := old.flags, clr := old.clr, last := old.last, added := old.added }) (slotStateAt lid) 64

/-- Stage in force of the supply-sag governor (17 R789). -/
def Chip.stage (s : Chip) : Nat := s.rdF Reg.pwrStat 2 0

/-- Slots of a shed class are shed in the stage in force (17 R790): C from stage 3, B from stage 4, A never. -/
def classShed (stage cls : Nat) : Bool := (cls == 2 && decide (3 ≤ stage)) || (cls == 1 && decide (4 ≤ stage))

/-- JV of a slot's mirror record (03 R159). -/
def mirrorBit (s : Chip) (lid b : Nat) : Bool := bit (Tab.get 0 s.eng.mirror (32 * lid + 31)) b

/-- Where a slot's mirror record stands (03 R157). -/
def mirrorAt (lid : Nat) : Nat := 0x03180000 + 128 * lid

/-- Where a slot's journal record of a set stands (03 R157). -/
def journalAt (lid set : Nat) : Nat := 0x03000000 + 0x4000 * (lid / 256) + 0x2000 * set + 32 * (lid % 256)

/-- SEL or JV of a slot's mirror record replaced. -/
def setMirrorBit (s : Chip) (lid b : Nat) (x : Bool) : Chip :=
  let m := Tab.set 0 s.eng.mirror (32 * lid + 31) (setBit (Tab.get 0 s.eng.mirror (32 * lid + 31)) b x)
  touchWords { s with eng := { s.eng with mirror := m } } (mirrorAt lid + 124) 4

/-- With SRC 1 and POST 0 a capture ends at the end of the injection (05 R233); an end within a tick's evaluations takes effect with
that tick's records. -/
def captureInjEnd (s : Chip) (t : Nat) : Chip :=
  if s.rdF (Reg.ltCapctl t) 9 8 = 1 ∧ (s.tuneOf t).capInjEnded ∧
      s.rdF (Reg.ltCaplen t) 27 16 = 0 then endCapture s t 2
  else s

/-- What a disable in force ends (05 R226, R233): an injection into the slot, a capture of it. -/
def disableEnds (s : Chip) (lid : Nat) : Chip :=
  let t := lid / 256
  let mine := s.rdF (Reg.ltInjctl t) 15 8 == lid % 256
  let s1 := if mine && s.rdBit (Reg.ltInjstat t) 0 then captureInjEnd (endInjection s t 5) t else if mine then raiseCause s t 5 else s
  if s1.rdF (Reg.ltCapctl t) 7 0 == lid % 256 then endCapture s1 t 5 else s1

/-- A START at a commit point (05 R224, R225). DESIGN CHOICE (notes/assumptions/88.md). -/
def startInjection (s : Chip) (t : Nat) : Chip :=
  let wave := s.rdF (Reg.ltInjctl t) 1 0
  let n := s.rdF (Reg.ltInjctl t) 20 16
  let p1 := (s.rd (Reg.ltInjp1 t)).toNat
  let bad := s.rdF (Reg.ltInjctl t) 5 4 == 3 || (wave == 1 && (decide (n < 7) || decide (n > 23))) ||
    (wave == 2 && p1 == 0) || (wave == 3 && (p1 == 0 || decide (p1 > 4096)))
  let lid := 256 * t + s.rdF (Reg.ltInjctl t) 15 8
  if s.rdBit (Reg.ltInjstat t) 0 then tuneRefuse s t (Reg.ltInjstat t) 1
  else if bad then tuneRefuse s t (Reg.ltInjstat t) 2
  else if !(slotCfg s lid).en then tuneRefuse s t (Reg.ltInjstat t) 3
  else if s.stage ≥ 1 then tuneRefuse s t (Reg.ltInjstat t) 4
  else ((s.wrBit (Reg.ltInjstat t) 0 true).wr (Reg.ltInjcnt t) 0).setTune t (startGen s t)

/-- An ARM at a commit point (05 R231, R232). DESIGN CHOICE (notes/assumptions/88.md). -/
def armCapture (s : Chip) (t : Nat) : Chip :=
  let lid := 256 * t + s.rdF (Reg.ltCapctl t) 7 0
  if s.rdF (Reg.ltCapstat t) 1 0 != 0 then tuneRefuse s t (Reg.ltCapstat t) 1
  else if !s.rdBit (Reg.ltCapctl t) 10 && s.rdF (Reg.ltCaplen t) 12 0 == 0 then tuneRefuse s t (Reg.ltCapstat t) 2
  else if !(slotCfg s lid).en then tuneRefuse s t (Reg.ltCapstat t) 3
  else
    let s1 := ((s.wrF (Reg.ltCapstat t) 3 0 1).wr (Reg.ltCapptr t) 0).wr (Reg.ltCapcnt t) 0
    s1.setTune t { s1.tuneOf t with capEvals := 0, capNext := false, capInjSeen := false, capInjEnded := false, capPost := 0, capNow := false }

/-- One queued entry at the commit point (03 R137, R151, R159, 04 R186, 05 R223, R233). DEDUCED (notes/assumptions/13.md).
DESIGN CHOICE (notes/assumptions/88.md). -/
def applyOne (s : Chip) (t : Nat) (c : ShCmd) : Chip :=
  match c with
  | .injStart => startInjection s t
  | .injStop => if s.rdBit (Reg.ltInjstat t) 0 then captureInjEnd (endInjection s t 3) t else s
  | .capArm => armCapture s t
  | .capStop => endCapture s t 3
  | .word sl w v m =>
    let lid := 256 * t + sl
    let was := (slotCfg s lid).en
    let s1 := setRecWord s lid w (merge (recWord s lid w) v m)
    let now := (slotCfg s1 lid).en
    if !was && now then initSlot (setMirrorBit s1 lid 1 false) lid
    else if was && !now then disableEnds s1 lid
    else s1

/-- The EN that the queue leaves a slot with (03 R151): the last entry decides. -/
def queuedEn (q : List ShCmd) (sl : Nat) : Bool :=
  q.foldl (fun (b : Bool) c => match c with
    | .word k w v m => if k = sl ∧ w = 0 ∧ natBit m 0 then bit v 0 else b
    | _ => b) false

/-- In a tile that is not powered, the entries of a slot that waits for its enable stay queued until the tile reports power good
(03 R131); a slot whose enable a later disable cancels takes its entries in order (R151). DEDUCED (notes/assumptions/13.md). -/
def staysQueued (powered : Bool) (q : List ShCmd) (c : ShCmd) : Bool :=
  match c with
  | .word sl _ _ _ => !powered && queuedEn q sl
  | _ => false

/-- The tile applies its shadow queue in order of arrival (03 R137). DEDUCED (notes/assumptions/13.md). -/
def applyQueue (s : Chip) (t : Nat) : Chip :=
  let q := shq s t
  let p := tilePowered s t
  let s1 := (q.filter (fun c => !staysQueued p q c)).foldl (fun x c => applyOne x t c) s
  setShq s1 t (q.filter (staysQueued p q))

/-- The mirror takes every write applied since the last commit point (03 R159). DEDUCED (notes/assumptions/76.md). -/
def mirrorWrites (s : Chip) : Chip :=
  let m := s.eng.dirty.foldl (fun m k => if k % 32 = 31 then m else Tab.set 0 m k (Tab.get 0 s.eng.recs k)) s.eng.mirror
  s.eng.dirty.foldl (fun x k => touchWords x (0x03180000 + 4 * k) 4) { s with eng := { s.eng with mirror := m, dirty := [] } }

/-- The LIDs of a tile whose record is not all zero in its CTL word, in ascending order. -/
def tileLids (s : Chip) (t : Nat) : List Nat :=
  (recordLids s).filter (fun l => l / 256 == t)

/-- A slot is due by its rate and phase index, shed or not (01 R56). -/
def isDue (s : Chip) (lid : Nat) : Bool :=
  let c := slotCfg s lid
  c.en && s.tb.tick % 2 ^ c.k == c.pidx

/-- The engine evaluates on schedule (03 R166). -/
def Chip.engineRuns (s : Chip) : Bool := s.rdBit Reg.lpeStat 0

/-- Shed slots enter and leave shedding at the commit point (17 R791): the OUT SID of a slot newly shed gets the stored SUBST, and a
slot whose shed ends is initialised. -/
def shedSlot (s : Chip) (lid : Nat) : Chip :=
  let c := slotCfg s lid
  let sh := c.en && classShed s.stage c.shed
  let was := s.eng.shed.contains lid
  if sh && !was then
    let s1 := { s with eng := { s.eng with shed := s.eng.shed ++ [lid] } }
    match Tab.get? s.store.decls c.outsid with
    | .some d => if d.isOut then s1.setEntry c.outsid { s.entryOf c.outsid d with subst := true } else s1
    | .none => s1
  else if !sh && was then
    let s1 := { s with eng := { s.eng with shed := s.eng.shed.filter (· != lid) } }
    if c.en then initSlot s1 lid else s1
  else s

/-- The due set of a tile, in ascending order of slot number, without shed slots (03 R141, 17 R791). -/
def dueSet (s : Chip) (t : Nat) : List Nat :=
  if s.engineRuns then
    (tileLids s t).filter (fun lid => isDue s lid && !s.eng.shed.contains lid)
  else []

/-- A tile with no slot enabled and no enable waiting is power-gated again (03 R130). -/
def gateTile (s : Chip) (t : Nat) : Chip :=
  if tilePowered s t && (List.range 256).all (fun sl => !countsInLoad s (256 * t + sl)) then
    gateIsland (s.wrBit (Reg.ltStat t) 0 false) t
  else s

/-- One tile's commit point (03 R136, R141, R143, R132): queue applied, initialisations, due set, and the clock, which runs for a due slot that is
shed as well (R169, 05 R233). -/
def tileCommit (s : Chip) (t : Nat) : Chip :=
  let hadQueue := !(shq s t).isEmpty
  let s1 := applyQueue (newMoment s t) t
  let s2 := (s1.eng.initNext.filter (fun l => l / 256 == t)).foldl initSlot s1
  let s3 := (tileLids s2 t ++ s2.eng.shed.filter (fun l => l / 256 == t)).foldl shedSlot s2
  let d := dueSet s3 t
  let s4 := gateTile s3 t
  let s5 := { s4 with eng := { s4.eng with
      due := Tab.set [] s4.eng.due t d
      dueN := Tab.set 0 s4.eng.dueN t d.length
      dueAll := s4.eng.dueAll ++ (tileLids s3 t).filter (isDue s3) } }
  s5.wrBit (Reg.ltStat t) 1 (tilePowered s5 t && (hadQueue || (tileLids s3 t).any (isDue s3)))

/-- The commit point of every tile at phase 2,000: the freeze, then each tile in turn while the engine runs (03 R136, R164, R166, 01 R47).
DEDUCED (notes/assumptions/75.md). -/
def commitPoint (s : Chip) : Chip :=
  let s1 := freezeStore (s.atPhase 2000)
  let s2 := { s1 with eng := { s1.eng with dueAll := [], pointDone := true } }
  if s2.engineRuns then
    let s3 := (List.range 16).foldl tileCommit s2
    mirrorWrites { s3 with eng := { s3.eng with initNext := [] } }
  else s2

/-- What an evaluation of a slot with record `c` and state `st` reads (04 R183, R187), each SID as `look` gives it. -/
def lawInputs (look : Nat → StoreRead) (c : SlotCfg) (st : SlotState) : LawIn :=
  let r := fun (x : SidRef) (d : Int) => if x.use then ((look x.sid).value, usable (look x.sid)) else (d, true)
  let pv := look c.pv.sid
  let sp := r c.sp st.spdir
  let ff := r c.ff 0
  let tk := r c.trk st.out
  ⟨pv.value, usable pv, sp.1, sp.2, ff.1, ff.2, tk.1, tk.2⟩

/-- The slot of a tile that an injection runs into. -/
def injSlot (s : Chip) (t : Nat) : Nat := s.rdF (Reg.ltInjctl t) 15 8

/-- The generator after a sample: counters, and the ends that lie in this evaluation (05 R224, R226, R242).
DESIGN CHOICE (notes/assumptions/88.md). -/
def afterSample (s : Chip) (t : Nat) (added : Int) (incUsed : Nat) (kept : Nat) : Chip :=
  let cnt := (s.tuneOf t).samples - 1
  let s1 := if cnt = 0 then s.wr (Reg.ltInjt0 t) s.tick32 else s
  let s2 := (s1.bump (Reg.ltInjcnt t)).wr (Reg.ltInjval t) (w32 (sat32 added))
  let len := (s.rd (Reg.ltInjlen t)).toNat
  let abort := (kept &&& s.rdF (Reg.ltInjabm t) 11 0) != 0
  if abort then endInjection s2 t 4
  else if sweepEnded s t incUsed then endInjection s2 t 2
  else if len ≠ 0 ∧ cnt + 1 ≥ len then endInjection s2 t 1
  else s2

/-- The law events of an evaluation (04 R210) and LTt_FLAGLAST (R209). -/
def lawEvents (s : Chip) (lid : Nat) (old : SlotState) (o : LawOut) : Chip :=
  let t := lid / 256
  let rise := o.flags &&& (4095 - old.flags % 4096)
  let s1 := if (rise &&& s.rdF (Reg.ltFlagevm t) 11 0) != 0 then
      (s.wr (Reg.ltFlaglast t) (wn (rise * 256 + lid % 256))).tileFlag t 4 else s
  let s2 := if o.sub && !old.wasSub then s1.tileFlag t 5 else s1
  let s3 := if o.entry then s2.tileFlag t 6 else s2
  if o.clampedEntry then s3.tileFlag t 7 else s3

/-- The store entries that an evaluation reads (04 R183). -/
def lawSids (c : SlotCfg) : List Nat :=
  c.pv.sid :: ([c.sp, c.ff, c.trk].filter (fun x => x.use)).map (fun x => x.sid)

/-- The value added at the last evaluation of the slot that LTt_INJCTL names (05 R229). -/
def addedNow (s : Chip) (t : Nat) : Int := (slotSt s (256 * t + injSlot s t)).added

/-- Where a slot's record stands (03 R128). -/
def recordAt (lid : Nat) : Nat := 0x18000000 + 0x100000 * (lid / 256) + 128 * (lid % 256)

/-- A tile reads a slot's record and its state from its SRAM (13 R588, R592): the Poermun after, and both as they were read; an error that the
code cannot correct changes what is read and nothing else (13 R591). -/
def readSlot (s : Chip) (lid : Nat) : Chip × SlotCfg × SlotState :=
  let r := readSpan s 13 (recordAt lid) 128
  let q := readSpan r.chip 13 (slotStateAt lid) 52
  (q.chip, slotCfgOf (fun w => wordAs r.errs (4 * w) (recWord s lid w)), (slotSt s lid).asRead q.errs)

/-- The SIDs that an evaluation reads, each as it was read (04 R183, 02 R111). -/
def lookAll (s : Chip) (sids : List Nat) : Chip × Tab StoreRead :=
  sids.foldl (fun acc sid =>
    let r := frozenLook acc.1 sid
    (r.1, Tab.ins (Tab.erase acc.2 sid) sid r.2)) (s, [])

/-- A tile reads the word of its injection table that the sample takes (05 R217, 13 R592): the Poermun after, and the sample with the generator
after it. -/
def readSample (s : Chip) (t : Nat) : Chip × Int × TuneUnit :=
  match tableIndex s t with
  | .some i =>
    let r := readSpan s 13 (0x18010000 + 0x100000 * t + 4 * i) 4
    (r.chip, nextSample s t (errBits r.errs 0 4))
  | .none => (s, nextSample s t 0)

/-- One evaluation of a slot (04 R187), its result held (03 R142); the state that it writes is written to the tile's SRAM (13 R589, R596).
DESIGN CHOICE (notes/assumptions/4.md). -/
def evalSlot (s0 : Chip) (lid : Nat) : Chip :=
  let t := lid / 256
  let (sr, c, st0) := readSlot s0 lid
  let (si, look) := lookAll sr (lawSids c)
  let st := { st0 with flags := st0.flags &&& (4095 - st0.clr % 4096), clr := 0 }
  let injOn := si.rdBit (Reg.ltInjstat t) 0 && injSlot si t == lid % 256
  let (s, smp) := if injOn then readSample si t else (si, 0, si.tuneOf t)
  let inj : Inject := if injOn then .some (s.rdF (Reg.ltInjctl t) 5 4, smp.1) else .none
  let o := lawEval c st (lawInputs (Tab.get undeclaredRead look) c st) inj
  let st' := { o.st with stamp := s.tb.tick % 2 ^ 32, last := jrecOf o.st s.tb.tick, added := if injOn then o.inj else 0 }
  let s1 := touchWords (setSlotSt s lid st') (slotStateAt lid) 64
  let u := s.tuneOf t
  let s2 := if injOn then
      afterSample (s1.setTune t { smp.2 with
        samples := u.samples + 1, capInjSeen := u.capInjSeen || (u.capNext && u.samples == 0) }) t o.inj u.inc o.flags
    else s1
  let s3 := if c.direct then
      let il := 256 * t + c.inner
      touchWords (setSlotSt s2 il { slotSt s2 il with spdir := o.y }) (slotStateAt il + 32) 4
    else s2
  let s4 := lawEvents s3 lid st o
  let h : Held :=
    { lid := lid, outsid := c.outsid, out := o.y, sat := (o.flags &&& satFlags) != 0, fault := o.sub, jrec := jrecOf st' s.tb.tick
      inj := if injOn then o.inj else addedNow s2 t
      injRun := s.rdBit (Reg.ltInjstat t) 0, injOver := u.capInjEnded, injZero := injOn && o.injZero
      pv := (Tab.get undeclaredRead look c.pv.sid).value, err := o.err, raised := o.flags }
  { s4 with eng := { s4.eng with held := s4.eng.held ++ [h] } }

/-- The next due slot of a tile is evaluated in its window (03 R141). DESIGN CHOICE (notes/assumptions/4.md). -/
def evalNext (s : Chip) (t : Nat) : Chip :=
  match Tab.get [] s.eng.due t with
  | [] => s
  | lid :: rest =>
    let i := Tab.get 0 s.eng.dueN t - (rest.length + 1)
    let s1 := s.atPhase (2600 + 100 * i)
    let s2 := { s1 with eng := { s1.eng with due := Tab.set [] s1.eng.due t rest, evals := Tab.set 0 s1.eng.evals t (i + 1) } }
    evalSlot s2 lid

/-- The capture buffer with one record at CAPPTR, the pointer, the count and WRAP advanced (05 R229, R230, R233). -/
def putCapture (s : Chip) (t : Nat) (w0 w1 w2 w3 : Word) : Chip :=
  let p := (s.rd (Reg.ltCapptr t)).toNat % 4096
  let b := 16384 * t + 4 * p
  let m := Tab.set 0 (Tab.set 0 (Tab.set 0 (Tab.set 0 s.eng.capBuf b w0) (b + 1) w1) (b + 2) w2) (b + 3) w3
  let s1 := touchWords { s with eng := { s.eng with capBuf := m } } (0x18020000 + 0x100000 * t + 16 * p) 16
  let s2 := if p = 4095 ∧ s.rdBit (Reg.ltCapctl t) 10 then s1.wrBit (Reg.ltCapstat t) 2 true else s1
  (s2.wr (Reg.ltCapptr t) (wn ((p + 1) % 4096))).bump (Reg.ltCapcnt t)

/-- A capture-stream record for the recorder (05 R236). -/
def streamCapture (s : Chip) (t lid kind cnt flagsWord : Nat) (ws : List Word) : Chip :=
  if s.rdBit (Reg.ltCapctl t) 11 then
    let b := leBytes 6 s.tb.tick ++ leBytes 2 (lid + 4096 * kind) ++ leBytes 4 cnt ++ leBytes 4 flagsWord ++
      ws.flatMap (fun w => leBytes 4 w.toNat)
    { s with notes := s.notes ++ [.capture (s.rdF (Reg.ltCapctl t) 21 16) b] }
  else s

/-- The capture of an evaluation at phase 9,000 (05 R230, R231, R233). -/
def captureHeld (s : Chip) (h : Held) : Chip :=
  let t := h.lid / 256
  let st := s.rdF (Reg.ltCapstat t) 1 0
  let u := s.tuneOf t
  if st = 0 ∨ s.rdF (Reg.ltCapctl t) 7 0 ≠ h.lid % 256 then s
  else if st = 1 ∧ s.rdF (Reg.ltCapctl t) 9 8 = 1 ∧ !u.capInjSeen then s
  else
    let s1 := if st = 1 then
        ((s.wrF (Reg.ltCapstat t) 1 0 2).wr (Reg.ltCapt0 t) s.tick32) else s
    let take := u.capEvals % or256 (s.rdF (Reg.ltCapctl t) 31 24) == 0
    let further := s.rdF (Reg.ltCapctl t) 9 8 == 1 && h.injOver
    let post := if further then u.capPost + b2n take else u.capPost
    let s2 := s1.setTune t { u with capEvals := u.capEvals + 1, capPost := post }
    let cnt := (s.rd (Reg.ltCapcnt t)).toNat
    let ws := [w32 (sat32 h.inj), w32 h.pv, w32 h.err, w32 h.out]
    let s3 := if take then
        let fw := h.raised + 4096 * b2n h.injRun + 8192 * b2n h.injZero
        streamCapture (putCapture s2 t (w32 (sat32 h.inj)) (w32 h.pv) (w32 h.err) (w32 h.out)) t h.lid 0 cnt fw ws
      else s2
    let full := take && !s.rdBit (Reg.ltCapctl t) 10 && decide (cnt + 1 ≥ s.rdF (Reg.ltCaplen t) 12 0)
    let s4 := if full then endCapture s3 t 1 else s3
    if further && decide (post ≥ s.rdF (Reg.ltCaplen t) 27 16) then endCapture s4 t 2 else s4

/-- A capture whose slot was due but not evaluated in this tick ends with NOEVAL (05 R233). -/
def captureMissed (s : Chip) (evaluated : List Nat) (t : Nat) : Chip :=
  let lid := 256 * t + s.rdF (Reg.ltCapctl t) 7 0
  if (s.rdF (Reg.ltCapstat t) 1 0 = 2 ∨ ((s.tuneOf t).capNow ∧ s.rdF (Reg.ltCapstat t) 1 0 = 0)) ∧ s.eng.dueAll.contains lid ∧
      !evaluated.contains lid then endCapture s t 4 else s

/-- The journal record of a held result is published: the set opposite SEL, SEL flipped, JV set (03 R160). -/
def publishJournal (s : Chip) (h : Held) : Chip :=
  let sel := mirrorBit s h.lid 0
  let k := 2 * h.lid + (if sel then 0 else 1)
  let s1 := touchWords { s with eng := { s.eng with
      journal := Tab.set JRec.zero s.eng.journal k h.jrec, journalBad := s.eng.journalBad.filter (· != k) } } (journalAt h.lid (k % 2)) 32
  setMirrorBit (setMirrorBit s1 h.lid 0 (!sel)) h.lid 1 true

/-- One held result is committed through P1 (01 R51, 04 R202). -/
def commitHeld (s : Chip) (h : Held) : Chip :=
  let body := leBytes 4 (w32 h.jrec.spr).toNat ++ leBytes 4 (w32 (sat32 h.err)).toNat ++
    leBytes 4 (h.jrec.mode % 8 + 8 * b2n h.fault + 16 * (h.raised % 4096))
  let s1 := transaction s 1 ⟨14, .slot h.lid, .none⟩ h.lid [(h.outsid, ⟨.some h.out, ⟨true, false, h.sat, h.fault⟩⟩)] body
  let s2 := if h.sat then s1.odoInc 0 1 else s1
  let s3 := setSlotSt s2 h.lid { slotSt s2 h.lid with heldSub := h.fault }
  captureHeld ((publishJournal s3 h).bump (Reg.ltEvalcnt (h.lid / 256))) h

/-- Held results in ascending order of LID. -/
def heldInOrder (l : List Held) : List Held := sortBy (fun a b => decide (a.lid ≤ b.lid)) l

/-- Every held result is committed at phase 9,000 (03 R142, R144): a tile with due slots left commits the finished ones. -/
def commitAll (s : Chip) : Chip :=
  let hs := heldInOrder s.eng.held
  let s1 := hs.foldl commitHeld ((List.range 16).foldl newMoment s)
  let s2 := (List.range 16).foldl (fun x t => captureMissed (captureInjEnd x t) (hs.map (·.lid)) t) s1
  { s2 with eng := { s2.eng with held := [] } }

/-- Tiles with due slots not evaluated at phase 9,000 (03 R144). -/
def overrunTiles (s : Chip) : List Nat := (List.range 16).filter (fun t => Tab.get [] s.eng.due t != [])

/-- A tile's overrun is counted (03 R144); the fault of restart class is raised beside it. -/
def noteOverrun (s : Chip) (t : Nat) : Chip :=
  let s1 := (((s.bump Reg.lpeOverrun).tileFlag t 2).odoInc 34 1).fault 2 t
  { s1 with eng := { s1.eng with due := Tab.set [] s1.eng.due t [] } }

/-- FLAGCLR takes effect before the slot's next evaluation (04 R201, R207). -/
def flagClear (s : Chip) (lid mask : Nat) : Chip :=
  let st := slotSt s lid
  setSlotSt s lid { st with clr := st.clr ||| mask % 4096 }

/-- A slot continues from its journal record (03 R163): the biquads settled on its output, and a substituted HOLD of its last evaluation
remembered (04 R210). -/
def restoreSlot (s : Chip) (lid : Nat) (r : JRec) : Chip :=
  let st : SlotState := { SlotState.zero with
    integ := r.integ, out := r.out, spr := r.spr, dst := r.dst, mode := r.mode, flags := r.flags, spdir := r.spr
    stamp := r.stamp, pvl := r.pvl, last := r, wasSub := (slotSt s lid).heldSub, heldSub := (slotSt s lid).heldSub }
  touchWords (setSlotSt s lid (biquadSettle (slotCfg s lid) st r.out).1) (slotStateAt lid) 64

/-- A slot is lost at the restore (03 R163). -/
def lostSlot (s : Chip) (lid : Nat) : Chip :=
  ((s.bump Reg.lpeLost).wr (Reg.ltJrnslot (lid / 256)) (wn (lid % 256))).tileFlag (lid / 256) 1

end Sys2Proof.Machine
end

