-- ==== Sys2Proof/Machine/Ewene.lean ====
section
/-!
DEFINITION. The Ewene backbone, rings and coaches (chapter 06, 07 R324–R340): node states, the coach cut and start, returned copies,
landing, ring break.
-/

namespace Sys2Proof.Machine

/-- STATE of node d (07 R324): 0 ABSENT, 1 FOUND, 2 MAIL, 3 SEAT. -/
def nodeState (s : Chip) (d : Nat) : Nat := s.rdF (Reg.ewnNstat d) 17 16

/-- STATE of node d replaced. -/
def setNodeState (s : Chip) (d x : Nat) : Chip := s.wrF (Reg.ewnNstat d) 17 16 x

/-- A node's further state. -/
def nodeSt (s : Chip) (d : Nat) : NodeSt := Tab.get NodeSt.zero s.ewn.nodes d

/-- A node's further state replaced. -/
def setNodeSt (s : Chip) (d : Nat) (x : NodeSt) : Chip :=
  { s with ewn := { s.ewn with nodes := Tab.set NodeSt.zero s.ewn.nodes d x } }

/-- Node d is admitted to mail (07 R324). -/
def inMail (s : Chip) (d : Nat) : Bool := decide (nodeState s d ≥ 2)

/-- Node addresses (06 glossary): 1 to 62. -/
def nodeNums : List Nat := (List.range 62).map (· + 1)

/-- A flag of EWN_EVT (06 R304). -/
def Chip.ewnFlag (s : Chip) (b : Nat) : Chip := s.flag Reg.ewnEvt Reg.ewnEvten b (768 + b)

/-- A flag of EWN_EVT2 (07 R348). -/
def Chip.ewnFlag2 (s : Chip) (b : Nat) : Chip := s.flag Reg.ewnEvt2 Reg.ewnEvten2 b (772 + b)

/-- DATA frames accepted by node d and not freed (06 R283). -/
def heldBuffers (s : Chip) (d : Nat) : Nat := ((nodeSt s d).acked + 65536 - (nodeSt s d).freed) % 65536

/-- CRED(d) of 06 R283: below 0 where a node has accepted more than its RB(d) frames and freed none. -/
def credit (s : Chip) (d : Nat) : Int := (s.rdF (Reg.ewnNmail d) 12 8 : Int) - heldBuffers s d

/-- CRED in EWN_NMAILd: 0 for a node that is not in mail, and for a CRED(d) below 0. DESIGN CHOICE (notes/assumptions/63.md). -/
def syncCred (s : Chip) (d : Nat) : Chip :=
  s.wrF (Reg.ewnNmail d) 4 0 (if inMail s d then (credit s d).toNat else 0)

/-- EWN_MTXHEAD: the start of the oldest core entry not retired, or the tail when none is left (06 R299). -/
def syncHead (s : Chip) : Chip :=
  let head := s.rdF Reg.ewnMtxhead 15 0
  let starts := ((s.ewn.unacked ++ s.ewn.coreQ).filter (fun f => f.own == 0)).map (fun f => (f.start + 65536 - head) % 65536)
  match starts with
  | [] => s.wr Reg.ewnMtxhead (wn (s.rdF Reg.ewnMtxtail 15 0))
  | x :: xs => s.wr Reg.ewnMtxhead (wn ((head + xs.foldl min x) % 65536))

/-- Every queued or unacknowledged frame to node d is retired LOST (06 R284, 19 R844): the unacknowledged ones, then the core queue's, then the
engine's; one that was never sent has MSEQ 0. DESIGN CHOICE (notes/assumptions/91.md). -/
def loseMail (s : Chip) (d : Nat) : Chip :=
  let gone := (s.ewn.unacked ++ s.ewn.coreQ ++ s.ewn.engQ).filter (fun f => f.dst == d)
  let keep := fun (l : List MailFrame) => l.filter (fun f => f.dst != d)
  match gone.getLast? with
  | .none => s
  | .some last =>
    let lost := (gone.filter (fun f => f.own == 1)).map (fun f => f.corr)
    let s0 := { s with hst := { s.hst with lost := s.hst.lost ++ lost } }
    let s1 := { s0 with ewn := { s0.ewn with
        unacked := keep s.ewn.unacked, coreQ := keep s.ewn.coreQ, engQ := keep s.ewn.engQ } }
    let s2 := ((s1.bumpBy Reg.ewnMlost gone.length).wr Reg.ewnMlostlast (wn (d * 65536 + last.mseq))).led 1 2 gone.length
    syncHead (s2.ewnFlag 2)

/-- Node d leaves mail (19 R845): its credits are withdrawn. -/
def withdraw (s : Chip) (d : Nat) : Chip :=
  if inMail s d then s.led 2 1 (s.rdF (Reg.ewnNmail d) 12 8) else s

/-- A departure from SEAT is recorded (07 R326, 19 R858). -/
def noteDeparture (s : Chip) (d cause : Nat) : Chip :=
  let s0 := { s with ewn := { s.ewn with leftSeat := d :: s.ewn.leftSeat } }
  let s1 := (((s0.wrF (Reg.ewnNstat d) 31 28 cause).ewnFlag2 3).odoInc 16 1).logEvent 7 d cause
  if cause = 3 then setNodeSt s1 d { nodeSt s1 d with barred := true } else s1

/-- The first of the causes found in the order of 07 R896. -/
def firstCause (cs : List Nat) : Option Nat := [3, 6, 5, 1, 4, 8, 2, 7].find? (fun c => cs.contains c)

/-- Causes found for node d at one moment (07 R326, R327, R896): SEAT is left once, mail only for GONE or MAILFAIL. -/
def applyCauses (s : Chip) (d : Nat) (cs : List Nat) : Chip :=
  match firstCause cs with
  | .none => s
  | .some c =>
    let gone := cs.contains 6
    let fail := cs.contains 5
    let s1 := if nodeState s d = 3 then noteDeparture s d c else s
    let s2 := if gone || fail then withdraw s1 d else s1
    let s3 := if gone then setNodeState s2 d 0
      else if fail then setNodeState s2 d 1
      else if nodeState s2 d = 3 then setNodeState s2 d 2 else s2
    syncCred (if gone then loseMail s3 d else s3) d

/-- The nodes that hold a seat, or own a compartment, in a SAFE compartment (07 R328). -/
def usesSafe (s : Chip) (d : Nat) : Bool :=
  s.ewn.comps.any (fun e => e.2.kind == 4 && e.2.owner == d) || (s.isl.serves.contains d)

/-- The descriptors a node needs (07 R328). -/
def descriptorCount (s : Chip) (d : Nat) : Nat := (s.ewn.seats.filter (fun x => x.nodes.contains d)).length

/-- NODEINFO meets the consist (07 R328). -/
def infoMeets (s : Chip) (d : Nat) : Bool :=
  match (nodeSt s d).info, Tab.get? s.ewn.nodeCfg d with
  | .some i, .some c =>
    decide (c.lossLo ≤ i.loss) && decide (i.loss ≤ c.lossHi) && decide (i.ttcap ≥ descriptorCount s d) &&
      decide (i.rdyn ≤ c.rdy) && (!usesSafe s d || natBit i.caps 0)
  | _, _ => false

/-- The average of the rounds held, to the nearest unit of 0.125 ns, ties to the even one (07 R316).
DESIGN CHOICE (notes/assumptions/33.md). -/
def avgOf (l : List Int) : Option Int :=
  if l.isEmpty then .none else .some (divNE (l.foldl (· + ·) 0) l.length)

/-- The measured delay of node d lies within its bounds on both rings (07 R318). -/
def delayInBounds (s : Chip) (d : Nat) : Bool :=
  match Tab.get? s.ewn.nodeCfg d, avgOf (nodeSt s d).hisA, avgOf (nodeSt s d).hisB with
  | .some c, .some a, .some b =>
    decide ((c.dloA : Int) ≤ a) && decide (a ≤ c.dhiA) && decide ((c.dloB : Int) ≤ b) && decide (b ≤ c.dhiB)
  | _, _, _ => false

/-- Every condition of 07 R325 for node d to enter SEAT. -/
def seatOk (s : Chip) (d : Nat) : Bool :=
  let n := nodeSt s d
  n.ident && delayInBounds s d && !s.rdBit Reg.ewnSurvstat 4 && s.rdBit (Reg.ewnNstat d) 7 &&
    n.seatAck.contains (s.rd Reg.ewnTtver).toNat && infoMeets s d && !s.rdBit (Reg.ewnNctl d) 1 && !n.barred

/-- Seat admission of one node at the cut (07 R325, R351); a node that has left SEAT since the last cut waits for a later one (R326). -/
def admitNode (s : Chip) (d : Nat) : Chip :=
  if nodeState s d = 2 ∧ seatOk s d ∧ !s.ewn.leftSeat.contains d then
    (setNodeSt (setNodeState s d 3) d { nodeSt s d with missRun := 0 }).ewnFlag2 5
  else if nodeState s d = 3 ∧ s.rdBit (Reg.ewnNctl d) 1 then
    setNodeState (((s.ewnFlag2 3).odoInc 16 1).logEvent 7 d (s.rdF (Reg.ewnNstat d) 31 28)) d 2
  else s

/-- A seat is due in a tick (06 R263). -/
def seatDue (x : Seat) (tick : Nat) : Bool := tick % 2 ^ x.m == x.q

/-- A value saturated to the range of a seat of w bytes (06 R265). -/
def seatRange (w : Nat) (signed : Bool) (v : Int) : Int :=
  if signed then clampI v (-(2 ^ (8 * w - 1) : Int)) (2 ^ (8 * w - 1) - 1) else clampI v 0 (2 ^ (8 * w) - 1)

/-- Bytes [o, o + n) of a payload replaced. -/
def putBytes (l : List Byte) (o : Nat) (bs : List Byte) : List Byte :=
  l.take o ++ bs ++ l.drop (o + bs.length)

/-- One due OUT seat is filled with the value composed at phase 9,500 (01 R50, 06 R265): the payloads so far and the state with a saturation counted. -/
def fillSeat (acc : Chip × Tab (List Byte)) (x : Seat) : Chip × Tab (List Byte) :=
  let s := acc.1
  let (s0, r) := cutLook s x.sid
  let v := r.value
  let v' := seatRange x.w x.signed v
  let s1 := if v' = v then s0 else ((s0.bump Reg.ewnNarrow).ewnFlag 3).odoInc 2 1
  let p := Tab.get (bytesOf 60 0) acc.2 x.comp
  let p' := putBytes p x.offset (leBytes x.w (v' % (2 ^ (8 * x.w) : Int)).toNat)
  (s1, Tab.set (bytesOf 60 0) acc.2 x.comp p')

/-- The coach of the next tick is cut (01 R50, 06 R265, 07 R325, 17 R792): OUT seats due in that tick, SAFE-D payloads, ADMIT. Once a
swap has replaced the store declarations, OUT seats carry 0 until the new timetable is in force (18 R830). In a warm restart the ADMIT bits
stay those of the coach before, and no node is admitted (07 R330); one that has left SEAT meanwhile loses its bit at the first cut after it.
DEDUCED (notes/assumptions/81.md). -/
def cutCoach (s : Chip) : Chip :=
  let held := s.rdBit Reg.sysStat 1
  let s1 := if held then s else nodeNums.foldl admitNode s
  let t := tickAdd s1.tb.tick 1
  let due := s1.ewn.seats.filter (fun x =>
    (Tab.get ⟨0, 0⟩ s1.ewn.comps x.comp).kind == 1 && seatDue x t && !s1.rst.swapped)
  let (s2, body) := due.foldl fillSeat (s1, s1.ewn.safeD)
  let c : Coach := { tick := t, hold := s2.stage == 5, brk := false, survey := false, ttver := 0, epoch := 0
                     admits := if held then (s2.ewn.now.map (·.admits)).getD [] else nodeNums.filter (fun d => nodeState s2 d == 3)
                     body := body }
  { s2 with ewn := { s2.ewn with next := .some c, leftSeat := if held then s2.ewn.leftSeat else [] } }

/-- Bytes of line a packet of n bytes takes: a start block, its data blocks, a terminate block (06 R250). -/
def packetLine (n : Nat) : Nat := 16 + n / 8 * 8

/-- Line bytes used by a coach of the timetable in force and one idle block (06 R252, R254). -/
def coachLine (s : Chip) : Nat := packetLine (64 + 64 * s.rdF Reg.ewnTtcfg 8 0) + 8

/-- The bytes of the line that are used or past in this tick (06 R252, R286): 3.125 bytes each ns, in whole blocks of 8. -/
def lineNow (s : Chip) : Nat := max s.ewn.linePos ((s.tb.phase * 25 + 63) / 64 * 8)

/-- The survey period in ticks (07 R312, R343). -/
def surveyPeriod (s : Chip) : Nat := 2 ^ (min (s.rdF Reg.ewnSurvcfg 3 0) 8 + 8)

/-- Every found node has a delay, measured and sent to it (07 R312). DEDUCED (notes/assumptions/33.md). -/
def allDelays (s : Chip) : Bool :=
  s.ewn.found.all (fun d => !(nodeSt s d).hisA.isEmpty && (s.rd (Reg.ewnNdlya d) != 0 || s.rd (Reg.ewnNdlyb d) != 0))

/-- A delay as the next DELAYSET carries it (07 R309, R317): 0 for a node without one; at most 2 ns, 16 units, of change while the node is
in SEAT. -/
def delayToSend (s : Chip) (d : Nat) (old : Word) (avg : Option Int) : Word :=
  match avg with
  | .none => 0
  | .some x => if nodeState s d = 3 then w32 (clampI x (s32 old - 16) (s32 old + 16)) else w32 x

/-- The DELAYSET of the third tick of a round, when a delay that it carries changes (07 R312, R317): APPLY is four ticks after the ENUM.
DEDUCED (notes/assumptions/33.md). -/
def delaySetDue (s : Chip) : Option (Nat × List (Nat × Word × Word)) :=
  let ds := nodeNums.map (fun d =>
    (d, delayToSend s d (s.rd (Reg.ewnNdlya d)) (avgOf (nodeSt s d).hisA),
      delayToSend s d (s.rd (Reg.ewnNdlyb d)) (avgOf (nodeSt s d).hisB)))
  if ds.any (fun e => e.2.1 != s.rd (Reg.ewnNdlya e.1) || e.2.2 != s.rd (Reg.ewnNdlyb e.1)) then
    .some (tickAdd s.tb.tick 2 % 2 ^ 32, ds)
  else .none

/-- A round starts in the tick now starting (07 R312): nodes lack delays, at the period, or on a trigger. -/
def roundDue (s : Chip) : Bool :=
  !allDelays s || s.ewn.trigger || (match s.ewn.roundAt with
    | .none => true
    | .some t => decide (tickSince s.tb.tick t ≥ surveyPeriod s))

/-- The survey's stage for the tick now starting (07 R311, R312): a running round goes on to DELAY and DELAYSET; a completed one is
counted; a round starts when one is due. -/
def surveyAdvance (s : Chip) : Chip :=
  let s1 := if s.ewn.stage = 3 then s.bump Reg.ewnSurvcnt else s
  let e : Ewene := { s1.ewn with delaySet := .none, sent := false }
  if e.stage = 1 then { s1 with ewn := { e with stage := 2 } }
  else if e.stage = 2 then { s1 with ewn := { e with stage := 3, delaySet := delaySetDue s1 } }
  else if roundDue s1 then { s1 with ewn := { e with stage := 1, trigger := false, roundAt := .some s1.tb.tick } }
  else { s1 with ewn := { e with stage := 0 } }

/-- The coach of this tick carries FLAGS.SURVEY (07 R311): a DELAYSET tick only when a delay to be sent has changed. -/
def surveyFlag (s : Chip) : Bool :=
  s.ewn.stage == 1 || s.ewn.stage == 2 || (s.ewn.stage == 3 && s.ewn.delaySet.isSome)

/-- BREAK starts (07 R337): it is carried from the next coach on, counted, and triggers a survey round; the run of clean ticks that ends it
starts anew. -/
def startBreak (s : Chip) : Chip :=
  if s.rdBit Reg.ewnSurvstat 2 then s
  else
    let s1 := (((s.wrBit Reg.ewnSurvstat 2 true).bump Reg.ewnBrkcnt).ewnFlag2 0).odoInc 14 1
    { s1 with ewn := { s1.ewn with trigger := true, breakAt := s1.tb.tick, clean := 0 } }

/-- The returns of the tick that ends (07 R337): WRAPA and WRAPB for that tick, BREAK when a copy was wrapped or has not returned, the run
of clean ticks. -/
def ringTickEnd (s : Chip) : Chip :=
  let e := s.ewn
  let s1 := (s.wrBit Reg.ewnSurvstat 0 e.wrapA).wrBit Reg.ewnSurvstat 1 e.wrapB
  let own := e.hdrA && e.hdrB && !e.wrapA && !e.wrapB
  let s2 := if e.now.isSome && !own then startBreak s1 else s1
  { s2 with ewn := { s2.ewn with
      clean := if own then e.clean + 1 else 0, hdrA := false, hdrB := false, wrapA := false, wrapB := false } }

/-- The SYNC field's LEN (07 R320). -/
def syncLen (s : Chip) : Nat := if s.tb.tickLen = 9999 then 1 else if s.tb.tickLen = 10001 then 2 else 0

/-- The 64 header bytes of a coach on a ring (06 R255, 07 R320). -/
def coachHeader (s : Chip) (c : Coach) (ring : Nat) : List Byte :=
  let flags := b2n c.hold + 2 * ring + 4 * b2n c.brk + 8 * b2n c.survey
  let admits := c.admits.foldl (fun m d => m + 2 ^ d) 0
  let st := s.rd Reg.sysTbstat
  let h := leBytes 1 1 ++ leBytes 1 flags ++ leBytes 2 (s.rdF Reg.ewnTtcfg 8 0) ++ leBytes 6 c.tick ++ leBytes 2 s.ewn.ride ++
    leBytes 4 c.epoch ++ leBytes 4 c.ttver ++ leBytes 1 (s.rdF Reg.ewnTtcfg 15 12) ++ leBytes 3 0 ++ leBytes 8 admits ++
    leBytes 1 (syncLen s) ++ leBytes 1 (b2n (bit st 0) + 2 * b2n (bit st 1)) ++ leBytes 2 0 ++
    leBytes 4 (s.rd Reg.sysTbtrimeff).toNat ++ leBytes 4 (s.tb.fabSec % 2 ^ 32) ++
    leBytes 4 (s.tb.fabNs + 2 ^ 31 * b2n (bit st 1)) ++ leBytes 12 0
  h ++ leBytes 4 (crc32c h)

/-- The compartment as sent: payload and CCRC under the prefix of index and TICK[15:0] (06 R258). -/
def withCcrc (c tick : Nat) (payload : List Byte) : List Byte :=
  let p := padTo 60 payload
  p ++ leBytes 4 (crc32c (leBytes 2 c ++ leBytes 2 (tick % 65536) ++ p))

/-- The bytes of a coach on a ring (06 R254): the header and the compartments; those that a node writes leave as zeros with their CCRC. -/
def coachBytes (s : Chip) (c : Coach) (ring : Nat) : List Byte :=
  coachHeader s c ring ++ (List.range (s.rdF Reg.ewnTtcfg 8 0)).flatMap (fun k =>
    withCcrc k c.tick (Tab.get (bytesOf 60 0) c.body k))

/-- A packet goes out on both rings (06 R250); `bytes` gives the bytes by ring. DESIGN CHOICE (notes/assumptions/74.md). -/
def sendBoth (s : Chip) (octet : Nat) (bytes : Nat → List Byte) : Chip :=
  { s with ewn := { s.ewn with wire := s.ewn.wire ++ [(0, octet, bytes 0), (1, octet, bytes 1)] } }

/-- The 16-byte survey header on a ring (07 R308). -/
def surveyHeader (s : Chip) (ring apply : Nat) : List Byte :=
  leBytes 2 s.ewn.sseq ++ [0, BitVec.ofNat 8 ring] ++ leBytes 4 s.tb.tick ++ leBytes 4 apply ++ leBytes 4 0

/-- A survey packet with its CRC (07 R308). -/
def surveyPacket (s : Chip) (ring apply : Nat) (entries : List Byte) : List Byte :=
  let b := surveyHeader s ring apply ++ entries
  b ++ leBytes 4 (crc32c b)

/-- A survey packet leaves after the coach (07 R311). -/
def sendSurvey (s : Chip) (octet apply : Nat) (entries : List Byte) : Chip :=
  let s1 := sendBoth s octet (fun r => surveyPacket s r apply entries)
  { s1 with ewn := { s1.ewn with sent := true, linePos := lineNow s1 + packetLine (20 + entries.length) + 8 } }

/-- EWN_NDLYA and EWN_NDLYB take the delays a DELAYSET sends (07 R350). DEDUCED (notes/assumptions/33.md). -/
def sendDelays (s : Chip) (apply : Nat) (ds : List (Nat × Word × Word)) : Chip :=
  let s1 := ds.foldl (fun x e => (x.wr (Reg.ewnNdlya e.1) e.2.1).wr (Reg.ewnNdlyb e.1) e.2.2) s
  let entry := fun d => leBytes 4 (s1.rd (Reg.ewnNdlya d)).toNat ++ leBytes 4 (s1.rd (Reg.ewnNdlyb d)).toNat
  sendSurvey s1 0xEA apply (nodeNums.flatMap entry)

/-- The survey packet of this tick: DELAY in the second tick of a round, a DELAYSET in the third when a delay changes (07 R312). -/
def sendRound (s : Chip) : Chip :=
  if s.ewn.stage = 2 then sendSurvey s 0xE9 0 (bytesOf 496 0)
  else match s.ewn.stage, s.ewn.delaySet with
    | 3, .some (apply, ds) => sendDelays s apply ds
    | _, _ => s

/-- The coach of the tick leaves on both rings (06 R252, R255, 07 R330): HOLD through a warm restart and as cut in stage 5. From the first one
on RUN and MAILRUN stand (R293): the mail window of every tick is served. DESIGN CHOICE (notes/assumptions/91.md). -/
def startCoach (s : Chip) : Chip :=
  if !s.booted then s
  else
    let s1 := surveyAdvance s
    let base : Coach := s1.ewn.next.getD
      { tick := s1.tb.tick, hold := s1.stage == 5, brk := false, survey := false, ttver := 0, epoch := 0, admits := []
        body := s1.ewn.safeD }
    let c : Coach := { base with
      tick := s1.tb.tick, hold := base.hold || s1.rdBit Reg.sysStat 1, brk := s1.rdBit Reg.ewnSurvstat 2
      survey := surveyFlag s1, ttver := (s1.rd Reg.ewnTtver).toNat, epoch := (s1.rd Reg.sysEpoch).toNat }
    let s2 := { (s1.wrF Reg.ewnStat 1 0 3) with ewn := { s1.ewn with
        prev := s1.ewn.now, now := .some c, next := .none, retPrev := s1.ewn.retNow, retNow := []
        linePos := coachLine s1, carSent := 0, wire := [] } }
    sendRound (sendBoth s2 0xE5 (coachBytes s2 c))

/-- Validity of a returned copy (06 R276, R277): 0 valid, else the cause 2 CRC, 3 NODE, 4 TTV. DEDUCED (notes/assumptions/81.md). -/
def copyCause (c tick ttver owner : Nat) (b : List Byte) : Nat :=
  if leAt b 60 4 ≠ crc32c (leBytes 2 c ++ leBytes 2 (tick % 65536) ++ sliceB b 0 60) then 2
  else if leAt b 56 1 ≠ owner then 3
  else if leAt b 58 2 ≠ ttver % 65536 then 4
  else 0

/-- A copy of an IN or SAFE-U compartment returns on a ring (06 R276, R277): it is held for landing, unless it comes after phase 5,000 of the
next tick (01 R49); a wrong CCRC is counted. DESIGN CHOICE (notes/assumptions/72.md). -/
def compartmentReturn (s : Chip) (ofPrev : Bool) (ring comp : Nat) (b : List Byte) : Chip :=
  let coach := if ofPrev then s.ewn.prev else s.ewn.now
  let cfg := Tab.get ⟨0, 0⟩ s.ewn.comps comp
  match coach with
  | .none => s
  | .some c =>
    if cfg.kind ≠ 2 ∧ cfg.kind ≠ 4 then s
    else
      let b' := padTo 64 b
      let bad := copyCause comp c.tick c.ttver cfg.owner b' == 2
      let s1 := if bad then s.bump (if ring = 0 then Reg.ewnCrca else Reg.ewnCrcb) else s
      let k := 2 * comp + ring
      if ofPrev && decide (5000 < s.tb.phase) then s1
      else if ofPrev then { s1 with ewn := { s1.ewn with retPrev := Tab.ins (Tab.erase s1.ewn.retPrev k) k b' } }
      else { s1 with ewn := { s1.ewn with retNow := Tab.ins (Tab.erase s1.ewn.retNow k) k b' } }

/-- A coach header returns (07 R337, 06 R296, 07 R312): a wrong HCRC is counted, and no return; its ring is FLAGS.RING; it is the return of this
tick when it carries the TICK of the coach on the line; a return on the other ring's port is a wrap; a return time more than 8 ns off the average
of the last eight triggers a survey round. `time` is in units of 0.125 ns.
DESIGN CHOICE (notes/assumptions/72.md). DESIGN CHOICE (notes/assumptions/91.md). -/
def headerReturn (s : Chip) (ownPort : Bool) (b : List Byte) (time : Nat) : Chip :=
  let b' := padTo 64 b
  if leAt b' 60 4 ≠ crc32c (b'.take 60) then s.bump Reg.ewnHcrc
  else
    let ringB := natBit (leAt b' 1 1) 1
    let hist := if ringB then s.ewn.retB else s.ewn.retA
    let off := match avgOf (hist.map (fun (n : Nat) => (n : Int))) with
      | .none => false
      | .some a => decide (((time : Int) - a).natAbs > 64)
    let hist' := (time :: hist).take 8
    let e := s.ewn
    let back := e.now.any (fun c => leAt b' 4 6 == c.tick)
    let e1 := if ringB then { e with hdrB := e.hdrB || back, wrapB := e.wrapB || !ownPort, retB := hist' }
      else { e with hdrA := e.hdrA || back, wrapA := e.wrapA || !ownPort, retA := hist' }
    { s with ewn := { e1 with trigger := e1.trigger || off } }

/-- The receive port on which a copy of a ring came in has block lock (07 R337): its own ring's port with `own`, else the other's. Without it
nothing is received there, as while its LOS is high (20 R879). -/
def hears (s : Chip) (ring : Nat) (own : Bool) : Bool := if (ring == 0) == own then s.ewn.lockA else s.ewn.lockB

/-- The bytes of a copy as they are received: none on a port without block lock. -/
def heard (s : Chip) (ring : Nat) (own : Bool) (b : List Byte) : List Byte := if hears s ring own then b else []

/-- A receive port loses block lock (07 R337); the run of clean ticks ends. -/
def lockLost (s : Chip) (ring : Nat) : Chip :=
  let e := { s.ewn with clean := 0 }
  let s1 := { s with ewn := if ring = 0 then { e with lockA := false } else { e with lockB := false } }
  if s.ewn.now.isSome then startBreak s1 else s1

/-- A receive port regains block lock (07 R337). -/
def lockRegained (s : Chip) (ring : Nat) : Chip :=
  let e := s.ewn
  { s with ewn := if ring = 0 then { e with lockA := true } else { e with lockB := true } }

/-- The longest BREAK episode and every other extreme: an extreme is replaced only by a value strictly beyond it (14 R630). -/
def Chip.extreme (s : Chip) (k : Nat) (high : Bool) (v : Int) : Chip :=
  let cur := match Tab.get? s.odo.ext k with
    | .some e => e.value
    | .none => if high then -2147483648 else 2147483647
  if (high && decide (v > cur)) || (!high && decide (v < cur)) then
    let e : Extreme := ⟨v, (s.rd Reg.odoHours).toNat, (s.rd Reg.odoPcyc).toNat, s.tb.tick % 2 ^ 32⟩
    { s with odo := { s.odo with ext := Tab.ins (Tab.erase s.odo.ext k) k e } }
  else s

/-- BREAK clears after 1,000 consecutive clean ticks (07 R337), with block lock on both ports; the healing triggers a survey round (R312). -/
def healBreak (s : Chip) : Chip :=
  if s.rdBit Reg.ewnSurvstat 2 && decide (s.ewn.clean ≥ 1000) && s.ewn.lockA && s.ewn.lockB then
    let s1 := (s.wrBit Reg.ewnSurvstat 2 false).ewnFlag2 1
    ({ s1 with ewn := { s1.ewn with trigger := true } }).extreme 11 true (tickSince s.tb.tick s.ewn.breakAt)
  else s

/-- One byte of a payload as the little-endian value of a seat, extended to S32 (06 R264). -/
def seatValue (p : List Byte) (x : Seat) : Int :=
  let n := leAt p x.offset x.w
  if (x.signed || x.w == 4) && decide (n ≥ 2 ^ (8 * x.w - 1)) then (n : Int) - 2 ^ (8 * x.w) else n

/-- The carried bits of a landed seat (06 R267). -/
def seatCarried (seats : List Seat) (p : List Byte) (x : Seat) : Carried :=
  let nst := leAt p 57 1
  let st := match seats.find? (fun y => y.stat && y.comp == x.comp && y.loc % 256 == x.offset && y.m == x.m && y.q == x.q) with
    | .some y => leAt p y.offset 1
    | .none => 0
  ⟨natBit nst 0 && !natBit st 0, natBit st 2, natBit st 3, natBit nst 1 || natBit st 1⟩

/-- The writes of a landed compartment: each due value seat (06 R267). -/
def landedWrites (s : Chip) (comp tick : Nat) (p : List Byte) : List (Nat × WriteReq) :=
  (s.ewn.seats.filter (fun x => x.comp == comp && !x.stat && seatDue x tick)).map
    (fun x => (x.sid, ⟨.some (seatValue p x), seatCarried s.ewn.seats p x⟩))

/-- What a landed trailer tells of its owner (07 R349, 06 R287). -/
def noteTrailer (s : Chip) (d : Nat) (p : List Byte) : Chip :=
  let nst := leAt p 57 1
  let s1 := ((s.wrBit (Reg.ewnNstat d) 6 (natBit nst 2)).wrBit (Reg.ewnNstat d) 5 (natBit nst 3)).wrBit (Reg.ewnNstat d) 4 (natBit nst 1)
  setNodeSt s1 d { nodeSt s1 d with mreq := natBit nst 4 }

/-- One compartment lands (06 R267, R276, 07 R340), stamped between phases 5,000 and 5,800 (01 R49): one P0 transaction, the trailer noted, a SAFE-U payload kept for the island. -/
def landOne (s : Chip) (c : Coach) (comp : Nat) (cfg : CompCfg) (ring : Nat) (p : List Byte) : Chip :=
  let s0 := (s.atPhase (5000 + Config.landOffset comp % 801)).bump Reg.ewnLandcnt
  let s1 := transaction s0 0 ⟨13, .seat, .none⟩ (comp + 512 * ring) (landedWrites s comp c.tick p) (p.take 60)
  let s2 := noteTrailer s1 cfg.owner p
  if cfg.kind = 4 then { s2 with ewn := { s2.ewn with safeU := s2.ewn.safeU ++ [(comp, p.take 60)] } } else s2

/-- A compartment is not landed (06 R277). -/
def missOne (s : Chip) (comp cause : Nat) : Chip :=
  (((s.bump Reg.ewnMisscnt).wr Reg.ewnMisslast (wn (cause * 2 ^ 28 + comp))).ewnFlag 0).odoInc 15 1

/-- A coach of a timetable that a swap replaces does not land (18 R830). -/
def landBarred (s : Chip) (c : Coach) : Bool := s.rst.swapped || c.ttver != (s.rd Reg.ewnTtver).toNat

/-- The copy of a compartment of the previous coach on a ring, with its validity (06 R276, R277): the cause is 1 where none came. -/
def landCopy (s : Chip) (c : Coach) (comp : Nat) (cfg : CompCfg) (ring : Nat) : Nat × List Byte :=
  match Tab.get? s.ewn.retPrev (2 * comp + ring) with
  | .none => (1, [])
  | .some y => (copyCause comp c.tick c.ttver cfg.owner y, y)

/-- What P0 lands of a compartment of the previous coach (06 R276): the ring and the bytes of the valid copy, ring A's when both are. -/
def landPick (s : Chip) (c : Coach) (comp : Nat) (cfg : CompCfg) : Option (Nat × List Byte) :=
  if landBarred s c then .none
  else if (landCopy s c comp cfg 0).1 = 0 then .some (0, (landCopy s c comp cfg 0).2)
  else if (landCopy s c comp cfg 1).1 = 0 then .some (1, (landCopy s c comp cfg 1).2)
  else .none

/-- A copy that the owner did not write: its CCRC is right and its NODE is the 0 with which it left (07 R338). -/
def unwritten (cause : Nat) (b : List Byte) : Bool := cause == 3 && leAt b 56 1 == 0

/-- The cause of a compartment that is not landed (06 R277): the highest of its copies; NOCOPY in break operation when one copy is not
written and the other, the only written one, is not back (07 R338). DEDUCED (notes/assumptions/81.md). -/
def missCause (s : Chip) (c : Coach) (comp : Nat) (cfg : CompCfg) : Nat :=
  let a := landCopy s c comp cfg 0
  let b := landCopy s c comp cfg 1
  if landBarred s c then 4
  else if s.rdBit Reg.ewnSurvstat 2 && ((a.1 == 1 && unwritten b.1 b.2) || (b.1 == 1 && unwritten a.1 a.2)) then 1
  else max a.1 b.1

/-- Two valid copies of a compartment differ (07 R340). -/
def noteDivergence (s : Chip) (c : Coach) (comp : Nat) (cfg : CompCfg) : Chip :=
  let a := landCopy s c comp cfg 0
  let b := landCopy s c comp cfg 1
  if a.1 = 0 ∧ b.1 = 0 ∧ a.2.take 60 ≠ b.2.take 60 then
    (((s.bump Reg.ewnDivcnt).wr Reg.ewnDivlast (wn comp)).ewnFlag2 2).odoInc 17 1
  else s

/-- The landing of one IN or SAFE-U compartment of the previous coach (06 R276, R277, 07 R340). DESIGN CHOICE (notes/assumptions/11.md). -/
def landComp (s : Chip) (c : Coach) (comp : Nat) (cfg : CompCfg) : Chip :=
  match landPick s c comp cfg with
  | .some p => landOne (noteDivergence s c comp cfg) c comp cfg p.1 p.2
  | .none => missOne s comp (missCause s c comp cfg)

/-- MISS and SAFEV departures after a landing (07 R326): `before` is the state the landing started from. A landing that a swap bars tells
nothing of the node (07 R330, 18 R830). DEDUCED (notes/assumptions/81.md). -/
def departAfterLanding (before : Chip) (c : Coach) (s : Chip) (d : Nat) : Chip :=
  let owned := before.ewn.comps.filter (fun e => (e.2.kind == 2 || e.2.kind == 4) && e.2.owner == d)
  if nodeState s d ≠ 3 ∨ owned.isEmpty ∨ landBarred before c then s
  else
    let landed := owned.filterMap (fun e => landPick before c e.1 e.2)
    let run := if landed.isEmpty then (nodeSt s d).missRun + 1 else 0
    let s1 := setNodeSt s d { nodeSt s d with missRun := run }
    let lim := max (s.rdF Reg.ewnSurvcfg 15 8) 1
    applyCauses s1 d ((if landed.any (fun p => natBit (leAt p.2 57 1) 2) then [3] else []) ++ (if run ≥ lim then [2] else []))

/-- P0 lands the IN and SAFE data of the previous coach (01 R49, 06 R276). -/
def landCoach (s : Chip) : Chip :=
  let s1 := s.atPhase 5000
  match s1.ewn.prev with
  | .none => s1
  | .some c =>
    let s2 := { s1 with ewn := { s1.ewn with safeU := [] } }
    let s3 := s2.ewn.comps.foldl (fun x e =>
      if e.2.kind = 2 ∨ e.2.kind = 4 then landComp x c e.1 e.2 else x) s2
    let s4 := nodeNums.foldl (departAfterLanding s2 c) s3
    { s4 with ewn := { s4.ewn with retPrev := [] } }

/-- EXCLUDE is written (07 R351). -/
def setExclude (s : Chip) (d : Nat) (x : Bool) : Chip := s.wrBit (Reg.ewnNctl d) 1 x

/-- READMIT is written (07 R351, R325). -/
def readmit (s : Chip) (d : Nat) : Chip := setNodeSt s d { nodeSt s d with barred := false }

end Sys2Proof.Machine
end

