-- ==== Sys2Proof/Machine/Mail.lean ====
section
/-!
DEFINITION. Ewene mail (06 R278–R291, 19 R844, R845): queue entries, the mail window, carriers, retransmission, uplink frames.
-/

namespace Sys2Proof.Machine

/-- Byte `o` of a queue memory of 64 KiB held as words. -/
def queueByte (m : Tab Word) (o : Nat) : Byte :=
  BitVec.ofNat 8 ((Tab.get 0 m (o % 65536 / 4)).toNat / 2 ^ (8 * (o % 4)))

/-- `n` bytes of a queue memory from offset `o`, circular. -/
def queueBytes (m : Tab Word) (o n : Nat) : List Byte := (List.range n).map (fun i => queueByte m (o + i))

/-- A length padded to a multiple of 16. -/
def pad16 (n : Nat) : Nat := (n + 15) / 16 * 16

/-- The transmit entry that starts at byte offset `o` of the core queue (06 R290), whatever its DST and LEN. DESIGN CHOICE (notes/assumptions/91.md). -/
def coreEntry (s : Chip) (o : Nat) : MailFrame :=
  let h := queueBytes s.ewn.txMem o 16
  { dst := leAt h 0 1, type := leAt h 2 1, more := natBit (leAt h 3 1) 1, corr := leAt h 12 4
    body := queueBytes s.ewn.txMem (o + 16) (leAt h 4 2), own := 0, start := o, mseq := 0, sent := 0, tries := 0 }

/-- The entries that now lie before the tail enter the core queue, oldest first (06 R290); `fuel` bounds their number. -/
def takeEntries (s : Chip) : Nat → Chip
  | 0 => s
  | fuel + 1 =>
    let o := s.ewn.coreEnd
    let f := coreEntry s o
    let size := 16 + pad16 f.body.length
    if size ≤ (s.rdF Reg.ewnMtxtail 15 0 + 65536 - o % 65536) % 65536 then
      takeEntries ({ s with ewn := { s.ewn with
        coreQ := s.ewn.coreQ ++ [f], coreEnd := (o + size) % 65536 } }.led 1 0 1) fuel
    else s

/-- EWN_MTXTAIL is written (06 R299, 19 R844): any offset is kept as written. DESIGN CHOICE (notes/assumptions/91.md). -/
def writeMtxtail (s : Chip) (v : Nat) : Chip :=
  let s1 := takeEntries (s.wr Reg.ewnMtxtail (wn (v % 65536))) 4096
  syncHead s1

/-- The mail header of a frame from the Poermun on a ring (06 R278): what the Poermun fills (R290) stands in the frame, not in the entry.
DESIGN CHOICE (notes/assumptions/91.md). -/
def mailHeader (s : Chip) (f : MailFrame) (ring : Nat) : List Byte :=
  leBytes 1 f.dst ++ leBytes 1 0 ++ leBytes 1 f.type ++ leBytes 1 (ring + 2 * b2n f.more) ++ leBytes 2 f.body.length ++
    leBytes 2 f.mseq ++ leBytes 2 (nodeSt s f.dst).rxSeq ++ leBytes 2 0 ++ leBytes 4 f.corr

/-- A mail frame on a ring: header, body and CRC (06 R278). -/
def mailBytes (s : Chip) (f : MailFrame) (ring : Nat) : List Byte :=
  let b := mailHeader s f ring ++ f.body
  b ++ leBytes 4 (crc32c b)

/-- Line bytes a mail frame with a body of n bytes takes, with an idle block. -/
def mailLine (n : Nat) : Nat := packetLine (20 + n) + 8

/-- Line bytes that leave by phase 9,900 (06 R286): 3.125 bytes each ns. -/
def mailLimit : Nat := 30937

/-- The terminate block of a frame started now leaves by phase 9,900 (06 R286). -/
def fitsWindow (s : Chip) (n : Nat) : Bool := decide (lineNow s + packetLine (20 + n) ≤ mailLimit)

/-- A packet of `n` body bytes takes its place on the line. -/
def useLine (s : Chip) (n : Nat) : Chip := { s with ewn := { s.ewn with linePos := lineNow s + mailLine n } }

/-- CAP of a carrier body (06 R298). -/
def carrierCap (s : Chip) : Nat :=
  let c := s.rdF Reg.ewnMailcfg 31 26
  if c = 0 then 1024 else 16 * c

/-- Bytes of the core receive queue in use or reserved (06 R285). -/
def rxUsed (s : Chip) : Nat :=
  (s.rdF Reg.ewnMrxtail 15 0 + 65536 - s.rdF Reg.ewnMrxhead 15 0) % 65536 + s.ewn.carriers.foldl (fun n c => n + 16 + c.2) 0

/-- The core receive queue has room for one more carrier (06 R285); what goes to the engine (R288) is known only at the return, and its queue has
no bound. The tail never reaches the head of a queue that is not empty. DESIGN CHOICE (notes/assumptions/91.md). -/
def rxRoom (s : Chip) : Bool := decide (rxUsed s + 16 + carrierCap s < 65536)

/-- Nodes 1 to 62 in rotation from the node after `r` (06 R287). -/
def nodesFrom (r : Nat) : List Nat := (List.range 62).map (fun i => (r + i) % 62 + 1)

/-- The group a node is granted carriers in (06 R287): 0 DATA not acknowledged, 1 MREQ, 2 the other admitted nodes. -/
def carrierGroup (s : Chip) (d : Nat) : Nat :=
  if s.ewn.unacked.any (fun f => f.dst == d) then 0 else if (nodeSt s d).mreq then 1 else 2

/-- The node that the next carrier goes to (06 R287), of those in mail that are not in `done`: by group, and within it in rotation from the
node after the last one granted. DESIGN CHOICE (notes/assumptions/69.md). -/
def carrierNext (s : Chip) (done : List Nat) : Option Nat :=
  let l := (nodesFrom s.ewn.rot).filter (fun d => inMail s d && !done.contains d)
  ([0, 1, 2].flatMap (fun g => l.filter (fun d => carrierGroup s d == g))).head?

/-- A carrier may be granted: room is reserved for its return, and its line time fits (06 R285, R286). -/
def carrierFits (s : Chip) : Bool := rxRoom s && fitsWindow s (carrierCap s)

/-- A carrier to node d (06 R280), with TYPE, MSEQ and CORR 0. DEDUCED (notes/assumptions/31.md). DESIGN CHOICE (notes/assumptions/91.md). -/
def grantCarrier (s : Chip) (d : Nat) : Chip :=
  let f : MailFrame := ⟨d, 0, false, 0, bytesOf (carrierCap s) 0, 1, 0, 0, 0, 0⟩
  let img := fun r => mailHeader s { f with body := [] } r ++ f.body
  let s1 := sendBoth (useLine s (carrierCap s)) 0xE7 (fun r => img r ++ leBytes 4 (crc32c (img r)))
  { s1 with ewn := { s1.ewn with carriers := s1.ewn.carriers ++ [(d, carrierCap s)], rot := d, carSent := s1.ewn.carSent + 1 } }

/-- At most `n` more carriers (06 R286, R287): every node in mail gets one before any gets another. DEDUCED (notes/assumptions/31.md). -/
def grantCarriers (s : Chip) (done : List Nat) : Nat → Chip
  | 0 => s
  | n + 1 =>
    let done' := if (carrierNext s done).isNone then [] else done
    match carrierNext s done' with
    | .none => s
    | .some d => if carrierFits s then grantCarriers (grantCarrier s d) (d :: done') n else s

/-- The carriers of a tick (06 R286, R298). -/
def sendCarriers (s : Chip) : Chip := grantCarriers s [] (min (s.rdF Reg.ewnMailcfg 3 0) 8 - s.ewn.carSent)

/-- A frame not acknowledged is overdue (06 R284, R298). -/
def overdue (s : Chip) (f : MailFrame) : Bool :=
  decide (tickSince s.tb.tick f.sent ≥ max (s.rdF Reg.ewnMailcfg 15 8) 1)

/-- Mail of node d has failed (06 R284, 07 R326, R327). -/
def failMail (s : Chip) (d : Nat) : Chip :=
  applyCauses (loseMail (s.wrBit (Reg.ewnNmail d) 16 true) d) d [5]

/-- One overdue frame is sent again, or has used its retransmissions and fails its node (06 R284). A frame that does not fit holds back every
later frame of its queue (R286): `acc` carries the queues so held. -/
def resendFrame (acc : Chip × List Nat) (f : MailFrame) : Chip × List Nat :=
  let s := acc.1
  if !s.ewn.unacked.contains f then acc
  else if f.tries ≥ max (s.rdF Reg.ewnMailcfg 23 16) 1 then (failMail s f.dst, acc.2)
  else if acc.2.contains f.own then acc
  else if fitsWindow s f.body.length then
    let g := { f with sent := s.tb.tick, tries := f.tries + 1 }
    let s1 := (sendBoth (useLine s f.body.length) 0xE6 (mailBytes s f)).bump Reg.ewnMretx
    ({ s1 with ewn := { s1.ewn with unacked := s1.ewn.unacked.map (fun x => if x = f then g else x) } }, acc.2)
  else (s, f.own :: acc.2)

/-- Overdue frames, oldest first. -/
def overdueFrames (s : Chip) : List MailFrame := s.ewn.unacked.filter (overdue s)

/-- Every overdue frame of the window (06 R286), and the queues that one of them holds back. -/
def resendAll (s : Chip) : Chip × List Nat := (overdueFrames s).foldl resendFrame (s, [])

/-- The oldest overdue frame alone (06 R284). -/
def resendOldest (s : Chip) : Chip :=
  match overdueFrames s with
  | [] => s
  | f :: _ => (resendFrame (s, []) f).1

/-- The head of a queue may be sent for the first time: its queue is not held back, credit, and line time (06 R283, R286). A DST that is no node
has no credit. DESIGN CHOICE (notes/assumptions/91.md). -/
def mayStart (s : Chip) (held : List Nat) (q : List MailFrame) : Bool :=
  match q with
  | [] => false
  | f :: _ => !held.contains f.own && nodeNums.contains f.dst && decide (s.rdF (Reg.ewnNmail f.dst) 4 0 > 0) && fitsWindow s f.body.length

/-- A DATA frame is sent for the first time (06 R279, R283, R300). -/
def firstSend (s : Chip) (f : MailFrame) : Chip :=
  let n := nodeSt s f.dst
  let g := { f with mseq := (n.txSeq + 1) % 65536, sent := s.tb.tick, tries := 0 }
  let s1 := setNodeSt s f.dst { n with txSeq := (n.txSeq + 1) % 65536 }
  let s2 := (sendBoth (useLine s1 f.body.length) 0xE6 (mailBytes s1 g)).bump Reg.ewnMtxcnt
  { s2 with ewn := { s2.ewn with unacked := s2.ewn.unacked ++ [g] } }

/-- New DATA frames, alternately from the core queue and the engine's (06 R286); after reset the core queue is first.
DESIGN CHOICE (notes/assumptions/69.md). -/
def sendNew (s : Chip) (held : List Nat) : Nat → Chip
  | 0 => s
  | fuel + 1 =>
    let a := mayStart s held s.ewn.coreQ
    let b := mayStart s held s.ewn.engQ
    if (b && s.ewn.engTurn) || (b && !a) then
      match s.ewn.engQ with
      | [] => s
      | f :: r => sendNew (firstSend { s with ewn := { s.ewn with engQ := r, engTurn := false } } f) held fuel
    else if a then
      match s.ewn.coreQ with
      | [] => s
      | f :: r => sendNew (firstSend { s with ewn := { s.ewn with coreQ := r, engTurn := true } } f) held fuel
    else s

/-- The mail window of a tick (06 R286). -/
def mailWindow (s : Chip) : Chip :=
  if s.ewn.now.isNone then s
  else
    let r := resendAll (sendCarriers s)
    sendNew r.1 r.2 (s.ewn.coreQ.length + s.ewn.engQ.length)

/-- Frames to d that an ACK covers are retired ACKED (19 R844). An ACK beyond the last frame sent is not taken.
DEDUCED (notes/assumptions/31.md). -/
def takeAck (s : Chip) (d ack : Nat) : Chip :=
  let n := nodeSt s d
  let step := (ack + 65536 - n.acked) % 65536
  if step > (n.txSeq + 65536 - n.acked) % 65536 then s
  else
    let covered := fun (f : MailFrame) => f.dst == d && decide ((ack + 65536 - f.mseq) % 65536 < 32768)
    let done := s.ewn.unacked.filter covered
    let s1 := setNodeSt s d { n with acked := ack }
    syncHead ({ s1 with ewn := { s1.ewn with unacked := s1.ewn.unacked.filter (fun f => !covered f) } }.led 1 1 done.length)

/-- A FREED value is taken, or ignored and counted when it would exceed the frames accepted (19 R845). -/
def takeFreed (s : Chip) (d freed : Nat) : Chip :=
  let n := nodeSt s d
  if (freed + 65536 - n.freed) % 65536 ≤ heldBuffers s d then syncCred (setNodeSt s d { n with freed := freed }) d
  else syncCred ((s.bump Reg.ldgNoderef).flag Reg.ldgEvt Reg.ldgEvten 2 58) d

/-- Bytes of an entry written into the core receive queue at its tail (06 R290). -/
def putRx (s : Chip) (bytes : List Byte) : Chip :=
  let t := s.rdF Reg.ewnMrxtail 15 0
  let k := bytes.length / 4
  let m := (List.range k).foldl (fun m i => Tab.set 0 m ((t / 4 + i) % 16384) (wn (leAt bytes (4 * i) 4))) s.ewn.rxMem
  let s1 := (List.range k).foldl (fun x i => clearFlips x (0x106C0000 + (t + 4 * i) % 65536) 4) { s with ewn := { s.ewn with rxMem := m } }
  s1.wr Reg.ewnMrxtail (wn ((t + 4 * k) % 65536))

/-- Node d is in SEAT and in the NODES of the staged consist, but has not acknowledged its timetable (18 R828). -/
def seatPends (s : Chip) (d : Nat) : Bool :=
  nodeState s d == 3 && s.hst.stgNodes.contains d && !(nodeSt s d).seatAck.contains s.hst.stgTtver

/-- CST_SEATPEND while a consist is staged and verified, and SEATSOK as the map becomes all 0 (18 R828, R839). -/
def syncSeatPend (s : Chip) : Chip :=
  let map := if s.rdF Reg.cstStat 3 2 = 3 then (nodeNums.filter (seatPends s)).foldl (fun m d => m + 2 ^ d) 0 else 0
  let s1 := (s.wr Reg.cstSeatpendlo (wn (map % 2 ^ 32))).wr Reg.cstSeatpendhi (wn (map / 2 ^ 32))
  let ok := s.rdF Reg.cstStat 3 2 == 3 && map == 0
  if ok && !s.rdBit Reg.cstStat 4 then (s1.wrBit Reg.cstStat 4 true).flag Reg.cstEvt Reg.cstEvten 2 34
  else s1.wrBit Reg.cstStat 4 ok

/-- A SEATACK of node d (06 R291): status 0 is kept as the node's answer for that TTVER; while a consist is staged, any other status asks
for its timetable to be sent again (18 R828). -/
def noteSeatAck (s : Chip) (d ttver status : Nat) : Chip :=
  let n := nodeSt s d
  let others := n.seatAck.filter (· != ttver)
  let s1 := setNodeSt s d { n with seatAck := if status = 0 then ttver :: others else others }
  if s.rdF Reg.cstStat 3 2 ≠ 3 ∨ ttver ≠ s.hst.stgTtver ∨ status = 0 then s1
  else { s1 with hst := { s1.hst with resend := s1.hst.resend.filter (· != d) ++ [d] } }

/-- What an accepted frame tells of its node: NODEINFO (07 R328) and SEATACK (06 R291). -/
def noteUplink (s : Chip) (d type : Nat) (body : List Byte) : Chip :=
  let n := nodeSt s d
  if type = 1 then
    setNodeSt s d { n with info := .some ⟨leAt body 12 2, leAt body 14 2, leAt body 16 2, leAt body 18 2⟩ }
  else if type = 4 then noteSeatAck s d (leAt body 0 4) (leAt body 4 1)
  else s

/-- An accepted uplink frame of a carrier of `cap` body bytes goes to its queue (06 R288); one whose LEN is above `cap` keeps its header, with
`cap` body bytes behind it. DESIGN CHOICE (notes/assumptions/91.md). -/
def deliverUplink (s : Chip) (d cap : Nat) (frame : List Byte) : Chip :=
  let len := min (leAt frame 4 2) cap
  let entry := sliceB frame 0 16 ++ padTo (pad16 len) (sliceB frame 16 len)
  let s1 := noteUplink (s.bump Reg.ewnMrxcnt) d (leAt frame 2 1) (sliceB frame 16 len)
  if natBit (leAt frame 12 4) 31 then
    { s1 with ewn := { s1.ewn with engRx := s1.ewn.engRx ++ [(d, sliceB frame 0 16 ++ sliceB frame 16 len)] } }
  else (putRx s1 entry).ewnFlag 1

/-- A carrier copy of `cap` body bytes came back intact: its CRC is correct. -/
def carrierOk (cap ring : Nat) (b : List Byte) : Bool :=
  let n := 16 + cap
  b.length == n + 4 && leAt b n 4 == crc32c (b.take n) && leAt b 3 1 % 2 == ring

/-- A copy that node d has filled (06 R280). -/
def filledBy (d : Nat) (b : List Byte) : Bool := leAt b 1 1 == d

/-- A returned carrier that node d has filled (06 R281, R282): the frame is accepted when its MSEQ follows, ACK and FREED are taken. -/
def uplinkFrom (s : Chip) (d cap : Nat) (b : List Byte) : Chip :=
  let n := nodeSt s d
  let len := leAt b 4 2
  let mseq := leAt b 6 2
  let tell := fun (x : Chip) => takeFreed (takeAck x d (leAt b 8 2)) d (leAt b 10 2)
  if mseq = (n.rxSeq + 1) % 65536 then
    let s1 := tell (setNodeSt s d { n with rxSeq := mseq })
    deliverUplink s1 d cap b
  else if len > 0 then s.bump Reg.ewnMdup
  else if mseq = n.rxSeq then tell s
  else s

/-- The oldest carrier granted to node d and not returned, with the room reserved for it (06 R285). -/
def carrierOf (s : Chip) (d : Nat) : Option (Nat × Nat) := s.ewn.carriers.find? (fun c => c.1 == d)

/-- The reservation of a carrier ends (06 R285). -/
def dropCarrier (s : Chip) (c : Nat × Nat) : Chip := { s with ewn := { s.ewn with carriers := s.ewn.carriers.erase c } }

/-- Copies that came back on the port of the other ring (07 R337). -/
def noteWraps (s : Chip) (a b : List Byte) (own : OwnPorts) : Chip :=
  { s with ewn := { s.ewn with
      wrapA := s.ewn.wrapA || (!a.isEmpty && !own.a), wrapB := s.ewn.wrapB || (!b.isEmpty && !own.b) } }

/-- A carrier granted to node d returns, as the copies that came back on ring A and ring B (06 R282): the ring A copy if both are intact and
filled, the filled one if one is; none filled and one intact is a carrier returned unused. -/
def uplinkFrame (s : Chip) (d : Nat) (a b : List Byte) (own : OwnPorts) : Chip :=
  match carrierOf s d with
  | .none => s
  | .some c =>
    let s1 := noteWraps (dropCarrier s c) a b own
    let okA := carrierOk c.2 0 a
    let okB := carrierOk c.2 1 b
    if okA && filledBy d a then uplinkFrom s1 d c.2 a
    else if okB && filledBy d b then uplinkFrom s1 d c.2 b
    else if (okA && filledBy 0 a) || (okB && filledBy 0 b) then s1.bump Reg.ewnCarrunused
    else s1

end Sys2Proof.Machine
end

