-- ==== Sys2Proof/Machine/Analog.lean ====
section
/-!
DEFINITION. Converters and PWM outputs (chapter 10).
-/

namespace Sys2Proof.Machine

/-- A converter's sequencer. -/
def adcSt (s : Chip) (k : Nat) : AdcSeq := Tab.get AdcSeq.zero s.adc k

/-- A converter's sequencer replaced; RUN and WAIT follow (R461). An entry is in progress until its result is written (R442). -/
def setAdc (s : Chip) (k : Nat) (c : AdcSeq) : Chip :=
  let s1 := { s with adc := Tab.set AdcSeq.zero s.adc k c }
  (s1.wrBit (Reg.adcStat k) 0 (c.running.isSome || c.waiting.isSome)).wrBit (Reg.adcStat k) 1 c.waiting.isSome

/-- A flag of ADCk_EVT (R464). -/
def Chip.adcFlag (s : Chip) (k e : Nat) : Chip := s.flag (Reg.adcEvt k) (Reg.adcEvten k) e (384 + 8 * k + e)

/-- A refused write loads ADCk_CFGERR (R449, R462). -/
def adcRefuse (s : Chip) (k code off : Nat) : Chip := (s.wr (Reg.adcCfgerr k) (wn (code * 2 ^ 28 + off))).adcFlag k 5

/-- ENTRY of ADCk_STAT. -/
def adcEntry (s : Chip) (k : Nat) : Nat := s.rdF (Reg.adcStat k) 13 8

/-- The entry starts at time `t` in ns (R442). -/
def startEntry (s : Chip) (k e t : Nat) : Chip :=
  let c := adcSt s k
  setAdc (s.wrF (Reg.adcStat k) 13 8 e) k { c with running := .some t, waiting := .none, refSeen := s.rdBit (Reg.adcStat k) 2 }

/-- The sequencer reaches entry e at time `t` (R446): a SYNC entry starts only at phase 0, and is late when the last phase 0 fell within
an earlier entry of the pass. -/
def reachEntry (s : Chip) (k e t : Nat) : Chip :=
  if !entrySync s k e ∨ t = s.tb.base then startEntry s k e t
  else
    let c := adcSt s k
    let s1 := setAdc (s.wrF (Reg.adcStat k) 13 8 e) k { c with running := .none, waiting := .some t }
    if c.spanned then (s1.bump (Reg.adcLatecnt k)).adcFlag k 2 else s1

/-- A pass starts at entry 0 at time `t` (R448). -/
def startPass (s : Chip) (k t : Nat) : Chip :=
  reachEntry (setAdc s k { adcSt s k with running := .none, waiting := .none, spanned := false }) k 0 t

/-- The pass ends (R445). -/
def passEnd (s : Chip) (k t : Nat) : Chip :=
  let s1 := (s.bump (Reg.adcPasscnt k)).adcFlag k 0
  if s1.rdBit (Reg.adcCtl k) 1 then startPass s1 k t
  else setAdc s1 k { adcSt s1 k with running := .none, waiting := .none }

/-- The corrected result of an entry (R443): codes in order. -/
def entryResult (codes : List Int) (avg : Bool) (ofs gain : Int) : Int :=
  let r := if avg then divNE (codes.foldl (· + ·) 0 * 256) codes.length else codes.getLastD 0 * 256
  roundNE (gain * r) 30 + ofs

/-- A conversion reports OR (R439, 20 R888): its differential input lies beyond half an LSB outside the codes, at 5 V for 262,144 LSB, or the
mean of the two balls lies outside -0.25 V to +1.25 V. DEDUCED (notes/assumptions/39.md). -/
def adcOutside (x : AdcSample) : Bool :=
  let lsb2 := (x.p - x.n) * 524288
  decide (lsb2 > 262143 * 5000000) || decide (lsb2 < -262145 * 5000000) || decide (x.p + x.n < -500000) || decide (x.p + x.n > 2500000)

/-- An entry's last conversion ends in this tick (R442, R443, R445): `codes` are its conversions. DEDUCED (notes/assumptions/39.md). -/
def entryEnd (s : Chip) (k : Nat) (codes : List AdcSample) : Chip :=
  let c := adcSt s k
  match c.running with
  | .none => s
  | .some t0 =>
    let e := adcEntry s k
    let w := adcWord s k e 1
    let stop := t0 + entryTime s k e
    let s0 := s.atPhase (stop - s.tb.base)
    let cs := (codes.take (fld w 7 4 + 1)).map (fun x => x.code.toInt)
    let i := fld w 3 0
    let v := entryResult cs (bit w 8) (s32 (s0.rd (Reg.adcOfs k i))) (s32 (s0.rd (Reg.adcGain k i)))
    let r : AdcResult := ⟨e, sat32 v, sat32 v != v, (codes.take (fld w 7 4 + 1)).any adcOutside, c.refSeen || s0.rdBit (Reg.adcStat k) 2,
      stop + 20⟩
    let s1 := setAdc s0 k { c with running := .none, result := .some r }
    if !s.inTick stop then s
    else if e + 1 ≥ adcNent s k then passEnd s1 k stop else reachEntry s1 k (e + 1) stop

/-- A result is written through P2 20 ns after its entry ended (R442, R444). DEDUCED (notes/assumptions/39.md). -/
def entryWrite (s : Chip) (k : Nat) : Chip :=
  let c := adcSt s k
  match c.result with
  | .none => s
  | .some r =>
    let s1 := setAdc (s.atPhase (r.due - s.tb.base)) k { c with result := .none }
    let w := adcWord s k r.entry 0
    if !s.inTick r.due then s
    else if bit w 31 then
      let s2 := (transaction s1 2 ⟨15, .chan 2 k, .none⟩ (64 * k + r.entry)
        [(fld w 17 0, ⟨.some r.value, ⟨true, r.ovr, r.sat, r.fault⟩⟩)] []).bump (Reg.adcEntcnt k)
      if r.ovr then (s2.bump (Reg.adcOvrcnt k)).adcFlag k 1 else s2
    else s1

/-- A SYNC entry that has waited for phase 0 starts there (R446). -/
def syncStart (s : Chip) (k : Nat) : Chip :=
  match (adcSt s k).waiting with
  | .none => s
  | .some t => if s.tb.base ≤ t then s else startEntry s k (adcEntry s k) s.tb.base

/-- Phase 0 at a converter (R446): it falls within an entry that has started before it and ends after it, or within none.
DEDUCED (notes/assumptions/39.md). -/
def adcBoundary (s : Chip) (k : Nat) : Chip :=
  let c := adcSt s k
  let now := s.tb.base
  let inside := match c.running with
    | .some t => decide (t < now) && decide (now < t + entryTime s k (adcEntry s k))
    | .none => false
  { s with adc := Tab.set AdcSeq.zero s.adc k { c with spanned := inside } }

/-- The sequencer stops and the entry in progress is abandoned unwritten (R448, R450). -/
def adcStop (s : Chip) (k : Nat) : Chip := setAdc s k AdcSeq.zero

/-- ADCk_CTL.ON is written (R447, R448). -/
def adcOnWrite (s : Chip) (k : Nat) (on : Bool) : Chip :=
  if s.rdBit (Reg.adcCtl k) 0 == on then s
  else if on then
    if adcTableOk s k && decide (1 ≤ adcNent s k) && decide (adcNent s k ≤ 64) then
      startPass (s.wrBit (Reg.adcCtl k) 0 true) k s.nowNs
    else adcRefuse s k 2 0
  else adcStop (s.wrBit (Reg.adcCtl k) 0 false) k

/-- ADCk_CMD.GO is written (R448). -/
def adcGo (s : Chip) (k : Nat) : Chip :=
  let c := adcSt s k
  if !s.rdBit (Reg.adcCtl k) 0 then adcRefuse s k 6 4
  else if c.running.isSome || c.waiting.isSome || c.result.isSome then adcRefuse s k 3 4
  else startPass s k s.nowNs

/-- The reference leaves its tolerance (R440, R444). -/
def refBad (s : Chip) (k : Nat) : Chip :=
  if s.rdBit (Reg.adcStat k) 2 then s
  else
    let s1 := (s.wrBit (Reg.adcStat k) 2 true).adcFlag k 3
    { s1 with adc := Tab.set AdcSeq.zero s1.adc k { adcSt s1 k with refSeen := (adcSt s1 k).running.isSome } }

/-- The reference is back within its tolerance (R440, R461). -/
def refClear (s : Chip) (k : Nat) : Chip := s.wrBit (Reg.adcStat k) 2 false

/-- A table word names a SID that this converter produces (R441, R449). -/
def adcSidOk (s : Chip) (k : Nat) (v : Word) : Bool :=
  !bit v 31 || (match Tab.get? s.store.decls (fld v 17 0) with
    | .some d => d.producer == .chan 2 k
    | .none => false)

/-- The values of N that R453 allows. -/
def pwmRates : List Nat := [1, 2, 4, 5, 8, 10, 16, 20, 25, 40, 50, 80, 100]

/-- The CTL register of output n (R452, R466). DEDUCED (notes/assumptions/40.md). -/
def pwmCtl (n : Nat) : Nat := Reg.adcPwmctl (n / 4) (n % 4)

/-- The duty register D of output n. -/
def pwmDuty (s : Chip) (n : Nat) : Nat := s.rdF (Reg.adcPwmduty (n / 4) (n % 4)) 15 0

/-- The duty source names a class OUT SID (R454). -/
def pwmSidOk (s : Chip) (sid : Nat) : Bool :=
  match Tab.get? s.store.decls sid with
  | .some d => d.isOut
  | .none => false

/-- The SID's force group is forced (R457). -/
def sidForced (s : Chip) (sid : Nat) : Bool :=
  match Tab.get? s.store.decls sid with
  | .some d => d.isOut && s.forced d.fgrp
  | .none => false

/-- The output loads its duty register at phase 9,000 (R454, R457). DEDUCED (notes/assumptions/85.md). -/
def loadDuty (s : Chip) (n : Nat) : Chip :=
  let k := n / 4
  let j := n % 4
  let sid := s.rdF (Reg.adcPwmsid k j) 17 0
  if s.rst.pwmHold && !sidForced s sid then s
  else
    let (s0, r) := lookEntry s 15 sid
    let v := r.value
    let d := clampI v 0 65535
    let s1 := s0.wr (Reg.adcPwmduty k j) (w32 d)
    if d = v then s1 else ((s1.bump (Reg.adcPwmnarrow k j)).adcFlag k 4).odoInc 4 1

/-- Every output at phase 9,000 (R454), from BOOT_DONE on (R458). -/
def loadDuties (s : Chip) : Chip := if s.booted || s.rst.inCore then (List.range 32).foldl loadDuty s else s

/-- H of R455 in ns for duty d and period p. DEDUCED (notes/assumptions/40.md). -/
def pwmHigh (d p : Nat) : Nat := (roundNE ((d : Int) * p) 16).toNat

/-- The active interval of a period that starts at `start` (R455, R456): at most to the period's end, throughout with H = P. -/
def pwmInterval (start p h stop : Nat) (centre : Bool) : Nat × Nat :=
  let a := if centre then start + (p - h) / 2 else start
  if h = p then (start, stop) else (min a stop, min (a + h) stop)

/-- Period i of a tick begins at an output (R453–R456, R458). DEDUCED (notes/assumptions/40.md). -/
def pwmPeriod (s : Chip) (n i : Nat) : Chip :=
  let c := s.rd (pwmCtl n)
  let rate := fld c 22 16
  if !bit c 0 ∨ !pwmRates.contains rate ∨ i ≥ rate then s
  else
    let p := 10000 / rate
    let start := i * p
    let h := pwmHigh (pwmDuty s n) p
    let stop := if i + 1 = rate then s.tb.tickLen else start + p
    let iv := pwmInterval start p h stop (bit c 2)
    let s1 := (s.atPhase start).wr (Reg.adcPwmhigh (n / 4) (n % 4)) (wn h)
    { s1 with pins := { s1.pins with pwm := Tab.set .none s1.pins.pwm n (.some ⟨start, iv.1, iv.2⟩) } }

/-- PWMn_CTL.ON is written (R458). With ON = 0 the output is inactive. -/
def pwmOnWrite (s : Chip) (n : Nat) (on : Bool) : Chip :=
  let off := 0x1000 + 0x40 * (n % 4)
  if !on then
    let s1 := s.wrBit (pwmCtl n) 0 false
    { s1 with pins := { s1.pins with pwm := Tab.set .none s1.pins.pwm n .none } }
  else if !pwmRates.contains (s.rdF (pwmCtl n) 22 16) then adcRefuse s (n / 4) 2 off
  else if !pwmSidOk s (s.rdF (Reg.adcPwmsid (n / 4) (n % 4)) 17 0) then adcRefuse s (n / 4) 5 off
  else s.wrBit (pwmCtl n) 0 true

end Sys2Proof.Machine
end

