-- ==== Sys2Proof/Machine/Can.lean ====
section
/-!
DEFINITION. The CAN FD channels and the schedule matrix (chapter 08): windows, receiving, transmit buffers, releases, errors and bus
states. The error counters follow ISO 11898-1 as R376 names it.
-/

namespace Sys2Proof.Machine

/-- The window of channel n (R383). -/
def canBase (n : Nat) : Nat := 0x11200000 + 0x10000 * n

/-- A channel's further state. -/
def canSt (s : Chip) (n : Nat) : CanChan := Tab.get CanChan.zero s.can n

/-- A channel's further state replaced. -/
def setCan (s : Chip) (n : Nat) (c : CanChan) : Chip := { s with can := Tab.set CanChan.zero s.can n c }

/-- A word of a channel's window. -/
def canWord (s : Chip) (n off : Nat) : Word := s.rd (canBase n + off)

/-- A flag of CANn_EVT (R393). -/
def Chip.canFlag (s : Chip) (n e : Nat) : Chip := s.flag (Reg.canEvt n) (Reg.canEvten n) e (128 + 16 * n + e)

/-- A refused write loads CANn_CFGERR (R388). -/
def canRefuse (s : Chip) (n code off : Nat) : Chip :=
  (s.wr (Reg.canCfgerr n) (wn (code * 2 ^ 28 + off))).canFlag n 9

/-- The channel takes part on the bus: ON, and not switched off by shedding (R382, R384). -/
def canOn (s : Chip) (n : Nat) : Bool := s.rdBit (Reg.canCtl n) 0 && !(canSt s n).shed

/-- The channel runs as its CS fields see it: ON is 1. -/
def canRunning (s : Chip) (n : Nat) : Bool := s.rdBit (Reg.canCtl n) 0

/-- STATE of R387. -/
def canBusState (s : Chip) (n : Nat) : Nat :=
  let c := canSt s n
  if !(s.rdBit (Reg.canCtl n) 0 && !c.shed || c.leave != 0) || !c.joined then 0
  else if c.tec > 255 then 3
  else if c.tec > 127 || c.recv > 127 then 2
  else 1

/-- STATE, TEC, RP and REC as CANn_STAT shows them (R387). -/
def syncCanStat (s : Chip) (n : Nat) : Chip :=
  let c := canSt s n
  let a := Reg.canStat n
  ((((s.wrF a 31 30 (canBusState s n)).wrF a 24 16 c.tec).wrBit a 15 (decide (c.recv > 127))).wrF a 14 8 (min c.recv 127))

/-- CANn_TXPEND0 and CANn_TXPEND1: the buffers pending or on the bus (R389). -/
def syncCanPend (s : Chip) (n : Nat) : Chip :=
  let c := canSt s n
  let bufs := (c.pend ++ c.bus.toList).map (·.buf)
  let word := fun lo => wn (((bufs.filter (fun b => decide (lo ≤ b ∧ b < lo + 32))).foldl (fun m b => natSetBit m (b - lo)) 0))
  (s.wr (Reg.canTxpend0 n) (word 0)).wr (Reg.canTxpend1 n) (word 32)

/-- The ledger counter of a result (R368, 19 R862). -/
def canExit : Nat → Nat
  | 1 => 1
  | 2 => 2
  | 3 => 3
  | 4 => 5
  | 5 => 6
  | 6 => 7
  | _ => 8

/-- A transmission ends with a result (R368): RESULT, its counter, its exit of the ledger. A frame that never started has no tick of its
start, so that field is a free value. DESIGN CHOICE (notes/assumptions/79.md). -/
def canRetire (s : Chip) (n : Nat) (p : CanPend) (code : Nat) : Chip :=
  let a := canBase n + 0x2000 + 0x80 * p.buf + 76
  let stamp := match p.sof with
    | .some t => t % 65536
    | .none => Config.freeNat s.draws % 65536
  let s0 := match p.sof with
    | .some _ => s
    | .none => s.draw
  let s1 := (s0.wr a (wn (stamp * 65536 + code))).ledCan n (canExit code) 1
  if code = 1 then (s1.bump (Reg.canTxsent n)).canFlag n 2
  else if code = 2 then (s1.bump (Reg.canTxlate n)).canFlag n 3
  else s1

/-- Several transmissions end with one result. -/
def canRetireAll (s : Chip) (n : Nat) (ps : List CanPend) (code : Nat) : Chip :=
  ps.foldl (fun x p => canRetire x n p code) s

/-- The words ID, FLAGS and DATA of a buffer (R364, R365). -/
def bufWords (s : Chip) (n b : Nat) : List Word := (List.range 18).map (fun i => canWord s n (0x2000 + 0x80 * b + 4 * i))

/-- SCHED of a buffer. -/
def bufSched (s : Chip) (n b : Nat) : Bool := bit (canWord s n (0x2000 + 0x80 * b + 72)) 0

/-- The buffer is pending or on the bus. -/
def bufBusy (s : Chip) (n b : Nat) : Bool :=
  (canSt s n).pend.any (fun p => p.buf == b) || (canSt s n).bus.any (fun p => p.buf == b)

/-- A buffer becomes pending (R365, R366, R371): its words are copied, and one unit is issued in the ledger. -/
def makePending (s : Chip) (n b : Nat) (sched : Bool) (rel win : Nat) : Chip :=
  let c := canSt s n
  let p : CanPend := ⟨b, sched, rel, win, bufWords s n b, .none, false⟩
  syncCanPend ((setCan s n { c with pend := c.pend ++ [p] }).ledCan n 0 1) n

/-- A request of one buffer (R366, R369). -/
def canRequest (s : Chip) (n b : Nat) : Chip :=
  let off := if b < 32 then 0x18 else 0x1C
  if !canOn s n || s.rdBit (Reg.canCtl n) 3 || bufSched s n b || bufBusy s n b then canRefuse s n 3 off
  else makePending s n b false 0 0

/-- CANn_TXREQ0 or CANn_TXREQ1 is written (R366, R389). -/
def canTxreq (s : Chip) (n : Nat) (hi : Bool) (mask : Word) : Chip :=
  (List.range 32).foldl (fun x j => if bit mask j then canRequest x n (j + 32 * b2n hi) else x) s

/-- An abort of one buffer (R367): a frame on the bus is not retransmitted. -/
def canAbort (s : Chip) (n b : Nat) : Chip :=
  let c := canSt s n
  match c.pend.find? (fun p => p.buf == b) with
  | .some p => syncCanPend (canRetire (setCan s n { c with pend := c.pend.filter (fun q => q.buf != b) }) n p 3) n
  | .none =>
    match c.bus with
    | .some p => if p.buf = b then setCan s n { c with bus := .some { p with quit := true } } else s
    | .none => s

/-- CANn_TXABORT0 or CANn_TXABORT1 is written (R367, R389). -/
def canTxabort (s : Chip) (n : Nat) (hi : Bool) (mask : Word) : Chip :=
  (List.range 32).foldl (fun x j => if bit mask j then canAbort x n (j + 32 * b2n hi) else x) s

/-- The order of an identifier in arbitration, lower first (R366): base bits, RTR or SRR, IDE, extension, RTR. -/
def arbKey (id : Word) : Nat :=
  let rtr := fld id 31 31
  if bit id 29 then
    fld id 28 18 * 2 ^ 21 + 2 ^ 20 + 2 ^ 19 + fld id 17 0 * 2 + rtr
  else fld id 10 0 * 2 ^ 21 + rtr * 2 ^ 20

/-- A transmission may start now: within its window if released (R373), and FD only while FD frames are sent (R384). -/
def mayArbitrate (s : Chip) (n : Nat) (p : CanPend) : Bool :=
  (!p.sched || decide (s.nowNs < p.rel + 1000 * p.win)) && (!bit (p.words.headD 0) 30 || s.rdBit (Reg.canCtl n) 2)

/-- The transmission that the channel offers the bus (R366). DEDUCED (notes/assumptions/35.md). -/
def canOffer (s : Chip) (n : Nat) : Option CanPend :=
  ((canSt s n).pend.filter (mayArbitrate s n)).foldl (fun best p => match best with
    | .none => .some p
    | .some q =>
      let kp := arbKey (p.words.headD 0)
      let kq := arbKey (q.words.headD 0)
      if kp < kq ∨ (kp = kq ∧ p.buf < q.buf) then .some p else .some q) .none

/-- A frame may start: the channel has joined, is not bus-off or listening, nothing of its own is on the bus, no restart is running
(R369, R376, R381). -/
def mayTransmit (s : Chip) (n : Nat) : Bool :=
  canOn s n && !s.rdBit (Reg.canCtl n) 3 && (canBusState s n == 1 || canBusState s n == 2) && (canSt s n).bus.isNone &&
    !s.rdBit Reg.sysStat 1

/-- A transmission that lost arbitration or was hit by an error (R366, R367, R368, R373): it is pending again, or ends. -/
def canAgain (s : Chip) (n : Nat) (p : CanPend) : Chip :=
  let c := canSt s n
  if p.quit then canRetire s n p 3
  else if c.leave ≠ 0 then canRetire s n p c.leave
  else if p.sched then
    if s.nowNs ≥ p.rel + 1000 * p.win then canRetire s n p 2 else setCan s n { c with pend := c.pend ++ [p] }
  else if s.rdBit (Reg.canCtl n) 4 then canRetire s n p 2
  else setCan s n { c with pend := c.pend ++ [p] }

/-- A pending buffer begins its start of frame and wins arbitration, or loses it (R366). -/
def canStartFrame (s : Chip) (n ph : Nat) (won : Bool) : Chip :=
  let s0 := s.atPhase ph
  if !mayTransmit s0 n then s
  else match canOffer s0 n with
    | .none => s
    | .some p =>
      let c := canSt s0 n
      let p' := { p with sof := .some s0.tb.tick }
      let s1 := setCan s0 n { c with pend := c.pend.filter (fun q => q.buf != p.buf) }
      syncCanPend (if won then setCan s1 n { canSt s1 n with bus := .some p' } else canAgain s1 n p') n

/-- The channel goes off once nothing of its own is on the bus (R369, R382). -/
def canLeave (s : Chip) (n : Nat) : Chip :=
  let c := canSt s n
  if c.leave ≠ 0 ∧ c.bus.isNone then setCan s n { c with leave := 0, joined := false } else s

/-- The frame measures its transmitter delay (R357): an FD frame with BRS under EN. -/
def takeTdcv (s : Chip) (n : Nat) (p : CanPend) (tdcv : Nat) : Chip :=
  if bit (p.words.headD 0) 30 && bit (p.words.getD 1 0) 4 && s.rdBit (Reg.canTdc n) 8 then s.wrF (Reg.canTdc n) 23 16 tdcv else s

/-- A transmitted frame ends without error (R368, R357): `tdcv` is the delay measured when it was an FD frame with BRS.
PRESUMED (notes/assumptions/34.md). -/
def canFrameEnd (s : Chip) (n ph tdcv : Nat) : Chip :=
  let c := canSt s n
  match c.bus with
  | .none => s
  | .some p =>
    let s1 := setCan (s.atPhase ph) n { c with bus := .none, tec := c.tec - 1 }
    let s2 := canRetire s1 n p 1
    syncCanPend (syncCanStat (canLeave (takeTdcv s2 n p tdcv) n) n) n

/-- The window of a released frame closes before it has started (R373). -/
def canExpire (s : Chip) (n b ph : Nat) : Chip :=
  let s0 := s.atPhase ph
  let c := canSt s0 n
  match c.pend.find? (fun p => p.buf == b && p.sched && decide (s0.nowNs ≥ p.rel + 1000 * p.win)) with
  | .none => s
  | .some p => syncCanPend (canRetire (setCan s0 n { c with pend := c.pend.filter (fun q => q.buf != b) }) n p 2) n

/-- Entering bus-off (R377): every buffer pending or on the bus ends BUSOFF. -/
def canEnterBusoff (s : Chip) (n : Nat) : Chip :=
  let c := canSt s n
  let s1 := canRetireAll (setCan s n { c with pend := [], bus := .none, recovering := false }) n (c.bus.toList ++ c.pend) 4
  ((s1.bump (Reg.canBoffcnt n)).canFlag n 6).odoInc 12 1

/-- TEC and REC after an error (R376, R380, ISO 11898-1): 8 more for the transmitter of the frame, but for its two exceptions, an
acknowledgement error of an error-passive channel that saw no dominant bit in its flag and a stuff error of arbitration on its own recessive
stuff bit; 1 more for a receiver; 8 more for a bit error in a flag, for a run of dominant bits, and for a receiver whose flag is followed by a
dominant bit. PRESUMED (notes/assumptions/34.md). -/
def canCount (c : CanChan) (code : Nat) (kind : CanErr) : CanChan :=
  let up := fun (tx : Bool) (k : Nat) => if tx then { c with tec := c.tec + 8 } else { c with recv := min (c.recv + k) 255 }
  match kind with
  | .frame dominant stuffArb =>
    if c.bus.isSome ∧ ((code = 3 ∧ (c.tec > 127 ∨ c.recv > 127) ∧ !dominant) ∨ (code = 1 ∧ stuffArb)) then c else up c.bus.isSome 1
  | .flagBit | .dominantRun => up c.flagTx 8
  | .dominantAfter => if c.flagTx then c else up false 8

/-- The counters of a channel have moved (R376, R377): the bus state follows. `before` is STATE before the error.
PRESUMED (notes/assumptions/34.md). -/
def canErrorState (s : Chip) (n before : Nat) : Chip :=
  let s1 := if (canSt s n).tec > 255 then canEnterBusoff s n else s
  let s2 := if before = 1 ∧ canBusState s1 n = 2 then (s1.canFlag n 5).odoInc 11 1 else s1
  syncCanPend (syncCanStat (canLeave s2 n) n) n

/-- A bus error is detected (R376): counted, and LEC loaded. -/
def noteBusError (s : Chip) (n code : Nat) : Chip :=
  (((s.bump (Reg.canBuserr n)).wrF (Reg.canStat n) 29 27 code).canFlag n 4).odoInc 13 1

/-- An error of the bus (R376): the counters move, the state follows; a frame of its own is retransmitted or ends. `tdcv` is the delay
measured when the error struck a frame of its own behind FDF (R357). PRESUMED (notes/assumptions/34.md). -/
def canBusError (s : Chip) (n ph code : Nat) (kind : CanErr) (tdcv : Option Nat) : Chip :=
  if canBusState s n ≠ 1 ∧ canBusState s n ≠ 2 then s
  else
    let before := canBusState s n
    let c := canSt s n
    let s0 := s.atPhase ph
    let c1 := canCount c code kind
    match kind with
    | .frame _ _ =>
      let s1 := setCan (noteBusError s0 n code) n { c1 with bus := .none, flagTx := c.bus.isSome }
      match c.bus with
      | .none => canErrorState s1 n before
      | .some p =>
        let s2 := match tdcv with
          | .some d => takeTdcv s1 n p d
          | .none => s1
        if c1.tec > 255 then canErrorState (setCan s2 n { canSt s2 n with bus := .some p }) n before
        else canErrorState (canAgain s2 n p) n before
    | .flagBit => canErrorState (setCan (noteBusError s0 n code) n c1) n before
    | _ => canErrorState (setCan s0 n c1) n before

/-- The channel leaves bus-off after its 128 occurrences of 11 recessive bits (R378). -/
def canRecovered (s : Chip) (n : Nat) : Chip :=
  let c := canSt s n
  if canBusState s n = 3 ∧ (!s.rdBit (Reg.canCtl n) 5 ∨ c.recovering) then
    syncCanStat ((setCan s n { c with tec := 0, recv := 0, recovering := false }).canFlag n 7) n
  else s

/-- RECOVER is written (R378, R384). -/
def canRecoverWrite (s : Chip) (n : Nat) : Chip :=
  if canBusState s n = 3 then setCan s n { canSt s n with recovering := true } else s

/-- The channel has seen 11 recessive bits and joins the bus, once CORE is released (R381, R387). -/
def canJoin (s : Chip) (n : Nat) : Chip :=
  if canOn s n && !s.rst.inCore && !(canSt s n).joined then syncCanStat (setCan s n { canSt s n with joined := true }) n else s

/-- Every buffer pending and not on the bus ends with a result, and a frame on the bus runs to its end (R369, R382). -/
def canSwitchOff (s : Chip) (n code : Nat) : Chip :=
  let c := canSt s n
  let s1 := canRetireAll (setCan s n { c with pend := [], leave := code }) n c.pend code
  syncCanPend (syncCanStat (canLeave s1 n) n) n

/-- Island 16 + n is powered while the channel is on and not shed (17 R783). -/
def canPower (s : Chip) (n : Nat) : Chip := if canOn s n then askStart s (16 + n) else gateIsland s (16 + n)

/-- Supply-sag shedding switches a channel with ESS = 0 off (R382). -/
def canShed (s : Chip) (n : Nat) : Chip :=
  if canOn s n && !s.rdBit (Reg.canCtl n) 7 then
    let s1 := canSwitchOff s n 5
    canPower (syncCanStat (setCan s1 n { canSt s1 n with shed := true }) n) n
  else s

/-- The stage that sheds CAN channels is in force (R382, 17 R790). -/
def canStage (s : Chip) : Bool := decide (s.rdF Reg.pwrStat 2 0 ≥ 4)

/-- CANn_CTL.ON is written (R369, R384): a channel turned on while its stage sheds it stays off (R382). A frame of its own that is still on
the bus runs to its end as before (R369), with its errors counted (R376); then the channel integrates anew.
DEDUCED (notes/assumptions/35.md). -/
def canOnWrite (s : Chip) (n : Nat) (on : Bool) : Chip :=
  if s.rdBit (Reg.canCtl n) 0 == on then s
  else
    let s1 := s.wrBit (Reg.canCtl n) 0 on
    let s2 := canPower (if on then syncCanStat s1 n else canSwitchOff s1 n 7) n
    if on && canStage s then canShed s2 n else s2

/-- The stage is left and the channel comes back on (R382): it integrates anew, once a frame of its own still on the bus has ended.
DEDUCED (notes/assumptions/35.md). -/
def canUnshed (s : Chip) (n : Nat) : Chip :=
  if (canSt s n).shed then canPower (syncCanStat (setCan s n { canSt s n with shed := false }) n) n else s

/-- A consist has just set the channels' CTL words (R381, 17 R783): their islands follow, and so does STATE. -/
def canStart (s : Chip) : Chip := (List.range 8).foldl (fun x n => canPower (syncCanStat x n) n) s

/-- The channels follow the stage in force (R382, 17 R790): as the consist is loaded, and as CORE comes back from a warm restart. -/
def canFollowStage (s : Chip) : Chip := (List.range 8).foldl (if canStage s then canShed else canUnshed) s

/-- CORE is reset (R381): every buffer still pending ends RESTART, in the ledger; the channel's state is lost. -/
def canReset (s : Chip) (n : Nat) : Chip :=
  let c := canSt s n
  let k := c.pend.length + c.bus.toList.length
  setCan (s.ledCan n 7 k) n CanChan.zero

/-- Data bytes of a buffer by DLC and FDF (ISO 11898-1). -/
def dlcBytes (fd : Bool) (dlc : Nat) : Nat :=
  if dlc ≤ 8 then dlc
  else if !fd then 8
  else match dlc with
    | 9 => 12
    | 10 => 16
    | 11 => 20
    | 12 => 24
    | 13 => 32
    | 14 => 48
    | _ => 64

/-- The data length of a buffer; a remote frame has no data. -/
def bufLen (s : Chip) (n b : Nat) : Nat :=
  let id := canWord s n (0x2000 + 0x80 * b)
  if bit id 31 then 0 else dlcBytes (bit id 30) (fld (canWord s n (0x2000 + 0x80 * b + 4)) 3 0)

/-- Bytes a field of a table entry takes: W of R362, with 3 as one byte in the pack table (R372). -/
def fieldBytes (w : Nat) : Nat := if w = 1 then 2 else if w = 2 then 4 else 1

/-- Byte `o` of a buffer's DATA replaced. -/
def setBufByte (s : Chip) (n b o : Nat) (x : Byte) : Chip :=
  let a := canBase n + 0x2000 + 0x80 * b + 8 + o / 4 * 4
  (clearFlips s (a + o % 4) 1).wrF a (o % 4 * 8 + 7) (o % 4 * 8) x.toNat

/-- A pack field's range (R372, 06 R265). -/
def packRange (w : Nat) (signed : Bool) (v : Int) : Int :=
  if signed then clampI v (-(2 ^ (8 * w - 1) : Int)) (2 ^ (8 * w - 1) - 1) else clampI v 0 (2 ^ (8 * w) - 1)

/-- One pack field of a buffer takes the composed value of its SID (R372). -/
def packField (n b : Nat) (s : Chip) (i : Nat) : Chip :=
  let e := canWord s n (0x7800 + 8 * i)
  let off := fld (canWord s n (0x7800 + 8 * i + 4)) 5 0
  let (s0, r) := lookEntry s 15 (fld e 17 0)
  let w := fld e 27 26
  let k := fieldBytes w
  let v := if w = 3 then (r.status : Int) else packRange k (bit e 24) r.value
  let s1 := if w ≠ 3 ∧ v ≠ r.value then (s0.bump (Reg.canNarrow n)).odoInc 3 1 else s0
  let num := (v % (2 ^ (8 * k) : Int)).toNat
  let bytes := if bit e 25 then beBytes k num else leBytes k num
  (bytes.zip (List.range k)).foldl (fun x p => setBufByte x n b (off + p.2) p.1) s1

/-- A buffer's PACKCNT fields are packed (R371). -/
def packBuffer (s : Chip) (n b : Nat) : Chip :=
  let cfg := canWord s n (0x2000 + 0x80 * b + 72)
  ((List.range (fld cfg 20 16)).map (fun i => (fld cfg 15 8 + i) % 256)).foldl (packField n b) s

/-- The column of the tick in the matrix (R370). DEDUCED (notes/assumptions/35.md). -/
def canColumn (s : Chip) (n : Nat) : Nat := s.tb.tick % 2 ^ s.rdF (Reg.canSchcfg n) 3 0

/-- A release of matrix entry i is due in this tick (R371): the channel is on, the entry exists, its column runs, and CORE is not held. -/
def releaseDue (s : Chip) (n i : Nat) : Bool :=
  canOn s n && decide (i < s.rdF (Reg.canSchcfg n) 16 8) && canColumn s n == fld (canWord s n (0x6000 + 8 * i)) 9 0 && !s.rst.inCore

/-- The release phase of matrix entry i (08 R370). -/
def releasePhase (s : Chip) (n i : Nat) : Nat := fld (canWord s n (0x6000 + 8 * i + 4)) 13 0

/-- Matrix entry `i` reaches its release phase (R369, R371, R374, R377). DEDUCED (notes/assumptions/35.md). -/
def canRelease (s : Chip) (n i : Nat) : Chip :=
  let w0 := canWord s n (0x6000 + 8 * i)
  let w1 := canWord s n (0x6000 + 8 * i + 4)
  let b := fld w0 21 16
  if !releaseDue s n i then s
  else
    let s0 := s.atPhase (releasePhase s n i)
    let gone : CanPend := ⟨b, true, 0, 0, [], .none, false⟩
    if s0.rdBit (Reg.canCtl n) 3 then canRetire (s0.ledCan n 0 1) n gone 7
    else if bufBusy s0 n b then s0.bump (Reg.canTxskip n)
    else
      let s1 := packBuffer s0 n b
      if canBusState s1 n = 3 then canRetire (s1.ledCan n 0 1) n gone 4
      else makePending s1 n b true s1.nowNs (fld w1 27 16)

/-- FMT of a filter admits the frame (R358). -/
def fmtAdmits (fmt : Nat) (id : Word) : Bool :=
  if fmt = 1 then !bit id 30 else if fmt = 2 then bit id 30 else if fmt = 3 then bit id 31 else true

/-- Filter i takes the frame (R359). -/
def filterTakes (s : Chip) (n : Nat) (id : Word) (i : Nat) : Bool :=
  let f := canWord s n (0x1000 + 16 * i)
  let m := canWord s n (0x1004 + 16 * i)
  let c := canWord s n (0x1008 + 16 * i)
  bit c 0 && bit f 29 == bit id 29 && ((f ^^^ id) &&& (m &&& 0x1FFFFFFF)) == 0 && fmtAdmits (fld c 2 1) id

/-- The lowest filter that takes a frame (R359). -/
def takingFilter (s : Chip) (n : Nat) (id : Word) : Option Nat := (List.range 128).find? (filterTakes s n id)

/-- The receive FIFO is full (R390): the pointers differ in WRAP only. -/
def fifoFull (s : Chip) (n : Nat) : Bool :=
  s.rdF (Reg.canRxhead n) 5 0 == s.rdF (Reg.canRxtail n) 5 0 && s.rdBit (Reg.canRxhead n) 6 != s.rdBit (Reg.canRxtail n) 6

/-- A frame enters the receive FIFO, or is counted lost (R360, R361). -/
def fifoEnter (s : Chip) (n filter : Nat) (f : CanFrame) : Chip :=
  if fifoFull s n then (s.bump (Reg.canRxlost n)).canFlag n 1
  else
    let tail := s.rdF (Reg.canRxtail n) 6 0
    let a := canBase n + 0x4000 + 80 * (tail % 64)
    let len := min f.data.length 64
    let w3 := f.dlc.toNat + 16 * b2n f.brs + 32 * b2n f.esi + 256 * filter + 2 ^ 16 * len
    let s1 := ((((clearFlips s a 80).wr a (wn f.sofTick.toNat)).wr (a + 4) (wn (f.sofTick.toNat / 2 ^ 32 + 65536 * (s.seenPhase f.sofPhase % 16384)))).wr (a + 8) f.id).wr
      (a + 12) (wn w3)
    let s2 := (List.range 16).foldl (fun x i => x.wr (a + 16 + 4 * i) (wn (leAt (f.data.take 64) (4 * i) 4))) s1
    (s2.wrF (Reg.canRxtail n) 6 0 ((tail + 1) % 128)).canFlag n 0

/-- The value of an extraction field (R362, R363): nothing when it extends beyond the data. -/
def extractField (s : Chip) (n : Nat) (data : List Byte) (i : Nat) : Option (Nat × Int) :=
  let e := canWord s n (0x7000 + 8 * i)
  let off := fld (canWord s n (0x7000 + 8 * i + 4)) 5 0
  let k := fieldBytes (fld e 27 26)
  if off + k > data.length then .none
  else
    let bs := sliceB data off k
    let v := if bit e 25 then ofBe bs else ofLe bs
    let x : Int := if (bit e 24 || k == 4) && decide (v ≥ 2 ^ (8 * k - 1)) then (v : Int) - 2 ^ (8 * k) else v
    .some (fld e 17 0, x)

/-- The extraction of a taken frame: one P2 transaction (R363, 02 R85); each short field is counted. A remote frame writes nothing.
DEDUCED (notes/assumptions/35.md). -/
def canExtract (s : Chip) (n : Nat) (f : CanFrame) (cfg : Word) : Chip :=
  let fields := if bit f.id 31 then []
    else ((List.range (fld cfg 20 16)).map (fun i => (fld cfg 15 8 + i) % 256)).map (extractField s n (f.data.take 64))
  let short := (fields.filter (·.isNone)).length
  let writes := (fields.filterMap id).map (fun p => (p.1, (⟨.some p.2, Carried.ok⟩ : WriteReq)))
  let s1 := if short = 0 then s else (s.bumpBy (Reg.canShortcnt n) short).canFlag n 8
  let fd := bit f.id 30
  let tag := 2 * 2 ^ 14 + f.dlc.toNat * 128 + b2n f.esi * 64 + b2n (if fd then f.brs else bit f.id 31) * 32 + b2n fd * 16 +
    b2n (bit f.id 29) * 8 + n
  transaction s1 2 ⟨15, .chan 0 n, .none⟩ tag writes (leBytes 4 (fld f.id 28 0) ++ padTo 56 (f.data.take 64))

/-- REC after a frame received without error (ISO 11898-1): one less, or back to 127 from above. -/
def recvOk (r : Nat) : Nat := if r > 127 then 127 else r - 1

/-- A valid frame is taken by a filter, or counted as unmatched (R359, R361, R363). -/
def takeFrame (s : Chip) (n : Nat) (f : CanFrame) : Chip :=
  match takingFilter s n f.id with
  | .none => s.bump (Reg.canRxnomatch n)
  | .some i =>
    let cfg := canWord s n (0x1008 + 16 * i)
    let act := fld cfg 5 4
    let s1 := s.bump (Reg.canRxcnt n)
    let s2 := if act = 1 ∨ act = 3 then fifoEnter s1 n i f else s1
    if act ≥ 2 then canExtract s2 n f cfg else s2

/-- A frame arrives, and is valid at phase `ph` (R359). The channel never takes its own frames (R354). An FD frame is answered with a form
error while FDEN is 0 (R384), and so is one with a recessive res bit, unless PXHD makes it a protocol exception, after which the channel
waits for 11 recessive bits (R352). PRESUMED (notes/assumptions/34.md). -/
def canReceive (s : Chip) (n ph : Nat) (f : CanFrame) : Chip :=
  let fd := bit f.id 30
  if (canBusState s n ≠ 1 ∧ canBusState s n ≠ 2) ∨ (canSt s n).bus.isSome then s
  else if fd && !s.rdBit (Reg.canCtl n) 2 then canBusError s n ph 2 (.frame false false) .none
  else if fd && f.res then
    if s.rdBit (Reg.canCtl n) 6 then syncCanStat (setCan (s.atPhase ph) n { canSt s n with joined := false }) n
    else canBusError s n ph 2 (.frame false false) .none
  else
    let s0 := s.atPhase ph
    takeFrame (syncCanStat (setCan s0 n { canSt s0 n with recv := recvOk (canSt s0 n).recv }) n) n f

/-- CANn_BTIME within the ranges of R356. -/
def btimeOk (v : Word) : Bool :=
  let brp := fld v 4 0 + 1
  let t1 := fld v 15 8 + 1
  let t2 := fld v 22 16 + 1
  decide (2 ≤ t1) && decide (2 ≤ t2) && decide (fld v 29 23 + 1 ≤ t2) && decide (80 ≤ brp * (1 + t1 + t2))

/-- CANn_DTIME within the ranges of R356. -/
def dtimeOk (v : Word) : Bool :=
  let brp := fld v 4 0 + 1
  let t1 := fld v 12 8 + 1
  let t2 := fld v 19 16 + 1
  decide (fld v 26 23 + 1 ≤ t2) && decide (10 ≤ brp * (1 + t1 + t2))

/-- Ticks and ns of a matrix entry's release within the cycle. -/
def matrixTime (w0 w1 : Word) : Nat := fld w0 9 0 * 10000 + fld w1 13 0

/-- Two entries of one buffer leave each other's windows free, cyclically (R375). -/
def entriesApart (cyc : Nat) (a0 a1 b0 b1 : Word) : Bool :=
  fld a0 21 16 != fld b0 21 16 ||
    (decide (fld a1 27 16 * 1000 < (matrixTime b0 b1 + cyc - matrixTime a0 a1 % cyc) % cyc) &&
     decide (fld b1 27 16 * 1000 < (matrixTime a0 a1 + cyc - matrixTime b0 b1 % cyc) % cyc))

/-- A matrix entry as R375 allows it, against the other entries in use. -/
def matrixOk (s : Chip) (n i : Nat) (w0 w1 : Word) : Bool :=
  let c := s.rdF (Reg.canSchcfg n) 3 0
  let cyc := 2 ^ c * 10000
  decide (fld w0 9 0 < 2 ^ c) && bufSched s n (fld w0 21 16) && decide (fld w1 13 0 ≤ 9999) && decide (fld w1 27 16 ≠ 0) &&
    (List.range (s.rdF (Reg.canSchcfg n) 16 8)).all (fun j =>
      j == i || entriesApart cyc w0 w1 (canWord s n (0x6000 + 8 * j)) (canWord s n (0x6004 + 8 * j)))

/-- One word of a matrix entry as R375 allows it: the conditions of the word written, and those across entries for an entry in use. -/
def matrixWordOk (s : Chip) (n off : Nat) (v : Word) : Bool :=
  let i := (off - 0x6000) / 8
  let c := s.rdF (Reg.canSchcfg n) 3 0
  let low := off % 8 == 0
  let w0 := if low then v else canWord s n (0x6000 + 8 * i)
  let w1 := if low then canWord s n (0x6004 + 8 * i) else v
  let own := if low then decide (fld v 9 0 < 2 ^ c) && bufSched s n (fld v 21 16)
    else decide (fld v 13 0 ≤ 9999) && decide (fld v 27 16 ≠ 0)
  own && (decide (i ≥ s.rdF (Reg.canSchcfg n) 16 8) || fld w1 27 16 == 0 ||
    (List.range (s.rdF (Reg.canSchcfg n) 16 8)).all (fun j =>
      j == i || entriesApart (2 ^ c * 10000) w0 w1 (canWord s n (0x6000 + 8 * j)) (canWord s n (0x6004 + 8 * j))))

/-- A BCFG word as R375 allows it: the pack fields exist and lie within the data; an entry in use keeps its buffer scheduled. -/
def bcfgOk (s : Chip) (n b : Nat) (v : Word) : Bool :=
  let k := fld v 15 8
  let cnt := fld v 20 16
  decide (cnt ≤ 16) && decide (k + cnt ≤ 256) &&
    (List.range cnt).all (fun i =>
      decide (fld (canWord s n (0x7804 + 8 * (k + i))) 5 0 + fieldBytes (fld (canWord s n (0x7800 + 8 * (k + i))) 27 26) ≤ bufLen s n b)) &&
    (bit v 0 || (List.range (s.rdF (Reg.canSchcfg n) 16 8)).all (fun j => fld (canWord s n (0x6000 + 8 * j)) 21 16 != b))

/-- A filter's third word as R375 allows it. -/
def filterOk (v : Word) : Bool := decide (fld v 20 16 ≤ 16) && (decide (fld v 5 4 < 2) || decide (fld v 15 8 + fld v 20 16 ≤ 256))

/-- An extraction entry's first word names a SID that this channel produces (R362, R388). -/
def extractOk (s : Chip) (n : Nat) (v : Word) : Bool :=
  match Tab.get? s.store.decls (fld v 17 0) with
  | .some d => d.producer == .chan 0 n
  | .none => false

/-- The CS bits of a table word of the window; none where nothing is defined (R358, R362, R364, R370, R372). -/
def canTableMask (off : Nat) : Nat :=
  if 0x1000 ≤ off ∧ off < 0x1800 then
    match off % 16 / 4 with
    | 0 => 0x3FFFFFFF
    | 1 => 0x1FFFFFFF
    | 2 => 0x1FFF37
    | _ => 0
  else if 0x2000 ≤ off ∧ off < 0x4000 ∧ off % 0x80 = 72 then 0x1FFF01
  else if 0x6000 ≤ off ∧ off < 0x6800 then (if off % 8 = 0 then 0x3F03FF else 0xFFF3FFF)
  else if 0x7000 ≤ off ∧ off < 0x8000 then (if off % 8 = 0 then 0xF03FFFF else 0x3F)
  else 0

/-- The check of a CS table write: 0 or the code of R388. -/
def canTableCheck (s : Chip) (n off : Nat) (v : Word) : Nat :=
  if 0x1000 ≤ off ∧ off < 0x1800 then (if off % 16 = 8 ∧ !filterOk v then 2 else 0)
  else if 0x2000 ≤ off ∧ off < 0x4000 then (if bcfgOk s n ((off - 0x2000) / 0x80) v then 0 else 2)
  else if 0x6000 ≤ off ∧ off < 0x6800 then (if matrixWordOk s n off v then 0 else 2)
  else if 0x7000 ≤ off ∧ off < 0x7800 ∧ off % 8 = 0 then (if fld v 27 26 = 3 then 2 else if extractOk s n v then 0 else 4)
  else 0

/-- A write into the tables of a channel's window (R364, R375, R383). RESULT and the FIFO are read-only. -/
def canTableWrite (s : Chip) (n off : Nat) (v : Word) : Chip :=
  let a := canBase n + off
  let m := canTableMask off
  if m ≠ 0 then
    let v' := v &&& wn m
    if canRunning s n && v' != s.rd a then canRefuse s n 1 off
    else if canTableCheck s n off v' ≠ 0 then canRefuse s n (canTableCheck s n off v') off
    else s.wr a v'
  else if 0x2000 ≤ off ∧ off < 0x4000 ∧ off % 0x80 < 72 then
    let mask : Nat := if off % 0x80 = 0 then 0xFFFFFFFF else if off % 0x80 = 4 then 0x1F else 0xFFFFFFFF
    s.wr a (v &&& wn mask)
  else s

/-- The window offset is one that R383 lists beyond the registers. -/
def canTableOffset (off : Nat) : Bool :=
  (decide (0x1000 ≤ off) && decide (off < 0x1800)) || (decide (0x2000 ≤ off) && decide (off < 0x4000)) ||
    (decide (0x4000 ≤ off) && decide (off < 0x5400)) || (decide (0x6000 ≤ off) && decide (off < 0x6800)) ||
    (decide (0x7000 ≤ off) && decide (off < 0x8000))

end Sys2Proof.Machine
end

