-- ==== Sys2Proof/Machine/Feedback.lean ====
section
/-!
DEFINITION. Position and speed feedback (chapter 09): counting, samples, serial words, the index, speed, compare units.
-/

namespace Sys2Proof.Machine

/-- A channel's further state. -/
def fbSt (s : Chip) (n : Nat) : FbChan := Tab.get FbChan.zero s.fb n

/-- A channel's further state replaced. -/
def setFb (s : Chip) (n : Nat) (c : FbChan) : Chip := { s with fb := Tab.set FbChan.zero s.fb n c }

/-- The channel runs (R431). -/
def fbRuns (s : Chip) (n : Nat) : Bool := s.rdBit (Reg.fbStat n) 0

/-- A flag of FBn_EVT (R433). -/
def Chip.fbFlag (s : Chip) (n e : Nat) : Chip := s.flag (Reg.fbEvt n) (Reg.fbEvten n) e (256 + 4 * n + e)

/-- A refused write loads FBn_CFGERR (R419, R430). -/
def fbRefuse (s : Chip) (n code off : Nat) : Chip := (s.wr (Reg.fbCfgerr n) (wn (code * 2 ^ 28 + off))).fbFlag n 3

/-- MODE (R396). -/
def fbMode (s : Chip) (n : Nat) : Nat := s.rdF (Reg.fbCtl n) 3 1

/-- The time now in samples of 5 ns (R394). -/
def fbNow (s : Chip) : Nat := s.nowNs / 5

/-- The index condition (R408). -/
def indexCond (s : Chip) (n : Nat) (a b z : Bool) : Bool :=
  let gate := match s.rdF (Reg.fbCtl n) 13 12 with
    | 0 => true
    | 1 => a && b
    | 2 => a
    | _ => b
  (z != s.rdBit (Reg.fbCtl n) 11) && gate

/-- A signed 32-bit distance (R410, R411). -/
def dist32 (x y : Word) : Int := s32 (x - y)

/-- The index spacing check (R410). -/
def indexCheck (s : Chip) (n : Nat) : Chip :=
  let c := fbSt s n
  let cap := s.rd (Reg.fbIdxcap n)
  let spacing : Int := (s.rd (Reg.fbIdxspc n)).toNat
  let tol : Int := s.rdF (Reg.fbIdxtol n) 15 0
  if spacing = 0 then s
  else match c.ref with
    | .none => setFb s n { c with ref := .some cap.toNat }
    | .some r =>
      let d : Int := (dist32 cap (wn r)).natAbs
      if d ≤ tol then s
      else
        let dev := d - spacing
        let s1 := setFb (s.wr (Reg.fbIdxdev n) (w32 dev)) n { c with ref := .some cap.toNat }
        if (dev.natAbs : Int) > tol then (s1.wrBit (Reg.fbStat n) 3 true).fbFlag n 1 else s1

/-- An index event (R408, R410): CNT is captured, never changed (R409). -/
def indexEvent (s : Chip) (n : Nat) : Chip :=
  let s1 := ((s.wr (Reg.fbIdxcap n) (s.rd (Reg.fbCnt n))).bump (Reg.fbIdxcnt n)).fbFlag n 0
  indexCheck (s1.wrBit (Reg.fbStat n) 1 true) n

/-- The pulse of a fire (R416): from 10 ns after it for PW × 5 ns; a pulse of the unit that still runs on the pin goes on with the new end. -/
def firePulse (s : Chip) (n u pin pw : Nat) : Chip :=
  let mine := fun (q : CmpPulse) => q.ch == n && q.unit == u && q.pin == pin && decide (s.nowNs < q.stop)
  let start := match s.pins.cmp.find? mine with
    | .some q => q.start
    | .none => s.nowNs + 10
  { s with pins := { s.pins with cmp := s.pins.cmp.filter (fun q => !mine q) ++ [⟨n, u, pin, start, s.nowNs + 10 + 5 * pw⟩] } }

/-- A compare unit fires at the present phase (R415, R416): counted, stamped with the pin's rising edge 10 ns later as phase is read
(01 R31), the pulse started, BEHIND cleared, disarmed or advanced. -/
def compareFire (n : Nat) (s : Chip) (u : Nat) : Chip :=
  let cfg := s.rd (Reg.fbCmpcfg n u)
  let rise := s.tickOf (s.nowNs + 10)
  let s1 := (s.bump (Reg.fbCmpcnt n u)).wr (Reg.fbCmpts n u) (wn rise.1)
  let s2 := s1.wr (Reg.fbCmpst n u) (wn (s.seenPhase rise.2))
  let s3 := if bit cfg 8 then s2.fbFlag n 2 else s2
  let inc := s3.rd (Reg.fbCmpinc n u)
  let s4 := if inc = 0 then s3.wrBit (Reg.fbCmpcfg n u) 0 false
    else s3.wr (Reg.fbCmpval n u) (s3.rd (Reg.fbCmpval n u) + inc)
  if fld cfg 31 16 = 0 then s4 else firePulse s4 n u (fld cfg 13 9) (fld cfg 31 16)

/-- DIR of a unit admits a change of the given sign (R413, R414). -/
def dirAdmits (dir : Nat) (d : Int) : Bool := (decide (d > 0) && (dir == 0 || dir == 1)) || (decide (d < 0) && (dir == 0 || dir == 2))

/-- The unit's value is reached by a count moving from c by d (R413, R414). -/
def compareReached (s : Chip) (n : Nat) (c : Word) (d : Int) (u : Nat) : Bool :=
  let cfg := s.rd (Reg.fbCmpcfg n u)
  let x := dist32 (s.rd (Reg.fbCmpval n u)) c
  bit cfg 0 && dirAdmits (fld cfg 5 4) d &&
    ((decide (d > 0) && decide (0 < x) && decide (x ≤ d)) || (decide (d < 0) && decide (d ≤ x) && decide (x < 0)))

/-- The armed units that a move of CNT from c by d passes fire (R413, R414). -/
def compareUnits (s : Chip) (n : Nat) (c : Word) (d : Int) : Chip :=
  [0, 1, 2, 3].foldl (fun x u => if compareReached s n c d u then compareFire n x u else x) s

/-- CNT moves by d in this sample (R397): the edge is timed, the compare units look. -/
def countBy (s : Chip) (n : Nat) (d : Int) : Chip :=
  let c := s.rd (Reg.fbCnt n)
  let s1 := setFb (s.wr (Reg.fbCnt n) (c + w32 d)) n { fbSt s n with lastEdge := .some (fbNow s) }
  compareUnits s1 n c d

/-- The step of the Gray sequence 00, 01, 11, 10 of (A, B) between two states that differ in one line (R397). -/
def grayStep (a b a' b' : Bool) : Int :=
  let pos := fun (x y : Bool) => match x, y with
    | false, false => (0 : Int)
    | false, true => 1
    | true, true => 2
    | true, false => 3
  if (pos a' b' - pos a b) % 4 = 1 then 1 else -1

/-- An illegal transition (R398, R401). -/
def illegalEdge (s : Chip) (n : Nat) : Chip :=
  let s1 := ((s.wrBit (Reg.fbStat n) 2 true).bump (Reg.fbIllcnt n)).fbFlag n 3
  setFb s1 n { fbSt s1 n with err := true }

/-- The sign that DIRINV gives a count (R397). -/
def dirSign (s : Chip) (n : Nat) (d : Int) : Int := if s.rdBit (Reg.fbCtl n) 9 then -d else d

/-- The decoder on a change of the accepted levels of A and B (R396–R398). -/
def decodeEdge (s : Chip) (n : Nat) (a b a' b' : Bool) : Chip :=
  let mode := fbMode s n
  if mode = 0 then
    if a ≠ a' ∧ b ≠ b' then illegalEdge s n
    else if a ≠ a' ∨ b ≠ b' then countBy s n (dirSign s n (grayStep a b a' b'))
    else s
  else if mode = 1 then
    if !a && a' then
      if b ≠ b' then illegalEdge s n else countBy s n (dirSign s n (if b' then 1 else -1))
    else s
  else s

/-- FILT of a channel, 1 to 16 samples (R395, R423). -/
def fbFilt (s : Chip) (n : Nat) : Nat := let f := s.rdF (Reg.fbCtl n) 7 4; if f = 0 then 16 else f

/-- The accepted level of a line (R395): that of the raw line once it has held it for FILT samples. -/
def acceptLine (filt : Nat) (old : Bool) (r : RawLine) : Bool := if filt ≤ r.held then r.level else old

/-- A count in the sample of phase 0 belongs to the count and the edge time that phase 0 latches (R411). DEDUCED (notes/assumptions/38.md). -/
def relatch (s : Chip) (n : Nat) : Chip :=
  let c := fbSt s n
  if c.due && decide (s.tb.phase < 5) then
    setFb (s.wr (Reg.fbLatch n) (s.rd (Reg.fbCnt n))) n { c with hist := ((s.rd (Reg.fbCnt n)).toNat, c.lastEdge) :: c.hist.drop 1 }
  else s

/-- The lines of one sample (R395–R398, R408). The filters follow the lines whether or not the channel runs.
DEDUCED (notes/assumptions/38.md). -/
def fbEdge (s : Chip) (n ph : Nat) (ra rb rz : RawLine) : Chip :=
  let s0 := s.atPhase ph
  let c := fbSt s0 n
  let a := acceptLine (fbFilt s n) c.a ra
  let b := acceptLine (fbFilt s n) c.b rb
  let z := acceptLine (fbFilt s n) c.z rz
  let s1 := setFb s0 n { c with a := a, b := b, z := z }
  if !fbRuns s1 n then s1
  else
    let s2 := relatch (decodeEdge s1 n c.a c.b a b) n
    let cond := indexCond s2 n a b z && fbMode s2 n != 2
    let s3 := if s2.rdBit (Reg.fbCtl n) 10 && cond && !c.idxWas then indexEvent s2 n else s2
    setFb s3 n { fbSt s3 n with idxWas := cond }

/-- SW with values above 8 taken as 8 (R423). -/
def fbSw (s : Chip) (n : Nat) : Nat := min (s.rdF (Reg.fbCtl n) 19 16) 8

/-- A free value where R411 and R412 state none: the window reaches before the first sample, edge or word.
DESIGN CHOICE (notes/assumptions/37.md). DESIGN CHOICE (notes/assumptions/79.md). -/
def freeS32 (s : Chip) : Int := s32 (wn (Config.freeNat s.draws))

/-- The speed of modes 0 and 1 (R411): the value, whether it was saturated, and whether the spec states it.
DEDUCED (notes/assumptions/38.md). DESIGN CHOICE (notes/assumptions/79.md). -/
def edgeSpeed (s : Chip) (n : Nat) : Int × Bool × Bool :=
  let c := fbSt s n
  match c.hist.head? with
  | .some (c1, .some x1) =>
    match c.hist[2 ^ fbSw s n]? with
    | .none => (freeS32 s, false, false)
    | .some (c0, t0) =>
      let dc := dist32 (wn c1) (wn c0)
      if dc = 0 then
        let now := s.tb.base / 5
        let bound := divNE (2000 * 65536) (now - x1)
        let v := s32 (s.rd (Reg.fbSpd n))
        if now ≤ x1 then (freeS32 s, false, false) else (v.sign * min (v.natAbs : Int) bound, false, true)
      else match t0 with
        | .some x0 =>
          let q := divNE (dc * 2000 * 65536) (x1 - x0)
          (sat32 q, sat32 q != q, true)
        | .none => (freeS32 s, false, false)
  | _ => (0, false, true)

/-- The speed of mode 2 (R412), as for R411. -/
def wordSpeed (s : Chip) (n : Nat) : Int × Bool × Bool :=
  let c := fbSt s n
  match c.words.head?, c.words[2 ^ fbSw s n]? with
  | .some c1, .some c0 =>
    let q := roundNE (dist32 (wn c1) (wn c0) * 65536) (fbSw s n + s.rdF (Reg.fbSerreq n) 31 28)
    (sat32 q, sat32 q != q, true)
  | _, _ => (freeS32 s, false, false)

/-- The sample of a channel through P2 (R400, R401): POSSID and SPDSID, one transaction. -/
def fbWrite (s : Chip) (n : Nat) (pos v : Int) (satd fault : Bool) : Chip :=
  let p := if s.rdBit (Reg.fbPossid n) 31 then
      [(s.rdF (Reg.fbPossid n) 17 0, (⟨.some pos, ⟨true, false, false, fault⟩⟩ : WriteReq))] else []
  let q := if s.rdBit (Reg.fbSpdsid n) 31 then
      [(s.rdF (Reg.fbSpdsid n) 17 0, (⟨.some v, ⟨true, false, satd, fault⟩⟩ : WriteReq))] else []
  transaction s 2 ⟨15, .chan 1 n, .none⟩ (2 ^ 14 + n) (p ++ q)
    (leBytes 4 (w32 pos).toNat ++ leBytes 4 (w32 v).toNat ++ leBytes 1 (b2n (!p.isEmpty)) ++ leBytes 1 (b2n (!q.isEmpty)))

/-- The sample of modes 0 and 1 at phase 20 (R400). -/
def fbSample (s : Chip) (n : Nat) : Chip :=
  let c := fbSt s n
  if !fbRuns s n ∨ fbMode s n = 2 ∨ !c.due then s
  else
    let s0 := s.atPhase 20
    let (v, satd, stated) := edgeSpeed s0 n
    let s1 := if stated then s0 else s0.draw
    let s2 := setFb (s1.wr (Reg.fbSpd n) (w32 v)) n { c with due := false, err := false, spdSat := satd }
    fbWrite s2 n (s32 (s2.rd (Reg.fbLatch n))) v satd c.err

/-- Phase 0 at a channel (R400, R402, R405, R411): CNT latched; in a request tick the data line is checked and a word begins. `busy` lists
the channels whose data line reads 0. DEDUCED (notes/assumptions/38.md). -/
def fbBoundary (busy : List Nat) (s : Chip) (n : Nat) : Chip :=
  if !fbRuns s n then s
  else
    let c := fbSt s n
    let cnt := s.rd (Reg.fbCnt n)
    let s1 := s.wr (Reg.fbLatch n) cnt
    if fbMode s n = 2 then
      if s.tb.tick % 2 ^ s.rdF (Reg.fbSerreq n) 31 28 = s.rdF (Reg.fbSerreq n) 11 0 ∧ c.word.isNone then
        let bad := busy.contains n
        let s2 := setFb s1 n { c with word := .some s.nowNs, noIdle := bad }
        if bad then (s2.wrBit (Reg.fbStat n) 5 true).fbFlag n 3 else s2
      else s1
    else setFb s1 n { c with hist := ((cnt.toNat, c.lastEdge) :: c.hist).take 257, due := true }

/-- Every channel at phase 0. -/
def fbBoundaries (s : Chip) (busy : List Nat) : Chip := (List.range 32).foldl (fbBoundary busy) s

/-- A CRC of `w` bits over the low `k` bits of `x`, most significant first (R404). -/
def serialCrc (w poly init x : Nat) : Nat → Nat
  | 0 => init % 2 ^ w
  | k + 1 =>
    let inB := natBit x k
    let top := natBit init (w - 1)
    let sh := init * 2 % 2 ^ w
    serialCrc w poly (if inB != top then sh ^^^ (poly % 2 ^ w) else sh) x k

/-- Gray code to binary over `k` bits (R403). -/
def grayToBin (x : Nat) : Nat → Nat
  | 0 => 0
  | k + 1 =>
    let hi := grayToBin (x / 2) k
    2 * hi + (if natBit hi 0 != natBit x 0 then 1 else 0)

/-- take_word of R406: CNT after a good word with position u of `pos` bits. -/
def takeWord (cnt : Word) (first : Bool) (pos u : Nat) : Word :=
  if pos ≥ 32 then wn u
  else if first then wn u
  else
    let m : Int := 2 ^ pos
    let d := ((u : Int) - (cnt.toNat : Int)) % m
    let d' := if 2 * d ≥ m then d - m else d
    cnt + w32 d'

/-- The errors of a word (R404, R405): its CRC, and its first status bit. -/
def wordErrors (s : Chip) (n word : Nat) : Bool × Bool :=
  let ser := s.rd (Reg.fbSer n)
  let cfg := s.rd (Reg.fbSercrc n)
  let len := fld ser 13 8
  let pos := fld ser 19 14
  let cl := fld ser 23 20
  let data := word % 2 ^ len / 2 ^ cl
  let crc := serialCrc cl (fld cfg 7 0) (fld cfg 15 8) data (len - cl)
  let crc' := if bit cfg 16 then 2 ^ cl - 1 - crc else crc
  let crcErr := decide (cl ≠ 0) && crc' != word % 2 ^ cl
  let encErr := bit cfg 17 && decide (len - pos - cl > 0) && !natBit word (len - pos - 1)
  (crcErr, encErr)

/-- A word in error (R405): flagged, counted, its sample the previous CNT and speed, with FAULT, and with SAT if that speed was saturated
(R401). NOIDLE has set its flag and FBn_EVT.FAULT at phase 0. -/
def badWord (s : Chip) (n : Nat) (crcErr encErr : Bool) : Chip :=
  let s1 := if crcErr then s.wrBit (Reg.fbStat n) 4 true else s
  let s2 := if encErr then s1.wrBit (Reg.fbStat n) 6 true else s1
  let s3 := if crcErr || encErr then (s2.bump (Reg.fbSererr n)).fbFlag n 3 else s2.bump (Reg.fbSererr n)
  let s4 := setFb s3 n { fbSt s3 n with err := false }
  fbWrite s4 n (s32 (s4.rd (Reg.fbCnt n))) (s32 (s4.rd (Reg.fbSpd n))) (fbSt s4 n).spdSat true

/-- A good word (R406, R412, R414): CNT, the compare units, the speed, the sample. -/
def goodWord (s : Chip) (n u : Nat) : Chip :=
  let c := fbSt s n
  let old := s.rd (Reg.fbCnt n)
  let new := takeWord old c.firstWord (s.rdF (Reg.fbSer n) 19 14) u
  let d := dist32 new old
  let s1 := setFb (s.wr (Reg.fbCnt n) new) n { c with firstWord := false, lastD := d, words := (new.toNat :: c.words).take 257, err := false }
  let s2 := compareUnits s1 n old d
  let (v, satd, stated) := wordSpeed s2 n
  let s3 := if stated then s2 else s2.draw
  let s4 := setFb (s3.wr (Reg.fbSpd n) (w32 v)) n { fbSt s3 n with spdSat := satd }
  fbWrite s4 n (s32 new) v satd c.err

/-- The time in ns at which the word now clocked in is decoded and its sample stamped (R402). -/
def wordDue (s : Chip) (n : Nat) : Option Nat := (fbSt s n).word.map (fun t => t + fbStamp2 s n / 2)

/-- A complete serial word is decoded (R402–R406), not before the tick in which its last bit is in. -/
def serialWord (s : Chip) (n : Nat) (word : Nat) : Chip :=
  match wordDue s n with
  | .none => s
  | .some t =>
    if !fbRuns s n ∨ fbMode s n ≠ 2 ∨ !s.inTick t then s
    else
      let c := fbSt s n
      let ser := s.rd (Reg.fbSer n)
      let len := fld ser 13 8
      let pos := fld ser 19 14
      let w := word % 2 ^ len
      let s0 := setFb (s.atPhase (t - s.tb.base)) n { c with word := .none, noIdle := false }
      let s1 := (s0.wr (Reg.fbSerrawlo n) (wn w)).wr (Reg.fbSerrawhi n) (wn (w / 2 ^ 32))
      let (crcErr, encErr) := wordErrors s1 n w
      if c.noIdle || crcErr || encErr then badWord s1 n crcErr encErr
      else
        let raw := w / 2 ^ (len - pos)
        goodWord s1 n (if bit ser 25 then grayToBin raw pos else raw)

/-- The clock output FBn_A of mode 2 (R402, R420, R421): it falls as a word begins, rises half a period later for each bit, and stays high
after the last; high while no word is clocked in. -/
def fbClock (s : Chip) (n : Nat) : Bool :=
  match (fbSt s n).word with
  | .none => true
  | .some t =>
    let p := 5 * s.rdF (Reg.fbSer n) 7 0
    let x := 2 * (s.nowNs - t)
    decide ((2 * s.rdF (Reg.fbSer n) 13 8 - 1) * p ≤ x) || decide (p ≤ x % (2 * p))

/-- The value written lies behind the axis (R418). -/
def cmpBehind (s : Chip) (n : Nat) (v : Word) : Bool :=
  let spd := s32 (s.rd (Reg.fbSpd n))
  let x := dist32 v (s.rd (Reg.fbCnt n))
  let dir := if fbMode s n = 2 then (fbSt s n).lastD else spd
  decide (spd ≠ 0) && (decide (x = 0) || decide (x.sign = -dir.sign ∧ dir ≠ 0))

/-- CMPVALu is written (R417, R418). -/
def cmpvalWrite (s : Chip) (n u : Nat) (v : Word) : Chip :=
  (s.wr (Reg.fbCmpval n u) v).wrBit (Reg.fbCmpst n u) 31 (cmpBehind s n v)

/-- The pulses of a pin whose width has run out end (R416). -/
def pulseEnd (s : Chip) (pin ph : Nat) : Chip :=
  let s0 := s.atPhase ph
  let done := fun (p : CmpPulse) => p.pin == pin && decide (p.stop ≤ s0.nowNs)
  if s0.pins.cmp.any done then { s0 with pins := { s0.pins with cmp := s0.pins.cmp.filter (fun p => !done p) } } else s

/-- FBm_CMP is active (R416): a pulse of a unit that names it runs. -/
def cmpActive (s : Chip) (m : Nat) : Bool :=
  s.pins.cmp.any (fun p => p.pin == m && decide (p.start ≤ s.nowNs) && decide (s.nowNs < p.stop))

/-- The channel starts with CNT set (R399, R408, R422): history, reference and word state are empty. FBn_SPD keeps the last measured speed,
and with it that it was saturated (R401). -/
def fbStart (s : Chip) (n : Nat) (cnt : Word) (first : Bool) : Chip :=
  let c := fbSt s n
  let cond := indexCond s n c.a c.b c.z && fbMode s n != 2
  let s1 := setFb s n { FbChan.zero with a := c.a, b := c.b, z := c.z, idxWas := cond, firstWord := first, spdSat := c.spdSat, err := c.err }
  ((s1.wr (Reg.fbCnt n) cnt).wrBit (Reg.fbStat n) 0 true).wrBit (Reg.fbStat n) 1 false

/-- The channel stops (R420): decoder, clock and samples; every compare unit disarmed; FBn_CMP inactive. An error that no sample has carried
yet is carried by the next one, also after ON has been 0 (R401). -/
def fbStop (s : Chip) (n : Nat) : Chip :=
  let c := fbSt s n
  let s1 := setFb (s.wrBit (Reg.fbStat n) 0 false) n { c with word := .none, noIdle := false, due := false, err := c.err || c.noIdle }
  let s2 := [0, 1, 2, 3].foldl (fun x u => x.wrBit (Reg.fbCmpcfg n u) 0 false) s1
  { s2 with pins := { s2.pins with cmp := s2.pins.cmp.filter (fun p => p.pin != n) } }

/-- FBn_CTL.ON is written (R399, R407, R420). -/
def fbOnWrite (s : Chip) (n : Nat) (on : Bool) : Chip :=
  if s.rdBit (Reg.fbCtl n) 0 == on then s
  else if on then
    if fbStartOk s n then fbStart (s.wrBit (Reg.fbCtl n) 0 true) n 0 true else fbRefuse s n 2 0
  else fbStop (s.wrBit (Reg.fbCtl n) 0 false) n

/-- T0 of a warm restart (R421): every channel stops at once and every compare pin goes inactive. The speed that the reset of CORE clears is
not a saturated one. -/
def fbHalt (s : Chip) : Chip :=
  let s1 := (List.range 32).foldl (fun x n =>
    setFb (x.wrBit (Reg.fbStat n) 0 false) n { fbSt x n with word := .none, noIdle := false, due := false, spdSat := false }) s
  { s1 with pins := { s1.pins with cmp := [] } }

/-- A channel takes its count when CORE is released (R422, R431): VALUE of POSSID under USE, else 0; UNREF in modes 0 and 1 under USE. It runs
if its ON is 1. -/
def fbResume (s : Chip) (n : Nat) : Chip :=
  let c := fbSt s n
  let use := s.rdBit (Reg.fbPossid n) 31
  let sid := s.rdF (Reg.fbPossid n) 17 0
  let (s0, r) := if use then lookEntry s 15 sid else (s, undeclaredRead)
  let base : Word := if use then w32 r.value else 0
  let s1 := if s0.rdBit (Reg.fbCtl n) 0 then fbStart s0 n base (!use)
    else (setFb s0 n { FbChan.zero with a := c.a, b := c.b, z := c.z, firstWord := !use }).wr (Reg.fbCnt n) base
  let s2 := s1.wr (Reg.fbLatch n) base
  if use && fbMode s n != 2 then (s2.wrBit (Reg.fbStat n) 7 true).fbFlag n 3 else s2

/-- FBn_SER within R403 and R424. -/
def serOk (v : Word) : Bool :=
  let len := fld v 13 8
  let pos := fld v 19 14
  let cl := fld v 23 20
  decide (10 ≤ fld v 7 0) && decide (8 ≤ len) && decide (len ≤ 40) && decide (8 ≤ pos) && decide (pos ≤ len) &&
    (cl == 0 || (decide (3 ≤ cl) && decide (cl ≤ 8))) && decide (pos + cl ≤ len)

/-- FBn_SERREQ within R426. -/
def serreqOk (v : Word) : Bool := decide (fld v 31 28 ≤ 12) && decide (fld v 11 0 < 2 ^ fld v 31 28)

/-- POSSID or SPDSID names a SID of this channel, whatever USE is (R419, R427). -/
def fbSidOk (s : Chip) (n : Nat) (v : Word) : Bool :=
  match Tab.get? s.store.decls (fld v 17 0) with
  | .some d => d.producer == .chan 1 n
  | .none => false

end Sys2Proof.Machine
end

