-- ==== Sys2Proof/Machine/Recorder.lean ====
section
/-!
DEFINITION. The recorder (chapter 11): the tap, recording sets, record formats, change-only records and reductions, capture regions,
trigger units, streams, shedding.
-/

namespace Sys2Proof.Machine

/-- A recording set's further state. -/
def recSt (s : Chip) (i : Nat) : RecSet := Tab.get RecSet.zero s.recd.sets i

/-- A recording set's further state replaced. -/
def setRec (s : Chip) (i : Nat) (r : RecSet) : Chip :=
  { s with recd := { s.recd with sets := Tab.set RecSet.zero s.recd.sets i r } }

/-- REC_SETCFG of a set. -/
def setCfg (s : Chip) (i : Nat) : Word := s.rd (Reg.recSetcfg i)

/-- The recorder engine runs (R517). -/
def recRuns (s : Chip) : Bool := s.rdBit Reg.recStat 0

/-- A flag of REC_SETSTATs (R523), bit 16 + e, with its event EVT(480 + EVN) (R520). -/
def Chip.setFlag (s : Chip) (i e : Nat) : Chip :=
  let s1 := s.wrBit (Reg.recSetstat i) (16 + e) true
  if bit (setCfg s i) (18 + e) then s1.raise (480 + fld (setCfg s i) 26 22) else s1

/-- CAPMODE is CAPTURE (R495). -/
def capMode (s : Chip) (i : Nat) : Bool := s.rdF (Reg.recSetrs i) 31 30 == 1

/-- The region has two halves that are used in turn (R494, R500). -/
def pingpong (s : Chip) (i : Nat) : Bool := capMode s i && s.rdBit (Reg.recSetrs i) 29

/-- Bytes of the half or region (R494). -/
def halfBytes (s : Chip) (i : Nat) : Nat :=
  let b := 64 * s.rdF (Reg.recSetrs i) 28 0
  if pingpong s i then b / 2 else b

/-- CUR: the half in use (R523). -/
def curHalf (s : Chip) (i : Nat) : Nat := s.rdF (Reg.recSetstat i) 4 4

/-- Where the current half starts in the region. -/
def halfOff (s : Chip) (i : Nat) : Nat := if pingpong s i then curHalf s i * halfBytes s i else 0

/-- State of half h: 0 IDLE, 1 FILL, 2 POST, 3 DONE (R523). -/
def halfState (s : Chip) (i h : Nat) : Nat := s.rdF (Reg.recSetstat i) (2 * h + 1) (2 * h)

/-- State of half h replaced. -/
def setHalf (s : Chip) (i h x : Nat) : Chip := s.wrF (Reg.recSetstat i) (2 * h + 1) (2 * h) x

/-- The current half takes records: always with CONT, in FILL and POST with CAPTURE (R495, R500). -/
def halfTakes (s : Chip) (i : Nat) : Bool :=
  !capMode s i || halfState s i (curHalf s i) == 1 || halfState s i (curHalf s i) == 2

/-- A header of R476. -/
def recHeader (tick kind fl phase port tag : Nat) : List Byte :=
  leBytes 4 (tick % 2 ^ 24 + kind * 2 ^ 24 + fl * 2 ^ 28) ++ leBytes 4 (phase % 2 ^ 14 + port * 2 ^ 14 + tag % 65536 * 65536)

/-- A record of 16 bytes of kinds 3 to 5, and of kind 1 (R479). -/
def shortRecord (tick kind fl phase port tag w2 w3 : Nat) : List Byte :=
  recHeader tick kind fl phase port tag ++ leBytes 4 w2 ++ leBytes 4 w3

/-- Drops the oldest lengths until the rest fits into `room` bytes. -/
def dropOld (room : Nat) : List Nat → List Nat
  | [] => []
  | l :: ls => if (l :: ls).foldl (· + ·) 0 ≤ room then l :: ls else dropOld room ls

/-- Where the current half stands in memory (R494). -/
def halfBase (s : Chip) (i : Nat) : Nat := 0x100000000 + 64 * s.rdF (Reg.recSetrb i) 28 0 + halfOff s i

/-- REC_SETPOS and REC_SETOLD of a half that holds what `r` says (R503, R524). -/
def posWords (s : Chip) (i : Nat) (r : RecSet) : Word × Word :=
  let hb := max (halfBytes s i) 1
  let held := r.lens.foldl (· + ·) 0
  (wn ((halfOff s i + r.pos) / 4), wn ((halfOff s i + (r.pos + hb - held % hb) % hb) / 4))

/-- REC_SETPOS and REC_SETOLD written. -/
def writePos (s : Chip) (i : Nat) (w : Word × Word) : Chip := (s.wr (Reg.recSetpos i) w.1).wr (Reg.recSetold i) w.2

/-- A record joins the write buffer (R490), which begins to drain where it was empty. -/
def pushBuf (s : Chip) (b : BufRec) : Chip :=
  { s with recd := { s.recd with
      buf := s.recd.buf ++ [b], bufAt := if s.recd.buf.isEmpty then 24 * s.nowNs else s.recd.bufAt } }

/-- A record of the current half for the write buffer, the set having been `r` before it and being `r'` after it. -/
def bufRec (s : Chip) (i : Nat) (bs : List Byte) (r r' : RecSet) : BufRec :=
  let w := posWords s i r'
  { set := i, base := halfBase s i, size := max (halfBytes s i) 1, off := r.pos, bytes := bs, tick := s.tb.tick, was := r
    pos := w.1, old := w.2 }

/-- The set after `n` more bytes in its current half (R494): its place, the records held, the bytes from the TRIG marker on, once filled. -/
def recAdvance (s : Chip) (i n : Nat) (r : RecSet) : RecSet :=
  let hb := max (halfBytes s i) 1
  { r with
    pos := (r.pos + n) % hb, lens := dropOld hb (r.lens ++ [n]), mark := r.mark + n
    wrapped := r.wrapped || decide (r.pos + n ≥ hb) }

/-- A record is admitted to the region (R490, R493, R515): it is issued, and its place is taken. DESIGN CHOICE (notes/assumptions/41.md). -/
def putRegion (s : Chip) (i : Nat) (bs : List Byte) : Chip :=
  let r := recSt s i
  let r' := recAdvance s i bs.length r
  let s1 := setRec (pushBuf { s with recd := { s.recd with bytes := s.recd.bytes + bs.length } } (bufRec s i bs r r')) i r'
  let s2 := if s1.recd.bytes > (s1.rd Reg.recTickpeak).toNat then s1.wr Reg.recTickpeak (wn s1.recd.bytes) else s1
  (s2.bump (Reg.recLissued i)).led 3 0 1

/-- The half begins anew, or at another place: REC_SETPOS and REC_SETOLD follow behind the records still in the write buffer (R503). -/
def syncPos (s : Chip) (i : Nat) : Chip :=
  let r := recSt s i
  if s.recd.buf.isEmpty then writePos s i (posWords s i r) else pushBuf s (bufRec s i [] r r)

/-- A record of the write buffer is in DRAM (R494, R503, R515): records wrap byte for byte at the end of the half. -/
def landRec (s : Chip) (b : BufRec) : Chip :=
  let n := b.size - b.off
  let s1 :=
    if b.bytes.isEmpty then s
    else
      let x := (memWrite s (b.base + b.off) (b.bytes.take n)).1
      let y := if b.bytes.length ≤ n then x else (memWrite x b.base (b.bytes.drop n)).1
      (y.bump (Reg.recLregwr b.set)).led 3 1 1
  writePos s1 b.set (b.pos, b.old)

/-- Records of the write buffer go to DRAM, one after the other from time `t` on, as far as they are through by `now`, in 24ths of a ns. -/
def drainRecs (now t : Nat) (s : Chip) : List BufRec → Chip
  | [] => { s with recd := { s.recd with buf := [] } }
  | b :: bs =>
    if t + b.bytes.length ≤ now then drainRecs now (t + b.bytes.length) (landRec s b) bs
    else { s with recd := { s.recd with buf := b :: bs, bufAt := t } }

/-- The write buffer brought up to now, at 24 bytes in a ns (R489, R490). DESIGN CHOICE (notes/assumptions/41.md). -/
def drainBuffer (s : Chip) : Chip :=
  if s.recd.buf.isEmpty then s else drainRecs (24 * s.nowNs) s.recd.bufAt s s.recd.buf

/-- The write buffer runs empty. -/
def drainAll (s : Chip) : Chip :=
  let s1 := s.recd.buf.foldl landRec s
  { s1 with recd := { s1.recd with buf := [] } }

/-- SZ of a stream ring, as its size in bytes (R510). -/
def ringBytes (s : Chip) (i : Nat) : Nat := 2 ^ s.rdF (Reg.recStrcfg i) 4 0

/-- Free bytes of a stream ring (R510). -/
def ringFree (s : Chip) (i : Nat) : Nat :=
  (wn (ringBytes s i) - (s.rd (Reg.recStrprod i) - s.rd (Reg.recStrcon i))).toNat

/-- A 64-bit bus address from its two words. -/
def addr64 (s : Chip) (lo hi : Nat) : Nat := (s.rd lo).toNat + (s.rd hi).toNat * 2 ^ 32

/-- A record enters the stream ring at PROD (R510). -/
def putStream (s : Chip) (i : Nat) (bs : List Byte) : Chip :=
  let r := recSt s i
  let base := addr64 s (Reg.recStrbaselo i) (Reg.recStrbasehi i)
  let m := (bs.zip (List.range bs.length)).foldl (fun m p => memSet m (base + (r.prod + p.2) % ringBytes s i) p.1) s.hostMem
  let s1 := setRec { s with hostMem := m } i { r with prod := r.prod + bs.length }
  let s2 := ((s1.wr (Reg.recStrprod i) (wn (r.prod + bs.length))).wrBit (Reg.recStrstat i) 1 false)
  (((s2.bump (Reg.recLissued i)).bump (Reg.recLstrwr i)).led 3 0 1).led 3 1 1

/-- A GAP record (R479). -/
def gapRecord (tick phase : Nat) (g : RecGap) : List Byte := shortRecord tick 5 0 phase 0 g.cause g.lost (g.first % 2 ^ 32)

/-- A TIME record (R479). -/
def timeRecord (tick phase : Nat) : List Byte := shortRecord tick 3 0 phase 0 0 (tick / 2 ^ 24 % 2 ^ 24) 0

/-- Records that go before the next one of a destination (R480, R512, R513): TIME where TICK[47:24] differs from the last TIME record's,
then the GAP record if one is ready, and TIME again after it. -/
def leadRecords (tick phase : Nat) (time : Option Nat) (gap : Option RecGap) : List (List Byte) :=
  let g := match gap with
    | .some g => [gapRecord tick phase g, timeRecord tick phase]
    | .none => []
  (if time != .some (tick / 2 ^ 24) then [timeRecord tick phase] else []) ++ g

/-- The GAP record of a destination that may be written now: one of cause SAG waits until its stage is left (R513). -/
def readyGap (g : Option RecGap) : Option RecGap := g.filter (fun x => !x.hold)

/-- The GAP state of a destination after a record was written there: nothing has been lost since (R479). -/
def gapAfter (g : Option RecGap) : Option RecGap := (g.filter (·.hold)).map (fun x => { x with lost := 0 })

/-- Records that go before the next one in the region. -/
def regionLead (s : Chip) (i tick phase : Nat) : List (List Byte) :=
  leadRecords tick phase (recSt s i).timeR (readyGap (recSt s i).gapR)

/-- Records that go before the next one in the stream. -/
def streamLead (s : Chip) (i tick phase : Nat) : List (List Byte) :=
  leadRecords tick phase (recSt s i).timeS (readyGap (recSt s i).gapS)

/-- The records before the next one are written into the region. -/
def leadRegion (s : Chip) (i tick phase : Nat) : Chip :=
  let g := (recSt s i).gapR
  let s1 := (regionLead s i tick phase).foldl (fun x b => putRegion x i b) s
  let s2 := setRec s1 i { recSt s1 i with timeR := .some (tick / 2 ^ 24), gapR := gapAfter g }
  if (readyGap g).isSome then s2.setFlag i 3 else s2

/-- The records before the next one are written into the stream. -/
def leadStream (s : Chip) (i tick phase : Nat) : Chip :=
  let g := (recSt s i).gapS
  let s1 := (streamLead s i tick phase).foldl (fun x b => putStream x i b) s
  let s2 := setRec s1 i { recSt s1 i with timeS := .some (tick / 2 ^ 24), gapS := gapAfter g }
  if (readyGap g).isSome then s2.setFlag i 3 else s2

/-- `n` more records lost in a destination (R479); a loss to SAG holds its GAP record back, and a loss to STRFULL gives its cause to a GAP
record that waits for BUDGET (R512). DEDUCED (notes/assumptions/41.md). -/
def addGap (g : Option RecGap) (cause n tick : Nat) : Option RecGap :=
  match g with
  | .none => .some ⟨cause, n, tick, cause == 3⟩
  | .some x => .some { x with
      lost := x.lost + n, first := if x.lost = 0 then tick else x.first, cause := if cause = 2 ∧ x.cause = 4 then 2 else x.cause }

/-- The counter of a shed cause (R518): 0 FROZEN, 1 STRFULL, 2 SAG, 3 BUDGET, 4 CMAX, 5 TYPE. -/
def shedReg (cause : Nat) : Nat := Reg.recShedfrozen + 4 * cause

/-- A record owed to the region is shed (R499, R513, R493). -/
def shedRegion (s : Chip) (i cause tick : Nat) : Chip :=
  let r := recSt s i
  let s1 := if cause = 0 then s else setRec s i { r with gapR := addGap r.gapR (cause + 1) 1 tick }
  (((((s1.bump (Reg.recLissued i)).bump (Reg.recLregshed i)).bump (shedReg cause)).led 3 0 1).led 3 2 1).odoInc 36 1 |>.setFlag i 2

/-- A record owed to the stream is shed (R512, R513, R515). -/
def shedStream (s : Chip) (i cause tick : Nat) : Chip :=
  let r := recSt s i
  let s1 := setRec s i { r with gapS := addGap r.gapS (cause + 1) 1 tick }
  let s2 := if cause = 1 then s1.wrBit (Reg.recStrstat i) 1 true else s1
  (((((s2.bump (Reg.recLissued i)).bump (Reg.recLstrshed i)).bump (shedReg cause)).led 3 0 1).led 3 2 1).odoInc 36 1 |>.setFlag i 2

/-- The current half enters DONE; the other half, if IDLE, enters FILL (R499, R500). -/
def enterDone (s : Chip) (i cause : Nat) : Chip :=
  let h := curHalf s i
  let s1 := ((setHalf s i h 3).wrF (Reg.recSetstat i) 27 24 cause).setFlag i 0
  if pingpong s1 i && halfState s1 i (1 - h) == 0 then
    let s2 := setHalf (s1.wrF (Reg.recSetstat i) 4 4 (1 - h)) i (1 - h) 1
    syncPos (setRec s2 i { recSt s2 i with pos := 0, lens := [], mark := 0, pre := 0, postN := 0, wrapped := false }) i
  else s1

/-- A record reaches the region's current half (R498, R499); data records are kinds 0 to 2. DEDUCED (notes/assumptions/41.md). -/
def recordRegion (s : Chip) (i tick phase : Nat) (data : Bool) (bs : List Byte) : Chip :=
  let s1 := leadRegion s i tick phase
  let s2 := putRegion s1 i bs
  let r := recSt s2 i
  let post := capMode s2 i && halfState s2 i (curHalf s2 i) == 2
  let s3 := if data then setRec s2 i { r with pre := if post then r.pre else r.pre + 1, postN := if post then r.postN + 1 else r.postN }
    else s2
  if post && data && decide ((recSt s3 i).postN ≥ r.goal) then enterDone s3 i 1 else s3

/-- The cause for which a record owed to the region is shed now, if any (R493, R499, R513). `raw` says of a raw record how many bytes of
other kinds the transactions behind it will still bring: raw records are shed before those. -/
def regionShed (s : Chip) (i : Nat) (raw : Option Nat) (n : Nat) : Option Nat :=
  if s.stage ≥ 4 ∨ (raw.isSome ∧ s.stage ≥ 2) then .some 2
  else if !halfTakes s i then .some 0
  else if s.recd.bytes + n + raw.getD 0 > 240000 then .some 3
  else .none

/-- Bytes of a record with those that go before it in the region. -/
def regionNeed (s : Chip) (i tick phase n : Nat) : Nat := (regionLead s i tick phase).foldl (fun k b => k + b.length) n

/-- A record owed to the region (R475, R499): a half in POST whose marker it would overwrite enters DONE first. -/
def owedRegion (s : Chip) (i tick phase : Nat) (raw : Option Nat) (data : Bool) (bs : List Byte) : Chip :=
  let need := regionNeed s i tick phase bs.length
  match regionShed s i raw need with
  | .some c => shedRegion s i c tick
  | .none =>
    let hits := capMode s i && halfState s i (curHalf s i) == 2 && decide ((recSt s i).mark + need > halfBytes s i)
    let s1 := if hits then enterDone s i 2 else s
    if halfTakes s1 i then recordRegion s1 i tick phase data bs else shedRegion s1 i 0 tick

/-- A record owed to the stream (R475, R512, R513). -/
def owedStream (s : Chip) (i tick phase : Nat) (raw : Option Nat) (bs : List Byte) : Chip :=
  let need := (streamLead s i tick phase).foldl (fun n b => n + b.length) bs.length
  if s.stage ≥ 1 ∨ (raw.isSome ∧ s.stage ≥ 2) then shedStream s i 2 tick
  else if need > ringFree s i then shedStream s i 1 tick
  else putStream (leadStream s i tick phase) i bs

/-- A record that the set owes goes to each destination that it has enabled (R475); a raw record shed for BUDGET is shed in both (R515). -/
def owed (s : Chip) (i tick phase : Nat) (raw : Option Nat) (data : Bool) (bs : List Byte) : Chip :=
  let c := setCfg s i
  let s1 := if bit c 14 then owedRegion s i tick phase raw data bs else s
  if !bit c 15 then s1
  else if raw.isSome && bit c 14 && decide (s.stage < 1) && regionShed s i raw (regionNeed s i tick phase bs.length) == some 3 then
    shedStream s1 i 3 tick
  else owedStream s1 i tick phase raw bs

/-- The transaction's OUTCOME (R470): the highest code among its writes. -/
def txnOutcome (t : Txn) : Nat := t.writes.foldl (fun m w => max m w.outcome) 0

/-- The FL bits of carried bits as in STATUS (R476). -/
def flBits (st : Nat) : Nat := b2n (natBit st 0) + 2 * b2n (natBit st 2) + 4 * b2n (natBit st 6) + 8 * b2n (natBit st 7)

/-- FL of a transaction: a bit that any of its writes carries. -/
def txnFl (t : Txn) : Nat := flBits (t.writes.foldl (fun m w => m ||| w.status) 0)

/-- Little-endian image of a value. -/
def leInt (v : Int) : List Byte := leBytes 4 (w32 v).toNat

/-- A value of a feedback sample as stored: that of its write, where it has a SID, or as sampled (R477). -/
def fbStored (used : Bool) (w : Option TxnWrite) (sampled : List Byte) : List Byte :=
  match used, w with
  | true, .some x => leInt x.value
  | _, _ => sampled

/-- The body of a feedback record (R477): position and speed. The transaction carries both as sampled and whether each has a SID. -/
def fbBody (t : Txn) : List Byte :=
  let pos := (leAt t.body 8 1) != 0
  let spd := (leAt t.body 9 1) != 0
  fbStored pos t.writes.head? (t.body.take 4) ++ fbStored spd t.writes.getLast? ((t.body.drop 4).take 4)

/-- The raw record of a transaction (R477). -/
def rawRecord (t : Txn) : List Byte :=
  let o := txnOutcome t
  let v := (t.writes.head?.map (·.value)).getD 0
  let sid := (t.writes.head?.map (·.sid)).getD 0
  if t.port = 0 then recHeader t.tick 0 0 t.phase 0 t.tag ++ padTo 60 t.body
  else if t.port = 1 then recHeader t.tick 0 (txnFl t) t.phase 1 (t.tag + o * 2 ^ 12) ++ leInt v ++ padTo 12 t.body
  else if t.port = 2 then
    let h := recHeader t.tick 0 (txnFl t) t.phase 2 (t.tag + o * 2 ^ 11)
    if t.tag / 2 ^ 14 = 0 then h ++ leInt v else if t.tag / 2 ^ 14 = 1 then h ++ padTo 8 (fbBody t) else h ++ padTo 60 t.body
  else
    let val := if t.tag / 32 % 4 = 2 then padTo 4 t.body else leInt v
    recHeader t.tick 0 (txnFl t) t.phase 3 (t.tag + o * 2 ^ 11) ++ leBytes 4 sid ++ val

/-- A set takes transactions of this port and writer (R472). -/
def setTakes (c : Word) (t : Txn) : Bool :=
  bit c (7 + t.port) &&
    (t.port != 3 || (decide (t.src < 8) && bit c 11) || (decide (8 ≤ t.src ∧ t.src < 10) && bit c 12) || (srcIsHost t.src && bit c 13))

/-- The writes of a transaction whose SID lies in the set's range. -/
def inRange (s : Chip) (i : Nat) (t : Txn) : List TxnWrite :=
  t.writes.filter (fun w => decide (s.rdF (Reg.recSetslo i) 17 0 ≤ w.sid) && decide (w.sid ≤ s.rdF (Reg.recSetshi i) 17 0))

/-- The transaction belongs to an enabled store set (R472). -/
def belongs (s : Chip) (i : Nat) (t : Txn) : Bool :=
  let c := setCfg s i
  bit c 0 && !bit c 2 && setTakes c t && !(inRange s i t).isEmpty && (decide (txnOutcome t ≤ 1) || bit c 6)

/-- CMAX with 0 meaning 4,096 (R521). -/
def cmax (s : Chip) (i : Nat) : Nat :=
  let n := s.rdF (Reg.recSetchg i) 27 16
  if n = 0 then 4096 else n

/-- The change entry of a SID in a set (R481). -/
def chgIndex (s : Chip) (i sid : Nat) : Nat := s.rdF (Reg.recSetchg i) 15 0 + sid - s.rdF (Reg.recSetslo i) 17 0

/-- The write calls for a change record (R482). -/
def chgCalls (s : Chip) (i : Nat) (e : Option ChgEntry) (w : TxnWrite) (tick : Nat) : Bool :=
  match e with
  | .none => true
  | .some x =>
    let gap := s.rdF (Reg.recSetgap i) 15 0
    decide (((w.value - x.value).natAbs : Int) > s32 (s.rd (Reg.recSetdb i))) || w.seen != x.status ||
      (gap != 0 && decide (tickSince tick x.tick ≥ gap))

/-- A change record beyond CMAX is shed for each destination, and its entry marked RESYNC (R483, 19 R846). -/
def shedChange (s : Chip) (i idx : Nat) : Chip :=
  let c := setCfg s i
  let n := b2n (bit c 14) + b2n (bit c 15)
  let s1 := { s with recd := { s.recd with chg := Tab.set .none s.recd.chg idx .none } }
  ((((((s1.bumpBy (Reg.recLissued i) n).bumpBy (Reg.recLchgshed i) n).bumpBy (shedReg 4) n).led 3 0 n).led 3 2 n).odoInc 36 n).setFlag i 2

/-- Change-only recording of one accepted write (R482, R483). -/
def changeWrite (t : Txn) (i : Nat) (s : Chip) (w : TxnWrite) : Chip :=
  let idx := chgIndex s i w.sid
  let e := Tab.get .none s.recd.chg idx
  if !chgCalls s i e w t.tick then s
  else
    let r := recSt s i
    if r.chgTick ≥ cmax s i then shedChange s i idx
    else
      let s1 := setRec s i { r with chgTick := r.chgTick + 1 }
      let s2 := { s1 with recd := { s1.recd with chg := Tab.set .none s1.recd.chg idx (.some ⟨w.value, w.seen, t.tick⟩) } }
      owed s2 i t.tick t.phase .none true
        (shortRecord t.tick 1 (if t.port = 0 then 0 else flBits w.status) t.phase t.port (t.src % 32) (w.sid + w.seen * 2 ^ 24) (w32 w.value).toNat)

/-- W of a set's reductions, as the window in ticks (R486). -/
def redWindow (s : Chip) (i : Nat) : Nat := 2 ^ s.rdF (Reg.recSetred i) 20 16

/-- The accumulator of a SID in the bank of a window (R485, R487). -/
def redIndex (s : Chip) (i sid win : Nat) : Nat :=
  32768 * (win % 2) + s.rdF (Reg.recSetred i) 14 0 + sid - s.rdF (Reg.recSetslo i) 17 0

/-- An accumulator after one more write (R486). DEDUCED (notes/assumptions/41.md). -/
def redAdd (a : Option RedAcc) (w : TxnWrite) (tick : Nat) : RedAcc :=
  match a with
  | .none => ⟨1, w.value, w.value, w.value, w.value, w.value, w.seen, tick⟩
  | .some x =>
    { x with
      count := x.count + 1, lo := min x.lo w.value, hi := max x.hi w.value, sum := x.sum + w.value, last := w.value
      status := x.status ||| w.seen }

/-- The reduction of one accepted write (R486). -/
def reduceWrite (t : Txn) (i : Nat) (s : Chip) (w : TxnWrite) : Chip :=
  let k := redIndex s i w.sid (t.tick / redWindow s i)
  { s with recd := { s.recd with red := Tab.set .none s.recd.red k (.some (redAdd (Tab.get .none s.recd.red k) w t.tick)) } }

/-- One set takes a transaction (R474): its raw record; `later` bytes of other kinds are still to come (R493). -/
def setRaw (t : Txn) (later : Nat) (s : Chip) (i : Nat) : Chip :=
  if bit (setCfg s i) 3 && belongs s i t then owed s i t.tick t.phase (.some later) true (rawRecord t) else s

/-- One set takes a transaction (R474): change records and reductions. -/
def setKept (t : Txn) (s : Chip) (i : Nat) : Chip :=
  let c := setCfg s i
  if bit c 0 && !bit c 2 && bit c (7 + t.port) then
    let ws := (inRange s i t).filter (fun w => decide (w.outcome ≤ 1))
    let s1 := if bit c 4 then ws.foldl (changeWrite t i) s else s
    if bit c 5 then ws.foldl (reduceWrite t i) s1 else s1
  else s

/-- Sets with EN = 1. -/
def enabledSets (s : Chip) : List Nat := (List.range 64).filter (fun i => bit (setCfg s i) 0)

/-- While CORE is reset the tap counts the raw records that transactions owe (R514): issued and discarded, for each destination. -/
def discardTxn (t : Txn) (s : Chip) (i : Nat) : Chip :=
  let c := setCfg s i
  if bit c 3 && belongs s i t then
    let n := b2n (bit c 14) + b2n (bit c 15)
    let r := recSt s i
    let s1 := setRec s i { r with
      gapR := if bit c 14 then addGap r.gapR 1 1 t.tick else r.gapR
      gapS := if bit c 15 then addGap r.gapS 1 1 t.tick else r.gapS }
    (((s1.bumpBy (Reg.recLissued i) n).bumpBy (Reg.recLrstdisc i) n).led 3 0 n).led 3 3 n
  else s

/-- A capture-stream record for a set (R473): a set that is not an enabled capture-stream set sheds it with cause TYPE. -/
def captureRecord (s : Chip) (i : Nat) (bs : List Byte) : Chip :=
  let c := setCfg s i
  if bit c 0 && bit c 2 then owed s i s.tb.tick s.phaseRead .none true bs else (s.bump (shedReg 5)).odoInc 36 1

/-- TRGu_STAT bits: 0 ARMED, 1 C_u, 2 QUALU has fired (R529). -/
def trgBit (s : Chip) (u b : Nat) : Bool := s.rdBit (Reg.recTrgstat u) b

/-- A unit's further state. -/
def trgSt (s : Chip) (u : Nat) : TrigUnit := Tab.get TrigUnit.zero s.recd.trig u

/-- A unit's further state replaced. -/
def setTrg (s : Chip) (u : Nat) (x : TrigUnit) : Chip :=
  { s with recd := { s.recd with trig := Tab.set TrigUnit.zero s.recd.trig u x } }

/-- COND of a unit (R504). -/
def trgCond (s : Chip) (u : Nat) : Nat := s.rdF (Reg.recTrgcfg u) 2 0

/-- The condition on the value that an accepted write of SRC stores (R504, R505). -/
def condValue (s : Chip) (u : Nat) (w : TxnWrite) : Bool :=
  let cfg := s.rd (Reg.recTrgcfg u)
  let a := s32 (s.rd (Reg.recTrga u))
  let b := s32 (s.rd (Reg.recTrgb u))
  let sense := fld cfg 19 18
  match fld cfg 2 0 with
  | 1 => if sense = 0 then decide (w.value > a) else decide (w.value < a)
  | 2 => if sense = 0 then decide (a ≤ w.value ∧ w.value ≤ b) else decide (w.value < a ∨ w.value > b)
  | 3 => match (trgSt s u).prev with
    | .none => false
    | .some p =>
      let d := w.value - p
      if sense = 0 then decide (d > a) else if sense = 1 then decide (-d > a) else decide ((d.natAbs : Int) > a)
  | 4 => (w.seen &&& (s.rdF (Reg.recTrga u) 7 0)) != 0
  | _ => false

/-- An accepted write moves the condition of a unit whose SRC it is (R504, R505): RATE stays true to the end of its tick. -/
def condWrite (w : TxnWrite) (s : Chip) (u : Nat) : Chip :=
  let c := trgCond s u
  if 1 ≤ c ∧ c ≤ 4 ∧ s.rdF (Reg.recTrgsrc u) 17 0 = w.sid ∧ w.outcome ≤ 1 then
    let s1 := s.wrBit (Reg.recTrgstat u) 1 (condValue s u w || (c == 3 && s.rdBit (Reg.recTrgstat u) 1))
    if c = 3 then setTrg s1 u { trgSt s1 u with prev := .some w.value } else s1
  else s

/-- The 32 units. -/
def allUnits : List Nat := List.range 32

/-- The conditions after a transaction. -/
def condTxn (s : Chip) (t : Txn) : Chip := t.writes.foldl (fun x w => allUnits.foldl (condWrite w) x) s

/-- An event moves the conditions of COND EVENT (R504). -/
def condEvent (s : Chip) (n : Nat) : Chip :=
  allUnits.foldl (fun x u =>
    if trgCond x u = 5 ∧ x.rdF (Reg.recTrgsrc u) 9 0 = n then x.wrBit (Reg.recTrgstat u) 1 true else x) s

/-- F_u: C_u combined with the units of MASK (R506). -/
def combined (s : Chip) (u : Nat) : Bool :=
  let vs := allUnits.filter (fun v => v != u && s.rdBit (Reg.recTrgmask u) v)
  if s.rdBit (Reg.recTrgcfg u) 22 then trgBit s u 1 && vs.all (fun v => trgBit s v 1)
  else trgBit s u 1 || vs.any (fun v => trgBit s v 1)

/-- A TRIG marker (R479). -/
def trigMark (tick phase unit pre : Nat) : List Byte := shortRecord tick 4 0 phase 0 2 unit pre

/-- Where a TRIG marker would stand: behind the records that go before it (R503). -/
def trigPos (s : Chip) (i tick phase : Nat) : Nat :=
  (halfOff s i + ((recSt s i).pos + regionNeed s i tick phase 0) % max (halfBytes s i) 1) / 4

/-- A TRIG marker goes to the region behind what goes before it, and TPOS names its place (R479, R480, R503). A marker that is shed leaves
TPOS at the last one. -/
def putTrig (s : Chip) (i unit tick phase : Nat) : Chip :=
  match regionShed s i .none (regionNeed s i tick phase 16) with
  | .some c => shedRegion s i c tick
  | .none =>
    let s1 := s.wr (Reg.recSettpos i) (wn (trigPos s i tick phase))
    putRegion (leadRegion s1 i tick phase) i (trigMark tick phase unit (recSt s i).pre)

/-- A fire reaches a set's region (R495, R498, R501): the state, and whether it acted. -/
def fireRegion (s : Chip) (i unit tick phase : Nat) : Chip × Bool :=
  let c := setCfg s i
  if !bit c 0 || !bit c 14 || decide (s.stage ≥ 4) then (s, false)
  else
    if !capMode s i then (putTrig s i unit tick phase, true)
    else if halfState s i (curHalf s i) ≠ 1 then (s, false)
    else
      let s2 := s.wr (Reg.recSetprec i) (wn (recSt s i).pre)
      let s3 := if (recSt s i).wrapped then s2 else s2.wrBit (Reg.recSetstat i) 5 true
      let s4 := putTrig s3 i unit tick phase
      let s5 := setHalf (setRec s4 i { recSt s4 i with mark := 16, postN := 0 }) i (curHalf s i) 2
      (if (recSt s i).goal = 0 then enterDone s5 i 1 else s5, true)

/-- A fire reaches a set's stream (R509, 19 R847): it always acts there, also where the set is not enabled; `pre` data records have gone
before it (R479). DEDUCED (notes/assumptions/41.md). -/
def fireStream (s : Chip) (i unit tick phase pre : Nat) : Chip × Bool :=
  let c := setCfg s i
  if bit c 15 then (owedStream s i tick phase .none (trigMark tick phase unit pre), true) else (s, false)

/-- A fire reaches a set (R501, R509, 19 R847): the state, and whether it acted. -/
def fireSet (s : Chip) (i unit tick phase : Nat) : Chip × Bool :=
  let s0 := s.bump (Reg.ldgTrgin i)
  let (s1, a) := fireRegion s0 i unit tick phase
  let (s2, b) := fireStream s1 i unit tick phase (recSt s0 i).pre
  if a || b then (s2.bump (Reg.ldgTrgact i), true)
  else (((s2.bump (Reg.recLmisstrg i)).wr Reg.recMtrglast (wn (i * 2 ^ 24 + unit % 32 * 2 ^ 16 + tick % 65536))).setFlag i 1, false)

/-- The target sets of a unit (R527). -/
def trgTargets (s : Chip) (u : Nat) : List Nat :=
  (List.range 64).filter (fun j => if j < 32 then s.rdBit (Reg.recTrgtgtlo u) j else s.rdBit (Reg.recTrgtgthi u) (j - 32))

/-- When a REPEAT unit that fired at a stamp re-arms: HOLD ticks later, or at the next boundary if HOLD is 0 (R508). -/
def rearmAt (tick phase hold : Nat) : Nat × Nat := if hold = 0 then (tickAdd tick 1, 0) else (tickAdd tick hold, phase)

/-- A unit fires (R508). -/
def fireUnit (s : Chip) (u tick phase : Nat) : Chip :=
  let x := trgSt s u
  if x.fired = .some tick then s
  else
    let s1 := ((s.bump (Reg.recTrgfirecnt u)).wr (Reg.recTrglastt u) (wn tick)).wr (Reg.recTrglastp u) (wn phase)
    let (s2, acted) := (trgTargets s1 u).foldl (fun (acc : Chip × Bool) i =>
      let r := fireSet acc.1 i u tick phase
      (r.1, acc.2 || r.2)) (s1.raise (448 + u), false)
    let s3 := if acted then s2 else s2.bump (Reg.recTrgunused u)
    let again := s3.rdBit (Reg.recTrgcfg u) 21
    let s4 := setTrg (s3.wrBit (Reg.recTrgstat u) 0 false) u { x with
      fired := .some tick, rearm := if again then .some (rearmAt tick phase (s3.rdF (Reg.recTrghold u) 15 0)) else .none }
    allUnits.foldl (fun y v =>
      if y.rdF (Reg.recTrgcfg v) 28 24 = u then y.wrBit (Reg.recTrgstat v) 2 true else y) s4

/-- At the end of a stamp every armed unit whose F has risen fires, in order of number (R502, R506, R507). -/
def fireUnits (s : Chip) (tick phase : Nat) : Chip :=
  let s1 := allUnits.foldl (fun x u =>
    if trgBit x u 0 && combined x u && !(trgSt x u).was && (!x.rdBit (Reg.recTrgcfg u) 23 || trgBit x u 2) then
      fireUnit x u tick phase else x) s
  allUnits.foldl (fun x u => setTrg x u { trgSt x u with was := combined x u }) s1

/-- The records other than raw ones that a note leaves: change records, reductions and those of a capture. -/
def recKept (s : Chip) (n : Note) : Chip :=
  match n with
  | .txn t => if recRuns s then (enabledSets s).foldl (setKept t) s else s
  | .capture i bs => if recRuns s then captureRecord s i bs else s
  | .event _ => s

/-- Bytes of other kinds than raw that the notes bring to the regions (R493). -/
def keptBytes (s : Chip) (l : List Note) : Nat := (l.foldl recKept s).recd.bytes - s.recd.bytes

/-- One thing that a command has left, as the recorder takes it: of the records of one command the raw ones are the first to be shed for
BUDGET (R493), so a raw record leaves room for the other kinds of its own transaction, and for the `later` bytes of those behind it.
DEDUCED (notes/assumptions/41.md). -/
def recOne (s : Chip) (n : Note) (later : Nat) : Chip :=
  match n with
  | .txn t =>
    let l := enabledSets s
    if recRuns s then condTxn (l.foldl (setRaw t later) (recKept s n)) t else l.foldl (discardTxn t) s
  | .capture _ _ => recKept s n
  | .event e => if recRuns s then condEvent s e else s

/-- The stamp of a note. -/
def noteStamp (s : Chip) (n : Note) : Nat × Nat :=
  match n with
  | .txn t => (t.tick, t.phase)
  | _ => (s.tb.tick, s.phaseRead)

/-- The place of a note among those of one stamp (R471): by port, and within it by compartment, by LID, by converter and entry, channel, or as
it came; what is no transaction comes last. -/
def notePlace (n : Note) : Nat :=
  match n with
  | .txn t =>
    let k :=
      if t.port = 0 then t.tag % 512
      else if t.port = 1 then t.tag % 4096
      else if t.port = 2 then
        (if t.tag / 2 ^ 14 = 0 then t.tag % 512 else if t.tag / 2 ^ 14 = 1 then 1024 + t.tag % 32 else 2048 + t.tag % 8)
      else 0
    t.port * 65536 + k
  | _ => 4 * 65536

/-- The order in which the recorder takes the notes of a command: by stamp (R471), oldest first. -/
def noteKey (s : Chip) (n : Note) : Nat :=
  let st := noteStamp s n
  ((2 ^ 48 - tickSince s.tb.tick st.1) * 16384 + st.2) * 2 ^ 19 + notePlace n

/-- A note put into its place, before those that come no earlier. -/
def insertNote (s : Chip) (n : Note) : List Note → List Note
  | [] => [n]
  | m :: ms => if noteKey s n ≤ noteKey s m then n :: m :: ms else m :: insertNote s n ms

/-- The notes of a command in order (R471). DESIGN CHOICE (notes/assumptions/41.md). -/
def sortNotes (s : Chip) (l : List Note) : List Note := l.foldr (insertNote s) []

/-- The recorder takes notes in order; units fire at the end of each stamp (R506). The notes bring `later` bytes of other kinds than raw. -/
def takeNotes (later : Nat) (s : Chip) : List Note → Chip
  | [] => s
  | n :: rest =>
    let after := later - keptBytes s [n]
    let s1 := recOne s n after
    let st := noteStamp s1 n
    let more := rest.head?.any (fun m => noteStamp s1 m == st)
    takeNotes after (if recRuns s1 && !more then fireUnits s1 st.1 st.2 else s1) rest

/-- The recorder takes what a command has left. -/
def recNotes (s : Chip) (l : List Note) : Chip :=
  let sorted := sortNotes s l
  takeNotes (keptBytes s sorted) s sorted

/-- The largest record that a set can produce (R496). -/
def rmax (s : Chip) (i : Nat) : Nat :=
  let c := setCfg s i
  let lo := s.rdF (Reg.recSetslo i) 17 0
  let hi := s.rdF (Reg.recSetshi i) 17 0
  let makes := fun (p : Producer → Bool) => s.store.decls.any (fun e => decide (lo ≤ e.1) && decide (e.1 ≤ hi) && p e.2.producer)
  let can := makes (fun p => match p with
    | .chan 0 _ => true
    | _ => false)
  let raw := bit c 3
  if bit c 2 then 32
  else if raw && (bit c 7 || (bit c 9 && can)) then 68
  else
    let sizes := [16] ++ (if raw && bit c 8 then [24] else []) ++ (if bit c 5 then [40] else [])
    sizes.foldl max 16

/-- NREC (R496). -/
def nrec (s : Chip) (i : Nat) : Nat := halfBytes s i / rmax s i

/-- A half enters FILL at its start. -/
def startFill (s : Chip) (i h : Nat) : Chip :=
  let s1 := setHalf (s.wrF (Reg.recSetstat i) 4 4 h) i h 1
  syncPos (setRec s1 i { recSt s1 i with pos := 0, lens := [], mark := 0, pre := 0, postN := 0, wrapped := false }) i

/-- A refused write of the REC block (R516, R519). -/
def recRefuse (s : Chip) (code off : Nat) : Chip := s.wr Reg.recCfgerr (wn (code * 2 ^ 28 + off))

/-- A refused command of a set (R497, R516, R523). -/
def setRefuse (s : Chip) (i code : Nat) : Chip := recRefuse (s.wrF (Reg.recSetstat i) 31 28 code) code (0x1000 + 0x40 * i + 0x28)

/-- A TIME record that R480 asks for before a marker at the start of a half: one where TICK[47:24] differs from that of the last TIME
record of the region. -/
def timeBefore (s : Chip) (i tick phase : Nat) : List (List Byte) :=
  match (recSt s i).timeR with
  | .some t => if t = tick / 2 ^ 24 then [] else [timeRecord tick phase]
  | .none => []

/-- ARM of a set (R497): refused, or the current half enters FILL with an ARM marker and a TIME record, and takes POST (R521); a GAP record
that is due goes before them (R479). DEDUCED (notes/assumptions/41.md). -/
def armSet (s : Chip) (i : Nat) : Chip :=
  let h := curHalf s i
  if !bit (setCfg s i) 0 then setRefuse s i 1
  else if !capMode s i || !bit (setCfg s i) 14 then s
  else if (s.rd (Reg.recSetpost i)).toNat > nrec s i - 1 then setRefuse s i 3
  else if halfState s i h ≠ 0 then setRefuse s i 7
  else
    let t := s.tb.tick
    let p := s.phaseRead
    let s1 := startFill (s.wrBit (Reg.recSetstat i) 5 false) i h
    let s2 := setRec s1 i { recSt s1 i with goal := (s1.rd (Reg.recSetpost i)).toNat }
    let arm := [shortRecord t 4 0 p 0 1 0 0, timeRecord t p]
    let g := (recSt s2 i).gapR
    let lead := if (readyGap g).isSome then regionLead s2 i t p else timeBefore s2 i t p
    match regionShed s2 i .none ((lead ++ arm).foldl (fun n b => n + b.length) 0) with
    | .some c =>
      let s3 := arm.foldl (fun x _ => shedRegion x i c t) s2
      setRec s3 i { recSt s3 i with timeR := .none }
    | .none =>
      let s3 := (lead ++ arm).foldl (fun x b => putRegion x i b) s2
      let s4 := setRec s3 i { recSt s3 i with timeR := .some (t / 2 ^ 24), gapR := gapAfter g }
      if (readyGap g).isSome then s4.setFlag i 3 else s4

/-- RELEASE of a set (R500). -/
def releaseSet (s : Chip) (i : Nat) : Chip :=
  let h := curHalf s i
  let o := 1 - h
  if !capMode s i then s
  else if !pingpong s i then (if halfState s i 0 = 3 then startFill s i 0 else s)
  else if halfState s i o = 3 then
    if halfState s i h = 3 then startFill s i o else setHalf s i o 0
  else if halfState s i h = 3 then setHalf s i h 0
  else s

/-- STOP of a set (R500). -/
def stopSet (s : Chip) (i : Nat) : Chip :=
  let busy := fun (h : Nat) => halfState s i h == 1 || halfState s i h == 2
  let s1 := if busy 0 || busy 1 then s.wrF (Reg.recSetstat i) 27 24 3 else s
  setHalf (setHalf s1 i 0 0) i 1 0

/-- A software trigger of one set (R509), with unit number 0xFF. -/
def softTrigger (s : Chip) (i : Nat) : Chip := (fireSet s i 0xFF s.tb.tick s.phaseRead).1

/-- ARM of a trigger unit (R505, R528). -/
def armUnit (s : Chip) (u : Nat) : Chip :=
  let s1 := (s.wrBit (Reg.recTrgstat u) 0 true).wrBit (Reg.recTrgstat u) 2 false
  setTrg s1 u { trgSt s1 u with prev := if trgCond s1 u = 3 then .none else (trgSt s1 u).prev, rearm := .none }

/-- DISARM of a trigger unit. -/
def disarmUnit (s : Chip) (u : Nat) : Chip :=
  setTrg (s.wrBit (Reg.recTrgstat u) 0 false) u { trgSt s u with rearm := .none }

/-- A REPEAT unit re-arms (R508). -/
def rearmUnit (s : Chip) (u : Nat) : Chip :=
  match (trgSt s u).rearm with
  | .none => s
  | .some t =>
    let n := tickSince s.tb.tick t.1
    if n < 2 ^ 47 ∧ (n ≠ 0 ∨ t.2 ≤ s.tb.phase) then
      setTrg ((s.wrBit (Reg.recTrgstat u) 0 true).wrBit (Reg.recTrgstat u) 2 false) u { trgSt s u with rearm := .none }
    else s

/-- SIDs of a set's range that the given producers make. -/
def sidsOf (s : Chip) (i : Nat) (p : Producer → Bool) : List (Nat × SidDecl) :=
  s.store.decls.filter (fun e => decide (s.rdF (Reg.recSetslo i) 17 0 ≤ e.1) && decide (e.1 ≤ s.rdF (Reg.recSetshi i) 17 0) && p e.2.producer)

/-- The number of different keys. -/
def distinct (l : List Nat) : Nat := (l.foldl (fun (acc : List Nat) x => if acc.contains x then acc else x :: acc) []).length

/-- Channels of a kind with a SID in range. -/
def chansOf (s : Chip) (i kind : Nat) : List Nat :=
  (sidsOf s i (fun _ => true)).filterMap (fun e => match e.2.producer with
    | .chan k n => if k = kind then .some n else .none
    | _ => .none)

/-- The ceiling of a set in bytes per tick (R491). -/
def setCeil (s : Chip) (i : Nat) : Nat :=
  let c := setCfg s i
  let raw := bit c 3
  if bit c 2 then 512 + 64
  else
    let lo := s.rdF (Reg.recSetslo i) 17 0
    let hi := s.rdF (Reg.recSetshi i) 17 0
    let comps := (s.ewn.seats.filter (fun x =>
      !x.stat && decide (lo ≤ x.sid) && decide (x.sid ≤ hi) && ((Tab.get ⟨0, 0⟩ s.ewn.comps x.comp).kind % 2 == 0))).map (·.comp)
    let p0 := if raw && bit c 7 then 68 * distinct comps else 0
    let slots := (sidsOf s i (fun p => match p with
      | .slot _ => true
      | _ => false)).length
    let p1 := if raw && bit c 8 then 24 * min 1024 slots else 0
    let adc := chansOf s i 2
    let adcBytes := (List.range 8).foldl (fun n k => n + 12 * min 20 (adc.filter (· == k)).length) 0
    let p2 := if raw && bit c 9 then adcBytes + 16 * distinct (chansOf s i 1) + 68 * distinct (chansOf s i 0) else 0
    let p3s := sidsOf s i (fun p => match p with
      | .p3 _ _ _ => true
      | _ => false)
    let p3 := if raw && bit c 10 && !p3s.isEmpty then 8000 else 0
    let chg := if bit c 4 then 16 * cmax s i else 0
    let n := hi + 1 - lo
    let red := if bit c 5 then (n * 40 + redWindow s i - 1) / redWindow s i else 0
    p0 + p1 + p2 + p3 + chg + red + 64

/-- The sum of the ceilings of the enabled sets with a destination bit, `also` among them (R492). -/
def ceilSum (s : Chip) (b : Nat) (also : List Nat) : Nat :=
  ((List.range 64).filter (fun i => (bit (setCfg s i) 0 || also.contains i) && bit (setCfg s i) b)).foldl (fun n i => n + setCeil s i) 0

/-- REC_DCEIL and REC_SCEIL (R492). -/
def syncCeil (s : Chip) : Chip := (s.wr Reg.recDceil (wn (ceilSum s 14 []))).wr Reg.recSceil (wn (ceilSum s 15 []))

/-- Two spans [a, a + n) and [b, b + m) share nothing. -/
def apart (a n b m : Nat) : Bool := decide (a + n ≤ b) || decide (b + m ≤ a)

/-- The SIDs in a set's range. -/
def rangeSize (s : Chip) (i : Nat) : Nat := s.rdF (Reg.recSetshi i) 17 0 + 1 - s.rdF (Reg.recSetslo i) 17 0

/-- A SID lies in the range of a set. -/
def inSet (s : Chip) (i sid : Nat) : Bool :=
  decide (s.rdF (Reg.recSetslo i) 17 0 ≤ sid) && decide (sid ≤ s.rdF (Reg.recSetshi i) 17 0)

/-- The allotment of set i in a memory of `top` entries goes beyond its end or meets that of another set with bit `b` (R481, R485), or
some SID of its range lies in the ranges of more than four such sets (R485). Every set with the bit counts, enabled or not. -/
def allotBad (s : Chip) (i b top : Nat) (base : Nat → Nat) : Bool :=
  let others := (List.range 64).filter (fun j => j != i && bit (setCfg s j) b)
  bit (setCfg s i) b &&
    (decide (base i + rangeSize s i > top) ||
      others.any (fun j => !apart (base i) (rangeSize s i) (base j) (rangeSize s j)) ||
      ((i :: others).map (fun j => s.rdF (Reg.recSetslo j) 17 0)).any (fun x =>
        inSet s i x && decide ((others.filter (fun j => inSet s j x)).length ≥ 4)))

/-- Code MEMORY for set i (R481, R485). -/
def memoryBad (s : Chip) (i : Nat) : Bool :=
  allotBad s i 4 65536 (fun j => s.rdF (Reg.recSetchg j) 15 0) || allotBad s i 5 32768 (fun j => s.rdF (Reg.recSetred j) 14 0)

/-- The check of an enable of set i (R475, R481, R485, R492, R494): 0 or the code of R516. -/
def enableSetCheck (s : Chip) (i : Nat) : Nat :=
  let c := setCfg s i
  let size := s.rdF (Reg.recSetrs i) 28 0
  let others := (enabledSets s).filter (· != i)
  let sz := s.rdF (Reg.recStrcfg i) 4 0
  if (!bit c 14 && !bit c 15) || decide (s.rdF (Reg.recSetslo i) 17 0 > s.rdF (Reg.recSetshi i) 17 0) ||
      (bit c 14 && (decide (size < 1024) || decide (size > 268435456) || (s.rdBit (Reg.recSetrs i) 29 && size % 2 == 1))) ||
      (bit c 15 && decide (sz < 16)) then 2
  else if memoryBad s i then 6
  else if ceilSum s 14 [i] > 240000 ∨ ceilSum s 15 [i] > 120000 then 4
  else if bit c 14 && others.any (fun j => bit (setCfg s j) 14 &&
      !apart (s.rdF (Reg.recSetrb i) 28 0) size (s.rdF (Reg.recSetrb j) 28 0) (s.rdF (Reg.recSetrs j) 28 0)) then 5
  else 0

/-- What an enabled set starts with (R480, R484, R488): entries RESYNC, the window PARTIAL, a TIME record due; a region in CONT begins anew. -/
def startSet (s : Chip) (i : Nat) : Chip :=
  let n := s.rdF (Reg.recSetshi i) 17 0 + 1 - s.rdF (Reg.recSetslo i) 17 0
  let r := recSt s i
  let cb := s.rdF (Reg.recSetchg i) 15 0
  let rb := s.rdF (Reg.recSetred i) 14 0
  let own := bit (setCfg s i) 5
  let s1 := { s with recd := { s.recd with
      chg := if bit (setCfg s i) 4 then s.recd.chg.filter (fun e => decide (e.1 < cb) || decide (cb + n ≤ e.1)) else s.recd.chg
      red := if own then s.recd.red.filter (fun e => decide (e.1 % 32768 < rb) || decide (rb + n ≤ e.1 % 32768)) else s.recd.red } }
  let r1 := { r with timeS := .none, partW := true, out := .none, window := s.tb.tick / redWindow s i }
  if capMode s i then setRec s1 i r1 else syncPos (setRec s1 i { r1 with timeR := .none, pos := 0, lens := [] }) i

/-- REC_STAT of a recorder that runs: RUN, STROFF, RAWOFF and DRAMOFF as the stage has it (R513, R517). -/
def recRunning (s : Chip) : Chip :=
  s.wrF Reg.recStat 3 0 (1 + 2 * b2n (decide (s.stage ≥ 1)) + 4 * b2n (decide (s.stage ≥ 2)) + 8 * b2n (decide (s.stage ≥ 4)))

/-- REC_STRSTATs of a stream that runs: RUN, or SAG under stage 1 (R513, R530). -/
def strRunning (s : Chip) (i : Nat) : Chip := s.wr (Reg.recStrstat i) (if s.stage ≥ 1 then 4 else 1)

/-- REC_SETCFGs.EN is written (R475, R481, R484, R492, R494, R497); a running fill goes on at the rate that follows (13 R605). -/
def setEnable (s : Chip) (i : Nat) (on : Bool) : Chip :=
  if bit (setCfg s i) 0 == on then s
  else if !on then syncCeil (((advanceFill s).wrBit (Reg.recSetcfg i) 0 false).wr (Reg.recStrstat i) 0)
  else
    let code := enableSetCheck s i
    if code ≠ 0 then recRefuse s code (0x1000 + 0x40 * i)
    else
      let s1 := startSet ((advanceFill s).wrBit (Reg.recSetcfg i) 0 true) i
      let s2 := syncCeil (if bit (setCfg s1 i) 15 then strRunning s1 i else s1)
      if bit (setCfg s2 i) 1 then armSet s2 i else s2

/-- The reduction record of one accumulator of a finished window (R479, R487). -/
def redRecord (s : Chip) (i sid tick : Nat) (part : Bool) (a : Option RedAcc) : List Byte :=
  let tag := s.rdF (Reg.recSetred i) 20 16 + 32 * b2n part
  let h := recHeader tick 2 0 9999 0 tag
  match a with
  | .none => h ++ leBytes 4 sid ++ bytesOf 28 0
  | .some x =>
    h ++ leBytes 4 (sid + x.status * 2 ^ 24) ++ leBytes 4 x.count ++ leInt x.lo ++ leInt x.hi ++
      leInt (sat32 (divNE x.sum x.count)) ++ leInt x.first ++ leInt x.last ++ leBytes 4 (x.tick % 2 ^ 24)

/-- One accumulator of a finished window is written and cleared (R487). -/
def writeAcc (i win : Nat) (part : Bool) (s : Chip) (sid : Nat) : Chip :=
  let k := redIndex s i sid win
  let a := Tab.get .none s.recd.red k
  if a.isNone && !s.rdBit (Reg.recSetred i) 15 then s
  else
    let tick := (win + 1) * redWindow s i - 1
    let s1 := { s with recd := { s.recd with red := Tab.set .none s.recd.red k .none } }
    owed s1 i tick 9999 .none true (redRecord s i sid tick part a)

/-- The window before window `now` of a set, through the wrap of TICK (01 R27). -/
def lastWindow (s : Chip) (i now : Nat) : Nat :=
  let n := 2 ^ 48 / redWindow s i
  (now + n - 1) % n

/-- Accumulators of a finished window whose records are due by the end of this tick, of `n`: an even share of them in each tick of the next
window (R487). -/
def redDue (s : Chip) (i n : Nat) : Nat := n * (s.tb.tick % redWindow s i + 1) / redWindow s i

/-- The reduction records of a set that are due in this tick, in SID order (R487). -/
def writeShare (s : Chip) (i : Nat) : Chip :=
  match (recSt s i).out with
  | .none => s
  | .some o =>
    let n := rangeSize s i
    let upto := redDue s i n
    let lo := s.rdF (Reg.recSetslo i) 17 0
    let s1 := ((List.range (upto - o.next)).map (lo + o.next + ·)).foldl (writeAcc i o.win o.part) s
    setRec s1 i { recSt s1 i with out := if upto = n then .none else .some { o with next := upto } }

/-- A reduction window of a set ends (R486–R488): the banks swap, and the finished one is written during the next window. -/
def windowEnd (s : Chip) (i : Nat) : Chip :=
  let c := setCfg s i
  let now := s.tb.tick / redWindow s i
  let r := recSt s i
  if !recRuns s ∨ !bit c 0 ∨ !bit c 5 ∨ bit c 2 ∨ now = r.window then s
  else writeShare (setRec s i { r with window := now, partW := false, out := .some ⟨lastWindow s i now, 0, r.partW⟩ }) i

/-- The reduction records that are due in the tick now starting (R487). -/
def redTick (s : Chip) : Chip := if recRuns s then (enabledSets s).foldl writeShare s else s

/-- MSI-X vector of a stream, signalled once for each threshold that PROD has passed (R511). -/
def signalTimes (s : Chip) (v : Nat) : Nat → Chip
  | 0 => s
  | k + 1 => signalTimes (s.signal v) v k

/-- Multiples of `thr` that a 32-bit byte count passes on its way from `a` to `b`, both counted without wrapping (R510, R511). -/
def multiplesPassed (thr a b : Nat) : Nat :=
  (b / 2 ^ 32 - a / 2 ^ 32) * ((2 ^ 32 - 1) / thr + 1) + b % 2 ^ 32 / thr - a % 2 ^ 32 / thr

/-- After a tick in which records went to a ring: PROD to STRWB, and the vector for each threshold passed (R511). -/
def streamWriteback (s : Chip) (i : Nat) : Chip :=
  let r := recSt s i
  if r.prod = r.wbAt then s
  else
    let s1 := s.putHost (addr64 s (Reg.recStrwblo i) (Reg.recStrwbhi i)) (leBytes 4 (s.rd (Reg.recStrprod i)).toNat)
    let thr := 1024 * s.rdF (Reg.recStrcfg i) 31 16
    let n := if thr = 0 then 0 else multiplesPassed thr r.wbAt r.prod
    setRec (signalTimes s1 (s.rdF (Reg.recStrcfg i) 15 8) n) i { r with wbAt := r.prod }

/-- The recorder at a tick boundary: writebacks, per-tick counts, conditions that last to the end of their tick (R483, R493, R504). -/
def recBoundary (s : Chip) : Chip :=
  let s1 := (s.recd.sets.map (·.1)).foldl streamWriteback s
  let s2 := { s1 with recd := { s1.recd with
      bytes := 0, sets := s1.recd.sets.map (fun (e : Nat × RecSet) => (e.1, { e.2 with chgTick := 0 })) } }
  let s3 := { s2 with recd := { s2.recd with sets := s2.recd.sets.filter (fun (e : Nat × RecSet) => e.2 != RecSet.zero) } }
  let s4 := allUnits.foldl (fun x u => if trgCond x u = 3 ∨ trgCond x u = 5 then x.wrBit (Reg.recTrgstat u) 1 false else x) s3
  allUnits.foldl (fun x u => setTrg x u { trgSt x u with was := combined x u }) s4

/-- A GAP record of a cause is due as the first record, whatever was lost and why (R513, R514). -/
def dueGap (g : Option RecGap) (cause tick : Nat) : Option RecGap :=
  match g with
  | .none => .some ⟨cause, 0, tick, false⟩
  | .some x => .some { x with cause := cause, hold := false }

/-- The recorder enters a supply-sag stage (R513). At stage 4 the write buffer has run empty before DRAM enters self-refresh.
DESIGN CHOICE (notes/assumptions/41.md). -/
def recStage (s : Chip) (stage : Nat) : Chip :=
  let s1 := s.wrBit Reg.recStat (if stage = 1 then 1 else if stage = 2 then 2 else 3) true
  if stage = 1 then
    (enabledSets s1).foldl (fun x i => if bit (setCfg x i) 15 then x.wrF (Reg.recStrstat i) 2 0 4 else x) s1
  else if stage = 4 then
    (List.range 64).foldl (fun x i =>
      if capMode x i && bit (setCfg x i) 14 && halfState x i (curHalf x i) == 2 then enterDone x i 5 else x) (drainAll s1)
  else s1

/-- The recorder leaves a stage (R488, R513): each destination that was stopped resumes with a GAP record of cause 3; in a set that is not
enabled, one whose GAP record is held back. -/
def recUnstage (s : Chip) (stage : Nat) : Chip :=
  let s1 := s.wrBit Reg.recStat (if stage = 1 then 1 else if stage = 2 then 2 else 3) false
  (List.range 64).foldl (fun x i =>
    let c := setCfg x i
    let r := recSt x i
    let held := fun (g : Option RecGap) => g.any (·.hold)
    let reg := ((bit c 0 && bit c 14) || held r.gapR) && (stage == 2 || stage == 4)
    let str := ((bit c 0 && bit c 15) || held r.gapS) && (stage == 1 || stage == 2)
    let y := setRec x i { r with
      gapR := if reg then dueGap r.gapR 3 x.tb.tick else r.gapR
      gapS := if str then dueGap r.gapS 3 x.tb.tick else r.gapS
      partW := r.partW || (bit c 0 && (stage == 4 || (stage == 1 && bit c 15))) }
    if bit c 0 && bit c 15 && stage == 1 then y.wrF (Reg.recStrstat i) 2 0 1 else y) s1

/-- A set whose records in the write buffer are lost (R514): its place is that before the first of them in the current half, and they are lost
to the region. -/
def rollBack (s : Chip) (i : Nat) : Chip :=
  let mine := s.recd.buf.filter (fun b => b.set == i)
  let lost := mine.filter (fun b => !b.bytes.isEmpty)
  let r := recSt s i
  let r1 := match lost.find? (fun b => b.base == halfBase s i) with
    | .none => r
    | .some b => { r with
        pos := b.was.pos, lens := b.was.lens, mark := b.was.mark, pre := b.was.pre, postN := b.was.postN, wrapped := b.was.wrapped
        timeR := b.was.timeR, gapR := b.was.gapR }
  let r2 := match lost.head? with
    | .none => r1
    | .some b => { r1 with gapR := addGap r1.gapR 1 lost.length b.tick }
  if mine.isEmpty then s
  else
    let s1 := setRec ((s.bumpBy (Reg.recLrstdisc i) lost.length).led 3 3 lost.length) i r2
    writePos s1 i (posWords s1 i r2)

/-- CORE is reset (R514): the records still in the write buffer and the engine's memories are lost, a half in POST ends with cause 4 and a
RESTART marker, and PROD of the tick's records goes to the host (R511). DESIGN CHOICE (notes/assumptions/41.md). -/
def recReset (s : Chip) : Chip :=
  let s1 := (s.recd.sets.map (·.1)).foldl streamWriteback (drainBuffer s)
  let s2 := (List.range 64).foldl rollBack s1
  let s3 := { s2 with recd := { s2.recd with buf := [] } }
  let s4 := (List.range 64).foldl (fun x i =>
    if capMode x i && bit (setCfg x i) 14 && halfState x i (curHalf x i) == 2 then
      let y := match regionShed x i .none (regionNeed x i x.tb.tick x.phaseRead 16) with
        | .some c => shedRegion x i c x.tb.tick
        | .none => putRegion (leadRegion x i x.tb.tick x.phaseRead) i (shortRecord x.tb.tick 4 0 x.phaseRead 0 3 0 0)
      enterDone y i 4 else x) s3
  let s5 := drainAll s4
  { (s5.wrBit Reg.recStat 0 false) with recd := { s5.recd with trig := [], chg := [], red := [] } }

/-- Units with AUTOARM are armed (R505, R526). -/
def armAuto (s : Chip) : Chip := allUnits.foldl (fun x u => if x.rdBit (Reg.recTrgcfg u) 20 then armUnit x u else x) s

/-- TRGu_CFG or TRGu_SRC is written: the unit has seen no write of its source under the new condition (R504, R529).
DEDUCED (notes/assumptions/41.md). -/
def trgConfig (s : Chip) (u : Nat) : Chip := s.wrBit (Reg.recTrgstat u) 1 false

/-- The recorder resumes (R484, R488, R505, R514). -/
def recResume (s : Chip) : Chip :=
  let s1 := recRunning s
  let s2 := (List.range 64).foldl (fun x i =>
    let c := setCfg x i
    let r := recSt x i
    let fill := bit c 14 && capMode x i && halfState x i (curHalf x i) == 1
    if !bit c 0 then (if fill then setRec x i { r with gapR := dueGap r.gapR 1 x.tb.tick } else x)
    else setRec x i { r with
      gapR := if fill || (bit c 14 && !capMode x i) then dueGap r.gapR 1 x.tb.tick else .none
      gapS := if bit c 15 then dueGap r.gapS 1 x.tb.tick else .none
      partW := true, out := .none, window := x.tb.tick / redWindow x i }) s1
  let s3 := armAuto s2
  syncCeil ((enabledSets s3).foldl (fun x i => if bit (setCfg x i) 15 then strRunning x i else x) s3)

end Sys2Proof.Machine
end

