-- ==== Sys2Proof/Machine/Survey.lean ====
section
/-!
DEFINITION. The survey of the backbone (07 R308–R318, R324–R328, R339): ENUM, DELAY and DELAYSET rounds.
-/

namespace Sys2Proof.Machine

/-- The ENUM packet of a round leaves with SSEQ advanced (07 R308, R312). -/
def sendEnum (s : Chip) : Chip :=
  if s.ewn.stage = 1 ∧ !s.ewn.sent ∧ s.ewn.now.isSome then
    sendSurvey { s with ewn := { s.ewn with sseq := (s.ewn.sseq + 1) % 65536 } } 0xE8 0 (bytesOf 992 0)
  else s

/-- A returned survey copy of `n` entry bytes is valid: CRC and ring (07 R308, R337). -/
def surveyOk (ring n : Nat) (b : List Byte) : Bool :=
  b.length == n + 20 && leAt b (n + 16) 4 == crc32c (b.take (n + 16)) && leAt b 3 1 % 2 == ring

/-- The ADDR fields of an ENUM copy in the order in which they were filled (07 R309). -/
def enumAddrs (b : List Byte) : List Nat := (List.range (min (leAt b 2 1) 62)).map (fun i => leAt b (16 + 16 * i) 1)

/-- The entry of node d in an ENUM copy: VENDOR and PRODUCT. -/
def enumEntry (b : List Byte) (d : Nat) : Option (Nat × Nat) :=
  ((List.range (min (leAt b 2 1) 62)).find? (fun i => leAt b (16 + 16 * i) 1 == d)).map
    (fun i => (leAt b (20 + 16 * i) 4, leAt b (24 + 16 * i) 4))

/-- Node d stands once in a list, after smaller and before larger addresses. -/
def inOrder (l : List Nat) (d : Nat) : Bool :=
  match l.findIdx? (fun x => x == d) with
  | .none => false
  | .some k => (l.take k).all (fun x => decide (x < d)) && (l.drop (k + 1)).all (fun x => decide (d < x))

/-- Node d is found by the two ENUM copies (07 R314). DEDUCED (notes/assumptions/32.md). -/
def isFound (a b : List Byte) (d : Nat) : Bool :=
  surveyOk 0 992 a && surveyOk 1 992 b && inOrder (enumAddrs a) d && inOrder (enumAddrs b).reverse d

/-- A found node is identified: VENDOR and PRODUCT match the consist's record on both rings (07 R314). -/
def identified (s : Chip) (a b : List Byte) (d : Nat) : Bool :=
  match Tab.get? s.ewn.nodeCfg d with
  | .none => false
  | .some c => enumEntry a d == .some (c.vendor, c.product) && enumEntry b d == .some (c.vendor, c.product)

/-- Node d is admitted to mail (06 R283, R284, 19 R841): sequence and credit state from 0, FAILED clear, its credits issued.
DEDUCED (notes/assumptions/32.md). -/
def admitMail (s : Chip) (d : Nat) : Chip :=
  let n := nodeSt s d
  let s1 := setNodeSt s d { n with txSeq := 0, acked := 0, freed := 0, rxSeq := 0, info := .none, missRun := 0 }
  let rb := ((Tab.get? s.ewn.nodeCfg d).map (·.rb)).getD 0
  let s2 := ((setNodeState s1 d 2).wrBit (Reg.ewnNmail d) 16 false).wrF (Reg.ewnNmail d) 12 8 rb
  syncCred (s2.led 2 0 (s2.rdF (Reg.ewnNmail d) 12 8)) d

/-- The measured delays of a node that is not found any more are forgotten. -/
def forgetNode (s : Chip) (d : Nat) : Chip :=
  let n := nodeSt s d
  setNodeSt s d { n with hisA := [], hisB := [], ident := false }

/-- What the returned ENUM says of node d (07 R314, R324, R326, R327). DEDUCED (notes/assumptions/32.md). -/
def enumNode (a b : List Byte) (s : Chip) (d : Nat) : Chip :=
  if isFound a b d then
    let ok := identified s a b d
    let s0 := setNodeSt s d { nodeSt s d with ident := ok }
    let s1 := if ok then s0 else s0.ewnFlag2 4
    if nodeState s1 d ≥ 2 then s1
    else if ok ∧ !s1.rdBit (Reg.ewnNctl d) 1 then admitMail s1 d
    else setNodeState s1 d 1
  else if nodeState s d = 0 then s
  else forgetNode (setNodeState (applyCauses s d [6]) d 0) d

/-- The ENUM packet of this round returns as its copies on ring A and ring B (07 R314, R324): without a valid copy on each ring it finds no node.
DEDUCED (notes/assumptions/33.md). DESIGN CHOICE (notes/assumptions/72.md). -/
def enumReturn (s : Chip) (a b : List Byte) (own : OwnPorts) : Chip :=
  if s.ewn.stage = 0 then s
  else
    let s1 := nodeNums.foldl (enumNode a b) (noteWraps s a b own)
    { s1 with ewn := { s1.ewn with found := nodeNums.filter (isFound a b) } }

/-- One DELAY entry (07 R309): ARR, RES, WRITTEN, LOCK. -/
structure DelayEntry where
  arr : Nat
  res : Nat
  written : Bool
  lock : Bool
  deriving DecidableEq, Repr

/-- The DELAY entry of node d in a copy. -/
def delayEntry (b : List Byte) (d : Nat) : DelayEntry :=
  let o := 16 + 8 * (d - 1)
  ⟨leAt b o 4, leAt b (o + 4) 2, natBit (leAt b (o + 6) 1) 0, natBit (leAt b (o + 6) 1) 1⟩

/-- A difference of two stamps taken modulo 2^32 as a signed number (07 R315). -/
def diff32 (x y : Nat) : Int :=
  let d : Nat := (x + 2 ^ 32 - y % 2 ^ 32) % 2 ^ 32
  if d ≥ 2 ^ 31 then (d : Int) - 2 ^ 32 else d

/-- Sum of the residences of the nodes of a list in a copy. -/
def sumRes (b : List Byte) (l : List Nat) : Int := l.foldl (fun (x : Int) i => x + ((delayEntry b i).res : Int)) 0

/-- The two delays of node d from one DELAY round (07 R315), in units of 0.125 ns. -/
def nodeDelays (a b : List Byte) (nodes : List Nat) (rtA depA depB d : Nat) : Int × Int :=
  let down := nodes.filter (fun i => decide (i > d))
  let s : Int := (rtA : Int) - (delayEntry a d).res - sumRes a down + sumRes b down
  let diff : Int := diff32 (delayEntry b d).arr (delayEntry a d).arr - diff32 depB depA
  (roundNE (s - diff) 1, roundNE (s + diff) 1)

/-- Node d takes the delays of this round (07 R316). -/
def takeDelays (a b : List Byte) (rtA depA depB : Nat) (s : Chip) (d : Nat) : Chip :=
  let n := nodeSt s d
  let (da, db) := nodeDelays a b s.ewn.found rtA depA depB d
  setNodeSt s d { n with hisA := (da :: n.hisA).take 8, hisB := (db :: n.hisB).take 8 }

/-- The average of round trips as a number. -/
def avgNat (l : List Nat) : Nat := ((avgOf (l.map (fun (n : Nat) => (n : Int)))).getD 0).toNat

/-- The round trips of this round are taken (07 R313): EWN_RTA, EWN_RTB and RTLONG. -/
def takeRoundTrips (s : Chip) (rtA rtB : Nat) : Chip :=
  let ha := (rtA :: s.ewn.hisRtA).take 8
  let hb := (rtB :: s.ewn.hisRtB).take 8
  let s1 := { s with ewn := { s.ewn with hisRtA := ha, hisRtB := hb } }
  let s2 := (s1.wr Reg.ewnRta (wn (avgNat ha % 65536))).wr Reg.ewnRtb (wn (avgNat hb % 65536))
  s2.wrBit Reg.ewnSurvstat 4 (decide (avgNat ha > 48000) || decide (avgNat hb > 48000))

/-- The symmetry check (07 R316): 4 ns are 32 units. -/
def checkSymmetry (s : Chip) (a b : List Byte) : Chip :=
  let x : Int := (avgNat s.ewn.hisRtA : Int) - avgNat s.ewn.hisRtB - sumRes a s.ewn.found + sumRes b s.ewn.found
  if x.natAbs > 32 then (s.wrBit Reg.ewnSurvstat 3 true).ewnFlag2 4 else s

/-- LOCK of the last DELAY entries of node d (07 R349). -/
def takeLock (a b : List Byte) (okA okB : Bool) (s : Chip) (d : Nat) : Chip :=
  let ea := delayEntry a d
  let eb := delayEntry b d
  let wa := okA && ea.written
  let wb := okB && eb.written
  if wa || wb then s.wrBit (Reg.ewnNstat d) 7 ((!wa || ea.lock) && (!wb || eb.lock)) else s

/-- The end of the last of `ncomp` compartments on the wire, 43.52 + 20.48 × (ncomp − 1) ns (06 R269), in hundredths of a ns. -/
def tEndCenti (ncomp : Nat) : Int := 4352 + 2048 * ((ncomp : Int) - 1)

/-- EWN_BRKMARGIN and BRKRISK (07 R339): delays in units of 0.125 ns, toward minus infinity. -/
def takeMargin (s : Chip) : Chip :=
  match s.ewn.found, s.ewn.found.getLast? with
  | first :: _, .some last =>
    let da := (avgOf (nodeSt s last).hisA).getD 0
    let db := (avgOf (nodeSt s first).hisB).getD 0
    let m := (1500000 - tEndCenti (s.rdF Reg.ewnTtcfg 8 0) - 25 * max da db - 8000) / 100
    (s.wr Reg.ewnBrkmargin (w32 m)).wrBit Reg.ewnSurvstat 5 (decide (m < 0))
  | _, _ => s

/-- Causes that a DELAY round finds for node d (07 R326, R896). -/
def delayCauses (s : Chip) (d : Nat) : List Nat :=
  (if !(nodeSt s d).hisA.isEmpty && !delayInBounds s d then [1] else []) ++
  (if !s.rdBit (Reg.ewnNstat d) 7 then [4] else []) ++ (if s.rdBit Reg.ewnSurvstat 4 then [8] else [])

/-- Departures that a DELAY round finds (07 R326). -/
def delayDepart (s : Chip) (d : Nat) : Chip :=
  if nodeState s d = 3 then applyCauses s d (delayCauses s d) else s

/-- The DELAY packet of this round returns as its copies on both rings, with the departure stamps of the copies and the round trips of
the coach, in units of 0.125 ns (07 R313, R315–R318, R339, R349). DEDUCED (notes/assumptions/33.md). -/
def delayReturn (s : Chip) (a b : List Byte) (own : OwnPorts) (depA depB rtA rtB : Nat) : Chip :=
  if s.ewn.stage ≠ 2 ∧ s.ewn.stage ≠ 3 then s
  else
    let okA := surveyOk 0 496 a
    let okB := surveyOk 1 496 b
    let s1 := takeRoundTrips (noteWraps s a b own) rtA rtB
    let s2 := nodeNums.foldl (takeLock a b okA okB) s1
    let all := okA && okB && s2.ewn.found.all (fun d => (delayEntry a d).written && (delayEntry b d).written)
    let s3 := if all then checkSymmetry (s2.ewn.found.foldl (takeDelays a b rtA depA depB) s2) a b else s2
    nodeNums.foldl delayDepart (takeMargin s3)

end Sys2Proof.Machine
end

