-- ==== Sys2Proof/Machine/Carts.lean ====
section
/-!
DEFINITION. Chapter 12: the cart pool, hitches, events, ports, prefetch and recall, step timers, hitch pages, watchdogs.
-/

namespace Sys2Proof.Machine

/-- The dispatcher runs (R577). DESIGN CHOICE (notes/assumptions/42.md). -/
def dspRuns (s : Chip) : Bool := s.rdBit Reg.dspStat 0

/-- The hitch accepts carts (R575). -/
def hitchEn (s : Chip) (h : Nat) : Bool := s.rdBit (Reg.dspHitch h) 0

/-- The core group of a hitch (R575): 0 SEQ, 1 SUP. -/
def hitchGroup (s : Chip) (h : Nat) : Nat := s.rdF (Reg.dspHitch h) 1 1

/-- The core group of a port (R531). -/
def portGroup (p : Nat) : Nat := if p < 8 then 0 else 1

/-- A hitch of shed class B or C is suspended from stage 3 on (R571). -/
def suspended (s : Chip) (h : Nat) : Bool := decide (s.stage ≥ 3) && s.rdF (Reg.dspHitch h) 3 2 != 0

/-- The tag of a cart (R536). -/
def Cart.tag (c : Cart) : Nat := c.gen * 4096 + c.index

/-- The cart is QUEUED. -/
def Cart.queued (c : Cart) : Bool := c.place == .queued

/-- The cart is PREFETCHED or IN_SERVICE. -/
def Cart.out (c : Cart) : Bool := match c.place with
  | .prefetched _ => true
  | .inService _ => true
  | _ => false

/-- Free carts (R536). -/
def freeCarts (s : Chip) : Nat := 4096 - s.dsp.carts.length

/-- The cart in the prefetch slot of a port. -/
def slotCart (s : Chip) (p : Nat) : Option Cart := s.dsp.carts.find? (fun c => c.place == .prefetched p)

/-- The cart a port has IN_SERVICE. -/
def serviceCart (s : Chip) (p : Nat) : Option Cart := s.dsp.carts.find? (fun c => c.place == .inService p)

/-- A cart moves to another place. -/
def moveCart (s : Chip) (c : Cart) (pl : CartPlace) : Chip :=
  { s with dsp := { s.dsp with carts := s.dsp.carts.map (fun x => if x.tag = c.tag then { x with place := pl } else x) } }

/-- A free index, from the one the dispatcher looks at first (R536 leaves the choice open). DESIGN CHOICE (notes/assumptions/10.md). -/
def freeIndex (s : Chip) : Nat :=
  let start := Config.cartPick s.dsp.serial % 4096
  let used := s.dsp.carts.map (fun c => c.index)
  (((List.range 4096).map (fun i => (start + i) % 4096)).find? (fun i => !used.contains i)).getD start

/-- A cart is made (R536–R538): the ledger counts it, and LOWPOOL is set as the free count falls to 64 (R561).
DESIGN CHOICE (notes/assumptions/10.md). -/
def makeCart (s : Chip) (kind hitch level arg src : Nat) (pl : CartPlace) : Chip :=
  let i := freeIndex s
  let g := Tab.get 0 s.dsp.gens i
  let c : Cart := ⟨i, g, hitch, level, kind, arg % 2 ^ 32, s.dsp.cycles, s.dsp.serial, s.tb.tick % 2 ^ 32, s.phaseRead, src, pl⟩
  let s1 := { s with dsp := { s.dsp with
      carts := s.dsp.carts ++ [c], gens := Tab.set 0 s.dsp.gens i ((g + 1) % 16), serial := s.dsp.serial + 1 } }
  let s2 := s1.led 0 0 1
  if freeCarts s = 65 then s2.flag Reg.dspEvt Reg.dspEvten 2 22 else s2

/-- A cart leaves the pool by an exit of ledger 0 (R537): 1 RETIRED, 2 CANCELLED. -/
def dropCart (s : Chip) (c : Cart) (exit : Nat) : Chip :=
  { s with dsp := { s.dsp with carts := s.dsp.carts.filter (fun x => x.tag != c.tag) } }.led 0 exit 1

/-- The cart is the head of its hitch and eligible (R540). -/
def eligible (s : Chip) (c : Cart) : Bool :=
  c.queued && !suspended s c.hitch &&
    s.dsp.carts.all (fun x => x.hitch != c.hitch || x.tag == c.tag || (!x.out && (!x.queued || decide (c.ord ≤ x.ord))))

/-- The order of service (R541). -/
def serveBefore (a b : Cart) : Bool :=
  decide (a.level < b.level) || (a.level == b.level &&
    (decide (a.cycle < b.cycle) || (a.cycle == b.cycle && decide (a.hitch ≤ b.hitch))))

/-- The first of a list of carts in an order. -/
def pickCart (before : Cart → Cart → Bool) : List Cart → Option Cart
  | [] => .none
  | c :: cs => match pickCart before cs with
    | .none => .some c
    | .some d => if before c d then .some c else .some d

/-- The best eligible cart of a group (R541). -/
def bestCart (s : Chip) (g : Nat) : Option Cart :=
  pickCart serveBefore (s.dsp.carts.filter (fun c => eligible s c && hitchGroup s c.hitch == g))

/-- The prefetch slot of a port is filled: its core runs, and R571 does not hold it empty. -/
def slotFills (s : Chip) (p : Nat) : Bool :=
  (s.rdF (coreStat p) 1 0 == 1 || s.rdF (coreStat p) 1 0 == 2) && !(decide (s.stage ≥ 3) && decide (1 ≤ p ∧ p ≤ 7))

/-- The empty slot of a port takes the best eligible cart of its group (R550). -/
def fillSlot (s : Chip) (p : Nat) : Chip :=
  if slotFills s p && (slotCart s p).isNone then
    match bestCart s (portGroup p) with
    | .some c => moveCart s c (.prefetched p)
    | .none => s
  else s

/-- The port in whose slot a cart stands. -/
def Cart.slot (c : Cart) : Nat := match c.place with
  | .prefetched p => p
  | _ => 0

/-- The worse of two PREFETCHED carts (R551). -/
def worseCart (a b : Cart) : Bool :=
  decide (a.level > b.level) || (a.level == b.level &&
    (decide (a.cycle > b.cycle) || (a.cycle == b.cycle && decide (a.slot ≥ b.slot))))

/-- At most one recall in a group (R551). -/
def recallGroup (s : Chip) (g : Nat) : Chip :=
  let held := s.dsp.carts.filter (fun c => match c.place with
    | .prefetched p => portGroup p == g
    | _ => false)
  match bestCart s g, pickCart worseCart held with
  | .some b, .some w => if b.level < w.level then moveCart (moveCart s w .queued) b (.prefetched w.slot) else s
  | _, _ => s

/-- Step 6 of a dispatcher cycle (R552): slots filled in port order, then a recall in each group. -/
def fillAndRecall (s : Chip) : Chip := recallGroup (recallGroup ((List.range 10).foldl fillSlot s) 0) 1

/-- A port operation is refused with a code (R578, R582). DEDUCED (notes/assumptions/43.md). -/
def portErr (s : Chip) (p code : Nat) : Chip :=
  ((s.wrF (Reg.dspPerr p) 2 0 code).bump Reg.dspPorterrcnt).flag Reg.dspEvt Reg.dspEvten 1 21

/-- The event map entry of an event (R576): EN, COAL, LEVEL, HITCH. -/
def evEn (s : Chip) (i : Nat) : Bool := s.rdBit (Reg.dspEvmap i) 15
/-- COAL of an event (R576). -/
def evCoal (s : Chip) (i : Nat) : Bool := s.rdBit (Reg.dspEvmap i) 13
/-- LEVEL of an event (R576). -/
def evLevel (s : Chip) (i : Nat) : Nat := s.rdF (Reg.dspEvmap i) 12 10
/-- HITCH of an event (R576). -/
def evHitch (s : Chip) (i : Nat) : Nat := s.rdF (Reg.dspEvmap i) 9 0

/-- The pending count of an event. -/
def pendOf (s : Chip) (i : Nat) : Nat := Tab.get 0 s.dsp.pend i

/-- The pending count of an event replaced. -/
def setPend (s : Chip) (i n : Nat) : Chip := { s with dsp := { s.dsp with pend := Tab.set 0 s.dsp.pend i n } }

/-- A cart of KIND EVENT is made (R538, R543), remembered for coalescing. -/
def eventCart (s : Chip) (i count : Nat) : Chip :=
  let s1 := makeCart s 0 (evHitch s i) (evLevel s i) (i + count * 65536) 31 .queued
  { s1 with dsp := { s1.dsp with coal := Tab.set 0 s1.dsp.coal i (s.dsp.serial + 1) } }

/-- An event may make a cart now (R543, R544). -/
def eventMay (s : Chip) (i : Nat) : Bool := decide (freeCarts s > 64) && !suspended s (evHitch s i)

/-- The coalescing cart of an event, while it is QUEUED (R543). DEDUCED (notes/assumptions/43.md). -/
def coalCart (s : Chip) (i : Nat) : Option Cart :=
  s.dsp.carts.find? (fun c => c.kind == 0 && c.queued && c.ord + 1 == Tab.get 0 s.dsp.coal i)

/-- A raise joins the pending count, or is lost at saturation (R543). -/
def joinPending (s : Chip) (i : Nat) : Chip :=
  if pendOf s i = 65535 then ((s.bump Reg.dspEvsat).wr Reg.dspEvsatlast (wn i)).flag Reg.dspEvt Reg.dspEvten 0 20
  else setPend s i (pendOf s i + 1)

/-- One raise in a cycle (R542, R543): the state and the carts that the cycle may still make. -/
def raiseOne (acc : Chip × Nat) (i : Nat) : Chip × Nat :=
  let s := acc.1
  if !evEn s i then (s.bump Reg.dspEvunmap, acc.2)
  else
    match (if evCoal s i then coalCart s i else .none) with
    | .some c =>
      let n := min (c.arg / 65536 + 1) 65535
      ({ s with dsp := { s.dsp with carts := s.dsp.carts.map (fun x =>
          if x.tag = c.tag then { x with arg := i + n * 65536 } else x) } }, acc.2)
    | .none =>
      if acc.2 > 0 && eventMay s i && pendOf s i == 0 then (eventCart s i 1, acc.2 - 1) else (joinPending s i, acc.2)

/-- One pending count in a cycle (R544). -/
def servePending (acc : Chip × Nat) (i : Nat) : Chip × Nat :=
  let s := acc.1
  let n := pendOf s i
  if acc.2 = 0 ∨ n = 0 ∨ !eventMay s i then acc
  else if evCoal s i then (eventCart (setPend s i 0) i (min n 65535), acc.2 - 1)
  else (eventCart (setPend s i (n - 1)) i 1, acc.2 - 1)

/-- Events in the order of R544: LEVEL, then number. -/
def eventOrder (s : Chip) (l : List Nat) : List Nat :=
  sortBy (fun a b => decide (evLevel s a < evLevel s b) || (evLevel s a == evLevel s b && decide (a ≤ b))) l

/-- The pending counts and the raises of one cycle (R544): a cycle makes at most two carts, so each pending count is served up to twice before
the next. -/
def eventsStep (s : Chip) (evs : List Nat) : Chip :=
  let b := (eventOrder s (s.dsp.pend.map (·.1))).foldl (fun a i => servePending (servePending a i) i) (s, 2)
  ((eventOrder s evs).foldl raiseOne b).1

/-- A step timer (R562). -/
def timerOf (s : Chip) (h : Nat) : StepTimer := Tab.get StepTimer.zero s.dsp.timers h

/-- A step timer replaced. -/
def setTimer (s : Chip) (h : Nat) (t : StepTimer) : Chip :=
  touchWords { s with dsp := { s.dsp with timers := Tab.set StepTimer.zero s.dsp.timers h t } } (0x03040000 + 8 * h) 8

/-- A timer that has fired makes its cart, waits, or makes none (R564): the state and the carts left in this cycle. -/
def timerCart (acc : Chip × Nat) (h : Nat) : Chip × Nat :=
  let s := acc.1
  let t := timerOf s h
  if !hitchEn s h then (setTimer s h { t with armed := false, wait := false }, acc.2)
  else if acc.2 > 0 && decide (freeCarts s > 64) && !suspended s h then
    (makeCart (setTimer s h { t with armed := false, wait := false }) 2 h t.level t.due 31 .queued, acc.2 - 1)
  else (setTimer s h { t with armed := false, wait := true }, acc.2)

/-- Timers that wait make their carts, at most `n` in this cycle (R564). -/
def waitingTimers (s : Chip) (n : Nat) : Chip :=
  (((s.dsp.timers.filter (fun e => e.2.wait)).map (·.1)).foldl timerCart (s, n)).1

/-- Timers that are due or wait, in hitch order, at most `n` carts in this cycle (R564), through the wrap of TICK (01 R27): a DUE more than 2^47
ticks ahead counts as passed, and R564's 'at or above' is taken over the half range. DESIGN CHOICE (notes/assumptions/84.md). -/
def fireTimers (s : Chip) (n : Nat) : Chip :=
  let due := s.dsp.timers.filter (fun e => e.2.wait || (e.2.armed && decide (tickSince s.tb.tick e.2.due < 2 ^ 47)))
  ((due.map (·.1)).foldl timerCart (s, n)).1

/-- A post that may make a cart now (R559). DESIGN CHOICE (notes/assumptions/42.md). -/
def postMay (s : Chip) (p : Nat) : Bool :=
  decide (freeCarts s > 64) || (decide (freeCarts s > 0) && (serviceCart s p).isSome)

/-- The cart of a post, and POSTRES (R545). -/
def postCart (s : Chip) (p : Nat) (ctl arg dly : Word) : Chip :=
  let pl := if bit ctl 16 then CartPlace.deferred (tickAdd s.tb.tick dly.toNat) else .queued
  let tag := Tab.get 0 s.dsp.gens (freeIndex s) * 4096 + freeIndex s
  (makeCart s 1 (fld ctl 9 0) (fld ctl 14 12) arg.toNat p pl).wr (Reg.dspPpostres p) (wn tag)

/-- Waiting posts are served in port order (R560). -/
def stalledPosts (s : Chip) : Chip :=
  s.dsp.posts.foldl (fun x e =>
    match e.2 with
    | .some (ctl, arg, dly) =>
      if postMay x e.1 then
        postCart { x with dsp := { x.dsp with posts := Tab.set .none x.dsp.posts e.1 .none } } e.1 ctl arg dly
      else x
    | .none => x) s

/-- The cart image words of R538. -/
def cartWord0 (c : Cart) : Word := wn (c.index + c.gen * 2 ^ 12 + c.hitch * 2 ^ 16 + c.level * 2 ^ 26 + c.kind * 2 ^ 29)

/-- Word 3 of the cart image (R538). -/
def cartWord3 (c : Cart) : Word := wn (c.rphase + c.src * 2 ^ 16)

/-- Now in ticks: TICK × 10,000 + phase, which watchdogs count by (R535). -/
def Chip.tickTime (s : Chip) : Nat := s.tb.tick * 10000 + s.tb.phase

/-- Ten-thousandths of a tick since `t`, through the wrap of TICK (01 R27). -/
def Chip.tickTimeSince (s : Chip) (t : Nat) : Nat := (s.tickTime + 2 ^ 48 * 10000 - t) % (2 ^ 48 * 10000)

/-- Core `p` stops under R571: its clock stops, and its watchdog with it. -/
def stopCore (s : Chip) (p : Nat) : Chip :=
  { s.wrF (coreStat p) 1 0 3 with dsp := { s.dsp with stopped := Tab.set .none s.dsp.stopped p (.some s.tickTime) } }

/-- A TAKE in its cycle (R546); PTAKE keeps what the read returned. DEDUCED (notes/assumptions/43.md). -/
def takeOp (s : Chip) (p : Nat) : Chip :=
  let empty := (s.wr (Reg.dspPtake p) 0xFFFFFFFF).returnData p 0xFFFFFFFF
  if (serviceCart s p).isSome then portErr empty p 2
  else
    match slotCart s p with
    | .none => empty
    | .some c =>
      (((((moveCart s c (.inService p)).wr (Reg.dspPtake p) (cartWord0 c)).wr (Reg.dspPtakearg p) (wn c.arg)).wr
        (Reg.dspPtaket p) (wn c.rtick)).wr (Reg.dspPtakep p) (cartWord3 c)).returnData p (cartWord0 c).toNat

/-- A DONE in its cycle (R547); SEQ1 to SEQ7 stop at it from stage 3 on (R571). DEDUCED (notes/assumptions/84.md). -/
def doneOp (s : Chip) (p : Nat) (v : Word) : Chip :=
  match serviceCart s p with
  | .some c =>
    if c.tag = v.toNat then
      let s1 := dropCart s c 1
      if s.stage ≥ 3 ∧ 1 ≤ p ∧ p ≤ 7 then stopCore s1 p else s1
    else portErr s p 1
  | .none => portErr s p 1

/-- A CANCEL in its cycle (R548). -/
def cancelOp (s : Chip) (p : Nat) (v : Word) : Chip :=
  match s.dsp.carts.find? (fun c => c.tag == v.toNat) with
  | .none => s.wr (Reg.dspPcanres p) 2
  | .some c =>
    match c.place with
    | .inService _ => s.wr (Reg.dspPcanres p) 1
    | _ => (dropCart s c 2).wr (Reg.dspPcanres p) 0

/-- A STEPCTL in its cycle (R563). -/
def stepOp (s : Chip) (p : Nat) (v : Word) : Chip :=
  let h := fld v 9 0
  let due := (s.rd (Reg.dspPsteplo p)).toNat + s.rdF (Reg.dspPstephi p) 15 0 * 2 ^ 32
  setTimer s h (if bit v 16 then ⟨due, fld v 14 12, true, false⟩ else { timerOf s h with armed := false, wait := false })

/-- A POSTCTL in its cycle (R545, R559, R560): refused in POSTRES, or a post that makes its cart or waits, in port order with those that wait
already. -/
def postOp (s : Chip) (p : Nat) (v : Word) : Chip :=
  let dly := s.rd (Reg.dspPpostdly p)
  if !hitchEn s (fld v 9 0) then s.wr (Reg.dspPpostres p) (wn (3 * 65536))
  else if bit v 16 ∧ (dly.toNat = 0 ∨ dly.toNat > 16777216) then s.wr (Reg.dspPpostres p) (wn (4 * 65536))
  else { s with dsp := { s.dsp with posts := Tab.set .none s.dsp.posts p (.some (v, s.rd (Reg.dspPpostarg p), dly)) } }

/-- The page of a hitch (R565). -/
def pageAddr (h : Nat) : Nat := 0x03080000 + 0x400 * h

/-- The staging page of a port (R565). -/
def stagingAddr (p : Nat) : Nat := 0x03060000 + 0x400 * p

/-- The next SEQ of a page (R566): after 0xFFFF_FFFF it wraps to 1. -/
def nextSeq (n : Nat) : Nat := if n ≥ 0xFFFFFFFF then 1 else n + 1

/-- A core holds an access until its page commit completes (R567, R568). -/
def holdStall (s : Chip) (p : Nat) (x : Stalled) : Chip :=
  { s with dsp := { s.dsp with stalls := Tab.set [] s.dsp.stalls p (Tab.get [] s.dsp.stalls p ++ [x]) } }

/-- The port whose commit the engine serves next: the first with one, in rotation (R568). DESIGN CHOICE (notes/assumptions/69.md). -/
def commitNext (s : Chip) : Option Nat :=
  ((List.range 10).map (fun i => (s.dsp.jturn + i) % 10)).find? (fun p => (Tab.get .none s.dsp.commits p).isSome)

/-- The commit engine turns to the next commit (R568): it writes the new SEQ first (R566). -/
def commitServe (s : Chip) : Chip :=
  match commitNext s with
  | .none => s
  | .some p =>
    match Tab.get .none s.dsp.commits p with
    | .some ⟨h, body, .none⟩ =>
      let r := readBytes s 15 (pageAddr h) 4
      let seq := nextSeq (ofLe r.2.1)
      let s1 := r.1.writeBytes (pageAddr h) (leBytes 4 seq)
      { s1 with dsp := { s1.dsp with jturn := p, commits := Tab.set .none s1.dsp.commits p (.some ⟨h, body, .some seq⟩) } }
    | _ => s

/-- A JCOMMIT in its cycle (R567, R568), against the cart that the port has IN_SERVICE. DEDUCED (notes/assumptions/43.md). -/
def commitOp (s : Chip) (p : Nat) (v : Word) : Chip :=
  let h := fld v 9 0
  let r := readBytes s 15 (stagingAddr p) 1016
  let stage := r.2.1
  let len := leAt stage 6 2
  if !((serviceCart s p).any (fun c => c.hitch == h)) then portErr s p 1
  else if len > 1000 then portErr r.1 p 4
  else
    let body := leBytes 2 h ++ leBytes 2 len ++ leBytes 6 s.tb.tick ++ leBytes 2 p ++ sliceB stage 16 1000
    let s1 := { r.1 with dsp := { r.1.dsp with commits := Tab.set .none r.1.dsp.commits p (.some ⟨h, body, .none⟩) } }
    let n := s1.rdF (Reg.dspPjstat p) 31 16 + 1
    commitServe (s1.wr (Reg.dspPjstat p) (wn (n % 65536 * 65536 + 1)))

/-- One operation of a port acts (R552). -/
def runOp (s : Chip) (o : PortOp) : Chip :=
  match o.reg with
  | 0x30 => commitOp s o.port o.word
  | 0x20 => doneOp s o.port o.word
  | 0x00 => takeOp s o.port
  | 0x24 => cancelOp s o.port o.word
  | 0x48 => stepOp s o.port o.word
  | 0x18 => postOp s o.port o.word
  | _ => s

/-- The place of a kind of operation in the cycle (R552). -/
def opStep (r : Nat) : Nat :=
  match r with
  | 0x30 => 0
  | 0x20 => 1
  | 0x00 => 2
  | 0x24 => 3
  | 0x48 => 4
  | _ => 5

/-- An operation takes its place among those of its cycle: by kind, then by port (R552). -/
def placeOp (o : PortOp) : List PortOp → List PortOp
  | [] => [o]
  | x :: xs => if 16 * opStep o.reg + o.port < 16 * opStep x.reg + x.port then o :: x :: xs else x :: placeOp o xs

/-- DEFERRED carts that are due become QUEUED (R545), in their order of making. DEDUCED (notes/assumptions/84.md). -/
def deferredQueued (s : Chip) : Chip :=
  let go := fun (acc : List Cart × Nat) (c : Cart) =>
    match c.place with
    | .deferred due =>
      if tickSince s.tb.tick due < 2 ^ 47 then
        (acc.1 ++ [{ c with
          place := CartPlace.queued, cycle := s.dsp.cycles, ord := acc.2, rtick := s.tb.tick % 2 ^ 32, rphase := s.phaseRead }], acc.2 + 1)
      else (acc.1 ++ [c], acc.2)
    | _ => (acc.1 ++ [c], acc.2)
  let r := s.dsp.carts.foldl go ([], s.dsp.serial)
  { s with dsp := { s.dsp with carts := r.1, serial := r.2 } }

/-- Steps 5 and 6 of a cycle (R552): posts in port order, pending counts and raises, then slots and recall. -/
def cycleEnd (s : Chip) (evs : List Nat) : Chip := fillAndRecall (eventsStep (stalledPosts s) evs)

/-- Step 4 of a cycle for timers and deferred carts (R545, R552, R564): all that are due in the cycle of phase 0, and in any other the timers
that wait; at most four carts of timers. -/
def cycleTimers (s : Chip) (zero : Bool) : Chip := if zero then deferredQueued (fireTimers s 4) else waitingTimers s 4

/-- A dispatcher cycle (R552) of these operations, in order, and raises. -/
def runCycle (s : Chip) (ops : List PortOp) (evs : List Nat) (zero : Bool) : Chip :=
  let early := ops.filter (fun o => decide (opStep o.reg ≤ 4))
  let posts := ops.filter (fun o => decide (opStep o.reg > 4))
  cycleEnd (posts.foldl runOp (cycleTimers (early.foldl runOp s) zero)) evs

/-- A new cycle begins: what waited for it is taken. -/
def nextCycle (s : Chip) : Chip :=
  { s with dsp := { s.dsp with cycleOpen := false, ops := [], raises := [], cycles := s.dsp.cycles + 1 } }

/-- The dispatcher runs the cycle that has waited, with the raises that arrive in it. While it is reset, raises go to DSP_RSTPEND (R572).
DESIGN CHOICE (notes/assumptions/42.md). -/
def dspCycleOf (s : Chip) (evs : List Nat) (zero : Bool) : Chip :=
  if dspRuns s then runCycle (nextCycle s) s.dsp.ops (s.dsp.raises ++ evs) zero
  else if s.restarting then s.bumpBy Reg.dspRstpend evs.length
  else s

/-- The dispatcher has yet to run its cycle of phase 0 in this tick (R545, R552, R564). -/
def zeroWaits (s : Chip) : Bool := dspRuns s && s.tb.phase == 0 && s.dsp.zeroAt != .some s.tb.tick

/-- The cycle of phase 0, once in a tick: timers fire and DEFERRED carts become QUEUED before its posts and raises make carts (R545, R552,
R564). -/
def zeroCycle (s : Chip) (evs : List Nat) : Chip := dspCycleOf { s with dsp := { s.dsp with zeroAt := .some s.tb.tick } } evs true

/-- The cycle of now (R552): the first of phase 0 is that of the timers. -/
def dspCycle (s : Chip) (evs : List Nat) : Chip := if zeroWaits s then zeroCycle s evs else dspCycleOf s evs false

/-- The end of a port operation: its cycle runs, unless another operation of the same cycle follows (R552). -/
def portEnd (more : Bool) (s : Chip) : Chip :=
  if more then { s with dsp := { s.dsp with cycleOpen := true } } else dspCycle s []

/-- Raises that arrive at the dispatcher: they wait while its cycle is open (R544, R552). -/
def arriveRaises (s : Chip) (evs : List Nat) : Chip :=
  if dspRuns s && s.dsp.cycleOpen then { s with dsp := { s.dsp with raises := s.dsp.raises ++ evs } } else dspCycle s evs

/-- A port operation arrives in its cycle (R552). -/
def portOp (s : Chip) (p r : Nat) (v : Word) (more : Bool) : Chip :=
  portEnd more { s with dsp := { s.dsp with ops := placeOp ⟨p, r, v⟩ s.dsp.ops } }

/-- A write of POSTCTL (R545). While a post of the port waits its core is stalled, and nothing changes. -/
def postCtl (s : Chip) (p : Nat) (v : Word) (more : Bool) : Chip :=
  if !dspRuns s ∨ (Tab.get .none s.dsp.posts p).isSome then s else portOp s p 0x18 v more

/-- A read of TAKE (R546). -/
def takeRead (s : Chip) (p : Nat) (more : Bool) : Chip :=
  if !dspRuns s then (s.wr (Reg.dspPtake p) 0xFFFFFFFF).returnData p 0xFFFFFFFF else portOp s p 0x00 0 more

/-- A write of DONE (R547). -/
def doneWrite (s : Chip) (p : Nat) (v : Word) (more : Bool) : Chip := if !dspRuns s then s else portOp s p 0x20 v more

/-- A write of CANCEL (R548). -/
def cancelWrite (s : Chip) (p : Nat) (v : Word) (more : Bool) : Chip := if !dspRuns s then s else portOp s p 0x24 v more

/-- A write of STEPCTL (R563). -/
def stepCtl (s : Chip) (p : Nat) (v : Word) (more : Bool) : Chip := if !dspRuns s then s else portOp s p 0x48 v more

/-- A write of JCOMMIT (R567, R568). While the port's earlier commit runs the core stalls and holds the write. -/
def jcommit (s : Chip) (p : Nat) (v : Word) (more : Bool) : Chip :=
  if !dspRuns s then s
  else if s.rdBit (Reg.dspPjstat p) 0 then holdStall s p (.commit v)
  else portOp s p 0x30 v more

/-- A write of EVRAISE (R549): the event raised, if it is a software event. -/
def evRaise (s : Chip) (p : Nat) (v : Word) (more : Bool) : Chip :=
  if fld v 9 0 ≥ 896 then
    let s1 := { s with dsp := { s.dsp with cycleOpen := more && dspRuns s } }
    s1.raise (fld v 9 0)
  else portEnd more (portErr s p 4)

/-- The cycle of phase 0, if it has yet to run (R545, R552, R564). -/
def phaseZero (s : Chip) : Chip := if zeroWaits s then zeroCycle s [] else s

/-- Step timers fire at phase 0 (R564). -/
def stepFire (s : Chip) : Chip := phaseZero s

/-- DEFERRED carts that are due become QUEUED in the cycle of phase 0 (R545). -/
def deferredDue (s : Chip) : Chip := phaseZero s

/-- What a stalled core holds goes on in order, until a further commit runs (R567, R568). -/
def resumeStalls (s : Chip) (p : Nat) : List Stalled → Chip
  | [] => s
  | x :: rest =>
    if s.rdBit (Reg.dspPjstat p) 0 then (x :: rest).foldl (fun y z => holdStall y p z) s
    else match x with
      | .store a bs => resumeStalls (s.writeBytes a bs) p rest
      | .commit v => resumeStalls (jcommit s p v false) p rest

/-- The commit of a port completes (R566, R568), its core goes on, and the engine turns to the next port. A port that the engine does not
serve yet completes nothing. -/
def jcommitEnd (s : Chip) (p : Nat) : Chip :=
  match Tab.get .none s.dsp.commits p with
  | .some ⟨h, body, .some seq⟩ =>
    let s1 := s.writeBytes (pageAddr h + 4) (body ++ leBytes 4 (crc32c body) ++ leBytes 4 seq)
    let s2 := commitServe { s1.wrBit (Reg.dspPjstat p) 0 false with dsp := { s1.dsp with
        jturn := (p + 1) % 10, commits := Tab.set .none s1.dsp.commits p .none, stalls := Tab.set [] s1.dsp.stalls p [] } }
    resumeStalls s2 p (Tab.get [] s1.dsp.stalls p)
  | _ => s

/-- The bytes of a hitch page are those of a valid one (R569). -/
def pageOk (b : List Byte) : Bool := leAt b 0 4 != 0 && leAt b 0 4 == leAt b 1020 4 && crc32c (sliceB b 4 1012) == leAt b 1016 4

/-- A hitch page as it stands is valid (R569). -/
def pageValid (s : Chip) (h : Nat) : Bool := pageOk (s.bytes (pageAddr h) 1024)

/-- The dispatcher reads a hitch page (13 R588, R592): the Poermun after, and whether the page as it was read is valid. -/
def readPage (s : Chip) (h : Nat) : Chip × Bool :=
  let r := readBytes s 15 (pageAddr h) 1024
  (r.1, pageOk r.2.1)

/-- Core `c` writes its WDKICK (R535, R585). -/
def wdKick (s : Chip) (c : Nat) : Chip :=
  if s.rdF (coreStat c) 1 0 = 1 ∨ s.rdF (coreStat c) 1 0 = 2 then
    { s with dsp := { s.dsp with kicks := Tab.set .none s.dsp.kicks c (.some s.tickTime) } }
  else s

/-- Core `c`'s watchdog has run out (R535, R584, R775): it acts once until it is restarted. -/
def wdExpiry (s : Chip) (c : Nat) : Chip :=
  let n := s.rdF (coreWdcfg c) 23 0
  match Tab.get .none s.dsp.kicks c with
  | .none => s
  | .some t =>
    if n ≠ 0 ∧ s.rdF (coreStat c) 1 0 ≠ 3 ∧ s.tickTimeSince t ≥ 10000 * n then
      { s with dsp := { s.dsp with kicks := Tab.set .none s.dsp.kicks c .none } }.fault 1 c
    else s

/-- A SEQ core that has not reached a DONE stops 1 ms after the entry into stage 3 (R571). -/
def coreStopTimeout (s : Chip) (c : Nat) : Chip :=
  match s.dsp.stage3 with
  | .none => s
  | .some t =>
    if 1 ≤ c ∧ c ≤ 7 ∧ (s.rdF (coreStat c) 1 0 = 1 ∨ s.rdF (coreStat c) 1 0 = 2) ∧ s.nowNs ≥ t + 1000000 then stopCore s c
    else s

/-- The governor enters stage 3 (R571): PREFETCHED carts of SEQ1 to SEQ7 and of suspended hitches are recalled. -/
def dspSag (s : Chip) : Chip :=
  let back := fun (c : Cart) => match c.place with
    | .prefetched p => if decide (1 ≤ p ∧ p ≤ 7) || suspended s c.hitch then { c with place := CartPlace.queued } else c
    | _ => c
  let s1 := { s with dsp := { s.dsp with carts := s.dsp.carts.map back, stage3 := .some s.nowNs } }
  if dspRuns s1 then dspCycle (s1.wrBit Reg.dspStat 2 true) [] else s1

/-- A stopped core resumes where it stopped (R571). -/
def unstopCore (s : Chip) (c : Nat) : Chip :=
  match Tab.get .none s.dsp.stopped c with
  | .none => s
  | .some t =>
    let k := (Tab.get .none s.dsp.kicks c).map (fun k => (k + s.tickTimeSince t) % (2 ^ 48 * 10000))
    { s.wrF (coreStat c) 1 0 1 with dsp := { s.dsp with
        kicks := Tab.set .none s.dsp.kicks c k, stopped := Tab.set .none s.dsp.stopped c .none } }

/-- The governor leaves stage 3 (R571). -/
def dspUnsag (s : Chip) : Chip :=
  let s1 := (List.range 10).foldl unstopCore { s with dsp := { s.dsp with stage3 := .none } }
  dspCycle (s1.wrBit Reg.dspStat 2 false) []

/-- CORE is reset (R572): every cart leaves by RESTART, and pending counts are discarded and counted. Registers follow their tables. -/
def dspReset (s : Chip) : Chip :=
  let n := s.dsp.carts.length
  let lost := s.dsp.carts.foldl (fun t c => Tab.set 0 t c.hitch (Tab.get 0 t c.hitch + 1)) s.dsp.lost
  let pend := s.dsp.pend.foldl (fun k e => k + e.2) 0 + s.dsp.raises.length
  let s1 := { s with dsp := { s.dsp with
      carts := [], pend := [], coal := [], posts := [], lost := lost, kicks := [], stopped := [], stalls := [], cycleOpen := false, ops := []
      raises := [], zeroAt := .none, arch := [] } }
  ((s1.led 0 3 n).wr Reg.dspRstcarts (wn n)).wr Reg.dspRstpend (wn pend)

/-- The RESUME cart of a hitch (R538, R573). -/
def resumeCart (s : Chip) (h : Nat) : Chip :=
  if hitchEn s h && s.rdBit (Reg.dspHitch h) 4 then
    let r := readPage s h
    makeCart r.1 3 h 0 (min (Tab.get 0 s.dsp.lost h) 65535 + b2n r.2 * 65536) 31 .queued
  else s

/-- The cores are released (R584, R778): each watchdog starts. -/
def releaseCores (s : Chip) : Chip :=
  (List.range 10).foldl (fun x c =>
    { x.wrF (coreStat c) 1 0 1 with dsp := { x.dsp with kicks := Tab.set .none x.dsp.kicks c (.some x.tickTime) } }) s

/-- The dispatcher resumes (R573): RESUME carts in hitch order, with RESUMING set while they are made (R577), then every timer that is due or
waits, in the cycle of phase 0. -/
def dspResume (s : Chip) : Chip :=
  let s1 := (nextCycle s).wrF Reg.dspStat 2 0 (3 + 4 * b2n (decide (s.stage ≥ 3)))
  let s2 := ((List.range 1024).foldl resumeCart s1).wrBit Reg.dspStat 1 false
  let s3 := { s2 with dsp := { s2.dsp with lost := [], zeroAt := .some s2.tb.tick } }
  runCycle (((releaseCores s3).wr Reg.dspRsttick s.tick32).bump Reg.dspRstcnt) [] [] true

end Sys2Proof.Machine
end

