-- ==== Sys2Proof/Machine/MemEcc.lean ====
section
/-!
DEFINITION. Chapter 13: scrubbers, fills, DRAM refresh.
-/

namespace Sys2Proof.Machine

/-- CORE is held in reset: the arrays of CORE are not scrubbed. -/
def arrayLive (s : Chip) (a : Nat) : Bool := !s.rst.inCore || decide (16 ≤ a ∧ a < 36)

/-- The array is marked initialised (R603, R604). -/
def arrayInit (s : Chip) (a : Nat) : Bool := if a < 16 then s.rdBit Reg.memSinit a else s.memu.init

/-- A scrubber reads a word (R592, R596, R597), of which bits have flipped since it was last read: a corrected word waits for its write-back,
unless its remap has already rewritten it. -/
def scrubWord (s : Chip) (word : Nat) (flips : List Nat) : Chip :=
  let s0 := upset s (8 * word) flips
  let e := wordErr s0 word (8 * word) (8 * word + 8)
  let s1 := (readSpan s0 14 (8 * word) 8).chip
  if e.2 = 1 ∧ (wordErr s1 word (8 * word) (8 * word + 8)).2 = 1 then
    { s1 with memu := { s1.memu with wback := s1.memu.wback.filter (fun x => x.1 != word) ++ [(word, e.1)] } }
  else s1

/-- An SRAM scrubber reads its next word (R594–R597). DESIGN CHOICE (notes/assumptions/18.md). -/
def sramScrub (s : Chip) (a : Nat) (flips : List Nat) : Chip :=
  let (base, n, _) := arrayOf a
  if a ≥ 62 ∨ !s.rdBit Reg.memSscrub 16 ∨ !arrayInit s a ∨ !arrayLive s a then s
  else
    let i := Tab.get 0 s.memu.pos a
    let s2 := scrubWord s (base / 8 + i) (flips.take 8)
    let s3 := { s2 with memu := { s2.memu with
        pos := Tab.set 0 s2.memu.pos a ((i + 1) % n)
        lap := if i = 0 then Tab.set 0 s2.memu.lap a s.tb.tick else s2.memu.lap } }
    let lap := tickSince s.tb.tick (Tab.get 0 s3.memu.lap a)
    if i + 1 = n ∧ lap > (s3.rd Reg.memSlapmax).toNat then s3.wr Reg.memSlapmax (wn lap) else s3

/-- A corrected word is written back, unless an agent has written it since (R596). -/
def scrubWriteback (s : Chip) (word : Nat) : Chip :=
  match s.memu.wback.find? (fun x => x.1 == word) with
  | .some x => rewriteWord (touchWords s (8 * word) 8) word x.2
  | .none => s

/-- The DRAM scrubber runs (R611, R612). -/
def dscrubRuns (s : Chip) : Bool := s.rdBit Reg.memDscrcfg 31 && !s.memu.selfRef && s.booted

/-- The DRAM scrubber reads its next block, word by word (R611); `flips` are the bits of its 64 bytes that have flipped since they were last
read. -/
def dramScrub (s : Chip) (flips : List Nat) : Chip :=
  if !dscrubRuns s then s
  else
    let lo := s.rdF Reg.memDscrlo 28 0
    let hi := s.rdF Reg.memDscrhi 28 0
    let p := s.rdF Reg.memDscrpos 28 0
    let b := if p < lo ∨ p > hi then lo else p
    let s0 := if b = lo then { s with memu := { s.memu with dlap := s.nowNs } } else s
    let s1 := (List.range 8).foldl (fun x i => scrubWord x (0x20000000 + 8 * b + i) ((flips.drop (8 * i)).take 8)) s0
    if b + 1 ≤ hi then s1.wr Reg.memDscrpos (wn (b + 1))
    else (s1.wr Reg.memDscrpos (wn lo)).wr Reg.memDlap (wn ((s.nowNs - s0.memu.dlap) / 1000000))

/-- The refresh row of a temperature in °C (R610). -/
def refRow (t : Int) : Nat := if t ≤ 85 then 0 else if t ≤ 105 then 1 else if t ≤ 125 then 2 else 3

/-- The lower edge of a refresh row in °C (R610). -/
def rowEdge : Nat → Int
  | 1 => 85
  | 2 => 105
  | _ => 125

/-- The refresh row is set, and a change shown (R610). -/
def setRow (s : Chip) (r : Nat) : Chip :=
  if r = s.rdF Reg.memStat 4 3 then s else (s.wrF Reg.memStat 4 3 r).memFlag 5

/-- The DRAM die temperatures are read (R610, R621). DEDUCED (notes/assumptions/58.md). DESIGN CHOICE (notes/assumptions/78.md). -/
def dramTemp (s : Chip) (ts : List Int) : Chip :=
  match ts with
  | [] => s
  | t0 :: rest =>
    if s.memu.selfRef then s
    else
      let t := rest.foldl max t0
      let s1 := { (s.wrF Reg.memDref 7 0 (t % 256).toNat) with memu := { s.memu with dread := .some s.nowNs, tjd := t } }
      let row := s1.rdF Reg.memStat 4 3
      let cools := row != 0 && decide (t ≤ rowEdge row - 5)
      let since := if cools then (match s.memu.cool with
        | .some x => .some x
        | .none => .some s.nowNs) else .none
      let s2 := { s1 with memu := { s1.memu with cool := since } }
      let s3 := if refRow t > row then { setRow s2 (refRow t) with memu := { s2.memu with cool := .none } }
        else match since with
          | .some x => if s.nowNs ≥ x + 100000000 then { setRow s2 (refRow t) with memu := { s2.memu with cool := .none } } else s2
          | .none => s2
      if t > 150 ∧ !s3.rdBit Reg.memDref 8 then (s3.wrBit Reg.memDref 8 true).memFlag 5 else s3

/-- The DRAM bytes of a recording set's region overlap [a, a + n). -/
def regionHit (s : Chip) (a n i : Nat) : Bool :=
  let base := 0x100000000 + 64 * s.rdF (Reg.recSetrb i) 28 0
  bit (setCfg s i) 14 && !apart base (s.rdF (Reg.recSetrs i) 28 0 * 64) a n

/-- The code a fill is refused with; 0 for none (R605, R612, 17 R790). DEDUCED (notes/assumptions/58.md). -/
def fillCheck (s : Chip) (a n : Nat) : Nat :=
  if s.memu.fill.isSome then 1
  else if n = 0 ∨ a % 64 ≠ 0 ∨ n % 64 ≠ 0 ∨ !((isSram a && isSram (a + n - 1)) || (isDram a && isDram (a + n - 1))) then 2
  else if isDram a ∧ s.stage ≥ 1 then 1
  else if isDram a ∧ (enabledSets s).any (regionHit s a n) then 3
  else 0

/-- MEM_FILLCMD.GO (R605). DEDUCED (notes/assumptions/58.md). -/
def fillGo (s : Chip) (v : Word) : Chip :=
  let a := (s.rd Reg.memFilladrlo).toNat + s.rdF Reg.memFilladrhi 7 0 * 2 ^ 32
  let n := (s.rd Reg.memFilllen).toNat
  let pat := (s.rd Reg.memFillpatlo).toNat + (s.rd Reg.memFillpathi).toNat * 2 ^ 32
  if !bit v 0 ∨ s.rst.inCore then s
  else
    let e := fillCheck s a n
    if e ≠ 0 then s.wrF Reg.memFillstat 3 0 e
    else
      let s1 := ((s.wr Reg.memFillstat 0).wr Reg.memFilldoneb 0).wrBit Reg.memStat 0 true
      { s1 with memu := { s1.memu with fill := .some (a, n, pat, 20 * s.nowNs) } }

/-- Shared SRAM arrays that lie within the last fill are marked (R604). -/
def markFilled (s : Chip) (a n : Nat) : Chip :=
  (List.range 16).foldl (fun x k =>
    if a ≤ 0x01000000 + k * 0x100000 ∧ 0x01000000 + (k + 1) * 0x100000 ≤ a + n then x.wrBit Reg.memSinit k true else x) s

/-- A fill ends (R606). -/
def fillEnd (s : Chip) : Chip :=
  match s.memu.fill with
  | .none => s
  | .some (a, n, pat, _) =>
    let total := (s.rd Reg.memFilldoneb).toNat + n
    let s1 := fillWords s a n pat
    let s2 := { s1 with memu := { s1.memu with fill := .none } }
    let s3 := ((s2.wrBit Reg.memStat 0 false).wrF Reg.memFillstat 7 4 1).memFlag 6
    markFilled s3 (a + n - total) total

/-- A running fill is abandoned at a warm restart (R606). -/
def fillAbandon (s : Chip) : Chip :=
  let s1 := advanceFill s
  match s1.memu.fill with
  | .none => s1
  | .some _ => { ((s1.wrBit Reg.memStat 0 false).wrF Reg.memFillstat 7 4 2) with memu := { s1.memu with fill := .none } }

/-- The zero fill of the cold sequence (R603, 12 R570), with good check bits: journal SRAM, tile SRAM, TCMs, and the store and the block RAMs,
which are state of their blocks. The arrays are marked initialised once the consist is loaded. -/
def zeroFill (s : Chip) : Chip :=
  let s1 := ((List.range 16).foldl (fun x t => x.fillMem (0x18000000 + t * 0x100000) 0x40000 0) s).fillMem 0x03000000 0x200000 0
  let s2 := (List.range 10).foldl (fun x c => x.fillMem (tcmBase c) 0x40000 0) s1
  clearFlips (clearFlips s2 0x02000000 0x200000) 0x10000000 0x8000000

/-- DRAM enters or leaves self-refresh (R612). -/
def setSelfRef (s : Chip) (x : Bool) : Chip := { s with memu := { s.memu with selfRef := x } }

end Sys2Proof.Machine
end

