-- ==== Sys2Proof/Machine/OdoSnap.lean ====
section
/-!
DEFINITION. Chapter 14: operating time, histograms, extremes, snapshots and their restore, clearing.
-/

namespace Sys2Proof.Machine

/-- Flag e of ODO_EVT (R653). -/
def Chip.odoFlag (s : Chip) (e : Nat) : Chip := s.flag Reg.odoEvt Reg.odoEvten e (40 + e)

/-- The odometer has been restored (R648). -/
def odoRuns (s : Chip) : Bool := s.rdBit Reg.odoStat 0

/-- A capture of a cause is due (R632, R633): captures that wait together are merged with the highest CAUSE. PEND shows a wait for a write
that runs (R648). -/
def askSnap (s : Chip) (cause : Nat) : Chip :=
  { s.wrBit Reg.odoStat 2 s.odo.write.isSome with odo := { s.odo with waits := max s.odo.waits cause } }

/-- Operating time advances (R625): AON is powered and out of cold reset, and PORST_L is high. -/
def operating (s : Chip) : Bool := s.boot.on && s.pwr.porst

/-- HFRAC advances by 10 ms of operating time (R625, R632). -/
def hfracAdvance (s : Chip) : Chip :=
  let f := s.rdF Reg.odoHfrac 11 0
  if !operating s then s
  else if f < 3599 then s.wr Reg.odoHfrac (wn (f + 1))
  else
    let h := ((s.rd Reg.odoHours).toNat + 1) % 2 ^ 32
    let s1 := (s.wr Reg.odoHfrac 0).wr Reg.odoHours (wn h)
    if odoRuns s1 && h % 10 == 0 then askSnap s1 1 else s1

/-- One second in a histogram bin (R627, R629); a unit beyond 2^32 − 1 is lost and counted. -/
def histInc (s : Chip) (bin : Nat) : Chip :=
  let old := Tab.get 0 s.odo.hist bin
  let s1 := s.led 4 0 1
  if old ≥ 2 ^ 32 - 1 then (s1.led 4 3 1).odoFlag 2
  else { s1 with odo := { s1.odo with
      hist := Tab.set 0 s1.odo.hist bin (old + 1), pend := s1.odo.pend + 1, pendH := s1.odo.pendH + 1 } }

/-- The bin of a temperature in units of 0.25 °C (R627). -/
def tempBin (q : Int) : Nat := (clampI ((q + 256) / 8) 0 127).toNat

/-- The latest readings enter their histograms (R627): TJC in 0.25 °C, VSUP and VCORE in mV, TJD while a reading is newer than 2 ms. -/
def histRead (s : Chip) : Chip :=
  let tjc := BitVec.toInt (BitVec.ofNat 16 (s.rdF Reg.pwrTjc 15 0))
  let s1 := histInc s (tempBin tjc)
  let s2 := match s.memu.dread with
    | .some t => if s.nowNs < t + 2000000 then histInc s1 (128 + tempBin (4 * s.memu.tjd)) else s1
    | .none => s1
  let vs := min (s.rdF Reg.pwrVsup 15 0 / 20) 63
  let vc := (clampI (((s.rdF Reg.pwrVcore 15 0 : Nat) : Int) - 600) 0 319 / 5).toNat
  histInc (histInc s2 (256 + vs)) (320 + vc)

/-- A second of operating time has passed (R627). -/
def histSample (s : Chip) : Chip := if operating s then histRead s else s

/-- The readings of a check: PWR registers take them, and each extreme that one lies beyond is replaced (R630, 17 R802).
DESIGN CHOICE (notes/assumptions/78.md). -/
def extremeCheck (s : Chip) (tjc : Int) (vcore vaon : Nat) : Chip :=
  let s1 := ((s.wr Reg.pwrTjc (wn (tjc % 65536).toNat)).wr Reg.pwrVcore (wn (vcore % 65536))).wr Reg.pwrVaon (wn (vaon % 65536))
  let both := fun (x : Chip) (k : Nat) (v : Int) => (x.extreme k true v).extreme (k + 1) false v
  let s2 := both s1 0 tjc
  let s3 := match s.memu.dread with
    | .some _ => both s2 2 (4 * s.memu.tjd)
    | .none => s2
  both (both (both s3 4 (s.rdF Reg.pwrVsup 15 0 : Nat)) 6 (vcore : Nat)) 8 (vaon : Nat)

/-- The words of one extreme entry (R630). -/
def extBytes (s : Chip) (k : Nat) : List Byte :=
  match Tab.get? s.odo.ext k with
  | .some e => leInt e.value ++ leBytes 4 e.hours ++ leBytes 4 e.pcyc ++ leBytes 4 e.tick
  | .none =>
    let never : Nat := if k = 1 ∨ k = 3 ∨ k = 5 ∨ k = 7 ∨ k = 9 then 0x7FFFFFFF else 0x80000000
    if k ≤ 12 then leBytes 4 never ++ leBytes 4 0xFFFFFFFF ++ bytesOf 8 0 else bytesOf 16 0

/-- Some value has saturated (R636). -/
def odoSaturated (s : Chip) : Bool :=
  s.odo.cnt.any (fun e => e.2 == 2 ^ 64 - 1) || s.odo.hist.any (fun e => e.2 == 2 ^ 32 - 1)

/-- Bytes +0 to +4083 of a snapshot (R636). -/
def snapImage (s : Chip) (seq cause : Nat) (fin : Bool) : List Byte :=
  let flags := b2n fin + 2 * b2n (s.rdBit Reg.odoStat 4) + 4 * b2n (odoSaturated s)
  let head := leBytes 4 seq ++ leBytes 2 1 ++ leBytes 1 cause ++ leBytes 1 flags ++ leBytes 4 (s.rd Reg.odoHours).toNat ++
    leBytes 2 (s.rdF Reg.odoHfrac 11 0) ++ leBytes 2 0 ++ leBytes 4 (s.rd Reg.odoPcyc).toNat ++ leBytes 6 s.tb.tick ++
    leBytes 1 (s.rdF Reg.odoClrstat 15 8) ++ bytesOf 5 0 ++
    leBytes 4 (s.rd Reg.secSeriallo).toNat ++ leBytes 4 (s.rd Reg.secSerialhi).toNat ++ bytesOf 24 0
  head ++ (List.range 384).flatMap (fun i => leBytes 4 (Tab.get 0 s.odo.hist i)) ++
    (List.range 64).flatMap (fun i => leBytes 8 (Tab.get 0 s.odo.cnt i)) ++ (List.range 16).flatMap (extBytes s) ++ bytesOf 1716 0

/-- MRAM address of a snapshot copy (R636). -/
def copyAddr (c : Nat) : Nat := 0x05F00000 + 0x1000 * c

/-- The running totals now (R631). -/
def odoSums (s : Chip) : OdoSums := ⟨s.odo.cnt, s.odo.hist, s.odo.pend, s.odo.pendH⟩

/-- The chip with given running totals. -/
def withSums (s : Chip) (e : OdoSums) : Chip :=
  { s with odo := { s.odo with cnt := e.cnt, hist := e.hist, pend := e.pend, pendH := e.pendH } }

/-- Phase 0 begins: what arrives in its cycle belongs to the next snapshot, and outlives a clear (R631, R644). -/
def odoEdge (s : Chip) : Chip := { s with odo := { s.odo with edge := odoSums s } }

/-- A snapshot of the totals `e` is captured, and its write begins with VALID and SEQ (R631, R634, R635); a FINAL capture that is due goes
into it (R636), and `left` waits go on. -/
def captureSnap (s : Chip) (e : OdoSums) (cause left : Nat) : Chip :=
  let copy := 1 - s.rdF Reg.odoStat 3 3
  let seq := ((s.rd Reg.odoSeq).toNat + 1) % 2 ^ 32
  let fin := cause == 2 || s.odo.finalDue
  let w : SnapWrite :=
    { copy := copy, cause := cause, seq := seq, img := snapImage (withSums s e) seq cause fin, units := e.pend, unitsH := e.pendH, fin := fin }
  let s1 := (s.putBytes (copyAddr copy + 4092) (leBytes 4 0)).putBytes (copyAddr copy) (leBytes 4 seq)
  let s2 := { s1 with odo := { s1.odo with write := .some w, waits := left, finalDue := false } }
  let s3 := (s2.wrBit Reg.odoStat 1 true).wrBit Reg.odoStat 2 (left != 0)
  if fin then s3.wrBit Reg.odoStat 5 true else s3

/-- A waiting capture takes place at phase 0 while no write runs (R632, R633); while a clear is in progress it waits for the clear's own
capture, which bears the SEQ that the clear-history entry names (R644). It holds the totals as phase 0 found them (R631). -/
def snapCapture (s : Chip) : Chip :=
  if odoRuns s && s.odo.waits != 0 && s.odo.write.isNone && s.odo.clear.isNone && s.tb.phase == 0 then captureSnap s s.odo.edge s.odo.waits 0
  else s

/-- The FINAL capture (R632, R633): at once, of the totals `e` that its cycle found, to the same copy as a write that it abandons, and captures
that wait go on waiting. During a clear it merges with the clear's own capture (R636, R644), and before the restore with the first capture
after it. DESIGN CHOICE (notes/assumptions/22.md). -/
def finalCapture (s : Chip) (e : OdoSums) : Chip :=
  if odoRuns s && s.odo.clear.isNone then captureSnap s e 2 s.odo.waits else { s with odo := { s.odo with finalDue := true } }

/-- MRAM address of the journal seal (17 R793). -/
def sealAddr : Nat := 0x05D00000

/-- SEQ of the next seal (17 R793): one more than that of a complete seal in MRAM, else 1. DEDUCED (notes/assumptions/61.md). -/
def sealSeq (s : Chip) : Nat :=
  let b := s.bytes sealAddr 28
  if leAt b 24 4 = 0x4C414553 ∧ leAt b 0 4 = leAt b 20 4 then (leAt b 0 4 + 1) % 2 ^ 32 else 1

/-- The journal seal begins after the FINAL snapshot (17 R793): VALID becomes 0, and SEQ is written. -/
def sealBegin (s : Chip) : Chip :=
  let s1 := (s.putBytes (sealAddr + 24) (leBytes 4 0)).putBytes sealAddr (leBytes 4 (sealSeq s))
  { s1.wrBit Reg.pwrStat 3 true with pwr := { s1.pwr with sealTick := .some s.tb.tick } }

/-- A snapshot write has completed, or has failed twice (R635, R647, R648). -/
def snapWriteDone (s : Chip) (good : Bool) : Chip :=
  match s.odo.write with
  | .none => s
  | .some w =>
    let s0 := { (s.wrBit Reg.odoStat 1 false).wrBit Reg.odoStat 2 false with odo := { s.odo with write := .none } }
    let s1 :=
      if good then
        let a := copyAddr w.copy
        let p := s0.putBytes a (w.img ++ leBytes 4 (crc32c w.img) ++ leBytes 4 w.seq ++ leBytes 4 0x4F445652)
        let e := p.odo.edge
        let q := { p with odo := { p.odo with
            pend := p.odo.pend - w.units, pendH := p.odo.pendH - w.unitsH
            edge := { e with pend := e.pend - w.units, pendH := e.pendH - w.unitsH } } }
        (((q.wr Reg.odoSeq (wn w.seq)).wrF Reg.odoStat 3 3 w.copy).led 4 1 w.units).odoFlag 0
      else (s0.bump Reg.odoSnaperr).odoFlag 1
    if w.fin then sealBegin s1 else s1

/-- A snapshot copy is valid (R635). -/
def copyValid (b : List Byte) : Bool :=
  leAt b 4092 4 == 0x4F445652 && leAt b 4088 4 == leAt b 0 4 && crc32c (b.take 4084) == leAt b 4084 4

/-- Bytes of a snapshot copy. -/
def copyBytes (s : Chip) (c : Nat) : List Byte := s.bytes (copyAddr c) 4096

/-- The newest valid copy (R634). -/
def newestCopy (s : Chip) : Option (Nat × List Byte) :=
  let a := copyBytes s 0
  let b := copyBytes s 1
  if copyValid a && copyValid b then
    let d := (leAt a 0 4 + 2 ^ 32 - leAt b 0 4) % 2 ^ 32
    if 0 < d ∧ d < 2 ^ 31 then .some (0, a) else .some (1, b)
  else if copyValid a then .some (0, a)
  else if copyValid b then .some (1, b) else .none

/-- Bytes of clear-history entry n (R645). -/
def clearEntry (s : Chip) (n : Nat) : List Byte := s.bytes (0x05F02000 + 32 * (n - 1)) 32

/-- The newest valid clear-history entry: its number and MASK (R645, R646). -/
def newestClear (s : Chip) : Option (Nat × Nat) :=
  (((List.range 255).map (fun i => 255 - i)).find? (fun n =>
    let e := clearEntry s n
    leAt e 28 4 == 0x4F444352 && leAt e 24 4 == leAt e 0 4 && leAt e 0 4 == n)).map (fun n => (n, leAt (clearEntry s n) 16 1))

/-- The extreme of a copy, if it was ever set (R630, R636). -/
def copyExtreme (b : List Byte) (k : Nat) : Option Extreme :=
  let o := 2112 + 16 * k
  if leAt b (o + 4) 4 = 0xFFFFFFFF then .none
  else .some ⟨s32 (wn (leAt b o 4)), leAt b (o + 4) 4, leAt b (o + 8) 4, leAt b (o + 12) 4⟩

/-- The more extreme of the present and the restored extreme (R639). -/
def mergeExtreme (b : List Byte) (s : Chip) (k : Nat) : Chip :=
  let high := !(k == 1 || k == 3 || k == 5 || k == 7 || k == 9)
  let put := fun (e : Extreme) => { s with odo := { s.odo with ext := Tab.ins (Tab.erase s.odo.ext k) k e } }
  match copyExtreme b k, Tab.get? s.odo.ext k with
  | .some e, .some c => if (high && decide (c.value > e.value)) || (!high && decide (c.value < e.value)) then s else put e
  | .some e, .none => put e
  | .none, _ => s

/-- Units that the sums of `n` values lose at their maximum (R629, R639). -/
def lostUnits (n top : Nat) (sum : Nat → Nat) : Nat := ((List.range n).map (fun i => sum i - top)).foldl (· + ·) 0

/-- Units counted since AON left cold reset are lost at a maximum in the restore (R629, R639, R647): `h` of them from histogram bins. -/
def restoreLoss (s : Chip) (h c : Nat) : Chip :=
  if h + c = 0 then s
  else (({ s with odo := { s.odo with pend := s.odo.pend - (h + c), pendH := s.odo.pendH - h } }).led 4 3 (h + c)).odoFlag 2

/-- The odometer restore (R639–R641, R645, R646). DEDUCED (notes/assumptions/60.md). -/
def odoRestore (s : Chip) : Chip :=
  let s1 := match newestCopy s with
    | .none =>
      ((s.wr Reg.odoPcyc 1).wrBit Reg.odoStat 4 true).wrF Reg.odoClrstat 15 8 (((newestClear s).map (fun (e : Nat × Nat) => e.1)).getD 0)
    | .some (c, b) =>
      let clrn := leAt b 26 1
      let late := (newestClear s).filter (fun (e : Nat × Nat) => decide (e.1 > clrn))
      let mask := (late.map (fun (e : Nat × Nat) => e.2)).getD 0
      let bin := fun (i : Nat) => Tab.get 0 s.odo.hist i + (if natBit mask 0 then 0 else leAt b (64 + 4 * i) 4)
      let slot := fun (i : Nat) => Tab.get 0 s.odo.cnt i + (if natBit mask 1 then 0 else leAt b (1600 + 8 * i) 8)
      let hist := (List.range 384).foldl (fun t i => Tab.set 0 t i (min (bin i) (2 ^ 32 - 1))) s.odo.hist
      let cnt := (List.range 64).foldl (fun t i => Tab.set 0 t i (min (slot i) (2 ^ 64 - 1))) s.odo.cnt
      let x := restoreLoss { s with odo := { s.odo with hist := hist, cnt := cnt } }
        (lostUnits 384 (2 ^ 32 - 1) bin) (lostUnits 64 (2 ^ 64 - 1) slot)
      let y := if natBit mask 2 then x else (List.range 13).foldl (mergeExtreme b) x
      let f := leAt b 12 2 + s.rdF Reg.odoHfrac 11 0
      let h := leAt b 8 4 + (s.rd Reg.odoHours).toNat + f / 3600
      let z := (((y.wr Reg.odoHours (wn h)).wr Reg.odoHfrac (wn (f % 3600))).wr Reg.odoPcyc (wn (leAt b 16 4 + 1))).wr
        Reg.odoSeq (wn (leAt b 0 4))
      let z1 := ((z.wrF Reg.odoStat 3 3 c).wrBit Reg.odoStat 4 (natBit (leAt b 7 1) 1)).wrF Reg.odoClrstat 15 8
        (max clrn ((late.map (fun (e : Nat × Nat) => e.1)).getD 0))
      if natBit (leAt b 7 1) 0 then z1 else z1.odoInc 20 1
  odoEdge (askSnap (s1.wrBit Reg.odoStat 0 true) 5)

/-- ODO_CLR is written by an agent (R643, R644); `h3` tells whether it is H3. DEDUCED (notes/assumptions/59.md). -/
def odoClr (s : Chip) (h3 : Bool) (v : Word) : Chip :=
  let mask := fld v 2 0
  let n := s.rdF Reg.odoClrstat 15 8
  let refuse := fun (e : Nat) => s.wrF Reg.odoClrstat 3 0 e
  if !h3 then s.bump Reg.odoClrref
  else if !s.rdBit Reg.safStat 8 then refuse 2
  else if n ≥ 255 then refuse 3
  else if s.odo.write.isSome || s.odo.clear.isSome then refuse 4
  else if mask = 0 then refuse 5
  else
    let e := leBytes 4 (n + 1) ++ leBytes 4 (s.rd Reg.odoHours).toNat ++ leBytes 4 (s.rd Reg.odoPcyc).toNat ++
      leBytes 4 s.tb.tick ++ leBytes 1 mask ++ leBytes 1 12 ++ leBytes 2 (s.rdF Reg.safCfgstat 31 16) ++
      leBytes 4 ((s.rd Reg.odoSeq).toNat + 1) ++ leBytes 4 (n + 1) ++ leBytes 4 0x4F444352
    let s1 := s.putBytes (0x05F02000 + 32 * n) e
    { s1 with odo := { s1.odo with clear := .some ⟨mask⟩ } }

/-- What a table holds beyond another, entry by entry below `n`. -/
def tabSince (n : Nat) (now edge : Tab Nat) : Tab Nat :=
  (List.range n).foldl (fun t i => Tab.set 0 t i (Tab.get 0 now i - Tab.get 0 edge i)) []

/-- The clear is applied and its snapshot captured (R644, R640): what arrived in the cycle of phase 0 stays.
DEDUCED (notes/assumptions/59.md). -/
def clearApply (s : Chip) : Chip :=
  match s.odo.clear with
  | .none => s
  | .some c =>
    if s.tb.phase ≠ 0 ∨ s.odo.write.isSome then s
    else
      let h := natBit c.mask 0
      let k := natBit c.mask 1
      let o := s.odo
      let e := o.edge
      let goneH := if h then e.pendH else 0
      let gone := goneH + (if k then e.pend - e.pendH else 0)
      let s1 := { s with odo := { o with
          hist := if h then tabSince 384 o.hist e.hist else o.hist
          cnt := if k then tabSince 64 o.cnt e.cnt else o.cnt
          ext := if natBit c.mask 2 then [] else o.ext
          pend := o.pend - gone, pendH := o.pendH - goneH, clear := .none
          edge := ⟨if k then [] else e.cnt, if h then [] else e.hist, e.pend - gone, e.pendH - goneH⟩ } }
      let s2 := ((s1.led 4 2 gone).wrF Reg.odoClrstat 15 8 (s.rdF Reg.odoClrstat 15 8 + 1)).wrBit Reg.odoStat 4 false
      (captureSnap s2 s2.odo.edge (max 4 s.odo.waits) 0).odoFlag 3

end Sys2Proof.Machine
end

