-- ==== Sys2Proof/Machine/SafeIsland.lean ====
section
/-!
DEFINITION. Chapter 15: the safety island.
-/

namespace Sys2Proof.Machine

/-- The island's STATE (R661, R699): 0 RESET, 1 STARTING, 2 RUN, 3 DEGRADED, 4 SAFE. -/
def islState (s : Chip) : Nat := s.rdF Reg.safStat 2 0

/-- Flag e of SAF_EVT (R707). -/
def Chip.safFlag (s : Chip) (e : Nat) : Chip := s.flag Reg.safEvt Reg.safEvten e (832 + e)

/-- The island part replaced. -/
def setIsl (s : Chip) (x : Island) : Chip := { s with isl := x }

/-- A field of the profile in force (R668). -/
def pf (s : Chip) (o n : Nat) : Nat := leAt s.isl.prof o n

/-- The profile has been taken. -/
def hasProf (s : Chip) : Bool := !s.isl.prof.isEmpty

/-- The safety CRC of R680, without its prefix. -/
def safetyCrc (bs : List Byte) : Nat := crcRefl 0xEDB88320 bs

/-- The safety CRC of a frame: the prefix is SEED and CLAIM_EPOCH (R680). -/
def frameCrc (seed epoch : Nat) (bs : List Byte) : Nat := safetyCrc (leBytes 4 seed ++ leBytes 4 epoch ++ bs)

/-- The number lies between two others. -/
def within (x lo hi : Nat) : Bool := decide (lo ≤ x) && decide (x ≤ hi)

/-- Bytes [o, o + n) of a list are all 0. -/
def zeroAt (b : List Byte) (o n : Nat) : Bool := (sliceB b o n).all (fun x => x == 0)

/-- An SICFG byte is in range (R668). -/
def siCfgOk (n x : Nat) : Bool := decide (x % 8 ≤ 4) && decide (x < 64) && (if n % 2 = 0 then decide (x / 16 < 3) else decide (x < 16))

/-- A TPCFG entry is in range (R668, R669). -/
def tpCfgOk (x : Nat) : Bool :=
  x / 32 % 8 == 0 && decide (x < 65536) && (!natBit x 4 || (within (x % 16) 6 12 && within (x / 256 % 256) 1 8))

/-- An SOCFG entry is in range (R668, R669). -/
def soCfgOk (x : Nat) : Bool :=
  x / 64 % 4 == 0 && decide (x < 2 ^ 26) &&
    (!natBit x 5 || (decide (x % 16 ≤ 8) && within (x / 256 % 256) 1 255 && within (x / 65536 % 1024) 1 1000))

/-- A rule record is in range (R685). -/
def ruleOk (b : List Byte) (r : Nat) : Bool :=
  let o := 152 + 48 * r
  decide (leAt b (o + 42) 2 ≤ 10000) && decide (leAt b (o + 44) 1 < 4) && zeroAt b (o + 45) 3

/-- PCRC of a profile is correct (R668). -/
def profileCrcOk (b : List Byte) : Bool := safetyCrc (sliceB b 0 2044) == leAt b 2044 4

/-- The checks of R669. DEDUCED (notes/assumptions/48.md). -/
def profileOk (b : List Byte) : Bool :=
  profileCrcOk b && within (leAt b 4 2) 1 2047 && decide (leAt b 6 1 < 8) && leAt b 7 1 / 32 % 4 == 0 &&
    within (leAt b 8 2) 1 3600 && within (leAt b 10 1) 1 16 && within (leAt b 11 1) 3 100 && within (leAt b 12 2) 1 1000 && (List.range 24).all (fun n => siCfgOk n (leAt b (16 + n) 1)) &&
    (List.range 4).all (fun k => tpCfgOk (leAt b (40 + 4 * k) 4)) && (List.range 16).all (fun n => soCfgOk (leAt b (56 + 4 * n) 4)) &&
    (List.range 16).all (fun k => decide (leAt b (120 + k) 1 < 64)) && zeroAt b 136 16 && (List.range 32).all (ruleOk b) &&
    zeroAt b 1688 356

/-- The STATE changes (R661, R707). -/
def setIslState (s : Chip) (x : Nat) : Chip :=
  if islState s = x then s else (s.wrF Reg.safStat 2 0 x).safFlag 0

/-- The force lines as the island drives them (R689, R702), and the gate with them. -/
def driveForce (s : Chip) (lines : Nat) : Chip := setForceLines (s.wrF Reg.safOut 15 0 lines) lines

/-- SOn goes on or off (R674, R677): a change ends its off pulse. -/
def driveOut (s : Chip) (n : Nat) (on : Bool) : Chip :=
  if s.rdBit Reg.safOut (16 + n) == on then s
  else setIsl (s.wrBit Reg.safOut (16 + n) on) { s.isl with outs := Tab.set SafeOut.zero s.isl.outs n ⟨s.nowNs, .none, false⟩ }

/-- Every SO is off and every force line asserted (R661, R694). -/
def allSafe (s : Chip) : Chip := driveForce ((List.range 16).foldl (fun x n => driveOut x n false) s) 0xFFFF

/-- The image of a fault in SAF_FAULT1 and SAF_FAULT2 (R705). -/
def faultWord (s : Chip) (code item : Nat) : Word := wn (code * 2 ^ 28 + s.tb.tick % 65536 * 256 + item)

/-- A Degraded fault of this tick has been met (R692). -/
def degradedNow (s : Chip) : Bool := s.isl.degTick == .some s.tb.tick

/-- The island goes to SAFE (R691, R694, R695, 17 R797): the fault is the second where it takes the island from DEGRADED, or follows another of
its tick. DEDUCED (notes/assumptions/50.md). -/
def toSafe (s : Chip) (code item : Nat) : Chip :=
  let second := islState s == 3 || degradedNow s
  let s1 := ((setIslState s 4).wr (if second then Reg.safFault2 else Reg.safFault1) (faultWord s code item)).safFlag 2
  let s2 := setIsl s1 { s1.isl with
    degEnd := .none, safeTick := if second then .none else .some s.tb.tick
    image := { SafeImage.zero with safe := true, maint := s1.isl.image.maint } }
  (allSafe s2).fault 0x26 code

/-- The class Degraded of R690. -/
def isDegraded (code : Nat) : Bool := within code 9 12

/-- The same fault was acknowledged less than DEGT seconds ago (R693). -/
def recurs (s : Chip) (code item : Nat) : Bool :=
  s.isl.acked.any (fun e => e.1 == code && e.2.1 == item && decide (s.nowNs ≤ e.2.2 + pf s 8 2 * 1000000000))

/-- The permit of an input alone (R670, R673, R684). -/
def permitOf (s : Chip) (n : Nat) : Bool :=
  let cfg := pf s (16 + n) 1
  let anti := n % 2 == 1 && pf s (16 + n - 1) 1 / 16 == 2
  match (Tab.get SafeIn.zero s.isl.ins n).acc with
  | .none => false
  | .some l => Bool.xor (Bool.xor l anti) (natBit cfg 3) && !s.rdBit Reg.safSiflt n

/-- PV bit n of the local inputs (R684). -/
def pvLocal (s : Chip) (n : Nat) : Bool :=
  if pf s (16 + n / 2 * 2) 1 / 16 = 0 then permitOf s n else (Tab.get SafePair.zero s.isl.pairs (n / 2)).permit

/-- SAF_SIPERM (R703). -/
def syncPermits (s : Chip) : Chip :=
  s.wr Reg.safSiperm (wn ((List.range 24).foldl (fun x n => if pvLocal s n then x + 2 ^ n else x) 0))

/-- An input of a pair no longer permits (R673): the pair permit falls at once, and rises again only after both have had permit 0. -/
def pairFall (s : Chip) (p : Nat) : Chip :=
  let e := Tab.get SafePair.zero s.isl.pairs p
  if !e.permit || (permitOf s (2 * p) && permitOf s (2 * p + 1)) then s
  else
    let fell := { e with permit := false, opened := !permitOf s (2 * p) && !permitOf s (2 * p + 1) }
    setIsl s { s.isl with pairs := Tab.set SafePair.zero s.isl.pairs p fell }

/-- An item is marked faulted (R691): an input's permit falls at once (R672, R673, R684). -/
def markItem (s : Chip) (code item : Nat) : Chip :=
  if code ≥ 11 then syncPermits (pairFall (s.wrBit Reg.safSiflt item true) (item / 2)) else s.wrBit Reg.safSoflt item true

/-- The island goes from RUN to DEGRADED (R691). DEDUCED (notes/assumptions/50.md). -/
def toDegraded (s : Chip) (code item : Nat) : Chip :=
  let s1 := ((setIslState s 3).wr Reg.safFault1 (faultWord s code item)).safFlag 2
  let s2 := markItem s1 code item
  let s3 := setIsl s2 { s2.isl with
    degEnd := .some (s.nowNs + pf s 8 2 * 1000000000), standing := s2.isl.standing ++ [(code, item)], degTick := .some s.tb.tick }
  (if code = 9 ∨ code = 10 then driveOut s3 item false else s3).fault 0x26 code

/-- A fault met in SAFE (R692, R695): it is counted, and recorded where it is the second of its tick. DEDUCED (notes/assumptions/50.md). -/
def safeFault (s : Chip) (code item : Nat) : Chip :=
  let s1 := s.bump Reg.safFltcnt
  if s.isl.safeTick = .some s.tb.tick then
    setIsl (s1.wr Reg.safFault2 (faultWord s code item)) { s1.isl with safeTick := .none }
  else s1

/-- A fault of the island (R690–R693). -/
def islFault (s : Chip) (code item : Nat) : Chip :=
  if islState s = 0 then s
  else if islState s = 4 then safeFault s code item
  else if isDegraded code && islState s == 2 && !degradedNow s && !recurs s code item then toDegraded s code item
  else toSafe s code item

/-- The island is held in RESET (R661, R662, R664): every SAF register returns to its cold value. DEDUCED (notes/assumptions/48.md). -/
def islReset (s : Chip) : Chip :=
  let s1 := { s with regs := s.regs.filter (fun e => decide (e.1 < 0x11000000) || decide (0x11100000 ≤ e.1)) }
  setForceLines (setIsl s1 { Island.zero with serves := s.isl.serves, profiles := s.isl.profiles }) 0xFFFF

/-- VDD_SAFE lies below LOW as last read (R659, 20 R874). -/
def supplyLow (s : Chip) : Bool := s.pwr.safeMv.any (fun v => decide (v < 1620))

/-- VWARN as the supply was last read (R659, 20 R874): below 1.669 V. -/
def syncVwarn (s : Chip) : Chip :=
  match s.pwr.safeMv with
  | .some mv => s.wrBit Reg.safStat 10 (decide (mv < 1669))
  | .none => s

/-- VDD_SAFE lies above HIGH as last read (R659, 20 R874). -/
def supplyHigh (s : Chip) : Bool := s.pwr.safeMv.any (fun v => decide (1980 < v))

/-- The supervisor releases the island (R662): while VDD_SAFE is below LOW it does not. Above HIGH it is fault VSAFE at once (R659). -/
def islRelease (s : Chip) : Chip :=
  if islState s = 0 ∧ s.boot.on ∧ !supplyLow s then
    let s1 := syncVwarn (setIsl (setIslState s 1) { s.isl with outs := (List.range 16).map (fun n => (n, ⟨s.nowNs, .none, false⟩)) })
    if supplyHigh s1 then islFault s1 4 0 else s1
  else s

/-- SEAL of the accepted setting matches the profile (R665, R667). -/
def sealMatches (s : Chip) : Bool :=
  match s.isl.cfgAcc with
  | .some c => hasProf s && c / 32 == pf s 4 2
  | .none => false

/-- MAINTSEL as R667 gives it; a change sets SAF_EVT.MAINT. DEDUCED (notes/assumptions/85.md). -/
def syncMaint (s : Chip) : Chip :=
  let sel := sealMatches s && natBit (s.isl.cfgAcc.getD 0) 4 && natBit (pf s 6 1) 0
  let s1 := s.wrBit Reg.safStat 9 (sealMatches s)
  if s1.rdBit Reg.safStat 8 == sel then s1 else (s1.wrBit Reg.safStat 8 sel).safFlag 4

/-- A rule of the profile in force (R685). -/
def ruleAt (s : Chip) (r o n : Nat) : Nat := pf s (152 + 48 * r + o) n

/-- A rule is enabled. -/
def ruleEn (s : Chip) (r : Nat) : Bool := natBit (ruleAt s r 44 1) 0

/-- A rule is latching. -/
def ruleLatch (s : Chip) (r : Nat) : Bool := natBit (ruleAt s r 44 1) 1

/-- Every rule with LATCH is put in demand (R686); SAF_EVT.DEMAND is set for each that was not (R707). -/
def demandLatched (s : Chip) : Chip :=
  let latched := (List.range 32).filter (fun r => ruleEn s r && ruleLatch s r)
  let begun := latched.filter (fun r => !s.rdBit Reg.safDemand r)
  let s1 := latched.foldl (fun x r => (x.wrBit Reg.safDemand r true).wrBit Reg.safLatch r true) s
  let t1 := latched.foldl (fun t r =>
    if s.rdBit Reg.safDemand r then t else Tab.set .none t r (.some s.tb.tick)) s1.isl.demandAt
  begun.foldl (fun x _ => x.safFlag 1) (setIsl s1 { s1.isl with demandAt := t1 })

/-- The profile is taken in STARTING once the setting is accepted (R665, R669); latching rules start in demand (R686). -/
def takeProfile (s : Chip) : Chip :=
  match s.isl.cfgAcc with
  | .none => s
  | .some c =>
    if islState s ≠ 1 ∨ hasProf s ∨ s.isl.profiles.isEmpty then s
    else
      match Tab.get? s.isl.profiles (c % 16) with
      | .none => islFault s 6 0
      | .some b =>
        if !profileOk b then islFault s 6 0
        else
          let s1 := setIsl (s.wrF Reg.safStat 7 4 (c % 16)) { s.isl with prof := b }
          if !sealMatches s1 then islFault s1 7 0
          else demandLatched s1

/-- SAFE_CFG is sampled (R665–R667, R700). -/
def sampleCfg (s : Chip) (cfg : Nat) : Chip :=
  let last := s.rdF Reg.safCfgstat 31 16
  let run := if last = cfg then s.isl.cfgRun + 1 else 1
  let s1 := setIsl (s.wrF Reg.safCfgstat 31 16 cfg) { s.isl with cfgRun := run }
  match s.isl.cfgAcc with
  | .none =>
    if islState s = 1 ∧ run ≥ 10000 then
      syncMaint (takeProfile (setIsl (s1.wrF Reg.safCfgstat 15 0 cfg) { s1.isl with cfgAcc := .some cfg }))
    else s1
  | .some acc =>
    let other := cfg / 32 != acc / 32 || cfg % 16 != acc % 16
    let bad := if other && islState s != 1 then s.isl.cfgBad + 1 else 0
    let mr := if natBit cfg 4 == natBit acc 4 then 0 else s.isl.maintRun + 1
    let acc' := if mr ≥ 10000 then (if natBit acc 4 then natClrBit acc 4 else natSetBit acc 4) else acc
    let s2 := setIsl (s1.wrF Reg.safCfgstat 15 0 acc') { s1.isl with
      cfgBad := bad, maintRun := if mr ≥ 10000 then 0 else mr, cfgAcc := .some acc' }
    let s3 := syncMaint (takeProfile s2)
    if bad = 100 then islFault s3 7 0 else s3

/-- An acknowledgement is received (R688, R663). -/
def islAck (s : Chip) : Chip :=
  setIsl s { s.isl with ack := true, startAck := s.isl.startAck || islState s == 1 }

/-- One input is sampled (R670): a level is accepted once SIFILT samples agree, with the profile's SIFILT; an accepted rising edge of ACKSI
acknowledges. -/
def sampleIn (si : Nat) (s : Chip) (n : Nat) : Chip :=
  let e := Tab.get SafeIn.zero s.isl.ins n
  let raw := natBit si n
  let run := if e.run ≠ 0 ∧ e.raw = raw then min (e.run + 1) 16 else 1
  let acc := if hasProf s && decide (run ≥ pf s 10 1) then .some raw else e.acc
  let s1 := setIsl s { s.isl with ins := Tab.set SafeIn.zero s.isl.ins n ⟨raw, run, acc⟩ }
  if hasProf s ∧ pf s 7 1 = 128 + n ∧ e.acc = .some false ∧ acc = .some true then islAck s1 else s1

/-- A channel pair (R673). DEDUCED (notes/assumptions/49.md). -/
def samplePair (s : Chip) (p : Nat) : Chip :=
  if pf s (16 + 2 * p) 1 / 16 = 0 then s
  else
    let a := permitOf s (2 * p)
    let b := permitOf s (2 * p + 1)
    let e := Tab.get SafePair.zero s.isl.pairs p
    let seen := fun (n : Nat) => (Tab.get SafeIn.zero s.isl.ins n).acc.isSome
    let opened := e.opened || (!a && !b && seen (2 * p) && seen (2 * p + 1))
    let permit := a && b && (e.permit || opened)
    let differ := if a == b then .none else match e.differ with
      | .some t => .some t
      | .none => .some s.tb.tick
    setIsl s { s.isl with pairs := Tab.set SafePair.zero s.isl.pairs p ⟨permit, opened && !permit, differ, e.told && a != b⟩ }

/-- A field of SOCFG of output n (R668). -/
def soCfg (s : Chip) (n hi lo : Nat) : Nat := fld (wn (pf s (56 + 4 * n) 4)) hi lo

/-- The fault of an output's readback at phase 0, if any (R675, R677): an output that is off, enabled or not, must read 0. -/
def readbackFault (rb : Nat) (s : Chip) (n : Nat) : Option Nat :=
  let o := Tab.get SafeOut.zero s.isl.outs n
  let late := decide (s.nowNs > o.since + soCfg s n 15 8 * 1000000)
  if o.pulse.isSome ∨ !late ∨ s.rdBit Reg.safOut (16 + n) = natBit rb n then .none
  else if s.rdBit Reg.safOut (16 + n) then .some 9 else .some 8

/-- The readbacks at phase 0 (R675): every output is judged as it stands at the sample, and then the faults act. -/
def checkReadbacks (rb : Nat) (s : Chip) : Chip :=
  ((List.range 16).filterMap (fun n => (readbackFault rb s n).map (fun c => (c, n)))).foldl (fun x e => islFault x e.1 e.2) s

/-- TPk pulses in this tick (R671). -/
def tpTick (s : Chip) (k : Nat) : Bool :=
  let x := pf s (40 + 4 * k) 4
  natBit x 4 && s.tb.tick % 2 ^ (x % 16) == 16 * k

/-- The island's sample at phase 0 of every tick (R665, R670, R673, R675, R687). `ces` counts errors corrected in island SRAM since the
last sample (R660). -/
def islSample (s : Chip) (si rb cfg ces : Nat) : Chip :=
  if islState s = 0 then s
  else
    let s1 := sampleCfg (s.bumpBy Reg.safCecnt ces) cfg
    if !hasProf s1 then
      let s2 := (List.range 24).foldl (sampleIn si) s1
      setIsl s2 { s2.isl with rb := rb }
    else
      let fed := (List.range 24).filter (fun n => natBit si n &&
        (List.range 4).any (fun k => tpTick s1 k && pf s1 (16 + n) 1 % 8 == k + 1))
      let s2 := (List.range 24).foldl (sampleIn si) s1
      let s3 := syncPermits ((List.range 12).foldl samplePair s2)
      let s4 := checkReadbacks rb s3
      setIsl s4 { s4.isl with rb := rb, tpRaw := fed }

/-- A test pulse starts (R671). -/
def tpStart (s : Chip) (k : Nat) : Chip :=
  if islState s ≠ 0 ∧ hasProf s ∧ tpTick s k ∧ !s.isl.tpLow.contains k then
    setIsl (s.atPhase 1000) { s.isl with tpLow := s.isl.tpLow ++ [k] } else s

/-- The inputs fed from a test pulse are sampled before it ends (R672). -/
def tpCheck (s : Chip) (k si : Nat) : Chip :=
  if !s.isl.tpLow.contains k then s
  else
    let s1 := s.atPhase (800 + 1000 * (pf s (40 + 4 * k) 4 / 256 % 256))
    syncPermits ((s.isl.tpRaw.filter (fun n => pf s (16 + n) 1 % 8 == k + 1 && natBit si n)).foldl (fun x n => islFault x 11 n) s1)

/-- A test pulse ends (R671). -/
def tpEnd (s : Chip) (k : Nat) : Chip :=
  if !s.isl.tpLow.contains k then s
  else setIsl (s.atPhase (1000 + 1000 * (pf s (40 + 4 * k) 4 / 256 % 256))) { s.isl with
    tpLow := s.isl.tpLow.filter (· != k), tpDone := s.isl.tpDone.filter (· != k) ++ [k] }

/-- An off pulse starts (R676). -/
def offStart (s : Chip) (n : Nat) : Chip :=
  let o := Tab.get SafeOut.zero s.isl.outs n
  if s.rdBit Reg.safOut (16 + n) && soCfg s n 4 4 == 1 && s.tb.tick % 2 ^ (soCfg s n 3 0 + 10) == 64 * n && o.pulse.isNone then
    let s1 := s.atPhase 1000
    setIsl s1 { s1.isl with outs := Tab.set SafeOut.zero s1.isl.outs n { o with pulse := .some s1.nowNs, checked := false } }
  else s

/-- When the off pulse of an output ends, in ns (R676): OPW after its start. -/
def offDue (s : Chip) (n : Nat) : Option Nat := (Tab.get SafeOut.zero s.isl.outs n).pulse.map (fun t => t + 1000 * soCfg s n 25 16)

/-- The readback of an off pulse, 500 ns before its end (R676): not before that moment, and once. -/
def offCheck (s : Chip) (n : Nat) (rb : Bool) : Chip :=
  let o := Tab.get SafeOut.zero s.isl.outs n
  match offDue s n with
  | .none => s
  | .some due =>
    if o.checked ∨ !s.inTick (due - 500) then s
    else
      let s1 := s.atPhase (due - 500 - s.tb.base)
      if rb then islFault s1 10 n
      else setIsl s1 { s1.isl with outs := Tab.set SafeOut.zero s1.isl.outs n { o with checked := true } }

/-- An off pulse ends, OPW after its start (R676, R677): not before that moment. A pulse whose check has passed is counted. -/
def offEnd (s : Chip) (n : Nat) : Chip :=
  let o := Tab.get SafeOut.zero s.isl.outs n
  match offDue s n with
  | .none => s
  | .some due =>
    if !s.inTick due then s
    else
      let s0 := s.atPhase (due - s.tb.base)
      let s1 := setIsl s0 { s0.isl with outs := Tab.set SafeOut.zero s0.isl.outs n { o with pulse := .none, checked := false } }
      if o.checked then s1.bump Reg.safOpcnt else s1

/-- Safe node k's address in the profile in force (R678). -/
def safeAddr (s : Chip) (k : Nat) : Nat := pf s (120 + k) 1

/-- FRESH of safe node k. -/
def isFresh (s : Chip) (k : Nat) : Bool := s.rdBit Reg.safNode k

/-- A safe node becomes not fresh (R682). -/
def nodeTimeout (s : Chip) (k : Nat) : Chip :=
  if isFresh s k then
    (((s.wrBit Reg.safNode k false).wrBit Reg.safNode (16 + k) true).bump Reg.safNodetocnt).safFlag 3 else s

/-- A landed SAFE-U frame of safe node k is judged (R682). A fresh frame's age counts from C − ECHO at its landing. -/
def judgeFrame (p : List Byte) (s : Chip) (k : Nat) : Chip :=
  let n := Tab.get SafeNode.zero s.isl.nodes k
  let echo := leAt p 1 1
  let ok := frameCrc (pf s 0 4) (s.rd Reg.sysEpoch).toNat (sliceB p 0 52) == leAt p 52 4 && leAt p 0 1 == safeAddr s k &&
    decide ((s.isl.scnt + 256 - echo) % 256 ≤ pf s 11 1) && n.echo != .some echo
  if !ok then s.bump Reg.safSurej
  else
    let t0 := tickAdd s.tb.tick (2 ^ 48 - (s.isl.scnt + 256 - echo) % 256)
    let s1 := setIsl s { s.isl with nodes := Tab.set SafeNode.zero s.isl.nodes k ⟨.some echo, .some t0, leAt p 2 2⟩ }
    if natBit (leAt p 4 1) 1 then nodeTimeout s1 k else s1.wrBit Reg.safNode k true

/-- The island takes the SAFE-U frames that have landed (R682). -/
def islLand (s : Chip) : Chip :=
  if islState s = 0 ∨ !hasProf s then s
  else s.ewn.safeU.foldl (fun x e =>
    let owner := (Tab.get ⟨0, 0⟩ x.ewn.comps e.1).owner
    ((List.range 16).filter (fun k => safeAddr x k == owner && owner != 0)).foldl (judgeFrame e.2) x) s

/-- A safe node's last fresh frame has aged beyond SWD (R682). DEDUCED (notes/assumptions/49.md). -/
def freshTimeout (s : Chip) (k : Nat) : Chip :=
  match (Tab.get SafeNode.zero s.isl.nodes k).last with
  | .some t => if tickSince s.tb.tick t > pf s 11 1 then nodeTimeout s k else s
  | .none => s

/-- Bit b of the permit vector (R684). -/
def pvBit (s : Chip) (b : Nat) : Bool :=
  if b < 24 then s.rdBit Reg.safSiperm b
  else if b = 24 then !s.rdBit Reg.safStat 8
  else if b < 32 then true
  else isFresh s ((b - 32) / 16) && natBit (Tab.get SafeNode.zero s.isl.nodes ((b - 32) / 16)).sin ((b - 32) % 16)

/-- An enabled rule is met (R686). -/
def ruleMet (s : Chip) (r : Nat) : Bool := (List.range 288).all (fun b => !natBit (ruleAt s r 0 36) b || pvBit s b)

/-- The rule demands. -/
def demands (s : Chip) (r : Nat) : Bool := s.rdBit Reg.safDemand r

/-- One rule is evaluated (R686): the state and whether the acknowledgement has acted. DEDUCED (notes/assumptions/50.md). -/
def evalRule (ack : Bool) (acc : Chip × Bool) (r : Nat) : Chip × Bool :=
  let s := acc.1
  if !ruleEn s r then acc
  else
    let met := ruleMet s r
    let was := demands s r
    let held := met && ruleLatch s r && was && !ack
    let now := !met || held
    let s1 := (s.wrBit Reg.safDemand r now).wrBit Reg.safLatch r (now && ruleLatch s r)
    let s2 := if now == was then s1
      else setIsl s1 { s1.isl with demandAt := Tab.set .none s1.isl.demandAt r (if now then .some s.tb.tick else .none) }
    (if now && !was then s2.safFlag 1 else s2, acc.2 || (ack && was && !now && ruleLatch s r))

/-- The conditions of R663 hold. -/
def mayRun (s : Chip) : Bool :=
  sealMatches s && s.isl.selfTest && s.isl.rb == 0 && (!natBit (pf s 6 1) 2 || s.isl.startAck) &&
    (List.range 4).all (fun k => !natBit (pf s (40 + 4 * k) 4) 4 || s.isl.tpDone.contains k)

/-- An acknowledgement in DEGRADED (R693): the marks are cleared, the timer stops, and the island returns to RUN. -/
def ackDegraded (s : Chip) : Chip :=
  let now := s.nowNs
  let s1 := setIsl (((setIslState s 2).wr Reg.safSiflt 0).wr Reg.safSoflt 0) { s.isl with
    degEnd := .none, standing := [], acked := s.isl.acked ++ s.isl.standing.map (fun e => (e.1, e.2, now)) }
  syncPermits s1

/-- The rule unit evaluates (R663, R686, R688, R693); a difference between its halves is fault RULEMIS of that rule (R657). -/
def evalRules (s : Chip) (mis : Option Nat) : Chip :=
  let s0 := s.atPhase 5800
  if islState s = 0 ∨ !hasProf s then s0
  else
    match mis with
    | .some r => islFault s0 2 r
    | .none =>
      let start := islState s == 1 && mayRun s
      let s1 := if start then demandLatched (setIslState s0 2) else s0
      let ack := if start then s.isl.ack || (natBit (pf s 6 1) 2 && s.isl.startAck) else s.isl.ack
      let deg := ack && islState s == 3
      let s2 := if deg then ackDegraded s1 else s1
      let r := (List.range 32).foldl (evalRule ack) (s2, deg || (start && ack && natBit (pf s 6 1) 2))
      let s3 := setIsl r.1 { r.1.isl with ack := false }
      if r.2 then s3.safFlag 5 else s3

/-- A demanding rule's delay has run (R686). -/
def delayRun (s : Chip) (r : Nat) : Bool :=
  match Tab.get .none s.isl.demandAt r with
  | .some t => demands s r && decide (tickSince s.tb.tick t ≥ 100 * ruleAt s r 42 2)
  | .none => false

/-- The demanding rules. -/
def demanding (s : Chip) : List Nat := (List.range 32).filter (demands s)

/-- What the SAFE-D entries of the next coach cut carry (R661, R679). -/
def imageNow (s : Chip) : SafeImage :=
  let run := islState s == 2 || islState s == 3
  { run := run, safe := islState s == 4, maint := s.rdBit Reg.safStat 8
    enabled := if run then (List.range 16).filter (fun k => (demanding s).all (fun r => !natBit (ruleAt s r 40 2) k)) else [] }

/-- The outputs, the force lines and the SAFE-D image change together at phase 9,300 (R674, R687, R689). -/
def islOutputs (s : Chip) : Chip :=
  let s0 := s.atPhase 9300
  if islState s = 0 then s0
  else if islState s ≠ 2 ∧ islState s ≠ 3 then setIsl (allSafe s0) { (allSafe s0).isl with image := imageNow s }
  else
    let fg := (demanding s).foldl (fun x r => x ||| ruleAt s r 36 2) (if s.rdBit Reg.safStat 8 then pf s 14 2 else 0)
    let off := ((List.range 32).filter (delayRun s)).foldl (fun x r => x ||| ruleAt s r 38 2) 0
    let s1 := (List.range 16).foldl (fun x n =>
      driveOut x n (soCfg s n 5 5 == 1 && !s.rdBit Reg.safSoflt n && !natBit off n)) s0
    driveForce (setIsl s1 { s1.isl with image := imageNow s }) fg

/-- A rule's delay has run out at the evaluation of this tick (R686): its SOM acts with the outputs' change at phase 9,300 (R687). -/
def delayExpiry (s : Chip) (r : Nat) : Chip :=
  if delayRun s r && decide (s.tb.phase ≥ 5800) && decide (s.tb.phase ≤ 9300) then islOutputs s else s

/-- Inputs of a pair have differed for more than DISC ms (R673): one fault for each discrepancy. DEDUCED (notes/assumptions/49.md). -/
def discExpiry (s : Chip) (p : Nat) : Chip :=
  let e := Tab.get SafePair.zero s.isl.pairs p
  match e.differ with
  | .some t =>
    if tickSince s.tb.tick t > 100 * pf s 12 2 && !e.told then
      let s1 := setIsl s { s.isl with pairs := Tab.set SafePair.zero s.isl.pairs p { e with told := true } }
      syncPermits (islFault s1 12 (2 * p))
    else s
  | .none => s

/-- The degraded timer runs out (R691). -/
def degTime (s : Chip) : Chip :=
  match s.isl.degEnd with
  | .some t => if islState s = 3 ∧ s.nowNs ≥ t then islFault s 13 0 else s
  | .none => s

/-- The entry of safe node k in its SAFE-D compartment (R661, R679, R687). DEDUCED (notes/assumptions/48.md). -/
def safeDEntry (s : Chip) (k : Nat) : List Byte :=
  if safeAddr s k = 0 then bytesOf 10 0
  else
    let m := s.isl.image
    let cmd := if m.enabled.contains k then 0xFFFF else 0
    let dfl := b2n m.run + 2 * b2n m.safe + 4 * b2n m.maint
    let body := leBytes 1 (safeAddr s k) ++ leBytes 1 s.isl.scnt ++ leBytes 2 cmd ++ leBytes 1 dfl ++ leBytes 1 0
    body ++ leBytes 4 (frameCrc (pf s 0 4) (s.rd Reg.sysEpoch).toNat body)

/-- The SAFE-D payloads of the coach now cut (R661, R678, R679). DESIGN CHOICE (notes/assumptions/64.md). -/
def islPrepare (s : Chip) : Chip :=
  let comps := (s.ewn.comps.filter (fun e => e.2.kind == 3)).map (fun e => e.1)
  if islState s = 0 ∨ !hasProf s then { s with ewn := { s.ewn with safeD := [] } }
  else
    let s1 := setIsl s { s.isl with scnt := (s.isl.scnt + 1) % 256 }
    let payload := fun (rank : Nat) => (List.range 6).flatMap (fun e =>
      if 6 * rank + e < 16 then safeDEntry s1 (6 * rank + e) else bytesOf 10 0)
    let t := (List.range comps.length).foldl (fun t i => Tab.set (bytesOf 60 0) t (comps.getD i 0) (payload i)) []
    { s1 with ewn := { s1.ewn with safeD := t } }

/-- The self-test of the cores has ended (R663). DEDUCED (notes/assumptions/47.md). -/
def selfTestDone (s : Chip) (pass : Bool) : Chip :=
  if islState s ≠ 1 then s else if pass then setIsl s { s.isl with selfTest := true } else islFault s 1 0

/-- VDD_SAFE has been read (R659): VWARN follows it outside RESET. -/
def supplyRead (s : Chip) (mv : Nat) : Chip :=
  let s1 := { s with pwr := { s.pwr with safeMv := .some mv } }
  if islState s = 0 then s1 else syncVwarn s1

/-- VDD_SAFE has been read against LOW and HIGH (R659, R662): outside them it is fault VSAFE, and below LOW RESET. -/
def vsafe (s : Chip) (mv : Nat) : Chip :=
  let s0 := supplyRead s mv
  if 1620 ≤ mv ∧ mv ≤ 1980 then s0
  else
    let s1 := islFault s0 4 0
    if mv < 1620 then islReset s1 else s1

/-- VDD_SAFE has crossed the level of VWARN (R659): the reading counts as any other. -/
def vwarn (s : Chip) (mv : Nat) : Chip := vsafe s mv

/-- A write to SAF_ACK by a port that holds SAFACK (R688). -/
def safAck (s : Chip) (v : Word) : Chip :=
  if bit v 0 && natBit (pf s 6 1) 1 && islState s != 0 then islAck s else s

/-- ms left on the degraded timer (R706). -/
def degLeft (s : Chip) : Nat :=
  match s.isl.degEnd with
  | .some t => (t - s.nowNs) / 1000000
  | .none => 0

end Sys2Proof.Machine
end

