-- ==== Sys2Proof/Machine/Claims.lean ====
section
/-!
DEFINITION. Supervisors, heartbeats and the claim logic (16 R742–R749), and the gate instant (02 R103, 19 R851).
-/

namespace Sys2Proof.Machine

/-- A flag of CLM_EVT (16 R764). -/
def Chip.clmFlag (s : Chip) (e : Nat) : Chip := s.flag Reg.clmEvt Reg.clmEvten e (64 + e)

/-- A supervisor of the consist, or the service supervisor (16 R742). -/
def svPresent (s : Chip) (k : Nat) : Bool := k == 15 || s.rdBit (Reg.clmSvcfg k) 0

/-- Home port of supervisor k: 0 H0, 1 tool LAN, 2 H3 (16 R742). -/
def svHome (s : Chip) (k : Nat) : Nat := if k = 15 then 2 else s.rdF (Reg.clmSvcfg k) 1 1

/-- MAC address of supervisor k. -/
def svMac (s : Chip) (k : Nat) : Nat := (s.rd (Reg.clmSvmaclo k)).toNat + 2 ^ 32 * s.rdF (Reg.clmSvmachi k) 15 0

/-- PER in ns (16 R742): 100 ms for SV15's field of 0. -/
def svPer (s : Chip) (k : Nat) : Nat :=
  let p := s.rdF (Reg.clmSvcfg k) 14 8
  1000000 * (if k = 15 ∧ p = 0 then 100 else p)

/-- TO × PER in ns (16 R742): a TO of 0 is taken as 3. -/
def svLimit (s : Chip) (k : Nat) : Nat :=
  let t := s.rdF (Reg.clmSvcfg k) 19 16
  (if t = 0 then 3 else t) * svPer s k

/-- HOLD in ns (16 R742): a field of 0 is taken as 2 s. -/
def svHold (s : Chip) (k : Nat) : Nat :=
  let h := s.rdF (Reg.clmSvcfg k) 29 20
  100000000 * (if h = 0 then 20 else h)

/-- The state of a supervisor (16 R745): 0 ABSENT, 1 PENDING, 2 LIVE, 3 FAILED. -/
def svState (s : Chip) (k : Nat) : Nat := s.rdF (Reg.clmSvstat k) 18 16

/-- A supervisor's state replaced; PATHALM clears when LIVE is left (16 R745). -/
def setSvState (s : Chip) (k x : Nat) : Chip :=
  let s1 := s.wrF (Reg.clmSvstat k) 18 16 x
  if x = 2 then s1 else s1.wrBit (Reg.clmSvstat k) 21 false

/-- The record of a supervisor. -/
def svOf (s : Chip) (k : Nat) : Sv := Tab.get Sv.zero s.hst.sv k

/-- A supervisor's record replaced. -/
def setSv (s : Chip) (k : Nat) (v : Sv) : Chip := { s with hst := { s.hst with sv := Tab.set Sv.zero s.hst.sv k v } }

/-- Path 1 or 2 of a supervisor is up. -/
def pathUp (s : Chip) (k p : Nat) : Bool := s.rdBit (Reg.clmSvstat k) (18 + p)

/-- Every path of a supervisor is up (16 R744): SV15 has one. -/
def allPaths (s : Chip) (k : Nat) : Bool := pathUp s k 1 && (k == 15 || pathUp s k 2)

/-- A path of a supervisor is up. -/
def anyPath (s : Chip) (k : Nat) : Bool := pathUp s k 1 || (k != 15 && pathUp s k 2)

/-- SAF_STAT.MAINTSEL. -/
def maintSel (s : Chip) : Bool := s.rdBit Reg.safStat 8

/-- The ceiling of a home port (16 R746). -/
def svCeiling (s : Chip) (k : Nat) : Nat :=
  match svHome s k with
  | 0 => 0xE000
  | 1 => 0xC000
  | _ => if maintSel s then 0xFFFF else 0x2000

/-- The requested claim. -/
def svRequest (s : Chip) (k : Nat) : Nat := s.rdF (Reg.clmSvstat k) 15 0

/-- The effective claim (16 R746). -/
def svEffective (s : Chip) (k : Nat) : Nat := min (svRequest s k) (svCeiling s k)

/-- The active holder, as CLM_STAT shows it. -/
def claimHolder (s : Chip) : Option Nat :=
  if s.rdBit Reg.clmStat 20 then .some (s.rdF Reg.clmStat 19 16) else .none

/-- Supervisor a wins over b (16 R747): the higher effective claim, then the present holder, then the claim that took its value earlier,
then the lower number. -/
def claimBefore (s : Chip) (a b : Nat) : Bool :=
  if svEffective s a ≠ svEffective s b then decide (svEffective s a > svEffective s b)
  else if claimHolder s = .some a then true
  else if claimHolder s = .some b then false
  else if (svOf s a).reqAt ≠ (svOf s b).reqAt then decide ((svOf s a).reqAt < (svOf s b).reqAt)
  else decide (a < b)

/-- The LIVE supervisors with an effective claim above 0. -/
def claimants (s : Chip) : List Nat :=
  (List.range 16).filter (fun k => svPresent s k && svState s k == 2 && decide (svEffective s k > 0))

/-- The supervisor that R747 makes the active holder. -/
def bestClaim (s : Chip) : Option Nat :=
  (claimants s).foldl (fun (best : Option Nat) k => match best with
    | .none => .some k
    | .some b => if claimBefore s k b then .some k else .some b) .none

/-- The exit by which the previous holder leaves the CLAIM ledger (19 R851): counter of ledger 7, and its code in the incident log. -/
def claimExit (s : Chip) (k : Nat) : Nat × Nat :=
  if svState s k = 3 then (2, 1)
  else if s.books.swapOut.contains k then (5, 2)
  else if svRequest s k = 0 then (1, 3)
  else (3, 4)

/-- The gate instant at phase 9,500 (02 R103, R105, 19 R851): a change of holder takes effect, with its ledger entries, its log entry and
odometer slot 35. DESIGN CHOICE (notes/assumptions/65.md). -/
def gateInstant (s : Chip) : Chip :=
  let old := s.store.gateHolder
  let new := claimHolder s
  let s1 := if old = new then s
    else
      let code := match new with
        | .some k => k
        | .none => 0xFFFF
      let exit := match old with
        | .some k => claimExit s k
        | .none => (15, 0)
      let s2 := (gateChange s new).logEvent 6 code exit.2
      let s3 := if old.isSome then s2.led 7 exit.1 1 else s2
      let s4 := if new.isSome then s3.led 7 0 1 else s3
      s4.odoInc 35 1
  let s5 := s1.ledSub 7 4 (s1.ledGet 7 4)
  let s6 := s5.led 7 4 (b2n new.isSome)
  { s6 with
    books := { s6.books with swapOut := [] }
    store := { s6.store with gateDone := true } }

/-- The gate instant of this tick, if its phase has come and it has not passed (02 R103): it precedes every write and every decision of the
claim logic at phase 9,500 or later. -/
def gateDue (s : Chip) : Chip := if 9500 ≤ s.tb.phase && !s.store.gateDone && s.booted then gateInstant s else s

/-- The claim logic decides afresh (16 R747): a change of holder is counted and flagged; CLM_STAT follows.
DEDUCED (notes/assumptions/51.md). -/
def decideHolder (s : Chip) : Chip :=
  let new := bestClaim s
  let s1 := if new = claimHolder s then s else (s.bump Reg.clmChgcnt).clmFlag 0
  match new with
  | .none => s1.wr Reg.clmStat 0
  | .some k => s1.wr Reg.clmStat (wn (svEffective s1 k + 2 ^ 16 * k + 2 ^ 20))

/-- A supervisor becomes LIVE (16 R745). -/
def makeLive (s : Chip) (k : Nat) : Chip := (setSvState s k 2).clmFlag 3

/-- The claim logic after a change (16 R745, R747): while no supervisor is the active holder, a PENDING one becomes LIVE at once.
DEDUCED (notes/assumptions/51.md). -/
def claimLogic (s : Chip) : Chip :=
  let s1 := decideHolder (gateDue s)
  if (claimHolder s1).isSome then s1
  else decideHolder ((List.range 16).foldl (fun (x : Chip) k => if svState x k = 1 then makeLive x k else x) s1)

/-- The claim logic after a change of the island: it decides afresh where MAINTSEL has changed (16 R747).
DEDUCED (notes/assumptions/51.md). -/
def maintFollow (old new : Chip) : Chip := if maintSel old == maintSel new then new else claimLogic new

/-- A heartbeat on a path (16 R744, R745). SV15's timer counts from the end of the time in which it stands still (R749). -/
def heartbeat (s : Chip) (k p : Nat) : Chip :=
  let now := if k = 15 then max s.nowNs (s.hst.svStill.getD 0) else s.nowNs
  let v := svOf s k
  let s1 := setSv (s.wrBit (Reg.clmSvstat k) (18 + p) true) k
    (if p = 1 then { v with last1 := now } else { v with last2 := now })
  if !allPaths s1 k then s1
  else if svState s1 k = 2 then s1.wrBit (Reg.clmSvstat k) 21 false
  else if svState s1 k = 1 then s1
  else
    let v1 := svOf s1 k
    claimLogic (setSvState (setSv s1 k { v1 with pendAt := s1.nowNs, was := svState s1 k }) k 1)

/-- A path goes down (16 R745). -/
def pathDown (s : Chip) (k p : Nat) : Chip :=
  let s1 := s.wrBit (Reg.clmSvstat k) (18 + p) false
  if svState s1 k = 1 then claimLogic (setSvState s1 k (svOf s1 k).was)
  else if svState s1 k ≠ 2 then s1
  else if anyPath s1 k then
    if s1.rdBit (Reg.clmSvstat k) 21 then s1
    else ((s1.wrBit (Reg.clmSvstat k) 21 true).bump Reg.clmPathalmcnt).clmFlag 1
  else claimLogic (((setSvState s1 k 3).bump Reg.clmFailcnt).clmFlag 2)

/-- The timeout of a path (16 R744): TO × PER after its last heartbeat. SV15's timer stands still from the reset of CORE until one PER
after its release (R749). -/
def pathTimeout (s : Chip) (k p : Nat) : Chip :=
  let last := if p = 1 then (svOf s k).last1 else (svOf s k).last2
  if !pathUp s k p ∨ s.nowNs < last + svLimit s k ∨ (k = 15 ∧ s.rst.inCore) then s
  else pathDown s k p

/-- HOLD has run with every path up (16 R745). -/
def holdExpiry (s : Chip) (k : Nat) : Chip :=
  if svState s k = 1 ∧ s.nowNs ≥ (svOf s k).pendAt + svHold s k then claimLogic (makeLive s k) else s

/-- The supervisor a tool-LAN sender is (16 R743). -/
def svByMac (s : Chip) (mac : Nat) : Option Nat :=
  (List.range 15).find? (fun k => svPresent s k && svMac s k == mac)

/-- The supervisor with home H0 (16 R742, R743). -/
def svHomeH0 (s : Chip) : Option Nat :=
  (List.range 15).find? (fun k => svPresent s k && svHome s k == 0)

/-- The supervisor a sender is attributed to (16 R743): SRC 10 H0, 11 the tool LAN by its MAC, 12 H3. -/
def svOfSender (s : Chip) (src mac : Nat) : Option Nat :=
  if src = 10 then svHomeH0 s
  else if src = 11 then svByMac s mac
  else if src = 12 then .some 15
  else .none

/-- A copy of an HBEAT frame arrives on TLA (`b` false) or TLB from a MAC (16 R744). -/
def lanHeartbeat (s : Chip) (mac : Nat) (b : Bool) : Chip :=
  match svByMac s mac with
  | .none => s
  | .some k => heartbeat s k (if svHome s k = 0 then 2 else if b then 2 else 1)

/-- A path-1 heartbeat of the home-H0 supervisor (16 R744). -/
def h0Heartbeat (s : Chip) : Chip :=
  match svHomeH0 s with
  | .none => s
  | .some k => heartbeat s k 1

/-- SV15's timer stops at the reset of CORE (16 R749). Within one PER of the last release it still stands, and goes on standing. -/
def svHalt (s : Chip) : Chip :=
  { s with hst := { s.hst with svStill := .some (max s.nowNs (s.hst.svStill.getD 0)) } }

/-- CORE is released: SV15's timer goes on one PER later (16 R749). -/
def svRelease (s : Chip) : Chip :=
  let on := s.nowNs + svPer s 15
  let v := svOf s 15
  let from0 := s.hst.svStill.getD s.nowNs
  let s1 := { s with hst := { s.hst with svStill := .some on } }
  setSv s1 15 { v with last1 := v.last1 + (on - from0) }

end Sys2Proof.Machine
end

