-- ==== Sys2Proof/Machine/Sha.lean ====
section
/-!
DEFINITION. SHA-256 over byte lists, which hashes images, manifests, consists and keys (16 R754–R756, 18 R806). PRESUMED
(notes/assumptions/25.md).
-/

namespace Sys2Proof.Machine

/-- The round constants, eight to a number, constant `r` at bits 32 (r mod 8) of number r / 8: the fractions of the cube roots of the first
64 primes. -/
def shaFractions : List Nat := [
  0xAB1C5ED5923F82A459F111F13956C25BE9B5DBA5B5C0FBCF71374491428A2F98,
  0xC19BF1749BDC06A780DEB1FE72BE5D74550C7DC3243185BE12835B01D807AA98,
  0x76F988DA5CB0A9DC4A7484AA2DE92C6F240CA1CC0FC19DC6EFBE4786E49B69C1,
  0x1429296706CA6351D5A79147C6E00BF3BF597FC7B00327C8A831C66D983E5152,
  0x92722C8581C2C92E766A0ABB650A735453380D134D2C6DFC2E1B213827B70A85,
  0x106AA070F40E3585D6990624D192E819C76C51A3C24B8B70A81A664BA2BFE8A1,
  0x682E6FF35B9CCA4F4ED8AA4A391C0CB334B0BCB52748774C1E376C0819A4C116,
  0xC67178F2BEF9A3F7A4506CEB90BEFFFA8CC7020884C8781478A5636F748F82EE]

/-- The starting words, word i at bit 32 i: the fractions of the square roots of the first 8 primes. -/
def shaStart : Nat :=
  0x5BE0CD191F83D9AB9B05688C510E527FA54FF53A3C6EF372BB67AE856A09E667

/-- Word `i` of a number. -/
def wordOf (n i : Nat) : Word := wn (n >>> (32 * i))

/-- Exclusive or of three turns of a word. -/
def turns (x : Word) (i j k : Nat) : Word := x.rotateRight i ^^^ x.rotateRight j ^^^ x.rotateRight k

/-- The word that enters a window of sixteen schedule words, oldest first. -/
def shaEnter (m : List Word) : Word :=
  let near := m.getD 1 0
  let far := m.getD 14 0
  m.getD 0 0 + m.getD 9 0 + (near.rotateRight 7 ^^^ near.rotateRight 18 ^^^ near >>> 3) +
    (far.rotateRight 17 ^^^ far.rotateRight 19 ^^^ far >>> 10)

/-- Round `r` with the schedule word `w`: the eight working words move on by one place. -/
def shaMix (r : Nat) (w : Word) : List Word → List Word
  | [a, b, c, d, e, f, g, h] =>
    let t := w + wordOf (shaFractions.getD (r / 8) 0) (r % 8) + h + turns e 6 11 25 + (g ^^^ (e &&& (f ^^^ g)))
    [t + turns a 2 13 22 + (a &&& b ||| c &&& (a ||| b)), a, b, c, d + t, e, f, g]
  | x => x

/-- `n` rounds from round `r` on over a rolling window. -/
def shaRun : Nat → Nat → List Word → List Word → List Word
  | 0, _, _, x => x
  | n + 1, r, m, x => shaRun n (r + 1) (m.drop 1 ++ [shaEnter m]) (shaMix r (m.getD 0 0) x)

/-- The hash so far takes a block of 64 bytes. -/
def shaTake (x : List Word) (bs : List Byte) : List Word :=
  List.zipWith (· + ·) x (shaRun 64 0 ((List.range 16).map (fun i => wn (ofBe ((bs.drop (4 * i)).take 4)))) x)

/-- The hash takes `n` blocks. -/
def shaFold : Nat → List Word → List Byte → List Word
  | 0, x, _ => x
  | n + 1, x, bs => shaFold n (shaTake x (bs.take 64)) (bs.drop 64)

/-- SHA-256 of a byte list, 32 bytes. PRESUMED (notes/assumptions/25.md). -/
def sha256 (bs : List Byte) : List Byte :=
  let whole := bs ++ 0x80 :: (bytesOf ((119 - bs.length % 64) % 64) 0 ++ beBytes 8 (8 * bs.length))
  (shaFold (whole.length / 64) ((List.range 8).map (wordOf shaStart)) whole).flatMap (fun w => beBytes 4 w.toNat)

end Sys2Proof.Machine
end

