-- ==== Sys2Proof/Machine/Consist.lean ====
section
/-!
DEFINITION. The consist image (18 R803–R821): its sections and records, what they declare, and the memory image words they write.
-/

namespace Sys2Proof.Machine

/-- A section of a consist: its index in the section table, TYPE, OFFSET, LENGTH, SCRC and bytes (18 R807). -/
structure Sect where
  idx : Nat
  type : Nat
  off : Nat
  len : Nat
  crc : Nat
  bytes : List Byte
  deriving DecidableEq, Repr

/-- A consist image with its section table. -/
structure Cst where
  img : List Byte
  secs : List Sect
  deriving DecidableEq, Repr

/-- Pieces of n bytes, at most `fuel` of them. -/
def chunks (n : Nat) : Nat → List Byte → List (List Byte)
  | 0, _ => []
  | fuel + 1, bs => if bs.length < n ∨ n = 0 then [] else bs.take n :: chunks n fuel (bs.drop n)

/-- The section table of an image (18 R807). -/
def sectTable (img : List Byte) : List Sect :=
  (List.range (leAt img 7 1)).map (fun i =>
    let e := sliceB img (7920 + 16 * i) 16
    ⟨i, leAt e 0 2, leAt e 4 4, leAt e 8 4, leAt e 12 4, sliceB img (leAt e 4 4) (leAt e 8 4)⟩)

/-- An image read as a consist. -/
def parseCst (img : List Byte) : Cst := ⟨img, sectTable img⟩

/-- The section of a type. -/
def Cst.sect (c : Cst) (t : Nat) : Option Sect := c.secs.find? (fun x => x.type == t)

/-- The bytes of a section, none where it is absent. -/
def Cst.bytes (c : Cst) (t : Nat) : List Byte := match c.sect t with
  | .some x => x.bytes
  | .none => []

/-- The table index of a section; 0 where it is absent. -/
def Cst.idx (c : Cst) (t : Nat) : Nat := match c.sect t with
  | .some x => x.idx
  | .none => 0

/-- The records of n bytes of a section, with their numbers. -/
def Cst.recs (c : Cst) (t n : Nat) : List (List Byte × Nat) :=
  let b := c.bytes t
  (chunks n (b.length / max n 1) b).zipIdx

/-- VERSION, CSTID, KEYIDX and PUBKEY of the header (18 R804). -/
def Cst.version (c : Cst) : Nat := leAt c.img 8 4
def Cst.cstid (c : Cst) : Nat := leAt c.img 16 4
def Cst.keyidx (c : Cst) : Nat := leAt c.img 6 1
def Cst.pubkey (c : Cst) : List Byte := sliceB c.img 32 32

/-- TTVER of the TIMETABLE header (18 R815). -/
def Cst.ttver (c : Cst) : Nat := leAt (c.bytes 4) 0 4

/-- An image record (18 R818): its address, its words, and whether its padding, reserved bits and ranges are as the rule says. -/
structure ImgRec where
  addr : Nat
  words : List Word
  ok : Bool
  deriving DecidableEq, Repr

/-- The words of a byte list. -/
def wordsOf : Nat → List Byte → List Word
  | 0, _ => []
  | n + 1, bs => wn (ofLe (bs.take 4)) :: wordsOf n (bs.drop 4)

/-- The image records of a section; none where the bytes are not a whole number of records (18 R808, R818). -/
def imgRecs : Nat → List Byte → Option (List ImgRec)
  | 0, bs => if bs.isEmpty then .some [] else .none
  | fuel + 1, bs =>
    if bs.isEmpty then .some []
    else
      let w1 := leAt bs 4 4
      let nw := w1 / 65536
      let size := (8 + 4 * nw + 7) / 8 * 8
      if bs.length < size then .none
      else
        let a := leAt bs 0 4
        let r : ImgRec :=
          { addr := a + 2 ^ 32 * (w1 % 256)
            words := wordsOf nw (bs.drop 8)
            ok := a % 4 == 0 && w1 / 256 % 256 == 0 && decide (1 ≤ nw) && decide (nw ≤ 16384) &&
              ((bs.take size).drop (8 + 4 * nw)).all (· == 0) }
        (imgRecs fuel (bs.drop size)).map (r :: ·)

/-- The types whose sections hold image records (18 R809). -/
def imageTypes : List Nat := [7, 8, 9, 10, 14, 15]

/-- The image records of a section by type. -/
def Cst.images (c : Cst) (t : Nat) : List (ImgRec × Nat) :=
  let b := c.bytes t
  ((imgRecs (b.length / 8 + 1) b).getD []).zipIdx

/-- One word that the consist images: address, value, section index, record. -/
structure ImgWord where
  addr : Nat
  val : Word
  sec : Nat
  idx : Nat
  deriving DecidableEq, Repr

/-- Every word that the consist images, in order. -/
def Cst.words (c : Cst) : List ImgWord :=
  imageTypes.flatMap (fun t => (c.images t).flatMap (fun r =>
    r.1.words.zipIdx.map (fun w => ⟨r.1.addr + 4 * w.2, w.1, c.idx t, r.2⟩)))

/-- The section and record that image an address; 0 and 0 where none does. -/
def Cst.placeOf (c : Cst) (a : Nat) : Nat × Nat := match c.words.find? (fun w => w.addr == a) with
  | .some w => (w.sec, w.idx)
  | .none => (0, 0)

/-- The bits of a word that an image may set (18 R818): the fields whose Cold column reads "consist", and the tables of CAN and converter
windows; none for an address that holds no such word. -/
def imgMask (a : Nat) : Option Nat :=
  match splitAddr a with
  | .none => .none
  | .some (b, _, o) =>
    if a % 4 ≠ 0 then .none
    else match rowOf a with
      | .some r => .some r.img
      | .none =>
        if b = 18 ∧ canTableMask o ≠ 0 then .some (canTableMask o)
        else if b = 20 ∧ 0x400 ≤ o ∧ o < 0x600 then .some (if o % 8 = 0 then 0x8003FFFF else 0xFF03FF)
        else .none

/-- The registers of the SYSTEM section (18 R819). -/
def systemRegs : List Nat :=
  [Reg.sysTbctl, Reg.sysRstcfg, Reg.ewnMailcfg, Reg.ewnSurvcfg, Reg.memSscrub, Reg.memDscrcfg, Reg.memDscrlo, Reg.memDscrhi] ++
    (List.range 8).map Reg.corSeqwdcfg ++ (List.range 2).map Reg.corSupwdcfg

/-- The tool-LAN registers of the PORTS section (18 R819). -/
def portRegs : List Nat := [Reg.tlnCtl, Reg.tlnEtype, Reg.tlnAlmmaclo, Reg.tlnAlmmachi, Reg.tlnPtpcfg]

/-- The ranges of 18 R819, by section type. -/
def imgAllowed (t a : Nat) : Bool :=
  (imgMask a).isSome && match splitAddr a with
  | .none => false
  | .some (b, _, o) =>
    if t = 7 then b == 18
    else if t = 8 then b == 19
    else if t = 9 then b == 20
    else if t = 10 then b == 11 && decide (0x1000 ≤ o) && decide (o < 0x4000)
    else if t = 14 then portRegs.contains a || (b == 10 && decide (0x100 ≤ o) && decide (o < 0x200) && o % 16 != 12)
    else if t = 15 then systemRegs.contains a
    else false

/-- A SIGNALS record (18 R811). -/
structure SigRec where
  first : Nat
  count : Nat
  attr : Word
  stale : Nat
  init : Int
  lo : Int
  hi : Int
  meta0 : Nat
  deriving DecidableEq, Repr

/-- A SIGNALS record read from its bytes. -/
def sigRec (b : List Byte) : SigRec :=
  ⟨leAt b 0 4, leAt b 4 4, wn (leAt b 8 4), leAt b 12 4, s32 (wn (leAt b 16 4)), s32 (wn (leAt b 20 4)), s32 (wn (leAt b 24 4)), leAt b 28 4⟩

/-- The SIGNALS records with their numbers. -/
def Cst.signals (c : Cst) : List (SigRec × Nat) := (c.recs 1 32).map (fun r => (sigRec r.1, r.2))

/-- The SLOTS records: LID, the 32 words, the number (18 R814). -/
def Cst.slots (c : Cst) : List (Nat × List Word × Nat) :=
  (c.recs 3 132).map (fun r => (leAt r.1 0 2, wordsOf 32 (r.1.drop 4), r.2))

/-- KIND and OWNER of each compartment (18 R815). -/
def Cst.comps (c : Cst) : List (CompCfg × Nat) :=
  let b := c.bytes 4
  ((chunks 4 (leAt b 6 2) (b.drop 16)).map (fun e => (⟨leAt e 0 1, leAt e 1 1⟩ : CompCfg))).zipIdx

/-- A seat of a SEATS record as its one node holds it (18 R816). -/
def seatRec (b : List Byte) : Seat :=
  let fmt := leAt b 3 1
  let w := fmt % 4
  { comp := leAt b 0 2, offset := leAt b 2 1, w := if w = 0 then 1 else if w = 1 then 2 else 4, signed := natBit fmt 2, stat := natBit fmt 3
    m := leAt b 4 2 % 16, q := leAt b 4 2 / 16 % 1024, loc := leAt b 6 2, sid := leAt b 8 4 % 2 ^ 18, nodes := [leAt b 12 1] }

/-- Two records describe the same seat of a compartment, as two nodes hold it (06 R268). -/
def sameSeat (a b : Seat) : Bool :=
  !a.nodes.any b.nodes.contains && (!a.stat || a.loc == b.loc) && a.comp == b.comp && a.offset == b.offset && a.w == b.w && a.signed == b.signed && a.stat == b.stat && a.m == b.m && a.q == b.q && a.sid == b.sid

/-- Seats with the nodes of every record of the same seat. -/
def mergeSeat (l : List Seat) (x : Seat) : List Seat :=
  if l.any (sameSeat x) then l.map (fun y => if sameSeat x y then { y with nodes := y.nodes ++ x.nodes } else y) else l ++ [x]

/-- The seats of the timetable, each with the nodes that hold it. -/
def Cst.seats (c : Cst) : List Seat := ((c.recs 5 16).map (fun r => seatRec r.1)).foldl mergeSeat []

/-- The seat descriptors of node d, in the order of its records (18 R816). -/
def Cst.descriptors (c : Cst) (d : Nat) : List (List Byte) :=
  ((c.recs 5 16).filter (fun r => leAt r.1 12 1 == d)).map (fun r => r.1.take 8)

/-- The NODES records by address (18 R817). -/
def Cst.nodes (c : Cst) : List (Nat × NodeCfg × Nat) :=
  (c.recs 6 32).map (fun r => (leAt r.1 0 1,
    { rb := leAt r.1 1 1, rdy := leAt r.1 2 2, lossLo := leAt r.1 4 2, lossHi := leAt r.1 6 2, vendor := leAt r.1 8 4, product := leAt r.1 12 4
      dloA := leAt r.1 16 4, dhiA := leAt r.1 20 4, dloB := leAt r.1 24 4, dhiB := leAt r.1 28 4 }, r.2))

/-- The safety profiles by PROFILE (18 R821). -/
def Cst.profiles (c : Cst) : List (Nat × List Byte × Nat) :=
  (c.recs 13 2064).map (fun r => (leAt r.1 0 1, r.1.drop 16, r.2))

/-- The value imaged at an address, or its cold value. -/
def imgVal (ws : List ImgWord) (a : Nat) : Word := match ws.find? (fun w => w.addr == a) with
  | .some w => w.val
  | .none => regCold a

/-- A SID that a channel names: SID, kind 0 CAN, 1 feedback, 2 converter, unit, and the address that names it. -/
structure ChanName where
  sid : Nat
  kind : Nat
  unit : Nat
  addr : Nat
  deriving DecidableEq, Repr

/-- Extraction entries of channel n that a filter with ACTION 2 or 3 uses (08 R358, R362). -/
def usedExtracts (ws : List ImgWord) (n : Nat) : List Nat :=
  let vs := (List.range 128).map (fun f => imgVal ws (canBase n + 0x1008 + 16 * f))
  let used := (vs.filter (fun v => decide (2 ≤ fld v 5 4))).map (fun v => (fld v 15 8, fld v 20 16))
  (List.range 256).filter (fun i => used.any (fun u => decide (u.1 ≤ i) && decide (i < u.1 + u.2)))

/-- Every SID that a converter entry, a feedback channel or an extraction entry names (18 R812). -/
def chanNames (ws : List ImgWord) : List ChanName :=
  let adc := ws.filterMap (fun w => match splitAddr w.addr with
    | .some (20, k, o) => if 0x400 ≤ o ∧ o < 0x600 ∧ o % 8 = 0 ∧ bit w.val 31 then .some (⟨fld w.val 17 0, 2, k, w.addr⟩ : ChanName) else .none
    | .some (19, n, o) => if (o = 0x10 ∨ o = 0x14) ∧ bit w.val 31 then .some ⟨fld w.val 17 0, 1, n, w.addr⟩ else .none
    | _ => .none)
  adc ++ (List.range 8).flatMap (fun n => (usedExtracts ws n).map (fun i =>
    ⟨fld (imgVal ws (canBase n + 0x7000 + 8 * i)) 17 0, 0, n, canBase n + 0x7000 + 8 * i⟩))

/-- OUTSID of each slot record: SID and LID. -/
def slotNames (c : Cst) : List (Nat × Nat) := c.slots.map (fun r => (fld (r.2.1.getD 5 0) 17 0, r.1))

/-- SIDs that value seats of IN and SAFE-U compartments name. -/
def seatNames (c : Cst) : List Nat :=
  (c.seats.filter (fun x => !x.stat && match c.comps[x.comp]? with
    | .some e => e.1.kind == 2 || e.1.kind == 4
    | .none => false)).map (·.sid)

/-- The producer of a SID of a SIGNALS record (18 R812). -/
def producerOf (chans : List ChanName) (slots : List (Nat × Nat)) (r : SigRec) (sid : Nat) : Producer :=
  match fld r.attr 1 0 with
  | 0 => .seat
  | 1 => .slot (match slots.find? (fun e => e.1 == sid) with
    | .some e => e.2
    | .none => 4096)
  | 2 => match chans.find? (fun e => e.sid == sid) with
    | .some e => .chan e.kind e.unit
    | .none => .chan 3 0
  | _ => .p3 (bit r.attr 2) (bit r.attr 3) (bit r.attr 4)

/-- The declarations of a consist (18 R811). -/
def Cst.decls (c : Cst) : Tab SidDecl :=
  let chans := chanNames c.words
  let slots := slotNames c
  c.signals.flatMap (fun r =>
    let x := r.1
    (List.range (min x.count (2 ^ 18))).map (fun i =>
      let sid := x.first + i
      (sid, { producer := producerOf chans slots x sid, isOut := bit x.attr 5, guard := bit x.attr 6, limit := x.stale % 65536
              initial := x.init, fallback := x.init, lo := x.lo, hi := x.hi, lossFallback := bit x.attr 7, fgrp := fld x.attr 11 8 })))

end Sys2Proof.Machine
end

