-- ==== Sys2Proof/Machine/Slh.lean ====
section
/-!
DEFINITION. SLH-DSA over SHA-256 (16 R755, R759, R760, 18 R805): key generation, the deterministic pure signature with an empty context, and
its verification. The spec names the parameter sets; the scheme is that of FIPS 205. PRESUMED (notes/assumptions/25.md).
-/

namespace Sys2Proof.Machine

/-- A parameter set: the height of a tree and the number of layers, the height and the number of the FORS trees. -/
structure SlhSet where
  height : Nat
  layers : Nat
  forsHeight : Nat
  forsTrees : Nat
  deriving DecidableEq, Repr

/-- SLH-DSA-SHA2-128s: signatures of 7,856 bytes. PRESUMED (notes/assumptions/25.md). -/
def slh128s : SlhSet := ⟨9, 7, 12, 14⟩

/-- SLH-DSA-SHA2-128f: signatures of 17,088 bytes. PRESUMED (notes/assumptions/25.md). -/
def slh128f : SlhSet := ⟨3, 22, 6, 33⟩

/-- Where a hash is taken: the layer, the tree, the kind of hash, and its three words. -/
structure SlhPlace where
  layer : Nat
  tree : Nat
  kind : Nat
  pair : Nat
  high : Nat
  index : Nat
  deriving DecidableEq, Repr

/-- The compressed image of a place, 22 bytes. -/
def SlhPlace.image (p : SlhPlace) : List Byte :=
  beBytes 1 p.layer ++ beBytes 8 p.tree ++ beBytes 1 p.kind ++ beBytes 4 p.pair ++ beBytes 4 p.high ++ beBytes 4 p.index

/-- The hash of a message at a place, 16 bytes: a chain step, a node of two, a list of nodes, or a secret. -/
def slhHash (seed : List Byte) (p : SlhPlace) (m : List Byte) : List Byte := (sha256 (seed ++ bytesOf 48 0 ++ p.image ++ m)).take 16

/-- Digit `i` of `b` bits of a byte string, most significant first. -/
def slhDigit (b : Nat) (x : List Byte) (i : Nat) : Nat := ofBe x / 2 ^ (8 * x.length - b * (i + 1)) % 2 ^ b

/-- `n` steps of a chain from step `j` on. -/
def slhChain (seed : List Byte) (p : SlhPlace) : Nat → Nat → List Byte → List Byte
  | 0, _, x => x
  | n + 1, j, x => slhChain seed p n (j + 1) (slhHash seed { p with index := j } x)

/-- The 35 digits of a one-time message of 16 bytes: its own 32, and their checksum. -/
def wotsDigits (m : List Byte) : List Nat :=
  let v := (List.range 32).map (slhDigit 4 m)
  let sum := 16 * v.foldl (fun c x => c + (15 - x)) 0
  v ++ (List.range 3).map (slhDigit 4 (beBytes 2 sum))

/-- The secret of chain `i` of one-time key `k`. -/
def wotsSecret (seed sk : List Byte) (layer tree k i : Nat) : List Byte := slhHash seed ⟨layer, tree, 5, k, i, 0⟩ sk

/-- The public value of a one-time key from the ends of its chains. -/
def wotsRoot (seed : List Byte) (layer tree k : Nat) (ends : List (List Byte)) : List Byte :=
  slhHash seed ⟨layer, tree, 1, k, 0, 0⟩ ends.flatten

/-- A one-time signature: every chain as far as its digit. -/
def wotsSign (seed sk : List Byte) (layer tree k : Nat) (m : List Byte) : List (List Byte) :=
  (List.range 35).map (fun i => slhChain seed ⟨layer, tree, 0, k, i, 0⟩ ((wotsDigits m).getD i 0) 0 (wotsSecret seed sk layer tree k i))

/-- The public value that a one-time signature leads to. -/
def wotsFrom (seed : List Byte) (layer tree k : Nat) (sig : List (List Byte)) (m : List Byte) : List Byte :=
  wotsRoot seed layer tree k ((List.range 35).map (fun i =>
    let d := (wotsDigits m).getD i 0
    slhChain seed ⟨layer, tree, 0, k, i, 0⟩ (15 - d) d (sig.getD i [])))

/-- Node `i` at height `z` of a tree of one-time keys. -/
def treeNode (seed sk : List Byte) (layer tree : Nat) : Nat → Nat → List Byte
  | 0, i => wotsRoot seed layer tree i ((List.range 35).map (fun c =>
      slhChain seed ⟨layer, tree, 0, i, c, 0⟩ 15 0 (wotsSecret seed sk layer tree i c)))
  | z + 1, i => slhHash seed ⟨layer, tree, 2, 0, z + 1, i⟩ (treeNode seed sk layer tree z (2 * i) ++ treeNode seed sk layer tree z (2 * i + 1))

/-- The root above leaf `i`, whose neighbours on the way up are given; `place` tells where each node stands. -/
def slhClimb (seed : List Byte) (place : Nat → Nat → SlhPlace) (i : Nat) (leaf : List Byte) (path : List (List Byte)) : List Byte :=
  (List.range path.length).foldl (fun x j =>
    let p := path.getD j []
    slhHash seed (place (j + 1) (i / 2 ^ (j + 1))) (if i / 2 ^ j % 2 = 0 then x ++ p else p ++ x)) leaf

/-- The signature of a tree's leaf over a message: the one-time signature and the path. -/
def treeSign (c : SlhSet) (seed sk : List Byte) (layer tree leaf : Nat) (m : List Byte) : List (List Byte) :=
  wotsSign seed sk layer tree leaf m ++
    (List.range c.height).map (fun j => treeNode seed sk layer tree j ((leaf / 2 ^ j) ^^^ 1))

/-- The root that a tree's signature leads to. -/
def treeFrom (seed : List Byte) (layer tree leaf : Nat) (sig : List (List Byte)) (m : List Byte) : List Byte :=
  slhClimb seed (fun z i => ⟨layer, tree, 2, 0, z, i⟩) leaf (wotsFrom seed layer tree leaf (sig.take 35) m) (sig.drop 35)

/-- The tree and the leaf at a layer, of the leaf chosen at the lowest. -/
def layerTree (c : SlhSet) (tree layer : Nat) : Nat := tree / 2 ^ (c.height * layer)
def layerLeaf (c : SlhSet) (tree leaf layer : Nat) : Nat := if layer = 0 then leaf else tree / 2 ^ (c.height * (layer - 1)) % 2 ^ c.height

/-- The signature of every layer over a message, with the root of the highest. -/
def layersSign (c : SlhSet) (seed sk : List Byte) (tree leaf : Nat) (m : List Byte) : List (List Byte) × List Byte :=
  (List.range c.layers).foldl (fun x l =>
    let s := treeSign c seed sk l (layerTree c tree l) (layerLeaf c tree leaf l) x.2
    (x.1 ++ s, treeFrom seed l (layerTree c tree l) (layerLeaf c tree leaf l) s x.2)) ([], m)

/-- The root of the highest layer that signatures of every layer lead to. -/
def layersFrom (c : SlhSet) (seed : List Byte) (tree leaf : Nat) (sig : List (List Byte)) (m : List Byte) : List Byte :=
  (List.range c.layers).foldl (fun x l =>
    treeFrom seed l (layerTree c tree l) (layerLeaf c tree leaf l) ((sig.drop ((35 + c.height) * l)).take (35 + c.height)) x) m

/-- The secret of FORS leaf `i`. -/
def forsSecret (seed sk : List Byte) (tree leaf i : Nat) : List Byte := slhHash seed ⟨0, tree, 6, leaf, 0, i⟩ sk

/-- Node `i` at height `z` of the FORS trees. -/
def forsNode (seed sk : List Byte) (tree leaf : Nat) : Nat → Nat → List Byte
  | 0, i => slhHash seed ⟨0, tree, 3, leaf, 0, i⟩ (forsSecret seed sk tree leaf i)
  | z + 1, i => slhHash seed ⟨0, tree, 3, leaf, z + 1, i⟩ (forsNode seed sk tree leaf z (2 * i) ++ forsNode seed sk tree leaf z (2 * i + 1))

/-- The FORS signature of a digest: for each tree the secret of the leaf chosen, and its path. -/
def forsSign (c : SlhSet) (seed sk : List Byte) (tree leaf : Nat) (md : List Byte) : List (List Byte) :=
  (List.range c.forsTrees).flatMap (fun i =>
    let d := slhDigit c.forsHeight md i
    forsSecret seed sk tree leaf (i * 2 ^ c.forsHeight + d) ::
      (List.range c.forsHeight).map (fun j => forsNode seed sk tree leaf j (i * 2 ^ (c.forsHeight - j) + ((d / 2 ^ j) ^^^ 1))))

/-- The FORS public value that a signature leads to. -/
def forsFrom (c : SlhSet) (seed : List Byte) (tree leaf : Nat) (sig : List (List Byte)) (md : List Byte) : List Byte :=
  slhHash seed ⟨0, tree, 4, leaf, 0, 0⟩ ((List.range c.forsTrees).flatMap (fun i =>
    let at' := i * 2 ^ c.forsHeight + slhDigit c.forsHeight md i
    let part := (sig.drop ((1 + c.forsHeight) * i)).take (1 + c.forsHeight)
    slhClimb seed (fun z k => ⟨0, tree, 3, leaf, z, k⟩) at' (slhHash seed ⟨0, tree, 3, leaf, 0, at'⟩ (part.getD 0 [])) (part.drop 1)))

/-- `n` bytes that a seed is stretched to. -/
def slhMask (x : List Byte) (n : Nat) : List Byte :=
  ((List.range (n / 32 + 1)).flatMap (fun i => sha256 (x ++ beBytes 4 i))).take n

/-- The keyed hash of a message. -/
def slhKeyed (key m : List Byte) : List Byte :=
  let k := padTo 64 key
  sha256 (k.map (· ^^^ 0x5C) ++ sha256 (k.map (· ^^^ 0x36) ++ m))

/-- What a message chooses: the FORS digest, the tree and the leaf. -/
def slhChoice (c : SlhSet) (r seed root m : List Byte) : List Byte × Nat × Nat :=
  let n1 := (c.forsTrees * c.forsHeight + 7) / 8
  let n2 := (c.height * (c.layers - 1) + 7) / 8
  let n3 := (c.height + 7) / 8
  let d := slhMask (r ++ seed ++ sha256 (r ++ seed ++ root ++ m)) (n1 + n2 + n3)
  (d.take n1, ofBe ((d.drop n1).take n2) % 2 ^ (c.height * (c.layers - 1)), ofBe (d.drop (n1 + n2)) % 2 ^ c.height)

/-- The message that a pure signature with an empty context covers. -/
def slhPure (m : List Byte) : List Byte := 0 :: 0 :: m

/-- The root of a key. -/
def slhRoot (c : SlhSet) (seed sk : List Byte) : List Byte := treeNode seed sk (c.layers - 1) 0 c.height 0

/-- The deterministic signature of a message. PRESUMED (notes/assumptions/25.md). -/
def slhSign (c : SlhSet) (seed sk prf m : List Byte) : List Byte :=
  let r := (slhKeyed prf (seed ++ slhPure m)).take 16
  let (md, tree, leaf) := slhChoice c r seed (slhRoot c seed sk) (slhPure m)
  let fors := forsSign c seed sk tree leaf md
  r ++ fors.flatten ++ (layersSign c seed sk tree leaf (forsFrom c seed tree leaf fors md)).1.flatten

/-- A byte string in pieces of 16 bytes. -/
def slhPieces (x : List Byte) : List (List Byte) := (List.range (x.length / 16)).map (fun i => (x.drop (16 * i)).take 16)

/-- A signature over a message verifies under a public key of 32 bytes. PRESUMED (notes/assumptions/25.md). -/
def slhVerify (c : SlhSet) (key m sig : List Byte) : Bool :=
  let seed := key.take 16
  let p := slhPieces sig
  let nf := c.forsTrees * (1 + c.forsHeight)
  let (md, tree, leaf) := slhChoice c (p.getD 0 []) seed (key.drop 16) (slhPure m)
  p.length == 1 + nf + c.layers * (35 + c.height) &&
    layersFrom c seed tree leaf (p.drop (1 + nf)) (forsFrom c seed tree leaf ((p.drop 1).take nf) md) == key.drop 16

end Sys2Proof.Machine
end

