-- ==== Sys2Proof/Machine/ConsCheck.lean ====
section
/-!
DEFINITION. The checks of a consist in the order of 18 R824: each gives the section and record of its first failure. The rules of the
owning blocks are read from a scratch state to which the consist has been applied.
-/

namespace Sys2Proof.Machine

/-- The lesser of two places, by section and then record. -/
def placeMin (a b : Nat × Nat) : Nat × Nat :=
  if a.1 < b.1 then a else if b.1 < a.1 then b else if a.2 ≤ b.2 then a else b

/-- The first of the places found, by section and then record. -/
def leastBad : List (Nat × Nat) → Option (Nat × Nat)
  | [] => .none
  | x :: xs => match leastBad xs with
    | .none => .some x
    | .some y => .some (placeMin x y)

/-- Items whose check fails, as places in one section. -/
def badIn (sec : Nat) (l : List (Bool × Nat)) : List (Nat × Nat) := (l.filter (fun e => !e.1)).map (fun e => (sec, e.2))

/-- A number rounded up to a multiple of 64. -/
def up64 (n : Nat) : Nat := (n + 63) / 64 * 64

/-- LENGTH is a whole number of a type's records (18 R808, R809). -/
def lenOk (x : Sect) : Bool :=
  match x.type with
  | 1 | 2 | 6 => x.len % 32 == 0
  | 3 => x.len % 132 == 0
  | 4 => decide (16 ≤ x.len) && x.len == 16 + 4 * leAt x.bytes 6 2
  | 5 => x.len % 16 == 0
  | 11 | 12 => x.len == 4096
  | 13 => x.len % 2064 == 0
  | _ => imageTypes.contains x.type && (imgRecs (x.len / 8 + 1) x.bytes).isSome

/-- One entry of the section table against the entry before it (18 R808): `last` is the end of the section before. -/
def sectOk (len last prevType : Nat) (x : Sect) : Bool :=
  decide (prevType < x.type) && decide (x.type ≤ 15) && x.off % 64 == 0 && decide (last ≤ x.off) && decide (x.off + x.len ≤ len) &&
    lenOk x && crc32c x.bytes == x.crc

/-- The section table, entry by entry. -/
def sectsBad (len : Nat) : Nat → Nat → List Sect → List (Nat × Nat)
  | _, _, [] => []
  | last, t, x :: xs => (if sectOk len last t x then [] else [(x.idx, 0)]) ++ sectsBad len (max last (x.off + x.len)) x.type xs

/-- Bytes outside the header, the signature, the table and the sections are 0 (18 R803). -/
def gapsZero (c : Cst) : Bool :=
  let start := 7920 + 16 * c.secs.length
  let ends := start :: c.secs.map (fun x => x.off + x.len)
  let starts := c.secs.map (·.off) ++ [c.img.length]
  (ends.zip starts).all (fun e => (c.img.drop e.1).take (e.2 - e.1) |>.all (· == 0))

/-- Words imaged twice, or outside the ranges of their section (18 R818, R819). -/
def wordsBad (c : Cst) : List ImgWord → List (Nat × Nat)
  | [] => []
  | w :: ws =>
    let t := match c.secs[w.sec]? with
      | .some x => x.type
      | .none => 0
    (if imgAllowed t w.addr then [] else [(w.sec, w.idx)]) ++
      ((ws.filter (fun v => v.addr == w.addr)).map (fun v => (v.sec, v.idx))) ++ wordsBad c ws

/-- Code 5, SECTION (18 R803, R808, R819). -/
def checkSection (c : Cst) : Option (Nat × Nat) :=
  match leastBad (sectsBad c.img.length (up64 (7920 + 16 * c.secs.length)) 0 c.secs) with
  | .some x => .some x
  | .none =>
    if !([1, 4, 13].all (fun t => (c.sect t).isSome)) || !gapsZero c then .some (0, 0)
    else leastBad (wordsBad c c.words)

/-- The slot records of a consist as record words. -/
def Cst.recTab (c : Cst) : Tab Word :=
  c.slots.flatMap (fun r => (r.2.1.zipIdx.filter (fun w => w.1 != 0 && decide (w.2 < 31))).map (fun w => (32 * r.1 + w.2, w.1)))

/-- Every register word of a consist: the images, the hitch table and the event map (18 R818, R820). -/
def Cst.allWords (c : Cst) : List (Nat × Word) :=
  c.words.map (fun w => (w.addr, w.val)) ++
    ((wordsOf ((c.bytes 11).length / 4) (c.bytes 11)).zipIdx.map (fun w => (Reg.dspHitch w.2, w.1))) ++
    ((wordsOf ((c.bytes 12).length / 4) (c.bytes 12)).zipIdx.map (fun w => (Reg.dspEvmap w.2, w.1)))

/-- The nodes of a profile by safe-node number (15 R678). -/
def profileNodes (p : List Byte) : List (Nat × Nat) :=
  ((List.range 16).map (fun k => (k, leAt p (120 + k) 1 % 64))).filter (fun e => e.2 != 0)

/-- Compartments of a kind, in ascending order. -/
def Cst.ofKind (c : Cst) (k : Nat) : List Nat := (c.comps.filter (fun e => e.1.kind == k)).map (·.2)

/-- Compartment and node of each SAFE-D service in any profile (15 R678). -/
def Cst.served (c : Cst) : List (Nat × Nat) :=
  c.profiles.flatMap (fun p => (profileNodes p.2.1).filterMap (fun e => ((c.ofKind 3)[e.1 / 6]?).map (fun x => (x, e.2))))

/-- The timetable of a consist in force (18 R815–R817). A node in mail keeps the RB(d) of its admission (19 R841). -/
def setTimetable (s : Chip) (c : Cst) : Chip :=
  let b := c.bytes 4
  let comps : Tab CompCfg := (c.comps.filter (fun (e : CompCfg × Nat) => e.1 != (⟨0, 0⟩ : CompCfg))).map (fun e => (e.2, e.1))
  let s1 := { s with ewn := { s.ewn with
      comps := comps
      seats := c.seats
      nodeCfg := c.nodes.foldl (fun (t : Tab NodeCfg) (n : Nat × NodeCfg × Nat) => Tab.ins (Tab.erase t n.1) n.1 n.2.1) []
      ride := leAt b 8 2 } }
  let rb := fun (x : Chip) d => if inMail x d then x else
    x.wrF (Reg.ewnNmail d) 12 8 (((Tab.get? x.ewn.nodeCfg d).map (·.rb)).getD 0)
  (((nodeNums.foldl rb s1).wr Reg.ewnTtver (wn c.ttver)).wrF Reg.ewnTtcfg 8 0 (leAt b 6 2)).wrF Reg.ewnTtcfg 15 12 (leAt b 4 1)

/-- A state in which the consist alone is in force, for the checks of the blocks' own rules. -/
def scratch (s : Chip) (c : Cst) : Chip :=
  let s1 := { s with
    regs := []
    store := { s.store with decls := c.decls, entries := [] }
    eng := { s.eng with recs := c.recTab, shq := [], dirty := [] } }
  let s2 := setTimetable s1 c
  c.allWords.foldl (fun (x : Chip) w => x.wr w.1 w.2) s2

/-- The field ranges of a SIGNALS record (18 R811); `prev` is the first SID that no earlier record declares. -/
def sigRecOk (metas prev : Nat) (r : SigRec) : Bool :=
  let port := fld r.attr 1 0
  let out := bit r.attr 5
  decide (prev ≤ r.first) && within r.count 1 262144 && decide (r.first + r.count ≤ 262144) && fld r.attr 31 12 == 0 &&
    (port == 3 || fld r.attr 4 2 == 0) && (!out || bit r.attr 6) && (out || (!bit r.attr 7 && fld r.attr 11 8 == 0)) &&
    decide (r.stale < 65536) && (if out then decide (r.lo ≤ r.hi) else r.lo == 0 && r.hi == 0) &&
    decide (r.meta0 < 65536) && (r.meta0 == 65535 || decide (r.meta0 < metas))

/-- SIGNALS records whose fields break 18 R811. -/
def signalsBad (sec metas : Nat) : Nat → List (SigRec × Nat) → List (Nat × Nat)
  | _, [] => []
  | prev, r :: rs => (if sigRecOk metas prev r.1 then [] else [(sec, r.2)]) ++ signalsBad sec metas (r.1.first + r.1.count) rs

/-- Slot records out of ascending order, or with a word that 18 R814 and 03 R140 refuse. DEDUCED (notes/assumptions/83.md). -/
def slotsBad (x : Chip) (sec : Nat) : Option Nat → List (Nat × List Word × Nat) → List (List Byte × Nat) → List (Nat × Nat)
  | _, [], _ => []
  | _, _, [] => []
  | prev, r :: rs, b :: bs =>
    let lid := r.1
    let ws := r.2.1
    let cfg := slotCfg x lid
    let reserved := (List.range 31).all (fun w => (ws.getD w 0 &&& ~~~ (wn (wordCs w + wordSh w + wordLv w))) == 0)
    let ok := (match prev with
        | .some p => decide (p < lid)
        | .none => true) && decide (lid < 4096) && leAt b.1 2 2 == 0 && ws.getD 31 0 == 0 && reserved &&
      ctlRangeOk (ws.getD 0 0) && wordRangeOk 1 (ws.getD 1 0) && (!cfg.isLocal || sidLocal x cfg.pv.sid) &&
      directRulesOk x (lid / 256) (lid % 256) && crossRulesOk x lid
    (if ok then [] else [(sec, r.2.2)]) ++ slotsBad x sec (.some lid) rs bs

/-- The ranges of the fields of a register that depend on its own value alone (08 R391, 09 R423, R435, 11 R504, R521, R530). A stream's VEC
below 6 is refused under code 13 (16 R711, R824). -/
def fieldRangeOk (b o : Nat) (v : Word) : Bool :=
  match b with
  | 18 =>
    if o = 0x38 then decide (fld v 3 0 ≤ 10) && decide (fld v 16 8 ≤ 256)
    else if 0x1000 ≤ o ∧ o < 0x1800 ∧ o % 16 = 8 then decide (fld v 20 16 ≤ 16)
    else if 0x7000 ≤ o ∧ o < 0x7800 ∧ o % 8 = 0 then decide (fld v 27 26 ≠ 3)
    else true
  | 19 => if o = 0 then decide (fld v 3 1 ≤ 2) else decide (o < 0x100) || o % 32 != 0 || fld v 5 4 != 3
  | 11 =>
    if 0x1000 ≤ o ∧ o < 0x2000 then
      if o % 64 = 0x0C then decide (0 ≤ s32 v)
      else if o % 64 = 0x14 then decide (fld v 20 16 ≤ 20)
      else if o % 64 = 0x20 then decide (fld v 31 30 ≤ 1)
      else true
    else if 0x2000 ≤ o ∧ o < 0x3000 ∧ o % 64 = 0 then decide (fld v 2 0 ≤ 5)
    else if 0x3000 ≤ o ∧ o < 0x4000 ∧ o % 64 = 8 then decide (16 ≤ fld v 4 0)
    else true
  | _ => true

/-- An imaged word keeps the cold value outside its consist fields, and its own field ranges (18 R818). -/
def imgWordOk (x : Chip) (w : ImgWord) : Bool :=
  let m := (imgMask w.addr).getD 0
  let cold := (w.val &&& ~~~ (wn m)) == (regCold w.addr &&& ~~~ (wn m))
  let range := match splitAddr w.addr with
    | .some (b, _, o) => fieldRangeOk b o w.val
    | .none => true
  cold && range && match splitAddr w.addr with
    | .some (19, n, o) => if o = 4 then x.rdF (Reg.fbCtl n) 3 1 != 2 || serOk w.val else if o = 12 then serreqOk w.val else true
    | .some (20, k, o) => if o = 0 then decide (fld w.val 14 8 ≤ 64) && (!bit w.val 0 || decide (1 ≤ fld w.val 14 8))
        else if 0x1000 ≤ o ∧ o % 64 = 0 then !bit w.val 0 || pwmRates.contains (x.rdF (Reg.adcPwmctl k ((o - 0x1000) / 64)) 22 16) else true
    | .some (11, _, o) => if o < 0x2000 ∧ o % 64 = 0 then !bit w.val 0 || enableSetCheck x ((o - 0x1000) / 64) != 2 else true
    | _ => true

/-- A hitch table entry (12 R575) and an event map entry (12 R576, 18 R820). -/
def hitchWordOk (v : Word) : Bool := decide (v.toNat < 32) && decide (fld v 3 2 ≠ 3)
def evmapWordOk (x : Chip) (v : Word) : Bool := fld v 31 16 == 0 && !bit v 14 && (!bit v 15 || x.rdBit (Reg.dspHitch (fld v 9 0)) 0)

/-- Code 6, RECORD (18 R811–R820, 03 R140). DEDUCED (notes/assumptions/54.md). -/
def checkRecord (x : Chip) (c : Cst) : Option (Nat × Nat) :=
  leastBad (signalsBad (c.idx 1) (c.recs 2 32).length 0 c.signals ++
    slotsBad x (c.idx 3) .none c.slots (c.recs 3 132) ++
    imageTypes.flatMap (fun t => badIn (c.idx t) ((c.images t).map (fun r => (r.1.ok, r.2)))) ++
    (c.words.filter (fun w => !imgWordOk x w)).map (fun w => (w.sec, w.idx)) ++
    badIn (c.idx 11) ((wordsOf ((c.bytes 11).length / 4) (c.bytes 11)).zipIdx.map (fun w => (hitchWordOk w.1, 0))) ++
    badIn (c.idx 12) ((wordsOf ((c.bytes 12).length / 4) (c.bytes 12)).zipIdx.map (fun w => (evmapWordOk x w.1, 0))))

/-- How many of a list equal a number. -/
def occurs (l : List Nat) (n : Nat) : Nat := (l.filter (· == n)).length

/-- A SID is named exactly as its port asks (18 R812). -/
def namedOk (seats slots chans : List Nat) (r : SigRec) (sid : Nat) : Bool :=
  let p := fld r.attr 1 0
  occurs seats sid == b2n (p == 0) && occurs slots sid == b2n (p == 1) && occurs chans sid == b2n (p == 2) && (p != 3 || fld r.attr 4 2 != 0)

/-- Code 7, PRODUCER (18 R812, 03 R140). -/
def checkProducer (x : Chip) (c : Cst) : Option (Nat × Nat) :=
  let chans := chanNames c.words
  let cn := chans.map (·.sid)
  let sn := (slotNames c).map (·.1)
  leastBad (badIn (c.idx 1) (c.signals.map (fun r =>
      ((List.range r.1.count).all (fun i => namedOk (seatNames c) sn cn r.1 (r.1.first + i)), r.2))) ++
    badIn (c.idx 3) (c.slots.map (fun r =>
      ([1, 2, 3, 4, 5].all (fun w => wordProducerOk x r.1 w (r.2.1.getD w 0)), r.2.2))) ++
    (chans.filter (fun n => match Tab.get? x.store.decls n.sid with
      | .some d => d.producer != .chan n.kind n.unit
      | .none => true)).map (fun n => c.placeOf n.addr))

/-- Code 8, BUDGET (03 R148, 11 R492): a slot of a tile with a load entry above 64, an enabled set beyond the ceilings.
DEDUCED (notes/assumptions/83.md). -/
def checkBudget (x : Chip) (c : Cst) : Option (Nat × Nat) :=
  leastBad (badIn (c.idx 3) (c.slots.map (fun r => (!(slotCfg x r.1).en || budgetOk x r.1, r.2.2))) ++
    (if ceilSum x 14 [] > 240000 ∨ ceilSum x 15 [] > 120000 then (enabledSets x).map (fun i => c.placeOf (Reg.recSetcfg i)) else []))

/-- The delay condition of 06 R269 at the end of a compartment; delays in units of 0.125 ns. -/
def outTimeOk (comp delay : Nat) : Bool := decide (2 * (4352 + 2048 * comp) + 25 * delay ≤ 1760000)

/-- The ready condition of 06 R269 at the start of a compartment. -/
def inTimeOk (comp delay rdy : Nat) : Bool := decide (2 * (2304 + 2048 * comp) + 25 * delay ≥ 200 * rdy)

/-- The NODES record of an address. -/
def Cst.node (c : Cst) (d : Nat) : Option NodeCfg := (c.nodes.find? (fun n => n.1 == d)).map (·.2.1)

/-- Two seats of one compartment whose bytes overlap are never due in the same tick (06 R268). -/
def seatsApart (a b : Seat) : Bool :=
  a.comp != b.comp || apart a.offset a.w b.offset b.w || a.q % 2 ^ min a.m b.m != b.q % 2 ^ min a.m b.m

/-- The reserved bits and ranges of a SEATS record (18 R816, 06 R263). -/
def seatBytesOk (b : List Byte) : Bool :=
  let fmt := leAt b 3 1
  let stat := natBit fmt 3
  decide (leAt b 0 2 < 512) && decide (fmt < 16) && fmt % 4 != 3 && decide (leAt b 4 2 < 2 ^ 14) && (!stat || decide (leAt b 6 2 < 256)) &&
    decide (leAt b 8 4 % 2 ^ 31 < 2 ^ 18) && natBit (leAt b 8 4) 31 == stat && within (leAt b 12 1) 1 62 && zeroAt b 13 3

/-- The place of a seat in its compartment, its holder and its SID (06 R268). -/
def seatPlaceOk (x : Chip) (c : Cst) (ttj : Nat) (y : Seat) : Bool :=
  match c.comps[y.comp]? with
  | .none => false
  | .some (cfg, _) =>
    let within' := match cfg.kind with
      | 1 => decide (y.offset + y.w ≤ 60)
      | 2 => decide (y.offset + y.w ≤ 56)
      | 4 => decide (8 ≤ y.offset) && decide (y.offset + y.w ≤ 48)
      | _ => false
    let stat := !y.stat || (cfg.kind % 2 == 0 && y.w == 1 &&
      c.seats.any (fun z => !z.stat && z.comp == y.comp && z.offset == y.loc % 256 && z.m == y.m && z.q == y.q))
    let sid := y.stat || (match Tab.get? x.store.decls y.sid with
      | .some d => cfg.kind == 1 || d.producer == .seat
      | .none => false)
    decide (y.m ≤ ttj) && decide (y.q < 2 ^ y.m) && within' && (cfg.kind == 1 || y.nodes.all (· == cfg.owner)) && stat && sid

/-- Each node of a seat, and the owner of its compartment, has a NODES record whose delays meet 06 R269. -/
def compTimeOk (c : Cst) (k : Nat) (cfg : CompCfg) : Bool :=
  let meets := fun d (f : NodeCfg → Bool) => match c.node d with
    | .some n => f n
    | .none => false
  let outs := if cfg.kind = 1 then (c.seats.filter (fun y => y.comp == k)).flatMap (·.nodes)
    else if cfg.kind = 3 then (c.served.filter (fun e => e.1 == k)).map (·.2) else []
  outs.all (fun d => meets d (fun n => outTimeOk k n.dhiA && outTimeOk k n.dhiB)) &&
    (cfg.kind % 2 == 1 || cfg.kind == 0 || meets cfg.owner (fun n => inTimeOk k n.dloA n.rdy && inTimeOk k n.dloB n.rdy))

/-- The ranges of a NODES record (18 R817). -/
def nodeRecOk (b : List Byte) : Bool :=
  within (leAt b 0 1) 1 62 && within (leAt b 1 1) 1 16 && decide (leAt b 2 2 ≤ 8000) && decide (8 ≤ leAt b 4 2) && decide (8 ≤ leAt b 6 2)

/-- Code 9, TIMETABLE (06 R268, R269, 18 R815–R817). A record of the TIMETABLE section is a compartment entry.
DEDUCED (notes/assumptions/54.md). -/
def checkTimetable (x : Chip) (c : Cst) : Option (Nat × Nat) :=
  let h := c.bytes 4
  let ttj := leAt h 4 1
  let headOk := decide (leAt h 6 2 ≤ 400) && decide (ttj ≤ 10) && leAt h 5 1 == 0 && within (leAt h 8 2) 1 500 && zeroAt h 10 6
  let compOk := fun (e : List Byte × Nat) =>
    let kind := leAt e.1 0 1
    let owner := leAt e.1 1 1
    decide (kind ≤ 4) && (if kind = 2 ∨ kind = 4 then within owner 1 62 else owner == 0) && zeroAt e.1 2 2
  let seats := (c.recs 5 16).map (fun r => (seatRec r.1, r))
  leastBad ((if headOk then [] else [(c.idx 4, 0)]) ++
    badIn (c.idx 4) (((chunks 4 (leAt h 6 2) (h.drop 16)).zipIdx).map (fun e => (compOk e, e.2))) ++
    badIn (c.idx 4) (c.comps.map (fun e => (compTimeOk c e.2 e.1, e.2))) ++
    badIn (c.idx 5) (seats.map (fun r => (seatBytesOk r.2.1 && seatPlaceOk x c ttj r.1 && (c.node (leAt r.2.1 12 1)).isSome &&
      seats.all (fun y => y.2.2 == r.2.2 || sameSeat y.1 r.1 || seatsApart r.1 y.1), r.2.2))) ++
    badIn (c.idx 6) ((c.recs 6 32).map (fun r => (nodeRecOk r.1 && occurs (c.nodes.map (·.1)) (leAt r.1 0 1) == 1, r.2))))

/-- Addresses of imaged words that the rules of a channel refuse (08 R356, R375). -/
def canWordOk (x : Chip) (w : ImgWord) : Bool :=
  match splitAddr w.addr with
  | .some (18, n, o) =>
    if w.addr = Reg.canBtime n then btimeOk w.val
    else if w.addr = Reg.canDtime n then dtimeOk w.val
    else if 0x6000 ≤ o then true
    else canTableCheck x n o w.val == 0
  | _ => true

/-- Schedule entries in use that 08 R375 refuses, whether an image writes them or not, by the address of an imaged word. -/
def canMatrixBad (x : Chip) (c : Cst) (n : Nat) : List Nat :=
  ((List.range (x.rdF (Reg.canSchcfg n) 16 8)).filter (fun i =>
    !matrixOk x n i (canWord x n (0x6000 + 8 * i)) (canWord x n (0x6004 + 8 * i)))).map (fun i =>
      ([canBase n + 0x6000 + 8 * i, canBase n + 0x6004 + 8 * i].find? (fun a => c.words.any (fun w => w.addr == a))).getD (Reg.canSchcfg n))

/-- Converter entries of a table that break 10 R447, by the address of their first word. -/
def adcBad (x : Chip) (k : Nat) : List Nat :=
  let entry := fun e => 0x11400000 + 0x20000 * k + 0x400 + 8 * e
  ((List.range (adcNent x k)).filter (fun e =>
    bit (adcWord x k e 0) 31 && feedsLocal x (fld (adcWord x k e 0) 17 0) && !entryTimely x k e)).map entry ++
  ((syncEntries x k).filter (fun e => !(runEnds x k (runFrom x k e)).all (fun p => decide (p.2 ≤ 9980)))).map entry

/-- Code 10, CHANNEL (08 R356, R375, 09 R407, 10 R447, R454, 01 R54). -/
def checkChannel (x : Chip) (c : Cst) : Option (Nat × Nat) :=
  leastBad ((c.words.filter (fun w => !canWordOk x w)).map (fun w => (w.sec, w.idx)) ++
    ((List.range 8).flatMap (canMatrixBad x c)).map c.placeOf ++
    ((List.range 32).filter (fun n => !fbStartOk x n)).map (fun n =>
      c.placeOf (if x.rdBit (Reg.fbPossid n) 31 && feedsLocal x (x.rdF (Reg.fbPossid n) 17 0) then Reg.fbPossid n else Reg.fbSpdsid n)) ++
    ((List.range 8).flatMap (adcBad x)).map c.placeOf ++
    (c.words.filter (fun w => match splitAddr w.addr with
      | .some (20, _, o) => decide (0x1000 ≤ o) && o % 64 == 4 && !pwmSidOk x (fld w.val 17 0)
      | _ => false)).map (fun w => (w.sec, w.idx)) ++
    ((List.range 32).filter (fun n => x.rdBit (pwmCtl n) 0 && !pwmSidOk x (x.rdF (Reg.adcPwmsid (n / 4) (n % 4)) 17 0))).map
      (fun n => c.placeOf (pwmCtl n)))

/-- An extraction field of a filter that stores reaches beyond data byte 55 on a channel with a SID that is recorded raw (11 R478). -/
def rawExtractBad (x : Chip) (ws : List ImgWord) : List Nat :=
  let fields := (chanNames ws).filter (fun n => n.kind == 0)
  let raw := (List.range 64).filter (fun i => bit (setCfg x i) 3 && bit (setCfg x i) 9 && !bit (setCfg x i) 2)
  fields.filterMap (fun n =>
    let start := fld (imgVal ws (n.addr + 4)) 5 0
    let bytes := fieldBytes (fld (imgVal ws n.addr) 27 26)
    let recorded := fields.any (fun m => m.unit == n.unit && raw.any (fun i => inSet x i m.sid))
    if recorded ∧ start + bytes > 56 then .some n.addr else .none)

/-- Code 11, RECORDER (11 R478, R481, R485, R494). -/
def checkRecorder (x : Chip) (c : Cst) : Option (Nat × Nat) :=
  leastBad ((rawExtractBad x c.words).map c.placeOf ++
    (((List.range 64).filter (memoryBad x)) ++ (enabledSets x).filter (fun i => enableSetCheck x i == 5)).map
      (fun i => c.placeOf (Reg.recSetcfg i)))

/-- The conditions of 15 R678 on the safe nodes of a profile. -/
def safeNodesOk (c : Cst) (p : List Byte) : Bool :=
  let ns := profileNodes p
  let top := ns.foldl (fun m e => max m (e.1 + 1)) 0
  ns.all (fun e => (c.comps.filter (fun x => x.1.kind == 4 && x.1.owner == e.2)).length == 1) &&
    decide ((top + 5) / 6 ≤ (c.ofKind 3).length)

/-- Code 12, SAFETY (15 R678, 18 R821): 1 to 16 records. A section of none is reported at record 0, a longer one at record 16.
DEDUCED (notes/assumptions/54.md). -/
def checkSafety (c : Cst) : Option (Nat × Nat) :=
  leastBad (badIn (c.idx 13) ((decide (0 < (c.recs 13 2064).length), 0) :: (c.recs 13 2064).map (fun r =>
    (decide (r.2 < 16) && decide (leAt r.1 0 1 < 16) && zeroAt r.1 1 15 && profileCrcOk (r.1.drop 16) && safeNodesOk c (r.1.drop 16) &&
      occurs (c.profiles.map (·.1)) (leAt r.1 0 1) == 1, r.2))))

/-- CLM_SVkCFG within the ranges of 16 R742. -/
def svCfgOk (x : Chip) (k : Nat) : Bool :=
  let v := x.rd (Reg.clmSvcfg k)
  let per := fld v 14 8
  let tout := fld v 19 16
  let hold := fld v 29 20
  (k != 15 && !bit v 0) || ((within per 1 100 || (k == 15 && per == 0)) && tout != 1 && decide (hold ≤ 600))

/-- Code 13, PORTS (16 R711, R742). -/
def checkPorts (x : Chip) (c : Cst) : Option (Nat × Nat) :=
  let svs := (List.range 15).filter (fun k => x.rdBit (Reg.clmSvcfg k) 0)
  leastBad ((c.words.filter (fun w => match splitAddr w.addr with
      | .some (11, _, o) => decide (0x3000 ≤ o) && o % 64 == 8 && decide (fld w.val 15 8 < 6)
      | _ => false)).map (fun w => (w.sec, w.idx)) ++
    ((List.range 16).filter (fun k => !svCfgOk x k)).map (fun k => c.placeOf (Reg.clmSvcfg k)) ++
    (svs.filter (fun k => svs.any (fun j => decide (j < k) &&
      ((svHome x k == 0 && svHome x j == 0) || svMac x k == svMac x j)))).map (fun k => c.placeOf (Reg.clmSvcfg k)))

/-- The key slot of a consist or manifest: not revoked, with the use fuse `use` (0 FW, 1 CST), and KEYHASH equal to SHA-256(PUBKEY)
(16 R754, R756). DEDUCED (notes/assumptions/26.md). -/
def keyOk (s : Chip) (slot use : Nat) (pk : List Byte) : Bool :=
  let hash := (List.range 8).flatMap (fun i => leBytes 4 (s.rd (Reg.secKeyhash (8 * slot + i))).toNat)
  decide (slot < 4) && !s.rdBit Reg.secFuse slot && s.rdBit Reg.secFuse (4 + 2 * slot + use) && sha256 pk == hash

/-- Code 1, FORMAT: MAGIC, FVER, NSEC and LEN, with the length the descriptor or the staging gives. -/
def formatOk (img : List Byte) (len : Nat) : Bool :=
  leAt img 0 4 == 0x54534E43 && leAt img 4 2 == 1 && within (leAt img 7 1) 1 32 && leAt img 12 4 == len && decide (len ≤ 8388608)

/-- The signed message of a consist (18 R805). -/
def cstMessage (img : List Byte) : List Byte := img.take 64 ++ img.drop 7920

/-- The ordered checks of 18 R824: the first failure as code, section and record.
PRESUMED (notes/assumptions/25.md). DEDUCED (notes/assumptions/54.md). -/
def cstCheck (s : Chip) (img : List Byte) (len : Nat) : Option (Nat × Nat × Nat) :=
  let c := parseCst img
  let x := scratch s c
  if !formatOk img len then .some (1, 0, 0)
  else if !keyOk s c.keyidx 1 c.pubkey then .some (2, 0, 0)
  else if !within c.version (s.rdF Reg.secArb1 6 0) 64 then .some (3, 0, 0)
  else if !slhVerify slh128s c.pubkey (cstMessage img) (sliceB img 64 7856) then .some (4, 0, 0)
  else
    let steps : List (Nat × (Unit → Option (Nat × Nat))) :=
      [(5, fun _ => checkSection c), (6, fun _ => checkRecord x c), (7, fun _ => checkProducer x c), (8, fun _ => checkBudget x c),
       (9, fun _ => checkTimetable x c), (10, fun _ => checkChannel x c), (11, fun _ => checkRecorder x c),
       (12, fun _ => checkSafety c), (13, fun _ => checkPorts x c)]
    steps.foldl (fun (acc : Option (Nat × Nat × Nat)) f => match acc with
      | .some r => .some r
      | .none => (f.2 ()).map (fun p => (f.1, p.1, p.2))) .none

/-- A failure as CST_LOADERR and CST_STGERR hold it (18 R839). -/
def errWord (e : Nat × Nat × Nat) : Word := wn (e.1 * 2 ^ 24 + e.2.1 % 32 * 2 ^ 19 + e.2.2 % 2 ^ 19)

/-- The delays that R269 needs of the nodes in SEAT now, with their present delays (18 R827): the compartments that fail. -/
def presentDelaysBad (s : Chip) (c : Cst) : List (Nat × Nat) :=
  let seated := fun d => nodeState s d == 3
  let da := fun d => (s.rd (Reg.ewnNdlya d)).toNat
  let db := fun d => (s.rd (Reg.ewnNdlyb d)).toNat
  badIn (c.idx 4) (c.comps.map (fun e =>
    let k := e.2
    let outs := if e.1.kind = 1 then (c.seats.filter (fun y => y.comp == k)).flatMap (·.nodes)
      else if e.1.kind = 3 then (c.served.filter (fun z => z.1 == k)).map (·.2) else []
    let ins := e.1.kind == 2 || e.1.kind == 4
    (outs.all (fun d => !seated d || (outTimeOk k (da d) && outTimeOk k (db d))) &&
      (!ins || !seated e.1.owner || (match c.node e.1.owner with
        | .some n => inTimeOk k (da e.1.owner) n.rdy && inTimeOk k (db e.1.owner) n.rdy
        | .none => true)), k)))

/-- The checks of a staged consist (18 R827): those of R824, then SAFETY, TTVER and the present delays. -/
def stageCheck (s : Chip) (img : List Byte) (len : Nat) (running : List Byte) : Option (Nat × Nat × Nat) :=
  match cstCheck s img len with
  | .some e => .some e
  | .none =>
    let c := parseCst img
    if c.bytes 13 ≠ running then .some (12, c.idx 13, 0)
    else if c.ttver = (s.rd Reg.ewnTtver).toNat then .some (14, c.idx 4, 0)
    else (leastBad (presentDelaysBad s c)).map (fun p => (9, p.1, p.2))

end Sys2Proof.Machine
end

