-- ==== Sys2Proof/Machine/Load.lean ====
section
/-!
DEFINITION. A consist comes into force (17 R769, 18 R814–R832): register words, slots, ledgers, CLAIM_EPOCH, the persistent blocks at a
swap, and the restore of the tiles (03 R163).
-/

namespace Sys2Proof.Machine

/-- MRAM address of a consist bank (18 R825). -/
def bankAddr (b : Nat) : Nat := 0x04000000 + 0x800000 * b

/-- The bank whose consist is in force (18 R825). -/
def runBank (s : Chip) : Nat := s.rdF Reg.cstStat 1 1

/-- The image in a bank, by the LEN of its own header. -/
def bankImage (s : Chip) (b : Nat) : List Byte := s.bytes (bankAddr b) (min (leAt (s.bytes (bankAddr b) 16) 12 4) 8388608)

/-- The consist in force. -/
def consistNow (s : Chip) : Cst := parseCst (s.bytes (bankAddr (runBank s)) (s.rd Reg.cstLen).toNat)

/-- The bits of a register word that a consist sets: the bits that an image may hold, but HOME and the MAC of SV15, which read 0 whatever an
image holds (16 R764). DEDUCED (notes/assumptions/55.md). -/
def imgBits (a : Nat) : Nat :=
  let m := (imgMask a).getD 0
  if a = Reg.clmSvcfg 15 then m &&& 0xFFFFFFFD
  else if a = Reg.clmSvmaclo 15 ∨ a = Reg.clmSvmachi 15 then 0
  else m

/-- A word that a consist may set: one of 18 R819, or of the hitch table or the event map (18 R820). -/
def imaged (a : Nat) : Bool :=
  imageTypes.any (fun t => imgAllowed t a) || (decide (Reg.dspHitch 0 ≤ a) && decide (a ≤ Reg.dspHitch 1023)) ||
    (decide (Reg.dspEvmap 0 ≤ a) && decide (a ≤ Reg.dspEvmap 1023))

/-- A word of a block that a warm restart does not reset: its consist bits are kept (00 R16). -/
def persistWord (a : Nat) : Bool := match rowOf a with
  | .some r => r.cons == 0
  | .none => false

/-- One word of a consist taken: the bits it sets. A TRIMSRC of 3 in an image is taken as it stands, and the trim target is then 0: 01 R39 speaks
of a write only. DEDUCED (notes/assumptions/55.md). -/
def takeImage (s : Chip) (e : Nat × Word) : Chip := s.wr e.1 (merge (s.rd e.1) e.2 (imgBits e.1))

/-- Fields that take their values from a consist return to 0 (18 R810), TLN_ETYPE to 0x88B5 (16 R724), in the words of `p`.
DESIGN CHOICE (notes/assumptions/1.md). -/
def clearImaged (p : Nat → Bool) (s : Chip) : Chip :=
  { s with regs := s.regs.filterMap (fun (e : Nat × Word) =>
      if p e.1 && imaged e.1 then
        let w := merge e.2 (regCold e.1) (imgBits e.1)
        if w = regCold e.1 then .none else .some (e.1, w)
      else .some e) }

/-- A word of a recording set (11 R520, R521), whose value stands until the consist is taken again. -/
def recSetWord (a : Nat) : Bool := decide (Reg.recSetcfg 0 ≤ a) && decide (a < Reg.recTrgcfg 0)

/-- The words `p` of a consist come into force (18 R810, R818). -/
def loadWords (p : Nat → Bool) (s : Chip) (c : Cst) : Chip :=
  (c.allWords.filter (fun e => p e.1)).foldl takeImage (clearImaged p s)

/-- LIDs whose record in a table of record words has EN = 1. -/
def enabledIn (recs : Tab Word) : List Nat := (recs.filter (fun e => e.1 % 32 == 0 && bit e.2 0)).map (fun e => e.1 / 32)

/-- An enable of a slot that waits for the first commit point at which its tile has power (18 R814, 03 R131). -/
def queueEnable (s : Chip) (lid : Nat) : Chip :=
  let t := lid / 256
  let s1 := setRecWord s lid 0 (setBit (recWord s lid 0) 0 false)
  askStart (setShq s1 t (shq s1 t ++ [.word (lid % 256) 0 1 1])) t

/-- The whole record mirror is written (13 R589, R598). -/
def touchMirror (s : Chip) : Chip := touchWords s 0x03180000 0x80000

/-- The slot records of a cold-boot load (18 R814): the record mirror with SEL = 0 and JV = 0, and each enabled slot as an enable that
comes into force at the first commit point. -/
def loadSlots (s : Chip) (c : Cst) : Chip :=
  let r := c.recTab
  let s1 := touchMirror { s with eng := { s.eng with recs := r, mirror := r, mirrorBad := [], dirty := [] } }
  let s2 := (List.range 16).foldl (fun x t => touchWords x (0x18000000 + 0x100000 * t) 0x8000) s1
  (enabledIn r).foldl queueEnable s2

/-- SHA-256 words in registers from `base` on. -/
def wrHash (s : Chip) (base : Nat) (h : List Byte) : Chip :=
  (List.range 8).foldl (fun x i => x.wr (base + 4 * i) (wn (leAt h (4 * i) 4))) s

/-- The CST registers of a consist now in force in bank `b` (18 R838, R839). -/
def noteConsist (s : Chip) (c : Cst) (b : Nat) : Chip :=
  let s1 := ((s.wr Reg.cstId (wn c.cstid)).wr Reg.cstVersion (wn (c.version % 128))).wr Reg.cstLen (wn c.img.length)
  let s2 := ((s1.wrBit Reg.cstStat 0 true).wrF Reg.cstStat 1 1 b).wr Reg.cstPcnt 0
  wrHash (s2.wr Reg.cstPcrc 0) (Reg.secCsthash 0) (sha256 c.img)

/-- Every ledger is zeroed (17 R769, 19 R853), the units that the odometer holds pending with ledger 4. -/
def zeroLedgers (s : Chip) : Chip :=
  let s1 := { s with
    books := { s.books with led := [] }
    odo := { s.odo with pend := 0, pendH := 0, write := s.odo.write.map (fun (w : SnapWrite) => { w with units := 0, unitsH := 0 }) } }
  let s2 := (List.range 64).foldl (fun x i => (x.wr (Reg.ldgTrgin i) 0).wr (Reg.ldgTrgact i) 0) s1
  ((((s2.wr Reg.ldgFailcnt 0).wr Reg.ldgNoderef 0).wr Reg.ldgLogshed 0).wr Reg.ldgLogskip 0)

/-- MRAM address of epoch slot i (17 R771). -/
def epochAddr (i : Nat) : Nat := 0x05C00000 + 16 * i

/-- The EPOCH of a slot, if the slot is valid (17 R771). -/
def epochSlot (s : Chip) (i : Nat) : Option Nat :=
  let b := s.bytes (epochAddr i) 16
  let e := leAt b 0 4
  if leAt b 4 4 = 2 ^ 32 - 1 - e ∧ leAt b 12 4 = crc32c (b.take 12) then .some e else .none

/-- The 16 bytes of an epoch slot (17 R771). -/
def epochBytes (e : Nat) : List Byte :=
  let b := leBytes 4 e ++ leBytes 4 (2 ^ 32 - 1 - e) ++ leBytes 4 0
  b ++ leBytes 4 (crc32c b)

/-- The valid slot with the highest EPOCH: slot and EPOCH. -/
def newestEpoch (s : Chip) : Option (Nat × Nat) :=
  (List.range 8).foldl (fun (acc : Option (Nat × Nat)) i => match epochSlot s i, acc with
    | .none, a => a
    | .some e, .none => .some (i, e)
    | .some e, .some a => if e > a.2 then .some (i, e) else .some a) .none

/-- CLAIM_EPOCH is raised and written (17 R771). -/
def raiseEpoch (s : Chip) : Chip :=
  match newestEpoch s with
  | .some (i, e) =>
    let e' := (e + 1) % 2 ^ 32
    (s.putBytes (epochAddr ((i + 1) % 8)) (epochBytes e')).wr Reg.sysEpoch (wn e')
  | .none =>
    let s1 := ((s.putBytes (epochAddr 0) (epochBytes 1)).wr Reg.sysEpoch 1).wrBit Reg.sysStat 2 true
    (s1.flag Reg.sysEvt Reg.sysEvten 3 3).fault 0x27 0

/-- The safety profiles of a consist for the island, and the nodes it serves (15 R669, R678). -/
def loadProfiles (s : Chip) (c : Cst) : Chip :=
  let t := c.profiles.foldl (fun (t : Tab (List Byte)) (p : Nat × List Byte × Nat) => Tab.ins (Tab.erase t p.1) p.1 p.2.1) []
  { s with isl := { s.isl with profiles := t, serves := c.served.map (fun (e : Nat × Nat) => e.2) } }

/-- The load at cold boot (17 R769, 18 R825): every section to its block, the ledgers zeroed, CLAIM_EPOCH raised, the tool-LAN bypass
opened (16 R722), tiles with enabled slots started. -/
def loadConsist (s : Chip) : Chip :=
  let c := parseCst (bankImage s 0)
  let s1 := loadWords (fun _ => true) (loadDecls s c.decls) c
  let s2 := noteConsist (loadSlots (setTimetable s1 c) c) c 0
  armAuto (loadProfiles ((raiseEpoch (zeroLedgers s2)).wrBit Reg.tlnStat 2 false) c)

/-- Block 0, SYS, which no swap changes: it is in AON (18 R830). DEDUCED (notes/assumptions/55.md). -/
def isSys (a : Nat) : Bool := decide (0x10000000 ≤ a) && decide (a < 0x10100000)

/-- Supervisors after a swap (18 R832): one whose words have changed becomes ABSENT with requested claim 0, and the holder is decided anew. -/
def swapSupervisors (before s : Chip) : Chip :=
  let changed := (List.range 16).filter (fun k =>
    before.rd (Reg.clmSvcfg k) != s.rd (Reg.clmSvcfg k) || before.rd (Reg.clmSvmaclo k) != s.rd (Reg.clmSvmaclo k) ||
      before.rd (Reg.clmSvmachi k) != s.rd (Reg.clmSvmachi k))
  let s1 := changed.foldl (fun x k => setSv (x.wr (Reg.clmSvstat k) 0) k Sv.zero) s
  claimLogic { s1 with books := { s1.books with swapOut := s1.books.swapOut ++ changed } }

/-- Recording sets after a swap (18 R832): positions and states return to 0, ledger counters stay. -/
def swapSets (s : Chip) : Chip :=
  (List.range 64).foldl (fun x i =>
    let y := (((x.wr (Reg.recSetstat i) 0).wr (Reg.recSetpos i) 0).wr (Reg.recSetold i) 0).wr (Reg.recSettpos i) 0
    setRec ((y.wr (Reg.recSetprec i) 0).wr (Reg.recStrprod i) 0) i RecSet.zero) s

/-- The persistent blocks take the new consist of a swap (18 R830), at the first tick boundary after the reset of CORE: the coach that leaves
now carries 0 in its OUT seats, and a PWM output whose ON is 0 there is inactive (10 R458). The timetable follows at the coach cut of the resume. DEDUCED (notes/assumptions/55.md). -/
def swapPersist (s : Chip) : Chip :=
  let b := 1 - runBank s
  let c := parseCst (s.bytes (bankAddr b) (s.rd Reg.cstStglen).toNat)
  let p := fun a => (persistWord a && !isSys a) || recSetWord a
  let s1 := loadWords p (loadDecls s c.decls) c
  let s2 := swapSets (swapSupervisors s s1)
  let safe := fun (k : Nat) => (Tab.get ⟨0, 0⟩ s.ewn.comps k).kind == 3
  let s3 := { s2 with
    eng := { s2.eng with mirror := c.recTab, mirrorBad := [], journalBad := [] }
    ewn := { s2.ewn with next := s2.ewn.next.map (fun (co : Coach) => { co with body := co.body.filter (fun e => safe e.1) }) }
    pins := { s2.pins with pwm := s2.pins.pwm.filter (fun e => s2.rdBit (pwmCtl e.1) 0) }
    rst := { s2.rst with swapped := true } }
  noteConsist (touchMirror s3) c b

/-- A mirror record that cannot be corrected (03 R163): the slot takes its record of the consist with EN 0, and is lost. -/
def restoreLost (c : Cst) (s : Chip) (lid : Nat) : Chip :=
  let old := s.eng.recs.filter (fun e => e.1 / 32 != lid)
  let mine := c.recTab.filter (fun e => e.1 / 32 == lid)
  let recs := mine.foldl (fun t e => Tab.set 0 t e.1 e.2) old
  let s1 := { s with eng := { s.eng with recs := recs } }
  let s2 := setRecWord s1 lid 0 (setBit (recWord s1 lid 0) 0 false)
  let m := (List.range 31).foldl (fun t w => Tab.set 0 t (32 * lid + w) (recWord s2 lid w)) s2.eng.mirror
  lostSlot (touchWords { s2 with eng := { s2.eng with mirror := Tab.set 0 m (32 * lid + 31) 0 } } (mirrorAt lid) 128) lid

/-- The restore reads `n` bytes of a record (13 R592): the Poermun, and whether it is uncorrectable, by damage met before or, where `bad` says
so, by damage that this read is the first to meet, and the bits in which each byte was read differently. -/
def readRecord (s : Chip) (at0 n : Nat) (bad : Bool) : Chip × Bool × List Nat :=
  let r := readSpan s 13 at0 n
  (if bad && r.cls != 2 then noteRead r.chip 2 at0 13 3 else r.chip, bad || r.cls == 2, r.errs)

/-- One enabled slot is restored (03 R163): from its journal record, or initialised as an entry from OFF.
DEDUCED (notes/assumptions/76.md). -/
def restoreOne (journalBad : List Nat) (s : Chip) (lid : Nat) : Chip :=
  let again := fun (x : Chip) => if tilePowered x (lid / 256) then { x with eng := { x.eng with initNext := x.eng.initNext ++ [lid] } }
    else queueEnable x lid
  if !mirrorBit s lid 1 then again s
  else
    let j := 2 * lid + b2n (mirrorBit s lid 0)
    let r := readRecord s (journalAt lid (j % 2)) 32 (journalBad.contains j)
    if r.2.1 then again (lostSlot r.1 lid)
    else restoreSlot r.1 lid ((Tab.get JRec.zero s.eng.journal j).asRead r.2.2)

/-- The slots with damage in their mirror record, by LID. -/
def damagedMirrors (s : Chip) : List Nat :=
  (s.memu.flips.filter (fun (e : Nat × Nat) => decide (0x03180000 ≤ e.1) && decide (e.1 < 0x03200000))).map (fun e => (e.1 - 0x03180000) / 128)

/-- The record of a slot as the words of its mirror record were read (13 R588, R590). -/
def recordRead (s : Chip) (lid : Nat) (errs : List Nat) : Chip :=
  if errs.all (· == 0) then s
  else { s with eng := { s.eng with
    recs := (List.range 31).foldl (fun t w => Tab.set 0 t (32 * lid + w) (wordAs errs (4 * w) (recWord s lid w))) s.eng.recs } }

/-- One slot is restored from its mirror record, if that can be read (03 R163). -/
def restoreMirror (c : Cst) (mirrorBad journalBad : List Nat) (s : Chip) (lid : Nat) : Chip :=
  let r := readRecord s (mirrorAt lid) 128 (mirrorBad.contains lid)
  if r.2.1 then restoreLost c r.1 lid
  else
    let s1 := recordRead r.1 lid r.2.2
    if bit (recWord s1 lid 0) 0 then restoreOne journalBad s1 lid else s1

/-- The restore of every tile, slot by slot in ascending order (03 R163), from the record mirror and the journal; `mirrorBad` and `journalBad` are the records found
uncorrectable, by LID and by 2 × LID + set. DEDUCED (notes/assumptions/75.md). -/
def restoreTiles (s : Chip) (c : Cst) (mirrorBad journalBad : List Nat) : Chip :=
  let s0 := { s with eng := { s.eng with
      recs := s.eng.mirror.filter (fun e => e.1 % 32 != 31), dirty := [], initNext := []
      slots := s.eng.slots.filterMap (fun e => if e.2.heldSub then .some (e.1, { SlotState.zero with heldSub := true }) else .none) } }
  let s1 := (List.range 16).foldl (fun x t => touchWords x (0x18000000 + 0x100000 * t) 0xC000) s0
  let on := enabledIn s1.eng.recs
  let more := (mirrorBad.filter (fun l => decide (l < 4096)) ++ damagedMirrors s1).eraseDups
  (sortBy (fun a b => decide (a ≤ b)) (on ++ more.filter (fun l => !on.contains l))).foldl (restoreMirror c mirrorBad journalBad) s1

/-- A word of the MSI-X table (16 R711, R761). -/
def msixWord (a : Nat) : Bool := decide (0x10808000 ≤ a) && decide (a < 0x10808400)

/-- CORE's registers at a warm restart (00 R16): bits kept stay, every other bit takes its warm value or 0, and the words of block RAMs
in CORE are 0 (13 R603). The MSI-X table is in PERSIST and kept (16 R761). Recording sets keep their configuration until the consist is taken
again: the tap goes on counting (11 R514). -/
def warmRegs (s : Chip) : Chip :=
  { s with regs := s.regs.filterMap (fun (e : Nat × Word) =>
      match rowOf e.1 with
      | .some r =>
        let w := (e.2 &&& wn (if recSetWord e.1 then r.keep ||| r.cons else r.keep)) ||| wn r.warm
        if w = regCold e.1 then .none else .some (e.1, w)
      | .none => if msixWord e.1 then .some e else .none) }

/-- The consist is applied to the CORE blocks (17 R778). -/
def reloadCore (s : Chip) (c : Cst) : Chip := canStart (loadWords (fun a => !persistWord a) s c)

/-- Channels, converters and units start with the release of CORE: CAN by its own integration, the recorder with the sets and units that
the consist enables (08 R381, 09 R399, 10 R448, 11 R497, R505). -/
def startRecorder (s : Chip) : Chip :=
  let s1 := (enabledSets (recRunning s)).foldl (fun x i =>
    let y := startSet x i
    let z := if bit (setCfg y i) 15 then strRunning y i else y
    if bit (setCfg z i) 1 then armSet z i else z) (recRunning s)
  syncCeil s1

/-- Converters with ON = 1 start a pass (10 R448, R450). -/
def startConverters (s : Chip) : Chip :=
  (List.range 8).foldl (fun x k => if x.rdBit (Reg.adcCtl k) 0 then startPass x k x.nowNs else x) s

/-- Feedback channels with ON = 1 start at the end of a cold boot (09 R399). -/
def startFeedback (s : Chip) : Chip :=
  (List.range 32).foldl (fun x n => if x.rdBit (Reg.fbCtl n) 0 then fbStart x n 0 true else x) s

end Sys2Proof.Machine
end

