-- ==== Sys2Proof/Machine/Boot.lean ====
section
/-!
DEFINITION. Cold reset and the cold sequence of 17 R767–R774 with the boot ROM of 16 R754–R757.
-/

namespace Sys2Proof.Machine

/-- Cold reset of every domain (00 R7, 16 R722, 20 R877): MRAM, the boot flash and the fuses keep their contents, volatile memory holds
arbitrary bytes afterwards (13 R602), and host memory is not the Poermun's. DESIGN CHOICE (notes/assumptions/3.md). -/
def coldState (s : Chip) : Chip :=
  let r := Chip.reset
  { r with
    mem := s.mem.filter (fun (e : Host.Cell) => keepsCold e.1)
    fills := s.fills.filter (fun (f : MemFill) => keepsCold f.lo)
    hostMem := s.hostMem
    memu := { r.memu with colds := s.memu.colds + 1 }
    hst := { r.hst with fuses := s.hst.fuses, vbus := s.hst.vbus }
    pwr := { r.pwr with
      aonLow := s.pwr.aonLow, porst := s.pwr.porst, hold := s.pwr.hold, banks := s.pwr.banks, safeMv := s.pwr.safeMv }
    draws := s.draws }

/-- The Poermun enters cold reset: the island enters SAFE with fault COLD (15 R696), and its supervisor then holds it in RESET (15 R662). -/
def coldReset (s : Chip) : Chip := coldState (islFault s 15 0)

/-- A fuse word as it stands now (16 R754): as manufactured, or as blown since. DEDUCED (notes/assumptions/26.md). -/
def fuseNow (s : Chip) (a : Nat) : Word := (Tab.get? s.hst.fuses a).getD (Config.fuseWord a)

/-- A fuse word's bits in the register that shows it. -/
def loadFuse (s : Chip) (a mask : Nat) : Chip := s.wr a (fuseNow s a &&& wn mask)

/-- The halves SK.seed and SK.prf of the attestation key (16 R759). -/
def attestSecret (s : Chip) : List Byte := sha256 (1 :: s.hst.secret)

/-- PK.seed of the attestation key (16 R759). -/
def attestSeed (s : Chip) : List Byte := (sha256 (2 :: s.hst.secret)).take 16

/-- The attestation public key (16 R759): PK.seed and the root that follows from it and SK.seed. -/
def attestKey (s : Chip) : List Byte := attestSeed s ++ slhRoot slh128f (attestSeed s) ((attestSecret s).take 16)

/-- The signature of a quote (16 R760). -/
def quoteSign (s : Chip) (q : List Byte) : List Byte :=
  slhSign slh128f (attestSeed s) ((attestSecret s).take 16) ((attestSecret s).drop 16) q

/-- The fuses are loaded into the AON shadow registers (17 R769, 16 R765) and, where no window shows them, into AON alone (16 R729, R754): the
attestation key follows from the secret (16 R759). An anti-rollback
counter is a thermometer count from 0 to 64 (16 R754); SYS_ID takes the part's stepping (17 R801). DEDUCED (notes/assumptions/26.md). -/
def loadFuses (s : Chip) : Chip :=
  let s1 := loadFuse (loadFuse (loadFuse s Reg.secSeriallo 0xFFFFFFFF) Reg.secSerialhi 0xFFFFFFFF) Reg.secFuse 0x1FFF
  let arb := fun (x : Chip) (a : Nat) => x.wr a (wn (min (fld (fuseNow x a) 6 0) 64))
  let s2 := arb (arb s1 Reg.secArb0) Reg.secArb1
  let s3 := (List.range 32).foldl (fun x i => loadFuse x (Reg.secKeyhash i) 0xFFFFFFFF) s2
  let s4 := loadFuse (loadFuse s3 Reg.tlnMaclo 0xFFFFFFFF) Reg.tlnMachi 0xFFFF
  let s5 := s4.wrF Reg.sysId 15 8 (fld (fuseNow s4 Reg.sysId) 15 8)
  { s5 with hst := { s5.hst with secret := (List.range 32).map Config.secretByte, usbIds := Config.usbFuses } }

/-- AON leaves cold reset (17 R769): TICK counts from 0, the fuses are loaded, the tool-LAN bypass is closed (16 R722) and the island, held
in RESET, asserts every force line (15 R661, 02 R98). The engine that verifies the slots is started, and the H3 PHY where a USB host stands at
USB_VBUS (17 R783). -/
def startBoot (s : Chip) : Chip :=
  let s0 := askStart (loadFuses { s with boot := { Boot.zero with on := true } }) 24
  let s1 := if s.hst.vbus then askStart s0 25 else s0
  setForceLines (s1.wrBit Reg.tlnStat 2 true) (fld (s1.rd Reg.safOut) 15 0)

/-- The cold sequence may run: PORST_L is high, VDD_AON stands, and no internal cold reset holds the domains (17 R767, R768, R773). -/
def bootMay (s : Chip) : Bool := s.pwr.porst && !s.pwr.aonLow && s.pwr.hold.isNone && !s.boot.on

/-- PORST_L rises (17 R769): the levels of the I/O banks are sampled (20 R875). -/
def porstRising (s : Chip) (banks : BankLevels) : Chip :=
  let s1 := { s with pwr := { s.pwr with porst := true, banks := .some banks } }
  if bootMay s1 then startBoot s1 else s1

/-- PORST_L has been low for 10 µs (20 R877). -/
def porstLow (s : Chip) : Chip := coldReset { s with pwr := { s.pwr with porst := false, hold := .none } }

/-- The clock monitor finds REFCLK absent or deviating (01 R29): cold reset, whose hold and cold sequence follow as 17 R773 has them. -/
def refclkFault (s : Chip) : Chip := if s.boot.on then coldReset { s with pwr := { s.pwr with hold := .some false } } else s

/-- VDD_AON falls below 0.72 V (17 R768). -/
def vddAonLow (s : Chip) : Chip := coldReset { s with pwr := { s.pwr with aonLow := true, hold := .none } }

/-- VDD_AON has held at or above 0.75 V for 1 ms with REFCLK running (17 R768). -/
def vddAonRecovered (s : Chip) : Chip :=
  let s1 := { s with pwr := { s.pwr with aonLow := false } }
  if s.pwr.aonLow && bootMay s1 then startBoot s1 else s1

/-- The hold of an internal cold reset ends (17 R773): after 1 ms, or after THERMSD once the die reads below 140 °C; `tj` is that reading
in units of 0.25 °C. -/
def holdEnd (s : Chip) (tj : Int) : Chip :=
  match s.pwr.hold with
  | .none => s
  | .some hot =>
    if hot && decide (tj ≥ 560) then s
    else
      let s1 := { s with pwr := { s.pwr with hold := .none } }
      if bootMay s1 then startBoot s1 else s1

/-- The timebase PLL locks (01 R31); in the cold sequence the zero fill and DRAM training start (17 R769), the training once stage 4 is left
(17 R783, R790).
DESIGN CHOICE (notes/assumptions/20.md). -/
def pllLocked (s : Chip) : Chip :=
  if !s.boot.on then s
  else
    let s1 := { s with tb := { s.tb with pllLocked := true }, boot := { s.boot with pll := true } }
    if s.boot.pll ∨ 4 ≤ s.stage then s1 else askStart s1 26

/-- The timebase PLL loses lock (01 R31). -/
def pllLost (s : Chip) : Chip := { s with tb := { s.tb with pllLocked := false } }

/-- The zero fill of the cold sequence has ended (13 R603, 12 R570). -/
def zeroFillDone (s : Chip) : Chip :=
  if s.boot.pll && !s.boot.zeroed then zeroFill { s with boot := { s.boot with zeroed := true } } else s

/-- DRAM training has ended (17 R769); under stage 4 the dies are then in self-refresh (R790). -/
def dramTrained (s : Chip) : Chip :=
  if s.boot.pll && !s.boot.trained then setSelfRef { s with boot := { s.boot with trained := true } } (decide (4 ≤ s.stage)) else s

/-- MRAM address of the cold-cause record (17 R773). -/
def coldRecAddr : Nat := 0x05C00100

/-- The 16 bytes of a cold-cause record (17 R773). -/
def coldRecord (code item tick : Nat) : List Byte :=
  let b := leBytes 2 code ++ leBytes 1 item ++ leBytes 1 0 ++ leBytes 6 tick ++ leBytes 2 0
  b ++ leBytes 4 (crc32c b)

/-- SYS_RSTCAUSE takes a valid cold-cause record, and then the record is written with zeros (17 R774). -/
def takeColdCause (s : Chip) : Chip :=
  let b := s.bytes coldRecAddr 16
  if leAt b 12 4 = crc32c (b.take 12) then (s.putBytes coldRecAddr (bytesOf 16 0)).wr Reg.sysRstcause (wn (leAt b 0 3))
  else s.wr Reg.sysRstcause 0

/-- MRAM becomes readable (17 R769, R774): the odometer restore runs. The epoch record, read here, is raised at the consist load. -/
def mramReadable (s : Chip) : Chip :=
  if s.boot.on && !s.boot.mram then takeColdCause (odoRestore { s with boot := { s.boot with mram := true } }) else s

/-- `n` bytes of the boot flash. -/
def flashBytes (s : Chip) (o n : Nat) : List Byte := s.bytes (flashBase + o) n

/-- The boot manifest of a slot (16 R755). -/
def manifest (s : Chip) (k : Nat) : List Byte := flashBytes s (0x01000000 * k) 8672

/-- Descriptor i of a manifest (16 R755). -/
def imgDesc (m : List Byte) (i : Nat) : List Byte := sliceB m (48 + 48 * i) 48

/-- The size of a target in bytes (00 R22, 18 R802). -/
def targetSize (t : Nat) : Nat := if t < 10 then 0x40000 else if t = 10 then 0x1000000 else 0x800000

/-- A used descriptor's fields are in range (16 R755). -/
def descOk (d : List Byte) : Bool :=
  decide (leAt d 0 1 ≤ 11) && leAt d 1 3 == 0 && decide (leAt d 12 4 + leAt d 8 4 ≤ targetSize (leAt d 0 1))

/-- NIMG of a manifest. -/
def nimg (m : List Byte) : Nat := leAt m 7 1

/-- The targets that a manifest names. -/
def targets (m : List Byte) : List Nat := (List.range (nimg m)).map (fun i => leAt (imgDesc m i) 0 1)

/-- The fields of a manifest lie within their ranges (16 R755, R756). PRESUMED (notes/assumptions/25.md). -/
def manifestOk (m : List Byte) : Bool :=
  leAt m 0 4 == 0x464E4D50 && leAt m 4 2 == 1 && decide (leAt m 6 1 ≤ 3) && within (nimg m) 1 16 && decide (leAt m 8 4 ≤ 64) &&
    leAt m 12 4 == 0 && (List.range 16).all (fun i =>
      if i < nimg m then descOk (imgDesc m i) else leAt (imgDesc m i) 0 48 == 0) &&
    occurs (targets m) 11 == 1 && (List.range 10).all (fun t => decide (occurs (targets m) t ≤ 1))

/-- The check of a slot as a candidate (16 R756): 0, or the CAUSE of 16 R765. DEDUCED (notes/assumptions/23.md). -/
def slotCause (s : Chip) (k : Nat) : Nat :=
  let m := manifest s k
  if !manifestOk m then 1
  else if !keyOk s (leAt m 6 1) 0 (sliceB m 16 32) then 2
  else if leAt m 8 4 < s.rdF Reg.secArb0 6 0 then 4
  else if !slhVerify slh128s (sliceB m 16 32) (m.take 816) (sliceB m 816 7856) then 3
  else 0

/-- Recovery (16 R757): no slot boots. DEDUCED (notes/assumptions/23.md). -/
def recovery (s : Chip) (cause : Nat) : Chip :=
  gateIsland ((({ s with boot := { s.boot with slot := .none } }.wrF Reg.secBootstat 7 4 cause).wrBit Reg.secBootstat 8 true).wrBit
    Reg.hpcStat 8 true) 24

/-- A slot is chosen and its images are to be loaded (16 R756, R765). -/
def takeSlot (s : Chip) (k : Nat) : Chip :=
  let m := manifest s k
  let s1 := { s with boot := { s.boot with slot := .some k, images := nimg m, verified := false } }
  let s2 := ((s1.wrF Reg.secBootstat 0 0 k).wrF Reg.secBootstat 3 2 (leAt m 6 1)).wrF Reg.secBootstat 22 16 (leAt m 8 4)
  askStart (wrHash s2 (Reg.secManhash 0) (sha256 (m.take 816))) 24

/-- The ROM takes a candidate among the slots not abandoned (16 R756), or enters recovery (16 R757) with `cause` as its cause. -/
def chooseSlot (s : Chip) (cause : Nat) : Chip :=
  let ok := [0, 1].filter (fun k => !s.boot.gone.contains k && slotCause s k == 0)
  match ok with
  | [] => recovery s cause
  | [k] => takeSlot s k
  | _ => takeSlot s (if leAt (manifest s 1) 8 4 > leAt (manifest s 0) 8 4 then 1 else 0)

/-- Both manifests are checked (16 R756). Where neither slot is a candidate, CAUSE takes the larger of the two codes.
DEDUCED (notes/assumptions/23.md). -/
def manifestCheck (s : Chip) : Chip :=
  if s.boot.on && s.boot.slot.isNone && !s.rdBit Reg.secBootstat 8 then chooseSlot s (max (slotCause s 0) (slotCause s 1)) else s

/-- The slot in use is abandoned (16 R756). -/
def abandonSlot (s : Chip) (k cause : Nat) : Chip :=
  chooseSlot { s with boot := { s.boot with gone := k :: s.boot.gone, slot := .none, images := 0, verified := false } } cause

/-- The bytes of the image that a descriptor names. -/
def imgBytes (s : Chip) (d : List Byte) : List Byte := flashBytes s (leAt d 4 4) (leAt d 8 4)

/-- Where an image is loaded, if its target is a memory (16 R755). -/
def targetAddr (d : List Byte) : Option Nat :=
  let t := leAt d 0 1
  if t < 10 then .some (tcmBase t + leAt d 12 4) else if t = 10 then .some (0x01000000 + leAt d 12 4) else .none

/-- An image written to its target. -/
def placeImage (s : Chip) (d : List Byte) : Chip := match targetAddr d with
  | .some a => s.writeBytes a (imgBytes s d)
  | .none => s

/-- The image's hash equals its descriptor's. -/
def imageOk (s : Chip) (d : List Byte) : Bool := sha256 (imgBytes s d) == sliceB d 16 32

/-- An image has been loaded and hashed (16 R756). -/
def imageLoadDone (s : Chip) : Chip :=
  match s.boot.slot with
  | .none => s
  | .some k =>
    if s.boot.images = 0 ∨ !s.boot.zeroed then s
    else
      let m := manifest s k
      let d := imgDesc m (nimg m - s.boot.images)
      if imageOk s d then placeImage { s with boot := { s.boot with images := s.boot.images - 1 } } d
      else abandonSlot s k 5

/-- The descriptor of the consist of a manifest. -/
def cstDesc (m : List Byte) : List Byte :=
  (((List.range (nimg m)).map (imgDesc m)).find? (fun d => leAt d 0 1 == 11)).getD []

/-- The consist of the running slot completes its checks (18 R824, R825): a failure abandons the slot, and a consist that differs from the
copy in MRAM is written to bank 0. -/
def consistVerified (s : Chip) : Chip :=
  match s.boot.slot with
  | .none => s
  | .some k =>
    if s.boot.images ≠ 0 ∨ s.boot.verified ∨ !s.boot.mram then s
    else
      let d := cstDesc (manifest s k)
      let img := imgBytes s d
      match cstCheck s img (leAt d 8 4) with
      | .some e => abandonSlot (s.wr Reg.cstLoaderr (errWord e)) k 6
      | .none =>
        let h := sha256 img
        let s1 := wrHash { s with boot := { s.boot with verified := true } } (Reg.secCsthash 0) h
        if sha256 (bankImage s 0) == h then s1 else s1.putBytes (bankAddr 0) img

/-- The consist is applied to every block (17 R769, 18 R825), and the arrays are marked initialised (13 R603); a stage already in force sheds the CAN channels it switches off (08 R382). -/
def consistLoad (s : Chip) : Chip :=
  if s.boot.verified && s.boot.mram && s.boot.zeroed && !s.boot.loaded then
    gateIsland (canFollowStage (canStart (loadConsist { s with
      memu := { s.memu with init := true }
      boot := { s.boot with loaded := true } }))) 24
  else s

/-- The BOOT snapshot of 14 R639 is still to be completed. -/
def bootSnapOpen (s : Chip) : Bool := s.odo.waits == 5 || (match s.odo.write with
  | .some w => w.cause == 5
  | .none => false)

/-- BOOT_DONE (17 R769): the cores are released and the engines, converters and channels start. SYS_BOOTT is in µs from the start of the
cold sequence (17 R801). -/
def bootDone (s : Chip) : Chip :=
  if s.boot.loaded && s.boot.trained && s.boot.pll && odoRuns s && !bootSnapOpen s && !s.booted then
    let s1 := (s.wrBit Reg.sysStat 0 true).wr Reg.sysBoott (wn (s.nowNs / 1000))
    let s2 := releaseCores ((s1.wrBit Reg.lpeStat 0 true).wrF Reg.dspStat 2 0 (1 + 4 * b2n (decide (s.stage ≥ 3))))
    startConverters (startFeedback (startRecorder s2))
  else s

end Sys2Proof.Machine
end

