-- ==== Sys2Proof/Machine/Dma.lean ====
section
/-!
DEFINITION. The bus-master engine of H0 (16 R713–R718, 17 R780): descriptor queues, acceptance and ends.
-/

namespace Sys2Proof.Machine

/-- The accepted descriptors of a queue, oldest first. -/
def dqOf (s : Chip) (q : Nat) : List DmaDesc := Tab.get [] s.hst.dq q

/-- The accepted descriptors of a queue replaced; BUSY follows (R761). -/
def setDq (s : Chip) (q : Nat) (l : List DmaDesc) : Chip :=
  { s.wrBit (Reg.hpcDqstat q) 0 (!l.isEmpty) with hst := { s.hst with dq := Tab.set [] s.hst.dq q l } }

/-- Descriptors of a ring (R713). -/
def dqSize (s : Chip) (q : Nat) : Nat := 2 ^ s.rdF (Reg.hpcDqctl q) 4 1

/-- The local address of descriptor i of a ring (R713). -/
def dqAddr (s : Chip) (q i : Nat) : Nat :=
  (s.rd (Reg.hpcDqbaselo q)).toNat + 2 ^ 32 * s.rdF (Reg.hpcDqbasehi q) 7 0 + 32 * i

/-- A descriptor as the engine reads it from its ring (R714, 13 R590, R591). -/
def dqRead (s : Chip) (q i : Nat) : Chip × DmaDesc :=
  let (x, b, _) := readBytes s 15 (dqAddr s q i) 32
  (x, { idx := i, adr := dqAddr s q i, ctl := leAt b 0 4, len := leAt b 4 4, ladr := leAt b 8 8, hadr := leAt b 16 8, tag := leAt b 24 4
        status := leAt b 28 4, cut := false })

/-- The index of the first descriptor of a queue that is not accepted. -/
def dqNextIdx (s : Chip) (q : Nat) : Nat :=
  match (dqOf s q).getLast? with
  | .some d => (d.idx + 1) % dqSize s q
  | .none => s.rdF (Reg.hpcDqhead q) 11 0 % dqSize s q

/-- The local range of a descriptor lies in DRAM. -/
def dqInDram (d : DmaDesc) : Bool := isDram d.ladr

/-- The descriptor ends with RANGE (R716). DEDUCED (notes/assumptions/53.md). -/
def dqRangeBad (s : Chip) (d : DmaDesc) : Bool :=
  let n := d.len
  let sram := decide (0x01000000 ≤ d.ladr) && decide (d.ladr + n ≤ 0x02000000)
  let dram := decide (0x100000000 ≤ d.ladr) && decide (d.ladr + n ≤ 0x800000000)
  let resv := decide (d.ctl / 2 ^ 14 ≠ 0) || decide (d.ctl / 8 % 32 ≠ 0) || decide (n = 0) || decide (n > 16777216) ||
    decide (d.ladr ≥ 2 ^ 40) || decide (d.status / 16 ≠ 0)
  let overlaps := natBit d.ctl 0 && (List.range 64).any (fun i => s.rdBit (Reg.recSetcfg i) 0 && regionHit s d.ladr n i)
  resv || !(sram || dram) || overlaps || (natBit d.ctl 2 && decide (d.ctl / 256 % 64 < 6))

/-- The next descriptor of a queue may be accepted (R715, R718). -/
def dqMay (s : Chip) (q : Nat) : Bool :=
  s.rdBit (Reg.hpcDqctl q) 0 && decide ((dqOf s q).length < 4) &&
    dqNextIdx s q != s.rdF (Reg.hpcDqtail q) 11 0 % dqSize s q &&
    !(decide (s.rdF Reg.pwrStat 2 0 ≥ 1) && dqInDram (dqRead s q (dqNextIdx s q)).2)

/-- Descriptors accepted in all. -/
def dqTotal (s : Chip) : Nat := (List.range 8).foldl (fun n q => n + (dqOf s q).length) 0

/-- One descriptor is accepted, from the queue whose turn it is (R715); it is issued in ledger 6. -/
def dqAcceptOne (s : Chip) : Chip :=
  let order := (List.range 8).map (fun i => (s.hst.dqNext + i) % 8)
  match order.find? (dqMay s), decide (dqTotal s < 16) with
  | .some q, true =>
    let r := dqRead s q (dqNextIdx s q)
    let s1 := (setDq r.1 q (dqOf s q ++ [r.2])).led 6 0 1
    { s1 with hst := { s1.hst with dqNext := (q + 1) % 8 } }
  | _, _ => s

/-- Descriptors are accepted while the engine has room (R715). -/
def dqAccept (s : Chip) : Chip := (List.range 16).foldl (fun x _ => dqAcceptOne x) s

/-- The ledger exit of a status code (R716, 19 R850). -/
def dqExit (st : Nat) : Nat := if st = 1 then 1 else if st = 7 then 3 else 2

/-- The STATUS word of a descriptor that has ended is written, then HEAD advances past it, and its vector is signalled (R715, R717). -/
def dqPublish (s : Chip) (e : DqLate) : Chip :=
  let s1 := ((memWrite s e.adr (leBytes 4 e.status)).1).wr (Reg.hpcDqhead e.queue) (wn e.head)
  match e.vector with
  | .some v => s1.signal v
  | .none => s1

/-- The oldest descriptor of a queue ends with a status (R714–R718): the ledger, DONE, LAST, IRQ and the halt of its queue; STATUS and HEAD at
once, or, where `late`, at the release of CORE. DEDUCED (notes/assumptions/53.md). -/
def dqEnd (s : Chip) (late : Bool) (q : Nat) (d : DmaDesc) (rest : List DmaDesc) (st : Nat) : Chip :=
  let s1 := ((setDq s q rest).led 6 (dqExit st) 1).bump (Reg.hpcDqdone q)
  let v := d.ctl / 256 % 64
  let e : DqLate := ⟨d.adr + 28, st, q, (d.idx + 1) % dqSize s q, if natBit d.ctl 2 && decide (v ≥ 6) then .some v else .none⟩
  let s2 := if late then { s1 with hst := { s1.hst with dqLate := s1.hst.dqLate ++ [e] } } else dqPublish s1 e
  let s3 := s2.wr (Reg.hpcDqlast q) (wn d.tag)
  let s4 := if natBit d.ctl 1 then s3.flag Reg.hpcEvt Reg.hpcEvten 3 74 else s3
  if st = 1 ∨ st = 7 then s4
  else ((s4.wrBit (Reg.hpcDqstat q) 1 true).wrF (Reg.hpcDqstat q) 7 4 st).wrBit (Reg.hpcDqctl q) 0 false

/-- Descriptors that the reset of CORE has cut end with RESTART as soon as they are the oldest of their queue (R715, R718). -/
def dqEndCut (s : Chip) (late : Bool) (q : Nat) : Chip :=
  ((dqOf s q).takeWhile (·.cut)).foldl (fun x d => dqEnd x late q d ((dqOf x q).drop 1) 7) s

/-- A descriptor's transfer ends (R716): `st` is the code that the link gave it; one out of range ends with RANGE. `data` are the bytes that
completions have brought for DIR 1. A DIR 0 transfer whose local read meets an uncorrectable error ends with POISON (13 R591, R592), and so does a DIR 1 transfer whose write to a part
of a DRAM word is dropped for one (R608).
DEDUCED (notes/assumptions/53.md). -/
def descriptorEnd (s : Chip) (q st : Nat) (data : List Byte) : Chip :=
  match dqOf s q with
  | [] => s
  | d :: rest =>
    let ended := fun (x : Chip) (code : Nat) => dqAccept (dqEndCut (dqEnd x s.rst.inCore q d rest code) s.rst.inCore q)
    if dqRangeBad s d then ended s 8
    else if natBit d.ctl 0 then
      let w := memWrite s d.ladr (if st = 1 then padTo d.len data else data.take d.len)
      ended w.1 (if st = 1 ∧ w.2 = false then 4 else st)
    else if st = 1 then
      let r := readBytes (advanceFill s) 15 d.ladr d.len
      if r.2.2 = 2 then ended r.1 4 else ended (r.1.putHost d.hadr r.2.1) 1
    else ended (if st = 4 then noteRead s 2 d.ladr 15 (memKindAt d.ladr) else s) st

/-- A completion has not come within 50 ms (R716): only a DIR 1 descriptor waits for completions. -/
def completionTimeout (s : Chip) (q : Nat) : Chip :=
  match dqOf s q with
  | [] => s
  | d :: rest => if natBit d.ctl 0 && !dqRangeBad s d then dqAccept (dqEndCut (dqEnd s s.rst.inCore q d rest 5) s.rst.inCore q) else s

/-- Every accepted descriptor of a queue ends with a status, in ring order. -/
def dqEndAll (s : Chip) (q st : Nat) : Chip :=
  (dqOf s q).foldl (fun x d => dqEnd x s.rst.inCore q d ((dqOf x q).drop 1) (if d.cut then 7 else st)) s

/-- Every open descriptor ends with LINK (R716), which halts its queue; the queues that had none go on. -/
def dqLinkEnd (s : Chip) : Chip := dqAccept ((List.range 8).foldl (fun x q => dqEndAll x q 6) s)

/-- The H0 link is lost (R716, 20 R878): LINKUP is 0, every open descriptor ends with LINK. -/
def linkLost (s : Chip) : Chip :=
  let s1 := dqLinkEnd s
  (s1.wr Reg.hpcStat (setFld (s1.rd Reg.hpcStat) 6 0 0)).flag Reg.hpcEvt Reg.hpcEvten 2 73

/-- HPC_DQqTAIL is written (R715). -/
def dqTail (s : Chip) (q v : Nat) : Chip := dqAccept (s.wr (Reg.hpcDqtail q) (wn (v % 4096)))

/-- HPC_DQqCTL.EN is written with 1 (R716). -/
def dqEnable (s : Chip) (q : Nat) : Chip := dqAccept (s.wrBit (Reg.hpcDqctl q) 0 true)

/-- The reset of CORE (R718, 17 R780): every accepted descriptor ends with RESTART, but the oldest of a queue, as many as `onLink` names it
times: their transfers are on the link and end with their own status first. DEDUCED (notes/assumptions/53.md). -/
def dqRestartOne (onLink : List Nat) (s : Chip) (q : Nat) : Chip :=
  let l := dqOf s q
  let keep := l.take (onLink.count q)
  (dqEndCut (setDq s q (keep ++ (l.drop keep.length).map (fun d => { d with cut := true }))) true q).wrBit (Reg.hpcDqctl q) 0 false

/-- The bus-master engine at the reset of CORE (R718). -/
def dqRestart (s : Chip) (onLink : List Nat) : Chip := (List.range 8).foldl (dqRestartOne onLink) s

/-- The release of CORE (R718): the STATUS words that are owed are written, and HEAD follows. -/
def dqRelease (s : Chip) : Chip :=
  let s1 := s.hst.dqLate.foldl dqPublish s
  { s1 with hst := { s1.hst with dqLate := [] } }

end Sys2Proof.Machine
end

