-- ==== Sys2Proof/Machine/Power.lean ====
section
/-!
DEFINITION. Chapter 17 while the Poermun runs: the start governor, the supply-sag governor, the journal seal, the internal cold reset and
the faults of the platform.
-/

namespace Sys2Proof.Machine

/-- A flag of PWR_EVT (R802). -/
def Chip.pwrFlag (s : Chip) (e : Nat) : Chip := s.flag Reg.pwrEvt Reg.pwrEvten e (48 + e)

/-- Whether a start is served before another (R785, R786): among tiles that wait for power the older, otherwise by priority, then by
island number. DESIGN CHOICE (notes/assumptions/21.md). -/
def startBefore (a b : StartReq) : Bool :=
  if a.prio ≠ b.prio then decide (a.prio < b.prio)
  else if a.prio = 0 ∧ a.arrived ≠ b.arrived then decide (a.arrived < b.arrived)
  else decide (a.isl < b.isl)

/-- The start that a slot admits. DESIGN CHOICE (notes/assumptions/21.md). -/
def pickStart : List StartReq → Option StartReq
  | [] => .none
  | q :: r => match pickStart r with
    | .none => .some q
    | .some p => .some (if startBefore p q then p else q)

/-- A request that this slot has not admitted, its first since it arrived (R786). -/
def missedSlot (s : Chip) (q : StartReq) : Chip :=
  if q.late then s
  else
    let mark := fun (p : StartReq) => if p.isl == q.isl then { p with late := true } else p
    ({ s with pwr := { s.pwr with starts := s.pwr.starts.map mark } }.bump Reg.pwrGovqcnt).pwrFlag 1

/-- A start slot at phase 1,000 × k (R784–R786): one whose phase has passed, or that has admitted a start, admits none. -/
def governorSlot (s : Chip) (k : Nat) : Chip :=
  let s0 := s.atPhase (1000 * k)
  let gone := decide (1000 * k < s.tb.phase) || s0.pwr.rising.any (fun (e : Nat × Nat) => e.2 == s0.nowNs + 800)
  match pickStart s0.pwr.starts, gone with
  | .none, _ | _, true => s0
  | .some q, false =>
    let s1 := (s0.wrBit Reg.pwrIslreq q.isl false).bump Reg.pwrGovcnt
    let s2 := { s1 with pwr := { s1.pwr with
        starts := s1.pwr.starts.filter (fun (p : StartReq) => p.isl != q.isl)
        rising := s1.pwr.rising ++ [(q.isl, s1.nowNs + 800)] } }
    let s3 := s2.wr Reg.pwrGovmaxd (wn (max (s2.rd Reg.pwrGovmaxd).toNat (s2.nowNs - q.arrived)))
    s3.pwr.starts.foldl missedSlot s3

/-- A started island reports power good 800 ns after its slot began (R784), not before; a tile then shows its power (03 R168). -/
def islandPowerGood (s : Chip) (i : Nat) : Chip :=
  match s.pwr.rising.find? (fun (e : Nat × Nat) => e.1 == i) with
  | .none => s
  | .some e =>
    if !s.inTick e.2 then s
    else
      let s0 := s.atPhase (e.2 - s.tb.base)
      let s1 := { s0 with pwr := { s0.pwr with rising := s0.pwr.rising.filter (fun (e : Nat × Nat) => e.1 != i) } }
      let s2 := s1.wrBit Reg.pwrIslpwr i true
      if i < 16 then s2.wrBit (Reg.ltStat i) 0 true else s2

/-- The threshold below which samples enter stage n (R788). -/
def enterBelow : Nat → Nat
  | 1 => 940
  | 2 => 910
  | 3 => 880
  | 4 => 850
  | _ => 820

/-- The threshold above which samples leave stage n (R788). -/
def leaveAbove : Nat → Nat
  | 1 => 960
  | 2 => 930
  | 3 => 900
  | 4 => 870
  | _ => 900

/-- How long every sample lies above it (R788), in ns. -/
def leaveTime (n : Nat) : Nat := if n = 5 then 100000000 else 10000000

/-- The injections that a moment ends with a cause (05 R226), and at once the captures that follow them (R233): an evaluation already made in the
tick leaves no record. DESIGN CHOICE (notes/assumptions/88.md). -/
def endInjections (s : Chip) (cause : Nat) : Chip :=
  (List.range 16).foldl (fun x t => if x.rdBit (Reg.ltInjstat t) 0 then captureInjEnd (endInjection x t cause) t else x) s

/-- The actions of a stage on the blocks of CORE (R790), while CORE is out of reset. DESIGN CHOICE (notes/assumptions/62.md). -/
def stageCore (s : Chip) (n : Nat) : Chip :=
  if s.rst.inCore then s
  else match n with
    | 1 => endInjections (recStage s 1) 6
    | 2 => recStage s 2
    | 3 => dspSag s
    | 4 => (List.range 8).foldl canShed (recStage s 4)
    | _ => s

/-- The actions of a stage on the blocks that a warm restart does not reset (R790); `e` is what the odometer held before the entry.
DESIGN CHOICE (notes/assumptions/62.md). -/
def stagePlatform (s : Chip) (e : OdoSums) (n : Nat) : Chip := match n with
  | 3 => { s with dsp := { s.dsp with stage3 := .some s.nowNs } }
  | 4 => (gateIsland (setSelfRef s true) 26).pwrFlag 2
  | 5 =>
    let s1 := s.wrBit Reg.pwrStat 4 false
    let s2 := if !odoRuns s1 && s1.boot.mram then sealBegin s1 else finalCapture s1 e
    if s2.rdBit Reg.safStat 10 then islFault s2 14 0 else s2
  | _ => s

/-- The stage in force changes (R789, R802), and the incident log takes it (19 R858). DESIGN CHOICE (notes/assumptions/62.md). -/
def setStage (s : Chip) (n : Nat) : Chip :=
  ((s.wrF Reg.pwrStat 2 0 n).wr Reg.pwrStaget s.tick32).logEvent 2 n 0

/-- A stage is entered (R789, R790): alarm, flag, odometer and its actions. The FINAL snapshot of stage 5 leaves the increments of its own
cycle to the next (14 R631). -/
def enterStage (s : Chip) (n : Nat) : Chip :=
  let s1 := ((setStage s n).pwrFlag 0).fault (0x20 + n) 0
  let s2 := (s1.odoInc (20 + n) 1).extreme 12 true (n : Nat)
  stageCore (stagePlatform { s2 with pwr := { s2.pwr with leave := .none } } (odoSums s) n) n

/-- Stages that this sample enters, in ascending order (R789). -/
def enterStages (s : Chip) : Chip :=
  [1, 2, 3, 4, 5].foldl (fun x n =>
    if x.stage + 1 = n ∧ Tab.get 0 x.pwr.below n ≥ 4 then enterStage x n else x) s

/-- The leave timer after a sample (R789). -/
def leaveTimer (s : Chip) : Chip :=
  let n := s.stage
  if n = 0 then { s with pwr := { s.pwr with leave := .none } }
  else if s.pwr.mv ≤ leaveAbove n then { s with pwr := { s.pwr with leave := .none } }
  else { s with pwr := { s.pwr with leave := match s.pwr.leave with
      | .some t => .some t
      | .none => .some s.nowNs } }

/-- VSUP_SENSE is sampled at phase 1,000 × k (R787–R789). DESIGN CHOICE (notes/assumptions/78.md). -/
def vsupSample (s : Chip) (k mv : Nat) : Chip :=
  if !s.boot.on then s
  else
    let s0 := (s.atPhase (1000 * k)).wr Reg.pwrVsup (wn mv)
    let count := fun (t : Tab Nat) n => Tab.set 0 t n (if mv < enterBelow n then min (Tab.get 0 t n + 1) 4 else 0)
    leaveTimer (enterStages { s0 with pwr := { s0.pwr with mv := mv, below := [1, 2, 3, 4, 5].foldl count s0.pwr.below } })

/-- The actions of a stage are undone on the blocks of CORE (R790), while CORE is out of reset. -/
def unstageCore (s : Chip) (n : Nat) : Chip :=
  if s.rst.inCore then s
  else match n with
    | 1 => recUnstage s 1
    | 2 => recUnstage s 2
    | 3 => if dspRuns s then dspUnsag s else s
    | 4 => (List.range 8).foldl canUnshed (setSelfRef (recUnstage s 4) false)
    | _ => s

/-- The actions of a stage are undone on the other blocks (R777, R785, R790, 14 R648, 16 R718). -/
def unstagePlatform (s : Chip) (n : Nat) : Chip := match n with
  | 1 => dqAccept s
  | 3 => { s with dsp := { s.dsp with stage3 := .none } }
  | 4 => askStart s 26
  | 5 =>
    let s1 := { s.wrBit Reg.odoStat 5 false with odo := { s.odo with finalDue := false } }
    match s1.rst.waiting with
    | .some c => { s1 with rst := { s1.rst with waiting := .none, cause := match s1.rst.cause with
        | .some d => .some d
        | .none => .some c } }
    | .none => s1
  | _ => s

/-- The leave timer of the highest stage has run out (R789, R790). -/
def stageLeave (s : Chip) : Chip :=
  match s.pwr.leave with
  | .none => s
  | .some t =>
    let n := s.stage
    if n = 0 ∨ s.nowNs < t + leaveTime n then s
    else
      let s1 := setStage s (n - 1)
      let next := if n ≥ 2 ∧ s1.pwr.mv > leaveAbove (n - 1) then Option.some s1.nowNs else .none
      unstagePlatform (unstageCore { s1 with pwr := { s1.pwr with leave := next } } n) n

/-- The image of a step timer (12 R562). -/
def timerBytes (t : StepTimer) : List Byte :=
  leBytes 4 (t.due % 2 ^ 32) ++ leBytes 4 (t.due / 2 ^ 32 % 65536 + t.level % 8 * 2 ^ 16 + b2n t.armed * 2 ^ 23 + b2n t.wait * 2 ^ 24)

/-- The seal's data: offsets +0x1000 to +0x10_FFFF (R793), with the hitch pages as read from journal SRAM (13 R590, R591). -/
def sealData (s : Chip) (pages : List Byte) : List Byte :=
  (List.range 1024).flatMap (fun h => timerBytes (timerOf s h)) ++ bytesOf (0x10000 - 0x3000) 0 ++ pages

/-- The journal seal ends, complete or abandoned (R793). DEDUCED (notes/assumptions/61.md). -/
def sealDone (s : Chip) (good : Bool) : Chip :=
  match s.pwr.sealTick with
  | .none => s
  | .some t =>
    let s0 := { s.wrBit Reg.pwrStat 3 false with pwr := { s.pwr with sealTick := .none } }
    if good then
      let (s1, pages, _) := readBytes s0 15 (pageAddr 0) 0x100000
      let d := sealData s1 pages
      let seq := leAt (s.bytes sealAddr 4) 0 4
      let head := leBytes 4 seq ++ leBytes 6 t ++ leBytes 2 0 ++ leBytes 4 (s.rd Reg.sysEpoch).toNat ++ leBytes 4 (crc32c d) ++
        leBytes 4 seq ++ leBytes 4 0x4C414553
      ((((s1.putBytes (sealAddr + 0x1000) d).putBytes sealAddr head).wrBit Reg.pwrStat 4 true).pwrFlag 3)
    else (s0.pwrFlag 5).fault 0x29 0

/-- An internal cold reset (R773): stage 5 with its FINAL snapshot, also where a clear has held it back, and seal, the cold-cause record, and
every domain held in reset.
DESIGN CHOICE (notes/assumptions/22.md). -/
def internalCold (s : Chip) (code item : Nat) : Chip :=
  let s0 := if s.stage = 5 then s else enterStage s 5
  let s1 := if odoRuns s0 && s0.odo.finalDue then captureSnap s0 (odoSums s) 2 s0.odo.waits else s0
  let s2 := match s1.odo.write with
    | .some w => if w.fin then snapWriteDone s1 true else s1
    | .none => s1
  let s3 := sealDone s2 true
  let s4 := s3.putBytes coldRecAddr (coldRecord code item s3.tb.tick)
  coldReset { s4 with pwr := { s4.pwr with hold := .some (code == 0x14) } }

/-- A COLD fault that a command has raised takes its action (R773, R798). DESIGN CHOICE (notes/assumptions/22.md). -/
def coldAction (s : Chip) : Chip := match s.books.cold with
  | .some (code, item) => internalCold s code item
  | .none => s

/-- A monitored rail has left its limits (R768, R797): ITEM 0 VDD_CORE, 1 VDD_SD, 2 VDDA, 3 VDDQ. -/
def vmon (s : Chip) (item : Nat) : Chip := if s.boot.on then s.fault 0x13 item else s

/-- A controller-die reading above 150 °C (R768): once per rise. -/
def therm (s : Chip) : Chip :=
  if s.boot.on && s.pwr.therm then ({ s with pwr := { s.pwr with therm := false } }.fault 0x20 0).pwrFlag 4 else s

/-- A reading at or below 145 °C (R768). -/
def thermRearm (s : Chip) : Chip := { s with pwr := { s.pwr with therm := true } }

/-- A controller-die reading above 165 °C (R768). -/
def thermsd (s : Chip) : Chip := if s.boot.on then s.fault 0x14 0 else s

/-- FAULT_L is driven low (R800): before BOOT_DONE and in recovery, through a warm restart, and with PINALM while the queue holds an ALARM
entry. -/
def faultLow (s : Chip) : Bool :=
  !s.booted || s.rdBit Reg.hpcStat 8 || s.rdBit Reg.sysStat 1 ||
    (s.rdBit Reg.sysFctl 0 && s.books.faultQ.any (fun (e : FaultEntry) => e.cls == 1))

/-- SYS_FACK is written (R799, R801). -/
def sysFack (s : Chip) (v : Word) : Chip :=
  match s.books.faultQ with
  | e :: q => if bit v 0 && decide (e.cls ≤ 1) then { s with books := { s.books with faultQ := q } } else s
  | [] => s

/-- WARM_L has been low for 10 µs after being high (R775). DESIGN CHOICE (notes/assumptions/24.md). -/
def warmPin (s : Chip) : Chip := if s.booted then s.fault 4 0 else s

/-- SYS_RSTREQ is written (R775): only the key value from a core acts. DESIGN CHOICE (notes/assumptions/24.md). -/
def sysRstreq (s : Chip) (src : Nat) (v : Word) : Chip :=
  if s.booted && srcIsCore src && v == 0x5741524D then s.fault 5 src else s

end Sys2Proof.Machine
end

