-- ==== Sys2Proof/Machine/Restart.lean ====
section
/-!
DEFINITION. The warm restart (17 R775–R781) with the swap steps of 18 R830.
-/

namespace Sys2Proof.Machine

/-- H3 detaches (16 R730, R763). -/
def usbDetach (s : Chip) : Chip :=
  if s.rdBit Reg.svcStat 0 then (s.wr Reg.svcStat 0).flag Reg.svcEvt Reg.svcEvten 1 80 else s

/-- The cores halt: what a stalled core holds never happens (R778), and a core stopped under 12 R571 is in reset as the others. -/
def haltCores (s : Chip) : Chip :=
  let s1 := p3Halt ((List.range 10).foldl (fun x c => x.wrF (coreStat c) 1 0 0) s)
  { s1 with
    dsp := { s1.dsp with stalls := [], stopped := [] }
    eng := { s1.eng with waits := s1.eng.waits.filter (fun h => match h with
      | .record src _ _ _ => !srcIsCore src
      | .tune src _ _ _ => !srcIsCore src) } }

/-- T0: the sequencer accepts a restart cause (R776, R778). -/
def warmStart (s : Chip) : Chip :=
  match s.rst.cause with
  | .none => s
  | .some (code, item) =>
    if s.rdBit Reg.sysStat 1 then s
    else
      let s1 := { s.wrBit Reg.sysStat 1 true with rst := { s.rst with
          t0 := s.nowNs, times := recentRestarts s ++ [s.nowNs], pwmHold := true } }
      let s2 := (s1.odoInc 19 1).logEvent 3 code item
      let s3 := haltCores s2
      let s4 := endInjections ((List.range 8).foldl adcStop (fbHalt s3)) 7
      usbDetach s4

/-- Shadow-queue entries of every tile (03 R162). -/
def shadowWaiting (s : Chip) : Nat := s.eng.shq.foldl (fun k e => k + e.2.length) 0

/-- The loop engine at the reset of CORE (03 R162): evaluations in progress, held results and waiting writes are discarded; injections and
captures of 05 R228 and R234 keep their memories, and an injection that still runs ends with CAUSE 7 (R241). A host's write that waits for
room in a full shadow queue is dropped with the queue, uncounted and without an answer: the spec does not say what becomes of it.
DESIGN CHOICE (notes/assumptions/46.md). -/
def engineReset (s : Chip) : Chip :=
  let s0 := (List.range 16).foldl (fun x t => if x.rdBit (Reg.ltInjstat t) 0 then x.wrF (Reg.ltInjstat t) 7 4 7 else x) s
  let s1 := s0.bumpBy Reg.lpeShqlost (shadowWaiting s)
  { s1 with eng := { s1.eng with
      shq := [], due := [], dueN := [], dueAll := [], held := [], initNext := [], dirty := [], waits := [], evals := []
      tune := s1.eng.tune.map (fun e => (e.1, { e.2 with samples := 0, capNext := false }))
      capMark := (List.range 16).filter (fun t => s1.rdBit (Reg.ltCapstat t) 1) } }

/-- Feedback channels and converters at the reset of CORE. -/
def channelsReset (s : Chip) : Chip :=
  { (List.range 8).foldl canReset s with
    fb := s.fb.map (fun (e : Nat × FbChan) => (e.1, { FbChan.zero with a := e.2.a, b := e.2.b, z := e.2.z }))
    adc := [] }

/-- A verification of a staged consist is cut (18 R827, R839): STAGE 2 becomes 1. -/
def cutVerify (s : Chip) : Chip :=
  if s.rdF Reg.cstStat 3 2 = 2 then { s.wrF Reg.cstStat 3 2 1 with hst := { s.hst with verifyCut := true } } else s

/-- A CAN frame holds the reset of CORE back, for at most 1 ms after T0 (08 R381). -/
def canHolds (s : Chip) : Bool := (List.range 8).any (fun n => (canSt s n).bus.isSome) && decide (s.nowNs < s.rst.t0 + 1000000)

/-- Phase `p` has not passed yet in this tick. -/
def before (s : Chip) (p : Nat) : Bool := decide (s.tb.phase ≤ p)

/-- CORE is reset (R778–R780): at phase 9,600 of the first tick at or after T0 in which, at that phase, no CAN frame is in progress or the
wait of 08 R381 is over. `onLink` names a DMA queue once for each of its oldest descriptors that is on the link. The engine that hashes the
images and the consist is started (R783). -/
def coreReset (s : Chip) (onLink : List Nat) : Chip :=
  let s0 := s.atPhase 9600
  if !s.rdBit Reg.sysStat 1 || s.rst.inCore || !before s 9600 || canHolds s0 then s
  else
    let pads := (List.range 32).foldl (fun t n => Tab.set 0 t n (s0.rd (Reg.fbCtl n))) []
    let s1 := setHeld (engineReset (channelsReset { clearFlips (clearFlips s0 0x11200000 0x100000) 0x11400000 0x100000 with pins := { s0.pins with fbPads := pads } }))
    let s2 := dqRestart (fillAbandon (recReset (dspReset s1))) onLink
    let s3 := (warmRegs (cutVerify (svHalt (setSelfRef s2 true)))).wrBit Reg.sigStat 1 true
    askStart { s3 with memu := { s3.memu with lines := [] }, rst := { s3.rst with inCore := true, coreT := s3.nowNs, reloaded := .none } } 24

/-- The first tick boundary after the reset of CORE in a swap (18 R830). A restart that comes before the coach of the new timetable leaves it
pending. -/
def swapBoundary (s : Chip) : Chip := if s.rst.inCore && s.rst.swap && !s.rst.swapped then swapPersist s else s

/-- The TCM images of the running slot (16 R755). -/
def tcmImages (s : Chip) : List (List Byte) := match s.boot.slot with
  | .none => []
  | .some k =>
    let m := manifest s k
    ((List.range (nimg m)).map (imgDesc m)).filter (fun d => decide (leAt d 0 1 < 10))

/-- The SHA-256 that eight registers hold. -/
def regHash (s : Chip) (base : Nat) : List Byte := (List.range 8).flatMap (fun i => leBytes 4 (s.rd (base + 4 * i)).toNat)

/-- The TCMs are reloaded and the consist is applied to the CORE blocks and the tiles (R778, R779, R795, 03 R163). `bad` is the TARGET of an
image whose bytes, as read, do not match; `mirrorBad` and `journalBad` are the records that the restore finds uncorrectable.
DESIGN CHOICE (notes/assumptions/18.md). -/
def reloadDone (s : Chip) (mirrorBad journalBad : List Nat) (bad : Option Nat) : Chip :=
  if !s.rst.inCore || s.rst.reloaded.isSome || (s.rst.swap && !s.rst.swapped) then s
  else
    let c := consistNow s
    let imgs := tcmImages s
    match bad, imgs.find? (fun d => !imageOk s d) with
    | .some t, _ => s.fault 0x11 t
    | .none, .some d => s.fault 0x11 (leAt d 0 1)
    | .none, .none =>
      if sha256 c.img != regHash s (Reg.secCsthash 0) then s.fault 0x11 11
      else
        let s1 := reloadCore (imgs.foldl placeImage s) c
        let s2 := restoreTiles s1 c mirrorBad journalBad
        let s3 := setSelfRef (canFollowStage s2) (decide (s2.stage ≥ 4))
        hashRest { s3 with rst := { s3.rst with reloaded := .some s3.tb.tick } }

/-- The marker of a capture that the restart cut (05 R229, R234, R236). In its stream record, where R236 names the tick and the flags of an
evaluation that a marker has not, stand the tick of the resume and 0. DESIGN CHOICE (notes/assumptions/88.md). -/
def captureMarker (s : Chip) (t : Nat) : Chip :=
  let p := (s.rd (Reg.ltCapptr t)).toNat % 4096
  let b := 16384 * t + 4 * p
  let m := [(b, (0x80000000 : Word)), (b + 1, 0x80000000), (b + 2, s.tick32), (b + 3, 6)].foldl
    (fun (x : Tab Word) e => Tab.set 0 x e.1 e.2) s.eng.capBuf
  let s1 := touchWords { s with eng := { s.eng with capBuf := m } } (0x18020000 + 0x100000 * t + 16 * p) 16
  let s2 := streamCapture s1 t (256 * t + s.rdF (Reg.ltCapctl t) 7 0) 1 (s.rd (Reg.ltCapcnt t)).toNat 0
    [0x80000000, 0x80000000, s.tick32, 6]
  (s2.wrF (Reg.ltCapstat t) 7 4 6).wrBit (Reg.ltCapstat t) 3 true

/-- The recorder at the resume (11 R514, 18 R832): after a swap the sets of the new consist start. -/
def recAgain (s : Chip) : Chip :=
  let s1 := if s.rst.swap then armAuto (startRecorder s) else recResume s
  ((s1.wrBit Reg.recStat 1 (decide (s1.stage ≥ 1))).wrBit Reg.recStat 2 (decide (s1.stage ≥ 2))).wrBit Reg.recStat 3 (decide (s1.stage ≥ 4))

/-- A swap ends at the resume (18 R830, R839). -/
def swapEnd (s : Chip) : Chip :=
  if s.rst.swap then
    let s1 := ((s.bump Reg.cstSwapcnt).wrBit Reg.cstStat 5 false).wrF Reg.cstStat 3 2 0
    syncSeatPend ({ s1 with hst := { s1.hst with stgNodes := [], resend := [] } }.flag Reg.cstEvt Reg.cstEvten 3 35)
  else s

/-- The books of a warm restart at the resume (R781, R799, 14 R630, 19 R858). -/
def restartBooks (s : Chip) : Chip :=
  let c := s.rst.cause.getD (0, 0)
  let s1 := (s.wr Reg.sysWarmdur (wn ((s.nowNs - s.rst.t0) / 1000))).wr Reg.sysWarmlast (wn (c.1 % 65536 + c.2 % 256 * 65536))
  let s2 := (s1.extreme 10 true (((s.nowNs - s.rst.coreT) / 1000 : Nat) : Int)).logEvent 4 c.1 c.2
  { s2 with books := { s2.books with faultQ := s2.books.faultQ.filter (fun (e : FaultEntry) => e.cls != 2) } }

/-- The engines resume at the first tick boundary after the restore (R778, R781, 03 R164, 12 R573, 11 R514).
DEDUCED (notes/assumptions/75.md). -/
def engineResume (s : Chip) : Chip :=
  match s.rst.reloaded with
  | .none => s
  | .some t =>
    if !s.rst.inCore ∨ s.tb.phase ≠ 0 ∨ t = s.tb.tick then s
    else
      let s1 := (s.wrBit Reg.lpeStat 0 true).wr Reg.lpeResume s.tick32
      let s2 := (List.range 16).foldl (fun x t => x.tileFlag t 3) s1
      let s3 := s2.eng.capMark.foldl captureMarker s2
      let s4 := startConverters ((List.range 32).foldl fbResume (recAgain s3))
      let s5 := swapEnd (restartBooks (dqRelease (svRelease s4)))
      let s6 := if s5.hst.verifyCut then askStart { s5.wrF Reg.cstStat 3 2 2 with hst := { s5.hst with verifyCut := false } } 24 else s5
      let s7 := ((s6.wrBit Reg.sigStat 1 false).wrBit Reg.sysStat 1 false).flag Reg.sysEvt Reg.sysEvten 1 1
      let s8 := { s7 with
        eng := { s7.eng with capMark := [] }
        rst := { s7.rst with cause := .none, inCore := false, reloaded := .none, swap := false } }
      dspResume (setSelfRef (canFollowStage s8) (decide (s8.stage ≥ 4)))

/-- The engines have not resumed by T0 + 20 ms (R779). -/
def rstLate (s : Chip) : Chip :=
  if s.rdBit Reg.sysStat 1 && decide (s.nowNs ≥ s.rst.t0 + 20000000) then s.fault 0x10 0 else s

/-- The timetable of a swap comes into force with the cut of the first coach with HOLD = 0 (18 R830, 07 R326): a node in SEAT without its
SEATACK for the new TTVER, or without a NODES record, leaves SEAT with cause TTV. DESIGN CHOICE (notes/assumptions/64.md). -/
def swapTimetable (s : Chip) : Chip :=
  if s.rst.swapped && !s.rdBit Reg.sysStat 1 && s.stage != 5 then
    let c := consistNow s
    let out := nodeNums.filter (fun d => nodeState s d == 3 &&
      (!(nodeSt s d).seatAck.contains c.ttver || !c.nodes.any (fun e => e.1 == d)))
    let s1 := setTimetable (out.foldl (fun x d => applyCauses x d [7]) s) c
    { s1 with rst := { s1.rst with swapped := false } }
  else s

/-- The commit of phase 9,000, once a tick (01 R51, 03 R142, R144, 10 R454): overruns, results, duty registers, all stamped 9,000. -/
def commitNow (s : Chip) : Chip :=
  if s.eng.commitDone then s
  else
    let s1 := { s with tb := { s.tb with phase := 9000 }, eng := { s.eng with commitDone := true } }
    let s2 := loadDuties (commitAll ((overrunTiles s1).foldl noteOverrun s1))
    { s2 with tb := { s2.tb with phase := max s.tb.phase 9000 } }

/-- RESULT_COMMIT: the commit, where its phase has not passed. DESIGN CHOICE (notes/assumptions/8.md). -/
def resultCommit (s : Chip) : Chip := if before s 9000 then commitNow s else s

/-- A store read stamped at phase 9,000 or later sees the results of the tick (01 R51): the first one there performs the commit. -/
def commitDue (s : Chip) : Chip := if 9000 ≤ s.tb.phase then commitNow s else s

/-- The coach of the next tick is cut at phase 9,500 (01 R50, 02 R103, 06 R265, 15 R679), after the gate instant.
DESIGN CHOICE (notes/assumptions/64.md). DESIGN CHOICE (notes/assumptions/65.md). -/
def coachCut (s : Chip) : Chip :=
  if !s.booted then s else cutCoach (islPrepare (swapTimetable (gateDue (s.atPhase 9500))))

/-- PWM outputs leave their hold as the first coach with HOLD = 0 leaves (10 R457). -/
def pwmRelease (s : Chip) : Chip :=
  match s.ewn.now with
  | .some c => if s.rst.pwmHold && !s.rdBit Reg.sysStat 1 && !c.hold then { s with rst := { s.rst with pwmHold := false } } else s
  | .none => s

end Sys2Proof.Machine
end

