-- ==== Sys2Proof/Machine/Ledgers.lean ====
section
/-!
DEFINITION. Chapter 19: the ledgers as the checker captures them, the balance check and the snapshot bank.
-/

namespace Sys2Proof.Machine

/-- A flag of LDG_EVT (19 R861). -/
def Chip.ldgFlag (s : Chip) (e : Nat) : Chip := s.flag Reg.ldgEvt Reg.ldgEvten e (56 + e)

/-- Transmissions of CAN channel n in flight (R841). -/
def canInflight (s : Chip) (n : Nat) : Nat := (canSt s n).pend.length + (canSt s n).bus.toList.length

/-- ODO_LFLIGHT (14 R647). DEDUCED (notes/assumptions/60.md). -/
def odoFlight (s : Chip) : Nat :=
  (s.ledGet 4 0 + 4 * 2 ^ 64 - s.ledGet 4 1 - s.ledGet 4 2 - s.ledGet 4 3 - s.ledGet 4 15) % 2 ^ 64

/-- Σ CRED(d) over the nodes in mail (06 R283). -/
def creditsInHand (s : Chip) : Nat :=
  ((nodeNums.foldl (fun (k : Int) d => k + if inMail s d then credit s d else 0) 0) % (2 ^ 64 : Int)).toNat

/-- Σ (accepted − FREED) over the nodes in mail (06 R283). -/
def creditsHeld (s : Chip) : Nat := nodeNums.foldl (fun k d => k + if inMail s d then heldBuffers s d else 0) 0

/-- Records of the write buffer that are owed to the region of set `i` (R841, R846). -/
def recInflight (s : Chip) (i : Nat) : Nat := (s.recd.buf.filter (fun b => b.set == i && !b.bytes.isEmpty)).length

/-- Counter j of ledger L as R862 lays it out: in-flight counts are what the blocks hold. DESIGN CHOICE (notes/assumptions/63.md). -/
def ledCounter (s : Chip) (l j : Nat) : Nat :=
  match l, j with
  | 0, 4 => s.dsp.carts.length
  | 1, 4 => s.ewn.coreQ.length + s.ewn.engQ.length + s.ewn.unacked.length
  | 2, 4 => creditsInHand s
  | 2, 5 => creditsHeld s
  | 3, 4 => (List.range 64).foldl (fun k i => k + recInflight s i) 0
  | 4, 4 => odoFlight s
  | 4, 5 => s.odo.pend
  | 5, 4 => (List.range 8).foldl (fun k n => k + canInflight s n) 0
  | 6, 4 => dqTotal s
  | _, _ => s.ledGet l j

/-- Counter j of the CAN ledger of channel n (R861). -/
def canCounter (s : Chip) (n j : Nat) : Nat := if j = 4 then canInflight s n else s.ledGet (8 + n) j

/-- Counters of a ledger that stand on the side of the exits (R841, R862). -/
def exitsOf (l : Nat) : List Nat := match l with
  | 1 => [1, 2, 4]
  | 2 => [1, 4, 5]
  | 5 => [1, 2, 3, 4, 5, 6, 7, 8]
  | 7 => [1, 2, 3, 4, 5]
  | _ => [1, 2, 3, 4]

/-- ISSUED − (exits + INFLIGHT + ADJ) modulo 2^64 (R840, R854), for counters given by index. -/
def ledDiff (c : Nat → Nat) (exits : List Nat) : Nat :=
  (c 0 + 2 ^ 64 * 16 - exits.foldl (fun k j => k + c j % 2 ^ 64) 0 - c 15 % 2 ^ 64) % 2 ^ 64

/-- The difference of the total of a ledger; for ledger 4 that of R848. -/
def totalDiff (s : Chip) (l : Nat) : Nat :=
  if l = 4 then (odoFlight s + 2 ^ 64 - s.odo.pend % 2 ^ 64) % 2 ^ 64 else ledDiff (ledCounter s l) (exitsOf l)

/-- The difference of the set equation of R846, modulo 2^32, less the differences already recorded for it (ledger index 64 of the books).
DESIGN CHOICE (notes/assumptions/63.md). -/
def setDiff (s : Chip) (i : Nat) : Nat :=
  let r := fun (a : Nat) => (s.rd a).toNat
  (r (Reg.recLissued i) + 8 * 2 ^ 32 - r (Reg.recLregwr i) - r (Reg.recLregshed i) - r (Reg.recLstrwr i) - r (Reg.recLstrshed i) -
    r (Reg.recLchgshed i) - r (Reg.recLrstdisc i) - recInflight s i % 2 ^ 32 - s.ledGet 64 i % 2 ^ 32) % 2 ^ 32

/-- The difference of the fire equation of R847, modulo 2^32, less the differences already recorded for it (ledger index 68).
DESIGN CHOICE (notes/assumptions/63.md). -/
def fireDiff (s : Chip) (i : Nat) : Nat :=
  let r := fun (a : Nat) => (s.rd a).toNat
  (r (Reg.ldgTrgin i) + 4 * 2 ^ 32 - r (Reg.ldgTrgact i) - r (Reg.recLmisstrg i) - s.ledGet 68 i % 2 ^ 32) % 2 ^ 32

/-- A difference modulo 2^32 as a signed 64-bit value. -/
def sign32 (d : Nat) : Nat := if d < 2 ^ 31 then d else d + (2 ^ 64 - 2 ^ 32)

/-- A balance has failed (R854, R858): `l` and `inst` name it, `d` is the difference, and counter (al, aj) takes it. -/
def noteBreak (s : Chip) (l inst d al aj : Nat) : Chip :=
  let s1 := ((s.wr Reg.ldgFaillast (wn (l * 2 ^ 24 + inst))).wr Reg.ldgFaildifflo (wn (d % 2 ^ 32))).wr Reg.ldgFaildiffhi (wn (d / 2 ^ 32))
  (((s1.led al aj d).bump Reg.ldgFailcnt).ldgFlag 0).logEvent 5 l inst

/-- The equations of a ledger: instance, difference, and the counter that takes it. -/
def equations (s : Chip) (l : Nat) : List (Nat × Nat × Nat × Nat) :=
  let total := [(0xFF, totalDiff s l, l, 15)]
  let sets := if l = 3 then (List.range 64).flatMap (fun i =>
    [(i, sign32 (setDiff s i), 64, i), (i, sign32 (fireDiff s i), 68, i)]) else []
  let chans := if l = 5 then (List.range 8).map (fun n => (n, ledDiff (canCounter s n) (exitsOf 5), 8 + n, 15)) else []
  total ++ sets ++ chans

/-- A ledger is tested now (R855, R856). -/
def ledTested (s : Chip) (l : Nat) : Bool :=
  !s.rdBit Reg.ldgStat l && !(s.rdBit Reg.sysStat 1 && (l == 0 || l == 3 || l == 5 || l == 6))

/-- One ledger is tested on the capture `c` (R852–R854): a broken one raises one fault. -/
def checkLedger (c : Chip) (s : Chip) (l : Nat) : Chip :=
  if !ledTested s l then s
  else
    let broken := (equations c l).filter (fun e => e.2.1 != 0)
    if broken.isEmpty then s
    else (broken.foldl (fun x e => noteBreak x l e.1 e.2.1 e.2.2.1 e.2.2.2) s).fault 3 l

/-- An uncorrectable error in a counter of a ledger (R856, 13 R592). -/
def unsoundLedger (s : Chip) (l : Nat) : Chip :=
  (noteRead (s.wrBit Reg.ldgStat l true) 2 (0x11100100 + 0x80 * l) 15 6).ldgFlag 1

/-- A word of the LDG block at offset `o` from 0x0100 to 0x0DFF (R861, R862). -/
def ledgerWord (s : Chip) (o : Nat) : Word :=
  let half := fun (n : Nat) => if o / 4 % 2 = 0 then wn (n % 2 ^ 32) else wn (n / 2 ^ 32)
  if 0x100 ≤ o ∧ o < 0x500 then half (ledCounter s ((o - 0x100) / 0x80) (o / 8 % 16))
  else if 0x800 ≤ o ∧ o < 0xC00 then half (canCounter s ((o - 0x800) / 0x80) (o / 8 % 16))
  else if 0xC00 ≤ o ∧ o < 0xE00 then s.rd (0x11100000 + o)
  else 0

/-- LDG_STAT as it reads (R855, R861). -/
def ldgStatNow (s : Chip) : Word := setBit (s.rd Reg.ldgStat) 8 (s.rdBit Reg.sysStat 1)

/-- The capture as the snapshot bank holds it (R860): the words by offset, and LDG_STAT at offset 0. -/
def captureWords (s : Chip) : Tab Word :=
  (List.range 832).foldl (fun (t : Tab Word) i => Tab.set 0 t (0x100 + 4 * i) (ledgerWord s (0x100 + 4 * i))) (Tab.set 0 [] 0 (ldgStatNow s))

/-- The capture `c` of a check is copied into the snapshot bank (R860). -/
def takeSnapshot (c s : Chip) : Chip :=
  let s1 := clearFlips { s with books := { s.books with snapBank := captureWords c, snapWaits := false } } 0x11102000 0xD00
  ((s1.wr Reg.ldgSnaptick c.tick32).wrBit Reg.ldgStat 9 true).ldgFlag 3

/-- The check of a tick at phase 9,700 (R852); `ue` lists the ledgers whose counters met an uncorrectable error at the capture. -/
def ledgerCheck (s : Chip) (ue : List Nat) : Chip :=
  if !s.boot.on then s
  else
    let s0 := ue.foldl unsoundLedger (s.atPhase 9700)
    let s1 := (List.range 8).foldl (checkLedger s0) s0
    if s0.books.snapWaits then takeSnapshot s0 s1 else s1

/-- LDG_CMD.SNAP is written (R860). -/
def ldgSnap (s : Chip) (v : Word) : Chip :=
  if bit v 0 && !s.books.snapWaits then { s.wrBit Reg.ldgStat 9 false with books := { s.books with snapWaits := true } } else s

end Sys2Proof.Machine
end

