-- ==== Sys2Proof/Machine/Registers.lean ====
section
/-!
DEFINITION. Reads and writes of the register space by address (00 R15–R19, R22, R23): field types, port authority (16 R733, R734), CS
refusals (18 R822, R823, R895), the windows beside the registers, and the registers whose write acts.
-/

namespace Sys2Proof.Machine

/-- What a register-space address names. -/
inductive Place where
  /-- A register: block index of 00 R23 (32 for tile registers), unit, offset in the unit, its row. -/
  | reg (blk unit off : Nat) (row : RegRow)
  | canTable (n off : Nat)
  | adcTable (k off : Nat)
  /-- A word of the core transmit or receive queue memory (06 R290). -/
  | mailTx (i : Nat)
  | mailRx (i : Nat)
  | alarms (off : Nat)
  | msix (off : Nat)
  | ledger (off : Nat)
  | ledgerBank (off : Nat)
  | incidents (off : Nat)
  | odoTotals (off : Nat)
  | odoCopies (off : Nat)
  | odoClears (off : Nat)
  | profile (off : Nat)
  /-- Tile windows (03 R128). -/
  | slotRec (lid w : Nat)
  | slotState (lid off : Nat)
  | slotLoad (t off : Nat)
  | injTable (t i : Nat)
  | capture (t i : Nat)
  deriving DecidableEq, Repr

/-- The windows of a tile (03 R128). -/
def tilePlace (t o : Nat) : Option Place :=
  if o < 0x8000 then .some (.slotRec (256 * t + o / 128) (o % 128 / 4))
  else if o < 0xC000 then .some (.slotState (256 * t + (o - 0x8000) / 64) (o % 64))
  else if o < 0xD000 then .some (.slotLoad t (o - 0xC000))
  else if 0x10000 ≤ o ∧ o < 0x14000 then .some (.injTable t ((o - 0x10000) / 4))
  else if 0x20000 ≤ o ∧ o < 0x30000 then .some (.capture t ((o - 0x20000) / 4))
  else .none

/-- The windows of a block beside its registers. -/
def windowPlace (b u o : Nat) : Option Place :=
  match b with
  | 18 => if canTableOffset o then .some (.canTable u o) else .none
  | 20 => if 0x400 ≤ o ∧ o < 0x600 then .some (.adcTable u o) else .none
  | 6 => if 0x80000 ≤ o ∧ o < 0x90000 then .some (.mailTx ((o - 0x80000) / 4))
      else if 0xC0000 ≤ o ∧ o < 0xD0000 then .some (.mailRx ((o - 0xC0000) / 4)) else .none
  | 8 => if 0x1000 ≤ o ∧ o < 0x2800 then .some (.alarms (o - 0x1000))
      else if (0x8000 ≤ o ∧ o < 0x8400) ∨ (0x9000 ≤ o ∧ o < 0x9008) then .some (.msix o) else .none
  | 15 => if 0x1000 ≤ o ∧ o < 0x2000 then .some (.odoTotals (o - 0x1000))
      else if 0x20000 ≤ o ∧ o < 0x22000 then .some (.odoCopies (o - 0x20000))
      else if 0x22000 ≤ o ∧ o < 0x22000 + 255 * 32 then .some (.odoClears (o - 0x22000)) else .none
  | 16 => if 0x1000 ≤ o ∧ o < 0x1800 then .some (.profile (o - 0x1000)) else .none
  | 17 => if (0x100 ≤ o ∧ o < 0x500) ∨ (0x800 ≤ o ∧ o < 0xC00) then .some (.ledger o)
      else if 0x2000 ≤ o ∧ o < 0x2D00 then .some (.ledgerBank o)
      else if 0x4000 ≤ o ∧ o < 0x8000 then .some (.incidents (o - 0x4000)) else .none
  | _ => .none

/-- Registers and tiles of the map (00 R22). -/
def isRegs (a : Nat) : Bool := decide (0x10000000 ≤ a) && decide (a < 0x20000000)

/-- What a local address names, if it lies in the register space and is mapped (00 R18, R22). -/
def placeOf (a : Nat) : Option Place :=
  if a % 4 ≠ 0 then .none
  else
    match splitAddr a with
    | .some (b, u, o) =>
      match findRow (blockRows b) o with
      | .some r => .some (.reg b u o r)
      | .none => windowPlace b u o
    | .none =>
      if 0x18000000 ≤ a ∧ a < 0x19000000 then tilePlace ((a - 0x18000000) / 0x100000) ((a - 0x18000000) % 0x100000) else .none

/-- The address belongs to a block, or the part of one, that lies in CORE (00 R7 and the layout tables of chapters 03 to 16). -/
def coreAddr (a : Nat) : Bool :=
  match splitAddr a with
  | .some (b, _, o) =>
    match b with
    | 9 | 18 | 19 | 21 | 32 => true
    | 20 => decide (o < 0x1000)
    | 12 => !(decide (0x800 ≤ o) && decide (o < 0x900))
    | 11 =>
      if o < 0x100 then !(decide (0xC ≤ o) && decide (o < 0x28))
      else if o < 0x2000 then decide (o % 64 < 0x2C)
      else if o < 0x3000 then true
      else if o < 0x4000 then o % 64 != 0x18
      else false
    | _ => false
  | .none => decide (0x18000000 ≤ a) && decide (a < 0x19000000)

/-- The address answers the agent `src`: a dispatcher port and a WDKICK answer their own core alone (12 R582, R585), and a block of CORE
does not answer while CORE is held in reset. DEDUCED (notes/assumptions/66.md). -/
def answers (s : Chip) (src a : Nat) : Bool :=
  !(coreAddr a && s.rst.inCore) &&
  match splitAddr a with
  | .some (12, _, o) => !(decide (0x1000 ≤ o) && decide (o < 0x1A00)) || (o - 0x1000) / 0x100 == src
  | .some (21, _, o) => o % 0x1000 != 8 || (if o < 0x8000 then o / 0x1000 == src else 8 + (o - 0x8000) / 0x1000 == src)
  | _ => true

/-- The address answers a read of the agent: a WDKICK reads 0 to every one, since it bars writes alone (12 R585). -/
def answersRead (s : Chip) (src a : Nat) : Bool :=
  answers s src a ||
    match splitAddr a with
    | .some (21, _, o) => o % 0x1000 == 8 && !s.rst.inCore
    | _ => false

/-- A journal record as it lies in memory (03 R158). -/
def jrecBytes (r : JRec) : List Byte :=
  leBytes 8 ((r.integ % 2 ^ 64).toNat) ++ leBytes 4 (w32 r.out).toNat ++ leBytes 4 (w32 r.spr).toNat ++ leBytes 4 (w32 r.dst).toNat ++
    leBytes 4 (w32 r.pvl).toNat ++ leBytes 4 r.stamp ++ leBytes 4 (r.mode + 16 * (r.flags % 4096))

/-- The state of a slot as LTt_SLOTST shows it (03 R177): its last evaluation, SPDIR and the biquads. -/
def slotBytes (x : SlotState) : List Byte :=
  jrecBytes x.last ++ leBytes 4 (w32 x.spdir).toNat ++
    leBytes 4 (w32 x.b1s1).toNat ++ leBytes 4 (w32 x.b1s2).toNat ++ leBytes 4 (w32 x.b2s1).toNat ++ leBytes 4 (w32 x.b2s2).toNat ++
    bytesOf 12 0

/-- An entry of the incident log as 19 R858 lays it out; zeros where none has been written. -/
def logBytes (e : Option LogEntry) : List Byte :=
  match e with
  | .some x => leBytes 4 x.seq ++ leBytes 6 x.tick ++ leBytes 2 x.phase ++ leBytes 1 x.kind ++ leBytes 2 x.code ++ leBytes 1 x.item
  | .none => bytesOf 16 0

/-- Bytes of a running-totals image shown live (14 R638): SEQ, PCRC, SEQEND and VALID read 0. -/
def totalsBytes (s : Chip) : List Byte := padTo 4096 (snapImage s 0 0 false)

/-- An entry of the fault queue, words 0 and 1 (17 R801). -/
def faultWords (s : Chip) (i : Nat) : Word × Word :=
  match s.books.faultQ[i]? with
  | .some e => (wn (e.code + e.cls * 2 ^ 16 + b2n e.acted * 2 ^ 18 + e.item % 256 * 2 ^ 24), wn e.tick)
  | .none => (0, 0)

/-- SYS_FQSTAT (17 R801). -/
def fqStat (s : Chip) : Word :=
  wn (s.books.faultQ.length + (s.books.faultQ.foldl (fun m e => max m e.cls) 0) * 2 ^ 8 + b2n s.restarting * 2 ^ 10)

/-- The 64-bit counts of 14 R654, by offset from ODO_LISSUEDLO: ledger 4's ISSUED, SNAP, CLEAR, SAT and INFLIGHT. -/
def odoCount (s : Chip) (i : Nat) : Nat := if i = 4 then odoFlight s else ledCounter s 4 i

/-- The phases in which the clock of a tile may run: 2,000 to 9,499 (03 R132). -/
def tileClockPhase (s : Chip) : Bool := decide (2000 ≤ s.tb.phase) && decide (s.tb.phase < 9500)

/-- STATE of core `c` as it reads (12 R583): a core that runs reads 1, or 2 while its firmware waits in WFI, which is outside the spec: a free
value of each moment. DESIGN CHOICE (notes/assumptions/43.md). -/
def coreState (s : Chip) (c : Nat) (w : Word) : Word :=
  if fld w 1 0 = 1 ∧ Config.coreWaits (16 * s.nowNs + c) then setFld w 1 0 2 else w

/-- A register as it stands, for the registers that show other state. -/
def derivedReg (s : Chip) (reader a b u o : Nat) : Option Word :=
  let cap := Tab.get LowCap.none s.lowCaps reader
  match b with
  | 0 =>
    if a = Reg.sysTicklo then .some s.tick32
    else if a = Reg.sysTickhi then .some (wn cap.tickHi)
    else if a = Reg.sysPhase then .some (wn cap.phase)
    else if a = Reg.sysFabtlo then .some (wn (s.tb.fabTick % 2 ^ 32))
    else if a = Reg.sysFabhi then .some (wn cap.fabHi)
    else if a = Reg.sysFabsec then .some (wn cap.fabSec)
    else if a = Reg.sysFabns then .some (wn (cap.fabNs + b2n cap.fabValid * 2 ^ 31))
    else if a = Reg.sysTbstat then .some (setBit (s.rd a) 2 (slewing s))
    else if a = Reg.sysFqstat then .some (fqStat s)
    else if 0x200 ≤ o then .some (if o % 8 = 0 then (faultWords s ((o - 0x200) / 8)).1 else (faultWords s ((o - 0x200) / 8)).2)
    else .none
  | 2 =>
    if 0x1000 ≤ o then .some (wn (leAt s.hst.quote (o - 0x1000) 4))
    else if 0x80 ≤ o ∧ o < 0xA0 then .some (if s.hst.secret = [] then 0 else wn (leAt (attestKey s) (o - 0x80) 4))
    else .none
  | 4 => if a = Reg.sigHeldcnt then .some (wn ((s.store.entries.filter (fun e => e.2.held)).length)) else .none
  | 13 => if a = Reg.memStat then .some (setBit (setBit (s.rd a) 1 (s.rdBit Reg.memSscrub 16)) 2 (dscrubRuns s)) else .none
  | 15 =>
    if 0x40 ≤ o ∧ o < 0x68 then
      if o % 8 = 0 then .some (wn (odoCount s ((o - 0x40) / 8) % 2 ^ 32)) else .some (Tab.get 0 cap.words a)
    else .none
  | 21 => if o % 0x1000 = 0 then .some (coreState s (if o < 0x8000 then o / 0x1000 else 8 + (o - 0x8000) / 0x1000) (s.rd a)) else .none
  | 16 => if a = Reg.safDegt then .some (wn (degLeft s)) else .none
  | 17 =>
    if a = Reg.ldgStat then .some (ldgStatNow s)
    else if a = Reg.ldgFaildiffhi then .some (Tab.get 0 cap.words a)
    else .none
  | 32 =>
    if o = 0 then .some (setFld (setBit (s.rd a) 1 (s.rdBit a 1 && tileClockPhase s)) 22 16 (loadMax s u))
    else if o = 4 then .some (wn (enabledCount s u))
    else .none
  | _ => .none

/-- What a read of a place returns, before it captures anything. -/
def placeRead (s : Chip) (reader a : Nat) : Place → Word
  | .reg b u o _ => (derivedReg s reader a b u o).getD (s.rd a)
  | .canTable _ _ => s.rd a
  | .adcTable _ _ => s.rd a
  | .mailTx i => Tab.get 0 s.ewn.txMem i
  | .mailRx i => Tab.get 0 s.ewn.rxMem i
  | .alarms o => wn (leAt (alarmBytes (alarmEntry s (o / 24))) (o % 24) 4)
  | .msix o =>
    if o < 0x9000 then s.rd a ^^^ wn (b2n (o % 16 == 12))
    else wn ((List.range 32).foldl (fun w i => w + 2 ^ i * b2n (s.books.msixPend.contains (8 * (o - 0x9000) + i))) 0)
  | .ledger o => if o % 8 = 0 then ledgerWord s o else Tab.get 0 (Tab.get LowCap.none s.lowCaps reader).words a
  | .ledgerBank o =>
    if 0x2B00 ≤ o ∨ o % 8 = 0 then Tab.get 0 s.books.snapBank (o - 0x2000 + 0x100)
    else Tab.get 0 (Tab.get LowCap.none s.lowCaps reader).words a
  | .incidents o => wn (leAt (logBytes (Tab.get? s.books.log (o / 16))) (o % 16) 4)
  | .odoTotals o =>
    if 1600 ≤ o ∧ o < 2112 ∧ o % 8 = 4 then Tab.get 0 (Tab.get LowCap.none s.lowCaps reader).words a
    else wn (leAt (totalsBytes s) o 4)
  | .odoCopies o => wn (ofLe (s.bytes (copyAddr 0 + o) 4))
  | .odoClears o => wn (ofLe (s.bytes (0x05F02000 + o) 4))
  | .profile o => wn (leAt s.isl.prof o 4)
  | .slotRec lid w => recWord s lid w
  | .slotState lid o => wn (leAt (slotBytes (slotSt s lid)) o 4)
  | .slotLoad t o =>
    wn (loadEntry s t o + loadEntry s t (o + 1) * 2 ^ 8 + loadEntry s t (o + 2) * 2 ^ 16 + loadEntry s t (o + 3) * 2 ^ 24)
  | .injTable t i => Tab.get 0 s.eng.injTab (4096 * t + i)
  | .capture t i => Tab.get 0 s.eng.capBuf (16384 * t + i)

/-- The high word that a read of a low word captures for its reader (14 R638, R654, chapter 19). DESIGN CHOICE (notes/assumptions/67.md). -/
def captureOf (s : Chip) (a : Nat) : Place → Option Word
  | .ledger o => if o % 8 = 0 then .some (ledgerWord s (o + 4)) else .none
  | .ledgerBank o => if o < 0x2B00 ∧ o % 8 = 0 then .some (Tab.get 0 s.books.snapBank (o - 0x2000 + 0x104)) else .none
  | .odoTotals o => if 1600 ≤ o ∧ o < 2112 ∧ o % 8 = 0 then .some (wn (leAt (totalsBytes s) (o + 4) 4)) else .none
  | .reg b _ o _ =>
    if b = 15 ∧ 0x40 ≤ o ∧ o < 0x68 ∧ o % 8 = 0 then .some (wn (odoCount s ((o - 0x40) / 8) / 2 ^ 32))
    else if a = Reg.ldgFaildifflo then .some (s.rd Reg.ldgFaildiffhi)
    else .none
  | _ => .none

/-- What a read captures for its reader (01 R58, 14 R638, R654). DESIGN CHOICE (notes/assumptions/67.md). -/
def readCapture (s : Chip) (reader a : Nat) (p : Place) : Chip :=
  if a = Reg.sysTicklo then captureTick s reader
  else if a = Reg.sysFabtlo then captureFab s reader
  else
    match captureOf s a p with
    | .some w =>
      let c := Tab.get LowCap.none s.lowCaps reader
      { s with lowCaps := Tab.set LowCap.none s.lowCaps reader { c with words := Tab.set 0 c.words (a + 4) w } }
    | .none => s

/-- Where the word of a place stands in an SRAM or in MRAM (13 R586): tables and buffers in block RAMs and the tile SRAMs at their own address,
the snapshot copies and clear entries in MRAM. None for a register. -/
def Place.storedAt (a : Nat) : Place → Option Nat
  | .reg .. | .odoTotals _ => .none
  | .odoCopies o => .some (copyAddr 0 + o)
  | .odoClears o => .some (0x05F02000 + o)
  | _ => .some a

/-- What a word with an uncorrectable error means to its block: a ledger counter marks its ledger (19 R856). -/
def ueAt (s : Chip) : Place → Chip
  | .ledger o => (s.wrBit Reg.ldgStat (if o < 0x500 then (o - 0x100) / 0x80 else 5) true).ldgFlag 1
  | _ => s

/-- The block behind the place rewrites its table by itself, so that damage met there does not last. DESIGN CHOICE (notes/assumptions/57.md). -/
def Place.rewritten : Place → Bool
  | .alarms _ | .ledger _ | .incidents _ => true
  | _ => false

/-- A word read at `a` as its memory gives it (13 R588–R592): the Poermun after, the word, and the class met. -/
def readCoded (s : Chip) (src a : Nat) (v : Word) : Chip × Word × Nat :=
  match placeOf a with
  | .none => (s, v, 0)
  | .some q =>
    match q.storedAt a with
    | .none => (s, v, 0)
    | .some p =>
      let r := readSpan s src p 4
      let s1 := if r.cls = 2 then ueAt r.chip q else r.chip
      (if q.rewritten then clearFlips s1 p 4 else s1, wordAs r.errs 0 v, r.cls)

/-- Bits of the word at `a` flip, where it stands in a memory (13 R590). -/
def upsetPlace (s : Chip) (a : Nat) (flips : List Nat) : Chip :=
  match (placeOf a).bind (Place.storedAt a) with
  | .some p => upset s p (flips.take 4)
  | .none => s

/-- A read of a register-space address (00 R18): the word, none for an access error, and the state with what the reader captured. -/
def readReg (s : Chip) (reader a : Nat) : Option Word × Chip :=
  match placeOf a with
  | .some p => if answersRead s reader a then (.some (placeRead s reader a p), readCapture s reader a p) else (.none, s)
  | .none => (.none, s)

/-- How a register write ends (16 R899): as sent, or stopped for one of its causes; `waits` when the writer waits (03 R137, 16 R738). -/
inductive WrRes where
  | done
  | auth
  | busy
  | range
  | access
  | restart
  | waits
  deriving DecidableEq, Repr

/-- JTAGCLOSE is intact (16 R731): the fuse itself, which stands while PORST_L is low too. -/
def jtagIntact (s : Chip) : Bool := !bit (fuseNow s Reg.secFuse) 12

/-- The TAP gives access with DEBUG in force (16 R731). -/
def tapOpen (s : Chip) : Bool := s.hst.tap == 4 && jtagIntact s

/-- The sender holds CFG (16 R733): JTAG where it is open. -/
def holdsCfg (s : Chip) (src : Nat) : Bool :=
  srcIsCore src || src == 10 || (src == 12 && maintSel s) || (src == 16 && tapOpen s)

/-- The sender may write the register at `a` (16 R733, R734). -/
def regAuth (s : Chip) (src a : Nat) : Bool :=
  if a = Reg.safAck then src == 10 || src == 12
  else if a = Reg.odoClr ∨ a = Reg.secArbcmd ∨ a = Reg.secFusecmd then src == 12 && maintSel s
  else if a = Reg.clmHb then src == 10
  else if a = Reg.hpcAlmraise ∨ a = Reg.hpcAlmdata ∨ (Reg.hpcDqbaselo 0 ≤ a ∧ a < Reg.hpcDqbaselo 8) then srcIsCore src
  else holdsCfg s src

/-- A refusal of a port's authority is counted and flagged (16 R734). -/
def authRefuse (s : Chip) : Chip := (s.bump Reg.hpcAuthref).flag Reg.hpcEvt Reg.hpcEvten 0 71

/-- The owning block of a register's CS fields runs (18 R822). DEDUCED (notes/assumptions/77.md). -/
def csRuns (s : Chip) (b u o a : Nat) : Bool :=
  match b with
  | 18 => canRunning s u
  | 19 => s.rdBit (Reg.fbCtl u) 0
  | 20 => if o < 0x1000 then s.rdBit (Reg.adcCtl u) 0 else s.rdBit (Reg.adcPwmctl u ((o - 0x1000) / 64)) 0
  | 11 =>
    if o < 0x1000 then s.rdBit Reg.sysStat 0
    else if o < 0x2000 then s.rdBit (Reg.recSetcfg ((o - 0x1000) / 64)) 0
    else if o < 0x3000 then s.rdBit (Reg.recTrgstat ((o - 0x2000) / 64)) 0
    else s.rdBit (Reg.recSetcfg ((o - 0x3000) / 64)) 0
  | 32 => if o < 0x80 then s.rdBit (Reg.ltInjstat u) 0 else s.rdF (Reg.ltCapstat u) 1 0 != 0
  | 8 => if a = Reg.hpcCqbaselo ∨ a = Reg.hpcCqbasehi ∨ a = Reg.hpcRqbaselo ∨ a = Reg.hpcRqbasehi then s.rdBit Reg.hpcCqctl 0
      else s.rdBit Reg.sysStat 0
  | _ => s.rdBit Reg.sysStat 0

/-- The refusal of a write with a code, where the block keeps one (18 R823); `code` 1 is RUNNING. DEDUCED (notes/assumptions/66.md). -/
def blockRefuse (s : Chip) (b u o code : Nat) : Chip :=
  match b with
  | 18 => canRefuse s u code o
  | 19 => fbRefuse s u code o
  | 20 => adcRefuse s u code o
  | 11 => recRefuse s code o
  | 32 => tuneRefuse s u (if o < 0x80 then Reg.ltInjstat u else Reg.ltCapstat u) code
  | _ => if code = 1 then s.bump Reg.cstCsref else s

/-- The check of a register value by its block: 0, or the code of the refusal (08 R356, 09 R419, 10 R453, R454, 11 R504, R521, R530,
05 R243, R244, 12 R575, 16 R761). A field that keeps its value is not checked, but for the SZ of a ring that is
turned on. DEDUCED (notes/assumptions/66.md). -/
def rangeCode (s : Chip) (b u o a : Nat) (v : Word) : Nat :=
  if !fieldRangeOk b o v then 2 else
  match b with
  | 18 =>
    if o = 4 then (if btimeOk v then 0 else 2)
    else if o = 8 then (if dtimeOk v then 0 else 2)
    else 0
  | 19 =>
    if o = 4 then (if serOk v then 0 else 2)
    else if o = 0xC then (if serreqOk v then 0 else 2)
    else if o = 0x10 ∨ o = 0x14 then (if fbSidOk s u v then 0 else 4)
    else 0
  | 20 =>
    if o = 0 then (if fld v 14 8 = s.rdF a 14 8 ∨ (1 ≤ fld v 14 8 ∧ fld v 14 8 ≤ 64) then 0 else 2)
    else if 0x1000 ≤ o ∧ o % 64 = 0 then
      (if fld v 22 16 = s.rdF a 22 16 ∨ pwmRates.contains (fld v 22 16) then 0 else 2)
    else if 0x1000 ≤ o ∧ o % 64 = 4 then (if pwmSidOk s (fld v 17 0) then 0 else 5)
    else 0
  | 32 =>
    if o = 0x80 then (if fld v 9 8 ≤ 1 then 0 else 2)
    else if o = 0x84 then (if fld v 12 0 ≤ 4096 then 0 else 2)
    else 0
  | 12 => if 0x4000 ≤ o ∧ o < 0x5000 then (if fld v 3 2 = 3 then 2 else 0) else 0
  | 8 =>
    if o = 0x18 then (if (!bit v 0 && fld v 4 1 == s.rdF a 4 1) || within (fld v 4 1) 4 12 then 0 else 2)
    else if 0x100 ≤ o ∧ o < 0x180 then (if bit v 31 ∧ fld v 21 16 < 6 then 2 else 0)
    else if 0x200 ≤ o ∧ o < 0x300 ∧ o % 32 = 8 then (if (!bit v 0 && fld v 4 1 == s.rdF a 4 1) || within (fld v 4 1) 2 12 then 0 else 2)
    else 0
  | _ => 0

/-- A register write by its field types (00 R15, R17): RW, CS and LV bits at once, W1C and W1S bits, SH bits into the shadow. -/
def applyTypes (s : Chip) (a : Nat) (r : RegRow) (v : Word) : Chip :=
  let w1 := merge (s.rd a) v (r.rw ||| r.cs ||| r.lv)
  let w2 := (w1 &&& ~~~ (v &&& wn r.w1c)) ||| (v &&& wn r.w1s)
  let s1 := s.wr a w2
  if r.sh = 0 then s1 else s1.putShadow a v r.sh

/-- SEC_ARBCMD is written (16 R758): ARB0 follows the running manifest, ARB1 the running consist. -/
def arbCommit (s : Chip) (v : Word) : Chip :=
  let up := fun (x : Chip) (on : Bool) (a n : Nat) =>
    if on && decide (x.rdF a 6 0 < n) then
      let x1 := x.wrF a 6 0 n
      { x1 with hst := { x1.hst with fuses := Tab.set 0 x1.hst.fuses a (x1.rd a) } }.flag Reg.secEvt Reg.secEvten 1 69
    else x
  up (up s (bit v 0) Reg.secArb0 (s.rdF Reg.secBootstat 22 16)) (bit v 1) Reg.secArb1 (s.rdF Reg.cstVersion 6 0)

/-- SEC_FUSECMD is written (16 R731, R765): the key value blows JTAGCLOSE. -/
def jtagClose (s : Chip) (v : Word) : Chip :=
  if v = 0x4A43_4C53 then
    let w := setBit (fuseNow s Reg.secFuse) 12 true
    let s1 := s.wrBit Reg.secFuse 12 true
    { s1 with hst := { s1.hst with fuses := (Tab.ins (Tab.erase s1.hst.fuses Reg.secFuse) Reg.secFuse w) } }
  else s

/-- SIG_CLR is written (02 R124): PEAK is 0, and the count of the tick now running goes on (R117). DESIGN CHOICE (notes/assumptions/89.md). -/
def peakClear (s : Chip) (v : Word) : Chip :=
  (List.range 4).foldl (fun x n => if bit v n then x.wr (Reg.sigPpeak n) 0 else x) s

/-- HPC_ALMRAISE is written (16 R751). DESIGN CHOICE (notes/assumptions/52.md). -/
def almRaise (s : Chip) (v : Word) : Chip := s.alarm (fld v 15 0) (fld v 17 16) (s.rd Reg.hpcAlmdata).toNat

/-- EWN_NCTLd is written (07 R351). -/
def nctlWrite (s : Chip) (d : Nat) (v : Word) : Chip :=
  setExclude (if bit v 0 then readmit s d else s) d (bit v 1)

/-- REC_SETCMDs is written (11 R522): its commands act from bit 0 up. -/
def setCommand (s : Chip) (i : Nat) (v : Word) : Chip :=
  let s1 := if bit v 0 then armSet s i else s
  let s2 := if bit v 1 then releaseSet s1 i else s1
  let s3 := if bit v 2 then stopSet s2 i else s2
  if bit v 3 then softTrigger s3 i else s3

/-- TRGu_CMD is written (11 R507, R528). -/
def trgCommand (s : Chip) (u : Nat) (v : Word) : Chip :=
  let s1 := if bit v 0 then armUnit s u else s
  let s2 := if bit v 1 then disarmUnit s1 u else s1
  if bit v 2 then fireUnit s2 u s2.tb.tick s2.phaseRead else s2

/-- LTt_INJCMD or LTt_CAPCMD is written (05 R223, R240): START or ARM, then STOP, through the shadow queue.
DESIGN CHOICE (notes/assumptions/88.md). -/
def tuneCommand (s : Chip) (t : Nat) (go stop : ShCmd) (v : Word) : Chip :=
  let s1 := if bit v 0 then tileQueue s t go else s
  if bit v 1 then tileQueue s1 t stop else s1

/-- A write to a dispatcher port (12 R582). -/
def portWrite (s : Chip) (p o : Nat) (v : Word) (more : Bool) : Chip :=
  match o with
  | 0x18 => postCtl s p v more
  | 0x20 => doneWrite s p v more
  | 0x24 => cancelWrite s p v more
  | 0x2C => evRaise s p v more
  | 0x30 => jcommit s p v more
  | 0x48 => stepCtl s p v more
  | 0x50 => if bit v 0 then s.wrF (Reg.dspPerr p) 2 0 0 else s
  | 0x10 => s.wr (Reg.dspPpostarg p) v
  | 0x14 => s.wr (Reg.dspPpostdly p) v
  | 0x40 => s.wr (Reg.dspPsteplo p) v
  | 0x44 => s.wr (Reg.dspPstephi p) (v &&& 0xFFFF)
  | 0x54 => s.wr (Reg.dspPinten p) (v &&& 3)
  | _ => s

/-- A register of DMA queue q is written (16 R713, R715, R716, R761). -/
def dqWrite (s : Chip) (q o a : Nat) (v : Word) : Chip :=
  let en := s.rdBit (Reg.hpcDqctl q) 0
  match o with
  | 0 => if en then s else s.wr a (v &&& 0xFFFFFFE0)
  | 4 => if en then s else s.wr a (v &&& 0xFF)
  | 8 =>
    let s1 := if en then s else s.wrF a 4 1 (fld v 4 1)
    if bit v 0 then dqEnable s1 q else s1.wrBit a 0 false
  | 12 => dqTail s q (fld v 11 0)
  | 20 => if bit v 1 then s.wrBit a 1 false else s
  | _ => s

/-- A WO or acting register: its effect, or none where the register acts by its field types alone. -/
def actingWrite (s : Chip) (src a b u o : Nat) (v : Word) (more : Bool) : Option Chip :=
  match b with
  | 0 =>
    if a = Reg.sysTbctl then .some (writeTbctl s v)
    else if a = Reg.sysRstreq then .some (sysRstreq s src v)
    else if a = Reg.sysFack then .some (sysFack s v)
    else .none
  | 2 => if a = Reg.secArbcmd then .some (arbCommit s v) else if a = Reg.secFusecmd then .some (jtagClose s v) else .none
  | 4 => if a = Reg.sigClr then .some (peakClear s v) else .none
  | 6 =>
    if a = Reg.ewnMtxtail then .some (writeMtxtail s (fld v 15 0))
    else if 0x704 ≤ o then .some (nctlWrite s ((o - 0x700) / 4) v)
    else .none
  | 8 =>
    if a = Reg.hpcAlmraise then .some (almRaise s v)
    else if 0x200 ≤ o ∧ o < 0x300 then .some (dqWrite s ((o - 0x200) / 32) (o % 32) a v)
    else .none
  | 10 => if a = Reg.clmHb then .some (h0Heartbeat s) else .none
  | 11 =>
    if 0x1000 ≤ o ∧ o < 0x2000 ∧ o % 64 = 0x28 then .some (setCommand s ((o - 0x1000) / 64) v)
    else if 0x2000 ≤ o ∧ o < 0x3000 ∧ o % 64 = 0x20 then .some (trgCommand s ((o - 0x2000) / 64) v)
    else .none
  | 12 => if 0x1000 ≤ o ∧ o < 0x1A00 then .some (portWrite s ((o - 0x1000) / 0x100) (o % 0x100) v more) else .none
  | 13 => if a = Reg.memFillcmd then .some (fillGo s v) else .none
  | 15 =>
    if a = Reg.odoCmd then .some (if bit v 0 && odoRuns s then askSnap s 3 else s)
    else if a = Reg.odoClr then .some (odoClr s (src == 12) v)
    else .none
  | 16 => if a = Reg.safAck then .some (safAck s v) else .none
  | 17 => if a = Reg.ldgCmd then .some (ldgSnap s v) else .none
  | 18 =>
    if o = 0x18 then .some (canTxreq s u false v)
    else if o = 0x1C then .some (canTxreq s u true v)
    else if o = 0x20 then .some (canTxabort s u false v)
    else if o = 0x24 then .some (canTxabort s u true v)
    else .none
  | 19 => if 0x100 ≤ o ∧ o % 32 = 4 then .some (cmpvalWrite s u ((o - 0x100) / 32) v) else .none
  | 20 => if o = 4 then .some (if bit v 0 then adcGo s u else s) else .none
  | 21 => if o % 0x1000 = 8 then .some (wdKick s (if o < 0x8000 then o / 0x1000 else 8 + (o - 0x8000) / 0x1000)) else .none
  | 32 =>
    if o = 0x1C then .some (flagClear s (256 * u + fld v 7 0) (fld v 19 8))
    else if o = 0x5C then .some (tuneCommand s u .injStart .injStop v)
    else if o = 0x88 then .some (tuneCommand s u .capArm .capStop v)
    else .none
  | _ => .none

/-- The bit of a word that turns its unit on, and acts by itself (08 R384, 09 R423, 10 R459, R466, 11 R520). -/
def isOnWord (b o : Nat) : Bool :=
  match b with
  | 18 | 19 => o == 0
  | 20 => o == 0 || (decide (0x1000 ≤ o) && o % 64 == 0)
  | 11 => decide (0x1000 ≤ o) && decide (o < 0x2000) && o % 64 == 0
  | _ => false

/-- ON or EN as its unit takes it. DEDUCED (notes/assumptions/77.md). -/
def onWrite (s : Chip) (b u o : Nat) (on : Bool) : Chip :=
  match b with
  | 18 => canOnWrite s u on
  | 19 => fbOnWrite s u on
  | 20 => if o = 0 then adcOnWrite s u on else pwmOnWrite s (4 * u + (o - 0x1000) / 64) on
  | 11 => setEnable s ((o - 0x1000) / 64) on
  | _ => s

/-- The register in which a block loads the code of a refusal (18 R823), with the bits of the code; a reader of it can tell a refusal. -/
def refusalReg (b u o a : Nat) : Option (Nat × Nat × Nat) :=
  match b with
  | 18 => .some (Reg.canCfgerr u, 31, 28)
  | 19 => .some (Reg.fbCfgerr u, 31, 28)
  | 20 => .some (Reg.adcCfgerr u, 31, 28)
  | 11 => if 0x1000 ≤ o ∧ o < 0x2000 ∧ o % 64 = 0x28 then .some (Reg.recSetstat ((o - 0x1000) / 64), 31, 28) else .some (Reg.recCfgerr, 31, 28)
  | 13 => if a = Reg.memFillcmd then .some (Reg.memFillstat, 3, 0) else .none
  | 15 => if a = Reg.odoClr then .some (Reg.odoClrstat, 3, 0) else .none
  | _ => .none

/-- The code that an action on this state loads into its block's refusal register: 0 when it refuses nothing. -/
def refusalOf (s : Chip) (b u o a : Nat) (f : Chip → Chip) : Nat :=
  match refusalReg b u o a with
  | .some (r, hi, lo) => (f (s.wrF r hi lo 0)).rdF r hi lo
  | .none => 0

/-- A write to a word with an ON bit whose CS fields may be written (00 R15, 18 R895): refused whole when its unit refuses ON.
DEDUCED (notes/assumptions/77.md). -/
def writeOnWord (s : Chip) (b u o a : Nat) (r : RegRow) (v : Word) : Chip × WrRes :=
  let f := fun (x : Chip) => onWrite (applyTypes x a { r with rw := r.rw &&& 0xFFFFFFFE } v) b u o (bit v 0)
  let code := refusalOf s b u o a f
  if code ≠ 0 ∧ (f s).rdBit a 0 != bit v 0 then (blockRefuse s b u o code, .range)
  else
    let s1 := f s
    (if b = 18 ∧ bit v 8 then canRecoverWrite s1 u else s1, .done)

/-- What follows from new words of CS fields: a trigger unit judges its condition anew (11 R504, R529). -/
def reconfigured (s : Chip) (b o : Nat) : Chip :=
  if b = 11 ∧ 0x2000 ≤ o ∧ o < 0x2800 ∧ o % 64 ≤ 4 then trgConfig s ((o - 0x2000) / 64) else s

/-- A write to a register by its types, its block's checks and its effect (00 R15, 18 R822, R823, R895). -/
def writeRow (s : Chip) (src a b u o : Nat) (r : RegRow) (v : Word) (more : Bool) : Chip × WrRes :=
  if csRuns s b u o a && ((v ^^^ s.rd a) &&& wn r.cs) != 0 then (blockRefuse s b u o 1, .busy)
  else if rangeCode s b u o a v ≠ 0 then (blockRefuse s b u o (rangeCode s b u o a v), .range)
  else
    match actingWrite s src a b u o v more with
    | .some s1 =>
      (s1, if refusalOf s b u o a (fun x => (actingWrite x src a b u o v more).getD x) ≠ 0 then .range else .done)
    | .none => if isOnWord b o then writeOnWord s b u o a r v else (reconfigured (applyTypes s a r v) b o, .done)

/-- A write into a converter's table (10 R441, R449). -/
def adcTableWrite (s : Chip) (k o : Nat) (v : Word) : Chip × WrRes :=
  let a := Reg.adcCtl k + o
  let v' := v &&& (if o % 8 = 0 then 0x8003FFFF else 0x00FF03FF)
  if s.rdBit (Reg.adcCtl k) 0 && v' != s.rd a then (adcRefuse s k 1 o, .busy)
  else if o % 8 = 0 && !adcSidOk s k v' then (adcRefuse s k 4 o, .range)
  else (s.wr a v', .done)

/-- A write into the tables of a CAN channel, as its rules take it (08 R375, R383, R388). -/
def canTableStore (s : Chip) (n o : Nat) (v : Word) : Chip × WrRes :=
  let f := fun (x : Chip) => canTableWrite x n o v
  let code := refusalOf s 18 n o 0 f
  (f s, if code = 0 then .done else if code = 1 then .busy else .range)

/-- A write of a slot record word (03 R135–R140); words 30 and 31 are reserved. -/
def slotStore (s : Chip) (lid w : Nat) (v : Word) : Chip × WrRes :=
  let code := slotCode s lid w v
  if 30 ≤ w then (s, .done)
  else if code ≠ 0 then (slotRefuse s lid w code, if code = 1 then .busy else .range)
  else (slotWrite s lid w v, if slotWaits s lid w v then .waits else .done)

/-- A write into the injection table (05 R217, R218). -/
def injTableWrite (s : Chip) (t i : Nat) (v : Word) : Chip × WrRes :=
  if s.rdBit (Reg.ltInjstat t) 0 && s.rdF (Reg.ltInjctl t) 1 0 == 3 then (tuneRefuse s t (Reg.ltInjstat t) 1, .busy)
  else (touchWords { s with eng := { s.eng with injTab := Tab.set 0 s.eng.injTab (4096 * t + i) v } } (0x18010000 + 0x100000 * t + 4 * i) 4, .done)

/-- The tile command at an address finds its tile's shadow queue full, so the writer waits (03 R137). -/
def tuneWaits (s : Chip) (b u o : Nat) (v : Word) : Bool :=
  b == 32 && (o == 0x5C || o == 0x88) && (bit v 0 || bit v 1) && decide ((shq s u).length + b2n (bit v 0) + b2n (bit v 1) > 256)

/-- A write of a held word or tile command that its tile's queue now takes, or that goes on waiting (03 R137). -/
def releaseOne (s : Chip) (h : HeldWrite) : Chip :=
  match h with
  | .record _ lid w v =>
    let r := slotStore s lid w v
    if r.2 = .waits then { s with eng := { s.eng with waits := s.eng.waits ++ [h] } } else r.1
  | .tune _ t capture v =>
    if tuneWaits s 32 t 0x5C v then { s with eng := { s.eng with waits := s.eng.waits ++ [h] } }
    else if capture then tuneCommand s t .capArm .capStop v
    else tuneCommand s t .injStart .injStop v

/-- The commit point, once a tick, and after it the writes that waited for it, in the order in which they came (03 R136, R137). -/
def tileCommitPoint (s : Chip) : Chip :=
  if s.eng.pointDone then s
  else
    let s1 := commitPoint s
    if s1.eng.waits = [] then s1 else s1.eng.waits.foldl releaseOne { s1 with eng := { s1.eng with waits := [] } }

/-- A write to a tile that is stamped at phase 2,000 falls after the commit point of its tick (03 R136). -/
def tileDue (s : Chip) : Chip := if s.phaseRead = 2000 && s.booted then tileCommitPoint s else s

/-- A word of the MSI-X table is written (16 R761): every bit of it is kept, the reserved bits of vector control too; the spec says only 'As
PCIe'. A vector whose mask bit goes to 0 is sent if it is pending. DESIGN CHOICE (notes/assumptions/29.md). -/
def msixWrite (s : Chip) (a o : Nat) (v : Word) : Chip := sendPending (s.wr a (v ^^^ wn (b2n (o % 16 == 12)))) ((o - 0x8000) / 16)

/-- A write to a place of the register space by an agent that may write it. -/
def placeWrite (s : Chip) (src a : Nat) (v : Word) (more : Bool) : Place → Chip × WrRes
  | .reg b u o r =>
    if b = 32 then (if tuneWaits (tileDue s) b u o v then (tileDue s, .waits) else writeRow (tileDue s) src a b u o r v more)
    else writeRow s src a b u o r v more
  | .canTable n o => canTableStore (clearFlips s a 4) n o v
  | .adcTable k o => adcTableWrite (clearFlips s a 4) k o v
  | .mailTx i => (clearFlips { s with ewn := { s.ewn with txMem := Tab.set 0 s.ewn.txMem i v } } a 4, .done)
  | .msix o => (if o < 0x9000 then msixWrite (clearFlips s a 4) a o v else s, .done)
  | .slotRec lid w => slotStore (tileDue s) lid w v
  | .injTable t i => injTableWrite s t i v
  | _ => (s, .done)

/-- A write to a register-space address by an agent (00 R15–R19, 16 R733, R734): `more` tells that another port operation follows in
the same dispatcher cycle (12 R552). -/
def regWrite (s : Chip) (src a : Nat) (v : Word) (more : Bool) : Chip × WrRes :=
  match placeOf a with
  | .none => (s, .access)
  | .some p =>
    if coreAddr a && s.rst.inCore then (s, .restart)
    else if !answers s src a then (s, .access)
    else if !regAuth s src a then
      let s1 := if a = Reg.odoClr then odoClr s (src == 12) v else s
      (if srcIsHost src then authRefuse s1 else s1, .auth)
    else placeWrite s src a v more p

/-- A mapped word of the memories that the host commands read (16 R736): journal, MRAM or DRAM. None for an address that 00 R22, 03 R157
and 12 R565 leave unmapped. -/
def memRead (s : Chip) (a : Nat) : Option Byte :=
  if 0x03000000 ≤ a ∧ a < 0x03040000 then
    let o := a - 0x03000000
    let r := Tab.get JRec.zero s.eng.journal (2 * (256 * (o / 0x4000) + o % 0x2000 / 32) + o % 0x4000 / 0x2000)
    .some (BitVec.ofNat 8 (leAt (jrecBytes r) (o % 32) 1))
  else if 0x03040000 ≤ a ∧ a < 0x03042000 then
    .some (BitVec.ofNat 8 (leAt (timerBytes (timerOf s ((a - 0x03040000) / 8))) (a % 8) 1))
  else if 0x03060000 ≤ a ∧ a < 0x03062800 then .some (s.byteAt a)
  else if 0x03080000 ≤ a ∧ a < 0x03180000 then .some (s.byteAt a)
  else if 0x03180000 ≤ a ∧ a < 0x03200000 then
    .some (BitVec.ofNat 8 ((Tab.get 0 s.eng.mirror ((a - 0x03180000) / 4)).toNat / 2 ^ (8 * (a % 4))))
  else if 0x04000000 ≤ a ∧ a < 0x06000000 then .some (s.byteAt a)
  else if isDram a then .some (s.byteAt a)
  else .none

/-- The byte that a place in memory was last written with, whichever block keeps it (13 R587): store entries with AGE as it is read, tile
SRAMs and block RAMs by their windows, journal and mirror as they are read, and the memory list. -/
def dataByte (s : Chip) (p : Nat) : Byte :=
  if 0x02000000 ≤ p ∧ p < 0x02200000 then
    match Tab.get? s.store.decls ((p - 0x02000000) / 8) with
    | .some d =>
      let e := s.entryOf ((p - 0x02000000) / 8) d
      (leBytes 4 (w32 e.value).toNat ++ leBytes 4 (e.carried.bits + 8 * b2n e.subst + 16 * b2n e.held + 32 * b2n e.gated +
        e.wseq % 256 * 2 ^ 8 + ageAt e s.tb.tick * 2 ^ 16)).getD (p % 8) 0
    | .none => 0
  else if isRegs p then
    match placeOf (p / 4 * 4) with
    | .some q => BitVec.ofNat 8 ((placeRead s 0 (p / 4 * 4) q).toNat / 2 ^ (8 * (p % 4)))
    | .none => 0
  else if 0x03000000 ≤ p ∧ p < 0x03200000 then (memRead s p).getD 0
  else s.byteAt p

/-- The stored codeword of a byte of SRAM (13 R587): its data bits and its check bits, damaged or not. -/
def storedByte (s : Chip) (p : Nat) : Nat × Nat := storedAs s p (dataByte s p)

/-- A write waits with its writer for the next commit point of its tile (03 R137). -/
def holdWrite (s : Chip) (src a : Nat) (v : Word) : Chip :=
  let h : Option HeldWrite := match placeOf a with
    | .some (.slotRec lid w) => .some (.record src lid w v)
    | .some (.reg 32 u o _) => .some (.tune src u (o == 0x88) v)
    | _ => .none
  match h with
  | .some x => { s with eng := { s.eng with waits := s.eng.waits ++ [x] } }
  | .none => s

end Sys2Proof.Machine
end

