-- ==== Sys2Proof/Machine/Stage.lean ====
section
/-!
DEFINITION. Staging, swapping and patching a consist while the machine runs (18 R826–R838).
-/

namespace Sys2Proof.Machine

/-- What a host command answers (16 R735): STATUS of R737, RES0, RES1 and the body. -/
structure Rsp where
  status : Nat
  res0 : Nat
  res1 : Nat
  body : List Byte
  deriving DecidableEq, Repr

/-- OK with two results. -/
def Rsp.ok (res0 res1 : Nat) : Rsp := ⟨0, res0, res1, []⟩
/-- A status without results. -/
def Rsp.fail (status : Nat) : Rsp := ⟨status, 0, 0, []⟩

/-- A flag of CST_EVT (R839). -/
def Chip.cstFlag (s : Chip) (e : Nat) : Chip := s.flag Reg.cstEvt Reg.cstEvten e (32 + e)

/-- STAGE of CST_STAT (R839): 0 none, 1 receiving, 2 verifying, 3 verified. -/
def cstStage (s : Chip) : Nat := s.rdF Reg.cstStat 3 2

/-- The bank that is not running (R826). -/
def stageBank (s : Chip) : Nat := bankAddr (1 - runBank s)

/-- The bytes staged so far. -/
def stagedImage (s : Chip) : List Byte := s.bytes (stageBank s) (s.rd Reg.cstStglen).toNat

/-- A swap is in progress (R826, R829): from its acceptance to the first coach with HOLD = 0. -/
def swapping (s : Chip) : Bool := s.rst.swap || s.rst.swapped

/-- No consist is staged (R826); a verification that a warm restart has cut is not taken up again. -/
def dropStaged (s : Chip) : Chip :=
  let s1 := ((s.wr Reg.cstStglen 0).wrF Reg.cstStat 3 2 0)
  syncSeatPend { s1 with hst := { s1.hst with stgTtver := 0, stgNodes := [], resend := [], verifyCut := false } }

/-- CSTSTAGE (R826): END starts the verification, and the island of its engine (17 R783). Bytes that come without BEGIN while no consist is being received are refused as out of range.
DEDUCED (notes/assumptions/56.md). -/
def cstStageCmd (s : Chip) (arg0 arg1 : Nat) (body : List Byte) : Chip × Rsp :=
  let begins := natBit arg1 0
  let s0 := if begins then (dropStaged s).wrF Reg.cstStat 3 2 1 else s
  let at0 := (s0.rd Reg.cstStglen).toNat
  if body.length > 1440 then (s, Rsp.fail 11)
  else if cstStage s = 2 ∨ swapping s then (s, Rsp.fail 7)
  else if arg0 ≠ at0 ∨ cstStage s0 ≠ 1 ∨ at0 + body.length > 8388608 then (s, Rsp.fail 6)
  else
    let s1 := (s0.putBytes (stageBank s0 + at0) body).wr Reg.cstStglen (wn (at0 + body.length))
    if natBit arg1 1 then (askStart (s1.wrF Reg.cstStat 3 2 2) 24, Rsp.ok (at0 + body.length) 0) else (s1, Rsp.ok 0 0)

/-- A downlink frame of the host command engine enters its mail queue (06 R286, 16 R740, 19 R844), MFL.MORE 0 in every one (R291).
DESIGN CHOICE (notes/assumptions/91.md). -/
def engineMail (s : Chip) (d type corr : Nat) (body : List Byte) : Chip :=
  let f : MailFrame := ⟨d, type, false, corr, body, 1, 0, 0, 0, 0⟩
  { s with ewn := { s.ewn with engQ := s.ewn.engQ ++ [f] } }.led 1 0 1

/-- SEATLOAD bodies of a node: at most 127 descriptors in a frame (06 R279, R291). -/
def seatLoads (ttver ttj : Nat) : Nat → Nat → List (List Byte) → List (List Byte)
  | 0, _, _ => []
  | fuel + 1, first, ds =>
    match ds with
    | [] => []
    | _ => (leBytes 4 ttver ++ leBytes 1 ttj ++ [0] ++ leBytes 2 first ++ (ds.take 127).flatten) ::
        seatLoads ttver ttj fuel (first + 127) (ds.drop 127)

/-- The tag of an engine frame of the timetable: the engine chooses it (16 R740). DESIGN CHOICE (notes/assumptions/30.md). -/
def seatCorr (s : Chip) : Nat := 0x80000000 + Config.mailTag s.draws % 0x80000000

/-- The timetable of a consist goes to a node: SEATLOAD frames and a SEATCOMMIT (06 R291, R828).
DESIGN CHOICE (notes/assumptions/30.md). DEDUCED (notes/assumptions/70.md). -/
def sendTimetable (c : Cst) (s : Chip) (d : Nat) : Chip :=
  let ds := c.descriptors d
  let ttj := leAt (c.bytes 4) 4 1
  let commit := leBytes 4 c.ttver ++ leBytes 2 ds.length ++ [0, 0] ++ leBytes 4 (crc32c ds.flatten)
  let one := fun (x : Chip) (m : Nat × List Byte) => (engineMail x d m.1 (seatCorr x) m.2).draw
  ((seatLoads c.ttver ttj ds.length 0 ds).map (fun b => (2, b)) ++ [(3, commit)]).foldl one s

/-- The nodes of the staged consist that are in MAIL or SEAT (R828). -/
def stagedNodes (s : Chip) : List Nat := s.hst.stgNodes.filter (fun d => inMail s d)

/-- No node has answered the timetable of a consist that has just been staged (R828): an answer to an earlier staging of its TTVER goes. -/
def forgetAcks (s : Chip) (ttver : Nat) : Chip :=
  nodeNums.foldl (fun x d =>
    if (nodeSt x d).seatAck.contains ttver then setNodeSt x d { nodeSt x d with seatAck := (nodeSt x d).seatAck.filter (· != ttver) } else x) s

/-- Verification of a staged consist has ended (R827, R828), and its engine may rest (17 R783). -/
def stageVerifyDone (s : Chip) : Chip :=
  if cstStage s ≠ 2 then s
  else
    let img := stagedImage s
    let len := (s.rd Reg.cstStglen).toNat
    match stageCheck s img len ((consistNow s).bytes 13) with
    | .some e => hashRest (((s.wr Reg.cstStgerr (errWord e)).wrF Reg.cstStat 3 2 0).cstFlag 1)
    | .none =>
      let c := parseCst img
      let s1 := forgetAcks (hashRest (((s.wrF Reg.cstStat 3 2 3).wr Reg.cstStgid (wn c.cstid)).cstFlag 0)) c.ttver
      let s2 := { s1 with hst := { s1.hst with stgTtver := c.ttver, stgNodes := c.nodes.map (·.1), resend := [] } }
      syncSeatPend ((stagedNodes s2).foldl (sendTimetable c) s2)

/-- Nodes that have entered MAIL since the state `before` receive the staged timetable (R828). DEDUCED (notes/assumptions/70.md). -/
def sendToEntrants (before s : Chip) : Chip :=
  if cstStage s ≠ 3 then s
  else
    let news := (stagedNodes s).filter (fun d => !inMail before d)
    if news = [] then s else news.foldl (sendTimetable (parseCst (stagedImage s))) s

/-- Once per survey round the staged timetable goes again to the nodes that have refused it (R828). -/
def sendAgain (s : Chip) : Chip :=
  let ds := s.hst.resend.filter (fun d => seatPends s d)
  if cstStage s ≠ 3 ∨ ds = [] then s
  else
    let s1 := ds.foldl (sendTimetable (parseCst (stagedImage s))) s
    { s1 with hst := { s1.hst with resend := [] } }

/-- Enabled slots whose effective mode is AUTO or TRACK (R829). -/
def busySlots (s : Chip) : Bool :=
  (recordLids s).any (fun lid => (slotCfg s lid).en && ((slotSt s lid).mode == 2 || (slotSt s lid).mode == 3))

/-- The conditions of R829 on the state: no restart, swap or patch, stage 0, no injection, capture, POST or fill. -/
def swapStateOk (s : Chip) : Bool :=
  !s.rdBit Reg.sysStat 1 && s.rst.cause.isNone && s.rst.waiting.isNone && !swapping s && s.patch.isNone && s.stage == 0 &&
    (List.range 16).all (fun t => !s.rdBit (Reg.ltInjstat t) 0 && s.rdF (Reg.ltCapstat t) 1 0 != 2) &&
    (List.range 64).all (fun i => halfState s i 0 != 2 && halfState s i 1 != 2) && s.memu.fill.isNone

/-- The first condition of R829 that fails: its code, and 0 when all hold. -/
def swapCheck (s : Chip) (cstid : Nat) : Nat :=
  if cstStage s ≠ 3 then 16
  else if cstid ≠ (s.rd Reg.cstStgid).toNat then 17
  else if busySlots s then 18
  else if s.rd Reg.cstSeatpendlo != 0 || s.rd Reg.cstSeatpendhi != 0 then 19
  else if !swapStateOk s then 20
  else 0

/-- CSTSWAP (R829, R830): an accepted swap is a warm restart with cause WARMREQ. -/
def cstSwapCmd (s : Chip) (src cstid : Nat) : Chip × Rsp :=
  let code := swapCheck s cstid
  if code = 0 then
    let s1 := s.wrBit Reg.cstStat 5 true
    (({ s1 with rst := { s1.rst with swap := true } }).fault 5 (0x80 + src), Rsp.ok 0 0)
  else (s.wr Reg.cstStgerr (wn (code * 2 ^ 24)), Rsp.fail (if code ≤ 17 then 6 else 7))

/-- A patch record (R834): KIND, ATTR, address or SID, MASK, value. -/
structure PatchRec where
  kind : Nat
  attr : Nat
  addr : Nat
  mask : Nat
  val : Word
  deriving DecidableEq, Repr

/-- A patch record read from its 16 bytes. -/
def patchRec (b : List Byte) : PatchRec :=
  let k := leAt b 0 1
  ⟨k, leAt b 2 1, if k = 1 then leAt b 4 4 + leAt b 2 1 * 2 ^ 32 else leAt b 4 4 % 262144, leAt b 8 4, wn (leAt b 12 4)⟩

/-- The bits of a word that a patch may write (R835): SH, LV and RW fields of a register or slot-record word; none elsewhere. -/
def patchable (a : Nat) : Option Nat :=
  match placeOf a with
  | .some (.reg _ _ _ r) => .some (r.rw ||| r.sh ||| r.lv)
  | .some (.slotRec _ w) => .some (wordSh w ||| wordLv w)
  | _ => .none

/-- CLASS of R835 for one record. DEDUCED (notes/assumptions/56.md). -/
def patchClassOk (p : PatchRec) : Bool :=
  if p.kind = 2 then true
  else if p.kind = 1 then
    match patchable p.addr with
    | .some m => p.mask &&& m == p.mask
    | .none => false
  else false

/-- The declaration of a SID as its waiting writes leave it (02 R81). -/
def declEff (s : Chip) (sid : Nat) : Option SidDecl :=
  match s.store.shadow.reverse.find? (fun e => e.1 == sid) with
  | .some e => .some e.2
  | .none => Tab.get? s.store.decls sid

/-- An attribute of a declaration replaced (R834). -/
def setAttr (attr : Nat) (v : Word) (d : SidDecl) : SidDecl :=
  match attr with
  | 1 => { d with limit := v.toNat }
  | 2 => { d with fallback := s32 v }
  | 3 => { d with lo := s32 v }
  | 4 => { d with hi := s32 v }
  | 5 => { d with lossFallback := bit v 0 }
  | _ => d

/-- A SIG record written (R836, 02 R80, R81): STALE at once, every other attribute for the tick boundary. -/
def patchSig (s : Chip) (p : PatchRec) : Chip :=
  match declEff s p.addr with
  | .none => s
  | .some d =>
    if p.attr = 1 then
      let f := fun (e : Nat × SidDecl) => if e.1 = p.addr then (e.1, setAttr 1 p.val e.2) else e
      { s with store := { s.store with decls := s.store.decls.map f, shadow := s.store.shadow.map f } }
    else { s with store := { s.store with shadow := s.store.shadow ++ [(p.addr, setAttr p.attr p.val d)] } }

/-- A register word with its SH fields as the writes that wait for the tick boundary leave them (00 R15). -/
def shadowed (s : Chip) (a : Nat) : Word :=
  s.shadow.foldl (fun w e => if e.1 = a then merge w e.2.1 e.2.2 else w) (s.rd a)

/-- A REG record written (R836), only its MASK bits, with whether its field takes the value; a record of a slot whose shadow queue is full is
judged, and applied, as though it had room: R837 sees to that. -/
def patchReg (s : Chip) (p : PatchRec) : Chip × Bool :=
  match placeOf p.addr with
  | .some (.reg b u o r) =>
    let r' : RegRow := { r with rw := r.rw &&& p.mask, sh := r.sh &&& p.mask, lv := r.lv &&& p.mask, cs := 0, w1c := 0, w1s := 0 }
    let q := writeRow s 0 p.addr b u o r' (merge (shadowed s p.addr) p.val p.mask) false
    (q.1, q.2 != .range)
  | .some (.slotRec lid w) =>
    let v := merge (recEff s lid w) p.val p.mask
    if slotJudge s lid w v = 0 then (slotApply s lid w v (slotEnabling s lid w v), true) else (s, false)
  | _ => (s, false)

/-- One record of a patch written. -/
def patchOne (s : Chip) (p : PatchRec) : Chip := if p.kind = 2 then patchSig s p else (patchReg s p).1

/-- FIELD of R835 for record i, judged with every other record applied. -/
def patchFieldOk (s : Chip) (ps : List PatchRec) (i : Nat) : Bool :=
  match ps[i]? with
  | .none => true
  | .some p =>
    let x := (ps.eraseIdx i).foldl patchOne s
    if p.kind = 2 then
      match declEff (patchOne x p) p.addr with
      | .none => false
      | .some d => within p.attr 1 5 && (p.attr == 1 || d.isOut) && (p.attr != 1 || decide (p.val.toNat < 65536)) &&
          (p.attr != 5 || decide (p.val.toNat < 2)) && decide (d.lo ≤ d.hi)
    else (patchReg x p).2

/-- The first record of a patch that R835 refuses: its code and index. DEDUCED (notes/assumptions/56.md). -/
def patchCheck (s : Chip) (ps : List PatchRec) : Option (Nat × Nat) :=
  (List.range ps.length).findSome? (fun i =>
    if !(ps[i]?.map patchClassOk).getD true then .some (24, i)
    else if !patchFieldOk s ps i then .some (25, i)
    else .none)

/-- CST_PERR with a code and a record index (R839). -/
def patchErr (s : Chip) (code i : Nat) : Chip := s.wr Reg.cstPerr (wn (code * 2 ^ 24 + i))

/-- CSTPATCH (R833–R835). -/
def cstPatchCmd (s : Chip) (arg0 arg1 : Nat) (body : List Byte) : Chip × Rsp :=
  let apply := if arg0 = 0 then (s.tb.tick + 1) % 2 ^ 32 else arg0
  let ahead := (apply + 2 ^ 32 - s.tb.tick % 2 ^ 32) % 2 ^ 32
  let n := body.length / 16
  if body.length % 16 ≠ 0 ∨ n = 0 ∨ n > 91 then (s, Rsp.fail 11)
  else if s.patch.isSome || s.rdBit Reg.sysStat 1 then (patchErr s 20 0, Rsp.fail 7)
  else if arg1 ≠ 0 then (s, Rsp.fail 6)
  else if ahead = 0 ∨ ahead > 65536 then (patchErr s 26 0, Rsp.fail 6)
  else
    let bs := chunks 16 n body
    match patchCheck s (bs.map patchRec) with
    | .some e => (patchErr s e.1 e.2, Rsp.fail 6)
    | .none =>
      let s1 := (s.wrBit Reg.cstStat 6 true).wr Reg.cstPapply (wn apply)
      ({ s1 with patch := .some ⟨apply, bs, 0⟩ }, Rsp.ok ((s.rd Reg.cstPcnt).toNat + 1) 0)

/-- The pending patch leaves, applied or dropped. -/
def patchGone (s : Chip) : Chip :=
  { ((s.wrBit Reg.cstStat 6 false).wr Reg.cstPapply 0) with patch := .none }

/-- A patch is dropped (R837). -/
def patchDrop (s : Chip) (code : Nat) : Chip := ((patchErr (patchGone s) code 0).bump Reg.cstPlost).cstFlag 5

/-- Every tile's shadow queue has room for the patch's writes to it (R837). -/
def patchRoom (s : Chip) (ps : List PatchRec) : Bool :=
  let x := ps.foldl patchOne s
  (List.range 16).all (fun t => (shq x t).length == (shq s t).length || decide ((shq x t).length ≤ 256))

/-- CRC-32C continued over more bytes (R838). -/
def crcMore (prev : Nat) (bs : List Byte) : Nat := Nat.xor (bs.foldl (crcByte 0x82F63B78) (Nat.xor prev 0xFFFFFFFF)) 0xFFFFFFFF

/-- The last cycle of the tick before APPLY, or of a tick in which the patch waits, has come (R836, R837). -/
def patchDue (s : Chip) (p : Patch) : Bool :=
  decide ((s.tb.tick + 1 + 2 ^ 33 - (p.apply + p.waited) % 2 ^ 32) % 2 ^ 32 < 2 ^ 31)

/-- The last cycle of a tick for the pending patch (R836–R838). -/
def patchApply (s : Chip) : Chip :=
  match s.patch with
  | .none => s
  | .some p =>
    if !patchDue s p then s
    else
      let s0 := s.atPhase 9999
      let ps := p.recs.map patchRec
      if s0.rdBit Reg.sysStat 1 then patchDrop s0 28
      else if !patchRoom s0 ps then
        if p.waited ≥ 16 then patchDrop s0 27 else { s0 with patch := .some { p with waited := p.waited + 1 } }
      else
        let s1 := patchGone (ps.foldl patchOne s0)
        ((s1.bump Reg.cstPcnt).wr Reg.cstPcrc (wn (crcMore (s1.rd Reg.cstPcrc).toNat p.recs.flatten))).cstFlag 4

end Sys2Proof.Machine
end

