-- ==== Sys2Proof/Machine/Hosts.lean ====
section
/-!
DEFINITION. The host command engine (16 R735–R741): taking a command, its port's authority, the response, and what each command does.
-/

namespace Sys2Proof.Machine

/-- The SRC code of a host port (02 R113). -/
def portSrc : HostPort → Nat
  | .h0 => 10
  | .tlan => 11
  | .h3 => 12
  | .jtag => 16

/-- The header of a command as its response needs it. -/
def hdrOf (h : HostCmd) : HostHdr := ⟨portSrc h.port, h.mac.toNat, h.norsp, h.cseq.toNat⟩

/-- Entries of the rings of H0 (16 R739). -/
def ringEntries (s : Chip) : Nat := 2 ^ s.rdF Reg.hpcCqctl 4 1

/-- H0's link is up. -/
def h0Up (s : Chip) : Bool := s.rdBit Reg.hpcStat 0

/-- The command ring of H0 holds a command. -/
def h0Waiting (s : Chip) : Bool :=
  h0Up s && s.rdBit Reg.hpcCqctl 0 &&
    (s.rd Reg.hpcCqhead).toNat % ringEntries s != (s.rd Reg.hpcCqtail).toNat % ringEntries s

/-- The port runs a WRSIG command, whose response is still to come (16 R738). -/
def wrsigRuns (s : Chip) (src : Nat) : Bool := (Tab.get .none s.hst.wrsig src).isSome

/-- H0's response ring has a free entry beside the one that a WRSIG command keeps for its response: a tail that reached the head would make
it read empty. DEDUCED (notes/assumptions/45.md). -/
def h0Room (s : Chip) : Bool :=
  let n := ringEntries s
  decide (((s.rd Reg.hpcRqtail).toNat + n - (s.rd Reg.hpcRqhead).toNat % n) % n + 1 + b2n (wrsigRuns s 10) < n)

/-- A response to this sender can leave now: one to H0 needs a free entry. DEDUCED (notes/assumptions/45.md). -/
def rspRoom (s : Chip) (r : HostHdr) : Bool := r.norsp || r.src != 10 || !h0Up s || h0Room s

/-- A posted write of H0 to BAR2 waits for its stamp: no command of H0 executes before it (16 R712). -/
def h0Posted (s : Chip) : Bool := (Tab.get [] s.store.p3q 10).any (fun w => w.src == 10)

/-- Opcodes of 16 R736. -/
def opcodes : List Nat :=
  [0x01, 0x02, 0x03, 0x04, 0x05, 0x06, 0x10, 0x11, 0x12, 0x20, 0x21, 0x22, 0x30, 0x31, 0x40, 0x41, 0x50, 0x51, 0x52, 0x58, 0x59, 0x5A]

/-- The entry at HPC_CQHEAD of H0's command ring in host memory (16 R739). -/
def h0Entry (s : Chip) : List Byte :=
  (List.range 1472).map (fun i =>
    s.hostByte (addr64 s Reg.hpcCqbaselo Reg.hpcCqbasehi + 2048 * ((s.rd Reg.hpcCqhead).toNat % ringEntries s) + i))

/-- The entry spells the command (16 R735); HBEAT is never answered, whatever its NORSP. -/
def spells (b : List Byte) (op : Nat) (h : HostCmd) : Bool :=
  leAt b 0 1 == op && (op == 0x11 || natBit (leAt b 1 1) 0 == h.norsp) && leAt b 2 2 == h.body.length && leAt b 4 4 == h.cseq.toNat &&
    leAt b 8 4 == h.arg0.toNat && leAt b 12 4 == h.arg1.toNat && sliceB b 16 h.body.length == h.body

/-- H0 has a command that can execute: its ring is not empty, no posted write goes before it, and its response has room. -/
def h0Ready (s : Chip) : Bool :=
  h0Waiting s && !h0Posted s && rspRoom s ⟨10, 0, natBit (leAt (h0Entry s) 1 1) 0, 0⟩

/-- The port holds this command (16 R725, R729, R731, R739). -/
def portHolds (s : Chip) (op : Nat) (h : HostCmd) : Bool :=
  match h.port with
  | .h0 => h0Ready s && spells (h0Entry s) op h
  | .tlan => match s.hst.lanQ with
    | c :: _ => c == ⟨h.mac.toNat, op, h.norsp || op == 0x11, h.cseq.toNat⟩
    | [] => false
  | .h3 => usbUp s
  | .jtag => tapOpen s

/-- Recovery (16 R757). -/
def inRecovery (s : Chip) : Bool := s.rdBit Reg.hpcStat 8

/-- A register offset of BAR0 as a local address (16 R710). -/
def bar0 (o : Nat) : Nat := 0x10000000 + o

/-- Words asked for by RDREG. -/
def askedWords (h : HostCmd) : Nat := h.arg1.toNat

/-- A command that recovery accepts (16 R757), by opcode, ARG0 and ARG1: PING, RDREG of the SEC block, FLASH commands. -/
def recoveryTakes (op arg0 arg1 : Nat) : Bool :=
  op == 1 || op == 0x58 || op == 0x59 || op == 0x5A ||
    (op == 4 && decide (Reg.secSeriallo ≤ bar0 arg0) && decide (bar0 arg0 + 4 * arg1 ≤ Reg.secSeriallo + 0x100000))

/-- A port other than this one has a command in its ring or queue that could execute, so that it takes its turn in the rotation (16 R738). -/
def portWaits (s : Chip) (p : Nat) : Bool :=
  match p with
  | 0 =>
    let b := h0Entry s
    h0Ready s && !wrsigRuns s 10 && (!inRecovery s || recoveryTakes (leAt b 0 1) (leAt b 8 4) (leAt b 12 4))
  | 1 => !s.hst.lanQ.isEmpty && !wrsigRuns s 11 && !inRecovery s
  | _ => false

/-- The ports between the one whose turn is next and port `p` have nothing to execute (16 R738). DEDUCED (notes/assumptions/44.md). -/
def turnComes (s : Chip) (p : Nat) : Bool :=
  (((List.range 4).map (fun i => (s.hst.turn + i) % 4)).takeWhile (· != p)).all (fun q => !portWaits s q)

/-- The home-port number of a host port (16 R742): 0 H0, 1 the tool LAN, 2 H3. -/
def homeOf (p : HostPort) : Nat :=
  match p with
  | .h0 => 0
  | .tlan => 1
  | .h3 => 2
  | .jtag => 3

/-- The engine may take this command from its port now: after BOOT_DONE, or in recovery on H0 and H3, and not while a WRSIG command of the
port runs (16 R738). DEDUCED (notes/assumptions/44.md). -/
def cmdReady (s : Chip) (op : Nat) (h : HostCmd) : Bool :=
  portHolds s op h && !wrsigRuns s (portSrc h.port) && turnComes s (homeOf h.port) &&
    (if inRecovery s then (h.port == .h0 || h.port == .h3) && recoveryTakes op h.arg0.toNat h.arg1.toNat else s.booted)

/-- A command is taken from its port and counted, and the turn goes to the next port (16 R725, R738, R739, R761–R763).
DEDUCED (notes/assumptions/44.md). -/
def takeFrom (s : Chip) (p : HostPort) : Chip :=
  let s1 := match p with
    | .h0 => s.wr Reg.hpcCqhead (wn (((s.rd Reg.hpcCqhead).toNat + 1) % ringEntries s))
    | .tlan => { s with hst := { s.hst with lanQ := s.hst.lanQ.tail } }
    | .h3 => s.bump Reg.svcRxcmd
    | .jtag => s
  ({ s1 with hst := { s1.hst with sent := [], turn := (homeOf p + 1) % 4 } }).bump Reg.hpcCmdcnt

/-- The command is taken from its port. -/
def cmdTake (s : Chip) (h : HostCmd) : Chip := takeFrom s h.port

/-- The image of a response (16 R735). -/
def rspBytes (op cseq : Nat) (r : Rsp) : List Byte :=
  leBytes 1 (op + 0x80) ++ leBytes 1 r.status ++ leBytes 2 r.body.length ++ leBytes 4 cseq ++ leBytes 4 r.res0 ++ leBytes 4 r.res1 ++ r.body

/-- A response leaves on its port (16 R725, R730, R735, R739). One for H0 is lost while the link is down.
On the tool LAN it is a device frame of KIND 1 (R724).
DEDUCED (notes/assumptions/45.md). DESIGN CHOICE (notes/assumptions/74.md). -/
def respond (s : Chip) (k : HostHdr) (op : Nat) (r : Rsp) : Chip :=
  let bs := rspBytes op k.cseq r
  if k.norsp then s
  else if k.src = 10 then
    if h0Up s then
      let t := (s.rd Reg.hpcRqtail).toNat % ringEntries s
      let s1 := s.putHost (addr64 s Reg.hpcRqbaselo Reg.hpcRqbasehi + 2048 * t) bs
      (s1.wr Reg.hpcRqtail (wn ((t + 1) % ringEntries s))).signal 5
    else s
  else if k.src = 12 && !s.rdBit Reg.svcStat 0 then s.bump Reg.svcRsplost
  else if k.src = 11 then
    let s1 := hsrNext s
    { s1 with hst := { s1.hst with sent := s1.hst.sent ++ lanCopies s1 k.mac 1 bs } }
  else { s with hst := { s.hst with sent := s.hst.sent ++ [(k.src, k.mac, bs)] } }

/-- The command at the head of H0's ring or of the tool-LAN queue that names no opcode, or is longer than any may be, when it can execute: its
sender, its opcode and the status it is answered with (16 R735–R737). -/
def headUnknown (s : Chip) (p : HostPort) : Option (HostHdr × Nat × Nat) :=
  let e : Option (HostHdr × Nat × Nat) := match p with
    | .h0 =>
      let b := h0Entry s
      if h0Ready s then .some (⟨10, 0, natBit (leAt b 1 1) 0, leAt b 4 4⟩, leAt b 0 1, leAt b 2 2) else .none
    | .tlan => s.hst.lanQ.head?.map (fun c => (⟨11, c.mac, c.norsp, c.cseq⟩, c.op, 0))
    | _ => .none
  if wrsigRuns s (portSrc p) || !s.booted then .none
  else match e with
    | .some (k, op, n) =>
      if !opcodes.contains op then .some (k, op, 10) else if n > 1456 then .some (k, op, 11) else .none
    | .none => .none

/-- Such commands are answered in their turn (16 R736–R738); `n` bounds them. -/
def answerUnknown (p : HostPort) : Nat → Chip → Chip
  | 0, s => s
  | n + 1, s =>
    match headUnknown s p with
    | .some (k, op, st) =>
      let s1 := takeFrom s p
      answerUnknown p n (respond { s1 with hst := { s1.hst with sent := s.hst.sent } } k op (Rsp.fail st))
    | .none => s

/-- Every unknown command whose turn has come is answered. -/
def unknownDone (s : Chip) : Chip := answerUnknown .tlan 64 (answerUnknown .h0 4096 s)

/-- The authorities of 16 R733 that commands need, by column: held by H0, the tool LAN, H3, H3 in maintenance, JTAG. -/
inductive Authority where
  | read | wsig | claim | recipe | mail | restart | alm | attest | consist | flash
  deriving DecidableEq, Repr

/-- The port holds the authority (16 R733). In recovery H3 holds FLASH (16 R757). -/
def holds (s : Chip) (p : HostPort) (a : Authority) : Bool :=
  match a, p with
  | .read, _ | .wsig, _ | .alm, _ | .attest, _ => true
  | .claim, p => p != .jtag
  | _, .h0 => true
  | .recipe, .tlan | .mail, .tlan | .restart, .tlan => true
  | .consist, .tlan | .flash, .tlan => false
  | .flash, .h3 => maintSel s || inRecovery s
  | _, .h3 => maintSel s
  | _, .jtag => true

/-- A command runs (16 R735–R741): its port's turn, its authority, its effect and its response. `f` gives the state and the response, a
response owed later, or nothing while a write of it waits (03 R137); then the command stays at its port.
DEDUCED (notes/assumptions/44.md). -/
def hostRun (s : Chip) (op : Nat) (a : Authority) (h : HostCmd) (late : Bool) (f : Chip → Option (Chip × Option Rsp)) : Chip :=
  if !cmdReady s op h then s
  else
    let s1 := cmdTake s h
    let k := hdrOf h
    if late then respond s1 k op (Rsp.fail 12)
    else if !holds s h.port a then respond (authRefuse s1) k op (Rsp.fail 5)
    else
      match f s1 with
      | .none => s
      | .some (s2, .some r) => respond s2 k op r
      | .some (s2, .none) => s2

/-- A result that is answered at once. -/
def answer (s : Chip) (r : Rsp) : Option (Chip × Option Rsp) := .some (s, .some r)

/-- A command without body bytes; any others are LENGTH (16 R737). -/
def noBody (h : HostCmd) (s : Chip) (f : Option (Chip × Option Rsp)) : Option (Chip × Option Rsp) :=
  if h.body.isEmpty then f else answer s (Rsp.fail 11)

/-- PING (16 R736). -/
def pingCmd (h : HostCmd) (s : Chip) : Option (Chip × Option Rsp) :=
  noBody h s (answer s (Rsp.ok s.tick32.toNat (s.rd Reg.sysEpoch).toNat))

/-- The 8 bytes of a store entry (02 R71). -/
def entryBytes (r : StoreRead) : List Byte :=
  leBytes 4 (w32 r.value).toNat ++ leBytes 1 r.status ++ leBytes 1 r.wseq ++ leBytes 2 r.age

/-- One entry of RDSIG: the state, and the bytes so far. -/
def rdsigOne (src : Nat) (acc : Chip × List Byte) (sid : Nat) : Chip × List Byte :=
  let r := lookEntry acc.1 src sid
  (r.1, acc.2 ++ entryBytes r.2)

/-- RDSIG (16 R736): a store access of the port (02 R74), which at phase 9,000 sees the commit (01 R51). -/
def rdsigCmd (h : HostCmd) (s : Chip) : Option (Chip × Option Rsp) :=
  let a := h.arg0.toNat
  let n := h.arg1.toNat
  noBody h s (if n = 0 ∨ n > 180 ∨ a + n > 2 ^ 18 then answer s (Rsp.fail 6)
    else
      let s1 := dropCapture (commitDue s) (portSrc h.port)
      let r := ((List.range n).map (a + ·)).foldl (rdsigOne (portSrc h.port)) (s1, [])
      answer r.1 { Rsp.ok 0 0 with body := r.2 })

/-- The supervisor a P3 write of a command is attributed to at the gate (16 R743, R748): none where the port is not its home port. -/
def writerSv (s : Chip) (h : HostCmd) : Option Nat :=
  match svOfSender s (portSrc h.port) h.mac.toNat with
  | .some k => if svHome s k = homeOf h.port then .some k else .none
  | .none => .none

/-- Pair i of a WRSIG command as a P3 write of the host command engine (16 R738). -/
def wrsigPair (s : Chip) (h : HostCmd) (i : Nat) : P3Write :=
  ⟨portSrc h.port, writerSv s h, leAt h.body (8 * i) 4, .value (wn (leAt h.body (8 * i + 4) 4)), true⟩

/-- WRSIG (16 R736, R738): each pair waits in the engine's P3 queue as a transaction of its own; the response comes once every pair has been
stamped. They are the port's store accesses (02 R74). DESIGN CHOICE (notes/assumptions/46.md). -/
def wrsigCmd (h : HostCmd) (s : Chip) : Option (Chip × Option Rsp) :=
  let n := h.body.length / 8
  if h.body.length % 8 ≠ 0 ∨ n = 0 ∨ n > 64 then answer s (Rsp.fail 11)
  else
    let s1 := (List.range n).foldl (fun x i => p3Enqueue x (wrsigPair s h i)) (dropCapture s (portSrc h.port))
    .some ({ s1 with hst := { s1.hst with wrsig := Tab.set .none s1.hst.wrsig (portSrc h.port) (.some ⟨hdrOf h, n, []⟩) } }, .none)

/-- The response of a WRSIG command whose pairs have all been stamped (16 R736, R738). -/
def wrsigEnd (s : Chip) (src : Nat) : Chip :=
  match Tab.get .none s.hst.wrsig src with
  | .none => s
  | .some k =>
    if k.done.length < k.pairs then s
    else
      let s1 := { s with hst := { s.hst with wrsig := Tab.set .none s.hst.wrsig src .none, sent := [] } }
      respond s1 k.hdr 0x03 { Rsp.ok ((k.done.filter (fun b => decide (b.toNat ≤ 1))).length) 0 with body := k.done }

/-- The P3 arbiter takes one write, after a gate instant that its phase has passed (02 R88, R103), and a WRSIG command all of whose pairs have
been stamped is answered (16 R738). -/
def p3Arbiter (s : Chip) : Chip := [10, 11, 12, 16].foldl wrsigEnd (p3Take (gateDue s))

/-- One word of RDREG (16 R899): the state, the words so far and the index of the first access error, an uncorrectable word of a memory among
them (13 R591, R592). -/
def rdregWord (src base : Nat) (acc : Chip × List Byte × Option Nat) (i : Nat) : Chip × List Byte × Option Nat :=
  let r := readReg acc.1 src (base + 4 * i)
  let q := match r.1 with
    | .some v => readCoded r.2 src (base + 4 * i) v
    | .none => (r.2, 0, 2)
  (q.1, acc.2.1 ++ leBytes 4 q.2.1.toNat, if acc.2.2.isNone && q.2.2 == 2 then .some i else acc.2.2)

/-- A command of words from a BAR0 offset on names one that lies in CORE (16 R741). -/
def touchesCore (o n : Nat) : Bool := (List.range n).any (fun i => coreAddr (bar0 o + 4 * i))

/-- RDREG (16 R736, R899). -/
def rdregCmd (h : HostCmd) (s : Chip) : Option (Chip × Option Rsp) :=
  let n := askedWords h
  noBody h s (if n = 0 ∨ n > 256 then answer s (Rsp.fail 6)
    else
      let r := (List.range n).foldl (rdregWord (portSrc h.port) (bar0 h.arg0.toNat)) (s, [], .none)
      answer r.1 (match r.2.2 with
        | .none => ⟨0, n, 0, r.2.1⟩
        | .some i => ⟨6, i, 0, r.2.1⟩))

/-- The status of a write that stops WRREG (16 R899). -/
def wrStatus : WrRes → Nat
  | .auth => 5
  | .busy => 7
  | .restart => 12
  | _ => 6

/-- The words of WRREG in order from word `i` (16 R899): the state, the words written, and the result of the word that stopped it. -/
def wrregWords (src base : Nat) (s : Chip) (i : Nat) : List Word → Chip × Nat × WrRes
  | [] => (s, i, .done)
  | v :: rest =>
    let r := regWrite s src (base + 4 * i) v false
    if r.2 = .done then wrregWords src base r.1 (i + 1) rest else (r.1, i, r.2)

/-- WRREG (16 R736, R899). A word that waits makes the whole command wait. DESIGN CHOICE (notes/assumptions/46.md). -/
def wrregCmd (h : HostCmd) (s : Chip) : Option (Chip × Option Rsp) :=
  let n := h.body.length / 4
  if h.body.length % 4 ≠ 0 ∨ n = 0 ∨ n > 256 then answer s (Rsp.fail 11)
  else
    let ws := (List.range n).map (fun i => wn (leAt h.body (4 * i) 4))
    let r := wrregWords (portSrc h.port) (bar0 h.arg0.toNat) s 0 ws
    if r.2.2 = .waits then .none
    else if r.2.2 = .done then answer r.1 (Rsp.ok n 0)
    else answer r.1 ⟨wrStatus r.2.2, r.2.1, 0, []⟩

/-- RDMEM (16 R736): BUSY for DRAM from stage 1 on (17 R790). Bytes that meet an uncorrectable error are counted (13 R592) and answered with
the status of an access error (13 R591, 16 R899); `flips` have flipped in them. DESIGN CHOICE (notes/assumptions/87.md). -/
def rdmemCmd (h : HostCmd) (flips : List Nat) (s : Chip) : Option (Chip × Option Rsp) :=
  let a := h.arg0.toNat + fld h.arg1 7 0 * 2 ^ 32
  let n := fld h.arg1 27 16
  let bs := (List.range n).map (fun i => memRead s (a + i))
  noBody h s (if n = 0 ∨ n > 1024 ∨ bs.any (·.isNone) then answer s (Rsp.fail 6)
    else if s.stage ≥ 1 ∧ (List.range n).any (fun i => isDram (a + i)) then answer s (Rsp.fail 7)
    else
      let s1 := advanceFill s
      let r := readSpan (upset s1 a (flips.take n)) (portSrc h.port) a n
      if r.cls = 2 then answer r.chip (Rsp.fail 6)
      else answer r.chip { Rsp.ok 0 0 with body := seenBytes ((List.range n).map (fun i => (memRead s1 (a + i)).getD 0)) r.errs })

/-- CLAIM (16 R743, R746, R747). -/
def claimCmd (h : HostCmd) (s : Chip) : Option (Chip × Option Rsp) :=
  let v := fld h.arg0 15 0
  noBody h s (match svOfSender s (portSrc h.port) h.mac.toNat with
    | .none => answer s (Rsp.fail 9)
    | .some k =>
      if svHome s k ≠ homeOf h.port then answer (authRefuse s) (Rsp.fail 5)
      else if v > svCeiling s k then answer ((s.bump Reg.clmCeilref).clmFlag 4) ⟨8, svEffective s k, 0, []⟩
      else
        let s1 := if svRequest s k = v then s
          else setSv (s.wrF (Reg.clmSvstat k) 15 0 v) k { svOf s k with reqAt := s.nowNs }
        let s2 := claimLogic s1
        answer s2 (Rsp.ok (svEffective s2 k) 0))

/-- HBEAT (16 R744): never answered. A tool-LAN frame is counted as its copies arrive (16 R744, `lanHeartbeat`). -/
def hbeatCmd (h : HostCmd) (s : Chip) : Option (Chip × Option Rsp) :=
  match h.port with
  | .h0 => .some (h0Heartbeat s, .none)
  | .h3 => .some (heartbeat s 15 1, .none)
  | _ => .some (s, .none)

/-- CLMSTAT (16 R736). -/
def clmstatCmd (h : HostCmd) (s : Chip) : Option (Chip × Option Rsp) :=
  noBody h s (answer s (Rsp.ok (s.rd Reg.clmStat).toNat (s.rd Reg.sysEpoch).toNat))

/-- EVENT (16 R736). -/
def eventCmd (h : HostCmd) (s : Chip) : Option (Chip × Option Rsp) :=
  let e := fld h.arg0 9 0
  noBody h s (if 96 ≤ e ∧ e ≤ 127 then answer (s.raise e) (Rsp.ok 0 0) else answer s (Rsp.fail 6))

/-- The CORR of a mail request (16 R740): 0x8000_0000 and a tag that no waiting command uses. DESIGN CHOICE (notes/assumptions/30.md). -/
def mailCorr (s : Chip) : Nat :=
  let base := Config.mailTag s.draws
  let tag := fun (i : Nat) => 0x80000000 + (base + i) % 0x80000000
  tag (((List.range (s.hst.mails.length + 1)).find? (fun i => s.hst.mails.all (fun m => m.corr != tag i))).getD 0)

/-- MAIL (16 R736, R740). -/
def mailCmd (h : HostCmd) (s : Chip) : Option (Chip × Option Rsp) :=
  let d := fld h.arg0 5 0
  if h.body.length > 1024 then answer s (Rsp.fail 11)
  else if d = 0 ∨ d = 63 then answer s (Rsp.fail 6)
  else
    let c := mailCorr s
    let m : MailCmd := ⟨hdrOf h, c, bit h.arg1 0, s.nowNs + 1000000 * fld h.arg1 31 16⟩
    let s1 := (engineMail s d (fld h.arg0 15 8) c h.body).draw
    .some ({ s1 with hst := { s1.hst with mails := s1.hst.mails ++ [m] } }, .none)

/-- The answer of a MAIL command that can complete now (16 R740). -/
def mailAnswer (s : Chip) (m : MailCmd) : Option Rsp :=
  if s.hst.lost.contains m.corr then .some (Rsp.fail 13)
  else if m.waitRsp then
    match s.ewn.engRx.find? (fun e => leAt e.2 12 4 == m.corr) with
    | .some e => .some { Rsp.ok 0 0 with body := e.2 }
    | .none => if s.nowNs ≥ m.stop then .some (Rsp.fail 14) else .none
  else if (s.ewn.engQ ++ s.ewn.unacked).any (fun f => f.own == 1 && f.corr == m.corr) then .none
  else .some (Rsp.ok 0 0)

/-- Engine frames and losses that no MAIL command waits for go. -/
def pruneMail (s : Chip) : Chip :=
  let waits := fun (c : Nat) => s.hst.mails.any (fun m => m.corr == c)
  { s with
    hst := { s.hst with lost := s.hst.lost.filter waits }
    ewn := { s.ewn with engRx := s.ewn.engRx.filter (fun (e : Nat × List Byte) => waits (leAt e.2 12 4)) } }

/-- The oldest MAIL command that can be answered is answered (16 R740). -/
def mailDone (s : Chip) : Chip :=
  match s.hst.mails.find? (fun m => (mailAnswer s m).isSome && rspRoom s m.hdr) with
  | .none => s
  | .some m =>
    let s1 := { s with hst := { s.hst with mails := s.hst.mails.filter (fun x => x.corr != m.corr), sent := [] } }
    pruneMail (respond s1 m.hdr 0x21 ((mailAnswer s m).getD (Rsp.ok 0 0)))

/-- WARM (16 R736): answered after CORE is released. -/
def warmCmd (h : HostCmd) (s : Chip) : Option (Chip × Option Rsp) :=
  noBody h s (let s1 := s.fault 5 (portSrc h.port)
    .some ({ s1 with hst := { s1.hst with warm := s1.hst.warm ++ [hdrOf h] } }, .none))

/-- The WARM commands that wait are answered as CORE is released. -/
def warmDone (s : Chip) : Chip :=
  if s.hst.warm.isEmpty then s
  else s.hst.warm.foldl (fun x k => respond x k 0x22 (Rsp.ok 0 0)) { s with hst := { s.hst with warm := [], sent := [] } }

/-- ALMREAD (16 R736). -/
def almreadCmd (h : HostCmd) (s : Chip) : Option (Chip × Option Rsp) :=
  let a := h.arg0.toNat
  let n := h.arg1.toNat
  noBody h s (if n = 0 ∨ n > 60 ∨ a + n > 256 then answer s (Rsp.fail 6)
    else answer s { Rsp.ok 0 0 with body := (List.range n).flatMap (fun i => alarmBytes (alarmEntry s (a + i))) })

/-- HPC_ALMCNT (16 R761). DESIGN CHOICE (notes/assumptions/52.md). -/
def syncAlmcnt (s : Chip) : Chip := s.wr Reg.hpcAlmcnt (wn ((s.books.alarms.filter (fun e => e.2.count != 0)).length))

/-- ALMACK (16 R753). A code without an entry is out of range. DESIGN CHOICE (notes/assumptions/52.md). -/
def almackCmd (h : HostCmd) (s : Chip) : Option (Chip × Option Rsp) :=
  let c := fld h.arg0 15 0
  noBody h s (
    if c = 0xFFFF then
      let e := (Tab.get? s.books.alarms 255).getD overflowEntry
      answer (syncAlmcnt (alarmDirty (setAlarm s 255 { e with count := 0, sev := 3 }) 255 3)) (Rsp.ok 0 0)
    else match findAlarm s.books.alarms c with
      | .none => answer s (Rsp.fail 6)
      | .some k =>
        let sev := ((Tab.get? s.books.alarms k).map (·.sev)).getD 3
        let s1 := { s with books := { s.books with alarms := Tab.erase s.books.alarms k } }
        answer (syncAlmcnt (alarmDirty s1 k sev)) (Rsp.ok 0 0))

/-- The signed part of a quote (16 R760). -/
def quoteHead (s : Chip) (nonce : List Byte) : List Byte :=
  leBytes 4 0x514E4D50 ++ leBytes 2 1 ++ leBytes 2 0 ++ leBytes 4 (s.rd Reg.secSeriallo).toNat ++ leBytes 4 (s.rd Reg.secSerialhi).toNat ++
    nonce ++ leBytes 6 s.tb.tick ++ leBytes 2 s.phaseRead ++ leBytes 4 (s.rd Reg.sysEpoch).toNat ++
    leBytes 1 (s.rdF Reg.secBootstat 0 0) ++ leBytes 1 (s.rdF Reg.secBootstat 3 2) ++ leBytes 1 (s.rdF Reg.secArb0 6 0) ++
    leBytes 1 (s.rdF Reg.secArb1 6 0) ++ regHash s (Reg.secManhash 0) ++ regHash s (Reg.secCsthash 0) ++ leBytes 4 (s.rd Reg.secFuse).toNat ++
    leBytes 2 (s.rdF Reg.safCfgstat 15 0) ++ leBytes 1 (islState s) ++ [0] ++ leBytes 4 (s.rd Reg.odoHours).toNat ++
    leBytes 4 (s.rd Reg.odoPcyc).toNat ++ bytesOf 16 0

/-- ATTEST (16 R760): the signing starts, with the signature engine's island (17 R783). -/
def attestCmd (h : HostCmd) (s : Chip) : Option (Chip × Option Rsp) :=
  if h.body.length ≠ 32 then answer s (Rsp.fail 11)
  else if s.rdBit Reg.secQstat 0 then answer s (Rsp.fail 7)
  else
    let s1 := (askStart s 24).wr Reg.secQstat 1
    .some ({ s1 with hst := { s1.hst with attest := .some (hdrOf h), quote := quoteHead s h.body } }, .none)

/-- The signature of a quote is complete (16 R760). -/
def attestDone (s : Chip) : Chip :=
  match s.hst.attest with
  | .none => s
  | .some k =>
    if !s.rdBit Reg.pwrIslpwr 24 || !rspRoom s k then s
    else
      let q := s.hst.quote
      let s1 := { s with hst := { s.hst with
          attest := .none, sent := [], quote := q ++ quoteSign s q } }
      respond (hashRest ((s1.wr Reg.secQstat 2).flag Reg.secEvt Reg.secEvten 0 69)) k 0x40 (Rsp.ok 17248 0)

/-- QREAD (16 R736). -/
def qreadCmd (h : HostCmd) (s : Chip) : Option (Chip × Option Rsp) :=
  let a := h.arg0.toNat
  let n := h.arg1.toNat
  noBody h s (if n = 0 ∨ n > 1440 ∨ a + n > 17248 then answer s (Rsp.fail 6)
    else answer s { Rsp.ok 0 0 with body := sliceB s.hst.quote a n })

/-- FLREAD (16 R736): as many bytes as a response holds. -/
def flreadCmd (h : HostCmd) (s : Chip) : Option (Chip × Option Rsp) :=
  let a := h.arg0.toNat
  let n := h.arg1.toNat
  noBody h s (if n = 0 ∨ n > 1456 ∨ a + n > 2 ^ 32 then answer s (Rsp.fail 6)
    else answer s { Rsp.ok n 0 with body := flashBytes s a n })

/-- The flash ranges of the running slot (17 R772): its manifest and its images. PRESUMED (notes/assumptions/27.md). -/
def runningRanges (s : Chip) : List (Nat × Nat) :=
  match s.boot.slot with
  | .none => []
  | .some k =>
    let m := manifest s k
    (0x1000000 * k, 8672) :: ((List.range (nimg m)).map (fun i => (leAt (imgDesc m i) 4 4, leAt (imgDesc m i) 8 4)))

/-- A flash change touches the running slot while the Poermun runs (17 R772). -/
def flashBusy (s : Chip) (a n : Nat) : Bool := s.booted && (runningRanges s).any (fun r => !apart a n r.1 r.2)

/-- FLERASE (16 R736, 17 R772): whole sectors of 4 KiB, which read 0xFF afterwards. PRESUMED (notes/assumptions/27.md). -/
def fleraseCmd (h : HostCmd) (s : Chip) : Option (Chip × Option Rsp) :=
  let a := h.arg0.toNat
  let n := h.arg1.toNat
  noBody h s (if n = 0 ∨ a % 4096 ≠ 0 ∨ n % 4096 ≠ 0 ∨ a + n > 2 ^ 32 then answer s (Rsp.fail 6)
    else if flashBusy s a n then answer s (Rsp.fail 7)
    else answer (s.fillMem (flashBase + a) n 0xFFFFFFFFFFFFFFFF) (Rsp.ok n 0))

/-- FLWRITE (16 R736, 17 R772). -/
def flwriteCmd (h : HostCmd) (s : Chip) : Option (Chip × Option Rsp) :=
  let a := h.arg0.toNat
  let n := h.arg1.toNat
  if h.body.length ≠ n then answer s (Rsp.fail 11)
  else if n = 0 ∨ a + n > 2 ^ 32 then answer s (Rsp.fail 6)
  else if flashBusy s a n then answer s (Rsp.fail 7)
  else answer (s.putBytes (flashBase + a) h.body) (Rsp.ok n 0)

/-- A response that an operation of chapter 18 gives at once. -/
def answered (r : Chip × Rsp) : Option (Chip × Option Rsp) := .some (r.1, .some r.2)

/-- CSTSWAP (18 R829, R830): without body bytes. -/
def cstswapCmd (h : HostCmd) (s : Chip) : Option (Chip × Option Rsp) :=
  noBody h s (answered (cstSwapCmd s (portSrc h.port) h.arg0.toNat))

end Sys2Proof.Machine
end

