-- ==== Sys2Proof/Machine/Ports.lean ====
section
/-!
DEFINITION. The ports themselves: tool LAN, HSR and PTP (16 R719–R728), the H0 link (16 R709, 20 R878), H3 (16 R729) and the TAP (16 R731).
-/

namespace Sys2Proof.Machine

/-- The Poermun's own MAC address (16 R762). -/
def ownMac (s : Chip) : Nat := (s.rd Reg.tlnMaclo).toNat + s.rdF Reg.tlnMachi 15 0 * 2 ^ 32

/-- A frame leaves on TLA (32) or TLB (33). -/
def lanSend (s : Chip) (portB : Bool) (mac : Nat) (bytes : List Byte) : Chip :=
  { s with hst := { s.hst with sent := s.hst.sent ++ [(32 + b2n portB, mac, bytes)] } }

/-- How long an HSR sequence number is remembered, in ns: EntryForgetTime of IEC 62439-3, which the spec names. PRESUMED.
PRESUMED (notes/assumptions/36.md). -/
def hsrForget : Nat := 400000000

/-- A frame of another node arrives (16 R720, R744): an HBEAT is counted before any duplicate is discarded; a copy whose number is known is
counted as one. With the Poermun, whether this port, and whether the other, has brought the frame before.
PRESUMED (notes/assumptions/36.md). -/
def hsrSee (s : Chip) (portB : Bool) (mac seq : Nat) (hbeat : Bool) : Chip × Bool × Bool :=
  let s1 := if hbeat then lanHeartbeat s mac portB else s
  let live := s1.hst.hsrSeen.filter (fun e => decide (s1.nowNs < e.2.2 + hsrForget))
  let here := live.any (fun e => e.1 == mac && e.2.1 == 2 * seq + b2n portB)
  let there := live.any (fun e => e.1 == mac && e.2.1 == 2 * seq + b2n (!portB))
  let s2 := { s1 with hst := { s1.hst with
      hsrSeen := if here then live else live ++ [(mac, 2 * seq + b2n portB, s1.nowNs)] } }
  (if here || there then s2.bump Reg.tlnDup else s2, here, there)

/-- The bytes of a frame as it is forwarded (16 R726): the correction of a Sync grows by its stay and by the peer delay of the port that it came
in on, in units of 2^-16 ns. The bytes begin with the 6-byte HSR tag and the EtherType; the correction stands at +8 of the PTP message.
PRESUMED (notes/assumptions/37.md). -/
def tcCorrect (s : Chip) (portB : Bool) (stay : Nat) (b : List Byte) : List Byte :=
  if ofBe (sliceB b 6 2) = 0x88F7 ∧ leAt b 8 1 % 16 = 0 then
    let c : Int := (ofBe (sliceB b 16 8) : Nat) + 65536 * ((stay : Int) + Tab.get 0 s.hst.ptp.peer (b2n portB))
    b.take 16 ++ beBytes 8 (c % 2 ^ 64).toNat ++ b.drop 24
  else b

/-- An HSR frame is received (16 R720, R744): a malformed tag is flagged, an own frame removed, a frame not for the Poermun alone forwarded to
the other port unless this port has brought it before.
PRESUMED (notes/assumptions/36.md). DESIGN CHOICE (notes/assumptions/74.md). -/
def hsrFrame (s : Chip) (portB : Bool) (mac seq : Nat) (tagOk alone hbeat : Bool) (bytes : List Byte) (stay : Nat) : Chip :=
  if !lanPort s portB then s
  else
    let s0 := { s with hst := { s.hst with sent := [] } }
    if !tagOk then s0.flag Reg.tlnEvt Reg.tlnEvten 3 78
    else if mac = ownMac s then s0
    else
      let r := hsrSee s0 portB mac seq hbeat
      if r.2.1 || alone then r.1 else lanSend r.1 (!portB) mac (tcCorrect s portB stay bytes)

/-- A command frame is taken (16 R724, R725): it enters the queue or is dropped; one with a bad prefix is counted. -/
def queueFrame (s : Chip) (f : DevFrame) : Chip :=
  let p := f.pre.toNat
  if p % 256 ≠ 0xA7 ∨ p / 256 % 256 > 2 ∨ p / 65536 ≠ 0 then s.bump Reg.tlnBadpfx
  else if p / 256 % 256 ≠ 0 then s
  else if s.hst.lanQ.length ≥ 64 then s.bump Reg.tlnCmddrop
  else
    let c : LanCmd := ⟨f.mac.toNat, f.op.toNat, bit (f.cfl.setWidth 32) 0 || f.op == 0x11, f.cseq.toNat⟩
    { s.bump Reg.tlnRxcmd with hst := { s.hst with lanQ := s.hst.lanQ ++ [c] } }

/-- A frame with the Poermun's address and the EtherType of its device frames (16 R724). -/
def isDevice (s : Chip) (f : DevFrame) : Bool := f.dst.toNat == ownMac s && f.etype.toNat == s.rdF Reg.tlnEtype 15 0

/-- The frame carries an HBEAT command (16 R724, R744). -/
def isHbeat (f : DevFrame) : Bool := f.pre == 0xA7 && f.op == 0x11

/-- A device frame arrives (16 R720, R724, R725): an own frame and a frame that is not the Poermun's are not taken, nor is the second copy of one.
A command with an unknown opcode waits in the queue as any other, and is answered in its turn. On another port than the tool LAN it is a command
whose opcode has no row: H3 and JTAG have no queue, and it is answered OPCODE at once (R736). DESIGN CHOICE (notes/assumptions/44.md). -/
def deviceFrame (s : Chip) (port : HostPort) (f : DevFrame) : Chip :=
  match port with
  | .tlan =>
    if !lanPort s f.portB || f.mac.toNat == ownMac s || !isDevice s f then s
    else
      let r := hsrSee s f.portB f.mac.toNat f.seq.toNat (isHbeat f)
      if r.2.1 || r.2.2 then r.1 else queueFrame r.1 f
  | p =>
    let on := match p with
      | .h3 => usbUp s
      | .jtag => tapOpen s && !inRecovery s
      | _ => false
    if !on || wrsigRuns s (portSrc p) || !turnComes s (homeOf p) || opcodes.contains f.op.toNat || !(s.booted || inRecovery s) then s
    else respond (takeFrom s p) ⟨portSrc p, 0, bit (f.cfl.setWidth 32) 0, f.cseq.toNat⟩ f.op.toNat (Rsp.fail 10)

/-- The 2 s supervision interval has run (16 R720): a frame with the next sequence number leaves on both ports. Its bytes are those of
IEC 62439-3 and are not modelled. PRESUMED (notes/assumptions/36.md). -/
def hsrSupervise (s : Chip) : Chip :=
  if !lanUp s then s
  else
    let s1 := { s with hst := { s.hst with sent := [], hsrSeq := (s.hst.hsrSeq + 1) % 65536 } }
    let one := fun (x : Chip) (p : Bool) => if lanPort x p then lanSend x p (ownMac x) (beBytes 2 x.hst.hsrSeq) else x
    one (one s1 false) true

/-- A tool-LAN port has lost synchronisation for more than 1 ms (16 R723). -/
def lanLoss (s : Chip) (portB : Bool) : Chip :=
  if !s.rdBit Reg.tlnStat (b2n portB) then s
  else
    let s1 := (s.wrBit Reg.tlnStat (b2n portB) false).bump (if portB then Reg.tlnLlossb else Reg.tlnLlossa)
    (s1.flag Reg.tlnEvt Reg.tlnEvten (b2n portB) (75 + b2n portB)).odoInc 18 1

/-- Alarm entries dirty for the tool LAN leave once a port is up (16 R752). -/
def deliverLan (s : Chip) : Chip :=
  if lanUp s then
    let s1 := s.books.dirtyLan.foldl sendAlarmLan s
    { s1 with books := { s1.books with dirtyLan := [] } }
  else s

/-- A tool-LAN port gains synchronisation (16 R762): only while its transceiver is in the ring (16 R722). -/
def lanLinkUp (s : Chip) (portB : Bool) : Chip :=
  if s.rdBit Reg.tlnCtl 0 && !s.rdBit Reg.tlnStat 2 && s.boot.loaded then deliverLan (s.wrBit Reg.tlnStat (b2n portB) true) else s

/-- PTPLOCK (16 R728), as SYS_TBSTAT and TLN_STAT show it. -/
def setLock (s : Chip) (x : Bool) : Chip :=
  if s.rdBit Reg.sysTbstat 1 == x then s
  else ((s.wrBit Reg.sysTbstat 1 x).wrBit Reg.tlnStat 3 x).flag Reg.tlnEvt Reg.tlnEvten 2 77

/-- The delay that a peer delay exchange measures (16 R726): half of what its two legs take together. PRESUMED (notes/assumptions/37.md). -/
def peerMean (t : Int × Int × Int × Int) : Int := ((t.2.2.2 - t.1) - (t.2.2.1 - t.2.1)) / 2

/-- The offset that a Sync measures (16 R726, R727), of one step or of two: its receipt less its origin, its corrections and the delay of the
port. PRESUMED (notes/assumptions/37.md). -/
def syncOffset (s : Chip) (portB : Bool) (m : PtpSync) : Int :=
  let o := match m.follow with
    | .some f => (f.1, m.corr + f.2)
    | .none => (m.origin, m.corr)
  m.receipt - o.1 - o.2 / 65536 - Tab.get 0 s.hst.ptp.peer (b2n portB)

/-- The clock has a master whose Syncs still come: one that has kept silent for three intervals has gone (16 R728).
DESIGN CHOICE (notes/assumptions/37.md). -/
def masterNow (s : Chip) : Option Nat :=
  match s.hst.ptp.master with
  | .some m => if s.nowNs < m.2.1 + 3 * m.2.2 then .some m.1 else .none
  | .none => .none

/-- The PTP clock replaced. -/
def setPtp (s : Chip) (p : PtpClock) : Chip := { s with hst := { s.hst with ptp := p } }

/-- The servo takes a Sync (16 R727, R728). The PI filter's output is not stated: a free value, clamped where it is produced (01 R41).
DESIGN CHOICE (notes/assumptions/37.md). -/
def servoTake (s : Chip) (portB fresh : Bool) (offset : Int) : Chip :=
  let out := freeS32 s
  let s1 := noteTrimLimit ((s.draw.wrBit Reg.tlnStat 4 portB).wr Reg.tlnPtpofs (w32 (max (-2147483648) (min offset 2147483647)))) out
  let good := if fresh ∨ offset.natAbs > 100 then 0 else s1.hst.ptp.good + 1
  let s2 := setPtp s1 { s1.hst.ptp with servo := trimClamp out, good := good }
  if fresh ∨ offset.natAbs > 1000 then setLock s2 false
  else if good ≥ 16 then setLock s2 true
  else s2

/-- A PTP Sync arrives (16 R726–R728): one of another domain, or of a worse master than the one that is heard, is not taken; the servo takes
those of TLA while they come within three intervals. DESIGN CHOICE (notes/assumptions/37.md). -/
def ptpSync (s : Chip) (portB : Bool) (m : PtpSync) : Chip :=
  if !lanPort s portB || !s.rdBit Reg.tlnCtl 3 || m.domain.toNat != s.rdF Reg.tlnPtpcfg 7 0 then s
  else
    let s1 := match m.peer with
      | .some t => setPtp s { s.hst.ptp with peer := Tab.set 0 s.hst.ptp.peer (b2n portB) (peerMean t) }
      | .none => s
    if (match masterNow s1 with
      | .some r => decide (r < m.master)
      | .none => false) then s1
    else
      let fresh := s1.hst.ptp.master.map (·.1) != .some m.master
      let lastA := if portB then (if fresh then .none else s1.hst.ptp.lastA) else .some s1.nowNs
      let s2 := setPtp s1 { s1.hst.ptp with master := .some (m.master, s1.nowNs, m.interval), lastA := lastA }
      let aLives := match lastA with
        | .some t => decide (s2.nowNs < t + 3 * m.interval)
        | .none => false
      if portB && aLives then s2 else servoTake s2 portB fresh (syncOffset s2 portB m)

/-- Three Sync intervals without a Sync (16 R728). -/
def ptpTimeout (s : Chip) : Chip := setLock (setPtp s { s.hst.ptp with good := 0 }) false

/-- PCIE_PERST_L goes low (20 R878): the link is lost, every open descriptor ends with LINK (16 R716), and the MSI-X table with the
configuration space returns to its cold value. PRESUMED (notes/assumptions/29.md). -/
def pciePerst (s : Chip) : Chip :=
  let s1 := if h0Up s then linkLost s else dqLinkEnd s
  { s1 with
    regs := s1.regs.filter (fun (e : Nat × Word) => decide (e.1 < 0x10808000) || decide (0x10808400 ≤ e.1))
    books := { s1.books with msixPend := [] }
    hst := { s1.hst with pciCfg := [] } }

/-- The H0 link finishes training (16 R709), and the host writes its configuration space. PRESUMED (notes/assumptions/29.md). -/
def h0LinkUp (s : Chip) (gen width : Nat) (cfg : List (Nat × Word)) : Chip :=
  if s.boot.on && !h0Up s && decide (1 ≤ gen) && decide (gen ≤ 5) && (width == 1 || width == 2 || width == 4) then
    let s1 := s.wr Reg.hpcStat (setFld (s.rd Reg.hpcStat) 6 0 (1 + 2 * gen + 16 * width))
    { s1 with hst := { s1.hst with pciCfg := cfg.foldl (fun t e => Tab.set 0 t e.1 e.2) s1.hst.pciCfg } }
  else s

/-- HPC_CQTAIL is written by the host with the entries that it has put into its ring (16 R739), or by another agent.
DESIGN CHOICE (notes/assumptions/45.md). -/
def ringSubmit (s : Chip) (src : Nat) (images : List (List Byte)) : Chip :=
  if src ≠ 10 then s
  else (List.range images.length).foldl (fun x i =>
    x.putHost (addr64 x Reg.hpcCqbaselo Reg.hpcCqbasehi + 2048 * (((x.rd Reg.hpcCqtail).toNat + i) % ringEntries x)) (images.getD i [])) s

/-- USB_DP and USB_DM signal from VDD_IO2 at 3.3 V: at 1.8 V H3 never attaches (20 R876). -/
def usbLevel (s : Chip) : Bool := s.pwr.banks.any (·.io2)

/-- H3 attaches once CORE runs, or in recovery (16 R757), and its PHY has power, or detaches (16 R729, R730, 17 R783). Dirty alarm entries leave on EP3 (16 R752). -/
def usbAttach (s : Chip) (attach configured highSpeed : Bool) : Chip :=
  if !attach then usbDetach s
  else if !(s.booted || inRecovery s) || s.rdBit Reg.sysStat 1 || !s.hst.vbus || !s.rdBit Reg.pwrIslpwr 25 || !usbLevel s then s
  else
    let was := s.rdBit Reg.svcStat 0
    let s1 := s.wr Reg.svcStat (wn (1 + 2 * b2n configured + 4 * b2n highSpeed))
    let s2 := if was then s1 else s1.flag Reg.svcEvt Reg.svcEvten 0 79
    if usbUp s2 then
      let s3 := s2.books.dirtyUsb.foldl sendAlarmUsb s2
      { s3 with books := { s3.books with dirtyUsb := [] } }
    else s2

/-- A USB host comes or goes at USB_VBUS (17 R783). -/
def usbVbus (s : Chip) (on : Bool) : Chip :=
  let s1 := { s with hst := { s.hst with vbus := on } }
  if !s1.boot.on then s1
  else if on then askStart s1 25
  else gateIsland (usbDetach s1) 25

/-- The numbers of the TAP instructions in force. PRESUMED (notes/assumptions/80.md). -/
def tapNumber : TapCode → Nat
  | .idcode => 0
  | .bypass => 1
  | .sample => 2
  | .extest => 3
  | .debug => 4
  | .other => 1

/-- The TAP offers the instruction (16 R731). DEDUCED (notes/assumptions/28.md). -/
def tapOffers (s : Chip) (c : TapCode) : Bool :=
  match c with
  | .idcode | .bypass | .sample => true
  | .extest => jtagIntact s || !s.pwr.porst
  | .debug => jtagIntact s
  | .other => false

/-- An instruction is shifted into the TAP (16 R731): one that it does not offer selects BYPASS. DEDUCED (notes/assumptions/28.md). -/
def tapLoad (s : Chip) (c : TapCode) : Chip :=
  { s with hst := { s.hst with tap := if tapOffers s c then tapNumber c else 1 } }

/-- With PORST_L high a closed TAP does not keep EXTEST (16 R731). DEDUCED (notes/assumptions/28.md). -/
def tapClose (s : Chip) : Chip :=
  if s.hst.tap = 3 ∧ jtagIntact s = false ∧ s.pwr.porst then { s with hst := { s.hst with tap := 1 } } else s

/-- A write to BAR4 (16 R710). PRESUMED (notes/assumptions/29.md). -/
def bar4Write (s : Chip) : Chip := if h0Up s then s.bump Reg.hpcBarref else s

/-- A write into the journal part of BAR2 (02 R93). -/
def journalWrite (s : Chip) : Chip := if h0Up s then countGate s 0 10 else s

end Sys2Proof.Machine
end

