-- ==== Sys2Proof/Machine/Access.lean ====
section
/-!
DEFINITION. Direct accesses to the local map (00 R15, R18, R22, R24): what each agent reads and writes there, at which width, and the access
error that answers any other access.
-/

namespace Sys2Proof.Machine

/-- What a result of a register write leaves at the port that made it: an access error, or a write that waits for the next commit point of its
tile (00 R18, 03 R137). -/
def answerWrite (src a : Nat) (v : Word) (r : Chip × WrRes) : Chip :=
  match r.2 with
  | .access | .restart => r.1.accessError src
  | .waits => holdWrite r.1 src a v
  | _ => r.1

/-- A register write by an agent. -/
def regCmd (s : Chip) (who : Agent) (a : Nat) (v : Word) : Chip := answerWrite (agentSrc who) a v (regWrite s (agentSrc who) a v false)

/-- The agent writes the word at `a` as it stands with bit 0 replaced (00 R15). -/
def onCmd (s : Chip) (who : Agent) (a : Nat) (on : Bool) : Chip := regCmd s who a (setBit (s.rd a) 0 on)

/-- The address of word `w` of a slot record (03 R128). -/
def slotAddr (t slot w : Nat) : Nat := 0x18000000 + 0x100000 * t + 128 * slot + 4 * w

/-- A core's write to a register of its own port. -/
def portCmd (s : Chip) (p a : Nat) (v : Word) (more : Bool) : Chip := answerWrite p a v (regWrite s p a v more)

/-- The supervisor of a P3 write (16 R743, R748): none on a port that is not its home. -/
def p3Sup (s : Chip) (who : Agent) (mac : Nat) : Option Nat :=
  match svOfSender s (agentSrc who) mac, who with
  | .some k, .tlan => if svHome s k = 1 then .some k else .none
  | k, _ => k

/-- The agent can reach the store: a core that runs, H0 over its link, any other port through the host command engine (02 R89). -/
def reachesStore (s : Chip) (who : Agent) : Bool :=
  match who with
  | .seq _ | .sup _ => s.booted && !s.rst.inCore
  | .h0 => h0Up s
  | .tlan => lanUp s
  | .h3 => usbUp s
  | .jtag => tapOpen s

/-- A write to the signal store enters its agent's queue (02 R88, R89); it is the agent's last store access (R74).
DESIGN CHOICE (notes/assumptions/9.md). -/
def p3Write (s : Chip) (who : Agent) (mac sid : Nat) (form : P3Form) : Chip :=
  if reachesStore s who then p3Enqueue (dropCapture s (agentSrc who)) ⟨agentSrc who, p3Sup s who mac, sid, form, false⟩ else s

/-- Bytes of an access. -/
def widthLen : Width → Nat
  | .byte => 1
  | .half => 2
  | .word => 4
  | .double => 8

/-- The store address `a` lies in the signal store of the map (00 R22). -/
def isStore (a : Nat) : Bool := decide (0x02000000 ≤ a) && decide (a < 0x02200000)

/-- The journal SRAM of the map (00 R22). -/
def isJournal (a : Nat) : Bool := decide (0x03000000 ≤ a) && decide (a < 0x03200000)

/-- A core's own TCM as it sees it (00 R22). -/
def isTcm (a : Nat) : Bool := decide (0x00080000 ≤ a) && decide (a < 0x000C0000)

/-- Where a local address stands in memory for an agent (00 R22): a core's own TCM has its place, every other address is its own. -/
def placeAt (src a : Nat) : Nat := if isTcm a then tcmBase src + (a - 0x00080000) else a

/-- A byte of memory as an agent reads it over the local map, or H0 over BAR2 and BAR4 (00 R22, R24, 12 R532, 16 R710, 17 R790). None where
the agent has nothing mapped, and for a BAR4 read from stage 1 on. DEDUCED (notes/assumptions/66.md). -/
def mapByte (s : Chip) (src a : Nat) : Option Byte :=
  if srcIsCore src then
    if a < 0x40000 then .some (s.byteAt a)
    else if isTcm a then .some (s.byteAt (placeAt src a))
    else if isSram a then .some (s.byteAt a)
    else memRead s a
  else if src = 10 then
    if isJournal a then memRead s a
    else if isDram a && s.stage == 0 then .some (s.byteAt a)
    else .none
  else .none

/-- The cells that a cache of a SUP core holds: address `a` in the data cache of core `c`, or in its instruction cache for `c` + 16 (12 R531,
13 R593). -/
def lineAt (c a : Nat) : Nat := c * 2 ^ 40 + a

/-- A byte with its parity bit (13 R586). -/
def withParity (b : Byte) : BitVec 9 := BitVec.ofNat 9 (b.toNat + 256 * (popcount 8 b.toNat % 2))

/-- The parity of a cached byte fails (13 R593). -/
def parityBad (x : BitVec 9) : Bool := popcount 9 x.toNat % 2 == 1

/-- The bytes of a memory that a read returns, and the class met (13 R588–R592): `flips` have flipped since the last access. -/
def fetchBytes (s : Chip) (src a : Nat) (bs : List Byte) (flips : List Nat) : Chip × List Byte × Nat :=
  let r := readSpan (upset s (placeAt src a) (flips.take bs.length)) src (placeAt src a) bs.length
  (r.chip, seenBytes bs r.errs, r.cls)

/-- Bytes that a cache of a SUP core holds, of its 32 KiB (13 R586). -/
def lineCount (s : Chip) (c : Nat) : Nat := (s.memu.lines.filter (fun (e : Nat × BitVec 9) => e.1 / 2 ^ 40 == c)).length

/-- A byte leaves a full cache: which one, 12 R531 does not say, a free value. DESIGN CHOICE (notes/assumptions/87.md). -/
def evictLine (c : Nat) (s : Chip) : Chip :=
  if lineCount s c ≤ 32768 then s
  else
    let mine := s.memu.lines.filter (fun (e : Nat × BitVec 9) => e.1 / 2 ^ 40 == c)
    match mine[Config.freeNat s.draws % mine.length]? with
    | .some e => { s.draw with memu := { s.memu with lines := Tab.erase s.memu.lines e.1 } }
    | .none => s

/-- The bytes that a cache of a SUP core is to hold from `a` on, with good parity. -/
def putLines (s : Chip) (c a : Nat) (bs : List Byte) : Chip :=
  { s with memu := { s.memu with lines := (List.range bs.length).foldl (fun t i =>
    Tab.ins (Tab.erase t (lineAt c (a + i))) (lineAt c (a + i)) (withParity (bs.getD i 0))) s.memu.lines } }

/-- Bytes fetched from DRAM enter a cache of a SUP core (12 R531, 13 R586). -/
def cacheFill (s : Chip) (c a : Nat) (bs : List Byte) : Chip := bs.foldl (fun x _ => evictLine c x) (putLines s c a bs)

/-- The bytes of a cache from `a` on are invalidated (13 R593). -/
def dropLines (s : Chip) (c a n : Nat) : Chip :=
  { s with memu := { s.memu with lines := (List.range n).foldl (fun t i => Tab.erase t (lineAt c (a + i))) s.memu.lines } }

/-- The access is an instruction fetch (13 R591). -/
def isInstrFetch : CacheUse → Bool
  | .hit | .miss | .parity => false
  | .fetchHit | .fetchMiss | .fetchParity => true

/-- What the access meets in the cache: 0 its bytes, 1 nothing, 2 bytes whose parity bit has flipped. -/
def cacheMeets : CacheUse → Nat
  | .hit | .fetchHit => 0
  | .miss | .fetchMiss => 1
  | .parity | .fetchParity => 2

/-- A SUP core reads DRAM through its data cache, or fetches through its instruction cache (12 R531, 13 R593): a hit returns what the cache
holds, and reads no DRAM; a miss fetches the bytes; bytes whose parity fails are counted, invalidated and fetched again. A fetch that meets an
uncorrectable error leaves no line. DESIGN CHOICE (notes/assumptions/87.md). -/
def cacheRead (s : Chip) (core a : Nat) (bs : List Byte) (flips : List Nat) (use : CacheUse) : Chip × List Byte × Nat :=
  let c := if isInstrFetch use then core + 16 else core
  let held := (List.range bs.length).filterMap (fun i => Tab.get? s.memu.lines (lineAt c (a + i)))
  let fetch := fun (x : Chip) =>
    let r := fetchBytes x core a bs flips
    if r.2.2 = 2 then r else (cacheFill r.1 c a r.2.1, r.2)
  let again := fun (x : Chip) => fetch (dropLines ((x.bump Reg.memCachepe).odoInc 10 1) c a bs.length)
  match cacheMeets use with
  | 0 => if held.length < bs.length then fetch s
    else if held.any parityBad then again s
    else (s, held.map (fun x => x.setWidth 8), 0)
  | 1 => fetch s
  | _ => again s

/-- What a read has met goes to its reader (13 R590, R591): data of class CLEAN or CE; a UE gives a core a load or instruction access fault, H0
a poisoned completion with the uncorrected data, and any other reader the data with its port's error response. -/
def answerRead (src : Nat) (r : Chip × List Byte × Nat) : Chip :=
  if r.2.2 = 2 then
    (if srcIsCore src then r.1.readError src
    else if src = 10 then (r.1.returnData src (ofLe r.2.1)).poison src
    else (r.1.accessError src).returnData src (ofLe r.2.1))
  else r.1.returnData src (ofLe r.2.1)

/-- An agent's read of memory (00 R18, R22, 13 R590–R592), as the running fill has left it (13 R606). DESIGN CHOICE (notes/assumptions/87.md). -/
def memAccess (s : Chip) (src a n : Nat) (flips : List Nat) (use : CacheUse) : Chip :=
  let s1 := advanceFill s
  let bs := (List.range n).map (fun i => mapByte s1 src (a + i))
  if bs.any (·.isNone) then s.readError src
  else
    let ds := bs.map (·.getD 0)
    let r := if 8 ≤ src && src < 10 && isDram a then cacheRead s1 src a ds flips use else fetchBytes s1 src a ds flips
    if isInstrFetch use && srcIsCore src && r.2.2 == 2 then r.1.fetchFault src else answerRead src r

/-- An agent's read of the signal store (02 R74, R111): VALUE, the word at +4, or both; the bytes of a narrower read as they stand now.
DESIGN CHOICE (notes/assumptions/87.md). -/
def storeAccess (s : Chip) (src a : Nat) (w : Width) (flips : List Nat) : Chip :=
  let sid := (a - 0x02000000) / 8
  let s1 := upset s a (flips.take (widthLen w))
  if a % widthLen w ≠ 0 then s.readError src
  else
    match w with
    | .double => readEntry s1 src sid .both
    | .word => readEntry s1 src sid (if a % 8 = 0 then .value else .fields)
    | _ =>
      let (s2, r) := lookBytes s1 src sid (a % 8) (widthLen w)
      (dropCapture s2 src).returnData src (((w32 r.value).toNat + fieldsWord r * 2 ^ 32) / 2 ^ (8 * (a % 8)) % 2 ^ (8 * widthLen w))

/-- A register read (00 R18): naturally aligned 32-bit words alone. A core's read of TAKE at its port takes a cart (12 R546, R582); a read of a
tile SRAM, a block RAM or the snapshots in MRAM is decoded as any other of its memory (13 R586, R588). -/
def regAccess (s : Chip) (src a : Nat) (w : Width) (flips : List Nat) : Chip :=
  let r := readReg s src a
  match w, r.1 with
  | .word, .some v =>
    if src < 10 ∧ a = Reg.dspPtake src then
      takeRead s src false
    else
      let q := readCoded (upsetPlace r.2 a flips) src a v
      answerRead src (q.1, leBytes 4 q.2.1.toNat, q.2.2)
  | _, _ => s.readError src

/-- A read of a local address by an agent (00 R18, R22, R24; a store read of phase 9,000 sees the commit, 01 R51); `flips` have flipped in the bytes read. -/
def localRead (s : Chip) (who : Agent) (a : Nat) (w : Width) (flips : List Nat) (use : CacheUse) : Chip :=
  if isRegs a then regAccess s (agentSrc who) a w flips
  else if !reachesStore s who then s
  else if isStore a && (srcIsCore (agentSrc who) || who == .h0) then storeAccess (commitDue s) (agentSrc who) a w flips
  else memAccess s (agentSrc who) a (widthLen w) flips use

/-- A SUP core's store reaches the bytes that its own data cache holds as well: the caches write through (13 R593). -/
def cacheStore (s : Chip) (c a : Nat) (bs : List Byte) : Chip :=
  (List.range bs.length).foldl (fun x i =>
    if (Tab.get? x.memu.lines (lineAt c (a + i))).isSome then putLines x c (a + i) [bs.getD i 0] else x) s

/-- A core's store to DRAM (13 R608): one that a UE drops gets an access error. -/
def dramStore (s : Chip) (c a : Nat) (bs : List Byte) (flips : List Nat) : Chip :=
  let r := memWrite (upset s (a / 8 * 8) (flips.take 8)) a bs
  if r.2 then cacheStore r.1 c a bs else r.1.accessError c

/-- A core's store to a memory (00 R18, R22, 03 R161, 12 R532, R565, R567): shared SRAM, DRAM, its own TCM, its own staging page, to which the
write waits while a commit of its port runs; no other memory takes one. DEDUCED (notes/assumptions/66.md). -/
def coreStore (s : Chip) (c a : Nat) (bs : List Byte) (flips : List Nat) : Chip :=
  let inside := fun (lo n : Nat) => decide (lo ≤ a) && decide (a + bs.length ≤ lo + n)
  if s.rst.inCore then s
  else if isSram a && isSram (a + bs.length - 1) then agentWrite s a bs
  else if isDram a && isDram (a + bs.length - 1) then dramStore s c a bs flips
  else if inside 0x00080000 0x40000 then s.writeBytes (placeAt c a) bs
  else if inside (stagingAddr c) 0x400 then
    if (Tab.get .none s.dsp.commits c).isSome then holdStall s c (.store a bs) else s.writeBytes a bs
  else s.accessError c

/-- A store to the signal store as a P3 write (02 R89, R91): of VALUE, of the word at +4, of both; a narrower one of STATUS, WSEQ or AGE is
ignored. DESIGN CHOICE (notes/assumptions/9.md). -/
def storeStore (s : Chip) (who : Agent) (a : Nat) (w : Width) (v hi : Word) : Chip :=
  let sid := (a - 0x02000000) / 8
  if a % widthLen w ≠ 0 then s.accessError (agentSrc who)
  else p3Write s who 0 sid (match w with
    | .double => .both v hi
    | .word => if a % 8 = 0 then .value v else .status v
    | _ => .counters)

/-- A write by an agent to a local address with no command of its own (00 R15, R18, R22, R24): `hi` is the upper word of a 64-bit access, and
`flips` what has flipped in the word that a narrow DRAM write reads. -/
def localWrite (s : Chip) (who : Agent) (a : Nat) (w : Width) (v hi : Word) (flips : List Nat) (more : Bool) : Chip :=
  let src := agentSrc who
  if isRegs a then
    match w with
    | .word => answerWrite src a v (regWrite s src a v more)
    | _ => s.accessError src
  else if !reachesStore s who then s
  else if isStore a && (srcIsCore src || who == .h0) then storeStore s who a w v hi
  else if srcIsCore src then coreStore s src a ((leBytes 4 v.toNat ++ leBytes 4 hi.toNat).take (widthLen w)) flips
  else if who == .h0 && isJournal a then journalWrite s
  else if who == .h0 && isDram a then bar4Write s
  else s.accessError src

/-- Interrupt 16 CARTRDY of core `p` is pending (12 R534): its prefetch slot holds a cart and INTEN of its port is set. -/
def cartReady (s : Chip) (p : Nat) : Bool := (slotCart s p).isSome && s.rdBit (Reg.dspPinten p) 0

/-- Interrupt 17 PORTERR of core `p` is pending (12 R534): ERR of its port is not 0. -/
def portErrPending (s : Chip) (p : Nat) : Bool := s.rdF (Reg.dspPerr p) 2 0 != 0

end Sys2Proof.Machine
end

