-- ==== Sys2Proof/Machine/Levels.lean ====
section
/-!
DEFINITION. What the Poermun drives on its balls (20 R891), as State has it: functions of the state, which no command reads back. The
unpowered column of R891 is not the machine's.
-/

namespace Sys2Proof.Machine

/-- How a ball is driven (20 R877, R891): `protocol` is a line that carries a frame or a word as the standard of its link has it, `idle` an
electrical idle, `coaches` a ring transmitter at work, `bias` an analog input at its bias. -/
inductive PinDrive where
  | low
  | high
  | highZ
  | weakUp
  | weakDown
  | idle
  | coaches
  | bias
  | input
  | protocol
  deriving DecidableEq, Repr

/-- A driven level. -/
def PinDrive.level (b : Bool) : PinDrive := if b then .high else .low

/-- Cold reset holds the domains (01 R29, 17 R768, R773, 20 R877). -/
def coldHeld (s : Chip) : Bool := !s.boot.on

/-- EWA_TX and EWB_TX: coaches while the ring keeper runs (06 R293), through a warm restart as well. -/
def ewTxPin (s : Chip) : PinDrive := if s.rdBit Reg.ewnStat 0 then .coaches else .idle

/-- EWA_TXDIS and EWB_TXDIS (20 R879): low while the ring keeper runs, EWN_STAT.RUN (06 R293), and high at every other time. -/
def txdisPin (s : Chip) : PinDrive := .level (!s.rdBit Reg.ewnStat 0)

/-- The bypass joins the TLA balls to the TLB balls (16 R722): in cold reset, and until the consist is loaded. -/
def bypassClosed (s : Chip) : Bool := coldHeld s || s.rdBit Reg.tlnStat 2

/-- SYNC_OUT (01 R35, R38). -/
def syncOutPin (s : Chip) : PinDrive := .level (!coldHeld s && s.pins.syncOut)

/-- BOOT_DONE (17 R769). -/
def bootDonePin (s : Chip) : PinDrive := .level s.booted

/-- FAULT_L, open-drain (17 R800). -/
def faultPin (s : Chip) : PinDrive := if faultLow s then .low else .highZ

/-- XSPI_CS_L. -/
def xspiCsPin (s : Chip) : PinDrive := if coldHeld s then .weakUp else .protocol

/-- XSPI_RST_L. -/
def xspiRstPin (s : Chip) : PinDrive := .level (!coldHeld s)

/-- CANn_TX (08 R353, R381): recessive, which is high, while the channel is off, in reset or listen-only. -/
def canTxPin (s : Chip) (n : Nat) : PinDrive :=
  if coldHeld s then .weakUp
  else if s.rst.inCore || s.rdBit (Reg.canCtl n) 3 || !(canOn s n || ((canSt s n).leave != 0 && (canSt s n).bus.isSome)) then .high
  else .protocol

/-- FBn_CTL as the pads have it (09 R421, 20 R892): what the reset of CORE found, until the consist is back. -/
def padCtl (s : Chip) (n : Nat) : Word :=
  if s.rst.inCore && s.rst.reloaded.isNone then Tab.get 0 s.pins.fbPads n else s.rd (Reg.fbCtl n)

/-- FBn_A: the serial clock in mode 2 (09 R402, R420, R421), high at every moment at which no word is clocked in; an input otherwise. -/
def fbAPin (s : Chip) (n : Nat) : PinDrive :=
  if coldHeld s then .weakUp else if fld (padCtl s n) 3 1 = 2 then .level (fbClock s n) else .input

/-- FBn_B and FBn_Z. -/
def fbInPin (s : Chip) : PinDrive := if coldHeld s then .weakUp else .input

/-- FBn_CMP (09 R416, R420, R421, R423): CMPPOL gives the active level. -/
def fbCmpPin (s : Chip) (n : Nat) : PinDrive := if coldHeld s then .highZ else .level (cmpActive s n != bit (padCtl s n) 8)

/-- PWMn is active now (10 R455, R456, R458): in the active interval of its present period. -/
def pwmActive (s : Chip) (n : Nat) : Bool :=
  s.rdBit (pwmCtl n) 0 && (match Tab.get .none s.pins.pwm n with
    | .some p => decide (p.on ≤ s.tb.phase) && decide (s.tb.phase < p.off)
    | .none => false)

/-- PWMn (10 R455, R458): POL gives the active level. -/
def pwmPin (s : Chip) (n : Nat) : PinDrive := if coldHeld s then .weakDown else .level (pwmActive s n != s.rdBit (pwmCtl n) 1)

/-- USB_DP and USB_DM (16 R730). -/
def usbPin (s : Chip) : PinDrive := if s.rdBit Reg.svcStat 0 then .protocol else .highZ

/-- AIN and ADCk_VREF: biased whenever the Poermun has its supplies (20 R888). -/
def ainPin (_ : Chip) : PinDrive := .bias

/-- SOn (15 R661, R674, R676): on while the island has it on and no off pulse runs. -/
def soPin (s : Chip) (n : Nat) : PinDrive :=
  .level (!coldHeld s && s.rdBit Reg.safOut (16 + n) && (Tab.get SafeOut.zero s.isl.outs n).pulse.isNone)

/-- TPk (15 R661, R671): high in every state but RESET, except during its pulse. -/
def tpPin (s : Chip) (k : Nat) : PinDrive := .level (!coldHeld s && islState s != 0 && !s.isl.tpLow.contains k)

/-- TDO (20 R891): the bit that the TAP shifts out, high impedance while it shifts none. `shifts` is what the TAP controller holds of this,
whose states IEEE 1149.1 gives and no command of the block shows. -/
def tdoPin (shifts : Option Bool) : PinDrive := match shifts with
  | .some b => .level b
  | .none => .highZ

/-- The PCIe lanes (16 R709, 20 R886, R891): electrical idle in cold reset, else as PCIe has them in the state of the link, which the reset of
CORE keeps. -/
def pcieLanePin (s : Chip) : PinDrive := if coldHeld s then .idle else .protocol

/-- PCIE_CLKREQ_L: low while H0 uses its reference (20 R891). -/
def clkreqPin (s : Chip) : PinDrive := if h0Up s then .low else .highZ

end Sys2Proof.Machine
end

