-- ==== Sys2Proof/Machine/Settle.lean ====
section
/-!
DEFINITION. How a command ends: the recorder takes its transactions and events in order, MSI-X vectors follow the events, the dispatcher
runs the cycle of the raises, and a COLD fault acts. Beside it, the actions of a tick boundary and writes of an agent.
-/

namespace Sys2Proof.Machine

/-- The events among the notes. -/
def noteEvents (l : List Note) : List Nat :=
  l.filterMap (fun n => match n with
    | .event e => .some e
    | _ => .none)

/-- The recorder takes the notes, and those that it leaves itself; `fuel` bounds the rounds. The events met, in order, come with it.
DESIGN CHOICE (notes/assumptions/17.md). -/
def recAll (s : Chip) : Nat → Chip × List Nat
  | 0 => ({ s with notes := [] }, noteEvents s.notes)
  | fuel + 1 =>
    if s.notes = [] then (s, [])
    else
      let r := recAll (recNotes { s with notes := [] } s.notes) fuel
      (r.1, noteEvents s.notes ++ r.2)

/-- The MSI-X vectors of a raised event (16 R711, R761): vector 4 for the claim events, and each HPC_EVVEC that names the event. -/
def eventVectors (s : Chip) (e : Nat) : Chip :=
  let s1 := if 64 ≤ e ∧ e ≤ 68 then s.signal 4 else s
  (List.range 32).foldl (fun x j =>
    let w := x.rd (Reg.hpcEvvec j)
    if bit w 31 && fld w 9 0 == e && decide (6 ≤ fld w 21 16) then x.signal (fld w 21 16) else x) s1

/-- One round: the recorder, the vectors, then a dispatcher cycle with the raises (12 R552). -/
def react (s : Chip) : Chip :=
  let r := recAll s 40
  if r.2 = [] then r.1 else arriveRaises (r.2.foldl eventVectors r.1) r.2

/-- Rounds until nothing is left, at most `fuel`; what is left then waits for the next command. DESIGN CHOICE (notes/assumptions/17.md). -/
def reactAll (s : Chip) : Nat → Chip
  | 0 => s
  | fuel + 1 => if s.notes = [] then s else reactAll (react s) fuel

/-- The end of every command: unknown host commands whose turn has come are answered, the write buffer has drained up to now, then what the
command left is taken. DESIGN CHOICE (notes/assumptions/17.md). -/
def settle (s : Chip) : Chip :=
  let s1 := reactAll (drainBuffer (unknownDone s)) 8
  match s1.books.cold with
  | .none => s1
  | .some _ => coldAction s1

/-- A command's outcome: its effect on the Poermun, with what follows from it; the queue stays. DESIGN CHOICE (notes/assumptions/4.md). -/
def finish (st : State) (effect : Chip → Chip) : Host.Outcome State Fault Refusal := .next { st with chip := settle (effect st.chip) }

/-- The tick now starting in the books: the incident log may take 64 entries again (19 R859). DESIGN CHOICE (notes/assumptions/7.md). -/
def booksTick (s : Chip) : Chip := { s with books := { s.books with logTick := 0, alarmsOut := [] } }

/-- The timebase at a boundary (01 R26, R31, R39–R45, 00 R15). DESIGN CHOICE (notes/assumptions/7.md). -/
def timeTick (s : Chip) (fabSec fabNs : Nat) : Chip :=
  let s1 := applyMode (applyShadow (booksTick (advanceTick s)))
  recordFab (applyTrim s1 s1.hst.ptp.servo) fabSec fabNs

/-- The loop engine at a boundary: NDUE takes the slots evaluated in the tick that ends (03 R169), and its points of this tick are to come. -/
def engineTick (s : Chip) : Chip :=
  let s1 := (List.range 16).foldl (fun x t => x.wrF (Reg.ltStat t) 14 8 (Tab.get 0 x.eng.evals t)) s
  { s1 with eng := { s1.eng with evals := [], pointDone := false, commitDone := false } }

/-- Every phase-0 action of the master phase table (01 R46) that has no command of its own.
DESIGN CHOICE (notes/assumptions/7.md). DESIGN CHOICE (notes/assumptions/18.md). -/
def tickBoundary (s : Chip) (fabSec fabNs : Nat) (busy : List Nat) : Chip :=
  if !s.boot.on then s
  else
    let s1 := redTick (timeTick (recBoundary (ringTickEnd (odoEdge s))) fabSec fabNs)
    let s2 := syncRise (swapBoundary (engineTick (applyStoreShadow s1)))
    let s3 := pwmRelease (startCoach s2)
    syncSeatPend (fbBoundaries ((List.range 8).foldl adcBoundary s3) busy)

end Sys2Proof.Machine
end

