-- ==== Sys2Proof/Machine/BootCmds.lean ====
section
/-!
DEFINITION. The meanings of the commands of the cold sequence and the monitors (01, 16, 17): one for each row of the table.
-/

namespace Sys2Proof.Machine

/-- The cold sequence begins (17 R769); a closed TAP leaves EXTEST (16 R731). -/
def execPorstLRising (banks : BankLevels) (st : State) : Host.Outcome State Fault Refusal :=
  finish st (fun s => porstRising (tapClose { s with pwr := { s.pwr with porst := true } }) banks)

/-- Every domain is put into cold reset (20 R877). -/
def execPorstLLow (st : State) : Host.Outcome State Fault Refusal :=
  finish st (fun s => porstLow s)

/-- Cold reset for want of REFCLK (01 R29). -/
def execRefclkFault (st : State) : Host.Outcome State Fault Refusal :=
  finish st (fun s => refclkFault s)

/-- Cold reset for want of VDD_AON (17 R768). -/
def execVddAonLow (st : State) : Host.Outcome State Fault Refusal :=
  finish st (fun s => vddAonLow s)

/-- VDD_AON is back (17 R768). -/
def execVddAonRecovered (st : State) : Host.Outcome State Fault Refusal :=
  finish st (fun s => vddAonRecovered s)

/-- Fault VMON of class COLD (17 R768, R797). -/
def execVmon (rail : Fin 4) (st : State) : Host.Outcome State Fault Refusal :=
  finish st (fun s => vmon s rail.val)

/-- Fault THERM, once per rise (17 R768). -/
def execTherm (st : State) : Host.Outcome State Fault Refusal :=
  finish st (fun s => therm s)

/-- Fault THERMSD of class COLD (17 R768). -/
def execThermsd (st : State) : Host.Outcome State Fault Refusal :=
  finish st (fun s => thermsd s)

/-- The hold of an internal cold reset ends (17 R773). -/
def execColdResetHoldEnd (tj : Int) (st : State) : Host.Outcome State Fault Refusal :=
  finish st (fun s => holdEnd s tj)

/-- The PLL locks (01 R31). -/
def execPllLocked (st : State) : Host.Outcome State Fault Refusal :=
  finish st (fun s => pllLocked s)

/-- The PLL loses lock (01 R31). -/
def execPllLockLost (st : State) : Host.Outcome State Fault Refusal :=
  finish st (fun s => pllLost s)

/-- The zero fill has ended (13 R603). -/
def execZeroFillDone (st : State) : Host.Outcome State Fault Refusal :=
  finish st (fun s => zeroFillDone s)

/-- DRAM training has ended (17 R769). -/
def execDramTrainingDone (st : State) : Host.Outcome State Fault Refusal :=
  finish st (fun s => dramTrained s)

/-- MRAM can be read: the odometer restore (17 R769, R774, 14 R639). -/
def execMramReadable (st : State) : Host.Outcome State Fault Refusal :=
  finish st (fun s => mramReadable s)

/-- The manifests are checked (16 R756). -/
def execManifestCheck (st : State) : Host.Outcome State Fault Refusal :=
  finish st (fun s => manifestCheck s)

/-- An image has been loaded and hashed (16 R756). -/
def execImageLoadDone (st : State) : Host.Outcome State Fault Refusal :=
  finish st (fun s => imageLoadDone s)

/-- The consist of the slot has been checked (18 R824, R825). -/
def execConsistVerified (st : State) : Host.Outcome State Fault Refusal :=
  finish st (fun s => consistVerified s)

/-- The consist is applied (17 R769, 18 R825). -/
def execConsistLoad (st : State) : Host.Outcome State Fault Refusal :=
  finish st (fun s => consistLoad s)

/-- BOOT_DONE (17 R769). -/
def execBootDone (st : State) : Host.Outcome State Fault Refusal :=
  finish st (fun s => bootDone s)

end Sys2Proof.Machine
end

