-- ==== Sys2Proof/Machine/CanCmds.lean ====
section
/-!
DEFINITION. The meanings of the commands of CAN channels (08): one for each row of the table.
-/

namespace Sys2Proof.Machine

/-- A received frame becomes valid (08 R359). -/
def execCanFrameValid (n : Fin 8) (ph : Phase) (frame : CanFrame) (st : State) : Host.Outcome State Fault Refusal :=
  finish st (fun s => canReceive s n.val ph.val frame)

/-- CANn_TXREQ is written (08 R366). -/
def execCanTxreq (who : Agent) (n : Fin 8) (hi : Bool) (mask : Word) (st : State) : Host.Outcome State Fault Refusal :=
  finish st (fun s => regCmd s who (if hi then Reg.canTxreq1 n.val else Reg.canTxreq0 n.val) mask)

/-- CANn_TXABORT is written (08 R367). -/
def execCanTxabort (who : Agent) (n : Fin 8) (hi : Bool) (mask : Word) (st : State) : Host.Outcome State Fault Refusal :=
  finish st (fun s => regCmd s who (if hi then Reg.canTxabort1 n.val else Reg.canTxabort0 n.val) mask)

/-- A matrix entry reaches its release phase (08 R371); packing reads the store (01 R51). -/
def execCanRelease (n : Fin 8) (j : Fin 256) (st : State) : Host.Outcome State Fault Refusal :=
  finish st (fun s => if releaseDue s n.val j.val then canRelease (commitDue (s.atPhase (releasePhase s n.val j.val))) n.val j.val else s)

/-- A release window closes (08 R373). -/
def execCanWindowExpiry (n : Fin 8) (b : Fin 64) (ph : Phase) (st : State) : Host.Outcome State Fault Refusal :=
  finish st (fun s => canExpire s n.val b.val ph.val)

/-- A transmitted frame ends (08 R368). -/
def execCanFrameEnd (n : Fin 8) (ph : Phase) (tdcv : BitVec 8) (st : State) : Host.Outcome State Fault Refusal :=
  finish st (fun s => canFrameEnd s n.val ph.val tdcv.toNat)

/-- A bus error (08 R376). -/
def execCanBusError (n : Fin 8) (ph : Phase) (code : Fin 8) (kind : CanErr) (tdcv : Option (BitVec 8)) (st : State) :
    Host.Outcome State Fault Refusal :=
  finish st (fun s => canBusError s n.val ph.val code.val kind (tdcv.map (·.toNat)))

/-- Bus-off recovery ends (08 R378). -/
def execBusoffRecovery (n : Fin 8) (st : State) : Host.Outcome State Fault Refusal :=
  finish st (fun s => canRecovered s n.val)

/-- RECOVER is written (08 R378). -/
def execCanRecover (who : Agent) (n : Fin 8) (st : State) : Host.Outcome State Fault Refusal :=
  finish st (fun s => regCmd s who (Reg.canCtl n.val) (setBit (s.rd (Reg.canCtl n.val)) 8 true))

/-- CANn_CTL.ON is written (08 R369). -/
def execCanOnWrite (who : Agent) (n : Fin 8) (on : Bool) (st : State) : Host.Outcome State Fault Refusal :=
  finish st (fun s => onCmd s who (Reg.canCtl n.val) on)

end Sys2Proof.Machine
end

