-- ==== Sys2Proof/Machine/CartCmds.lean ====
section
/-!
DEFINITION. The meanings of the commands of events, carts, ports and cores (12): one for each row of the table.
-/

namespace Sys2Proof.Machine

/-- A raise of an event (12 R543). -/
def execEventRaise (e : BitVec 10) (st : State) : Host.Outcome State Fault Refusal :=
  finish st (fun s => s.raise e.toNat)

/-- Pending counts make carts (12 R544). -/
def execPendingCart (st : State) : Host.Outcome State Fault Refusal :=
  finish st (fun s => if s.dsp.pend = [] then s else dspCycle s [])

/-- POSTCTL is written (12 R545). DESIGN CHOICE (notes/assumptions/71.md). -/
def execPostctl (p : Fin 10) (v : Word) (more : Bool) (st : State) : Host.Outcome State Fault Refusal :=
  finish st (fun s => portCmd s p.val (Reg.dspPpostctl p.val) v more)

/-- Stalled posts complete (12 R560). -/
def execPostStallRelease (st : State) : Host.Outcome State Fault Refusal :=
  finish st (fun s => if s.dsp.posts = [] then s else dspCycle s [])

/-- TAKE is read (12 R546). DESIGN CHOICE (notes/assumptions/71.md). -/
def execTake (p : Fin 10) (more : Bool) (st : State) : Host.Outcome State Fault Refusal :=
  finish st (fun s => if s.rst.inCore then s else takeRead s p.val more)

/-- DONE is written (12 R547). -/
def execDone (p : Fin 10) (v : Word) (more : Bool) (st : State) : Host.Outcome State Fault Refusal :=
  finish st (fun s => portCmd s p.val (Reg.dspPdone p.val) v more)

/-- CANCEL is written (12 R548). -/
def execCancel (p : Fin 10) (v : Word) (more : Bool) (st : State) : Host.Outcome State Fault Refusal :=
  finish st (fun s => portCmd s p.val (Reg.dspPcancel p.val) v more)

/-- EVRAISE is written (12 R549). -/
def execEvraise (p : Fin 10) (v : Word) (more : Bool) (st : State) : Host.Outcome State Fault Refusal :=
  finish st (fun s => portCmd s p.val (Reg.dspPevraise p.val) v more)

/-- STEPCTL is written (12 R563). -/
def execStepctl (p : Fin 10) (v : Word) (more : Bool) (st : State) : Host.Outcome State Fault Refusal :=
  finish st (fun s => portCmd s p.val (Reg.dspPstepctl p.val) v more)

/-- Step timers fire at phase 0 (12 R564). -/
def execStepTimerFire (st : State) : Host.Outcome State Fault Refusal :=
  finish st (fun s => stepFire s)

/-- Waiting step timers make their carts (12 R564). -/
def execStepWaitCart (st : State) : Host.Outcome State Fault Refusal :=
  finish st (fun s => if s.dsp.timers.any (fun e => e.2.wait) then dspCycle s [] else s)

/-- DEFERRED carts become QUEUED (12 R545). -/
def execDeferredDue (st : State) : Host.Outcome State Fault Refusal :=
  finish st (fun s => deferredDue s)

/-- JCOMMIT is written (12 R567). -/
def execJcommit (p : Fin 10) (v : Word) (more : Bool) (st : State) : Host.Outcome State Fault Refusal :=
  finish st (fun s => portCmd s p.val (Reg.dspPjcommit p.val) v more)

/-- A page commit completes (12 R568). -/
def execJcommitComplete (p : Fin 10) (st : State) : Host.Outcome State Fault Refusal :=
  finish st (fun s => jcommitEnd s p.val)

/-- A watchdog runs out (12 R535). -/
def execWatchdogExpiry (c : Fin 10) (st : State) : Host.Outcome State Fault Refusal :=
  finish st (fun s => wdExpiry s c.val)

/-- A core writes its WDKICK (12 R585). DESIGN CHOICE (notes/assumptions/71.md). -/
def execWdkick (c : Fin 10) (st : State) : Host.Outcome State Fault Refusal :=
  finish st (fun s => portCmd s c.val (if c.val < 8 then Reg.corSeqwdkick c.val else Reg.corSupwdkick (c.val - 8)) 0 false)

/-- A core that has reached no DONE stops (12 R571). -/
def execCoreStopTimeout (c : Fin 8) (st : State) : Host.Outcome State Fault Refusal :=
  finish st (fun s => coreStopTimeout s c.val)

end Sys2Proof.Machine
end

