-- ==== Sys2Proof/Machine/EweneCmds.lean ====
section
/-!
DEFINITION. The meanings of the commands of the Ewene backbone (06, 07): one for each row of the table.
-/

namespace Sys2Proof.Machine

/-- A copy of a compartment returns (06 R276), on a port that has block lock (20 R879). -/
def execCompartmentReturn (ofPrev : Bool) (copy : RingCopy) (comp : Nat) (bytes : List Byte) (st : State) :
    Host.Outcome State Fault Refusal :=
  finish st (fun s => if hears s copy.ring.val copy.ownPort then compartmentReturn s ofPrev copy.ring.val comp bytes else s)

/-- A coach header returns (07 R337), on a port that has block lock (20 R879): its ring is FLAGS.RING. -/
def execCoachHeaderReturn (ownPort : Bool) (bytes : List Byte) (time : Nat) (st : State) : Host.Outcome State Fault Refusal :=
  finish st (fun s => if hears s (b2n (natBit (leAt (padTo 64 bytes) 1 1) 1)) ownPort then headerReturn s ownPort bytes time else s)

/-- P0 lands the previous coach, and the island takes its frames (01 R49, 06 R276, 15 R682). DESIGN CHOICE (notes/assumptions/8.md). -/
def execLanding (st : State) : Host.Outcome State Fault Refusal :=
  finish st (fun s => if before s 5800 then islLand (landCoach s) else s)

/-- The coach of the next tick is cut (01 R50). -/
def execCoachCut (st : State) : Host.Outcome State Fault Refusal :=
  finish st (fun s => if before s 9500 && s.ewn.next.isNone then syncSeatPend (coachCut s) else s)

/-- The mail window (06 R286), after the survey packet of the tick (07 R311). -/
def execMailWindow (st : State) : Host.Outcome State Fault Refusal :=
  finish st (fun s => syncSeatPend (mailWindow (sendEnum s)))

/-- An overdue frame is sent again (06 R284), after the survey packet of the tick (07 R311). -/
def execMailRetransmit (st : State) : Host.Outcome State Fault Refusal :=
  finish st (fun s => syncSeatPend (resendOldest (sendEnum s)))

/-- A returned carrier is judged (06 R282). -/
def execUplinkFrame (d : Fin 64) (a b : List Byte) (own : OwnPorts) (st : State) : Host.Outcome State Fault Refusal :=
  finish st (fun s => if 1 ≤ d.val ∧ d.val ≤ 62 then pruneMail (syncSeatPend (uplinkFrame s d.val (heard s 0 own.a a) (heard s 1 own.b b) own)) else s)

/-- EWN_MTXTAIL is written (06 R299). -/
def execMtxtailWrite (who : Agent) (v : Word) (st : State) : Host.Outcome State Fault Refusal :=
  finish st (fun s => regCmd s who Reg.ewnMtxtail v)

/-- The ENUM packet of a round leaves; refused timetables go again (07 R312, 18 R828). -/
def execSurveyRoundStart (st : State) : Host.Outcome State Fault Refusal :=
  finish st (fun s => if s.ewn.stage = 1 ∧ !s.ewn.sent then sendAgain (sendEnum s) else s)

/-- The ENUM packet returns (07 R314); nodes that enter mail get the staged timetable (18 R828). -/
def execEnumReturn (a b : List Byte) (own : OwnPorts) (st : State) : Host.Outcome State Fault Refusal :=
  finish st (fun s => syncSeatPend (sendToEntrants s (enumReturn s (heard s 0 own.a a) (heard s 1 own.b b) own)))

/-- The DELAY packet returns (07 R315). -/
def execDelayReturn (a b : List Byte) (own : OwnPorts) (depA depB rtA rtB : Word) (st : State) : Host.Outcome State Fault Refusal :=
  finish st (fun s => syncSeatPend (delayReturn s (heard s 0 own.a a) (heard s 1 own.b b) own depA.toNat depB.toNat rtA.toNat rtB.toNat))

/-- A receive port loses block lock (07 R337). -/
def execRxBlockLockLoss (ring : Fin 2) (st : State) : Host.Outcome State Fault Refusal :=
  finish st (fun s => lockLost s ring.val)

/-- BREAK heals after 1,000 clean ticks (07 R337). -/
def execBreakHeal (st : State) : Host.Outcome State Fault Refusal :=
  finish st (fun s => healBreak s)

/-- READMIT is written (07 R351). -/
def execNctlReadmit (who : Agent) (d : Fin 64) (st : State) : Host.Outcome State Fault Refusal :=
  finish st (fun s => regCmd s who (Reg.ewnNctl d.val) (setBit (s.rd (Reg.ewnNctl d.val)) 0 true))

/-- EXCLUDE is written (07 R351). -/
def execNctlExclude (who : Agent) (d : Fin 64) (on : Bool) (st : State) : Host.Outcome State Fault Refusal :=
  finish st (fun s => regCmd s who (Reg.ewnNctl d.val) (setBit 0 1 on))

end Sys2Proof.Machine
end

