-- ==== Sys2Proof/Machine/HostCmds.lean ====
section
/-!
DEFINITION. The meanings of the commands of H0 and the host commands (16, 18): one for each row of the table.
-/

namespace Sys2Proof.Machine

/-- PCIE_PERST_L goes low (20 R878). -/
def execPciePerst (st : State) : Host.Outcome State Fault Refusal :=
  finish st (fun s => pciePerst s)

/-- The H0 link is lost (16 R716). -/
def execH0LinkLoss (st : State) : Host.Outcome State Fault Refusal :=
  finish st (fun s => if h0Up s then linkLost s else s)

/-- A write to BAR4 (16 R710). -/
def execBar4Write (st : State) : Host.Outcome State Fault Refusal :=
  finish st (fun s => bar4Write s)

/-- HPC_CQTAIL is written (16 R739). -/
def execHpcCqtail (who : Agent) (t : RingTail) (st : State) : Host.Outcome State Fault Refusal :=
  finish st (fun s => regCmd (ringSubmit s (agentSrc who) t.images) who Reg.hpcCqtail t.word)

/-- PING (16 R736). -/
def execPing (h : HostCmd) (st : State) : Host.Outcome State Fault Refusal :=
  finish st (fun s => hostRun s 0x01 .read h false (pingCmd h))

/-- RDSIG (16 R736). -/
def execRdsig (h : HostCmd) (st : State) : Host.Outcome State Fault Refusal :=
  finish st (fun s => hostRun s 0x02 .read h false (rdsigCmd h))

/-- WRSIG (16 R738). -/
def execWrsig (h : HostCmd) (st : State) : Host.Outcome State Fault Refusal :=
  finish st (fun s => hostRun s 0x03 .wsig h false (wrsigCmd h))

/-- RDREG (16 R899, R741). -/
def execRdreg (h : HostCmd) (st : State) : Host.Outcome State Fault Refusal :=
  finish st (fun s => hostRun s 0x04 .read h (s.rst.inCore && touchesCore h.arg0.toNat (min (askedWords h) 256)) (rdregCmd h))

/-- WRREG (16 R899, R741); its words need the authority of 16 R734 one by one. -/
def execWrreg (h : HostCmd) (st : State) : Host.Outcome State Fault Refusal :=
  finish st (fun s => hostRun s 0x05 .read h (s.rst.inCore && touchesCore h.arg0.toNat (min (h.body.length / 4) 256)) (wrregCmd h))

/-- RDMEM (16 R736). -/
def execRdmem (h : HostCmd) (flips : List Nat) (st : State) : Host.Outcome State Fault Refusal :=
  finish st (fun s => hostRun s 0x06 .read h false (rdmemCmd h flips))

/-- CLAIM (16 R746). -/
def execClaim (h : HostCmd) (st : State) : Host.Outcome State Fault Refusal :=
  finish st (fun s => hostRun s 0x10 .claim h false (claimCmd h))

/-- HBEAT (16 R744): never answered, as though NORSP stood (16 R735, R736). -/
def execHbeat (h : HostCmd) (st : State) : Host.Outcome State Fault Refusal :=
  finish st (fun s => hostRun s 0x11 .claim { h with norsp := true } false (hbeatCmd h))

/-- CLMSTAT (16 R736). -/
def execClmstat (h : HostCmd) (st : State) : Host.Outcome State Fault Refusal :=
  finish st (fun s => hostRun s 0x12 .read h false (clmstatCmd h))

/-- EVENT (16 R736, R741). -/
def execEvent (h : HostCmd) (st : State) : Host.Outcome State Fault Refusal :=
  finish st (fun s => hostRun s 0x20 .recipe h (s.rst.inCore) (eventCmd h))

/-- MAIL (16 R740). -/
def execMail (h : HostCmd) (st : State) : Host.Outcome State Fault Refusal :=
  finish st (fun s => hostRun s 0x21 .mail h false (mailCmd h))

/-- A MAIL command completes (16 R740). -/
def execMailResponse (st : State) : Host.Outcome State Fault Refusal :=
  finish st (fun s => mailDone s)

/-- WARM (16 R736, R741). -/
def execWarm (h : HostCmd) (st : State) : Host.Outcome State Fault Refusal :=
  finish st (fun s => hostRun s 0x22 .restart h (s.rst.inCore) (warmCmd h))

/-- ALMREAD (16 R736). -/
def execAlmread (h : HostCmd) (st : State) : Host.Outcome State Fault Refusal :=
  finish st (fun s => hostRun s 0x30 .read h false (almreadCmd h))

/-- ALMACK (16 R753). -/
def execAlmack (h : HostCmd) (st : State) : Host.Outcome State Fault Refusal :=
  finish st (fun s => hostRun s 0x31 .alm h false (almackCmd h))

/-- ATTEST (16 R760). -/
def execAttest (h : HostCmd) (st : State) : Host.Outcome State Fault Refusal :=
  finish st (fun s => hostRun s 0x40 .attest h false (attestCmd h))

/-- A quote has been signed (16 R760). -/
def execAttestDone (st : State) : Host.Outcome State Fault Refusal :=
  finish st (fun s => attestDone s)

/-- QREAD (16 R736). -/
def execQread (h : HostCmd) (st : State) : Host.Outcome State Fault Refusal :=
  finish st (fun s => hostRun s 0x41 .attest h false (qreadCmd h))

/-- CSTSTAGE (18 R826). -/
def execCststage (h : HostCmd) (st : State) : Host.Outcome State Fault Refusal :=
  finish st (fun s => hostRun s 0x50 .consist h false (fun x => answered (cstStageCmd x h.arg0.toNat h.arg1.toNat h.body)))

/-- Verification of a staged consist ends (18 R827). -/
def execStageVerifyDone (st : State) : Host.Outcome State Fault Refusal :=
  finish st (fun s => syncSeatPend (stageVerifyDone s))

/-- CSTSWAP (18 R829). -/
def execCstswap (h : HostCmd) (st : State) : Host.Outcome State Fault Refusal :=
  finish st (fun s => hostRun s 0x51 .consist h false (cstswapCmd h))

/-- CSTPATCH (18 R833). -/
def execCstpatch (h : HostCmd) (st : State) : Host.Outcome State Fault Refusal :=
  finish st (fun s => hostRun s 0x52 .consist h false (fun x => answered (cstPatchCmd x h.arg0.toNat h.arg1.toNat h.body)))

/-- The last cycle of the tick before APPLY (18 R836). -/
def execPatchApply (st : State) : Host.Outcome State Fault Refusal :=
  finish st (fun s => patchApply s)

/-- FLREAD (16 R736). -/
def execFlread (h : HostCmd) (st : State) : Host.Outcome State Fault Refusal :=
  finish st (fun s => hostRun s 0x58 .flash h false (flreadCmd h))

/-- FLERASE (17 R772). -/
def execFlerase (h : HostCmd) (st : State) : Host.Outcome State Fault Refusal :=
  finish st (fun s => hostRun s 0x59 .flash h false (fleraseCmd h))

/-- FLWRITE (17 R772). -/
def execFlwrite (h : HostCmd) (st : State) : Host.Outcome State Fault Refusal :=
  finish st (fun s => hostRun s 0x5A .flash h false (flwriteCmd h))

end Sys2Proof.Machine
end

