-- ==== Sys2Proof/Machine/LocalCmds.lean ====
section
/-!
DEFINITION. The meanings of the commands of feedback, converters and PWM (09, 10): one for each row of the table.
-/

namespace Sys2Proof.Machine

/-- Changes of the input lines of a feedback channel (09 R395, R397). -/
def execFbEdgeAccepted (n : Fin 32) (ph : Phase) (a b z : RawLine) (st : State) : Host.Outcome State Fault Refusal :=
  finish st (fun s => fbEdge s n.val ph.val a b z)

/-- The sample of a feedback channel (09 R400). -/
def execFbSample (n : Fin 32) (st : State) : Host.Outcome State Fault Refusal :=
  finish st (fun s => fbSample s n.val)

/-- A serial word is decoded (09 R406). -/
def execSerialWordDecode (n : Fin 32) (word : BitVec 64) (st : State) : Host.Outcome State Fault Refusal :=
  finish st (fun s => serialWord s n.val word.toNat)

/-- A compare pulse ends (09 R416). -/
def execComparePulseEnd (pin : Fin 32) (ph : Phase) (st : State) : Host.Outcome State Fault Refusal :=
  finish st (fun s => pulseEnd s pin.val ph.val)

/-- CMPVALu is written (09 R418). -/
def execCmpvalWrite (who : Agent) (n : Fin 32) (u : Fin 4) (v : Word) (st : State) : Host.Outcome State Fault Refusal :=
  finish st (fun s => regCmd s who (Reg.fbCmpval n.val u.val) v)

/-- FBn_CTL.ON is written (09 R420). -/
def execFbOnWrite (who : Agent) (n : Fin 32) (on : Bool) (st : State) : Host.Outcome State Fault Refusal :=
  finish st (fun s => onCmd s who (Reg.fbCtl n.val) on)

/-- A SYNC entry starts at phase 0 (10 R446). -/
def execSyncEntryStart (k : Fin 8) (st : State) : Host.Outcome State Fault Refusal :=
  finish st (fun s => syncStart s k.val)

/-- An entry's last conversion ends (10 R442). -/
def execAdcEntryEnd (k : Fin 8) (codes : List AdcSample) (st : State) : Host.Outcome State Fault Refusal :=
  finish st (fun s => entryEnd s k.val codes)

/-- An entry's result is written (10 R444). -/
def execAdcEntryResult (k : Fin 8) (st : State) : Host.Outcome State Fault Refusal :=
  finish st (fun s => entryWrite s k.val)

/-- A converter's reference leaves its tolerance (10 R440). -/
def execRefbad (k : Fin 8) (st : State) : Host.Outcome State Fault Refusal :=
  finish st (fun s => refBad s k.val)

/-- ADCk_CTL.ON is written (10 R448). -/
def execAdcOnWrite (who : Agent) (k : Fin 8) (on : Bool) (st : State) : Host.Outcome State Fault Refusal :=
  finish st (fun s => onCmd s who (Reg.adcCtl k.val) on)

/-- ADCk_CMD.GO is written (10 R448). -/
def execAdcGo (who : Agent) (k : Fin 8) (st : State) : Host.Outcome State Fault Refusal :=
  finish st (fun s => regCmd s who (Reg.adcCmd k.val) 1)

/-- A PWM period begins (10 R455). -/
def execPwmPeriodStart (n : Fin 32) (j : Nat) (st : State) : Host.Outcome State Fault Refusal :=
  finish st (fun s => pwmPeriod s n.val j)

/-- PWMn_CTL.ON is written (10 R458). -/
def execPwmOnWrite (who : Agent) (n : Fin 32) (on : Bool) (st : State) : Host.Outcome State Fault Refusal :=
  finish st (fun s => onCmd s who (pwmCtl n.val) on)

end Sys2Proof.Machine
end

