-- ==== Sys2Proof/Machine/LoopCmds.lean ====
section
/-!
DEFINITION. The meanings of the commands of tiles, slots and tuning (03 to 05): one for each row of the table.
-/

namespace Sys2Proof.Machine

/-- Freeze and commit point at phase 2,000 (01 R47, 03 R136). DESIGN CHOICE (notes/assumptions/8.md). -/
def execTileCommitPoint (st : State) : Host.Outcome State Fault Refusal :=
  finish st (fun s => if before s 2000 then tileCommitPoint s else s)

/-- The next due slot of a tile is evaluated (03 R141, 04 R187). DESIGN CHOICE (notes/assumptions/8.md). -/
def execSlotEvaluation (t : Fin 16) (st : State) : Host.Outcome State Fault Refusal :=
  finish st (fun s => if before s 8999 then evalNext s t.val else s)

/-- The commit at phase 9,000 (01 R51, 03 R142). -/
def execResultCommit (st : State) : Host.Outcome State Fault Refusal :=
  finish st (fun s => resultCommit s)

/-- A write of a record word with SH bits (03 R137). -/
def execSlotShWrite (who : Agent) (t : Fin 16) (slot : BitVec 8) (w : Fin 32) (v : Word) (st : State) : Host.Outcome State Fault Refusal :=
  finish st (fun s => if wordSh w.val = 0 then s else regCmd s who (slotAddr t.val slot.toNat w.val) v)

/-- A write of a record word with LV bits (03 R138). -/
def execSlotLvWrite (who : Agent) (t : Fin 16) (slot : BitVec 8) (w : Fin 32) (v : Word) (st : State) : Host.Outcome State Fault Refusal :=
  finish st (fun s => if wordLv w.val = 0 then s else regCmd s who (slotAddr t.val slot.toNat w.val) v)

/-- A write of a record word with CS bits (03 R139). -/
def execSlotCsWrite (who : Agent) (t : Fin 16) (slot : BitVec 8) (w : Fin 32) (v : Word) (st : State) : Host.Outcome State Fault Refusal :=
  finish st (fun s => if wordCs w.val = 0 then s else regCmd s who (slotAddr t.val slot.toNat w.val) v)

/-- A CTL word with EN = 1 is written (03 R146). -/
def execSlotEnable (who : Agent) (t : Fin 16) (slot : BitVec 8) (v : Word) (st : State) : Host.Outcome State Fault Refusal :=
  finish st (fun s => if bit v 0 then regCmd s who (slotAddr t.val slot.toNat 0) v else s)

/-- A CTL word with EN = 0 is written (03 R147). -/
def execSlotDisable (who : Agent) (t : Fin 16) (slot : BitVec 8) (v : Word) (st : State) : Host.Outcome State Fault Refusal :=
  finish st (fun s => if bit v 0 then s else regCmd s who (slotAddr t.val slot.toNat 0) v)

/-- LTt_FLAGCLR is written (04 R201). -/
def execFlagclr (who : Agent) (t : Fin 16) (v : Word) (st : State) : Host.Outcome State Fault Refusal :=
  finish st (fun s => regCmd s who (Reg.ltFlagclr t.val) v)

/-- START is written (05 R223, R224). -/
def execInjStart (who : Agent) (t : Fin 16) (st : State) : Host.Outcome State Fault Refusal :=
  finish st (fun s => regCmd s who (Reg.ltInjcmd t.val) 1)

/-- STOP is written (05 R223). -/
def execInjStop (who : Agent) (t : Fin 16) (st : State) : Host.Outcome State Fault Refusal :=
  finish st (fun s => regCmd s who (Reg.ltInjcmd t.val) 2)

/-- ARM is written (05 R231). -/
def execCapArm (who : Agent) (t : Fin 16) (st : State) : Host.Outcome State Fault Refusal :=
  finish st (fun s => regCmd s who (Reg.ltCapcmd t.val) 1)

/-- STOP is written to the capture (05 R233). -/
def execCapStop (who : Agent) (t : Fin 16) (st : State) : Host.Outcome State Fault Refusal :=
  finish st (fun s => regCmd s who (Reg.ltCapcmd t.val) 2)

end Sys2Proof.Machine
end

