-- ==== Sys2Proof/Machine/MemoryCmds.lean ====
section
/-!
DEFINITION. The meanings of the commands of memories (13): one for each row of the table.
-/

namespace Sys2Proof.Machine

/-- An SRAM scrubber reads its next word (13 R594). -/
def execSramScrubRead (a : Fin 62) (flips : List Nat) (st : State) : Host.Outcome State Fault Refusal :=
  finish st (fun s => sramScrub s a.val flips)

/-- A corrected word is written back (13 R596). -/
def execScrubWriteback (word : Nat) (st : State) : Host.Outcome State Fault Refusal :=
  finish st (fun s => scrubWriteback s word)

/-- The DRAM scrubber reads its next block (13 R611). -/
def execDramScrubRead (flips : List Nat) (st : State) : Host.Outcome State Fault Refusal :=
  finish st (fun s => dramScrub s flips)

/-- The DRAM die temperatures are read (13 R610). -/
def execDramTempRead (ts : List Int) (st : State) : Host.Outcome State Fault Refusal :=
  finish st (fun s => dramTemp s ts)

/-- MEM_FILLCMD is written (13 R605). -/
def execFillGo (who : Agent) (v : Word) (st : State) : Host.Outcome State Fault Refusal :=
  finish st (fun s => regCmd s who Reg.memFillcmd v)

/-- A fill ends (13 R606). -/
def execFillDone (st : State) : Host.Outcome State Fault Refusal :=
  finish st (fun s => fillEnd s)

/-- MEM_SINIT is written (13 R604). -/
def execMemSinitWrite (who : Agent) (v : Word) (st : State) : Host.Outcome State Fault Refusal :=
  finish st (fun s => regCmd s who Reg.memSinit v)

end Sys2Proof.Machine
end

