-- ==== Sys2Proof/Machine/OdometerCmds.lean ====
section
/-!
DEFINITION. The meanings of the commands of the odometer (14): one for each row of the table.
-/

namespace Sys2Proof.Machine

/-- HFRAC advances (14 R625). -/
def execHfracAdvance (st : State) : Host.Outcome State Fault Refusal :=
  finish st (fun s => hfracAdvance s)

/-- The histograms take their readings (14 R627). -/
def execHistogramSample (st : State) : Host.Outcome State Fault Refusal :=
  finish st (fun s => histSample s)

/-- The extremes are checked (14 R630). -/
def execExtremeCheck (tjc : Int) (vcore vaon : Nat) (st : State) : Host.Outcome State Fault Refusal :=
  finish st (fun s => extremeCheck s tjc vcore vaon)

/-- A snapshot is captured (14 R631). -/
def execSnapshotCapture (st : State) : Host.Outcome State Fault Refusal :=
  finish st (fun s => snapCapture s)

/-- A snapshot write ends (14 R635). -/
def execSnapshotWriteDone (good : Bool) (st : State) : Host.Outcome State Fault Refusal :=
  finish st (fun s => snapWriteDone s good)

/-- ODO_CMD.SNAP is written (14 R632). -/
def execOdoSnap (who : Agent) (st : State) : Host.Outcome State Fault Refusal :=
  finish st (fun s => regCmd s who Reg.odoCmd 1)

/-- ODO_CLR is written (14 R643). -/
def execOdoClr (who : Agent) (v : Word) (st : State) : Host.Outcome State Fault Refusal :=
  finish st (fun s => regCmd s who Reg.odoClr v)

/-- A clear is applied (14 R644). -/
def execClearApply (st : State) : Host.Outcome State Fault Refusal :=
  finish st (fun s => clearApply s)

end Sys2Proof.Machine
end

