-- ==== Sys2Proof/Machine/PortCmds.lean ====
section
/-!
DEFINITION. The meanings of the commands of ports, DMA, claims, alarms and fuses (16): one for each row of the table.
-/

namespace Sys2Proof.Machine

/-- A device frame arrives (16 R724, R725). -/
def execDeviceFrame (port : HostPort) (head : DevHead) (op cfl : Byte) (cseq : Word) (st : State) : Host.Outcome State Fault Refusal :=
  finish st (fun s => deviceFrame { s with hst := { s.hst with sent := [] } } port ⟨head, op, cfl, cseq⟩)

/-- An HSR frame is received (16 R720). -/
def execHsrFrame (portB : Bool) (mac : BitVec 48) (seq : BitVec 16) (tagOk alone hbeat : Bool) (p : Passing)
    (st : State) : Host.Outcome State Fault Refusal :=
  finish st (fun s => hsrFrame s portB mac.toNat seq.toNat tagOk alone hbeat p.bytes p.stay)

/-- HSR supervision frames are sent (16 R720). -/
def execHsrSupervision (st : State) : Host.Outcome State Fault Refusal :=
  finish st (fun s => hsrSupervise s)

/-- A tool-LAN port loses its link (16 R723). -/
def execToolLanLinkLoss (portB : Bool) (st : State) : Host.Outcome State Fault Refusal :=
  finish st (fun s => lanLoss s portB)

/-- A PTP Sync (16 R727, R728). -/
def execPtpSync (portB : Bool) (times : PtpTimes) (interval master : Nat) (st : State) : Host.Outcome State Fault Refusal :=
  finish st (fun s => ptpSync s portB ⟨times, interval, master⟩)

/-- Three Sync intervals without a Sync (16 R728). -/
def execPtpSyncTimeout (st : State) : Host.Outcome State Fault Refusal :=
  finish st (fun s => ptpTimeout s)

/-- H3 attaches or detaches (16 R729). -/
def execUsbAttach (attach configured highSpeed : Bool) (st : State) : Host.Outcome State Fault Refusal :=
  finish st (fun s => usbAttach s attach configured highSpeed)

/-- HPC_DQqTAIL is written (16 R715). -/
def execDqTail (who : Agent) (q : Fin 8) (v : Word) (st : State) : Host.Outcome State Fault Refusal :=
  finish st (fun s => regCmd s who (Reg.hpcDqtail q.val) v)

/-- A descriptor ends (16 R716). -/
def execDescriptorEnd (q : Fin 8) (code : Fin 7) (data : List Byte) (st : State) : Host.Outcome State Fault Refusal :=
  finish st (fun s => descriptorEnd s q.val code.val data)

/-- A completion has not come (16 R716). -/
def execCompletionTimeout (q : Fin 8) (st : State) : Host.Outcome State Fault Refusal :=
  finish st (fun s => completionTimeout s q.val)

/-- HPC_DQqCTL.EN is written with 1 (16 R716). -/
def execDqEnable (who : Agent) (q : Fin 8) (st : State) : Host.Outcome State Fault Refusal :=
  finish st (fun s => onCmd s who (Reg.hpcDqctl q.val) true)

/-- CLM_HB is written (16 R744). -/
def execClmHb (who : Agent) (st : State) : Host.Outcome State Fault Refusal :=
  finish st (fun s => regCmd s who Reg.clmHb 0)

/-- A heartbeat path goes down (16 R745). -/
def execPathTimeout (k : Fin 16) (p : Fin 2) (st : State) : Host.Outcome State Fault Refusal :=
  finish st (fun s => pathTimeout s k.val (p.val + 1))

/-- HOLD has run (16 R745). -/
def execHoldExpiry (k : Fin 16) (st : State) : Host.Outcome State Fault Refusal :=
  finish st (fun s => holdExpiry s k.val)

/-- HPC_ALMRAISE is written (16 R751). -/
def execAlmraise (who : Agent) (v : Word) (st : State) : Host.Outcome State Fault Refusal :=
  finish st (fun s => regCmd s who Reg.hpcAlmraise v)

/-- SEC_ARBCMD is written (16 R758). -/
def execArbCommit (who : Agent) (v : Word) (st : State) : Host.Outcome State Fault Refusal :=
  finish st (fun s => regCmd s who Reg.secArbcmd v)

/-- SEC_FUSECMD is written (16 R731). -/
def execFuseJtagclose (who : Agent) (v : Word) (st : State) : Host.Outcome State Fault Refusal :=
  finish st (fun s => regCmd s who Reg.secFusecmd v)

end Sys2Proof.Machine
end

