-- ==== Sys2Proof/Machine/PowerCmds.lean ====
section
/-!
DEFINITION. The meanings of the commands of power, warm restart and ledgers (17, 19): one for each row of the table.
-/

namespace Sys2Proof.Machine

/-- VSUP_SENSE is sampled (17 R787). -/
def execVsupSample (k : Fin 10) (mv : BitVec 16) (st : State) : Host.Outcome State Fault Refusal :=
  finish st (fun s => vsupSample s k.val mv.toNat)

/-- A stage is left (17 R789). -/
def execStageLeave (st : State) : Host.Outcome State Fault Refusal :=
  finish st (fun s => stageLeave s)

/-- The journal seal ends (17 R793). -/
def execJournalSealDone (good : Bool) (st : State) : Host.Outcome State Fault Refusal :=
  finish st (fun s => sealDone s good)

/-- WARM_L has been low (17 R775). -/
def execWarmL (st : State) : Host.Outcome State Fault Refusal :=
  finish st (fun s => warmPin s)

/-- SYS_RSTREQ is written (17 R775). -/
def execSysRstreq (who : Agent) (v : Word) (st : State) : Host.Outcome State Fault Refusal :=
  finish st (fun s => regCmd s who Reg.sysRstreq v)

/-- T0 of a warm restart (17 R778). -/
def execWarmRestartStart (st : State) : Host.Outcome State Fault Refusal :=
  finish st (fun s => warmStart s)

/-- CORE is reset (17 R778). -/
def execCoreReset (onLink : List Nat) (st : State) : Host.Outcome State Fault Refusal :=
  finish st (fun s => coreReset s onLink)

/-- The reload ends (17 R778). -/
def execRestartReloadDone (mirrorBad journalBad : List Nat) (bad : Option Nat) (st : State) : Host.Outcome State Fault Refusal :=
  finish st (fun s => reloadDone s mirrorBad journalBad bad)

/-- The engines resume (03 R164, 17 R778); waiting WARM commands are answered (16 R736). -/
def execEngineResume (st : State) : Host.Outcome State Fault Refusal :=
  finish st (fun s =>
    let s1 := engineResume s
    if s.rst.inCore && !s1.rst.inCore then warmDone (syncSeatPend s1) else s1)

/-- Fault RSTLATE (17 R779). -/
def execRstlate (st : State) : Host.Outcome State Fault Refusal :=
  finish st (fun s => rstLate s)

/-- SYS_FACK is written (17 R799). -/
def execSysFack (who : Agent) (v : Word) (st : State) : Host.Outcome State Fault Refusal :=
  finish st (fun s => regCmd s who Reg.sysFack v)

/-- A start slot (17 R784). -/
def execGovernorSlot (k : Fin 10) (st : State) : Host.Outcome State Fault Refusal :=
  finish st (fun s => governorSlot s k.val)

/-- An island reports power good (17 R784). -/
def execIslandPowerGood (j : Fin 32) (st : State) : Host.Outcome State Fault Refusal :=
  finish st (fun s => islandPowerGood s j.val)

/-- The ledger check (19 R852). -/
def execLedgerCheck (ue : List Nat) (st : State) : Host.Outcome State Fault Refusal :=
  finish st (fun s => ledgerCheck s ue)

/-- LDG_CMD is written (19 R860). -/
def execLdgSnap (who : Agent) (v : Word) (st : State) : Host.Outcome State Fault Refusal :=
  finish st (fun s => regCmd s who Reg.ldgCmd v)

end Sys2Proof.Machine
end

