-- ==== Sys2Proof/Machine/RecorderCmds.lean ====
section
/-!
DEFINITION. The meanings of the commands of recording sets and triggers (11): one for each row of the table.
-/

namespace Sys2Proof.Machine

/-- A reduction window ends (11 R487). -/
def execReductionWindowEnd (j : Fin 64) (st : State) : Host.Outcome State Fault Refusal :=
  finish st (fun s => windowEnd s j.val)

/-- REC_SETCFGs.EN is written (11 R520). -/
def execSetEnable (who : Agent) (j : Fin 64) (on : Bool) (st : State) : Host.Outcome State Fault Refusal :=
  finish st (fun s => onCmd s who (Reg.recSetcfg j.val) on)

/-- ARM of a recording set (11 R497). -/
def execSetArm (who : Agent) (j : Fin 64) (st : State) : Host.Outcome State Fault Refusal :=
  finish st (fun s => regCmd s who (Reg.recSetcmd j.val) 1)

/-- RELEASE of a recording set (11 R500). -/
def execSetRelease (who : Agent) (j : Fin 64) (st : State) : Host.Outcome State Fault Refusal :=
  finish st (fun s => regCmd s who (Reg.recSetcmd j.val) 2)

/-- STOP of a recording set (11 R500). -/
def execSetStop (who : Agent) (j : Fin 64) (st : State) : Host.Outcome State Fault Refusal :=
  finish st (fun s => regCmd s who (Reg.recSetcmd j.val) 4)

/-- A software trigger of one set (11 R509). -/
def execSetTrig (who : Agent) (j : Fin 64) (st : State) : Host.Outcome State Fault Refusal :=
  finish st (fun s => regCmd s who (Reg.recSetcmd j.val) 8)

/-- ARM of a trigger unit (11 R528). -/
def execTrgArm (who : Agent) (u : Fin 32) (st : State) : Host.Outcome State Fault Refusal :=
  finish st (fun s => regCmd s who (Reg.recTrgcmd u.val) 1)

/-- DISARM of a trigger unit (11 R528). -/
def execTrgDisarm (who : Agent) (u : Fin 32) (st : State) : Host.Outcome State Fault Refusal :=
  finish st (fun s => regCmd s who (Reg.recTrgcmd u.val) 2)

/-- FIRE of a trigger unit (11 R507). -/
def execTrgFire (who : Agent) (u : Fin 32) (st : State) : Host.Outcome State Fault Refusal :=
  finish st (fun s => regCmd s who (Reg.recTrgcmd u.val) 4)

/-- A REPEAT unit re-arms (11 R508). -/
def execTriggerRearm (u : Fin 32) (st : State) : Host.Outcome State Fault Refusal :=
  finish st (fun s => rearmUnit s u.val)

end Sys2Proof.Machine
end

