-- ==== Sys2Proof/Machine/SafetyCmds.lean ====
section
/-!
DEFINITION. The meanings of the commands of the safety island (15): one for each row of the table.
-/

namespace Sys2Proof.Machine

/-- The island leaves RESET (15 R662). -/
def execIslandRelease (st : State) : Host.Outcome State Fault Refusal :=
  finish st (fun s => islRelease s)

/-- The island's sample at phase 0 (15 R665, R670, R675); the claim logic follows MAINTSEL (16 R747). -/
def execIslandSample (si rb cfg : Word) (ces : Nat) (st : State) : Host.Outcome State Fault Refusal :=
  finish st (fun s => maintFollow s (islSample s (fld si 23 0) (fld rb 15 0) (fld cfg 15 0) ces))

/-- A test pulse starts (15 R671). -/
def execTpPulseStart (k : Fin 4) (st : State) : Host.Outcome State Fault Refusal :=
  finish st (fun s => tpStart s k.val)

/-- A test pulse is checked (15 R672). -/
def execTpPulseCheck (k : Fin 4) (si : Word) (st : State) : Host.Outcome State Fault Refusal :=
  finish st (fun s => tpCheck s k.val si.toNat)

/-- A test pulse ends (15 R671). -/
def execTpPulseEnd (k : Fin 4) (st : State) : Host.Outcome State Fault Refusal :=
  finish st (fun s => tpEnd s k.val)

/-- An off pulse starts (15 R676). -/
def execSoOffPulseStart (n : Fin 16) (st : State) : Host.Outcome State Fault Refusal :=
  finish st (fun s => offStart s n.val)

/-- An off pulse is checked (15 R676). -/
def execSoOffPulseCheck (n : Fin 16) (rb : Bool) (st : State) : Host.Outcome State Fault Refusal :=
  finish st (fun s => offCheck s n.val rb)

/-- An off pulse ends (15 R677). -/
def execSoOffPulseEnd (n : Fin 16) (st : State) : Host.Outcome State Fault Refusal :=
  finish st (fun s => offEnd s n.val)

/-- The rules are evaluated (15 R686). -/
def execRuleEvaluation (mis : Option Nat) (st : State) : Host.Outcome State Fault Refusal :=
  finish st (fun s => evalRules s mis)

/-- The island's outputs change (15 R687). -/
def execIslandOutputUpdate (st : State) : Host.Outcome State Fault Refusal :=
  finish st (fun s => islOutputs s)

/-- A rule's delay runs out (15 R686). -/
def execRuleDelayExpiry (r : Fin 32) (st : State) : Host.Outcome State Fault Refusal :=
  finish st (fun s => delayExpiry s r.val)

/-- A pair has differed too long (15 R673). -/
def execDiscrepancyExpiry (p : Fin 12) (st : State) : Host.Outcome State Fault Refusal :=
  finish st (fun s => discExpiry s p.val)

/-- A safe node becomes not fresh (15 R682). -/
def execNodeFreshTimeout (k : Fin 16) (st : State) : Host.Outcome State Fault Refusal :=
  finish st (fun s => freshTimeout s k.val)

/-- Fault LOCKSTEP (15 R657). -/
def execLockstep (st : State) : Host.Outcome State Fault Refusal :=
  finish st (fun s => islFault s 1 0)

/-- Fault CLOCK (15 R658). -/
def execClockFault (st : State) : Host.Outcome State Fault Refusal :=
  finish st (fun s => islFault s 3 0)

/-- Fault VSAFE (15 R659). -/
def execVsafe (mv : Nat) (st : State) : Host.Outcome State Fault Refusal :=
  finish st (fun s => maintFollow s (vsafe s mv))

/-- The degraded timer runs out (15 R691). -/
def execDegtime (st : State) : Host.Outcome State Fault Refusal :=
  finish st (fun s => degTime s)

/-- SAF_ACK is written (15 R688). -/
def execSafAck (who : Agent) (v : Word) (st : State) : Host.Outcome State Fault Refusal :=
  finish st (fun s => regCmd s who Reg.safAck v)

end Sys2Proof.Machine
end

