-- ==== Sys2Proof/Machine/StoreCmds.lean ====
section
/-!
DEFINITION. The meanings of the commands of the signal store (02): one for each row of the table.
-/

namespace Sys2Proof.Machine

/-- A store to the signal store enters its agent's queue (02 R88, R89). -/
def execP3QueueWrite (who : Agent) (mac : BitVec 48) (sid : Sid) (form : P3Form) (st : State) : Host.Outcome State Fault Refusal :=
  finish st (fun s => p3Write s who mac.toNat sid.toNat form)

/-- The arbiter takes one waiting write (02 R88). -/
def execP3ArbiterTake (st : State) : Host.Outcome State Fault Refusal :=
  finish st p3Arbiter

/-- A write into the journal part of BAR2 (02 R93). -/
def execBar2JournalWrite (st : State) : Host.Outcome State Fault Refusal :=
  finish st (fun s => journalWrite s)

/-- SIG_CLR is written (02 R124). -/
def execSigClrPeakclr (who : Agent) (v : Word) (st : State) : Host.Outcome State Fault Refusal :=
  finish st (fun s => regCmd s who Reg.sigClr v)

end Sys2Proof.Machine
end

