-- ==== Sys2Proof/Machine/TimeCmds.lean ====
section
/-!
DEFINITION. The meanings of the commands of the tick, SYNC_OUT and captured reads (01, 02, 14): one for each row of the table.
-/

namespace Sys2Proof.Machine

/-- A tick boundary (01 R26, R46). -/
def execTickBoundary (fabSec : BitVec 48) (fabNs : Word) (busy : List Nat) (st : State) : Host.Outcome State Fault Refusal :=
  finish st (fun s => tickBoundary s fabSec.toNat fabNs.toNat busy)

/-- SYNC_OUT falls (01 R36). -/
def execSyncOutPulseEnd (st : State) : Host.Outcome State Fault Refusal :=
  finish st (fun s => syncFall s)

/-- A read of SYS_TICKLO (01 R58). -/
def execReadSysTicklo (who : Agent) (st : State) : Host.Outcome State Fault Refusal :=
  finish st (fun s => localRead s who Reg.sysTicklo .word [] .miss)

/-- A read of SYS_FABTLO (01 R58). -/
def execReadSysFabtlo (who : Agent) (st : State) : Host.Outcome State Fault Refusal :=
  finish st (fun s => localRead s who Reg.sysFabtlo .word [] .miss)

/-- A read of a local address (00 R18, R22, R24), of the low word of a 64-bit counter among them (14 R638, R654, 19 R862). -/
def execReadLowWordCapture (who : Agent) (addr : LocalAddr) (width : Width) (flips : List Nat) (cache : CacheUse) (st : State) :
    Host.Outcome State Fault Refusal :=
  finish st (fun s => localRead s who addr.toNat width flips cache)

/-- A read of VALUE, of the word at +4, or of both (02 R74, R96, R111; 01 R51); the class met is counted (13 R592). -/
def execStoreValueRead (who : Agent) (sid : Sid) (form : ReadForm) (flips : List Nat) (st : State) : Host.Outcome State Fault Refusal :=
  finish st (fun s =>
    if !reachesStore s who then s
    else readEntry (upset (commitDue s) (entryAt sid.toNat) (flips.take 8)) (agentSrc who) sid.toNat form)

end Sys2Proof.Machine
end

