-- ==== Sys2Proof/Machine/UnitCmds.lean ====
section
/-!
DEFINITION. The meanings of the commands of register writes and the rows that end the table: one for each row of the table.
-/

namespace Sys2Proof.Machine

/-- A write to a local address (00 R15, R18). -/
def execRegisterWrite (who : Agent) (addr : LocalAddr) (width : Width) (v hi : Word) (flips : List Nat) (more : Bool) (st : State) :
    Host.Outcome State Fault Refusal :=
  finish st (fun s => localWrite s who addr.toNat width v hi flips more)

/-- A converter's reference is back (10 R440). -/
def execRefbadClear (k : Fin 8) (st : State) : Host.Outcome State Fault Refusal :=
  finish st (fun s => refClear s k.val)

/-- THERM is armed again (17 R768). -/
def execThermRearm (st : State) : Host.Outcome State Fault Refusal :=
  finish st (fun s => thermRearm s)

/-- A receive port regains block lock (07 R337). -/
def execRxBlockLockRegained (ring : Fin 2) (st : State) : Host.Outcome State Fault Refusal :=
  finish st (fun s => lockRegained s ring.val)

/-- A tool-LAN port gains synchronisation (16 R762). -/
def execTlnLinkUp (portB : Bool) (st : State) : Host.Outcome State Fault Refusal :=
  finish st (fun s => lanLinkUp s portB)

/-- The H0 link is up (16 R709). -/
def execH0LinkUp (gen : Fin 8) (link : H0Trained) (st : State) : Host.Outcome State Fault Refusal :=
  finish st (fun s => h0LinkUp s gen.val link.width.val link.cfg)

/-- A USB host comes or goes (17 R783). -/
def execUsbVbusChange (on : Bool) (st : State) : Host.Outcome State Fault Refusal :=
  finish st (fun s => usbVbus s on)

/-- An instruction is shifted into the TAP (16 R731). -/
def execTapInstruction (code : TapCode) (st : State) : Host.Outcome State Fault Refusal :=
  finish st (fun s => tapLoad s code)

/-- Fault MEMUE (15 R660). -/
def execMemue (st : State) : Host.Outcome State Fault Refusal :=
  finish st (fun s => islFault s 5 0)

/-- The island's self-test ends (15 R663). -/
def execSelfTestDone (pass : Bool) (st : State) : Host.Outcome State Fault Refusal :=
  finish st (fun s => selfTestDone s pass)

/-- VDD_SAFE crosses the warning level (15 R659). -/
def execVwarnChange (mv : Nat) (st : State) : Host.Outcome State Fault Refusal :=
  finish st (fun s => vwarn s mv)

/-- A CAN channel joins the bus (08 R381). -/
def execCanBusIntegration (n : Fin 8) (st : State) : Host.Outcome State Fault Refusal :=
  finish st (fun s => canJoin s n.val)

/-- A pending buffer begins its start of frame (08 R366). -/
def execCanStartOfFrame (n : Fin 8) (ph : Phase) (won : Bool) (st : State) : Host.Outcome State Fault Refusal :=
  finish st (fun s => canStartFrame s n.val ph.val won)

end Sys2Proof.Machine
end

