-- ==== Sys2Proof/Machine/Dispatch.lean ====
section
/-!
DEFINITION. One arm for each constructor of Instr: a direct call of its meaning.
-/

namespace Sys2Proof.Machine

/-- The effect of a command on everything but the queue. -/
def exec (i : Instr) (s : State) : Host.Outcome State Fault Refusal :=
  match i with
  | .porstLRising banks => Sys2Proof.Machine.execPorstLRising banks s
  | .porstLLow => Sys2Proof.Machine.execPorstLLow s
  | .refclkFault => Sys2Proof.Machine.execRefclkFault s
  | .vddAonLow => Sys2Proof.Machine.execVddAonLow s
  | .vddAonRecovered => Sys2Proof.Machine.execVddAonRecovered s
  | .vmon rail => Sys2Proof.Machine.execVmon rail s
  | .therm => Sys2Proof.Machine.execTherm s
  | .thermsd => Sys2Proof.Machine.execThermsd s
  | .coldResetHoldEnd tj => Sys2Proof.Machine.execColdResetHoldEnd tj s
  | .pllLocked => Sys2Proof.Machine.execPllLocked s
  | .pllLockLost => Sys2Proof.Machine.execPllLockLost s
  | .zeroFillDone => Sys2Proof.Machine.execZeroFillDone s
  | .dramTrainingDone => Sys2Proof.Machine.execDramTrainingDone s
  | .mramReadable => Sys2Proof.Machine.execMramReadable s
  | .manifestCheck => Sys2Proof.Machine.execManifestCheck s
  | .imageLoadDone => Sys2Proof.Machine.execImageLoadDone s
  | .consistVerified => Sys2Proof.Machine.execConsistVerified s
  | .consistLoad => Sys2Proof.Machine.execConsistLoad s
  | .bootDone => Sys2Proof.Machine.execBootDone s
  | .tickBoundary fabSec fabNs busy => Sys2Proof.Machine.execTickBoundary fabSec fabNs busy s
  | .syncOutPulseEnd => Sys2Proof.Machine.execSyncOutPulseEnd s
  | .readSysTicklo who => Sys2Proof.Machine.execReadSysTicklo who s
  | .readSysFabtlo who => Sys2Proof.Machine.execReadSysFabtlo who s
  | .readLowWordCapture who addr width flips cache => Sys2Proof.Machine.execReadLowWordCapture who addr width flips cache s
  | .storeValueRead who sid form flips => Sys2Proof.Machine.execStoreValueRead who sid form flips s
  | .p3QueueWrite who mac sid form => Sys2Proof.Machine.execP3QueueWrite who mac sid form s
  | .p3ArbiterTake => Sys2Proof.Machine.execP3ArbiterTake s
  | .bar2JournalWrite => Sys2Proof.Machine.execBar2JournalWrite s
  | .sigClrPeakclr who v => Sys2Proof.Machine.execSigClrPeakclr who v s
  | .tileCommitPoint => Sys2Proof.Machine.execTileCommitPoint s
  | .slotEvaluation t => Sys2Proof.Machine.execSlotEvaluation t s
  | .resultCommit => Sys2Proof.Machine.execResultCommit s
  | .slotShWrite who t slot w v => Sys2Proof.Machine.execSlotShWrite who t slot w v s
  | .slotLvWrite who t slot w v => Sys2Proof.Machine.execSlotLvWrite who t slot w v s
  | .slotCsWrite who t slot w v => Sys2Proof.Machine.execSlotCsWrite who t slot w v s
  | .slotEnable who t slot v => Sys2Proof.Machine.execSlotEnable who t slot v s
  | .slotDisable who t slot v => Sys2Proof.Machine.execSlotDisable who t slot v s
  | .flagclr who t v => Sys2Proof.Machine.execFlagclr who t v s
  | .injStart who t => Sys2Proof.Machine.execInjStart who t s
  | .injStop who t => Sys2Proof.Machine.execInjStop who t s
  | .capArm who t => Sys2Proof.Machine.execCapArm who t s
  | .capStop who t => Sys2Proof.Machine.execCapStop who t s
  | .compartmentReturn ofPrev copy comp bytes => Sys2Proof.Machine.execCompartmentReturn ofPrev copy comp bytes s
  | .coachHeaderReturn ownPort bytes time => Sys2Proof.Machine.execCoachHeaderReturn ownPort bytes time s
  | .landing => Sys2Proof.Machine.execLanding s
  | .coachCut => Sys2Proof.Machine.execCoachCut s
  | .mailWindow => Sys2Proof.Machine.execMailWindow s
  | .mailRetransmit => Sys2Proof.Machine.execMailRetransmit s
  | .uplinkFrame d a b own => Sys2Proof.Machine.execUplinkFrame d a b own s
  | .mtxtailWrite who v => Sys2Proof.Machine.execMtxtailWrite who v s
  | .surveyRoundStart => Sys2Proof.Machine.execSurveyRoundStart s
  | .enumReturn a b own => Sys2Proof.Machine.execEnumReturn a b own s
  | .delayReturn a b own depA depB rtA rtB => Sys2Proof.Machine.execDelayReturn a b own depA depB rtA rtB s
  | .rxBlockLockLoss ring => Sys2Proof.Machine.execRxBlockLockLoss ring s
  | .breakHeal => Sys2Proof.Machine.execBreakHeal s
  | .nctlReadmit who d => Sys2Proof.Machine.execNctlReadmit who d s
  | .nctlExclude who d on => Sys2Proof.Machine.execNctlExclude who d on s
  | .canFrameValid n ph frame => Sys2Proof.Machine.execCanFrameValid n ph frame s
  | .canTxreq who n hi mask => Sys2Proof.Machine.execCanTxreq who n hi mask s
  | .canTxabort who n hi mask => Sys2Proof.Machine.execCanTxabort who n hi mask s
  | .canRelease n j => Sys2Proof.Machine.execCanRelease n j s
  | .canWindowExpiry n b ph => Sys2Proof.Machine.execCanWindowExpiry n b ph s
  | .canFrameEnd n ph tdcv => Sys2Proof.Machine.execCanFrameEnd n ph tdcv s
  | .canBusError n ph code kind tdcv => Sys2Proof.Machine.execCanBusError n ph code kind tdcv s
  | .busoffRecovery n => Sys2Proof.Machine.execBusoffRecovery n s
  | .canRecover who n => Sys2Proof.Machine.execCanRecover who n s
  | .canOnWrite who n on => Sys2Proof.Machine.execCanOnWrite who n on s
  | .fbEdgeAccepted n ph a b z => Sys2Proof.Machine.execFbEdgeAccepted n ph a b z s
  | .fbSample n => Sys2Proof.Machine.execFbSample n s
  | .serialWordDecode n word => Sys2Proof.Machine.execSerialWordDecode n word s
  | .comparePulseEnd pin ph => Sys2Proof.Machine.execComparePulseEnd pin ph s
  | .cmpvalWrite who n u v => Sys2Proof.Machine.execCmpvalWrite who n u v s
  | .fbOnWrite who n on => Sys2Proof.Machine.execFbOnWrite who n on s
  | .syncEntryStart k => Sys2Proof.Machine.execSyncEntryStart k s
  | .adcEntryEnd k codes => Sys2Proof.Machine.execAdcEntryEnd k codes s
  | .adcEntryResult k => Sys2Proof.Machine.execAdcEntryResult k s
  | .refbad k => Sys2Proof.Machine.execRefbad k s
  | .adcOnWrite who k on => Sys2Proof.Machine.execAdcOnWrite who k on s
  | .adcGo who k => Sys2Proof.Machine.execAdcGo who k s
  | .pwmPeriodStart n j => Sys2Proof.Machine.execPwmPeriodStart n j s
  | .pwmOnWrite who n on => Sys2Proof.Machine.execPwmOnWrite who n on s
  | .reductionWindowEnd j => Sys2Proof.Machine.execReductionWindowEnd j s
  | .setEnable who j on => Sys2Proof.Machine.execSetEnable who j on s
  | .setArm who j => Sys2Proof.Machine.execSetArm who j s
  | .setRelease who j => Sys2Proof.Machine.execSetRelease who j s
  | .setStop who j => Sys2Proof.Machine.execSetStop who j s
  | .setTrig who j => Sys2Proof.Machine.execSetTrig who j s
  | .trgArm who u => Sys2Proof.Machine.execTrgArm who u s
  | .trgDisarm who u => Sys2Proof.Machine.execTrgDisarm who u s
  | .trgFire who u => Sys2Proof.Machine.execTrgFire who u s
  | .triggerRearm u => Sys2Proof.Machine.execTriggerRearm u s
  | .eventRaise e => Sys2Proof.Machine.execEventRaise e s
  | .pendingCart => Sys2Proof.Machine.execPendingCart s
  | .postctl p v more => Sys2Proof.Machine.execPostctl p v more s
  | .postStallRelease => Sys2Proof.Machine.execPostStallRelease s
  | .take p more => Sys2Proof.Machine.execTake p more s
  | .done p v more => Sys2Proof.Machine.execDone p v more s
  | .cancel p v more => Sys2Proof.Machine.execCancel p v more s
  | .evraise p v more => Sys2Proof.Machine.execEvraise p v more s
  | .stepctl p v more => Sys2Proof.Machine.execStepctl p v more s
  | .stepTimerFire => Sys2Proof.Machine.execStepTimerFire s
  | .stepWaitCart => Sys2Proof.Machine.execStepWaitCart s
  | .deferredDue => Sys2Proof.Machine.execDeferredDue s
  | .jcommit p v more => Sys2Proof.Machine.execJcommit p v more s
  | .jcommitComplete p => Sys2Proof.Machine.execJcommitComplete p s
  | .watchdogExpiry c => Sys2Proof.Machine.execWatchdogExpiry c s
  | .wdkick c => Sys2Proof.Machine.execWdkick c s
  | .coreStopTimeout c => Sys2Proof.Machine.execCoreStopTimeout c s
  | .sramScrubRead a flips => Sys2Proof.Machine.execSramScrubRead a flips s
  | .scrubWriteback word => Sys2Proof.Machine.execScrubWriteback word s
  | .dramScrubRead flips => Sys2Proof.Machine.execDramScrubRead flips s
  | .dramTempRead ts => Sys2Proof.Machine.execDramTempRead ts s
  | .fillGo who v => Sys2Proof.Machine.execFillGo who v s
  | .fillDone => Sys2Proof.Machine.execFillDone s
  | .memSinitWrite who v => Sys2Proof.Machine.execMemSinitWrite who v s
  | .hfracAdvance => Sys2Proof.Machine.execHfracAdvance s
  | .histogramSample => Sys2Proof.Machine.execHistogramSample s
  | .extremeCheck tjc vcore vaon => Sys2Proof.Machine.execExtremeCheck tjc vcore vaon s
  | .snapshotCapture => Sys2Proof.Machine.execSnapshotCapture s
  | .snapshotWriteDone good => Sys2Proof.Machine.execSnapshotWriteDone good s
  | .odoSnap who => Sys2Proof.Machine.execOdoSnap who s
  | .odoClr who v => Sys2Proof.Machine.execOdoClr who v s
  | .clearApply => Sys2Proof.Machine.execClearApply s
  | .islandRelease => Sys2Proof.Machine.execIslandRelease s
  | .islandSample si rb cfg ces => Sys2Proof.Machine.execIslandSample si rb cfg ces s
  | .tpPulseStart k => Sys2Proof.Machine.execTpPulseStart k s
  | .tpPulseCheck k si => Sys2Proof.Machine.execTpPulseCheck k si s
  | .tpPulseEnd k => Sys2Proof.Machine.execTpPulseEnd k s
  | .soOffPulseStart n => Sys2Proof.Machine.execSoOffPulseStart n s
  | .soOffPulseCheck n rb => Sys2Proof.Machine.execSoOffPulseCheck n rb s
  | .soOffPulseEnd n => Sys2Proof.Machine.execSoOffPulseEnd n s
  | .ruleEvaluation mis => Sys2Proof.Machine.execRuleEvaluation mis s
  | .islandOutputUpdate => Sys2Proof.Machine.execIslandOutputUpdate s
  | .ruleDelayExpiry r => Sys2Proof.Machine.execRuleDelayExpiry r s
  | .discrepancyExpiry p => Sys2Proof.Machine.execDiscrepancyExpiry p s
  | .nodeFreshTimeout k => Sys2Proof.Machine.execNodeFreshTimeout k s
  | .lockstep => Sys2Proof.Machine.execLockstep s
  | .clockFault => Sys2Proof.Machine.execClockFault s
  | .vsafe mv => Sys2Proof.Machine.execVsafe mv s
  | .degtime => Sys2Proof.Machine.execDegtime s
  | .safAck who v => Sys2Proof.Machine.execSafAck who v s
  | .pciePerst => Sys2Proof.Machine.execPciePerst s
  | .h0LinkLoss => Sys2Proof.Machine.execH0LinkLoss s
  | .bar4Write => Sys2Proof.Machine.execBar4Write s
  | .hpcCqtail who t => Sys2Proof.Machine.execHpcCqtail who t s
  | .ping h => Sys2Proof.Machine.execPing h s
  | .rdsig h => Sys2Proof.Machine.execRdsig h s
  | .wrsig h => Sys2Proof.Machine.execWrsig h s
  | .rdreg h => Sys2Proof.Machine.execRdreg h s
  | .wrreg h => Sys2Proof.Machine.execWrreg h s
  | .rdmem h flips => Sys2Proof.Machine.execRdmem h flips s
  | .claim h => Sys2Proof.Machine.execClaim h s
  | .hbeat h => Sys2Proof.Machine.execHbeat h s
  | .clmstat h => Sys2Proof.Machine.execClmstat h s
  | .event h => Sys2Proof.Machine.execEvent h s
  | .mail h => Sys2Proof.Machine.execMail h s
  | .mailResponse => Sys2Proof.Machine.execMailResponse s
  | .warm h => Sys2Proof.Machine.execWarm h s
  | .almread h => Sys2Proof.Machine.execAlmread h s
  | .almack h => Sys2Proof.Machine.execAlmack h s
  | .attest h => Sys2Proof.Machine.execAttest h s
  | .attestDone => Sys2Proof.Machine.execAttestDone s
  | .qread h => Sys2Proof.Machine.execQread h s
  | .cststage h => Sys2Proof.Machine.execCststage h s
  | .stageVerifyDone => Sys2Proof.Machine.execStageVerifyDone s
  | .cstswap h => Sys2Proof.Machine.execCstswap h s
  | .cstpatch h => Sys2Proof.Machine.execCstpatch h s
  | .patchApply => Sys2Proof.Machine.execPatchApply s
  | .flread h => Sys2Proof.Machine.execFlread h s
  | .flerase h => Sys2Proof.Machine.execFlerase h s
  | .flwrite h => Sys2Proof.Machine.execFlwrite h s
  | .deviceFrame port head op cfl cseq => Sys2Proof.Machine.execDeviceFrame port head op cfl cseq s
  | .hsrFrame portB mac seq tagOk alone hbeat p => Sys2Proof.Machine.execHsrFrame portB mac seq tagOk alone hbeat p s
  | .hsrSupervision => Sys2Proof.Machine.execHsrSupervision s
  | .toolLanLinkLoss portB => Sys2Proof.Machine.execToolLanLinkLoss portB s
  | .ptpSync portB times interval master => Sys2Proof.Machine.execPtpSync portB times interval master s
  | .ptpSyncTimeout => Sys2Proof.Machine.execPtpSyncTimeout s
  | .usbAttach attach configured highSpeed => Sys2Proof.Machine.execUsbAttach attach configured highSpeed s
  | .dqTail who q v => Sys2Proof.Machine.execDqTail who q v s
  | .descriptorEnd q code data => Sys2Proof.Machine.execDescriptorEnd q code data s
  | .completionTimeout q => Sys2Proof.Machine.execCompletionTimeout q s
  | .dqEnable who q => Sys2Proof.Machine.execDqEnable who q s
  | .clmHb who => Sys2Proof.Machine.execClmHb who s
  | .pathTimeout k p => Sys2Proof.Machine.execPathTimeout k p s
  | .holdExpiry k => Sys2Proof.Machine.execHoldExpiry k s
  | .almraise who v => Sys2Proof.Machine.execAlmraise who v s
  | .arbCommit who v => Sys2Proof.Machine.execArbCommit who v s
  | .fuseJtagclose who v => Sys2Proof.Machine.execFuseJtagclose who v s
  | .vsupSample k mv => Sys2Proof.Machine.execVsupSample k mv s
  | .stageLeave => Sys2Proof.Machine.execStageLeave s
  | .journalSealDone good => Sys2Proof.Machine.execJournalSealDone good s
  | .warmL => Sys2Proof.Machine.execWarmL s
  | .sysRstreq who v => Sys2Proof.Machine.execSysRstreq who v s
  | .warmRestartStart => Sys2Proof.Machine.execWarmRestartStart s
  | .coreReset onLink => Sys2Proof.Machine.execCoreReset onLink s
  | .restartReloadDone mirrorBad journalBad bad => Sys2Proof.Machine.execRestartReloadDone mirrorBad journalBad bad s
  | .engineResume => Sys2Proof.Machine.execEngineResume s
  | .rstlate => Sys2Proof.Machine.execRstlate s
  | .sysFack who v => Sys2Proof.Machine.execSysFack who v s
  | .governorSlot k => Sys2Proof.Machine.execGovernorSlot k s
  | .islandPowerGood j => Sys2Proof.Machine.execIslandPowerGood j s
  | .ledgerCheck ue => Sys2Proof.Machine.execLedgerCheck ue s
  | .ldgSnap who v => Sys2Proof.Machine.execLdgSnap who v s
  | .registerWrite who addr width v hi flips more => Sys2Proof.Machine.execRegisterWrite who addr width v hi flips more s
  | .refbadClear k => Sys2Proof.Machine.execRefbadClear k s
  | .thermRearm => Sys2Proof.Machine.execThermRearm s
  | .rxBlockLockRegained ring => Sys2Proof.Machine.execRxBlockLockRegained ring s
  | .tlnLinkUp portB => Sys2Proof.Machine.execTlnLinkUp portB s
  | .h0LinkUp gen link => Sys2Proof.Machine.execH0LinkUp gen link s
  | .usbVbusChange on => Sys2Proof.Machine.execUsbVbusChange on s
  | .tapInstruction code => Sys2Proof.Machine.execTapInstruction code s
  | .memue => Sys2Proof.Machine.execMemue s
  | .selfTestDone pass => Sys2Proof.Machine.execSelfTestDone pass s
  | .vwarnChange mv => Sys2Proof.Machine.execVwarnChange mv s
  | .canBusIntegration n => Sys2Proof.Machine.execCanBusIntegration n s
  | .canStartOfFrame n ph won => Sys2Proof.Machine.execCanStartOfFrame n ph won s

end Sys2Proof.Machine
end

