-- ==== Sys2Proof/Machine/Step.lean ====
section
/-!
DEFINITION. One step: the command at the front of the queue, or idling.
-/

namespace Sys2Proof.Machine

/-- The command at the front of the queue is executed; on an empty queue the block idles. DESIGN CHOICE: time advances only by the commands
that stand for its events. DESIGN CHOICE (notes/assumptions/2.md). DESIGN CHOICE (notes/assumptions/68.md). -/
def step (s : State) : Host.Outcome State Fault Refusal :=
  match s.pending with
  | [] => .next s
  | c :: rest => exec c { s with pending := rest }

/-- The state with the command that a word spells put at the front of the queue; unchanged where the word spells none.
DESIGN CHOICE (notes/assumptions/68.md). -/
def State.withFetchWord (s : State) (nbits w : Nat) : State :=
  match decodeTableWord nbits w with
  | some c => { s with pending := c :: s.pending }
  | none => s

end Sys2Proof.Machine
end

