-- ==== Sys2Proof/Safety.lean ====
section
/-!
DEFINITION. What claims count as a safe run, and the forms that every state keeps.
-/

namespace Sys2Proof.Machine

/-- The step answers a next state. -/
def Answers (s : State) : Prop := ∃ t, step s = .next t

/-- Nothing is left of a command for the recorder, the dispatcher or a cold reset: no note, no record in the write buffer, no COLD fault; and
no host command of an unknown opcode is about to be answered. -/
abbrev Still (s : Chip) : Prop :=
  s.notes = [] ∧ s.recd.buf = [] ∧ s.books.cold = none ∧ headUnknown s .h0 = none ∧ headUnknown s .tlan = none

/-- The command completes at a state with an effect of which `P` holds: the next state is the Poermun as that effect leaves it, `x`, after
what follows from it (the recorder, the events raised, a cold reset), and the queue stays. Where nothing follows, `settle x` is `x`. -/
def Completes (c : Instr) (s : State) (P : Chip → Prop) : Prop := ∃ x, exec c s = .next { s with chip := settle x } ∧ P x

/-- The agent may write the register at `a`: CORE is not held in reset, the block answers the agent (00 R18, 12 R582, R585), and its port has
the authority (16 R733, R734). -/
abbrev MayWrite (s : Chip) (who : Agent) (a : Nat) : Prop :=
  s.rst.inCore = false ∧ answers s (agentSrc who) a = true ∧ regAuth s (agentSrc who) a = true

/-- The port of the host command `h` holds it, and has the authority its operation `op` needs (16 R733, R735, R757). -/
abbrev MaySend (s : Chip) (op : Nat) (a : Authority) (h : HostCmd) : Prop := cmdReady s op h = true ∧ holds s h.port a = true

/-- A host command completes with an answer (16 R735): `y` is the Poermun as the command's own effect leaves it, and `r` the response that it
then sends. -/
def AnswersWith (c : Instr) (s : State) (op : Nat) (h : HostCmd) (P : Chip → Rsp → Prop) : Prop :=
  Completes c s (fun x => ∃ y r, x = respond y (hdrOf h) op r ∧ P y r)

/-- The descriptor queues of `x` are those of `s` with descriptors accepted since (16 R715): only at the end of a queue, at most four in one
and sixteen in all, and nothing that may be accepted is left while there is room. -/
def DqGrows (s x : Chip) : Prop :=
  (∀ q, q < 8 → ∃ new, dqOf x q = dqOf s q ++ new ∧ ((dqOf s q).length ≤ 4 → (dqOf x q).length ≤ 4)) ∧
    (dqTotal s ≤ 16 → dqTotal x ≤ 16) ∧ (dqTotal x < 16 → ∀ q, q < 8 → dqMay x q = false)

/-- The active holder is a LIVE supervisor with an effective claim above 0 that no LIVE supervisor exceeds; without a holder there is none
such (16 R747). -/
def HolderRight (x : Chip) : Prop :=
  match claimHolder x with
  | some k => k ∈ claimants x ∧ ∀ j ∈ claimants x, svEffective x j ≤ svEffective x k
  | none => claimants x = []

/-- A dispatcher cycle begins (12 R552): what waited for it is taken, and the first of a tick's phase 0 is marked as that of the timers (12 R564). -/
abbrev cycleStart (s : Chip) : Chip :=
  nextCycle (if zeroWaits s then { s with dsp := { s.dsp with zeroAt := some s.tb.tick } } else s)

/-- No timer would make a cart in the cycle that comes: none waits, and in the tick's cycle of phase 0 none is armed (12 R564). -/
abbrev TimersRest (s : Chip) : Prop :=
  ∀ e ∈ s.dsp.timers, e.2.wait = false ∧ (zeroWaits s = true → e.2.armed = false)

/-- Every register keeps its word but those listed. -/
def KeepsRegsBut (l : List Nat) (s t : Chip) : Prop := ∀ a, a ∉ l → t.rd a = s.rd a

/-- The bytes from `p` on read as they were written, as CLEAN, whichever block reads them (13 R587, R590). -/
def Undamaged (s : Chip) (p n : Nat) : Prop :=
  ∀ w, p / 8 ≤ w → 8 * w < p + n → wordErr s w p (p + n) = (List.replicate 8 0, 0)

/-- The Poermun `t` is in cold reset as `s` entered it (00 R7, R16): every register at its cold value, TICK and phase 0, AON held, no cart and no
fault waiting, and every byte written to MRAM or the boot flash as it was. -/
def ColdOf (s t : Chip) : Prop :=
  (∀ a, t.rd a = regCold a) ∧ t.tb.tick = 0 ∧ t.tb.phase = 0 ∧ t.boot.on = false ∧ t.dsp.carts = [] ∧ t.books.faultQ = [] ∧
    ∀ a, keepsCold a = true → Tab.get? t.mem a = Tab.get? s.mem a

/-- The Poermun `t` is `s` with AON just out of cold reset, and the levels and holds of `p` (17 R769): no step of the cold sequence is taken, the
fuses are loaded, the tool-LAN bypass is closed, SYS_STAT stands, and nothing else but registers, the store's marks and the queue of starts has
changed. With nothing rising, the verification engine, and with USB_VBUS present the H3 PHY, has power or is asked for. -/
def StartsBoot (s t : Chip) (p : Power) (tap : Nat) : Prop :=
  t.rdBit Reg.tlnStat 2 = true ∧ t.rd Reg.sysStat = s.rd Reg.sysStat ∧
    (p.rising = [] → ∀ i, i = 24 ∨ i = 25 ∧ s.hst.vbus = true → t.rdBit Reg.pwrIslpwr i = true ∨ t.rdBit Reg.pwrIslreq i = true) ∧
    t = { s with
      regs := t.regs
      store := t.store
      boot := { Boot.zero with on := true }
      hst := { s.hst with
        tap := tap
        secret := (List.range 32).map Config.secretByte
        usbIds := Config.usbFuses }
      pwr := { p with starts := t.pwr.starts } }

/-- The events that entering a fault may raise are not enabled (01 R66, 14 R651, 16 R761): FAULT and FQLOST, SAT of the odometer, ALMOVF. -/
abbrev FaultQuiet (s : Chip) : Prop :=
  s.rdBit Reg.sysEvten 0 = false ∧ s.rdBit Reg.sysEvten 2 = false ∧ s.rdBit Reg.odoEvten 2 = false ∧ s.rdBit Reg.hpcEvten 1 = false

/-- The timebase stands within its ranges (01 R26, R30): TICK has 48 bits and phase is below 10,000. -/
def TimeBase.ok (t : TimeBase) : Prop := t.tick < 2 ^ 48 ∧ t.phase < 10000

/-- The register file is in its canonical form: addresses strictly rising, no word equal to its cold value. -/
def RegsOk (r : Tab Word) : Prop := Tab.wf regCold r = true

/-- The forms that every command keeps. -/
structure Chip.Inv (s : Chip) : Prop where
  regs : RegsOk s.regs
  time : s.tb.ok
  mem : Memory.wf s.mem = true
  host : Memory.wf s.hostMem = true

end Sys2Proof.Machine
end

