-- ==== Sys2Proof/Certificates/Slice0/Obligations.lean ====
section
/-!
DEFINITION. The statements for the provers: what the commands do, family by family, in the terms of the model.
-/

open Sys2Proof Sys2Proof.Machine

/-- For every command c, every rest r and every Poermun s: the step of s with c at the front of its queue is exec c on s with the queue's
rest, and the step of s with an empty queue answers s. The second clause is the model's choice (notes/assumptions/2.md): time advances only
by the commands that stand for its events. Cites 00 R15, 01 R26, spec/opcode_table.json. -/
def Obligations.StepRunsFrontCommand : Prop :=
  ∀ (c : Instr) (r : List Instr) (s : Chip), step ⟨s, c :: r⟩ = exec c ⟨s, r⟩ ∧ step ⟨s, []⟩ = .next ⟨s, []⟩

/-- For every command c of the table and every state s, well formed or not: exec answers a next state, with the queue of waiting commands as
it was. No command ends in a fault or a refusal. Cites spec/opcode_table.json, 00 R15. -/
def Obligations.EveryCommandAnswers : Prop :=
  ∀ (c : Instr) (s : State), ∃ t, exec c s = .next t ∧ t.pending = s.pending

/-- For every state s in which no COLD fault waits: when a step answers a next state, none waits in it either. A command that raises a fault
of class COLD takes the internal cold reset itself, whatever the command and whatever it has done before. Cites 17 R773, 17 R798. -/
def Obligations.ColdFaultNeverWaits : Prop :=
  ∀ s t : State, s.chip.books.cold = none → step s = .next t → t.chip.books.cold = none

/-- For every state in which the forms of Chip.Inv hold, whether a run reaches it or not, a step that answers a next state leaves them
holding: the register file and both memories are in canonical form, TICK is below 2^48 and phase below 10,000. They hold in State.reset, in
which moreover no command waits; every register reads its cold value; TICK and phase are 0; AON is held; no cart and no fault waits; no byte
of memory has been written; and nothing is left for the recorder or a cold reset. That a register whose cold value comes from a consist
reads 0 before one is loaded is the model's choice (notes/assumptions/1.md). Cites 00 R7, 00 R16, 01 R26, 01 R27, 01 R30, 01 R43. -/
def Obligations.ResetStateIsCold : Prop :=
  (∀ s t : State, s.chip.Inv → step s = .next t → t.chip.Inv) ∧
  (State.reset.pending = [] ∧ ColdOf State.reset.chip State.reset.chip ∧ Still State.reset.chip ∧ State.reset.chip.Inv ∧
    State.reset.chip.mem = [])

/-- If two Poermuns agree on the bytes written to MRAM and the boot flash, on the fuses, on host memory (which is not the Poermun's), on the
VBUS and VDD_AON levels, on the I/O bank levels last sampled, on the supply of the island, and on the model's own counters of free values
and cold resets, then the states after PORST_L_LOW are equal, whatever their registers, store, engines, mail, carts, faults and volatile
memory held. The counters are the model's choice (notes/assumptions/3.md). Cites 00 R7, 00 R16, 20 R877, 13 R602. -/
def Obligations.ColdResetForgets : Prop :=
  ∀ s u : State, s.pending = u.pending →
    s.chip.mem.filter (fun (e : Host.Cell) => keepsCold e.1) = u.chip.mem.filter (fun (e : Host.Cell) => keepsCold e.1) →
    s.chip.fills.filter (fun (f : MemFill) => keepsCold f.lo) = u.chip.fills.filter (fun (f : MemFill) => keepsCold f.lo) →
    s.chip.hostMem = u.chip.hostMem → s.chip.hst.fuses = u.chip.hst.fuses → s.chip.hst.vbus = u.chip.hst.vbus →
    s.chip.pwr.aonLow = u.chip.pwr.aonLow → s.chip.pwr.banks = u.chip.pwr.banks → s.chip.pwr.safeMv = u.chip.pwr.safeMv → s.chip.memu.colds = u.chip.memu.colds → s.chip.draws = u.chip.draws →
    exec .porstLLow s = exec .porstLLow u

/-- From every state, PORST_L_LOW and VDD_AON_LOW, and REFCLK_FAULT once AON is out of cold reset, answer a next state in which every
register has its cold value, TICK and phase are 0, AON is held, no cart and no fault waits, and every byte written to MRAM or the boot flash
reads as before; PORST_L is low after the first, VDD_AON low after the second, and the 1 ms hold runs after the third. With AON out of cold
reset, nothing waiting and the events of a fault not enabled: VMON of any rail and THERMSD, and RSTLATE when a warm restart runs and 20 ms
or more have passed since its T0, each answer a next state in which every register has its cold value, AON is held in cold reset, and an
internal cold reset holds every domain; only after THERMSD does the hold wait for the die to cool. Cites 20 R877, 17 R768, 01 R29, 00 R16,
17 R773, 17 R779, 17 R797. -/
def Obligations.ColdResetsLeaveTheColdState : Prop :=
  (
    ∀ s : State,
      (∃ t, exec .porstLLow s = .next t ∧ t.pending = s.pending ∧ ColdOf s.chip t.chip ∧ t.chip.pwr.porst = false) ∧
      (∃ t, exec .vddAonLow s = .next t ∧ t.pending = s.pending ∧ ColdOf s.chip t.chip ∧ t.chip.pwr.aonLow = true) ∧
      (s.chip.boot.on = true → ∃ t, exec .refclkFault s = .next t ∧ t.pending = s.pending ∧ ColdOf s.chip t.chip ∧
        t.chip.pwr.hold = some false)) ∧
  (
    ∀ s : State, Still s.chip → FaultQuiet s.chip → s.chip.boot.on = true →
      (∀ rail, ∃ t, exec (.vmon rail) s = .next t ∧ t.pending = s.pending ∧ (∀ a, t.chip.rd a = regCold a) ∧ t.chip.boot.on = false ∧
        t.chip.pwr.hold = some false) ∧
      (∃ t, exec .thermsd s = .next t ∧ t.pending = s.pending ∧ (∀ a, t.chip.rd a = regCold a) ∧ t.chip.boot.on = false ∧
        t.chip.pwr.hold = some true) ∧
      (s.chip.rdBit Reg.sysStat 1 = true → s.chip.nowNs ≥ s.chip.rst.t0 + 20000000 →
        ∃ t, exec .rstlate s = .next t ∧ t.pending = s.pending ∧ (∀ a, t.chip.rd a = regCold a) ∧ t.chip.boot.on = false ∧
          t.chip.pwr.hold = some false))

/-- With AON held and nothing waiting: PORST_L_RISING with VDD_AON up and no hold, VDD_AON_RECOVERED after VDD_AON was low with PORST_L high
and no hold, and COLD_RESET_HOLD_END while a hold stands (after THERMSD only below 140 °C) with PORST_L high and VDD_AON up, each answer a
next state in which AON runs, no step of the cold sequence has been taken, the fuses are loaded, the tool-LAN bypass is closed, the
verification engine and, with USB_VBUS present, the H3 PHY have power or are asked for, and everything but registers, the store's marks, the
queue of starts and the three levels is unchanged; PORST_L_RISING samples the levels of the I/O banks, and EXTEST does not stay in a closed
TAP. TICK counts on from where it stands; SYS_STAT keeps its word. With nothing waiting: PLL_LOCK_LOST only clears the lock; PLL_LOCKED with
AON running sets it, and changes nothing else once the PLL has locked before or while stage 4 is in force; the first lock of a cold sequence
also asks the start governor to start island 26, the DRAM interface, unless it has power, is asked for or is rising. FINE in force, TICK and
phase do not change. Which request the first lock makes is the model's reading (notes/assumptions/20.md), and its priority 1 is the model's
choice (notes/assumptions/21.md). Cites 17 R769, 17 R768, 17 R773, 16 R722, 16 R731, 01 R31, 01 R32, 17 R783, 17 R785, 17 R790, 20 R875. -/
def Obligations.ColdSequenceAndLock : Prop :=
  (
    ∀ s : State, Still s.chip → s.chip.boot.on = false →
      (∀ banks : BankLevels, s.chip.pwr.aonLow = false → s.chip.pwr.hold = none →
        ∃ t, exec (.porstLRising banks) s = .next t ∧ t.pending = s.pending ∧
          StartsBoot s.chip t.chip { s.chip.pwr with
            porst := true
            banks := some banks } (if s.chip.hst.tap = 3 ∧ jtagIntact s.chip = false then 1 else s.chip.hst.tap)) ∧
      (s.chip.pwr.aonLow = true → s.chip.pwr.hold = none → s.chip.pwr.porst = true →
        ∃ t, exec .vddAonRecovered s = .next t ∧ t.pending = s.pending ∧
          StartsBoot s.chip t.chip { s.chip.pwr with aonLow := false } s.chip.hst.tap) ∧
      (∀ (hot : Bool) (tj : Int), s.chip.pwr.hold = some hot → (hot = true → tj < 560) → s.chip.pwr.porst = true → s.chip.pwr.aonLow = false →
        ∃ t, exec (.coldResetHoldEnd tj) s = .next t ∧ t.pending = s.pending ∧
          StartsBoot s.chip t.chip { s.chip.pwr with hold := none } s.chip.hst.tap)) ∧
  (
    ∀ s : State, Still s.chip →
      exec .pllLockLost s = .next { s with chip := { s.chip with tb := { s.chip.tb with pllLocked := false } } } ∧
      (s.chip.boot.on = true → s.chip.boot.pll = true ∨ 4 ≤ s.chip.stage →
        exec .pllLocked s = .next { s with chip := { s.chip with
          tb := { s.chip.tb with pllLocked := true }
          boot := { s.chip.boot with pll := true } } }) ∧
      (s.chip.boot.on = true → s.chip.boot.pll = false → s.chip.stage < 4 → s.chip.rdBit Reg.pwrIslpwr 26 = false →
        s.chip.rdBit Reg.pwrIslreq 26 = false → s.chip.pwr.rising = [] →
        ∃ t, exec .pllLocked s = .next t ∧ t.chip.rdBit Reg.pwrIslreq 26 = true ∧ KeepsRegsBut [Reg.pwrIslreq] s.chip t.chip ∧
          t = { s with chip := { s.chip with
            regs := t.chip.regs
            tb := { s.chip.tb with pllLocked := true }
            boot := { s.chip.boot with pll := true }
            pwr := { s.chip.pwr with starts := s.chip.pwr.starts ++ [⟨26, 1, s.chip.nowNs, false⟩] } } }))

/-- With the PLL locked in the cold sequence: ZERO_FILL_DONE leaves every byte of the TCMs and of the journal SRAM 0, every byte outside the
tile windows, the journal SRAM and the TCMs as it was, and no damage in the store, the journal SRAM, the block RAMs and the TCMs;
DRAM_TRAINING_DONE ends self-refresh, or leaves DRAM in it while stage 4 is in force, and changes nothing else. With AON running,
MRAM_READABLE runs the odometer restore (the odometer runs and its BOOT snapshot waits), and SYS_RSTCAUSE takes CODE and ITEM of a valid
cold-cause record, or 0; MRAM elsewhere keeps its bytes. Each of the three does so once in a cold sequence: a second one, with nothing
waiting, changes nothing, which is the model's choice (notes/assumptions/4.md). Cites 13 R603, 17 R769, 17 R774, 17 R790. -/
def Obligations.BootMarksArraysAndMemories : Prop :=
  ∀ s : State,
    (s.chip.boot.pll = true → s.chip.boot.zeroed = false → Completes .zeroFillDone s (fun x =>
      (∀ c o, c < 10 → o < 0x40000 → x.byteAt (tcmBase c + o) = 0) ∧ (∀ o, o < 0x200000 → x.byteAt (0x03000000 + o) = 0) ∧
      (∀ a, a < 0x03000000 ∨ (0x03200000 ≤ a ∧ a < 0x18000000) ∨ (0x19000000 ≤ a ∧ a < tcmBase 0) ∨ tcmBase 10 ≤ a →
        x.byteAt a = s.chip.byteAt a) ∧
      (∀ e ∈ x.memu.flips, e ∈ s.chip.memu.flips ∧ (e.1 < 0x02000000 ∨ 0x02200000 ≤ e.1) ∧ (e.1 < 0x03000000 ∨ 0x03200000 ≤ e.1) ∧
        (e.1 < 0x10000000 ∨ 0x18000000 ≤ e.1) ∧ (e.1 < tcmBase 0 ∨ tcmBase 10 ≤ e.1)) ∧
      x = { s.chip with
        mem := x.mem
        fills := x.fills
        memu := { s.chip.memu with flips := x.memu.flips }
        boot := { s.chip.boot with zeroed := true } })) ∧
    (s.chip.boot.pll = true → s.chip.boot.trained = false → Still s.chip →
      exec .dramTrainingDone s = .next { s with chip := { s.chip with
        memu := { s.chip.memu with selfRef := decide (4 ≤ s.chip.stage) }
        boot := { s.chip.boot with trained := true } } }) ∧
    (Still s.chip → (s.chip.boot.zeroed = true → exec .zeroFillDone s = .next s) ∧
      (s.chip.boot.trained = true → exec .dramTrainingDone s = .next s) ∧ (s.chip.boot.mram = true → exec .mramReadable s = .next s)) ∧
    (s.chip.boot.on = true → s.chip.boot.mram = false → Completes .mramReadable s (fun x =>
      x.boot = { s.chip.boot with mram := true } ∧ x.rdBit Reg.odoStat 0 = true ∧ 5 ≤ x.odo.waits ∧
      (let b := s.chip.bytes coldRecAddr 16
       x.rd Reg.sysRstcause = (if leAt b 12 4 = crc32c (b.take 12) then wn (leAt b 0 3) else 0)) ∧
      ∀ a, a < coldRecAddr ∨ coldRecAddr + 16 ≤ a → Tab.get? x.mem a = Tab.get? s.chip.mem a))

/-- MANIFEST_CHECK, with AON running, no slot taken or abandoned and no recovery: with two candidates slot 1 is taken only when its VERSION
is the higher, a sole candidate is taken, and with none the Poermun enters recovery with no slot. IMAGE_LOAD_DONE, with the arrays filled
and n + 1 images of slot k to come: an image that matches its descriptor goes to its target and n are left; any other image abandons slot k.
CONSIST_VERIFIED, with every image loaded and MRAM readable: a consist that passes its checks is verified and stands in bank 0 of MRAM,
written there unless its hash is that of the copy; one that fails loads CST_LOADERR and abandons the slot. An abandoned slot is never the
slot in use afterwards. A candidate is a slot whose check code is 0. Cites 16 R756, 16 R757, 18 R824, 18 R825. -/
def Obligations.BootRomChoosesAndChecksTheSlot : Prop :=
  ∀ s : State,
    (s.chip.boot.on = true → s.chip.boot.slot = none → s.chip.boot.gone = [] → s.chip.rdBit Reg.secBootstat 8 = false →
      Completes .manifestCheck s (fun x =>
        x.boot.slot = (if slotCause s.chip 0 = 0 then
            (if slotCause s.chip 1 = 0 ∧ leAt (manifest s.chip 1) 8 4 > leAt (manifest s.chip 0) 8 4 then some 1 else some 0)
          else if slotCause s.chip 1 = 0 then some 1 else none) ∧
        x.rdBit Reg.secBootstat 8 = (slotCause s.chip 0 != 0 && slotCause s.chip 1 != 0) ∧ x.mem = s.chip.mem)) ∧
    (∀ k n, s.chip.boot.slot = some k → s.chip.boot.images = n + 1 → s.chip.boot.zeroed = true →
      let d := imgDesc (manifest s.chip k) (nimg (manifest s.chip k) - (n + 1))
      (imageOk s.chip d = true → Completes .imageLoadDone s (fun x =>
        x = { s.chip with
          mem := (match targetAddr d with
            | some a => memPut s.chip.mem a (imgBytes s.chip d)
            | none => s.chip.mem)
          memu := (match targetAddr d with
            | some a => (touchWords s.chip a (imgBytes s.chip d).length).memu
            | none => s.chip.memu)
          boot := { s.chip.boot with images := n } })) ∧
      (imageOk s.chip d = false → Completes .imageLoadDone s (fun x => x.boot.slot ≠ some k ∧ k ∈ x.boot.gone ∧ x.mem = s.chip.mem))) ∧
    (∀ k, s.chip.boot.slot = some k → s.chip.boot.images = 0 → s.chip.boot.verified = false → s.chip.boot.mram = true →
      let d := cstDesc (manifest s.chip k)
      let img := imgBytes s.chip d
      (cstCheck s.chip img (leAt d 8 4) = none → Completes .consistVerified s (fun x =>
        x.boot = { s.chip.boot with verified := true } ∧
        x.mem = (if sha256 (bankImage s.chip 0) = sha256 img then s.chip.mem else memPut s.chip.mem (bankAddr 0) img) ∧
        ∀ i, i < 8 → x.rd (Reg.secCsthash i) = wn (leAt (sha256 img) (4 * i) 4))) ∧
      (∀ e, cstCheck s.chip img (leAt d 8 4) = some e → Completes .consistVerified s (fun x =>
        x.boot.slot ≠ some k ∧ k ∈ x.boot.gone ∧ x.rd Reg.cstLoaderr = errWord e ∧ x.mem = s.chip.mem)))

/-- CONSIST_LOAD, once the consist is verified, MRAM readable and the arrays filled: the declarations of the consist in bank 0 are in force,
SYS_EPOCH is the highest valid EPOCH of MRAM plus 1 (where one is valid), the tool-LAN bypass is open, the SRAM arrays are marked
initialised. BOOT_DONE, once the load, DRAM training and the PLL are done, the odometer runs and no BOOT snapshot is open:
SYS_STAT.BOOT_DONE and the loop engine's and dispatcher's run bits are 1, SUSP of the dispatcher tells whether supply-sag stage 3 or higher
is in force, every core is released, and SYS_BOOTT is the time since the cold sequence began in µs, before the recorder, the feedback
channels and the converters start. Each is done once: with nothing waiting, CONSIST_LOAD after the load and BOOT_DONE after BOOT_DONE change
nothing, which is the model's choice (notes/assumptions/4.md). Cites 17 R769, 17 R771, 17 R801, 18 R825, 16 R722, 13 R603, 12 R577. -/
def Obligations.ConsistLoadAndBootDone : Prop :=
  ∀ s : State,
    (s.chip.boot.verified = true → s.chip.boot.mram = true → s.chip.boot.zeroed = true → s.chip.boot.loaded = false →
      Completes .consistLoad s (fun x =>
        x.boot = { s.chip.boot with loaded := true } ∧ x.store.decls = (parseCst (bankImage s.chip 0)).decls ∧
        x.rdBit Reg.tlnStat 2 = false ∧ x.memu.init = true ∧
        ∀ i e, newestEpoch s.chip = some (i, e) → x.rd Reg.sysEpoch = wn ((e + 1) % 2 ^ 32))) ∧
    (s.chip.boot.loaded = true → s.chip.boot.trained = true → s.chip.boot.pll = true → odoRuns s.chip = true →
      bootSnapOpen s.chip = false → s.chip.booted = false →
      Completes .bootDone s (fun x => ∃ y, x = startConverters (startFeedback (startRecorder y)) ∧
        y.booted = true ∧ y.rdBit Reg.lpeStat 0 = true ∧ y.rdBit Reg.dspStat 0 = true ∧ y.rdBit Reg.dspStat 2 = decide (s.chip.stage ≥ 3) ∧
        y.rd Reg.sysBoott = wn (s.chip.nowNs / 1000) ∧ (∀ c, c < 10 → y.rdF (coreStat c) 1 0 = 1) ∧
        y = { s.chip with
          regs := y.regs
          dsp := { s.chip.dsp with kicks := y.dsp.kicks } })) ∧
    (Still s.chip → (s.chip.boot.loaded = true → exec .consistLoad s = .next s) ∧ (s.chip.booted = true → exec .bootDone s = .next s))

/-- With AON running, TICK_BOUNDARY answers a next state: the books of the tick that ends are closed, the odometer's sums before this cycle
kept, and TICK advances, which leaves `w`; the trim of the boundary acts on `w` and the fab time is recorded, which leaves `y`; then the
reduction records, the store's shadow, the loop engine's counts of the tick that ends, the swap, SYNC_OUT, the coach, the PWM release, the
converters, the feedback channels and the seat map of the new tick follow in this order. In `w` TICK is one greater (0 after 2^48 - 1),
phase is 0, FINE in force is the PLL's lock, no shadowed register write waits; in `y` TICK and phase are those of `w`, and the tick runs for
9,999 to 10,001 ns. Before AON runs, it changes nothing, which is the model's choice (notes/assumptions/4.md). The order of the actions of
phase 0 among themselves is the model's choice where the spec gives none (notes/assumptions/7.md). Cites 01 R26, 01 R27, 01 R30, 01 R32, 01
R43, 00 R15. -/
def Obligations.TickBoundaryAdvancesTime : Prop :=
  ∀ (s : State) (sec : BitVec 48) (ns : Word) (busy : List Nat),
    (s.chip.boot.on = true →
      let w := applyMode (applyShadow (booksTick (advanceTick (recBoundary (ringTickEnd (odoEdge s.chip))))))
      let y := recordFab (applyTrim w w.hst.ptp.servo) sec.toNat ns.toNat
      exec (.tickBoundary sec ns busy) s = .next { s with chip := settle (syncSeatPend (fbBoundaries ((List.range 8).foldl adcBoundary
        (pwmRelease (startCoach (syncRise (swapBoundary (engineTick (applyStoreShadow (redTick y)))))))) busy)) } ∧
      w.tb.tick = (s.chip.tb.tick + 1) % 2 ^ 48 ∧ w.tb.phase = 0 ∧ w.fine = s.chip.tb.pllLocked ∧ w.shadow = [] ∧
      y.tb.tick = w.tb.tick ∧ y.tb.phase = 0 ∧ 9999 ≤ y.tb.tickLen ∧ y.tb.tickLen ≤ 10001) ∧
    (s.chip.boot.on = false → Still s.chip → exec (.tickBoundary sec ns busy) s = .next s)

/-- For every state with an effective trim and a target within ±50,000 ppb, in fine mode, the trim of a tick boundary leaves an effective
trim that differs from the old one by at most 10 ppb, lies between the old one and the target, and reaches the target when it is at most 10
ppb away. The accumulator then adds the absolute value of the new effective trim to what it held, which it drops first when the sign of the
trim has changed (a trim of 0 has the sign of the last, which is the model's reading, notes/assumptions/14.md); when it reaches 100,000 it
gives 100,000 up and the tick has 9,999 ns for a positive trim and 10,001 for a negative one, else 10,000. In coarse mode the effective trim
and the accumulator are held and the tick has 10,000 ns. At any time SYS_TBSTAT.SLEWING reads 1 exactly while the effective trim and its
target differ. At a tick boundary, SYNC_OUT is set only if BOOT_DONE has asserted, and it rises exactly when that first boundary has come
(this one or an earlier) and SYNCEN is 1; its pulse then ends at phase SYNCW x 20 ns, at twice that phase when HPMARK is 1 and TICK is a
multiple of 4,096, and nothing but the pulse, its end and the arming changes. SYNC_OUT_PULSE_END while it is high lowers it at that phase
and changes nothing else; that it has no effect while it is low is the model's choice (notes/assumptions/4.md). Cites 01 R42, 01 R43, 01
R44, 01 R31, 01 R66, 01 R35, 01 R36, 01 R37. -/
def Obligations.TrimAndSyncOut : Prop :=
  (
    ∀ (s : Chip) (servo : Int),
      let eff := s32 (s.rd Reg.sysTbtrimeff)
      let target := trimTarget s servo
      s.fine = true → eff ≥ -50000 → eff ≤ 50000 → target ≥ -50000 → target ≤ 50000 →
      let t := applyTrim s servo
      let eff' := s32 (t.rd Reg.sysTbtrimeff)
      eff - 10 ≤ eff' ∧ eff' ≤ eff + 10 ∧ (target ≤ eff → target ≤ eff' ∧ eff' ≤ eff) ∧ (eff ≤ target → eff ≤ eff' ∧ eff' ≤ target) ∧
      (eff - 10 ≤ target → target ≤ eff + 10 → eff' = target) ∧
      (s.tb.trimAcc < 100000 →
        let same := eff' = 0 ∨ (eff' < 0 ↔ s.tb.trimNeg = true)
        let acc := (if same then s.tb.trimAcc else 0) + eff'.natAbs
        (acc < 100000 → t.tb.trimAcc = acc ∧ t.tb.tickLen = 10000) ∧
        (100000 ≤ acc → t.tb.trimAcc = acc - 100000 ∧ (eff' > 0 → t.tb.tickLen = 9999) ∧ (eff' < 0 → t.tb.tickLen = 10001)) ∧
        t.tb.trimNeg = (if eff' = 0 then s.tb.trimNeg else decide (eff' < 0)))) ∧
  (
    ∀ (s : Chip) (reader : Nat),
      (∃ v, (readReg s reader Reg.sysTbstat).1 = some v ∧
        (bit v 2 = true ↔ s32 (s.rd Reg.sysTbtrimeff) ≠ trimTarget s s.hst.ptp.servo)) ∧
      (s.fine = false → (applyTrim s s.hst.ptp.servo).rd Reg.sysTbtrimeff = s.rd Reg.sysTbtrimeff ∧
        (applyTrim s s.hst.ptp.servo).tb.trimAcc = s.tb.trimAcc ∧ (applyTrim s s.hst.ptp.servo).tb.tickLen = 10000)) ∧
  (
    (∀ s : Chip,
      (s.booted = false → s.tb.syncArmed = false → syncRise s = s) ∧
      (s.booted = true ∨ s.tb.syncArmed = true →
        (s.rdBit Reg.sysTbctl 2 = false → syncRise s = { s with tb := { s.tb with syncArmed := true } }) ∧
        (s.rdBit Reg.sysTbctl 2 = true → syncRise s = { s with
          tb := { s.tb with
            syncArmed := true
            syncEnd := s.rdF Reg.sysTbctl 11 4 * 20 * (if s.rdBit Reg.sysTbctl 3 = true ∧ s.tb.tick % 4096 = 0 then 2 else 1) }
          pins := { s.pins with syncOut := true } }))) ∧
    (∀ s : State, Still s.chip →
      exec .syncOutPulseEnd s = (if s.chip.pins.syncOut = true then
        .next { s with chip := { s.chip with
          tb := { s.chip.tb with phase := max s.chip.tb.phase (min s.chip.tb.syncEnd s.chip.lastPhase) }
          pins := { s.chip.pins with syncOut := false } } }
        else .next s)))

/-- For every SID, write and writer: an undeclared SID or a writer that is not the producer is refused and counted as a producer violation;
else a host's write to a GUARD SID whose writer is not the holder in force is refused and counted as a claim refusal; else a write to an OUT
SID whose group is forced is refused and counted; and no refusal changes an entry. Otherwise the write is accepted: an OUT SID's value is
limited to LO..HI, with SAT added and the clamp counted when it was outside; a write through P1 or P3 carries VALID; SUBST, HELD and GATED
are cleared, TICK and the writer are kept, WSEQ goes up by one modulo 256; no other entry changes. A write without a value, which is a P3
write at +4, leaves VALUE and the mark of an uncorrectable error; any other clears the mark. Cites 02 R91, 02 R95, 02 R97, 02 R111. -/
def Obligations.StoreWriteDecidesInOrder : Prop :=
  ∀ (s : Chip) (sid : Nat) (r : WriteReq) (w : Writer),
    (Tab.get? s.store.decls sid = none → (storeWrite s sid r w).1 = countProd s sid w.src ∧ (storeWrite s sid r w).2.outcome = 2) ∧
    ∀ d, Tab.get? s.store.decls sid = some d →
      let guarded := d.guard && srcIsHost w.src && !isHolder s w
      let e := s.entryOf sid d
      (producerOk d w = false → (storeWrite s sid r w).1 = countProd s sid w.src ∧ (storeWrite s sid r w).2.outcome = 2) ∧
      (producerOk d w = true → guarded = true →
        (storeWrite s sid r w).1 = countGate s sid w.src ∧ (storeWrite s sid r w).2.outcome = 3) ∧
      (producerOk d w = true → guarded = false → d.isOut = true → s.forced d.fgrp = true →
        (storeWrite s sid r w).1 = countForce s ∧ (storeWrite s sid r w).2.outcome = 4) ∧
      (producerOk d w = true → guarded = false → (d.isOut = true → s.forced d.fgrp = false) →
        let t := (storeWrite s sid r w).1
        let clamps := d.isOut = true ∧ ∃ v, r.value = some v ∧ (v < d.lo ∨ d.hi < v)
        Tab.get? t.store.entries sid = some {
          value := (match r.value with
            | some v => if d.isOut then min (max v d.lo) d.hi else v
            | none => e.value)
          carried := { r.carried with
            sat := r.carried.sat || decide clamps
            valid := r.carried.valid || w.src != 13 && w.src != 15 }
          subst := false
          held := false
          gated := false
          ue := e.ue && r.value.isNone
          lastTick := some s.tb.tick
          wseq := (e.wseq + 1) % 256
          lastSrc := some w.src } ∧
        (∀ k, k ≠ sid → Tab.get? t.store.entries k = Tab.get? s.store.entries k) ∧
        t.rd Reg.sigClampcnt = (if clamps then s.rd Reg.sigClampcnt + 1 else s.rd Reg.sigClampcnt) ∧
        (clamps → t.rdBit Reg.sigEvt 3 = true) ∧ (storeWrite s sid r w).2.outcome = (if clamps then 1 else 0))

/-- For every declared SID with entry e: VALUE is the fallback when the SID is of class OUT and its group is forced, SUBST is stored or the
entry is marked uncorrectable, else the stored value; STATUS carries VALID, OVR and SAT as stored, SUBST exactly when the fallback is
returned, HELD and GATED as kept, STALE when the stale limit is not 0, AGE exceeds it and HELD is 0, and FAULT as stored or for the mark. An
undeclared SID reads VALUE 0, STATUS 0x80, WSEQ 0 and AGE 65,535, and every write to it is refused as a producer violation. Cites R96, R75.
-/
def Obligations.StoreReadComposes : Prop :=
  (∀ (s : Chip) (sid : Nat) (d : SidDecl) (e : Entry), Tab.get? s.store.decls sid = some d → Tab.get? s.store.entries sid = some e →
    let r := s.storeRead sid
    let fb := d.isOut && (s.forced d.fgrp || e.subst || e.ue)
    r.value = (if fb then d.fallback else e.value) ∧ r.wseq = e.wseq ∧ r.age = ageAt e s.tb.tick ∧ r.status < 256 ∧
    natBit r.status 0 = e.carried.valid ∧
    natBit r.status 1 = (d.limit != 0 && decide (ageAt e s.tb.tick > d.limit) && !e.held) ∧
    natBit r.status 2 = e.carried.ovr ∧ natBit r.status 3 = fb ∧ natBit r.status 4 = e.held ∧ natBit r.status 5 = e.gated ∧
    natBit r.status 6 = e.carried.sat ∧ natBit r.status 7 = (e.carried.fault || e.ue)) ∧
  (∀ (s : Chip) (sid : Nat) (q : WriteReq) (w : Writer), Tab.get? s.store.decls sid = none →
    s.storeRead sid = ⟨0, 0x80, 0, 65535⟩ ∧ (storeWrite s sid q w).1 = countProd s sid w.src)

/-- With nothing waiting and the agent able to reach the store: a write enters the end of its agent's queue, or, while four are in it, waits
behind it with its writer; a core with a waiting write is stalled. A write to WSEQ or AGE is ignored. Each ends what the agent's last read
of VALUE captured, and nothing else changes. P3_ARBITER_TAKE, with the gate instant of this tick past or not yet due and no WRSIG running:
with no write waiting it changes nothing; otherwise it takes the first write of the first agent, from the one after the agent last served,
that has one: that agent's queue keeps the rest, the next look starts behind it, the write is made under R95 with the stamp of now, the
port's transactions go up by one and the transaction is presented to the recorder. That a waiting write of a host holds back its own port
alone is the model's choice (notes/assumptions/9.md), as is that a take finding nothing changes nothing (notes/assumptions/4.md) and that
the look goes on behind the agent last served (notes/assumptions/69.md). Cites 02 R88, 02 R89, 02 R90, 02 R91, 02 R74, 02 R116. -/
def Obligations.P3QueuesAndArbiter : Prop :=
  (∀ (s : State) (who : Agent) (mac : BitVec 48) (sid : Sid) (form : P3Form), Still s.chip → reachesStore s.chip who = true →
    let a := p3Agent (agentSrc who)
    let forget := fun (x : Chip) => { x with store := { x.store with caps := Tab.set none x.store.caps (agentSrc who) none } }
    (form ≠ .counters → ∃ t, exec (.p3QueueWrite who mac sid form) s = .next t ∧
      Tab.get [] t.chip.store.p3q a =
        Tab.get [] s.chip.store.p3q a ++ [⟨agentSrc who, p3Sup s.chip who mac.toNat, sid.toNat, form, false⟩] ∧
      ((p3Held s.chip a = [] ∧ (p3Queue s.chip a).length < 4 → p3Queue t.chip a =
        p3Queue s.chip a ++ [⟨agentSrc who, p3Sup s.chip who mac.toNat, sid.toNat, form, false⟩] ∧ p3Held t.chip a = []) ∧
      ((p3Queue s.chip a).length = 4 → p3Queue t.chip a = p3Queue s.chip a ∧ p3Held t.chip a =
        p3Held s.chip a ++ [⟨agentSrc who, p3Sup s.chip who mac.toNat, sid.toNat, form, false⟩] ∧ stalled t.chip a = true)) ∧
      (∀ b, b ≠ a → Tab.get [] t.chip.store.p3q b = Tab.get [] s.chip.store.p3q b) ∧
      t = { s with chip := forget { s.chip with store := { s.chip.store with p3q := t.chip.store.p3q } } }) ∧
    (form = .counters → exec (.p3QueueWrite who mac sid form) s = .next { s with chip := forget s.chip })) ∧
  (∀ s : State, (s.chip.tb.phase < 9500 ∨ s.chip.store.gateDone = true) → (∀ src, wrsigRuns s.chip src = false) →
    (Still s.chip → (∀ a, a < 11 → Tab.get [] s.chip.store.p3q a = []) → exec .p3ArbiterTake s = .next s) ∧
    (∀ (i : Nat) (w : P3Write) (rest : List P3Write) (r : WriteReq), i < 11 →
      (∀ j, j < i → Tab.get [] s.chip.store.p3q ((s.chip.store.p3next + j) % 11) = []) →
      Tab.get [] s.chip.store.p3q ((s.chip.store.p3next + i) % 11) = w :: rest → p3Request w.form = some r →
      Completes .p3ArbiterTake s (fun x =>
        let y := { s.chip with store := { s.chip.store with
          p3q := Tab.set [] s.chip.store.p3q ((s.chip.store.p3next + i) % 11) rest
          p3next := ((s.chip.store.p3next + i) % 11 + 1) % 11 } }
        let o := storeWrite y w.sid r ⟨w.src, .p3 false false false, w.sup⟩
        x.store.p3q = y.store.p3q ∧ x.store.p3next = y.store.p3next ∧ x.store.entries = o.1.store.entries ∧
        x.rd (Reg.sigPcnt 3) = s.chip.rd (Reg.sigPcnt 3) + 1 ∧
        x.notes = o.1.notes ++ [.txn ⟨3, w.src, w.src % 32 + 32 * (p3Tag w.form).1, s.chip.tb.tick, x.phaseRead, [o.2],
          (p3Tag w.form).2⟩])))

/-- While H0 is up, BAR2_JOURNAL_WRITE increments SIG_GATEREF, loads SIG_GATELAST with SRC 10 and SID 0, and sets SIG_EVT.GATEREF; the flag
raises EVT70 when its enable is 1 and no event when it is 0. No other register and nothing else changes, and no store transaction is
presented to the recorder. Cites R93. -/
def Obligations.JournalPartOfBar2IsAClaimRefusal : Prop :=
  ∀ s : State, h0Up s.chip = true → Completes .bar2JournalWrite s (fun x =>
    x.rd Reg.sigGateref = s.chip.rd Reg.sigGateref + 1 ∧ x.rd Reg.sigGatelast = wn (10 * 2 ^ 27) ∧ x.rdBit Reg.sigEvt 1 = true ∧
    (∀ b, b ≠ 1 → x.rdBit Reg.sigEvt b = s.chip.rdBit Reg.sigEvt b) ∧
    KeepsRegsBut [Reg.sigGateref, Reg.sigGatelast, Reg.sigEvt] s.chip x ∧
    x = { s.chip with
      regs := x.regs
      notes := s.chip.notes ++ (if s.chip.rdBit Reg.sigEvten 1 then [.event 70] else []) })

/-- With nothing waiting, a read of SYS_TICKLO captures for its reader TICK[47:32] in SYS_TICKHI and the phase last reached in SYS_PHASE; a
read of SYS_FABTLO captures the recorded seconds and nanoseconds, with VALID when the set was recorded and PTPLOCK stands; a read of the low
word of one of the five 64-bit counts of R647 captures its high word. Each returns its word to the reader and changes nothing but the
captures; no other reader's capture changes, and a later read of the captured registers by this reader returns what was captured. With
nothing waiting, and the commit at phase 9,000 not due at this very moment: STORE_VALUE_READ of VALUE by an agent that reaches the store, of
an entry that is not marked uncorrectable and whose bytes read as CLEAN, returns VALUE and captures for that reader the SID with VALUE,
STATUS, WSEQ and AGE as composed now, and changes nothing else, no other reader's capture included; the reader's next access, if it is a
read of the word at +4 of that SID, returns the captured STATUS, WSEQ and AGE and ends the capture. SIG_CLR_PEAKCLR by an agent that may
write SIG_CLR clears SIG_PnPEAK for each bit n set and changes no other register and nothing else. Cites 01 R58, 01 R45, 01 R70, 14 R654, 02
R74, 02 R71, 02 R96, 02 R124, 02 R117. -/
def Obligations.ReadsCaptureTheirSet : Prop :=
  (
    ∀ (s : State) (who : Agent) (flips : List Nat) (use : CacheUse), Still s.chip →
      let reads := fun (t : State) (lo : Word) =>
        t = { s with chip := { s.chip with
          lowCaps := t.chip.lowCaps
          acc := (s.chip.returnData (agentSrc who) lo.toNat).acc } } ∧
        ∀ r, r ≠ agentSrc who → Tab.get LowCap.none t.chip.lowCaps r = Tab.get LowCap.none s.chip.lowCaps r
      (∃ t, exec (.readSysTicklo who) s = .next t ∧ reads t (wn (s.chip.tb.tick % 2 ^ 32)) ∧
        (readReg t.chip (agentSrc who) Reg.sysTickhi).1 = some (wn (s.chip.tb.tick / 2 ^ 32)) ∧
        (readReg t.chip (agentSrc who) Reg.sysPhase).1 = some (wn s.chip.phaseRead)) ∧
      (∃ t, exec (.readSysFabtlo who) s = .next t ∧ reads t (wn (s.chip.tb.fabTick % 2 ^ 32)) ∧
        (readReg t.chip (agentSrc who) Reg.sysFabns).1 =
          some (wn (s.chip.tb.fabNs + b2n (s.chip.tb.fabValid && s.chip.rdBit Reg.sysTbstat 1) * 2 ^ 31)) ∧
        (readReg t.chip (agentSrc who) Reg.sysFabsec).1 = some (wn (s.chip.tb.fabSec % 2 ^ 32))) ∧
      (∀ i, i < 5 → ∃ t, exec (.readLowWordCapture who (BitVec.ofNat 40 (Reg.odoLissuedlo + 8 * i)) .word flips use) s = .next t ∧
        reads t (wn (odoCount s.chip i % 2 ^ 32)) ∧
        (readReg t.chip (agentSrc who) (Reg.odoLissuedlo + 8 * i + 4)).1 = some (wn (odoCount s.chip i / 2 ^ 32)))) ∧
  (
    (∀ (s : State) (who : Agent) (sid : Sid), Still s.chip → reachesStore s.chip who = true →
      (s.chip.tb.phase ≠ 9000 ∨ s.chip.eng.commitDone = true) →
      (∀ e, Tab.get? s.chip.store.entries sid.toNat = some e → e.ue = false) →
      Undamaged s.chip (entryAt sid.toNat) 4 →
      ∃ t, exec (.storeValueRead who sid .value []) s = .next t ∧
        Tab.get none t.chip.store.caps (agentSrc who) = some (sid.toNat, s.chip.storeRead sid.toNat) ∧
        Tab.get 0 t.chip.acc.data (agentSrc who) = (w32 (s.chip.storeRead sid.toNat).value).toNat ∧
        (∀ r, r ≠ agentSrc who → Tab.get none t.chip.store.caps r = Tab.get none s.chip.store.caps r) ∧
        t = { s with chip := { s.chip with
          store := { s.chip.store with caps := t.chip.store.caps }
          acc := t.chip.acc } } ∧
        t.chip.acc = (s.chip.returnData (agentSrc who) (Tab.get 0 t.chip.acc.data (agentSrc who))).acc) ∧
    (∀ (s : State) (who : Agent) (sid : Sid) (r : StoreRead), Still s.chip → reachesStore s.chip who = true →
      (s.chip.tb.phase ≠ 9000 ∨ s.chip.eng.commitDone = true) →
      Tab.get none s.chip.store.caps (agentSrc who) = some (sid.toNat, r) →
      ∃ t, exec (.storeValueRead who sid .fields []) s = .next t ∧
        Tab.get 0 t.chip.acc.data (agentSrc who) = r.status % 256 + r.wseq % 256 * 2 ^ 8 + r.age % 65536 * 2 ^ 16 ∧
        Tab.get none t.chip.store.caps (agentSrc who) = none ∧
        t = { s with chip := { s.chip with
          store := { s.chip.store with caps := t.chip.store.caps }
          acc := t.chip.acc } }) ∧
    (∀ (s : State) (who : Agent) (v : Word), Still s.chip → MayWrite s.chip who Reg.sigClr →
      ∃ t, exec (.sigClrPeakclr who v) s = .next t ∧
        (∀ n, n < 4 → t.chip.rd (Reg.sigPpeak n) = if bit v n then 0 else s.chip.rd (Reg.sigPpeak n)) ∧
        KeepsRegsBut [Reg.sigPpeak 0, Reg.sigPpeak 1, Reg.sigPpeak 2, Reg.sigPpeak 3] s.chip t.chip ∧
        t = { s with chip := { s.chip with regs := t.chip.regs } }))

/-- SLOT_EVALUATION of a tile with due slots, before its last window has passed: the lowest due slot leaves the due set, one result for it
is added behind those held, the phase is that of its window (2,600 + 100 x i for the i-th due slot of the tick) unless a later phase has
been reached, and no slot record changes. Where the record, the state and the entries that the evaluation reads are undamaged, and the
entries unmarked, the store does not change either, and, while no injection runs in the tile, the result's output is what the law gives for
the slot's record, its state with the cleared flags taken, and the frozen inputs. With no due slot left it changes nothing, which is the
model's choice (notes/assumptions/4.md). RESULT_COMMIT, while phase 9,000 has not passed: phase is 9,000, no result is held, and no tile has
a due slot left (a tile that had one has its overrun counted). When exactly one result is held, no slot is still due and no entry that an
output of PWM takes its duty from is damaged or marked, the store's entries afterwards are those that one write of the slot's OUTSID leaves:
its output with VALID, SAT and FAULT as held, by the slot as producer through P1. The commit is made once a tick: once it is made or phase
9,000 has passed, the command changes nothing, which is the model's choice (notes/assumptions/4.md, notes/assumptions/8.md). Cites 03 R141,
03 R142, 04 R187, 01 R51, 03 R144, 04 R202. -/
def Obligations.EvaluationsHoldTheirResults : Prop :=
  (
    ∀ (s : State) (t : Fin 16), s.chip.tb.phase ≤ 8999 →
      (∀ lid rest, Tab.get [] s.chip.eng.due t.val = lid :: rest → lid / 256 = t.val → Completes (.slotEvaluation t) s (fun x =>
        Tab.get [] x.eng.due t.val = rest ∧ x.eng.recs = s.chip.eng.recs ∧
        x.tb.phase = max s.chip.tb.phase (min (2600 + 100 * (Tab.get 0 s.chip.eng.dueN t.val - (rest.length + 1))) s.chip.lastPhase) ∧
        ∃ h, x.eng.held = s.chip.eng.held ++ [h] ∧ h.lid = lid ∧
          (Undamaged s.chip (recordAt lid) 128 → Undamaged s.chip (slotStateAt lid) 52 →
            (∀ sid ∈ lawSids (slotCfg s.chip lid), Undamaged s.chip (entryAt sid) 8 ∧
              ∀ e, Tab.get? s.chip.store.entries sid = some e → e.ue = false) →
            x.store = s.chip.store ∧ (s.chip.rdBit (Reg.ltInjstat t.val) 0 = false →
              let c := slotCfg s.chip lid
              let st := { slotSt s.chip lid with
                flags := (slotSt s.chip lid).flags &&& (4095 - (slotSt s.chip lid).clr % 4096)
                clr := 0 }
              h.out = (lawEval c st (lawInputs (frozenRead s.chip) c st) none).y)))) ∧
      (Still s.chip → Tab.get [] s.chip.eng.due t.val = [] → exec (.slotEvaluation t) s = .next s)) ∧
  (
    ∀ s : State,
      (s.chip.tb.phase ≤ 9000 → s.chip.eng.commitDone = false → Completes .resultCommit s (fun x =>
        x.tb.phase = 9000 ∧ x.tb.tick = s.chip.tb.tick ∧ x.eng.held = [] ∧ (∀ t, t < 16 → Tab.get [] x.eng.due t = []) ∧
        ∀ h, s.chip.eng.held = [h] → (∀ t, t < 16 → Tab.get [] s.chip.eng.due t = []) →
          (∀ n, n < 32 →
            let sid := s.chip.rdF (Reg.adcPwmsid (n / 4) (n % 4)) 17 0
            Undamaged s.chip (entryAt sid) 8 ∧ ∀ e, Tab.get? s.chip.store.entries sid = some e → e.ue = false) →
          x.store.entries = (storeWrite s.chip (slotCfg s.chip h.lid).outsid ⟨some h.out, ⟨true, false, h.sat, h.fault⟩⟩
            ⟨14, .slot h.lid, none⟩).1.store.entries)) ∧
      (Still s.chip → 9000 < s.chip.tb.phase ∨ s.chip.eng.commitDone = true → exec .resultCommit s = .next s))

/-- With nothing waiting, the commit point of this tick not falling on this very phase, and an agent that may write the word: an SH word of
a powered tile's slot enters the end of the tile's shadow queue, and while 256 wait the word waits with its writer; the SPLOC word, live,
takes its value at once; a CS word 1 to 6 of a slot that does not run and that passes RANGE and PRODUCER takes its bits at once; a CS word
of a running slot whose CS bits would change is refused: the record stays, LTt_CFGERR names code RUNNING, the word and the slot. A CTL word
with EN = 1, for a slot of a powered tile that does not run, within range and passing every check of an enable, takes its CS and LV bits at
once and its SH bits, EN among them, through the queue; a CTL word with EN = 0 that changes no CS bit of a running slot does the same.
FLAGCLR adds its mask to the flag bits that the named slot clears before its next evaluation. INJ_START, INJ_STOP, CAP_ARM and CAP_STOP
enter the end of the tile's shadow queue while fewer than 256 entries wait. Each of these answers a next state that is the old one but for
what is named. Cites 03 R137, 03 R138, 03 R139, 03 R140, 03 R146, 03 R147, 04 R201, 05 R223, 05 R231, 05 R240, 18 R895. -/
def Obligations.SlotRecordWritesByClass : Prop :=
  (∀ (s : State) (who : Agent) (t : Fin 16) (slot : BitVec 8) (v : Word), Still s.chip →
    (s.chip.phaseRead = 2000 → s.chip.eng.pointDone = true) →
    let lid := 256 * t.val + slot.toNat
    let q := shq s.chip t.val
    (∀ w : Fin 32, 8 ≤ w.val → w.val ≤ 29 → tilePowered s.chip t.val = true → MayWrite s.chip who (slotAddr t.val slot.toNat w.val) →
      (q.length < 256 → exec (.slotShWrite who t slot w v) s =
        .next { s with chip := setShq s.chip t.val (q ++ [.word slot.toNat w.val v 0xFFFFFFFF]) }) ∧
      (256 ≤ q.length → exec (.slotShWrite who t slot w v) s = .next { s with chip := { s.chip with
        eng := { s.chip.eng with waits := s.chip.eng.waits ++ [.record (agentSrc who) lid w.val v] } } })) ∧
    (MayWrite s.chip who (slotAddr t.val slot.toNat 7) →
      exec (.slotLvWrite who t slot 7 v) s = .next { s with chip := setRecWord s.chip lid 7 v }) ∧
    (∀ w : Fin 32, 1 ≤ w.val → w.val ≤ 6 → MayWrite s.chip who (slotAddr t.val slot.toNat w.val) →
      (slotRunning s.chip lid = false → wordRangeOk w.val v = true → wordProducerOk s.chip lid w.val v = true →
        exec (.slotCsWrite who t slot w v) s =
          .next { s with chip := setRecWord s.chip lid w.val (merge (recWord s.chip lid w.val) v (wordCs w.val)) }) ∧
      (slotRunning s.chip lid = true → (v ^^^ recWord s.chip lid w.val) &&& wn (wordCs w.val) ≠ 0 →
        Completes (.slotCsWrite who t slot w v) s (fun x => x.eng = s.chip.eng ∧
          x.rd (Reg.ltCfgerr t.val) = wn (2 ^ 28 + w.val * 256 + slot.toNat) ∧ x.rdBit (Reg.ltEvt t.val) 0 = true))) ∧
    (tilePowered s.chip t.val = true → q.length < 256 → MayWrite s.chip who (slotAddr t.val slot.toNat 0) → ctlRangeOk v = true →
      let next := setShq (setRecWord s.chip lid 0 (merge (recWord s.chip lid 0) v (ctlCs + ctlLv))) t.val
        (q ++ [.word slot.toNat 0 v ctlSh])
      (bit v 0 = true → slotRunning s.chip lid = false → enableCheck next lid = 0 →
        exec (.slotEnable who t slot v) s = .next { s with chip := next }) ∧
      (bit v 0 = false → (v ^^^ recWord s.chip lid 0) &&& wn ctlCs = 0 →
        exec (.slotDisable who t slot v) s = .next { s with chip := next }))) ∧
  (
    ∀ (s : State) (who : Agent) (t : Fin 16), Still s.chip → (s.chip.phaseRead = 2000 → s.chip.eng.pointDone = true) →
      let q := shq s.chip t.val
      (∀ v : Word, MayWrite s.chip who (Reg.ltFlagclr t.val) →
        let lid := 256 * t.val + fld v 7 0
        let x := setSlotSt s.chip lid { slotSt s.chip lid with clr := (slotSt s.chip lid).clr ||| fld v 19 8 }
        exec (.flagclr who t v) s = .next { s with chip := x }) ∧
      (MayWrite s.chip who (Reg.ltInjcmd t.val) → q.length < 256 →
        exec (.injStart who t) s = .next { s with chip := setShq s.chip t.val (q ++ [.injStart]) } ∧
        exec (.injStop who t) s = .next { s with chip := setShq s.chip t.val (q ++ [.injStop]) }) ∧
      (MayWrite s.chip who (Reg.ltCapcmd t.val) → q.length < 256 →
        exec (.capArm who t) s = .next { s with chip := setShq s.chip t.val (q ++ [.capArm]) } ∧
        exec (.capStop who t) s = .next { s with chip := setShq s.chip t.val (q ++ [.capStop]) }))

/-- TILE_COMMIT_POINT, while phase 2,000 has not passed and the commit point of this tick is to come: phase is 2,000; every entry of the
store that a tile then reads is the composed read of that entry at this TICK, as it stood before the commit point, unless a write stamped
2,000 or later has frozen the view already; while the loop engine runs and no write waits, the shadow queue of every tile that had power is
empty, and no record write is left for the mirror nor any initialisation due; while it does not run and no write waits, the freeze is the
only effect, which is the model's reading (notes/assumptions/75.md). Once phase 2,000 has passed or the commit point is made, the command
changes nothing, which is the model's choice (notes/assumptions/8.md). With nothing waiting, the commit point not falling on this very
phase, and an agent that may write the tile's register: INJ_START, INJ_STOP, CAP_ARM and CAP_STOP, while the tile's shadow queue is full,
wait with their writer and change nothing else; FLAGCLR leaves what LTt_SLOTST shows of the slot, and every other slot's state. Cites 01
R47, 03 R136, 03 R137, 03 R141, 03 R166, 05 R223, 05 R231, 04 R201, 04 R207. -/
def Obligations.CommitPointTakesTheStoreAndTuning : Prop :=
  (
    ∀ s : State,
      (s.chip.tb.phase ≤ 2000 → s.chip.eng.pointDone = false → Completes .tileCommitPoint s (fun x =>
        x.tb.phase = 2000 ∧ x.tb.tick = s.chip.tb.tick ∧ x.eng.pointDone = true ∧
        (s.chip.store.froze = false → ∀ sid e, Tab.get? s.chip.store.entries sid = some e → frozenRead x sid = s.chip.storeRead sid) ∧
        (s.chip.store.froze = true → x.store.frozen = s.chip.store.frozen) ∧
        (s.chip.engineRuns = true → s.chip.eng.waits = [] →
          (∀ t, t < 16 → tilePowered s.chip t = true → shq x t = []) ∧ x.eng.dirty = [] ∧ x.eng.initNext = []))) ∧
      (s.chip.tb.phase ≤ 2000 → s.chip.eng.pointDone = false → Still s.chip → s.chip.engineRuns = false → s.chip.eng.waits = [] →
        exec .tileCommitPoint s = .next { s with chip := { s.chip with
          tb := { s.chip.tb with phase := 2000 }
          store := (freezeStore s.chip).store
          eng := { s.chip.eng with
            dueAll := []
            pointDone := true } } }) ∧
      (Still s.chip → 2000 < s.chip.tb.phase ∨ s.chip.eng.pointDone = true → exec .tileCommitPoint s = .next s)) ∧
  (
    ∀ (s : State) (who : Agent) (t : Fin 16), Still s.chip → (s.chip.phaseRead = 2000 → s.chip.eng.pointDone = true) →
      let q := shq s.chip t.val
      let waits := fun (h : HeldWrite) => { s with chip := { s.chip with eng := { s.chip.eng with waits := s.chip.eng.waits ++ [h] } } }
      (MayWrite s.chip who (Reg.ltInjcmd t.val) → 256 ≤ q.length →
        exec (.injStart who t) s = .next (waits (.tune (agentSrc who) t.val false 1)) ∧
        exec (.injStop who t) s = .next (waits (.tune (agentSrc who) t.val false 2))) ∧
      (MayWrite s.chip who (Reg.ltCapcmd t.val) → 256 ≤ q.length →
        exec (.capArm who t) s = .next (waits (.tune (agentSrc who) t.val true 1)) ∧
        exec (.capStop who t) s = .next (waits (.tune (agentSrc who) t.val true 2))) ∧
      (∀ v : Word, MayWrite s.chip who (Reg.ltFlagclr t.val) → ∃ x, exec (.flagclr who t v) s = .next x ∧
        slotBytes (slotSt x.chip (256 * t.val + fld v 7 0)) = slotBytes (slotSt s.chip (256 * t.val + fld v 7 0)) ∧
        (∀ lid, lid ≠ 256 * t.val + fld v 7 0 → slotSt x.chip lid = slotSt s.chip lid) ∧
        x = { s with chip := { s.chip with eng := { s.chip.eng with slots := x.chip.eng.slots } } }))

/-- With nothing waiting. COMPARTMENT_RETURN of an IN or SAFE-U compartment of the coach it belongs to, on a port that has block lock: the
copy, padded to 64 bytes, is held for that coach under compartment and ring, unless it is of the previous coach and phase 5,000 has passed;
no other held copy changes; EWN_CRCA or EWN_CRCB of its ring counts one when the CCRC is wrong, and no other register changes. For a
compartment of another kind, or with no such coach, it changes nothing, and neither it nor COACH_HEADER_RETURN does on a port without block
lock. COACH_HEADER_RETURN with a wrong HCRC counts one in EWN_HCRC and does nothing else, which is the model's choice, as is that the last 8
return times are kept (notes/assumptions/91.md); with a right one no register changes, the copy of the ring in FLAGS.RING is marked as
returned when its TICK is that of the coach on the line, and WRAPA or WRAPB of that ring is noted when it came in on the other ring's port.
That a command which finds nothing to do changes nothing is the model's choice (notes/assumptions/4.md). Cites 01 R49, 06 R276, 06 R277, 07
R337, 06 R296, 20 R879. -/
def Obligations.ReturnedCopiesAreHeld : Prop :=
  ∀ s : State, Still s.chip →
    (∀ (ofPrev : Bool) (ring : Fin 2) (own : Bool) (comp : Nat) (b : List Byte) (c : Coach), hears s.chip ring.val own = true →
      (if ofPrev then s.chip.ewn.prev else s.chip.ewn.now) = some c →
      let cfg := Tab.get ⟨0, 0⟩ s.chip.ewn.comps comp
      let counter := if ring.val = 0 then Reg.ewnCrca else Reg.ewnCrcb
      (cfg.kind = 2 ∨ cfg.kind = 4 → ∃ t, exec (.compartmentReturn ofPrev ⟨ring, own⟩ comp b) s = .next t ∧
        t = { s with chip := { s.chip with
          regs := t.chip.regs
          ewn := { s.chip.ewn with
            retPrev := t.chip.ewn.retPrev
            retNow := t.chip.ewn.retNow } } } ∧
        (let held := fun (x : Chip) => if ofPrev then x.ewn.retPrev else x.ewn.retNow
         let other := fun (x : Chip) => if ofPrev then x.ewn.retNow else x.ewn.retPrev
         (ofPrev = false ∨ s.chip.tb.phase ≤ 5000 → Tab.get? (held t.chip) (2 * comp + ring.val) = some (padTo 64 b)) ∧
           (ofPrev = true → 5000 < s.chip.tb.phase → held t.chip = held s.chip) ∧ other t.chip = other s.chip ∧
           ∀ k, k ≠ 2 * comp + ring.val → Tab.get? (held t.chip) k = Tab.get? (held s.chip) k) ∧
        t.chip.rd counter = s.chip.rd counter +
          (if leAt (padTo 64 b) 60 4 = crc32c (leBytes 2 comp ++ leBytes 2 (c.tick % 65536) ++ sliceB (padTo 64 b) 0 60) then 0 else 1) ∧
        KeepsRegsBut [counter] s.chip t.chip) ∧
      (cfg.kind ≠ 2 → cfg.kind ≠ 4 → exec (.compartmentReturn ofPrev ⟨ring, own⟩ comp b) s = .next s)) ∧
    (∀ (ofPrev : Bool) (ring : Fin 2) (own : Bool) (comp : Nat) (b : List Byte),
      (if ofPrev then s.chip.ewn.prev else s.chip.ewn.now) = none ∨ hears s.chip ring.val own = false → exec (.compartmentReturn ofPrev ⟨ring, own⟩ comp b) s = .next s) ∧
    (∀ (own : Bool) (b : List Byte) (time : Nat),
      let ringB := natBit (leAt (padTo 64 b) 1 1) 1
      (hears s.chip (b2n ringB) own = false → exec (.coachHeaderReturn own b time) s = .next s) ∧
      (hears s.chip (b2n ringB) own = true →
      (leAt (padTo 64 b) 60 4 ≠ crc32c ((padTo 64 b).take 60) →
        exec (.coachHeaderReturn own b time) s = .next { s with chip := s.chip.bump Reg.ewnHcrc }) ∧
      (leAt (padTo 64 b) 60 4 = crc32c ((padTo 64 b).take 60) → ∃ t, exec (.coachHeaderReturn own b time) s = .next t ∧
        let back := s.chip.ewn.now.any (fun c => leAt (padTo 64 b) 4 6 == c.tick)
        t = { s with chip := { s.chip with ewn := t.chip.ewn } } ∧
        (ringB = false → t.chip.ewn.hdrA = (s.chip.ewn.hdrA || back) ∧ t.chip.ewn.wrapA = (s.chip.ewn.wrapA || !own) ∧
          t.chip.ewn.retA = (time :: s.chip.ewn.retA).take 8 ∧ t.chip.ewn.hdrB = s.chip.ewn.hdrB ∧ t.chip.ewn.wrapB = s.chip.ewn.wrapB) ∧
        (ringB = true → t.chip.ewn.hdrB = (s.chip.ewn.hdrB || back) ∧ t.chip.ewn.wrapB = (s.chip.ewn.wrapB || !own) ∧
          t.chip.ewn.retB = (time :: s.chip.ewn.retB).take 8 ∧ t.chip.ewn.hdrA = s.chip.ewn.hdrA ∧ t.chip.ewn.wrapA = s.chip.ewn.wrapA))))

/-- For one IN or SAFE-U compartment of the previous coach, of the timetable in force and with no swap done: it lands as one P0 transaction
of the ring A copy when that is valid, else of the ring B copy when that is valid; two valid copies that differ count one in EWN_DIVCNT,
with EWN_DIVLAST naming the compartment; with no valid copy, EWN_MISSCNT counts one, EWN_MISSLAST holds the highest cause among the copies,
or NOCOPY in BREAK when one copy is not back and the other came unwritten, and the compartment, EWN_EVT.MISS is set, and the store does not
change. LANDING, while phase 5,800 has not passed, lands every such compartment in the order of the timetable: the store's entries
afterwards are those that these landings leave, phase is between 5,000 and 5,800 unless it was later, and no copy is held any more. Once
phase 5,800 has passed the command changes nothing, which is the model's choice (notes/assumptions/8.md). The order of the causes and the
NOCOPY of BREAK are the model's reading (notes/assumptions/81.md). Cites 06 R276, 06 R277, 07 R338, 07 R340, 01 R49. -/
def Obligations.LandingPrefersRingA : Prop :=
  (∀ (s : Chip) (c : Coach) (comp : Nat) (cfg : CompCfg), s.rst.swapped = false → c.ttver = (s.rd Reg.ewnTtver).toNat →
    let a := Tab.get? s.ewn.retPrev (2 * comp)
    let b := Tab.get? s.ewn.retPrev (2 * comp + 1)
    let cause := fun (x : Option (List Byte)) => (x.map (copyCause comp c.tick c.ttver cfg.owner)).getD 1
    let t := landComp s c comp cfg
    (∀ p, a = some p → cause a = 0 → (cause b ≠ 0 ∨ (b.getD []).take 60 = p.take 60) → t = landOne s c comp cfg 0 p) ∧
    (∀ p q, a = some p → b = some q → cause a = 0 → cause b = 0 → q.take 60 ≠ p.take 60 →
      t = landOne ((((s.bump Reg.ewnDivcnt).wr Reg.ewnDivlast (wn comp)).ewnFlag2 2).odoInc 17 1) c comp cfg 0 p) ∧
    (∀ q, b = some q → cause a ≠ 0 → cause b = 0 → t = landOne s c comp cfg 1 q) ∧
    (cause a ≠ 0 → cause b ≠ 0 →
      let bare := fun (x : Option (List Byte)) => cause x = 3 ∧ leAt (x.getD []) 56 1 = 0
      t.store = s.store ∧ t.rd Reg.ewnMisscnt = s.rd Reg.ewnMisscnt + 1 ∧
      t.rd Reg.ewnMisslast = wn ((if s.rdBit Reg.ewnSurvstat 2 = true ∧ (cause a = 1 ∧ bare b ∨ cause b = 1 ∧ bare a) then 1
        else max (cause a) (cause b)) * 2 ^ 28 + comp) ∧ t.rdBit Reg.ewnEvt 0 = true)) ∧
  (∀ s : State,
    (∀ c, s.chip.tb.phase ≤ 5800 → s.chip.ewn.prev = some c → Completes .landing s (fun x =>
      x.ewn.retPrev = [] ∧ 5000 ≤ x.tb.phase ∧ x.tb.phase ≤ 5800 ∧
      x.store.entries = (s.chip.ewn.comps.foldl (fun y e => if e.2.kind = 2 ∨ e.2.kind = 4 then landComp y c e.1 e.2 else y)
        { s.chip.atPhase 5000 with ewn := { s.chip.ewn with safeU := [] } }).store.entries)) ∧
    (Still s.chip → 5800 < s.chip.tb.phase → exec .landing s = .next s))

/-- MAIL_WINDOW with a coach on the line: an ENUM that is still to be sent leaves first; at most EWN_MAILCFG.CARRIERS (at most 8) carriers
are granted in the tick, each to a node in mail with the room of CAP reserved for its return, the first to the node that R287 names, which
gets one when the tick has a carrier left, room and line time; and the line is used no further than phase 9,900, the last idle block aside,
unless it already was. With no frame overdue as well: the frames sent leave the front of their queue in order and enter the unacknowledged
list behind those that waited, EWN_MTXCNT counts them, and neither queue is left with a head that may start. Without a coach on the line
nothing leaves, and CST_SEATPEND alone is brought up to date. MAIL_RETRANSMIT, after an ENUM that is still to be sent, acts on the oldest
overdue frame: with retransmissions left and room on the line, EWN_MRETX counts one and only that frame's time and count change in the list;
with none left, for a node 1 to 62, FAILED is set, the node is in FOUND, no frame to it is queued or unacknowledged any more, EWN_MLOST
counts those lost, and EWN_EVT.MAILLOST is set; where it does not fit, or no frame is overdue, it changes nothing more. Cites 06 R283, 06
R284, 06 R285, 06 R286, 06 R287, 07 R311, 19 R844. -/
def Obligations.MailLeavesByCreditAndTime : Prop :=
  ∀ s : State,
    let y := sendEnum s.chip
    (s.chip.ewn.now = none → Completes .mailWindow s (fun x => x = syncSeatPend y)) ∧
    (s.chip.ewn.now ≠ none → Completes .mailWindow s (fun x =>
      (∃ l : List (Nat × Nat), x.ewn.carriers = s.chip.ewn.carriers ++ l ∧
        l.length ≤ min (s.chip.rdF Reg.ewnMailcfg 3 0) 8 - s.chip.ewn.carSent ∧ x.ewn.carSent = s.chip.ewn.carSent + l.length ∧
        (∀ c r, l = c :: r → carrierNext s.chip [] = some c.1) ∧
        (s.chip.ewn.carSent < min (s.chip.rdF Reg.ewnMailcfg 3 0) 8 → carrierFits y = true → carrierNext s.chip [] ≠ none → l ≠ []) ∧
        ∀ c ∈ l, inMail s.chip c.1 = true ∧ c.2 = carrierCap s.chip) ∧
      x.ewn.linePos ≤ max y.ewn.linePos (mailLimit + 8) ∧
      (overdueFrames s.chip = [] → mayStart x [] x.ewn.coreQ = false ∧ mayStart x [] x.ewn.engQ = false ∧ ∃ ca cb : List MailFrame,
        s.chip.ewn.coreQ = ca ++ x.ewn.coreQ ∧ s.chip.ewn.engQ = cb ++ x.ewn.engQ ∧
        x.ewn.unacked.take s.chip.ewn.unacked.length = s.chip.ewn.unacked ∧
        x.ewn.unacked.length = s.chip.ewn.unacked.length + ca.length + cb.length ∧
        x.rd Reg.ewnMtxcnt = s.chip.rd Reg.ewnMtxcnt + wn (ca.length + cb.length)))) ∧
    (overdueFrames s.chip = [] → Completes .mailRetransmit s (fun x => x = syncSeatPend y)) ∧
    (∀ f r, overdueFrames s.chip = f :: r →
      (f.tries < max (s.chip.rdF Reg.ewnMailcfg 23 16) 1 →
        (fitsWindow y f.body.length = false → Completes .mailRetransmit s (fun x => x = syncSeatPend y)) ∧
        (fitsWindow y f.body.length = true → Completes .mailRetransmit s (fun x =>
          x.rd Reg.ewnMretx = s.chip.rd Reg.ewnMretx + 1 ∧
          x.ewn.unacked = s.chip.ewn.unacked.map (fun z => if z = f then { f with
            sent := s.chip.tb.tick
            tries := f.tries + 1 } else z) ∧
          x.ewn.coreQ = s.chip.ewn.coreQ ∧ x.ewn.engQ = s.chip.ewn.engQ))) ∧
      (max (s.chip.rdF Reg.ewnMailcfg 23 16) 1 ≤ f.tries → 1 ≤ f.dst → f.dst ≤ 62 →
        Completes .mailRetransmit s (fun x => x.rdBit (Reg.ewnNmail f.dst) 16 = true ∧ nodeState x f.dst = 1 ∧
          x.ewn.unacked = s.chip.ewn.unacked.filter (fun y => y.dst != f.dst) ∧
          x.ewn.coreQ = s.chip.ewn.coreQ.filter (fun y => y.dst != f.dst) ∧
          x.ewn.engQ = s.chip.ewn.engQ.filter (fun y => y.dst != f.dst) ∧
          x.rd Reg.ewnMlost = s.chip.rd Reg.ewnMlost +
            wn ((s.chip.ewn.unacked ++ s.chip.ewn.coreQ ++ s.chip.ewn.engQ).filter (fun y => y.dst == f.dst)).length ∧
          x.rdBit Reg.ewnEvt 2 = true)))

/-- UPLINK_FRAME for a node to which no carrier is granted leaves the mail sequence state as it is; for one that has a carrier it ends the
reservation of its oldest. A copy that comes in on a port without block lock is not received. With an intact copy that the node filled (ring
A's if both are), whatever the node's STATE: one whose MSEQ is one more than the last accepted makes that MSEQ the last accepted, and
EWN_MRXCNT counts one; with LEN > 0 and another MSEQ, EWN_MDUP counts one and the last accepted MSEQ stays. With no copy so filled and an
intact one that left and came back with SRC 0, EWN_CARRUNUSED counts one. MTXTAIL_WRITE by an agent that may write it: EWN_MTXTAIL takes
bits 15:0; when the bytes up to the tail hold exactly the one entry that starts where the queue ended, that entry joins the core queue; when
they hold less than it, no entry joins; that the tail keeps an offset that is no multiple of 16 is the model's choice
(notes/assumptions/91.md). Cites 06 R280, 06 R282, 06 R285, 06 R288, 06 R290, 06 R299, 20 R879. -/
def Obligations.UplinkAndTransmitQueue : Prop :=
  ∀ s : State,
    (∀ (d : Fin 64) (a b : List Byte) (own : OwnPorts), 1 ≤ d.val → d.val ≤ 62 →
      (carrierOf s.chip d.val = none → Completes (.uplinkFrame d a b own) s (fun x =>
        x.ewn.carriers = s.chip.ewn.carriers ∧ x.ewn.nodes = s.chip.ewn.nodes ∧ x.rd Reg.ewnMrxcnt = s.chip.rd Reg.ewnMrxcnt)) ∧
      (∀ c, carrierOf s.chip d.val = some c →
        let p := heard s.chip 0 own.a a
        let q := heard s.chip 1 own.b b
        let full := fun (ring : Nat) (z : List Byte) => carrierOk c.2 ring z = true ∧ leAt z 1 1 = d.val
        let bare := fun (ring : Nat) (z : List Byte) => carrierOk c.2 ring z = true ∧ leAt z 1 1 = 0
        (¬ full 0 p → ¬ full 1 q → (bare 0 p ∨ bare 1 q) → Completes (.uplinkFrame d a b own) s (fun x =>
          x.ewn.carriers = s.chip.ewn.carriers.erase c ∧
          x.rd Reg.ewnCarrunused = s.chip.rd Reg.ewnCarrunused + 1 ∧ x.ewn.nodes = s.chip.ewn.nodes)) ∧
        (∀ f, full 0 p ∧ f = p ∨ ¬ full 0 p ∧ full 1 q ∧ f = q →
          (leAt f 6 2 = ((nodeSt s.chip d.val).rxSeq + 1) % 65536 →
            Completes (.uplinkFrame d a b own) s (fun x => x.ewn.carriers = s.chip.ewn.carriers.erase c ∧
              (nodeSt x d.val).rxSeq = leAt f 6 2 ∧ x.rd Reg.ewnMrxcnt = s.chip.rd Reg.ewnMrxcnt + 1)) ∧
          (leAt f 6 2 ≠ ((nodeSt s.chip d.val).rxSeq + 1) % 65536 → leAt f 4 2 > 0 →
            Completes (.uplinkFrame d a b own) s (fun x => x.ewn.carriers = s.chip.ewn.carriers.erase c ∧
              x.rd Reg.ewnMdup = s.chip.rd Reg.ewnMdup + 1 ∧ x.ewn.nodes = s.chip.ewn.nodes))))) ∧
    (∀ (who : Agent) (v : Word), MayWrite s.chip who Reg.ewnMtxtail →
      let o := s.chip.ewn.coreEnd
      let f := coreEntry s.chip o
      let size := 16 + pad16 f.body.length
      let room := (v.toNat % 65536 + 65536 - o % 65536) % 65536
      (room = size → Completes (.mtxtailWrite who v) s (fun x => x.rd Reg.ewnMtxtail = wn (v.toNat % 65536) ∧
        x.ewn.coreQ = s.chip.ewn.coreQ ++ [f] ∧ x.ewn.coreEnd = (o + size) % 65536)) ∧
      (room < size → Completes (.mtxtailWrite who v) s (fun x => x.rd Reg.ewnMtxtail = wn (v.toNat % 65536) ∧
        x.ewn.coreQ = s.chip.ewn.coreQ ∧ x.ewn.coreEnd = o)))

/-- SURVEY_ROUND_START in the first tick of a round, with a coach on the line, the ENUM not yet sent and no timetable to send again: SSEQ
advances by one modulo 2^16 and one ENUM packet leaves on each ring; in another tick, or when it has been sent, nothing changes, which is
the model's choice (notes/assumptions/4.md). A copy that comes in on a port without block lock is not received. ENUM_RETURN within a round:
a node is found by two valid copies alone; every node 1 to 62 that is not found is ABSENT; a found one in MAIL or SEAT stays; any other
found one is in MAIL when it is identified and not excluded, else FOUND; the found nodes are remembered. DELAY_RETURN in the second or third
tick: EWN_RTA and EWN_RTB hold the averages of the last 8 round trips, rounded as the model chooses (notes/assumptions/33.md), RTLONG tells
whether one exceeds 48,000 units of 0.125 ns; with both copies valid and written by every found node, each found node's two delays of this
round stand first among its last 8; and a node 1 to 62 in SEAT with a cause of departure found in the round is in MAIL, while every other
keeps its state. Cites 07 R308, 07 R312, 07 R313, 07 R314, 07 R316, 07 R324, 07 R326, 07 R349, 20 R879. -/
def Obligations.SurveyRoundFindsAndMeasures : Prop :=
  ∀ s : State,
    (Still s.chip → s.chip.hst.resend = [] →
      (s.chip.ewn.stage = 1 → s.chip.ewn.sent = false → s.chip.ewn.now ≠ none → ∃ t, exec .surveyRoundStart s = .next t ∧
        t = { s with chip := { s.chip with ewn := t.chip.ewn } } ∧ t.chip.ewn.sent = true ∧
        t.chip.ewn.sseq = (s.chip.ewn.sseq + 1) % 65536 ∧
        ∃ a b, t.chip.ewn.wire = s.chip.ewn.wire ++ [(0, 0xE8, a), (1, 0xE8, b)] ∧ a.length = 1012 ∧ b.length = 1012) ∧
      (s.chip.ewn.stage ≠ 1 ∨ s.chip.ewn.sent = true → exec .surveyRoundStart s = .next s)) ∧
    (∀ (a b : List Byte) (own : OwnPorts), s.chip.ewn.stage ≠ 0 →
      let a' := heard s.chip 0 own.a a
      let b' := heard s.chip 1 own.b b
      Completes (.enumReturn a b own) s (fun x => x.ewn.found = nodeNums.filter (isFound a' b') ∧
        (surveyOk 0 992 a' = false ∨ surveyOk 1 992 b' = false → x.ewn.found = []) ∧
        ∀ d, 1 ≤ d → d ≤ 62 → nodeState x d = (if isFound a' b' d = false then 0
          else if nodeState s.chip d ≥ 2 then nodeState s.chip d
          else if identified s.chip a' b' d = true ∧ s.chip.rdBit (Reg.ewnNctl d) 1 = false then 2 else 1))) ∧
    (∀ (a b : List Byte) (own : OwnPorts) (depA depB rtA rtB : Word), s.chip.ewn.stage = 2 ∨ s.chip.ewn.stage = 3 →
      (∀ d ∈ s.chip.ewn.found, 1 ≤ d ∧ d ≤ 62) → s.chip.ewn.found.Nodup →
      Completes (.delayReturn a b own depA depB rtA rtB) s (fun x =>
        let a' := heard s.chip 0 own.a a
        let b' := heard s.chip 1 own.b b
        let ra := avgNat ((rtA.toNat :: s.chip.ewn.hisRtA).take 8)
        let rb := avgNat ((rtB.toNat :: s.chip.ewn.hisRtB).take 8)
        x.rd Reg.ewnRta = wn (ra % 65536) ∧ x.rd Reg.ewnRtb = wn (rb % 65536) ∧
        x.rdBit Reg.ewnSurvstat 4 = (decide (ra > 48000) || decide (rb > 48000)) ∧
        (surveyOk 0 496 a' = true → surveyOk 1 496 b' = true →
          (∀ d ∈ s.chip.ewn.found, (delayEntry a' d).written = true ∧ (delayEntry b' d).written = true) →
          ∀ d ∈ s.chip.ewn.found,
            let n := nodeDelays a' b' s.chip.ewn.found rtA.toNat depA.toNat depB.toNat d
            (nodeSt x d).hisA = (n.1 :: (nodeSt s.chip d).hisA).take 8 ∧ (nodeSt x d).hisB = (n.2 :: (nodeSt s.chip d).hisB).take 8) ∧
        ∀ d, 1 ≤ d → d ≤ 62 → nodeState x d = (if nodeState s.chip d = 3 ∧ delayCauses x d ≠ [] then 2 else nodeState s.chip d)))

/-- COACH_CUT, after boot, while phase 9,500 has not passed and no coach has been cut in this tick, with no commit that has swapped: there
is a coach for TICK + 1 whose ADMIT names exactly the nodes 1 to 62 in SEAT; a node in MAIL that meets every condition of R325 and has not
left SEAT since the last cut is in SEAT afterwards; a node in SEAT with EXCLUDE = 1 is in MAIL; every other node 1 to 62 keeps its state;
that a node keeps its mail with EXCLUDE is the model's reading (notes/assumptions/81.md). In a warm restart no node changes its state, and
the coach has the ADMIT of the one on the line. Once a coach is cut, or phase 9,500 has passed, the command changes nothing, which is the
model's choice (notes/assumptions/4.md, notes/assumptions/8.md). RX_BLOCK_LOCK_LOSS with a coach on the line and BREAK = 0: the port's lock
is lost, BREAK is 1, EWN_BRKCNT counts one, EWN_EVT2.BREAK is set, a survey round is triggered and the run of clean ticks starts anew; with
BREAK = 1 already or no coach, only the lock and that run change. RX_BLOCK_LOCK_REGAINED only restores the lock. BREAK_HEAL with BREAK = 1,
block lock on both ports and 1,000 clean ticks: BREAK is 0, EWN_EVT2.HEAL is set and a survey round is triggered; otherwise nothing changes.
NCTL_READMIT lifts the bar on the node's seat and changes no register; NCTL_EXCLUDE changes bit 1 of the node's control register and nothing
else, both by an agent that may write it, with nothing waiting. Cites 01 R50, 06 R265, 07 R324, 07 R325, 07 R351, 06 R256, 07 R337, 07 R312,
07 R330. -/
def Obligations.BreaksAndSeats : Prop :=
  (
    ∀ s : State,
      (s.chip.booted = true → s.chip.tb.phase ≤ 9500 → s.chip.ewn.next = none → s.chip.rst.swapped = false →
        s.chip.rdBit Reg.sysStat 1 = false →
        Completes .coachCut s (fun x => x.tb.phase = 9500 ∧ x.ewn.leftSeat = [] ∧
          (∃ c, x.ewn.next = some c ∧ c.tick = (s.chip.tb.tick + 1) % 2 ^ 48 ∧
            ∀ d, 1 ≤ d → d ≤ 62 → (d ∈ c.admits ↔ nodeState x d = 3)) ∧
          ∀ d, 1 ≤ d → d ≤ 62 → nodeState x d =
            (if nodeState s.chip d = 2 ∧ seatOk s.chip d = true ∧ d ∉ s.chip.ewn.leftSeat then 3
             else if nodeState s.chip d = 3 ∧ s.chip.rdBit (Reg.ewnNctl d) 1 = true then 2 else nodeState s.chip d))) ∧
      (s.chip.booted = true → s.chip.tb.phase ≤ 9500 → s.chip.ewn.next = none → s.chip.rst.swapped = false →
        s.chip.rdBit Reg.sysStat 1 = true →
        Completes .coachCut s (fun x => x.tb.phase = 9500 ∧ (∀ d, nodeState x d = nodeState s.chip d) ∧
          ∃ c, x.ewn.next = some c ∧ c.tick = (s.chip.tb.tick + 1) % 2 ^ 48 ∧
            c.admits = (match s.chip.ewn.now with
              | some p => p.admits
              | none => []))) ∧
      (Still s.chip → s.chip.tb.phase > 9500 ∨ s.chip.ewn.next ≠ none → exec .coachCut s = .next s)) ∧
  (
    ∀ s : State,
      (∀ ring : Fin 2,
        let lock := fun (e : Ewene) => if ring.val = 0 then e.lockA else e.lockB
        (s.chip.ewn.now ≠ none → s.chip.rdBit Reg.ewnSurvstat 2 = false → Completes (.rxBlockLockLoss ring) s (fun x =>
          lock x.ewn = false ∧ x.rdBit Reg.ewnSurvstat 2 = true ∧ x.rd Reg.ewnBrkcnt = s.chip.rd Reg.ewnBrkcnt + 1 ∧
          x.rdBit Reg.ewnEvt2 0 = true ∧ x.ewn.trigger = true ∧ x.ewn.breakAt = s.chip.tb.tick ∧ x.ewn.clean = 0)) ∧
        (Still s.chip → s.chip.ewn.now = none ∨ s.chip.rdBit Reg.ewnSurvstat 2 = true →
          exec (.rxBlockLockLoss ring) s = .next { s with chip := { s.chip with
            ewn := if ring.val = 0 then { s.chip.ewn with lockA := false } else { s.chip.ewn with lockB := false } } }) ∧
        (Still s.chip → exec (.rxBlockLockRegained ring) s = .next { s with chip := { s.chip with
            ewn := if ring.val = 0 then { s.chip.ewn with lockA := true } else { s.chip.ewn with lockB := true } } })) ∧
      (s.chip.rdBit Reg.ewnSurvstat 2 = true → 1000 ≤ s.chip.ewn.clean → s.chip.ewn.lockA = true →
        s.chip.ewn.lockB = true → Completes .breakHeal s (fun x =>
        x.rdBit Reg.ewnSurvstat 2 = false ∧ x.rdBit Reg.ewnEvt2 1 = true ∧ x.ewn.trigger = true)) ∧
      (Still s.chip → s.chip.rdBit Reg.ewnSurvstat 2 = false ∨ s.chip.ewn.clean < 1000 ∨ s.chip.ewn.lockA = false ∨
        s.chip.ewn.lockB = false → exec .breakHeal s = .next s) ∧
      (∀ (who : Agent) (d : Fin 64), 1 ≤ d.val → d.val ≤ 62 → Still s.chip → MayWrite s.chip who (Reg.ewnNctl d.val) →
        (∃ t, exec (.nctlReadmit who d) s = .next t ∧ KeepsRegsBut [] s.chip t.chip ∧
          t = { s with chip := { s.chip with
            regs := t.chip.regs
            ewn := { s.chip.ewn with nodes := t.chip.ewn.nodes } } } ∧
          nodeSt t.chip d.val = { nodeSt s.chip d.val with barred := false } ∧
          ∀ e, e ≠ d.val → nodeSt t.chip e = nodeSt s.chip e) ∧
        ∀ on, exec (.nctlExclude who d on) s = .next { s with chip := s.chip.wrBit (Reg.ewnNctl d.val) 1 on }))

/-- CAN_TXREQ by an agent that may write it: the named buffers that are requestable (channel on, not listening, SCHED = 0, neither pending
nor on the bus) are appended to the pending ones in rising order with their words copied, and nothing on the bus changes; where one is not
requestable, CANn_CFGERR names code BUSY and the register and CANn_EVT.CFG is set. CAN_TXABORT takes the named pending buffers out, each
with RESULT 3 ABORTED, and marks a named one on the bus as not to be retransmitted. CAN_RELEASE of an entry of this column, with the channel
on and CORE not held in reset, at its release phase and after the commit of phase 9,000 where that phase then stands: under LISTEN nothing
is packed, the pending buffers stay and RESULT is 7 OFF; else a busy buffer counts one in CANn_TXSKIP and the pending ones stay; else the
buffer is packed, and in bus-off the pending ones stay and RESULT is 4 BUSOFF, otherwise it is appended as scheduled, with the time of its
release phase and its window; both exits count one unit issued and one retired in the ledgers of the channel. An entry of another column, or
on a channel that is off, changes nothing, which is the model's choice (notes/assumptions/4.md). CAN_WINDOW_EXPIRY withdraws a released
buffer whose window has closed, with RESULT 2 LATE and CANn_TXLATE counting one. Cites 08 R366, 08 R367, 08 R369, 08 R370, 08 R371, 08 R373,
08 R374, 08 R377, 01 R51. -/
def Obligations.CanRequestsAbortsAndReleases : Prop :=
  ∀ (s : State) (n : Fin 8),
    let c := canSt s.chip n.val
    (∀ (who : Agent) (hi : Bool) (mask : Word), MayWrite s.chip who (if hi then Reg.canTxreq1 n.val else Reg.canTxreq0 n.val) →
      let named := ((List.range 32).filter (fun j => bit mask j)).map (fun j => j + 32 * b2n hi)
      let ok := fun (b : Nat) => canOn s.chip n.val && !s.chip.rdBit (Reg.canCtl n.val) 3 && !bufSched s.chip n.val b && !bufBusy s.chip n.val b
      Completes (.canTxreq who n hi mask) s (fun x => (canSt x n.val).bus = c.bus ∧
        (canSt x n.val).pend = c.pend ++ (named.filter ok).map (fun b => ⟨b, false, 0, 0, bufWords s.chip n.val b, none, false⟩) ∧
        ((∃ b ∈ named, ok b = false) → x.rd (Reg.canCfgerr n.val) = wn (3 * 2 ^ 28 + (if hi then 0x1C else 0x18)) ∧
          x.rdBit (Reg.canEvt n.val) 9 = true))) ∧
    (∀ (who : Agent) (hi : Bool) (mask : Word), MayWrite s.chip who (if hi then Reg.canTxabort1 n.val else Reg.canTxabort0 n.val) →
      let named := fun (b : Nat) => decide (b / 32 = b2n hi) && bit mask (b % 32)
      let waits := fun (b : Nat) => c.pend.any (fun p => p.buf == b)
      Completes (.canTxabort who n hi mask) s (fun x => (canSt x n.val).pend = c.pend.filter (fun p => !named p.buf) ∧
        (canSt x n.val).bus = c.bus.map (fun p => if named p.buf && !waits p.buf then { p with quit := true } else p) ∧
        ∀ b, named b = true → waits b = true → x.rdF (canBase n.val + 0x2000 + 0x80 * b + 76) 15 0 = 3)) ∧
    (∀ j : Fin 256,
      let w0 := canWord s.chip n.val (0x6000 + 8 * j.val)
      let w1 := canWord s.chip n.val (0x6000 + 8 * j.val + 4)
      let b := fld w0 21 16
      let due := canOn s.chip n.val = true ∧ j.val < s.chip.rdF (Reg.canSchcfg n.val) 16 8 ∧ canColumn s.chip n.val = fld w0 9 0 ∧
        s.chip.rst.inCore = false
      let z := commitDue (s.chip.atPhase (fld w1 13 0))
      let s0 := z.atPhase (fld w1 13 0)
      let retired := fun (x : Chip) (code : Nat) => (canSt x n.val).pend = (canSt z n.val).pend ∧
        x.rdF (canBase n.val + 0x2000 + 0x80 * b + 76) 15 0 = code ∧
        x.ledGet (8 + n.val) 0 = (z.ledGet (8 + n.val) 0 + 1) % 2 ^ 64 ∧
        x.ledGet (8 + n.val) (canExit code) = (z.ledGet (8 + n.val) (canExit code) + 1) % 2 ^ 64
      (due → z.rdBit (Reg.canCtl n.val) 3 = true → Completes (.canRelease n j) s (fun x => retired x 7 ∧
        bufWords x n.val b = bufWords z n.val b)) ∧
      (due → z.rdBit (Reg.canCtl n.val) 3 = false →
        (bufBusy z n.val b = true → Completes (.canRelease n j) s (fun x => x.can = z.can ∧
          x.rd (Reg.canTxskip n.val) = z.rd (Reg.canTxskip n.val) + 1)) ∧
        (bufBusy z n.val b = false → canBusState z n.val = 3 → Completes (.canRelease n j) s (fun x => retired x 4 ∧
          bufWords x n.val b = bufWords (packBuffer s0 n.val b) n.val b)) ∧
        (bufBusy z n.val b = false → canBusState z n.val ≠ 3 → Completes (.canRelease n j) s (fun x =>
          (canSt x n.val).bus = (canSt z n.val).bus ∧
          (canSt x n.val).pend = (canSt z n.val).pend ++ [⟨b, true, s0.nowNs, fld w1 27 16, bufWords (packBuffer s0 n.val b) n.val b, none, false⟩]))) ∧
      (Still s.chip → ¬ due → exec (.canRelease n j) s = .next s)) ∧
    (∀ (b : Fin 64) (ph : Phase) (p : CanPend), c.pend.find? (fun q => q.buf == b.val) = some p → p.sched = true →
      p.rel + 1000 * p.win ≤ (s.chip.atPhase ph.val).nowNs → Completes (.canWindowExpiry n b ph) s (fun x =>
        (canSt x n.val).pend = c.pend.filter (fun q => q.buf != b.val) ∧ x.rd (Reg.canTxlate n.val) = s.chip.rd (Reg.canTxlate n.val) + 1 ∧
        x.rdF (canBase n.val + 0x2000 + 0x80 * b.val + 76) 15 0 = 2))

/-- CAN_FRAME_VALID on a channel in error-active or error-passive state, with no frame of its own on the bus, and FD frames only under FDEN
and with a dominant res bit: with no filter that takes the frame, CANn_RXNOMATCH counts one and CANn_RXTAIL stays. Otherwise CANn_RXCNT
counts one. With ACT 1 or 3 of the lowest filter that takes it: while the FIFO is not full, the tail advances by one modulo 128 and the
entry at the old tail holds the identifier word, the tick of the start of frame and the data; while it is full, CANn_RXLOST counts one, the
tail stays and CANn_EVT.RXLOST is set. With ACT 0 or 1 the store does not change. An FD frame under FDEN = 0, or with a recessive res bit
and PXHD = 0, is a form error: CANn_BUSERR counts one, LEC is 2 and the receive counts and the store stay; with a recessive res bit and PXHD
= 1 the channel waits for the bus to be idle again and nothing else changes but the phase. What FDEN, the res bit and PXHD do to an FD frame
is taken from ISO 11898-1, which the spec names (notes/assumptions/34.md). On a channel in any other state nothing changes.
CAN_START_OF_FRAME on a channel that may transmit, won: one pending buffer that may arbitrate goes on the bus, stamped with TICK, and leaves
the pending ones; its arbitration key is no higher than that of any other pending buffer that may arbitrate, and among equal keys its buffer
number is the lowest. With no buffer that may arbitrate, or on a channel that may not transmit, nothing changes. CAN_FRAME_END with a buffer
0 to 63 on the bus: the bus is free, RESULT is 1 SENT, CANn_TXSENT counts one, CANn_EVT.TXSENT is set, TEC is one less (0 stays 0), and the
pending buffers stay; with nothing of its own on the bus, nothing changes. That a command which finds nothing to do changes nothing is the
model's choice (notes/assumptions/4.md). Cites 08 R352, 08 R354, 08 R359, 08 R360, 08 R361, 08 R363, 08 R384, 08 R357, 08 R366, 08 R368, 08
R369, 08 R381. -/
def Obligations.CanFiltersAndArbitration : Prop :=
  (
    ∀ (s : State) (n : Fin 8) (ph : Phase) (f : CanFrame),
      let a := canBase n.val
      let hears := (canBusState s.chip n.val = 1 ∨ canBusState s.chip n.val = 2) ∧ (canSt s.chip n.val).bus = none
      let fden := s.chip.rdBit (Reg.canCtl n.val) 2 = true
      let pxhd := s.chip.rdBit (Reg.canCtl n.val) 6 = true
      let open_ := hears ∧ (bit f.id 30 = true → fden ∧ f.res = false)
      (open_ → takingFilter s.chip n.val f.id = none → Completes (.canFrameValid n ph f) s (fun x =>
        x.rd (Reg.canRxnomatch n.val) = s.chip.rd (Reg.canRxnomatch n.val) + 1 ∧ x.rd (Reg.canRxtail n.val) = s.chip.rd (Reg.canRxtail n.val) ∧
        x.store = s.chip.store)) ∧
      (open_ → ∀ i, takingFilter s.chip n.val f.id = some i →
        (∀ j, j < i → filterTakes s.chip n.val f.id j = false) ∧
        let act := fld (canWord s.chip n.val (0x1008 + 16 * i)) 5 4
        let tail := s.chip.rdF (Reg.canRxtail n.val) 6 0
        let e := a + 0x4000 + 80 * (tail % 64)
        Completes (.canFrameValid n ph f) s (fun x =>
          x.rd (Reg.canRxcnt n.val) = s.chip.rd (Reg.canRxcnt n.val) + 1 ∧
          (act = 1 ∨ act = 3 → fifoFull s.chip n.val = false → x.rdF (Reg.canRxtail n.val) 6 0 = (tail + 1) % 128 ∧
            x.rd (e + 8) = f.id ∧ x.rd e = wn f.sofTick.toNat ∧
            ∀ k, k < 16 → x.rd (e + 16 + 4 * k) = wn (leAt (f.data.take 64) (4 * k) 4)) ∧
          (act = 1 ∨ act = 3 → fifoFull s.chip n.val = true → x.rd (Reg.canRxtail n.val) = s.chip.rd (Reg.canRxtail n.val) ∧
            x.rd (Reg.canRxlost n.val) = s.chip.rd (Reg.canRxlost n.val) + 1 ∧ x.rdBit (Reg.canEvt n.val) 1 = true) ∧
          (act = 0 ∨ act = 1 → x.store = s.chip.store))) ∧
      (hears → bit f.id 30 = true → ¬ fden ∨ (f.res = true ∧ ¬ pxhd) → Completes (.canFrameValid n ph f) s (fun x =>
        x.rd (Reg.canBuserr n.val) = s.chip.rd (Reg.canBuserr n.val) + 1 ∧ x.rdF (Reg.canStat n.val) 29 27 = 2 ∧
        x.rd (Reg.canRxcnt n.val) = s.chip.rd (Reg.canRxcnt n.val) ∧ x.store = s.chip.store)) ∧
      (hears → bit f.id 30 = true → fden → f.res = true → pxhd → Completes (.canFrameValid n ph f) s (fun x =>
        canSt x n.val = { canSt s.chip n.val with joined := false } ∧ canBusState x n.val = 0 ∧
        KeepsRegsBut [Reg.canStat n.val] s.chip x ∧ x.store = s.chip.store)) ∧
      (Still s.chip → ¬ hears → exec (.canFrameValid n ph f) s = .next s)) ∧
  (
    ∀ (s : State) (n : Fin 8) (ph : Phase),
      let s0 := s.chip.atPhase ph.val
      let c := canSt s.chip n.val
      let ready := c.pend.filter (mayArbitrate s0 n.val)
      (mayTransmit s0 n.val = true → ready ≠ [] → Completes (.canStartOfFrame n ph true) s (fun x => ∃ p ∈ ready,
        (canSt x n.val).bus = some { p with sof := some s.chip.tb.tick } ∧ (canSt x n.val).pend = c.pend.filter (fun q => q.buf != p.buf) ∧
        ∀ q ∈ ready, arbKey (p.words.headD 0) < arbKey (q.words.headD 0) ∨
          (arbKey (p.words.headD 0) = arbKey (q.words.headD 0) ∧ p.buf ≤ q.buf))) ∧
      (Still s.chip → mayTransmit s0 n.val = false ∨ ready = [] → ∀ won, exec (.canStartOfFrame n ph won) s = .next s) ∧
      (∀ (p : CanPend) (tdcv : BitVec 8), c.bus = some p → p.buf < 64 → Completes (.canFrameEnd n ph tdcv) s (fun x =>
        (canSt x n.val).bus = none ∧ (canSt x n.val).pend = c.pend ∧ (canSt x n.val).tec = c.tec - 1 ∧
        x.rdF (canBase n.val + 0x2000 + 0x80 * p.buf + 76) 15 0 = 1 ∧
        x.rd (Reg.canTxsent n.val) = s.chip.rd (Reg.canTxsent n.val) + 1 ∧ x.rdBit (Reg.canEvt n.val) 2 = true)) ∧
      (Still s.chip → c.bus = none → ∀ tdcv : BitVec 8, exec (.canFrameEnd n ph tdcv) s = .next s))

/-- CAN_BUS_ERROR on a channel in error-active or error-passive state: TEC and REC move as the counting rule says. For an error in a frame
CANn_BUSERR counts one, LEC holds the code and nothing of its own is on the bus; for a bit error in its own flag BUSERR counts one too; for
a dominant bit behind its flag or a run of dominant bits it does not. When TEC then exceeds 255 no buffer is pending and CANn_BOFFCNT counts
one. In any other state nothing changes. BUSOFF_RECOVERY of a bus-off channel, automatic or with RECOVER written, sets TEC and REC to 0;
otherwise nothing changes. CAN_RECOVER marks a bus-off channel as recovering. CAN_BUS_INTEGRATION joins a channel that is on and has not
joined, while CORE is not held in reset, and changes no other channel state. CAN_ON_WRITE, by an agent that may write it: turning on changes
nothing of the channel but ON, so that a frame of its own still on the bus runs to its end, unless the supply-sag stage in force sheds it,
which leaves it off the bus; turning off retires every pending buffer, leaves a frame on the bus there, and with none there leaves the
channel off. How ON meets a frame still on the bus is the model's reading (notes/assumptions/35.md). That a command which finds nothing to
do changes nothing is the model's choice (notes/assumptions/4.md). The counting rule is that of ISO 11898-1, which the spec names
(notes/assumptions/34.md). Cites 08 R376, 08 R377, 08 R378, 08 R381, 08 R382, 08 R384, 08 R369. -/
def Obligations.CanErrorCountersAndBusOff : Prop :=
  ∀ (s : State) (n : Fin 8),
    let c := canSt s.chip n.val
    let st := canBusState s.chip n.val
    (∀ (ph : Phase) (code : Fin 8) (kind : CanErr) (tdcv : Option (BitVec 8)), st = 1 ∨ st = 2 →
      Completes (.canBusError n ph code kind tdcv) s (fun x =>
        let c1 := canCount c code.val kind
        (canSt x n.val).tec = c1.tec ∧ (canSt x n.val).recv = c1.recv ∧
        (255 < c1.tec → (canSt x n.val).pend = [] ∧ (canSt x n.val).bus = none ∧
          x.rd (Reg.canBoffcnt n.val) = s.chip.rd (Reg.canBoffcnt n.val) + 1) ∧
        (match kind with
          | .frame _ _ => x.rd (Reg.canBuserr n.val) = s.chip.rd (Reg.canBuserr n.val) + 1 ∧
            x.rdF (Reg.canStat n.val) 29 27 = code.val ∧ (canSt x n.val).bus = none
          | .flagBit => x.rd (Reg.canBuserr n.val) = s.chip.rd (Reg.canBuserr n.val) + 1 ∧ x.rdF (Reg.canStat n.val) 29 27 = code.val
          | .dominantAfter | .dominantRun => x.rd (Reg.canBuserr n.val) = s.chip.rd (Reg.canBuserr n.val)))) ∧
    (∀ (ph : Phase) (code : Fin 8) (kind : CanErr) (tdcv : Option (BitVec 8)), Still s.chip → st ≠ 1 → st ≠ 2 →
      exec (.canBusError n ph code kind tdcv) s = .next s) ∧
    (st = 3 → s.chip.rdBit (Reg.canCtl n.val) 5 = false ∨ c.recovering = true → Completes (.busoffRecovery n) s (fun x =>
      (canSt x n.val).tec = 0 ∧ (canSt x n.val).recv = 0 ∧ (canSt x n.val).pend = c.pend)) ∧
    (Still s.chip → st ≠ 3 ∨ (s.chip.rdBit (Reg.canCtl n.val) 5 = true ∧ c.recovering = false) → exec (.busoffRecovery n) s = .next s) ∧
    (∀ who : Agent, MayWrite s.chip who (Reg.canCtl n.val) →
      let sheds := canStage s.chip = true ∧ s.chip.rdBit (Reg.canCtl n.val) 7 = false
      (st = 3 → Completes (.canRecover who n) s (fun x => canSt x n.val = { c with recovering := true } ∧ KeepsRegsBut [] s.chip x)) ∧
      (s.chip.rdBit (Reg.canCtl n.val) 0 = false → Completes (.canOnWrite who n true) s (fun x =>
        x.rdBit (Reg.canCtl n.val) 0 = true ∧ (sheds → canOn x n.val = false) ∧ (¬ sheds → canSt x n.val = c))) ∧
      (s.chip.rdBit (Reg.canCtl n.val) 0 = true → Completes (.canOnWrite who n false) s (fun x =>
        x.rdBit (Reg.canCtl n.val) 0 = false ∧ (canSt x n.val).pend = [] ∧ (canSt x n.val).bus = c.bus ∧
        (c.bus = none → canBusState x n.val = 0)))) ∧
    (canOn s.chip n.val = true → c.joined = false → s.chip.rst.inCore = false → Completes (.canBusIntegration n) s (fun x =>
      canSt x n.val = { c with joined := true } ∧ ∀ m, m ≠ n.val → canSt x m = canSt s.chip m))

/-- FB_EDGE_ACCEPTED: each line that has held its level for FILT samples (0 counts as 16) has it as its accepted level; another keeps the
accepted level it had. On a channel that does not run, nothing else changes but the phase: that its lines are followed is the model's
reading (notes/assumptions/38.md). On a running one of mode 0: a change of one line moves CNT by one step of the Gray sequence, inverted by
DIRINV; a change of both counts one in FBn_ILLCNT, sets ILLEGAL and leaves CNT; no change of A and B leaves CNT. Each armed compare unit
whose value the move passes counts one in its CMPCNT, and no other unit does. When the index is enabled and its condition becomes true in
mode 0 or 1, FBn_IDXCAP is the CNT after the move and FBn_IDXCNT counts one, else FBn_IDXCNT stays. COMPARE_PULSE_END ends exactly the
pulses of the pin whose width has run out, and with none such changes nothing, which is the model's choice (notes/assumptions/4.md).
CMPVAL_WRITE by an agent that may write it stores the value and sets BEHIND to whether it lies behind the axis. Cites 09 R395, 09 R396, 09
R397, 09 R398, 09 R408, 09 R409, 09 R413, 09 R416, 09 R417, 09 R418. -/
def Obligations.FeedbackCountsEdges : Prop :=
  ∀ (s : State) (n : Fin 32) (ph : Phase),
    let c := fbSt s.chip n.val
    let sign := fun (d : Int) => if s.chip.rdBit (Reg.fbCtl n.val) 9 then -d else d
    (∀ ra rb rz : RawLine,
      let f := s.chip.rdF (Reg.fbCtl n.val) 7 4
      let level := fun (old : Bool) (r : RawLine) => if (if f = 0 then 16 else f) ≤ r.held then r.level else old
      let a := level c.a ra
      let b := level c.b rb
      let z := level c.z rz
      (Still s.chip → fbRuns s.chip n.val = false → exec (.fbEdgeAccepted n ph ra rb rz) s =
        .next { s with chip := setFb (s.chip.atPhase ph.val) n.val { c with
          a := a
          b := b
          z := z } }) ∧
      (fbRuns s.chip n.val = true → fbMode s.chip n.val = 0 → Completes (.fbEdgeAccepted n ph ra rb rz) s (fun x =>
        let one := (a ≠ c.a) ≠ (b ≠ c.b)
        let move := if a = c.a ∧ b = c.b then 0 else sign (grayStep c.a c.b a b)
        (fbSt x n.val).a = a ∧ (fbSt x n.val).b = b ∧ (fbSt x n.val).z = z ∧
        (¬ (a ≠ c.a ∧ b ≠ c.b) → x.rd (Reg.fbCnt n.val) = s.chip.rd (Reg.fbCnt n.val) + w32 move ∧
          x.rd (Reg.fbIllcnt n.val) = s.chip.rd (Reg.fbIllcnt n.val) ∧
          ∀ u, u < 4 → x.rd (Reg.fbCmpcnt n.val u) = s.chip.rd (Reg.fbCmpcnt n.val u) +
            (if one ∧ compareReached s.chip n.val (s.chip.rd (Reg.fbCnt n.val)) move u = true then 1 else 0)) ∧
        (a ≠ c.a → b ≠ c.b → x.rd (Reg.fbCnt n.val) = s.chip.rd (Reg.fbCnt n.val) ∧ x.rdBit (Reg.fbStat n.val) 2 = true ∧
          x.rd (Reg.fbIllcnt n.val) = s.chip.rd (Reg.fbIllcnt n.val) + 1) ∧
        (if s.chip.rdBit (Reg.fbCtl n.val) 10 = true ∧ indexCond s.chip n.val a b z = true ∧ c.idxWas = false then
          x.rd (Reg.fbIdxcap n.val) = x.rd (Reg.fbCnt n.val) ∧ x.rd (Reg.fbIdxcnt n.val) = s.chip.rd (Reg.fbIdxcnt n.val) + 1
        else x.rd (Reg.fbIdxcnt n.val) = s.chip.rd (Reg.fbIdxcnt n.val))))) ∧
    (let s0 := s.chip.atPhase ph.val
     let past := fun (p : CmpPulse) => p.pin == n.val && decide (p.stop ≤ s0.nowNs)
     (s.chip.pins.cmp.any past = true → Completes (.comparePulseEnd n ph) s (fun x =>
       x.pins = { s.chip.pins with cmp := s.chip.pins.cmp.filter (fun p => !past p) } ∧ x.regs = s.chip.regs)) ∧
     (Still s.chip → s.chip.pins.cmp.any past = false → exec (.comparePulseEnd n ph) s = .next s)) ∧
    (∀ (who : Agent) (u : Fin 4) (v : Word), Still s.chip → MayWrite s.chip who (Reg.fbCmpval n.val u.val) →
      exec (.cmpvalWrite who n u v) s = .next { s with
        chip := (s.chip.wr (Reg.fbCmpval n.val u.val) v).wrBit (Reg.fbCmpst n.val u.val) 31 (cmpBehind s.chip n.val v) })

/-- FB_SAMPLE of a due sample in mode 0 or 1: FBn_SPD is 0 before any edge; equals the count difference over the time between the edges at
both ends of its window, saturated, when it moved and both are known; the store's entries are those that one P2 transaction of the latched
count and that speed leaves, FAULT as owed; the sample is no longer due and FAULT is no longer owed. With no sample due, nothing changes,
which is the model's choice (notes/assumptions/4.md). SERIAL_WORD_DECODE of a word in progress whose last bit comes in a later tick changes
nothing; of one that is in: with an idle, CRC or status error, CNT stays and FBn_SERERR counts one; else CNT is what take_word gives for the
position; the store's entries are those that one P2 transaction of CNT and the speed leaves, with FAULT for a word in error and otherwise as
owed; no word is in progress and no FAULT is owed afterwards. FB_ON_WRITE by an agent that may write it, of a stopped channel in a mode that
exists: with its timing allowed it runs with CNT 0, no history and the levels that it followed while it was off (the model's reading,
notes/assumptions/38.md), else CFGERR names code 2 and it stays off; turning a running one off disarms every compare unit and ends its
pulses. Cites 09 R399, 09 R400, 09 R401, 09 R405, 09 R406, 09 R411, 09 R420. -/
def Obligations.FeedbackSamplesAndWords : Prop :=
  ∀ (s : State) (n : Fin 32),
    let c := fbSt s.chip n.val
    (fbRuns s.chip n.val = true → fbMode s.chip n.val ≠ 2 → c.due = true → Completes (.fbSample n) s (fun x =>
      let v := s32 (x.rd (Reg.fbSpd n.val))
      (fbSt x n.val) = { c with
        due := false
        err := false
        spdSat := (fbSt x n.val).spdSat } ∧
      ((∀ c1 x1, c.hist.head? ≠ some (c1, some x1)) → v = 0) ∧
      (∀ c1 x1 c0 x0, c.hist.head? = some (c1, some x1) → c.hist[2 ^ fbSw s.chip n.val]? = some (c0, some x0) →
        dist32 (wn c1) (wn c0) ≠ 0 → v = sat32 (divNE (dist32 (wn c1) (wn c0) * 2000 * 65536) (x1 - x0))) ∧
      x.store.entries = (fbWrite s.chip n.val (s32 (s.chip.rd (Reg.fbLatch n.val))) v (fbSt x n.val).spdSat c.err).store.entries)) ∧
    (Still s.chip → fbRuns s.chip n.val = false ∨ fbMode s.chip n.val = 2 ∨ c.due = false → exec (.fbSample n) s = .next s) ∧
    (∀ (word : BitVec 64) (t : Nat), Still s.chip → wordDue s.chip n.val = some t → s.chip.inTick t = false →
      exec (.serialWordDecode n word) s = .next s) ∧
    (∀ (word : BitVec 64) (t : Nat), fbRuns s.chip n.val = true → fbMode s.chip n.val = 2 → wordDue s.chip n.val = some t →
      s.chip.inTick t = true →
      let ser := s.chip.rd (Reg.fbSer n.val)
      let w := word.toNat % 2 ^ fld ser 13 8
      let err := wordErrors s.chip n.val w
      let raw := w / 2 ^ (fld ser 13 8 - fld ser 19 14)
      let pos := if bit ser 25 then grayToBin raw (fld ser 19 14) else raw
      Completes (.serialWordDecode n word) s (fun x => (fbSt x n.val).word = none ∧ (fbSt x n.val).err = false ∧
        x.rd (Reg.fbSerrawlo n.val) = wn w ∧
        (c.noIdle = true ∨ err.1 = true ∨ err.2 = true → x.rd (Reg.fbCnt n.val) = s.chip.rd (Reg.fbCnt n.val) ∧
          x.rd (Reg.fbSererr n.val) = s.chip.rd (Reg.fbSererr n.val) + 1 ∧
          x.store.entries = (fbWrite s.chip n.val (s32 (s.chip.rd (Reg.fbCnt n.val))) (s32 (s.chip.rd (Reg.fbSpd n.val))) c.spdSat true).store.entries) ∧
        (c.noIdle = false → err = (false, false) → x.rd (Reg.fbSererr n.val) = s.chip.rd (Reg.fbSererr n.val) ∧
          x.rd (Reg.fbCnt n.val) = takeWord (s.chip.rd (Reg.fbCnt n.val)) c.firstWord (fld ser 19 14) pos ∧
          x.store.entries = (fbWrite s.chip n.val (s32 (x.rd (Reg.fbCnt n.val))) (s32 (x.rd (Reg.fbSpd n.val))) (fbSt x n.val).spdSat
            c.err).store.entries))) ∧
    (∀ who : Agent, MayWrite s.chip who (Reg.fbCtl n.val) → fbMode s.chip n.val ≤ 2 →
      (s.chip.rdBit (Reg.fbCtl n.val) 0 = false → fbStartOk s.chip n.val = true → Completes (.fbOnWrite who n true) s (fun x =>
        x.rdBit (Reg.fbCtl n.val) 0 = true ∧ fbRuns x n.val = true ∧ x.rd (Reg.fbCnt n.val) = 0 ∧ (fbSt x n.val).hist = [] ∧
        (fbSt x n.val).firstWord = true ∧ (fbSt x n.val).a = c.a ∧ (fbSt x n.val).b = c.b)) ∧
      (s.chip.rdBit (Reg.fbCtl n.val) 0 = false → fbStartOk s.chip n.val = false → Completes (.fbOnWrite who n true) s (fun x =>
        x.rdBit (Reg.fbCtl n.val) 0 = false ∧ x.fb = s.chip.fb ∧ x.rd (Reg.fbCfgerr n.val) = wn (2 * 2 ^ 28))) ∧
      (s.chip.rdBit (Reg.fbCtl n.val) 0 = true → Completes (.fbOnWrite who n false) s (fun x =>
        x.rdBit (Reg.fbCtl n.val) 0 = false ∧ fbRuns x n.val = false ∧ (∀ u, u < 4 → x.rdBit (Reg.fbCmpcfg n.val u) 0 = false) ∧
        x.pins.cmp = s.chip.pins.cmp.filter (fun p => p.pin != n.val))))

/-- SYNC_ENTRY_START of an entry that has waited since an earlier tick starts it at phase 0 of this tick; otherwise nothing changes, which
is the model's choice (notes/assumptions/4.md). ADC_ENTRY_END of an entry that ends in this tick: no longer running as it was, its result is
held for 20 ns after its end, with the value rounded from its codes, offset and gain and saturated, OVR when one of its conversions was
outside the range (a common mode outside -0.25 V to +1.25 V among these, the mean of both balls in the model's reading,
notes/assumptions/39.md), and FAULT when REFBAD stood in it; ADCk_PASSCNT counts one after the last entry and stays after another; an entry
that ends in a later tick changes nothing. ADC_ENTRY_RESULT of a result due in this tick whose entry names a SID: the store's entries are
those that this write leaves, with OVR, SAT and FAULT as held; ADCk_ENTCNT counts one and no result is held. REFBAD sets STAT.REFBAD and its
event, REFBAD_CLEAR only clears the bit. Cites 10 R442, 10 R443, 10 R444, 10 R445, 10 R446, 10 R439, 10 R440, 20 R888. -/
def Obligations.ConverterEntries : Prop :=
  ∀ (s : State) (k : Fin 8), Still s.chip →
    let c := adcSt s.chip k.val
    let e := adcEntry s.chip k.val
    (∀ t, c.waiting = some t → t < s.chip.tb.base → Completes (.syncEntryStart k) s (fun x =>
      (adcSt x k.val).running = some s.chip.tb.base ∧ (adcSt x k.val).waiting = none ∧ adcEntry x k.val = e ∧
      x.rdBit (Reg.adcStat k.val) 0 = true ∧ x.rdBit (Reg.adcStat k.val) 1 = false)) ∧
    (c.waiting = none ∨ (∃ t, c.waiting = some t ∧ s.chip.tb.base ≤ t) → exec (.syncEntryStart k) s = .next s) ∧
    (∀ (codes : List AdcSample) (t0 : Nat), c.running = some t0 →
      let w := adcWord s.chip k.val e 1
      let stop := t0 + entryTime s.chip k.val e
      let v := entryResult ((codes.take (fld w 7 4 + 1)).map (fun p => p.code.toInt)) (bit w 8)
        (s32 (s.chip.rd (Reg.adcOfs k.val (fld w 3 0)))) (s32 (s.chip.rd (Reg.adcGain k.val (fld w 3 0))))
      (stop < s.chip.tb.base + s.chip.tb.tickLen → Completes (.adcEntryEnd k codes) s (fun x =>
        (∃ r, (adcSt x k.val).result = some r ∧ r.entry = e ∧ r.value = sat32 v ∧ (r.sat = true ↔ sat32 v ≠ v) ∧
          r.ovr = (codes.take (fld w 7 4 + 1)).any adcOutside ∧ r.fault = (c.refSeen || s.chip.rdBit (Reg.adcStat k.val) 2) ∧ r.due = stop + 20) ∧
        x.rd (Reg.adcPasscnt k.val) = s.chip.rd (Reg.adcPasscnt k.val) + (if e + 1 ≥ adcNent s.chip k.val then 1 else 0) ∧
        (e + 1 < adcNent s.chip k.val → e < 63 → adcEntry x k.val = e + 1))) ∧
      (s.chip.tb.base + s.chip.tb.tickLen ≤ stop → exec (.adcEntryEnd k codes) s = .next s)) ∧
    (∀ r, c.result = some r → r.due < s.chip.tb.base + s.chip.tb.tickLen → bit (adcWord s.chip k.val r.entry 0) 31 = true →
      Completes (.adcEntryResult k) s (fun x => (adcSt x k.val).result = none ∧
        x.rd (Reg.adcEntcnt k.val) = s.chip.rd (Reg.adcEntcnt k.val) + 1 ∧
        x.store.entries = (storeWrite s.chip (fld (adcWord s.chip k.val r.entry 0) 17 0) ⟨some r.value, ⟨true, r.ovr, r.sat, r.fault⟩⟩
          ⟨15, .chan 2 k.val, none⟩).1.store.entries)) ∧
    (c.result = none → exec (.adcEntryResult k) s = .next s) ∧
    (s.chip.rdBit (Reg.adcStat k.val) 2 = false → Completes (.refbad k) s (fun x => x.rdBit (Reg.adcStat k.val) 2 = true ∧
      x.rdBit (Reg.adcEvt k.val) 3 = true ∧ (adcSt x k.val).refSeen = c.running.isSome)) ∧
    (s.chip.rdBit (Reg.adcStat k.val) 2 = true → exec (.refbad k) s = .next s) ∧
    exec (.refbadClear k) s = .next { s with chip := s.chip.wrBit (Reg.adcStat k.val) 2 false }

/-- By an agent that may write them. ADC_ON_WRITE of a converter that is off: with its table allowed and 1 to 64 entries it is on and a pass
stands at entry 0, running now unless that entry waits for phase 0, else it stays off and CFGERR names code 2; turning one that is on off
abandons its entry. ADC_GO: off, CFGERR names code 6; with an entry or a result in progress, code 3; both leave the sequencer; else a pass
stands at entry 0. PWM_PERIOD_START of period j of an output that is on with an allowed rate: PWMn_HIGH is the rounded high time of the duty
register; the active interval lies within the period, spans it whole when the high time is the period, and is as long as the high time in
every period but the last of the tick. PWM_ON_WRITE of an output that is off: on, when its rate is allowed and its duty source is an OUT
SID, else off with CFGERR code 2 or 5; turning off makes the pin inactive. That PWM_PERIOD_START of an output that is off changes nothing is
the model's choice (notes/assumptions/4.md). Cites 10 R446, 10 R447, 10 R448, 10 R449, 10 R455, 10 R456, 10 R458. -/
def Obligations.ConvertersAndPwmStartAndStop : Prop :=
  ∀ (s : State) (who : Agent),
    (∀ k : Fin 8,
      let started := fun (x : Chip) => x.rdBit (Reg.adcCtl k.val) 0 = true ∧ adcEntry x k.val = 0 ∧
        (adcSt x k.val).running = (if entrySync s.chip k.val 0 = true ∧ s.chip.nowNs ≠ s.chip.tb.base then none else some s.chip.nowNs) ∧
        (adcSt x k.val).waiting = (if entrySync s.chip k.val 0 = true ∧ s.chip.nowNs ≠ s.chip.tb.base then some s.chip.nowNs else none)
      (MayWrite s.chip who (Reg.adcCtl k.val) →
        let ok := adcTableOk s.chip k.val = true ∧ 1 ≤ adcNent s.chip k.val ∧ adcNent s.chip k.val ≤ 64
        (s.chip.rdBit (Reg.adcCtl k.val) 0 = false → ok → Completes (.adcOnWrite who k true) s started) ∧
        (s.chip.rdBit (Reg.adcCtl k.val) 0 = false → ¬ ok → Completes (.adcOnWrite who k true) s (fun x =>
          x.rdBit (Reg.adcCtl k.val) 0 = false ∧ x.adc = s.chip.adc ∧ x.rd (Reg.adcCfgerr k.val) = wn (2 * 2 ^ 28))) ∧
        (s.chip.rdBit (Reg.adcCtl k.val) 0 = true → Completes (.adcOnWrite who k false) s (fun x =>
          x.rdBit (Reg.adcCtl k.val) 0 = false ∧ adcSt x k.val = AdcSeq.zero ∧ x.store = s.chip.store))) ∧
      (MayWrite s.chip who (Reg.adcCmd k.val) →
        let c := adcSt s.chip k.val
        let idle := c.running = none ∧ c.waiting = none ∧ c.result = none
        (s.chip.rdBit (Reg.adcCtl k.val) 0 = false → Completes (.adcGo who k) s (fun x => x.adc = s.chip.adc ∧
          x.rd (Reg.adcCfgerr k.val) = wn (6 * 2 ^ 28 + 4))) ∧
        (s.chip.rdBit (Reg.adcCtl k.val) 0 = true → ¬ idle → Completes (.adcGo who k) s (fun x => x.adc = s.chip.adc ∧
          x.rd (Reg.adcCfgerr k.val) = wn (3 * 2 ^ 28 + 4))) ∧
        (s.chip.rdBit (Reg.adcCtl k.val) 0 = true → idle → Completes (.adcGo who k) s started))) ∧
    (∀ (n : Fin 32) (j : Nat),
      let rate := s.chip.rdF (pwmCtl n.val) 22 16
      let p := 10000 / rate
      let h := pwmHigh (pwmDuty s.chip n.val) p
      (s.chip.rdBit (pwmCtl n.val) 0 = true → rate ∈ pwmRates → j < rate → Completes (.pwmPeriodStart n j) s (fun x =>
        x.rd (Reg.adcPwmhigh (n.val / 4) (n.val % 4)) = wn h ∧ ∃ on off, Tab.get none x.pins.pwm n.val = some ⟨j * p, on, off⟩ ∧
          (j + 1 < rate ∨ 9999 ≤ s.chip.tb.tickLen → on ≤ off) ∧ (h = p → on = j * p) ∧ (j + 1 < rate → j * p ≤ on ∧ off = on + h ∧ off ≤ j * p + p) ∧
          (j + 1 = rate → off ≤ s.chip.tb.tickLen))) ∧
      (Still s.chip → s.chip.rdBit (pwmCtl n.val) 0 = false → exec (.pwmPeriodStart n j) s = .next s) ∧
      (MayWrite s.chip who (pwmCtl n.val) →
        let ok := pwmRates.contains rate && pwmSidOk s.chip (s.chip.rdF (Reg.adcPwmsid (n.val / 4) (n.val % 4)) 17 0)
        (s.chip.rdBit (pwmCtl n.val) 0 = false → ok = true → Completes (.pwmOnWrite who n true) s (fun x =>
          x.rdBit (pwmCtl n.val) 0 = true ∧ KeepsRegsBut [pwmCtl n.val] s.chip x ∧ x.pins = s.chip.pins)) ∧
        (s.chip.rdBit (pwmCtl n.val) 0 = false → ok = false → Completes (.pwmOnWrite who n true) s (fun x =>
          x.rdBit (pwmCtl n.val) 0 = false ∧ x.pins = s.chip.pins ∧
          (x.rdF (Reg.adcCfgerr (n.val / 4)) 31 28 = 2 ∨ x.rdF (Reg.adcCfgerr (n.val / 4)) 31 28 = 5))) ∧
        Completes (.pwmOnWrite who n false) s (fun x => x.rdBit (pwmCtl n.val) 0 = false ∧
          Tab.get none x.pins.pwm n.val = none ∧ ∀ m, m ≠ n.val → Tab.get none x.pins.pwm m = Tab.get none s.chip.pins.pwm m)))

/-- SET_ENABLE, by an agent that may write it, of a set that is off: when its check passes it is on, its next window is PARTIAL, a TIME
record is due in its stream, and REC_DCEIL and REC_SCEIL, at most 240,000 and 120,000, hold the sums of the ceilings of the enabled sets
with each destination; with AUTOARM = 1, the current half of a capture set with a region is then armed, in FILL with POST taken, or ERR is 3
when POST exceeds NREC - 1 or 7 when the half is not IDLE, and in every other case the halves stay; when its check fails it stays off,
nothing of the sets changes, and REC_CFGERR holds the code of the check and the register. Turning a set off leaves it off with its stream
status 0. REDUCTION_WINDOW_END of an enabled reducing set whose window has passed, while the engine runs: the window is the present one and
no longer PARTIAL; the accumulators of the finished bank that are due by the end of this tick, an even share of them in each tick of the
next window (the model's choice, notes/assumptions/41.md), are clear, and the rest wait as the finished window; otherwise nothing changes,
which is the model's choice (notes/assumptions/4.md). Cites 11 R475, 11 R492, 11 R497, 11 R520, 11 R516, 11 R519, 11 R486, 11 R487, 11 R488.
-/
def Obligations.RecordingSetsKeepTheCeilings : Prop :=
  ∀ (s : State) (j : Fin 64),
    (∀ who : Agent, MayWrite s.chip who (Reg.recSetcfg j.val) →
      (bit (setCfg s.chip j.val) 0 = false → enableSetCheck s.chip j.val = 0 →
        let h := curHalf s.chip j.val
        let arms := bit (setCfg s.chip j.val) 1 = true ∧ capMode s.chip j.val = true ∧ bit (setCfg s.chip j.val) 14 = true
        let big := (s.chip.rd (Reg.recSetpost j.val)).toNat > nrec s.chip j.val - 1
        Completes (.setEnable who j true) s (fun x => bit (setCfg x j.val) 0 = true ∧ (recSt x j.val).partW = true ∧
          (recSt x j.val).timeS = none ∧ x.rd Reg.recDceil = wn (ceilSum s.chip 14 [j.val]) ∧ (x.rd Reg.recDceil).toNat ≤ 240000 ∧
          x.rd Reg.recSceil = wn (ceilSum s.chip 15 [j.val]) ∧ (x.rd Reg.recSceil).toNat ≤ 120000 ∧
          (arms → ¬ big → halfState s.chip j.val h = 0 → curHalf x j.val = h ∧ halfState x j.val h = 1 ∧
            (recSt x j.val).goal = (s.chip.rd (Reg.recSetpost j.val)).toNat) ∧
          (arms → big ∨ halfState s.chip j.val h ≠ 0 → x.rdF (Reg.recSetstat j.val) 31 28 = (if big then 3 else 7)) ∧
          (¬ arms ∨ big ∨ halfState s.chip j.val h ≠ 0 → ∀ k, k < 2 → halfState x j.val k = halfState s.chip j.val k) ∧
          ∀ i, i < 64 → i ≠ j.val → setCfg x i = setCfg s.chip i ∧ recSt x i = recSt s.chip i)) ∧
      (bit (setCfg s.chip j.val) 0 = false → enableSetCheck s.chip j.val ≠ 0 → Completes (.setEnable who j true) s (fun x =>
        bit (setCfg x j.val) 0 = false ∧ x.recd = s.chip.recd ∧
        x.rd Reg.recCfgerr = wn (enableSetCheck s.chip j.val * 2 ^ 28 + 0x1000 + 0x40 * j.val))) ∧
      (bit (setCfg s.chip j.val) 0 = true → Completes (.setEnable who j false) s (fun x =>
        bit (setCfg x j.val) 0 = false ∧ x.rd (Reg.recStrstat j.val) = 0 ∧ x.recd = s.chip.recd))) ∧
    (let c := setCfg s.chip j.val
     let now := s.chip.tb.tick / redWindow s.chip j.val
     let ends := recRuns s.chip = true ∧ bit c 0 = true ∧ bit c 5 = true ∧ bit c 2 = false ∧ (recSt s.chip j.val).window ≠ now
     let n := rangeSize s.chip j.val
     let upto := redDue s.chip j.val n
     let last := lastWindow s.chip j.val now
     (ends → Completes (.reductionWindowEnd j) s (fun x => (recSt x j.val).window = now ∧ (recSt x j.val).partW = false ∧
       (recSt x j.val).out = (if upto = n then none else some ⟨last, upto, (recSt s.chip j.val).partW⟩) ∧
       ∀ k < upto, Tab.get none x.recd.red (redIndex s.chip j.val (s.chip.rdF (Reg.recSetslo j.val) 17 0 + k) last) = none)) ∧
     (Still s.chip → ¬ ends → exec (.reductionWindowEnd j) s = .next s))

/-- By an agent that may write the set's command register. SET_ARM: of a set that is off only ERR changes, to 1; of an enabled set without a
region or not of capture mode nothing changes (the model's choice, notes/assumptions/41.md); of an enabled capture set with a region, ERR
alone becomes 3 when POST exceeds NREC - 1, else 7 when its half is not IDLE; else its half is FILL with POST taken, and below stage 4,
within the tick's 240,000 bytes, a GAP record that is due with its TIME records, or the TIME record that the marker asks for, then an ARM
marker and a TIME record join the write buffer in this order, all counted as issued; from stage 4 on, or beyond those bytes, both are shed.
That the GAP goes first and that markers are shed is the model's reading (notes/assumptions/41.md). SET_RELEASE of a capture set with one
half in DONE makes it FILL, with the POST that ARM took; with two halves, one in DONE that is not current becomes IDLE unless the current
one is DONE too, which then gives way to it in FILL; a lone current DONE becomes IDLE. SET_STOP leaves both halves IDLE, with cause 3 when
one was in FILL or POST. SET_TRIG counts one trigger in and one as acted or as missed; an enabled half in FILL below stage 4 is in POST, or
in DONE when its POST is 0. By an agent that may write the unit's command register. TRG_ARM leaves the unit armed, its qualification not yet
seen; TRG_DISARM leaves it not armed; neither leaves a re-arm to come, and no other unit changes. TRG_FIRE of a unit that has not fired in
this tick counts one in TRGu_FIRECNT, stamps TICK and phase, raises EVT(448 + u), leaves the unit not armed, with a re-arm to come only
under REPEAT, at least one tick ahead; with no target set TRGu_UNUSED counts one. A unit that has fired in this tick does nothing.
TRIGGER_REARM arms a unit whose re-arm is due (2^47 ticks or more ahead count as past: the model's choice, notes/assumptions/84.md), and
else changes nothing (the model's choice, notes/assumptions/4.md). Cites 11 R495, 11 R497, 11 R498, 11 R499, 11 R500, 11 R501, 11 R509, 19
R847, 11 R505, 11 R507, 11 R508, 11 R528.
-/
def Obligations.CaptureSetsAndTriggers : Prop :=
  (
    ∀ (s : State) (who : Agent) (j : Fin 64), MayWrite s.chip who (Reg.recSetcmd j.val) →
      let i := j.val
      let h := curHalf s.chip i
      let code := fun (k : Nat) =>
        (s.chip.wrF (Reg.recSetstat i) 31 28 k).wr Reg.recCfgerr (wn (k * 2 ^ 28 + (0x1000 + 0x40 * i + 0x28)))
      let t := s.chip.tb.tick
      let p := s.chip.phaseRead
      let lead := if (readyGap (recSt s.chip i).gapR).isSome then regionLead s.chip i t p else timeBefore s.chip i t p
      let waits := fun (c : Chip) => (c.recd.buf.filter (fun b => !b.bytes.isEmpty)).map (·.bytes)
      (Still s.chip → bit (setCfg s.chip i) 0 = false → exec (.setArm who j) s = .next { s with chip := code 1 }) ∧
      (Still s.chip → bit (setCfg s.chip i) 0 = true → capMode s.chip i = false ∨ bit (setCfg s.chip i) 14 = false →
        exec (.setArm who j) s = .next s) ∧
      (bit (setCfg s.chip i) 0 = true → capMode s.chip i = true → bit (setCfg s.chip i) 14 = true →
        (Still s.chip → (s.chip.rd (Reg.recSetpost i)).toNat > nrec s.chip i - 1 → exec (.setArm who j) s = .next { s with chip := code 3 }) ∧
        (Still s.chip → (s.chip.rd (Reg.recSetpost i)).toNat ≤ nrec s.chip i - 1 → halfState s.chip i h ≠ 0 →
          exec (.setArm who j) s = .next { s with chip := code 7 }) ∧
        ((s.chip.rd (Reg.recSetpost i)).toNat ≤ nrec s.chip i - 1 → halfState s.chip i h = 0 → Completes (.setArm who j) s (fun x =>
          curHalf x i = h ∧ halfState x i h = 1 ∧ (recSt x i).goal = (s.chip.rd (Reg.recSetpost i)).toNat ∧ (recSt x i).pre = 0 ∧
          x.rdBit (Reg.recSetstat i) 5 = false ∧
          (s.chip.stage < 4 → s.chip.recd.bytes + 16 * (lead.length + 2) ≤ 240000 →
            x.rd (Reg.recLissued i) = s.chip.rd (Reg.recLissued i) + wn (lead.length + 2) ∧
            waits x = waits s.chip ++ lead ++ [shortRecord t 4 0 p 0 1 0 0, timeRecord t p]) ∧
          (4 ≤ s.chip.stage ∨ 240000 < s.chip.recd.bytes + 16 * (lead.length + 2) → x.rd (Reg.recLissued i) = s.chip.rd (Reg.recLissued i) + 2 ∧
            x.rd (Reg.recLregshed i) = s.chip.rd (Reg.recLregshed i) + 2 ∧ waits x = waits s.chip)))) ∧
      (capMode s.chip i = true → pingpong s.chip i = false → halfState s.chip i 0 = 3 → Completes (.setRelease who j) s (fun x =>
        halfState x i 0 = 1 ∧ curHalf x i = 0 ∧ (recSt x i).pos = 0 ∧ (recSt x i).goal = (recSt s.chip i).goal)) ∧
      (pingpong s.chip i = true →
        (halfState s.chip i (1 - h) = 3 → halfState s.chip i h = 3 → Completes (.setRelease who j) s (fun x =>
          curHalf x i = 1 - h ∧ halfState x i (1 - h) = 1 ∧ halfState x i h = 3)) ∧
        (halfState s.chip i (1 - h) = 3 → halfState s.chip i h ≠ 3 → Completes (.setRelease who j) s (fun x =>
          curHalf x i = h ∧ halfState x i (1 - h) = 0 ∧ halfState x i h = halfState s.chip i h)) ∧
        (halfState s.chip i (1 - h) ≠ 3 → halfState s.chip i h = 3 → Completes (.setRelease who j) s (fun x =>
          curHalf x i = h ∧ halfState x i h = 0 ∧ halfState x i (1 - h) = halfState s.chip i (1 - h)))) ∧
      Completes (.setStop who j) s (fun x => halfState x i 0 = 0 ∧ halfState x i 1 = 0 ∧ x.rdF (Reg.recSetstat i) 27 24 =
        (if halfState s.chip i 0 ∈ [1, 2] ∨ halfState s.chip i 1 ∈ [1, 2] then 3 else s.chip.rdF (Reg.recSetstat i) 27 24)) ∧
      Completes (.setTrig who j) s (fun x => x.rd (Reg.ldgTrgin i) = s.chip.rd (Reg.ldgTrgin i) + 1 ∧
        (x.rd (Reg.ldgTrgact i) - s.chip.rd (Reg.ldgTrgact i)) + (x.rd (Reg.recLmisstrg i) - s.chip.rd (Reg.recLmisstrg i)) = 1 ∧
        (bit (setCfg s.chip i) 0 = true → bit (setCfg s.chip i) 14 = true → s.chip.stage < 4 → capMode s.chip i = true →
          halfState s.chip i h = 1 → x.rd (Reg.ldgTrgact i) = s.chip.rd (Reg.ldgTrgact i) + 1 ∧
            halfState x i h = (if (recSt s.chip i).goal = 0 then 3 else 2)))) ∧
  (
    ∀ (s : State) (who : Agent) (u : Fin 32),
      let stat := Reg.recTrgstat u.val
      (MayWrite s.chip who (Reg.recTrgcmd u.val) →
        Completes (.trgArm who u) s (fun x => x.rdBit stat 0 = true ∧ x.rdBit stat 2 = false ∧ (trgSt x u.val).rearm = none ∧
          KeepsRegsBut [stat] s.chip x ∧ ∀ v, v ≠ u.val → trgSt x v = trgSt s.chip v) ∧
        Completes (.trgDisarm who u) s (fun x => x.rdBit stat 0 = false ∧ (trgSt x u.val).rearm = none ∧
          KeepsRegsBut [stat] s.chip x ∧ ∀ v, v ≠ u.val → trgSt x v = trgSt s.chip v) ∧
        ((trgSt s.chip u.val).fired ≠ some s.chip.tb.tick → Completes (.trgFire who u) s (fun x =>
          x.rd (Reg.recTrgfirecnt u.val) = s.chip.rd (Reg.recTrgfirecnt u.val) + 1 ∧ x.rd (Reg.recTrglastt u.val) = wn s.chip.tb.tick ∧
          x.rd (Reg.recTrglastp u.val) = wn s.chip.phaseRead ∧ .event (448 + u.val) ∈ x.notes ∧ x.rdBit stat 0 = false ∧
          (trgSt x u.val).fired = some s.chip.tb.tick ∧
          (s.chip.rdBit (Reg.recTrgcfg u.val) 21 = false → (trgSt x u.val).rearm = none) ∧
          (s.chip.rdBit (Reg.recTrgcfg u.val) 21 = true →
            let hold := s.chip.rdF (Reg.recTrghold u.val) 15 0
            (trgSt x u.val).rearm = some (if hold = 0 then ((s.chip.tb.tick + 1) % 2 ^ 48, 0)
              else ((s.chip.tb.tick + hold) % 2 ^ 48, s.chip.phaseRead))) ∧
          (trgTargets s.chip u.val = [] → x.rd (Reg.recTrgunused u.val) = s.chip.rd (Reg.recTrgunused u.val) + 1 ∧
            x.recd.sets = s.chip.recd.sets))) ∧
        (Still s.chip → (trgSt s.chip u.val).fired = some s.chip.tb.tick → exec (.trgFire who u) s = .next s)) ∧
      (let due := fun (t : Nat × Nat) => tickSince s.chip.tb.tick t.1 < 2 ^ 47 ∧ (tickSince s.chip.tb.tick t.1 ≠ 0 ∨ t.2 ≤ s.chip.tb.phase)
       (∀ t, (trgSt s.chip u.val).rearm = some t → due t → Completes (.triggerRearm u) s (fun x =>
         x.rdBit stat 0 = true ∧ x.rdBit stat 2 = false ∧ (trgSt x u.val).rearm = none ∧ KeepsRegsBut [stat] s.chip x)) ∧
       (Still s.chip → (∀ t, (trgSt s.chip u.val).rearm = some t → ¬ due t) → exec (.triggerRearm u) s = .next s)))

/-- EVENT_RAISE leaves the raise of the event for the dispatcher and changes nothing else by itself; EVRAISE of a software event, with CORE
out of reset, does the same, and of any other event ends in the port's error 4 with no raise. One raise in a dispatcher cycle has exactly
one result: not enabled, DSP_EVUNMAP counts one; with COAL and a coalescing cart still QUEUED, its count rises by one up to 65,535 and no
cart is made; with a cart left in the cycle, none pending for the event and more than 64 free, a cart of kind EVENT with the event's hitch
and level is made; else the pending count rises by one, or at 65,535 DSP_EVSAT counts one. PENDING_CART with one event waiting, and no
timer, post, operation or raise in its cycle, makes at most two carts of it, or one with COAL that takes the whole count; with none waiting
it changes nothing, which is the model's choice (notes/assumptions/4.md). A new cart stands under an index that no other cart has; which of
the free ones is a free value (notes/assumptions/10.md). Cites 12 R536, 12 R542, 12 R543, 12 R544, 12 R549. -/
def Obligations.RaisesMakeCartsOrWait : Prop :=
  (∀ (s : State) (e : BitVec 10), Completes (.eventRaise e) s (fun x => x = { s.chip with notes := s.chip.notes ++ [.event e.toNat] })) ∧
  (∀ (s : State) (p : Fin 10) (v : Word) (more : Bool), s.chip.rst.inCore = false →
    (896 ≤ fld v 9 0 → Completes (.evraise p v more) s (fun x => x.notes = s.chip.notes ++ [.event (fld v 9 0)] ∧
      x.regs = s.chip.regs ∧ x.dsp.carts = s.chip.dsp.carts)) ∧
    (fld v 9 0 < 896 → Completes (.evraise p v more) s (fun x => ∃ y, x = portEnd more y ∧ y.dsp = s.chip.dsp ∧
      y.rdF (Reg.dspPerr p.val) 2 0 = 4 ∧ y.rd Reg.dspPorterrcnt = s.chip.rd Reg.dspPorterrcnt + 1))) ∧
  (∀ (s : Chip) (n i : Nat),
    let r := raiseOne (s, n) i
    let may := decide (n > 0) && eventMay s i && pendOf s i == 0
    (evEn s i = false → r = (s.bump Reg.dspEvunmap, n)) ∧
    (∀ c, evEn s i = true → evCoal s i = true → coalCart s i = some c → r.2 = n ∧ r.1.dsp.carts = s.dsp.carts.map (fun x =>
      if x.tag = c.tag then { x with arg := i + min (c.arg / 65536 + 1) 65535 * 65536 } else x) ∧ r.1.dsp.pend = s.dsp.pend) ∧
    (evEn s i = true → evCoal s i = false ∨ coalCart s i = none →
      (may = true → r.2 + 1 = n ∧ r.1.dsp.pend = s.dsp.pend ∧ ∃ c, r.1.dsp.carts = s.dsp.carts ++ [c] ∧ c.kind = 0 ∧ c.hitch = evHitch s i ∧
        c.level = evLevel s i ∧ c.arg = (i + 65536) % 2 ^ 32 ∧ c.place = .queued ∧
        (s.dsp.carts.length < 4096 → ∀ x ∈ s.dsp.carts, x.index ≠ c.index)) ∧
      (may = false → pendOf s i ≠ 65535 → r.2 = n ∧ pendOf r.1 i = pendOf s i + 1 ∧ r.1.dsp.carts = s.dsp.carts) ∧
      (may = false → pendOf s i = 65535 → r.2 = n ∧ r.1.dsp = s.dsp ∧ r.1.rd Reg.dspEvsat = s.rd Reg.dspEvsat + 1))) ∧
  (∀ s : State,
    (∀ i n, dspRuns s.chip = true → s.chip.dsp.pend = [(i, n)] → s.chip.dsp.posts = [] → s.chip.dsp.raises = [] →
      s.chip.dsp.ops = [] → TimersRest s.chip → 65 < freeCarts s.chip → suspended s.chip (evHitch s.chip i) = false →
      Completes .pendingCart s (fun x =>
        x.dsp.carts.length = s.chip.dsp.carts.length + (if evCoal s.chip i then min n 1 else min n 2) ∧
        pendOf x i = (if evCoal s.chip i then 0 else n - 2))) ∧
    (Still s.chip → s.chip.dsp.pend = [] → exec .pendingCart s = .next s))

/-- POSTCTL with CORE out of reset, the dispatcher running and no post of the port waiting, takes its place among the operations of its
cycle. Alone in a cycle, it acts after the timers that fire or wait and the deferred carts that are due, and before the posts, the events,
the slots and the recall. It leaves POSTRES code 3 for a hitch that accepts none, code 4 for a deferred post whose delay is 0 or above
16,777,216, and makes no cart. Else, with a cart to spare (more than 64 free, or one free while the port has a cart IN_SERVICE) and no other
post waiting, one cart of kind POST is made with the hitch, level and argument written, QUEUED or DEFERRED until its tick, and POSTRES holds
its tag; with none to spare the post waits and no cart is made. While a post of the port waits, or the dispatcher does not run, nothing
changes (the latter is the model's choice, notes/assumptions/42.md). POST_STALL_RELEASE, with one post waiting and a cart to spare and
nothing else due, makes its cart and no post waits; with none waiting it changes nothing, which is the model's choice
(notes/assumptions/4.md). Cites 12 R545, 12 R552, 12 R559, 12 R560, 12 R575. -/
def Obligations.PostsMakeCartsOrStall : Prop :=
  (∀ (s : State) (p : Fin 10) (v : Word) (more : Bool), s.chip.rst.inCore = false →
    (dspRuns s.chip = true → Tab.get none s.chip.dsp.posts p.val = none → Completes (.postctl p v more) s (fun x =>
      x = portEnd more { s.chip with dsp := { s.chip.dsp with ops := placeOp ⟨p.val, 0x18, v⟩ s.chip.dsp.ops } } ∧
      (more = false → s.chip.dsp.ops = [] →
        x = cycleEnd (postOp (cycleTimers (cycleStart s.chip) (zeroWaits s.chip)) p.val v) s.chip.dsp.raises))) ∧
    (Still s.chip → dspRuns s.chip = false ∨ Tab.get none s.chip.dsp.posts p.val ≠ none → exec (.postctl p v more) s = .next s)) ∧
  (∀ (z : Chip) (p : Fin 10) (v : Word), z.dsp.posts = [] →
    let y := stalledPosts (postOp z p.val v)
    let h := fld v 9 0
    let arg := z.rd (Reg.dspPpostarg p.val)
    let dly := z.rd (Reg.dspPpostdly p.val)
    let late := bit v 16 = true ∧ (dly.toNat = 0 ∨ 16777216 < dly.toNat)
    (hitchEn z h = false → y = z.wr (Reg.dspPpostres p.val) (wn (3 * 65536))) ∧
    (hitchEn z h = true → late → y = z.wr (Reg.dspPpostres p.val) (wn (4 * 65536))) ∧
    (hitchEn z h = true → ¬ late → postMay z p.val = true → y.dsp.posts = [] ∧ ∃ c, y.dsp.carts = z.dsp.carts ++ [c] ∧
      y.rd (Reg.dspPpostres p.val) = wn c.tag ∧ c.kind = 1 ∧ c.hitch = h ∧ c.level = fld v 14 12 ∧ c.arg = arg.toNat ∧
      c.src = p.val ∧ c.place = (if bit v 16 then .deferred ((z.tb.tick + dly.toNat) % 2 ^ 48) else .queued)) ∧
    (hitchEn z h = true → ¬ late → postMay z p.val = false → y.dsp.carts = z.dsp.carts ∧ y.regs = z.regs ∧
      Tab.get none y.dsp.posts p.val = some (v, arg, dly))) ∧
  (∀ s : State,
    (∀ (p : Nat) (ctl arg dly : Word), dspRuns s.chip = true → s.chip.dsp.posts = [(p, some (ctl, arg, dly))] → postMay s.chip p = true →
      s.chip.dsp.pend = [] → s.chip.dsp.raises = [] → s.chip.dsp.ops = [] → TimersRest s.chip →
      Completes .postStallRelease s (fun x => x.dsp.posts = [] ∧ x.dsp.carts.length = s.chip.dsp.carts.length + 1 ∧
        ∃ c ∈ x.dsp.carts, c.kind = 1 ∧ c.hitch = fld ctl 9 0 ∧ c.level = fld ctl 14 12 ∧ c.arg = arg.toNat ∧
          x.rd (Reg.dspPpostres p) = wn c.tag)) ∧
    (Still s.chip → s.chip.dsp.posts = [] → exec .postStallRelease s = .next s))

/-- With CORE out of reset and the dispatcher running, TAKE, DONE and CANCEL each take their place among the operations of their cycle,
which stand in the order of its steps and, within a step, of the ports; alone in a cycle, each acts before the rest of it, the timers and
deferred carts of phase 0 among it. What an operation of a cycle waits for is told by its operand, the model's choice
(notes/assumptions/42.md). TAKE with no cart IN_SERVICE and one in the port's slot moves that cart into service, shows its four words and
returns the first; with an empty slot it returns all ones and no cart moves; with a cart IN_SERVICE it is error 2 and no cart moves. DONE
with the tag of the port's cart IN_SERVICE removes the carts of that tag, counted as RETIRED, and from stage 3 on stops a core SEQ1 to SEQ7
(at this accepted DONE alone, which is the model's reading, notes/assumptions/84.md); with another value, or none in service, it is error 1
and no cart moves. CANCEL of a tag that no cart has gives result 2; of a cart IN_SERVICE, result 1, and no cart moves; of any other cart,
result 0, and the carts of that tag are removed, counted as CANCELLED. No other hitch's cart changes. Cites 12 R537, 12 R538, 12 R546, 12
R547, 12 R548, 12 R552, 12 R571, 12 R578. -/
def Obligations.TakeDoneCancel : Prop :=
  (∀ (s : State) (p : Fin 10) (v : Word) (more : Bool), s.chip.rst.inCore = false → dspRuns s.chip = true →
    let asks := fun (o : PortOp) (act : Chip → Chip) (x : Chip) =>
      x = portEnd more { s.chip with dsp := { s.chip.dsp with ops := placeOp o s.chip.dsp.ops } } ∧
      (more = false → s.chip.dsp.ops = [] → x = cycleEnd (cycleTimers (act (cycleStart s.chip)) (zeroWaits s.chip)) s.chip.dsp.raises)
    Completes (.take p more) s (asks ⟨p.val, 0x00, 0⟩ (fun z => takeOp z p.val)) ∧
    Completes (.done p v more) s (asks ⟨p.val, 0x20, v⟩ (fun z => doneOp z p.val v)) ∧
    Completes (.cancel p v more) s (asks ⟨p.val, 0x24, v⟩ (fun z => cancelOp z p.val v))) ∧
  (∀ (o : PortOp) (l : List PortOp), l.Pairwise (fun a b => 16 * opStep a.reg + a.port ≤ 16 * opStep b.reg + b.port) →
    (placeOp o l).Pairwise (fun a b => 16 * opStep a.reg + a.port ≤ 16 * opStep b.reg + b.port) ∧ (placeOp o l).Perm (o :: l)) ∧
  ∀ (z : Chip) (p : Fin 10) (v : Word),
    let carts := z.dsp.carts
    let led := fun (x : Chip) (j : Nat) => Tab.get 0 x.books.led j
    let back := fun (x : Chip) => Tab.get 0 x.acc.data p.val
    (let y := takeOp z p.val
     (∀ c, serviceCart z p.val = none → slotCart z p.val = some c → y.rd (Reg.dspPtake p.val) = cartWord0 c ∧
       y.rd (Reg.dspPtakearg p.val) = wn c.arg ∧ y.rd (Reg.dspPtaket p.val) = wn c.rtick ∧ y.rd (Reg.dspPtakep p.val) = cartWord3 c ∧
       y.dsp.carts = carts.map (fun x => if x.tag = c.tag then { x with place := .inService p.val } else x) ∧
       back y = (cartWord0 c).toNat) ∧
     (serviceCart z p.val = none → slotCart z p.val = none →
       y = (z.wr (Reg.dspPtake p.val) 0xFFFFFFFF).returnData p.val 0xFFFFFFFF) ∧
     (serviceCart z p.val ≠ none → y.dsp = z.dsp ∧ y.rd (Reg.dspPtake p.val) = 0xFFFFFFFF ∧ back y = 0xFFFFFFFF ∧
       y.rdF (Reg.dspPerr p.val) 2 0 = 2)) ∧
    (let y := doneOp z p.val v
     (∀ c, serviceCart z p.val = some c → c.tag = v.toNat → y.dsp.carts = carts.filter (fun x => x.tag != c.tag) ∧
       led y 1 = (led z 1 + 1) % 2 ^ 64 ∧
       (3 ≤ z.stage → 1 ≤ p.val → p.val ≤ 7 → y.rdF (coreStat p.val) 1 0 = 3)) ∧
     ((∀ c, serviceCart z p.val = some c → c.tag ≠ v.toNat) → y.dsp = z.dsp ∧ y.rdF (Reg.dspPerr p.val) 2 0 = 1)) ∧
    (let y := cancelOp z p.val v
     ((∀ c ∈ carts, c.tag ≠ v.toNat) → y = z.wr (Reg.dspPcanres p.val) 2) ∧
     (∀ c, carts.find? (fun c => c.tag == v.toNat) = some c →
       ((∃ q, c.place = .inService q) → y = z.wr (Reg.dspPcanres p.val) 1) ∧
       ((∀ q, c.place ≠ .inService q) → y.dsp.carts = carts.filter (fun x => x.tag != v.toNat) ∧ y.rd (Reg.dspPcanres p.val) = 0 ∧
         led y 2 = (led z 2 + 1) % 2 ^ 64)))

/-- With the dispatcher running. STEPCTL, with CORE out of reset, takes its place among the operations of its cycle; it acts so: with GO the
timer of the named hitch is armed for the tick written, with the level written, without it is neither armed nor waits; no other timer
changes. STEP_TIMER_FIRE in the cycle of phase 0, which a tick has once, with one timer, armed and due (a DUE 2^47 ticks or more ahead
counts as past, the model's choice, notes/assumptions/84.md), whose hitch accepts carts and is not suspended, and more than 64 carts free: a
cart of kind STEP for that hitch is in the pool and the timer neither is armed nor waits. STEP_WAIT_CART does the same for one that waits,
at any phase. DEFERRED_DUE in that cycle, with no post waiting: no cart is left deferred whose tick has come (in the same reading), and no
cart is lost. At another phase, once the tick's cycle of phase 0 has run, or while the dispatcher does not run, the two changes at phase 0
do nothing; with no timer waiting, STEP_WAIT_CART does nothing; that is the model's choice (notes/assumptions/4.md). Cites 01 R27, 12 R545,
12 R552, 12 R562, 12 R563, 12 R564. -/
def Obligations.StepTimersAndDeferredCarts : Prop :=
  (∀ (z : Chip) (p : Fin 10) (v : Word),
    let h := fld v 9 0
    let y := stepOp z p.val v
    let due := (z.rd (Reg.dspPsteplo p.val)).toNat + z.rdF (Reg.dspPstephi p.val) 15 0 * 2 ^ 32
    y.regs = z.regs ∧ y.dsp.carts = z.dsp.carts ∧
    timerOf y h = (if bit v 16 then ⟨due, fld v 14 12, true, false⟩ else { timerOf z h with
      armed := false
      wait := false }) ∧
    ∀ k, k ≠ h → timerOf y k = timerOf z k) ∧
  ∀ s : State,
    let zero := dspRuns s.chip = true ∧ s.chip.tb.phase = 0 ∧ s.chip.dsp.zeroAt ≠ some s.chip.tb.tick
    (∀ (p : Fin 10) (v : Word) (more : Bool), s.chip.rst.inCore = false → dspRuns s.chip = true → Completes (.stepctl p v more) s (fun x =>
      x = portEnd more { s.chip with dsp := { s.chip.dsp with ops := placeOp ⟨p.val, 0x48, v⟩ s.chip.dsp.ops } } ∧
      (more = false → s.chip.dsp.ops = [] →
        x = cycleEnd (cycleTimers (stepOp (cycleStart s.chip) p.val v) (zeroWaits s.chip)) s.chip.dsp.raises))) ∧
    (∀ h t, s.chip.dsp.timers = [(h, t)] → hitchEn s.chip h = true → suspended s.chip h = false → 64 < freeCarts s.chip →
      s.chip.dsp.ops = [] →
      let made := fun (x : Chip) => (∃ c ∈ x.dsp.carts, c.kind = 2 ∧ c.hitch = h ∧ c.level = t.level) ∧
        (timerOf x h).armed = false ∧ (timerOf x h).wait = false
      (zero → t.armed = true → tickSince s.chip.tb.tick t.due < 2 ^ 47 → Completes .stepTimerFire s made) ∧
      (dspRuns s.chip = true → t.wait = true → Completes .stepWaitCart s made)) ∧
    (zero → s.chip.dsp.posts = [] → s.chip.dsp.ops = [] → Completes .deferredDue s (fun x =>
      (∀ c ∈ x.dsp.carts, ∀ due, c.place = .deferred due → 2 ^ 47 ≤ tickSince s.chip.tb.tick due) ∧ s.chip.dsp.carts.length ≤ x.dsp.carts.length)) ∧
    (Still s.chip → ¬ zero → exec .stepTimerFire s = .next s ∧ exec .deferredDue s = .next s) ∧
    (Still s.chip → s.chip.dsp.timers.any (fun e => e.2.wait) = false → exec .stepWaitCart s = .next s)

/-- JCOMMIT with CORE out of reset and the dispatcher running, no earlier commit of the port running, takes its place among the operations
of its cycle. It acts so: for a hitch whose cart the port does not serve it is error 1; for a LEN above 1,000 error 4; both leave memory.
Else, where what it reads is undamaged, BUSY is 1 and the body of 1,012 bytes waits; with no other commit running the engine serves it, and
the page's first word is the next SEQ, the rest of memory as it was; while the engine serves another port's it waits and memory is as it
was. While a commit of the port runs the core stalls and holds the write behind it. JCOMMIT_COMPLETE of the port that the engine serves,
with no other commit and nothing held, writes the body, its CRC and SEQ behind it: with the first word in place, the page is valid, BUSY is
0, and the engine's turn is the next port's (its rotation starts at port 0, the model's choice, notes/assumptions/69.md); of a port that it
does not serve, nothing changes. WATCHDOG_EXPIRY of a core whose period in ticks has passed since its kick, outside a restart whose rate is
exceeded, takes the kick away and enters fault 1 with the core as item; otherwise nothing changes. That a change whose occasion does not
hold changes nothing is the model's choice (notes/assumptions/4.md). WDKICK restarts the period of a core that runs or waits and changes
nothing of another. CORE_STOP_TIMEOUT 1 ms after the entry into stage 3 stops SEQ1 to SEQ7 that still run. Cites 12 R535, 12 R566, 12 R567,
12 R568, 12 R569, 12 R571, 12 R584, 12 R585. -/
def Obligations.PagesAndWatchdogs : Prop :=
  (∀ (z : Chip) (p : Fin 10) (v : Word), Memory.wf z.mem = true → Undamaged z (stagingAddr p.val) 1016 →
    let h := fld v 9 0
    let y := commitOp z p.val v
    let serves := (serviceCart z p.val).any (fun c => c.hitch == h)
    let len := leAt (z.bytes (stagingAddr p.val) 1016) 6 2
    let seq := nextSeq (ofLe (z.bytes (pageAddr h) 4))
    let runs := fun (q : Nat) => Tab.get none z.dsp.commits q
    (serves = false → y.mem = z.mem ∧ y.rdF (Reg.dspPerr p.val) 2 0 = 1) ∧
    (serves = true → 1000 < len → y.mem = z.mem ∧ y.rdF (Reg.dspPerr p.val) 2 0 = 4) ∧
    (serves = true → len ≤ 1000 → y.rdBit (Reg.dspPjstat p.val) 0 = true ∧
      (Undamaged z (pageAddr h) 4 → (∀ q < 10, runs q = none) → ofLe (y.bytes (pageAddr h) 4) = seq ∧
        (∀ a, a < pageAddr h ∨ pageAddr h + 4 ≤ a → y.byteAt a = z.byteAt a) ∧
        ∃ body, body.length = 1012 ∧ Tab.get none y.dsp.commits p.val = some ⟨h, body, some seq⟩) ∧
      (∀ q h' b' n, q < 10 → q ≠ p.val → z.dsp.jturn = q → runs q = some ⟨h', b', some n⟩ → y.mem = z.mem ∧
        ∃ body, body.length = 1012 ∧ Tab.get none y.dsp.commits p.val = some ⟨h, body, none⟩))) ∧
  ∀ s : State,
    (∀ (p : Fin 10) (v : Word) (more : Bool), s.chip.rst.inCore = false →
      let busy := s.chip.rdBit (Reg.dspPjstat p.val) 0
      (dspRuns s.chip = true → busy = false → Completes (.jcommit p v more) s (fun x =>
        x = portEnd more { s.chip with dsp := { s.chip.dsp with ops := placeOp ⟨p.val, 0x30, v⟩ s.chip.dsp.ops } } ∧
        (more = false → s.chip.dsp.ops = [] →
          x = cycleEnd (cycleTimers (commitOp (cycleStart s.chip) p.val v) (zeroWaits s.chip)) s.chip.dsp.raises))) ∧
      (Still s.chip → dspRuns s.chip = false → exec (.jcommit p v more) s = .next s) ∧
      (Still s.chip → dspRuns s.chip = true → busy = true → exec (.jcommit p v more) s =
        .next { s with chip := { s.chip with dsp := { s.chip.dsp with
          stalls := Tab.set [] s.chip.dsp.stalls p.val (Tab.get [] s.chip.dsp.stalls p.val ++ [.commit v]) } } })) ∧
    (∀ p : Fin 10,
      (∀ (h seq : Nat) (body : List Byte), Memory.wf s.chip.mem = true →
        Tab.get none s.chip.dsp.commits p.val = some ⟨h, body, some seq⟩ → (∀ q, q ≠ p.val → Tab.get none s.chip.dsp.commits q = none) →
        body.length = 1012 → seq ≠ 0 → Tab.get [] s.chip.dsp.stalls p.val = [] → ofLe (s.chip.bytes (pageAddr h) 4) = seq →
        Completes (.jcommitComplete p) s (fun x => pageValid x h = true ∧
          x.rdBit (Reg.dspPjstat p.val) 0 = false ∧ Tab.get none x.dsp.commits p.val = none ∧ x.dsp.jturn = (p.val + 1) % 10 ∧
          ∀ a, a < pageAddr h + 4 ∨ pageAddr h + 1024 ≤ a → x.byteAt a = s.chip.byteAt a)) ∧
      (Still s.chip → (∀ h body n, Tab.get none s.chip.dsp.commits p.val ≠ some ⟨h, body, some n⟩) →
        exec (.jcommitComplete p) s = .next s)) ∧
    (∀ c : Fin 10,
      let state := s.chip.rdF (coreStat c.val) 1 0
      let n := s.chip.rdF (coreWdcfg c.val) 23 0
      (∀ t, Tab.get none s.chip.dsp.kicks c.val = some t → n ≠ 0 → state ≠ 3 → 10000 * n ≤ s.chip.tickTimeSince t →
        s.chip.books.faultQ.length < 16 → rateExceeded s.chip = false → Completes (.watchdogExpiry c) s (fun x =>
          Tab.get none x.dsp.kicks c.val = none ∧ x.books.faultQ =
            s.chip.books.faultQ ++ [⟨1, faultClass 1, !s.chip.restarting, c.val, s.chip.tb.tick⟩])) ∧
      (Still s.chip → (∀ t, Tab.get none s.chip.dsp.kicks c.val = some t → n = 0 ∨ state = 3 ∨ s.chip.tickTimeSince t < 10000 * n) →
        exec (.watchdogExpiry c) s = .next s) ∧
      (Still s.chip → s.chip.rst.inCore = false → (state = 1 ∨ state = 2 →
        exec (.wdkick c) s = .next { s with chip := { s.chip with
          dsp := { s.chip.dsp with kicks := Tab.set none s.chip.dsp.kicks c.val (some s.chip.tickTime) } } }) ∧
        (state ≠ 1 → state ≠ 2 → exec (.wdkick c) s = .next s))) ∧
    (∀ (c : Fin 8) (t : Nat),
      let runs := s.chip.rdF (coreStat c.val) 1 0 = 1 ∨ s.chip.rdF (coreStat c.val) 1 0 = 2
      (s.chip.dsp.stage3 = some t → 1 ≤ c.val → runs → t + 1000000 ≤ s.chip.nowNs → Completes (.coreStopTimeout c) s (fun x =>
        x.rdF (coreStat c.val) 1 0 = 3 ∧ KeepsRegsBut [coreStat c.val] s.chip x ∧
        Tab.get none x.dsp.stopped c.val = some s.chip.tickTime)) ∧
      (Still s.chip → s.chip.dsp.stage3 = none ∨ c.val = 0 ∨ ¬ runs → exec (.coreStopTimeout c) s = .next s))

/-- A byte read with one of its 13 bits flipped has class CE, with two flipped class UE, with none CLEAN. SRAM_SCRUB_READ of an array that
is scrubbed: its position moves to the next word, cyclically; MEM_CECNT or MEM_UECNT counts one by the class of the word with the bits that
have flipped, neither for CLEAN; a CE word waits for its write-back unless the remap that this error calls for has rewritten it; with
scrubbing off, or an array not initialised or held, nothing changes (notes/assumptions/4.md). SCRUB_WRITEBACK of a waiting word: it no
longer waits and its tracker entry is marked written; no other word's waiting ends; a word that does not wait changes nothing
(notes/assumptions/4.md). DRAM_SCRUB_READ while that scrubber runs: the position moves to the next block of its range, cyclically, and the
counters count the CE and the UE among the eight words. Which bits have flipped is the command's operand (notes/assumptions/18.md). That no
scrub changes a byte as written, and that a write-back of a DRAM word does where the code has taken its damage for another word, is the
model's reading (notes/assumptions/57.md), as is that damage of three flips or more may be taken for one. Cites 13 R588, 13 R592, 13 R594,
13 R595, 13 R596, 13 R597, 13 R611. -/
def Obligations.ScrubbersAndTracker : Prop :=
  (byteClass 0 = 0 ∧ (∀ i, i < 13 → byteClass (2 ^ i) = 1) ∧ (∀ i j, i < j → j < 13 → byteClass (2 ^ i + 2 ^ j) = 2)) ∧
  ∀ s : State, Memory.wf s.chip.mem = true →
    let kept := fun (x : Chip) => ∀ p, x.byteAt p = s.chip.byteAt p
    let read := fun (w : Nat) (ms : List Nat) => wordErr (upset s.chip (8 * w) ms) w (8 * w) (8 * w + 8)
    (∀ (a : Fin 62) (flips : List Nat),
      let runs := s.chip.rdBit Reg.memSscrub 16 = true ∧ arrayInit s.chip a.val = true ∧ arrayLive s.chip a.val = true
      let arr := arrayOf a.val
      let i := Tab.get 0 s.chip.memu.pos a.val
      let w := arr.1 / 8 + i
      let e := read w (flips.take 8)
      (runs → Completes (.sramScrubRead a flips) s (fun x => Tab.get 0 x.memu.pos a.val = (i + 1) % arr.2.1 ∧
        (∀ b, b ≠ a.val → Tab.get 0 x.memu.pos b = Tab.get 0 s.chip.memu.pos b) ∧
        x.rd Reg.memCecnt = s.chip.rd Reg.memCecnt + (if e.2 = 1 then 1 else 0) ∧
        x.rd Reg.memUecnt = s.chip.rd Reg.memUecnt + (if e.2 = 2 then 1 else 0) ∧
        (e.2 = 1 → (w, e.1) ∈ x.memu.wback ∨ w ∈ x.memu.spared) ∧ kept x)) ∧
      (Still s.chip → ¬ runs → exec (.sramScrubRead a flips) s = .next s)) ∧
    (∀ w : Nat,
      (∀ xs, s.chip.memu.wback.find? (fun e => e.1 == w) = some (w, xs) → Completes (.scrubWriteback w) s (fun x =>
        (∀ e ∈ x.memu.wback, e.1 ≠ w) ∧ (∀ e, e.1 ≠ w → (e ∈ x.memu.wback ↔ e ∈ s.chip.memu.wback)) ∧
        (∀ e ∈ x.memu.track, e.word = w → e.wb = true) ∧
        x.memu.track.map (fun e => (e.word, e.count)) = s.chip.memu.track.map (fun e => (e.word, e.count)) ∧
        (isDram (8 * w) = false ∨ (∀ m ∈ xs, m = 0) → kept x))) ∧
      (Still s.chip → (∀ e ∈ s.chip.memu.wback, e.1 ≠ w) → exec (.scrubWriteback w) s = .next s)) ∧
    (∀ flips : List Nat,
      let lo := s.chip.rdF Reg.memDscrlo 28 0
      let hi := s.chip.rdF Reg.memDscrhi 28 0
      let p := s.chip.rdF Reg.memDscrpos 28 0
      let b := if p < lo ∨ p > hi then lo else p
      let cls := (List.range 8).map (fun i => (read (0x20000000 + 8 * b + i) ((flips.drop (8 * i)).take 8)).2)
      (dscrubRuns s.chip = true → Completes (.dramScrubRead flips) s (fun x =>
        x.rd Reg.memDscrpos = wn (if b + 1 ≤ hi then b + 1 else lo) ∧
        x.rd Reg.memCecnt = s.chip.rd Reg.memCecnt + wn (cls.filter (fun k => k == 1)).length ∧
        x.rd Reg.memUecnt = s.chip.rd Reg.memUecnt + wn (cls.filter (fun k => k == 2)).length ∧ kept x)) ∧
      (Still s.chip → dscrubRuns s.chip = false → exec (.dramScrubRead flips) s = .next s))

/-- DRAM_TEMP_READ outside self-refresh: the hottest reading is kept; the refresh row is that of the hottest die when that row is higher
than the present one; else the present row, unless every reading has stayed at least 5 degrees below its lower edge for 100 ms, when it is
the row of the hottest die; above 150 degrees MEM_DREF.HOT is set. With no reading, or in self-refresh, nothing changes, which is the
model's choice (notes/assumptions/4.md). FILL_GO by an agent that may write it: without GO nothing changes; refused, only MEM_FILLSTAT.ERR
changes, to the code of the check; else the fill runs from its address, BUSY is 1 and MEM_FILLDONEB and MEM_FILLSTAT.ERR are 0. The order of
the checks, and that an accepted GO clears both, are the model's reading (notes/assumptions/58.md), and the readings are operands
(notes/assumptions/78.md). FILL_DONE: every byte of what was left reads as the pattern laid over memory, every other byte as before, BUSY is
0 and no fill runs. MEM_SINIT_WRITE sets the bits written among 15:0 and nothing else. Cites 13 R604, 13 R605, 13 R606, 13 R610. -/
def Obligations.RefreshAndFills : Prop :=
  ∀ s : State,
    (∀ (t0 : Int) (ts : List Int), s.chip.memu.selfRef = false →
      let t := ts.foldl max t0
      let row := s.chip.rdF Reg.memStat 4 3
      let below := row ≠ 0 ∧ t ≤ rowEdge row - 5
      let long := below ∧ ∃ c, s.chip.memu.cool = some c ∧ c + 100000000 ≤ s.chip.nowNs
      Completes (.dramTempRead (t0 :: ts)) s (fun x => x.memu.tjd = t ∧ x.memu.dread = some s.chip.nowNs ∧
        (∀ u ∈ t0 :: ts, u ≤ x.memu.tjd) ∧
        (refRow t > row ∨ long → x.rdF Reg.memStat 4 3 = refRow t) ∧ (refRow t ≤ row → ¬ long → x.rdF Reg.memStat 4 3 = row) ∧
        (t > 150 → x.rdBit Reg.memDref 8 = true))) ∧
    (Still s.chip → exec (.dramTempRead []) s = .next s ∧
      (s.chip.memu.selfRef = true → ∀ ts, exec (.dramTempRead ts) s = .next s)) ∧
    (∀ (who : Agent) (v : Word), MayWrite s.chip who Reg.memFillcmd →
      let a := (s.chip.rd Reg.memFilladrlo).toNat + s.chip.rdF Reg.memFilladrhi 7 0 * 2 ^ 32
      let n := (s.chip.rd Reg.memFilllen).toNat
      let pat := (s.chip.rd Reg.memFillpatlo).toNat + (s.chip.rd Reg.memFillpathi).toNat * 2 ^ 32
      (Still s.chip → bit v 0 = false → exec (.fillGo who v) s = .next s) ∧
      (Still s.chip → bit v 0 = true → fillCheck s.chip a n ≠ 0 →
        exec (.fillGo who v) s = .next { s with chip := s.chip.wrF Reg.memFillstat 3 0 (fillCheck s.chip a n) }) ∧
      (bit v 0 = true → fillCheck s.chip a n = 0 → Completes (.fillGo who v) s (fun x => x.memu.fill = some (a, n, pat, 20 * s.chip.nowNs) ∧
        x.rdBit Reg.memStat 0 = true ∧ x.rd Reg.memFilldoneb = 0 ∧ x.rdF Reg.memFillstat 3 0 = 0 ∧ x.mem = s.chip.mem))) ∧
    (∀ a n pat t, s.chip.memu.fill = some (a, n, pat, t) → Completes .fillDone s (fun x =>
      (∀ b, a ≤ b → b < a + n → x.byteAt b = patByte pat b) ∧ (∀ b, b < a ∨ a + n ≤ b → x.byteAt b = s.chip.byteAt b) ∧
      x.rdBit Reg.memStat 0 = false ∧ x.memu.fill = none ∧ x.rd Reg.memFilldoneb = s.chip.rd Reg.memFilldoneb + wn n ∧
      x.rdF Reg.memFillstat 7 4 = 1)) ∧
    (Still s.chip → s.chip.memu.fill = none → exec .fillDone s = .next s) ∧
    (∀ (who : Agent) (v : Word), Still s.chip → MayWrite s.chip who Reg.memSinit →
      exec (.memSinitWrite who v) s = .next { s with chip := s.chip.wr Reg.memSinit (s.chip.rd Reg.memSinit ||| (v &&& 0xFFFF)) })

/-- While AON is out of cold reset with PORST_L high. HFRAC_ADVANCE: HFRAC counts to 3,599 and then 0 with ODO_HOURS counting one, so that
3,600 x HOURS + HFRAC rises by one while HFRAC is below 3,600 and HOURS below its end; at every tenth full hour of a running odometer,
counted through the wrap of HOURS, a snapshot is asked for, which PEND shows while a write runs. HISTOGRAM_SAMPLE: no bin falls, none rises
by more than one, and the bin of the latest TJC, of the latest VSUP and of the latest VCORE each rises by one unless it stands at its end.
Otherwise both change nothing, which is the model's choice (notes/assumptions/4.md). The readings are operands (notes/assumptions/78.md).
EXTREME_CHECK: PWR_TJC, PWR_VCORE and PWR_VAON take the readings; the highest TJC, VSUP, VCORE and VAON afterwards are at least the reading,
the lowest at most it, and an extreme that the reading does not pass stays as it was. Cites 14 R625, 14 R627, 14 R629, 14 R630, 14 R632. -/
def Obligations.OdometerTimeAndExtremes : Prop :=
  ∀ s : State,
    (operating s.chip = true → Completes .hfracAdvance s (fun x =>
      (s.chip.rdF Reg.odoHfrac 11 0 < 3600 → (s.chip.rd Reg.odoHours).toNat < 2 ^ 32 - 1 →
        3600 * (x.rd Reg.odoHours).toNat + x.rdF Reg.odoHfrac 11 0 =
          3600 * (s.chip.rd Reg.odoHours).toNat + s.chip.rdF Reg.odoHfrac 11 0 + 1 ∧ x.rdF Reg.odoHfrac 11 0 < 3600) ∧
      (odoRuns s.chip = true → s.chip.rdF Reg.odoHfrac 11 0 = 3599 → ((s.chip.rd Reg.odoHours).toNat + 1) % 2 ^ 32 % 10 = 0 →
        1 ≤ x.odo.waits ∧ x.rdBit Reg.odoStat 2 = s.chip.odo.write.isSome))) ∧
    (operating s.chip = true → Completes .histogramSample s (fun x =>
      let bin := fun (y : Chip) (k : Nat) => Tab.get 0 y.odo.hist k
      let tj := tempBin (BitVec.toInt (BitVec.ofNat 16 (s.chip.rdF Reg.pwrTjc 15 0)))
      let vs := 256 + min (s.chip.rdF Reg.pwrVsup 15 0 / 20) 63
      let vc := 320 + (clampI (((s.chip.rdF Reg.pwrVcore 15 0 : Nat) : Int) - 600) 0 319 / 5).toNat
      (∀ k, bin s.chip k ≤ bin x k ∧ bin x k ≤ bin s.chip k + 1) ∧
      ∀ k, k = tj ∨ k = vs ∨ k = vc → bin s.chip k < 2 ^ 32 - 1 → bin x k = bin s.chip k + 1)) ∧
    (Still s.chip → operating s.chip = false → exec .hfracAdvance s = .next s ∧ exec .histogramSample s = .next s) ∧
    (∀ (tjc : Int) (vcore vaon : Nat), Completes (.extremeCheck tjc vcore vaon) s (fun x =>
      x.rd Reg.pwrTjc = wn (tjc % 65536).toNat ∧ x.rd Reg.pwrVcore = wn (vcore % 65536) ∧ x.rd Reg.pwrVaon = wn (vaon % 65536) ∧
      ∀ k v, (k, v) ∈ [(0, tjc), (4, ((s.chip.rdF Reg.pwrVsup 15 0 : Nat) : Int)), (6, (vcore : Int)), (8, (vaon : Int))] →
        -2147483648 < v → v < 2147483647 →
        (∃ e, Tab.get? x.odo.ext k = some e ∧ v ≤ e.value ∧
          ∀ o, Tab.get? s.chip.odo.ext k = some o → o.value ≤ e.value ∧ (v ≤ o.value → e = o)) ∧
        (∃ e, Tab.get? x.odo.ext (k + 1) = some e ∧ e.value ≤ v ∧
          ∀ o, Tab.get? s.chip.odo.ext (k + 1) = some o → e.value ≤ o.value ∧ (o.value ≤ v → e = o))))

/-- SNAPSHOT_CAPTURE, of a running odometer with a capture waiting, no write running and no clear, at phase 0: the write goes to the copy
that is not the current one, with the highest waiting cause and the next SEQ; no capture waits; that copy's VALID word reads 0, and every
byte outside that copy reads as before, the current copy with them. Otherwise nothing changes, which is the model's choice
(notes/assumptions/4.md). SNAPSHOT_WRITE_DONE of a write of 4,084 bytes that begin with its SEQ, not FINAL (whose end begins the seal):
good, the copy holds a valid snapshot and is the current one, ODO_SEQ is its SEQ, and every byte outside the copy reads as before; failed,
ODO_SNAPERR counts one and memory and the current copy stay; either way no write runs. With no write running nothing changes, likewise.
Cites 14 R631, 14 R632, 14 R633, 14 R634, 14 R635, 14 R636, 14 R644. -/
def Obligations.SnapshotsNeverTouchTheGoodCopy : Prop :=
  ∀ s : State,
    (let due := odoRuns s.chip = true ∧ s.chip.odo.waits ≠ 0 ∧ s.chip.odo.write = none ∧ s.chip.odo.clear = none ∧
       s.chip.tb.phase = 0
     let copy := 1 - s.chip.rdF Reg.odoStat 3 3
     (due → Completes .snapshotCapture s (fun x => (∃ w, x.odo.write = some w ∧ w.copy = copy ∧ w.cause = s.chip.odo.waits ∧
         w.seq = ((s.chip.rd Reg.odoSeq).toNat + 1) % 2 ^ 32) ∧ x.odo.waits = 0 ∧
       (∀ k, k < 4 → x.byteAt (copyAddr copy + 4092 + k) = 0) ∧
       (∀ a, a < copyAddr copy ∨ copyAddr copy + 4096 ≤ a → x.byteAt a = s.chip.byteAt a) ∧
       x.rdF Reg.odoStat 3 3 = s.chip.rdF Reg.odoStat 3 3)) ∧
     (Still s.chip → ¬ due → exec .snapshotCapture s = .next s)) ∧
    (∀ w : SnapWrite, s.chip.odo.write = some w → w.img.length = 4084 → leAt w.img 0 4 = w.seq → w.copy ≤ 1 → w.fin = false →
      Memory.wf s.chip.mem = true →
      Completes (.snapshotWriteDone true) s (fun x => x.odo.write = none ∧ copyValid (copyBytes x w.copy) = true ∧
        x.rdF Reg.odoStat 3 3 = w.copy ∧ x.rd Reg.odoSeq = wn w.seq ∧
        ∀ a, a < copyAddr w.copy ∨ copyAddr w.copy + 4096 ≤ a → x.byteAt a = s.chip.byteAt a) ∧
      Completes (.snapshotWriteDone false) s (fun x => x.odo.write = none ∧ x.rd Reg.odoSnaperr = s.chip.rd Reg.odoSnaperr + 1 ∧
        x.mem = s.chip.mem ∧ x.rdF Reg.odoStat 3 3 = s.chip.rdF Reg.odoStat 3 3 ∧ x.rd Reg.odoSeq = s.chip.rd Reg.odoSeq)) ∧
    (Still s.chip → s.chip.odo.write = none → ∀ good, exec (.snapshotWriteDone good) s = .next s)

/-- ODO_SNAP by an agent that may write it asks for a capture of cause 3 of a running odometer, which PEND shows while a write runs, and
does nothing else. ODO_CLR by any agent but H3, with CORE out of reset, counts one in ODO_CLRREF and leaves the odometer and memory. By H3
under maintenance: with 255 clears made, code 3; while a write or a clear runs, code 4; with no part named, code 5; each changes only the
code (the order of these checks is the model's reading, notes/assumptions/59.md); else the next history entry is written, the clear waits,
and every byte outside that entry reads as before. CLEAR_APPLY at phase 0 with no write running: the counters and bins of the parts named
hold what this cycle of phase 0 has brought and no more, and the extremes, if named, are none; the others are as they were, the number of
clears counts one and a snapshot write of cause 4 or above runs; otherwise nothing changes, which is the model's choice
(notes/assumptions/4.md). Cites 14 R631, 14 R632, 14 R640, 14 R643, 14 R644, 14 R645, 14 R649. -/
def Obligations.ClearsAreMaintenanceOnly : Prop :=
  ∀ s : State,
    (∀ who : Agent, Still s.chip → MayWrite s.chip who Reg.odoCmd →
      exec (.odoSnap who) s = .next { s with chip := if odoRuns s.chip then { s.chip.wrBit Reg.odoStat 2 s.chip.odo.write.isSome with
        odo := { s.chip.odo with waits := max s.chip.odo.waits 3 } } else s.chip }) ∧
    (∀ (who : Agent) (v : Word), who ≠ .h3 → s.chip.rst.inCore = false → Completes (.odoClr who v) s (fun x =>
      x.rd Reg.odoClrref = s.chip.rd Reg.odoClrref + 1 ∧ x.odo = s.chip.odo ∧ x.mem = s.chip.mem)) ∧
    (∀ v : Word, MayWrite s.chip .h3 Reg.odoClr →
      let n := s.chip.rdF Reg.odoClrstat 15 8
      let busy := s.chip.odo.write ≠ none ∨ s.chip.odo.clear ≠ none
      let code := fun (k : Nat) => exec (.odoClr .h3 v) s = .next { s with chip := s.chip.wrF Reg.odoClrstat 3 0 k }
      (Still s.chip → (255 ≤ n → code 3) ∧ (n < 255 → busy → code 4) ∧ (n < 255 → ¬ busy → fld v 2 0 = 0 → code 5)) ∧
      (n < 255 → ¬ busy → fld v 2 0 ≠ 0 → Completes (.odoClr .h3 v) s (fun x => x.odo.clear = some ⟨fld v 2 0⟩ ∧
        x.odo.hist = s.chip.odo.hist ∧ x.odo.cnt = s.chip.odo.cnt ∧ x.odo.ext = s.chip.odo.ext ∧
        ∀ a, a < 0x05F02000 + 32 * n ∨ 0x05F02000 + 32 * n + 32 ≤ a → x.byteAt a = s.chip.byteAt a))) ∧
    (∀ c : OdoClear, s.chip.odo.clear = some c →
      (s.chip.tb.phase = 0 → s.chip.odo.write = none → Completes .clearApply s (fun x => x.odo.clear = none ∧
        (∀ k, k < 384 → Tab.get 0 x.odo.hist k =
          Tab.get 0 s.chip.odo.hist k - (if natBit c.mask 0 then Tab.get 0 s.chip.odo.edge.hist k else 0)) ∧
        (∀ k, k < 64 → Tab.get 0 x.odo.cnt k =
          Tab.get 0 s.chip.odo.cnt k - (if natBit c.mask 1 then Tab.get 0 s.chip.odo.edge.cnt k else 0)) ∧
        x.odo.ext = (if natBit c.mask 2 then [] else s.chip.odo.ext) ∧
        x.rdF Reg.odoClrstat 15 8 = (s.chip.rdF Reg.odoClrstat 15 8 + 1) % 256 ∧
        ∃ w, x.odo.write = some w ∧ 4 ≤ w.cause)) ∧
      (Still s.chip → s.chip.tb.phase ≠ 0 ∨ s.chip.odo.write ≠ none → exec .clearApply s = .next s)) ∧
    (Still s.chip → s.chip.odo.clear = none → exec .clearApply s = .next s)

/-- A fault outside class Degraded of an island in STARTING, RUN or DEGRADED leaves it in SAFE with every SO off, every force line asserted,
and the fault in SAF_FAULT1, or in SAF_FAULT2 from DEGRADED or behind a Degraded fault of its tick (that a fault in STARTING goes to
SAF_FAULT1 is the model's reading, notes/assumptions/50.md); in SAFE it only counts one in SAF_FLTCNT, but goes to SAF_FAULT2 too as the
second of the tick that led there; in RESET it changes nothing, where the supervisor holds the island. These two are the model's reading of
R692 and R695, and of R691 'from any state' (notes/assumptions/50.md). LOCKSTEP is fault 1, CLOCK_FAULT 3, MEMUE 5; VSAFE and VWARN_CHANGE
are readings alike: above 1.98 V fault 4, below 1.62 V RESET with every force line asserted, between them only the reading is kept, and
VWARN outside RESET set by the level 1.669 V; DEGTIME is fault 13 once the degraded timer has run out, and nothing before; SELF_TEST_DONE in
STARTING marks the pass, or is fault 1 (notes/assumptions/47.md), and does nothing in another state, which is the model's choice
(notes/assumptions/4.md). ISLAND_RELEASE of an island in RESET with AON running and VDD_SAFE not last read below 1.62 V puts it in STARTING,
with VWARN by the reading, and, where the last reading lies above 1.98 V, on to SAFE with fault 4; otherwise nothing changes. Cites 15 R657,
15 R658, 15 R659, 15 R660, 15 R661, 15 R662, 15 R663, 15 R690, 15 R691, 15 R694, 15 R695. -/
def Obligations.IslandFaultsEndInSafe : Prop :=
  ∀ s : State,
    let st := islState s.chip
    let live := st = 1 ∨ st = 2 ∨ st = 3
    let safe := fun (code : Nat) (x : Chip) => islState x = 4 ∧ x.rdF Reg.safOut 31 16 = 0 ∧ x.rdF Reg.safOut 15 0 = 0xFFFF ∧
      x.rdF Reg.sigForcestat 15 0 = 0xFFFF ∧ 
      x.rd (if st = 3 ∨ degradedNow s.chip = true then Reg.safFault2 else Reg.safFault1) = faultWord s.chip code 0
    let counted := fun (code : Nat) =>
      let c := s.chip.bump Reg.safFltcnt
      if s.chip.isl.safeTick = some s.chip.tb.tick then { c.wr Reg.safFault2 (faultWord s.chip code 0) with isl := { c.isl with safeTick := none } }
      else c
    let told := fun (mv : Nat) =>
      let c := { s.chip with pwr := { s.chip.pwr with safeMv := some mv } }
      if st = 0 then c else c.wrBit Reg.safStat 10 (decide (mv < 1669))
    (∀ c code, (c, code) ∈ [(Instr.lockstep, 1), (Instr.clockFault, 3), (Instr.memue, 5)] →
      (live → Completes c s (safe code)) ∧ (Still s.chip → st = 4 → exec c s = .next { s with chip := counted code }) ∧ (Still s.chip → st = 0 → exec c s = .next s)) ∧
    (∀ mv : Nat, ∀ c ∈ [Instr.vsafe mv, .vwarnChange mv],
      (1980 < mv → live → Completes c s (safe 4)) ∧
      (mv < 1620 → Completes c s (fun x => islState x = 0 ∧ x.rdF Reg.sigForcestat 15 0 = 0xFFFF)) ∧
      (Still s.chip → 1620 ≤ mv → mv ≤ 1980 ∨ st = 0 → exec c s = .next { s with chip := told mv })) ∧
    (∀ t, s.chip.isl.degEnd = some t → (st = 3 → t ≤ s.chip.nowNs → Completes .degtime s (safe 13)) ∧
      (Still s.chip → st ≠ 3 ∨ s.chip.nowNs < t → exec .degtime s = .next s)) ∧
    (Still s.chip → s.chip.isl.degEnd = none → exec .degtime s = .next s) ∧
    (st = 1 → Completes (.selfTestDone false) s (safe 1) ∧ (Still s.chip → exec (.selfTestDone true) s =
      .next { s with chip := { s.chip with isl := { s.chip.isl with selfTest := true } } })) ∧
    (Still s.chip → st ≠ 1 → ∀ pass, exec (.selfTestDone pass) s = .next s) ∧
    (st = 0 → s.chip.boot.on = true → supplyLow s.chip = false → Completes .islandRelease s (fun x =>
      (supplyHigh s.chip = false → islState x = 1) ∧
      (supplyHigh s.chip = true → islState x = 4 ∧ x.rd Reg.safFault1 = faultWord s.chip 4 0 ∧ x.rdF Reg.safOut 31 16 = 0) ∧
      ∀ mv, s.chip.pwr.safeMv = some mv → x.rdBit Reg.safStat 10 = decide (mv < 1669))) ∧
    (Still s.chip → st ≠ 0 ∨ s.chip.boot.on = false ∨ supplyLow s.chip = true → exec .islandRelease s = .next s)

/-- ISLAND_SAMPLE of an island that runs under its profile with its setting unchanged: for each of the 24 inputs the level sampled and the
run of equal samples are kept, the run counted to at most 16; a level that SIFILT samples in a row have shown is the accepted one, else the
accepted one stays; SAF_CFGSTAT shows the setting sampled, SAF_CECNT counts the corrections reported. Of an island that has no profile to
take, each level and run are kept alike, and none is accepted anew, which is the model's reading (notes/assumptions/49.md). In RESET the
sample changes nothing, which is the model's choice (notes/assumptions/4.md). DISCREPANCY_EXPIRY of a pair that has differed for strictly
more than DISC ms and has not been told: it is told, and in RUN, with no recurrence and no Degraded fault in this tick, the island is
DEGRADED with the pair's first input marked and no permit of the pair; else nothing changes. NODE_FRESH_TIMEOUT of a fresh node whose last
frame is older than SWD ticks, strictly as there (notes/assumptions/49.md): it is not fresh and SAF_NODETOCNT counts one; else nothing
changes. Cites 15 R660, 15 R665, 15 R670, 15 R673, 15 R682, 15 R700. -/
def Obligations.IslandSamplesInputs : Prop :=
  ∀ s : State,
    (∀ (si rb cfg : Word) (ces acc : Nat), islState s.chip ≠ 0 → hasProf s.chip = true → s.chip.isl.cfgAcc = some acc →
      fld cfg 15 0 = acc → Completes (.islandSample si rb cfg ces) s (fun x =>
        x.rdF Reg.safCfgstat 31 16 = acc ∧ x.rd Reg.safCecnt = s.chip.rd Reg.safCecnt + wn ces ∧ x.isl.rb = fld rb 15 0 ∧
        ∀ n, n < 24 →
          let e := Tab.get SafeIn.zero s.chip.isl.ins n
          let y := Tab.get SafeIn.zero x.isl.ins n
          y.raw = bit si n ∧ y.run = (if e.run ≠ 0 ∧ e.raw = bit si n then min (e.run + 1) 16 else 1) ∧
          y.acc = (if pf s.chip 10 1 ≤ y.run then some (bit si n) else e.acc))) ∧
    (∀ (si rb cfg : Word) (ces : Nat), islState s.chip ≠ 0 → hasProf s.chip = false → s.chip.isl.profiles = [] →
      Completes (.islandSample si rb cfg ces) s (fun x => x.rd Reg.safCecnt = s.chip.rd Reg.safCecnt + wn ces ∧ x.isl.rb = fld rb 15 0 ∧
        ∀ n, n < 24 →
          let e := Tab.get SafeIn.zero s.chip.isl.ins n
          Tab.get SafeIn.zero x.isl.ins n = ⟨bit si n, if e.run ≠ 0 ∧ e.raw = bit si n then min (e.run + 1) 16 else 1, e.acc⟩)) ∧
    (∀ (si rb cfg : Word) (ces : Nat), Still s.chip → islState s.chip = 0 → exec (.islandSample si rb cfg ces) s = .next s) ∧
    (∀ p : Fin 12,
      let e := Tab.get SafePair.zero s.chip.isl.pairs p.val
      (∀ t, e.differ = some t → 100 * pf s.chip 12 2 < tickSince s.chip.tb.tick t → e.told = false →
        Completes (.discrepancyExpiry p) s (fun x =>
          let y := Tab.get SafePair.zero x.isl.pairs p.val
          y.told = true ∧ y.differ = e.differ ∧
          (islState s.chip = 2 → recurs s.chip 12 (2 * p.val) = false → degradedNow s.chip = false →
            islState x = 3 ∧ x.rdBit Reg.safSiflt (2 * p.val) = true ∧ y.permit = false))) ∧
      (Still s.chip → (∀ t, e.differ = some t → tickSince s.chip.tb.tick t ≤ 100 * pf s.chip 12 2 ∨ e.told = true) →
        exec (.discrepancyExpiry p) s = .next s)) ∧
    (∀ k : Fin 16,
      let last := (Tab.get SafeNode.zero s.chip.isl.nodes k.val).last
      (∀ t, last = some t → pf s.chip 11 1 < tickSince s.chip.tb.tick t → isFresh s.chip k.val = true →
        Completes (.nodeFreshTimeout k) s (fun x => isFresh x k.val = false ∧
          x.rd Reg.safNodetocnt = s.chip.rd Reg.safNodetocnt + 1 ∧ ∀ j, j < 16 → j ≠ k.val → isFresh x j = isFresh s.chip j)) ∧
      (Still s.chip → isFresh s.chip k.val = false ∨ (∀ t, last = some t → tickSince s.chip.tb.tick t ≤ pf s.chip 11 1) →
        exec (.nodeFreshTimeout k) s = .next s))

/-- TP_PULSE_START in a tick of the pulse, under a profile, with the output not yet low: it is low and phase is 1,000 or later; else nothing
changes, which is the model's choice (notes/assumptions/4.md). TP_PULSE_CHECK of a low output with one fed input still high, in RUN with no
recurrence and no Degraded fault in this tick: DEGRADED with that input marked; with none, no fault; TP_PULSE_END: the output is no longer
low and counts as pulsed; of an output that is not low both change nothing. SO_OFF_PULSE_START of an output that is on, in a tick of its
pulse, starts it; SO_OFF_PULSE_CHECK, in the tick of the moment 500 ns before OPW has passed and once, marks it checked when the readback is
off, and else, in RUN with no recurrence and no Degraded fault in this tick, leaves the island DEGRADED with that output off and marked;
SO_OFF_PULSE_END, in the tick in which OPW has passed, ends it and counts a checked one in SAF_OPCNT; at another time, or without a pulse,
these two change nothing, likewise. Cites 15 R671, 15 R672, 15 R676, 15 R677, 15 R691. -/
def Obligations.IslandTestPulses : Prop :=
  ∀ s : State,
    (∀ k : Fin 4,
      let low := fun (y : Chip) => y.isl.tpLow.contains k.val
      let may := islState s.chip ≠ 0 ∧ hasProf s.chip = true ∧ tpTick s.chip k.val = true ∧ low s.chip = false
      (may → Completes (.tpPulseStart k) s (fun x => low x = true ∧ 1000 ≤ x.tb.phase ∧ x.regs = s.chip.regs)) ∧
      (Still s.chip → ¬ may → exec (.tpPulseStart k) s = .next s) ∧
      (∀ si : Word,
        let high := s.chip.isl.tpRaw.filter (fun n => pf s.chip (16 + n) 1 % 8 == k.val + 1 && natBit si.toNat n)
        (low s.chip = true → high = [] → Completes (.tpPulseCheck k si) s (fun x => islState x = islState s.chip ∧
          x.rd Reg.safSiflt = s.chip.rd Reg.safSiflt)) ∧
        (∀ n, low s.chip = true → high = [n] → n < 24 → islState s.chip = 2 → recurs s.chip 11 n = false → degradedNow s.chip = false →
          Completes (.tpPulseCheck k si) s (fun x => islState x = 3 ∧ x.rdBit Reg.safSiflt n = true)) ∧
        (Still s.chip → low s.chip = false → exec (.tpPulseCheck k si) s = .next s)) ∧
      (low s.chip = true → Completes (.tpPulseEnd k) s (fun x => low x = false ∧ k.val ∈ x.isl.tpDone)) ∧
      (Still s.chip → low s.chip = false → exec (.tpPulseEnd k) s = .next s)) ∧
    (∀ n : Fin 16,
      let o := Tab.get SafeOut.zero s.chip.isl.outs n.val
      let out := fun (y : Chip) => Tab.get SafeOut.zero y.isl.outs n.val
      (s.chip.rdBit Reg.safOut (16 + n.val) = true → soCfg s.chip n.val 4 4 = 1 →
        s.chip.tb.tick % 2 ^ (soCfg s.chip n.val 3 0 + 10) = 64 * n.val → o.pulse = none →
        Completes (.soOffPulseStart n) s (fun x => (out x).pulse = some (s.chip.atPhase 1000).nowNs ∧ (out x).checked = false)) ∧
      (∀ t, o.pulse = some t →
        let due := t + 1000 * soCfg s.chip n.val 25 16
        (o.checked = false → s.chip.inTick (due - 500) = true →
          Completes (.soOffPulseCheck n false) s (fun x => out x = { o with checked := true } ∧ x.regs = s.chip.regs) ∧
          (islState s.chip = 2 → recurs s.chip 10 n.val = false → degradedNow s.chip = false →
            Completes (.soOffPulseCheck n true) s (fun x => islState x = 3 ∧
              x.rdBit Reg.safSoflt n.val = true ∧ x.rdBit Reg.safOut (16 + n.val) = false))) ∧
        (s.chip.inTick due = true → Completes (.soOffPulseEnd n) s (fun x => (out x).pulse = none ∧
          x.rd Reg.safOpcnt = s.chip.rd Reg.safOpcnt + (if o.checked then 1 else 0))) ∧
        (Still s.chip → o.checked = true ∨ s.chip.inTick (due - 500) = false → ∀ rb, exec (.soOffPulseCheck n rb) s = .next s) ∧
        (Still s.chip → s.chip.inTick due = false → exec (.soOffPulseEnd n) s = .next s)) ∧
      (Still s.chip → o.pulse ≠ none → exec (.soOffPulseStart n) s = .next s) ∧
      (Still s.chip → o.pulse = none → (∀ rb, exec (.soOffPulseCheck n rb) s = .next s) ∧ exec (.soOffPulseEnd n) s = .next s))

/-- RULE_EVALUATION in RUN or DEGRADED with no acknowledgement: each enabled rule demands exactly when a permit it requires is missing, or
it is latching and demanded before; a disabled rule keeps its bit. In RUN with an acknowledgement each enabled rule demands exactly when it
is not met. A difference between the halves puts a running island in SAFE. ISLAND_OUTPUT_UPDATE in RUN or DEGRADED: a force line is asserted
exactly when a demanding rule names it, or the maintenance mask does under MAINT; an output is on exactly when it is in use, not marked
faulty and named by no demanding rule whose delay has run. In STARTING and SAFE every output is off and every line asserted.
RULE_DELAY_EXPIRY between phases 5,800 and 9,300 does what the update does, else nothing; that window is the model's choice
(notes/assumptions/8.md). SAF_ACK by a port that holds it acknowledges when the profile allows and the island is not in RESET, else changes
nothing, which is the model's choice (notes/assumptions/4.md). Cites 15 R661, 15 R674, 15 R685, 15 R686, 15 R687, 15 R688, 15 R689, 15 R693,
15 R657. -/
def Obligations.RulesDriveTheOutputs : Prop :=
  ∀ s : State,
    let st := islState s.chip
    (hasProf s.chip = true →
      (st = 2 ∨ st = 3 → s.chip.isl.ack = false → Completes (.ruleEvaluation none) s (fun x => islState x = st ∧ ∀ r, r < 32 →
        demands x r = (if ruleEn s.chip r then !ruleMet s.chip r || (ruleLatch s.chip r && demands s.chip r) else demands s.chip r))) ∧
      (st = 2 → s.chip.isl.ack = true → Completes (.ruleEvaluation none) s (fun x => islState x = 2 ∧ x.isl.ack = false ∧ ∀ r, r < 32 →
        demands x r = (if ruleEn s.chip r then !ruleMet s.chip r else demands s.chip r))) ∧
      (∀ r, st = 1 ∨ st = 2 ∨ st = 3 → Completes (.ruleEvaluation (some r)) s (fun x => islState x = 4))) ∧
    (st = 2 ∨ st = 3 → Completes .islandOutputUpdate s (fun x =>
      (∀ g, g < 16 → x.rdBit Reg.safOut g = ((s.chip.rdBit Reg.safStat 8 && natBit (pf s.chip 14 2) g) ||
        (demanding s.chip).any (fun r => natBit (ruleAt s.chip r 36 2) g))) ∧
      (∀ n, n < 16 → x.rdBit Reg.safOut (16 + n) = (soCfg s.chip n 5 5 == 1 && !s.chip.rdBit Reg.safSoflt n &&
        !((List.range 32).any (fun r => delayRun s.chip r && natBit (ruleAt s.chip r 38 2) n)))) ∧
      x.rd Reg.sigForcestat = wn (x.rdF Reg.safOut 15 0))) ∧
    (st = 1 ∨ st = 4 → Completes .islandOutputUpdate s (fun x => x.rdF Reg.safOut 31 16 = 0 ∧ x.rdF Reg.safOut 15 0 = 0xFFFF)) ∧
    (∀ r : Fin 32,
      let due := delayRun s.chip r.val = true ∧ 5800 ≤ s.chip.tb.phase ∧ s.chip.tb.phase ≤ 9300
      (due → exec (.ruleDelayExpiry r) s = exec .islandOutputUpdate s) ∧ (Still s.chip → ¬ due → exec (.ruleDelayExpiry r) s = .next s)) ∧
    (∀ (who : Agent) (v : Word), Still s.chip → MayWrite s.chip who Reg.safAck →
      let may := bit v 0 = true ∧ natBit (pf s.chip 6 1) 1 = true ∧ st ≠ 0
      (may → exec (.safAck who v) s = .next { s with chip := { s.chip with isl := { s.chip.isl with
        ack := true
        startAck := s.chip.isl.startAck || st == 1 } } }) ∧
      (¬ may → exec (.safAck who v) s = .next s))

/-- For each of the 22 host commands: while its port does not hold it, or the Poermun does not take commands, nothing changes, which is the
model's choice (notes/assumptions/4.md); taken without the authority R733 asks and with CORE out of reset, it is answered AUTH, the refusal
is counted in HPC_AUTHREF with its flag set, the command is counted in HPC_CMDCNT, and nothing else of the registers but the port's own ones
(HPC_CQHEAD of H0, SVC_RXCMD of H3) changes. EVENT and WARM, and RDREG and WRREG that touch CORE, are answered RESTART while CORE is held in
reset, without an effect. The order of these checks, and that commands are taken only after BOOT_DONE or in recovery, are the model's
reading (notes/assumptions/44.md). A response is its 16-byte header and body, and HBEAT is taken as with NORSP: with NORSP nothing leaves;
on H0 with its link up it is written to the entry of the response ring at the tail, the tail advances and vector 5 is signalled, or pending
behind its mask bit (notes/assumptions/29.md); with the link down it is lost (notes/assumptions/45.md); on the tool LAN one copy leaves by
each port in the ring, with the next sequence number, the EtherType and the prefix 0xA7 of KIND 1; on an attached H3 and on JTAG it is sent;
on a detached H3 it is counted in SVC_RSPLOST. What is sent stands as bytes in the model's own queue (notes/assumptions/74.md). Cites 16
R735, 16 R737, 16 R733, 16 R734, 16 R739, 16 R741, 16 R720, 16 R724, 16 R725, 16 R730, 16 R757. -/
def Obligations.HostCommandTurn : Prop :=
  (∀ (s : State) (h : HostCmd) (flips : List Nat),
    let beat : HostCmd := { h with norsp := true }
    let ops : List (Instr × HostCmd × Nat × Authority) := [(.ping h, h, 0x01, .read), (.rdsig h, h, 0x02, .read),
      (.wrsig h, h, 0x03, .wsig), (.rdreg h, h, 0x04, .read), (.wrreg h, h, 0x05, .read), (.rdmem h flips, h, 0x06, .read),
      (.claim h, h, 0x10, .claim), (.hbeat h, beat, 0x11, .claim), (.clmstat h, h, 0x12, .read), (.event h, h, 0x20, .recipe),
      (.mail h, h, 0x21, .mail), (.warm h, h, 0x22, .restart), (.almread h, h, 0x30, .read), (.almack h, h, 0x31, .alm),
      (.attest h, h, 0x40, .attest), (.qread h, h, 0x41, .attest), (.cststage h, h, 0x50, .consist), (.cstswap h, h, 0x51, .consist),
      (.cstpatch h, h, 0x52, .consist), (.flread h, h, 0x58, .flash), (.flerase h, h, 0x59, .flash), (.flwrite h, h, 0x5A, .flash)]
    (∀ e ∈ ops,
      (Still s.chip → cmdReady s.chip e.2.2.1 e.2.1 = false → exec e.1 s = .next s) ∧
      (cmdReady s.chip e.2.2.1 e.2.1 = true → s.chip.rst.inCore = false → holds s.chip h.port e.2.2.2 = false →
        AnswersWith e.1 s e.2.2.1 e.2.1 (fun y r => r = Rsp.fail 5 ∧ y.rd Reg.hpcAuthref = s.chip.rd Reg.hpcAuthref + 1 ∧
          y.rdBit Reg.hpcEvt 0 = true ∧ y.rd Reg.hpcCmdcnt = s.chip.rd Reg.hpcCmdcnt + 1 ∧
          KeepsRegsBut [Reg.hpcAuthref, Reg.hpcEvt, Reg.hpcCmdcnt, Reg.hpcCqhead, Reg.svcRxcmd] s.chip y))) ∧
    (s.chip.rst.inCore = true →
      (∀ e ∈ [((.event : HostCmd → Instr), 0x20), (.warm, 0x22)], cmdReady s.chip e.2 h = true →
        AnswersWith (e.1 h) s e.2 h (fun y r => r = Rsp.fail 12 ∧ y = cmdTake s.chip h)) ∧
      (cmdReady s.chip 0x04 h = true → touchesCore h.arg0.toNat (min h.arg1.toNat 256) = true →
        AnswersWith (.rdreg h) s 0x04 h (fun y r => r = Rsp.fail 12 ∧ y = cmdTake s.chip h)) ∧
      (cmdReady s.chip 0x05 h = true → touchesCore h.arg0.toNat (min (h.body.length / 4) 256) = true →
        AnswersWith (.wrreg h) s 0x05 h (fun y r => r = Rsp.fail 12 ∧ y = cmdTake s.chip h)))) ∧
  (∀ (y : Chip) (k : HostHdr) (op : Nat) (r : Rsp),
    let bs := leBytes 1 (op + 0x80) ++ leBytes 1 r.status ++ leBytes 2 r.body.length ++ leBytes 4 k.cseq ++ leBytes 4 r.res0 ++
      leBytes 4 r.res1 ++ r.body
    let x := respond y k op r
    (k.norsp = true → x = y) ∧
    (k.norsp = false → k.src = 10 → h0Up y = false → x = y) ∧
    (k.norsp = false → k.src = 10 → h0Up y = true →
      let t := (y.rd Reg.hpcRqtail).toNat % ringEntries y
      x.hostMem = memPut y.hostMem (addr64 y Reg.hpcRqbaselo Reg.hpcRqbasehi + 2048 * t) bs ∧
      x.rd Reg.hpcRqtail = wn ((t + 1) % ringEntries y) ∧ KeepsRegsBut [Reg.hpcRqtail] y x ∧
      (vectorOpen y 5 = true → Tab.get 0 x.books.msix 5 = Tab.get 0 y.books.msix 5 + 1 ∧ x.books.msixPend = y.books.msixPend) ∧
      (vectorOpen y 5 = false → 5 ∈ x.books.msixPend ∧ x.books.msix = y.books.msix)) ∧
    (k.norsp = false → k.src = 11 → x.regs = y.regs ∧ x.hst.hsrSeq = (y.hst.hsrSeq + 1) % 65536 ∧
      let f := beBytes 2 x.hst.hsrSeq ++ beBytes 2 (y.rdF Reg.tlnEtype 15 0) ++ [0xA7, 1, 0, 0] ++ bs
      x.hst.sent = y.hst.sent ++ (if lanPort y false then [(32, k.mac, f)] else []) ++ (if lanPort y true then [(33, k.mac, f)] else [])) ∧
    (k.norsp = false → k.src = 16 ∨ (k.src = 12 ∧ y.rdBit Reg.svcStat 0 = true) →
      x.hst.sent = y.hst.sent ++ [(k.src, k.mac, bs)] ∧ x.regs = y.regs) ∧
    (k.norsp = false → k.src = 12 → y.rdBit Reg.svcStat 0 = false → x = y.bump Reg.svcRsplost))

/-- Each of these commands, from a port that may send it, is taken, counted and answered. PING gives TICK[31:0] and EPOCH. CLMSTAT gives
CLM_STAT and EPOCH. RDSIG of 1 to 180 entries within the store, which are undamaged and not marked, gives the composed VALUE, STATUS, WSEQ
and AGE of each, and ends what the port's last read of VALUE captured. RDREG of 1 to 256 words, CORE out of reset, gives OK, the count and
all words when each address is mapped and answers the port, and for one word the register as it stands, where no word that stands in a
memory is damaged; when word i is the first that cannot be read it gives RANGE and i. RDMEM of 1 to 1,024 mapped bytes gives them, corrected
where need be, or RANGE when they meet an uncorrectable error (the model's choice, notes/assumptions/87.md), and BUSY when a byte lies in
DRAM from stage 1 on; where no fill runs and nothing is damaged it changes nothing more. ALMREAD of 1 to 60 entries gives 24 bytes for each.
QREAD of 1 to 1,440 bytes gives bytes of the quote, FLREAD of 1 to 1,456 bytes of the flash. A count outside these bounds gives RANGE, a
body gives LENGTH, and neither has an effect; the order of these checks, RES0 0 where no value is named, and the counts of words as RES0 are
the model's reading (notes/assumptions/44.md, 85.md). Cites 16 R736, 16 R737, 16 R899, 16 R750, 02 R71, 17 R790. -/
def Obligations.HostReadsAnswerTheState : Prop :=
  ∀ (s : State) (h : HostCmd) (flips : List Nat),
    let k := cmdTake s.chip h
    let a := h.arg0.toNat
    let n := h.arg1.toNat
    (∀ e ∈ [((.ping : HostCmd → Instr), 0x01, Authority.read), (.rdsig, 0x02, .read), ((.rdmem · flips), 0x06, .read), (.clmstat, 0x12, .read),
        (.almread, 0x30, .read), (.qread, 0x41, .attest), (.flread, 0x58, .flash)],
      MaySend s.chip e.2.1 e.2.2 h → h.body ≠ [] → AnswersWith (e.1 h) s e.2.1 h (fun y r => y = k ∧ r = Rsp.fail 11)) ∧
    (h.body = [] →
      (MaySend s.chip 0x01 .read h → AnswersWith (.ping h) s 0x01 h (fun y r => y = k ∧
        r = ⟨0, s.chip.tick32.toNat, (s.chip.rd Reg.sysEpoch).toNat, []⟩)) ∧
      (MaySend s.chip 0x12 .read h → AnswersWith (.clmstat h) s 0x12 h (fun y r => y = k ∧
        r = ⟨0, (s.chip.rd Reg.clmStat).toNat, (s.chip.rd Reg.sysEpoch).toNat, []⟩)) ∧
      (MaySend s.chip 0x02 .read h →
        (1 ≤ n ∧ n ≤ 180 ∧ a + n ≤ 262144 → s.chip.tb.phase < 9000 ∨ s.chip.eng.commitDone = true →
          (∀ i, i < n → Undamaged s.chip (entryAt (a + i)) 8 ∧
            ∀ e, Tab.get? s.chip.store.entries (a + i) = some e → e.ue = false) →
          AnswersWith (.rdsig h) s 0x02 h (fun y r => y = dropCapture k (portSrc h.port) ∧ r.status = 0 ∧
          r.body = (List.range n).flatMap (fun i => leBytes 4 (w32 (s.chip.storeRead (a + i)).value).toNat ++
            leBytes 1 (s.chip.storeRead (a + i)).status ++ leBytes 1 (s.chip.storeRead (a + i)).wseq ++
            leBytes 2 (s.chip.storeRead (a + i)).age))) ∧
        (n = 0 ∨ 180 < n ∨ 262144 < a + n → AnswersWith (.rdsig h) s 0x02 h (fun y r => y = k ∧ r = Rsp.fail 6))) ∧
      (MaySend s.chip 0x04 .read h → s.chip.rst.inCore = false →
        let reads := fun (i : Nat) => (placeOf (bar0 a + 4 * i)).isSome && answersRead s.chip (portSrc h.port) (bar0 a + 4 * i)
        (n = 0 ∨ 256 < n → AnswersWith (.rdreg h) s 0x04 h (fun y r => y = k ∧ r = Rsp.fail 6)) ∧
        ((∀ i q p, i < n → placeOf (bar0 a + 4 * i) = some q → q.storedAt (bar0 a + 4 * i) = some p → Undamaged s.chip p 4) →
        (1 ≤ n → n ≤ 256 → (∀ i, i < n → reads i = true) → AnswersWith (.rdreg h) s 0x04 h (fun y r => y.regs = k.regs ∧
          r.status = 0 ∧ r.res0 = n ∧ r.body.length = 4 * n)) ∧
        (∀ p, n = 1 → reads 0 = true → placeOf (bar0 a) = some p → AnswersWith (.rdreg h) s 0x04 h (fun y r => y.regs = k.regs ∧
          r.body = leBytes 4 (placeRead k (portSrc h.port) (bar0 a) p).toNat)) ∧
        (∀ i, i < n → n ≤ 256 → reads i = false → (∀ j, j < i → reads j = true) → AnswersWith (.rdreg h) s 0x04 h (fun y r =>
          y.regs = k.regs ∧ r.status = 6 ∧ r.res0 = i)))) ∧
      (MaySend s.chip 0x06 .read h →
        let b := a + fld h.arg1 7 0 * 2 ^ 32
        let m := fld h.arg1 27 16
        (m = 0 ∨ 1024 < m → AnswersWith (.rdmem h flips) s 0x06 h (fun y r => y = k ∧ r = Rsp.fail 6)) ∧
        (1 ≤ m → m ≤ 1024 → (∀ i, i < m → (memRead s.chip (b + i)).isSome = true) →
          ((∃ i, i < m ∧ isDram (b + i) = true) → 1 ≤ s.chip.stage → AnswersWith (.rdmem h flips) s 0x06 h (fun y r => y = k ∧ r = Rsp.fail 7)) ∧
          (s.chip.stage = 0 →
            let f := advanceFill k
            let q := readSpan (upset f b (flips.take m)) (portSrc h.port) b m
            (q.cls ≠ 2 → AnswersWith (.rdmem h flips) s 0x06 h (fun y r => y = q.chip ∧ r.status = 0 ∧ r.body.length = m ∧
              ∀ i, i < m → r.body[i]? = (memRead f (b + i)).map (fun x => x ^^^ BitVec.ofNat 8 (q.errs.getD i 0)))) ∧
            (q.cls = 2 → AnswersWith (.rdmem h flips) s 0x06 h (fun y r => y = q.chip ∧ r = Rsp.fail 6)) ∧
            (s.chip.memu.fill = none → flips = [] → Undamaged s.chip b m → AnswersWith (.rdmem h flips) s 0x06 h (fun y r =>
              y = k ∧ r.status = 0 ∧ ∀ i, i < m → r.body[i]? = memRead s.chip (b + i)))))) ∧
      (MaySend s.chip 0x30 .read h →
        (1 ≤ n ∧ n ≤ 60 ∧ a + n ≤ 256 → AnswersWith (.almread h) s 0x30 h (fun y r => y = k ∧ r.status = 0 ∧
          r.body = (List.range n).flatMap (fun i => alarmBytes (alarmEntry s.chip (a + i))))) ∧
        (n = 0 ∨ 60 < n ∨ 256 < a + n → AnswersWith (.almread h) s 0x30 h (fun y r => y = k ∧ r = Rsp.fail 6))) ∧
      (MaySend s.chip 0x41 .attest h →
        (1 ≤ n ∧ n ≤ 1440 ∧ a + n ≤ 17248 → AnswersWith (.qread h) s 0x41 h (fun y r => y = k ∧ r.status = 0 ∧
          r.body = sliceB s.chip.hst.quote a n)) ∧
        (n = 0 ∨ 1440 < n ∨ 17248 < a + n → AnswersWith (.qread h) s 0x41 h (fun y r => y = k ∧ r = Rsp.fail 6))) ∧
      (MaySend s.chip 0x58 .flash h →
        (1 ≤ n ∧ n ≤ 1456 ∧ a + n ≤ 4294967296 → AnswersWith (.flread h) s 0x58 h (fun y r => y = k ∧ r.status = 0 ∧
          r.body = flashBytes s.chip a n)) ∧
        (n = 0 ∨ 1456 < n ∨ 4294967296 < a + n → AnswersWith (.flread h) s 0x58 h (fun y r => y = k ∧ r = Rsp.fail 6))))

/-- WRSIG of 1 to 64 pairs puts each behind the host command engine's P3 queue, in order, and its answer waits; the arbiter's take of the
last pair, no other agent waiting, answers it with the outcome of every pair; a body not of 1 to 64 pairs gives LENGTH. WRREG of one word,
CORE out of reset, does what a write of that register does, answered OK with 1 or by the cause that stopped it; it waits whole while the
write waits. That a WRSIG's pairs are transactions of their own, and that WRREG waits whole, are the model's choices
(notes/assumptions/46.md), the order of checks its reading (notes/assumptions/44.md). EVENT raises EVT96 to EVT127, else RANGE. A write of
an agent to an unmapped register address, or of another width, is answered with an access error and does nothing else
(notes/assumptions/66.md); one a host may not make counts AUTHREF; one that its block takes, of a register without an action, sets RW, CS
and LV bits at once, clears W1C, sets W1S and queues SH bits for the tick boundary in place of those queued for it, and no other register
changes, but TRGu_STAT with the condition of its unit. A core's store to shared SRAM writes the bytes of its width; a store of a core or H0
to the signal store enters its queue (the narrower forms as notes/assumptions/9.md has them). A raise by a core, of any code
(notes/assumptions/52.md), counts in its entry, the lowest free one, or entry 255. SEC_ARBCMD raises ARB0 and ARB1 to the running versions
if higher; the key at SEC_FUSECMD blows JTAGCLOSE, any other value does nothing. Cites 16 R736, 16 R738, 16 R899, 16 R751, 16 R758, 16 R731,
16 R734, 00 R15, 00 R18, 00 R22, 02 R89, 12 R565. -/
def Obligations.HostWritesAndRegisterWrites : Prop :=
  (∀ (s : State) (h : HostCmd),
    let k := cmdTake s.chip h
    let src := portSrc h.port
    (MaySend s.chip 0x03 .wsig h →
      (h.body.length % 8 ≠ 0 ∨ h.body = [] ∨ 512 < h.body.length →
        AnswersWith (.wrsig h) s 0x03 h (fun y r => y = k ∧ r = Rsp.fail 11)) ∧
      (∀ n, h.body.length = 8 * n → 1 ≤ n → n ≤ 64 → Completes (.wrsig h) s (fun x =>
        Tab.get [] x.store.p3q 10 = Tab.get [] s.chip.store.p3q 10 ++ (List.range n).map (fun i =>
          ⟨src, writerSv k h, leAt h.body (8 * i) 4, .value (wn (leAt h.body (8 * i + 4) 4)), true⟩) ∧
        (∀ a, a ≠ 10 → Tab.get [] x.store.p3q a = Tab.get [] s.chip.store.p3q a) ∧
        Tab.get none x.hst.wrsig src = some ⟨hdrOf h, n, []⟩ ∧ x.store.entries = s.chip.store.entries ∧ x.regs = k.regs))) ∧
    (MaySend s.chip 0x05 .read h → s.chip.rst.inCore = false →
      (h.body.length % 4 ≠ 0 ∨ h.body = [] ∨ 1024 < h.body.length →
        AnswersWith (.wrreg h) s 0x05 h (fun y r => y = k ∧ r = Rsp.fail 11)) ∧
      (h.body.length = 4 →
        let t := regWrite k src (0x10000000 + h.arg0.toNat) (wn (leAt h.body 0 4)) false
        (t.2 = .waits → Still s.chip → exec (.wrreg h) s = .next s) ∧
        (t.2 = .done → AnswersWith (.wrreg h) s 0x05 h (fun y r => y = t.1 ∧ r = Rsp.ok 1 0)) ∧
        (t.2 ≠ .waits → t.2 ≠ .done → AnswersWith (.wrreg h) s 0x05 h (fun y r => y = t.1 ∧ r.res0 = 0 ∧
          r.status = (match t.2 with
            | .auth => 5
            | .busy => 7
            | .restart => 12
            | _ => 6))))) ∧
    (MaySend s.chip 0x20 .recipe h → s.chip.rst.inCore = false →
      let e := fld h.arg0 9 0
      (h.body = [] → 96 ≤ e → e ≤ 127 → AnswersWith (.event h) s 0x20 h (fun y r => r = Rsp.ok 0 0 ∧
        y = { k with notes := k.notes ++ [.event e] })) ∧
      (h.body = [] → e < 96 ∨ 127 < e → AnswersWith (.event h) s 0x20 h (fun y r => y = k ∧ r = Rsp.fail 6)) ∧
      (h.body ≠ [] → AnswersWith (.event h) s 0x20 h (fun y r => y = k ∧ r = Rsp.fail 11)))) ∧
  (∀ (s : State) (w : P3Write) (run : WrsigRun) (r : WriteReq), s.chip.tb.phase < 9500 ∨ s.chip.store.gateDone = true →
    w.src ∈ [10, 11, 12, 16] → w.pair = true → p3Request w.form = some r →
    (∀ a, Tab.get [] s.chip.store.p3q a = if a = 10 then [w] else []) →
    (∀ src, Tab.get none s.chip.hst.wrsig src = if src = w.src then some run else none) → run.done.length + 1 = run.pairs →
    Completes .p3ArbiterTake s (fun x =>
      let y := { s.chip with store := { s.chip.store with
        p3q := Tab.set [] s.chip.store.p3q 10 []
        p3next := 0 } }
      let o := storeWrite y w.sid r ⟨w.src, .p3 false false false, w.sup⟩
      let done := run.done ++ [BitVec.ofNat 8 o.2.outcome]
      x.store.entries = o.1.store.entries ∧ Tab.get none x.hst.wrsig w.src = none ∧
      ∃ z, x = respond z run.hdr 0x03 ⟨0, (done.filter (fun b => decide (b.toNat ≤ 1))).length, 0, done⟩)) ∧
  (∀ (s : State) (who : Agent) (addr : LocalAddr) (width : Width) (v hi : Word) (flips : List Nat) (more : Bool),
    let a := addr.toNat
    let c := Instr.registerWrite who addr .word v hi flips more
    let cw := Instr.registerWrite who addr width v hi flips more
    (0x10000000 ≤ a → a < 0x20000000 →
      (placeOf a = none ∨ width ≠ .word → Completes cw s (fun x => x = s.chip.accessError (agentSrc who))) ∧
      ((placeOf a).isSome = true → s.chip.rst.inCore = false → answers s.chip (agentSrc who) a = true →
        regAuth s.chip (agentSrc who) a = false → a ≠ Reg.odoClr →
        (srcIsHost (agentSrc who) = true → Completes c s (fun x => x = authRefuse s.chip)) ∧
        (srcIsHost (agentSrc who) = false → Still s.chip → exec c s = .next s)) ∧
      (∀ b u o r, placeOf a = some (.reg b u o r) → MayWrite s.chip who a → isOnWord b o = false →
        (csRuns s.chip b u o a && ((v ^^^ s.chip.rd a) &&& wn r.cs) != 0) = false → rangeCode s.chip b u o a v = 0 →
        actingWrite s.chip (agentSrc who) a b u o v more = none → tuneWaits s.chip b u o v = false →
        (b = 32 → s.chip.phaseRead = 2000 → s.chip.eng.pointDone = true) →
        Completes c s (fun x =>
          KeepsRegsBut (if b = 11 ∧ 0x2000 ≤ o ∧ o < 0x2800 ∧ o % 64 ≤ 4 then [a, Reg.recTrgstat ((o - 0x2000) / 64)] else [a]) s.chip x ∧
          x.rd a = ((merge (s.chip.rd a) v (r.rw ||| r.cs ||| r.lv) &&& ~~~(v &&& wn r.w1c)) ||| (v &&& wn r.w1s)) ∧
          x.shadow = (if r.sh = 0 then s.chip.shadow
            else s.chip.shadow.filter (fun e => !(e.1 == a && e.2.2 == r.sh)) ++ [(a, v, r.sh)])))) ∧
    (srcIsCore (agentSrc who) = true → s.chip.booted = true → s.chip.rst.inCore = false → s.chip.memu.fill = none →
      0x01000000 ≤ a → a + widthLen width ≤ 0x02000000 → Completes cw s (fun x => x.regs = s.chip.regs ∧
        (∀ i, i < widthLen width → x.byteAt (a + i) = BitVec.ofNat 8 ((v.toNat + hi.toNat * 2 ^ 32) / 2 ^ (8 * i))) ∧
        ∀ j, j < a ∨ a + widthLen width ≤ j → x.byteAt j = s.chip.byteAt j)) ∧
    (Still s.chip → srcIsCore (agentSrc who) = true ∨ who = .h0 → reachesStore s.chip who = true →
      0x02000000 ≤ a → a < 0x02200000 → a % widthLen width = 0 →
      let form : P3Form := match width with
        | .double => .both v hi
        | .word => if a % 8 = 0 then .value v else .status v
        | _ => .counters
      let forget := { s.chip with store := { s.chip.store with caps := Tab.set none s.chip.store.caps (agentSrc who) none } }
      let y := p3Enqueue forget ⟨agentSrc who, p3Sup s.chip who 0, (a - 0x02000000) / 8, form, false⟩
      exec cw s = .next { s with chip := y })) ∧
  (∀ (s : State) (who : Agent) (v : Word),
    (MayWrite s.chip who Reg.hpcAlmraise →
      let t := s.chip.books.alarms
      let code := fld v 15 0
      let sev := fld v 17 16
      let data := (s.chip.rd Reg.hpcAlmdata).toNat
      let now := s.chip.tb.tick
      let c := Instr.almraise who v
      (∀ j e, findAlarm t code = some j → Tab.get? t j = some e → Completes c s (fun x =>
        Tab.get? x.books.alarms j = some { e with
          count := min (e.count + 1) 4294967295
          last := now
          data := data
          first := if e.count = 0 then now else e.first } ∧
        ∀ i, i ≠ j → Tab.get? x.books.alarms i = Tab.get? t i)) ∧
      (∀ j, findAlarm t code = none → freeAlarm t code = some j → Completes c s (fun x =>
        Tab.get? x.books.alarms j = some ⟨code, sev, 1, now, now, data⟩ ∧ ∀ i, i ≠ j → Tab.get? x.books.alarms i = Tab.get? t i)) ∧
      (findAlarm t code = none → freeAlarm t code = none → Completes c s (fun x => x.rdBit Reg.hpcEvt 1 = true ∧
        ∀ i, i ≠ 255 → Tab.get? x.books.alarms i = Tab.get? t i))) ∧
    (MayWrite s.chip who Reg.secArbcmd → Completes (.arbCommit who v) s (fun x =>
      x.rdF Reg.secArb0 6 0 = (if bit v 0 then max (s.chip.rdF Reg.secArb0 6 0) (s.chip.rdF Reg.secBootstat 22 16)
        else s.chip.rdF Reg.secArb0 6 0) ∧
      x.rdF Reg.secArb1 6 0 = (if bit v 1 then max (s.chip.rdF Reg.secArb1 6 0) (s.chip.rdF Reg.cstVersion 6 0)
        else s.chip.rdF Reg.secArb1 6 0) ∧ KeepsRegsBut [Reg.secArb0, Reg.secArb1, Reg.secEvt] s.chip x)) ∧
    (MayWrite s.chip who Reg.secFusecmd →
      (v = 0x4A434C53 → Completes (.fuseJtagclose who v) s (fun x => x.rdBit Reg.secFuse 12 = true ∧
        KeepsRegsBut [Reg.secFuse] s.chip x ∧ ∀ w, Tab.get? x.hst.fuses Reg.secFuse = some w → bit w 12 = true)) ∧
      (v ≠ 0x4A434C53 → Still s.chip → exec (.fuseJtagclose who v) s = .next s)))

/-- MAIL to a node 1 to 62 with at most 1,024 bytes puts one downlink frame behind the engine's queue with a CORR from 0x8000_0000 up, a
free value (notes/assumptions/30.md), and MORE 0 (notes/assumptions/91.md), and waits; a longer body gives LENGTH, another DST RANGE.
MAIL_RESPONSE, one MAIL waiting and its response able to leave: LOST when its frame was retired lost; with WAITRSP the body of the first
uplink frame with its CORR, or TIMEOUT at its time; without, OK when the engine holds the frame no more; else nothing changes, which is the
model's choice (notes/assumptions/4.md). WARM, CORE out of reset, no restart in progress, the rate not exceeded and not at stage 5, makes
WARMREQ the restart cause, and its answer waits. ALMACK of a code in use frees its entry alone, of 0xFFFF zeroes entry 255, of another gives
RANGE, which is the model's choice (notes/assumptions/52.md); the order of checks is its reading (notes/assumptions/44.md). ATTEST with a
32-byte nonce and no signing asks for the signature island, sets BUSY and lays out 160 bytes with the nonce at 16; another length gives
LENGTH, a running one BUSY. ATTEST_DONE, the island powered, appends the 17,088 bytes of the deterministic signature of those under the key
of R759, by FIPS 205, which is taken from outside the spec (notes/assumptions/25.md), sets DONE, answers, and gates the island unless a
verification or a warm restart needs its engine. Cites 16 R736, 16 R740, 16 R741, 16 R753, 16 R760, 17 R775, 17 R777, 17 R783, 06 R286. -/
def Obligations.MailWarmAlarmsAndQuotes : Prop :=
  (∀ (s : State) (h : HostCmd),
    let k := cmdTake s.chip h
    (MaySend s.chip 0x21 .mail h →
      let d := fld h.arg0 5 0
      (1024 < h.body.length → AnswersWith (.mail h) s 0x21 h (fun y r => y = k ∧ r = Rsp.fail 11)) ∧
      (h.body.length ≤ 1024 → d = 0 ∨ d = 63 → AnswersWith (.mail h) s 0x21 h (fun y r => y = k ∧ r = Rsp.fail 6)) ∧
      (h.body.length ≤ 1024 → d ≠ 0 → d ≠ 63 → Completes (.mail h) s (fun x => ∃ c, 0x80000000 ≤ c ∧ c < 0x100000000 ∧
        x.ewn.engQ = s.chip.ewn.engQ ++ [⟨d, fld h.arg0 15 8, false, c, h.body, 1, 0, 0, 0, 0⟩] ∧
        x.hst.mails = s.chip.hst.mails ++ [⟨hdrOf h, c, bit h.arg1 0, s.chip.nowNs + 1000000 * fld h.arg1 31 16⟩] ∧
        x.hst.sent = [] ∧ x.regs = k.regs))) ∧
    (MaySend s.chip 0x22 .restart h → s.chip.rst.inCore = false →
      (h.body ≠ [] → AnswersWith (.warm h) s 0x22 h (fun y r => y = k ∧ r = Rsp.fail 11)) ∧
      (h.body = [] → s.chip.restarting = false → rateExceeded s.chip = false → s.chip.stage ≠ 5 → Completes (.warm h) s (fun x =>
        x.hst.warm = s.chip.hst.warm ++ [hdrOf h] ∧ x.rst.cause = some (5, portSrc h.port)))) ∧
    (MaySend s.chip 0x31 .alm h →
      let c := fld h.arg0 15 0
      let t := s.chip.books.alarms
      (h.body ≠ [] → AnswersWith (.almack h) s 0x31 h (fun y r => y = k ∧ r = Rsp.fail 11)) ∧
      (h.body = [] → c ≠ 0xFFFF → findAlarm t c = none → AnswersWith (.almack h) s 0x31 h (fun y r => y = k ∧ r = Rsp.fail 6)) ∧
      (∀ j, h.body = [] → c ≠ 0xFFFF → findAlarm t c = some j → AnswersWith (.almack h) s 0x31 h (fun y r => r = Rsp.ok 0 0 ∧
        Tab.get? y.books.alarms j = none ∧ ∀ i, i ≠ j → Tab.get? y.books.alarms i = Tab.get? t i)) ∧
      (h.body = [] → c = 0xFFFF → AnswersWith (.almack h) s 0x31 h (fun y r => r = Rsp.ok 0 0 ∧
        (Tab.get? y.books.alarms 255).map (fun e => (e.count, e.sev)) = some (0, 3) ∧
        ∀ i, i ≠ 255 → Tab.get? y.books.alarms i = Tab.get? t i))) ∧
    (MaySend s.chip 0x40 .attest h →
      let busy := s.chip.rdBit Reg.secQstat 0
      (h.body.length ≠ 32 → AnswersWith (.attest h) s 0x40 h (fun y r => y = k ∧ r = Rsp.fail 11)) ∧
      (h.body.length = 32 → busy = true → AnswersWith (.attest h) s 0x40 h (fun y r => y = k ∧ r = Rsp.fail 7)) ∧
      (h.body.length = 32 → busy = false → Completes (.attest h) s (fun x => x.hst.attest = some (hdrOf h) ∧
        x.rd Reg.secQstat = 1 ∧ x.hst.quote.length = 160 ∧ (x.hst.quote.drop 16).take 32 = h.body ∧
        (x.rdBit Reg.pwrIslpwr 24 = true ∨ x.rdBit Reg.pwrIslreq 24 = true ∨ ∃ n, (24, n) ∈ x.pwr.rising))))) ∧
  (∀ (s : State) (m : MailCmd), s.chip.hst.mails = [m] →
    let frames := s.chip.ewn.engQ ++ s.chip.ewn.unacked
    let gone := frames.all (fun f => !(f.own == 1 && f.corr == m.corr))
    let rx := s.chip.ewn.engRx.find? (fun e => leAt e.2 12 4 == m.corr)
    let done := fun (r : Rsp) => Completes .mailResponse s (fun x => x.hst.mails = [] ∧ ∃ y, y.regs = s.chip.regs ∧
      x = pruneMail (respond y m.hdr 0x21 r))
    (rspRoom s.chip m.hdr = true →
      (m.corr ∈ s.chip.hst.lost → done (Rsp.fail 13)) ∧
      (m.corr ∉ s.chip.hst.lost → m.waitRsp = true →
        (∀ e, rx = some e → done ⟨0, 0, 0, e.2⟩) ∧
        (rx = none → m.stop ≤ s.chip.nowNs → done (Rsp.fail 14)) ∧
        (rx = none → s.chip.nowNs < m.stop → Still s.chip → exec .mailResponse s = .next s)) ∧
      (m.corr ∉ s.chip.hst.lost → m.waitRsp = false →
        (gone = true → done (Rsp.ok 0 0)) ∧ (gone = false → Still s.chip → exec .mailResponse s = .next s))) ∧
    (rspRoom s.chip m.hdr = false → Still s.chip → exec .mailResponse s = .next s)) ∧
  (∀ s : State,
    (∀ kk, s.chip.hst.attest = some kk → s.chip.rdBit Reg.pwrIslpwr 24 = true → rspRoom s.chip kk = true →
      Completes .attestDone s (fun x => x.hst.attest = none ∧
        x.hst.quote = s.chip.hst.quote ++ quoteSign s.chip s.chip.hst.quote ∧ x.hst.quote.length = s.chip.hst.quote.length + 17088 ∧
        x.rd Reg.secQstat = 2 ∧
        x.rdBit Reg.pwrIslpwr 24 = (cstStage s.chip == 2 || (s.chip.rst.inCore && s.chip.rst.reloaded.isNone)) ∧
        ∃ y, x = respond y kk 0x40 (Rsp.ok 17248 0))) ∧
    (Still s.chip → s.chip.hst.attest = none ∨ s.chip.rdBit Reg.pwrIslpwr 24 = false → exec .attestDone s = .next s))

/-- CSTSTAGE, not verifying nor swapping: with BEGIN the first bytes at 0, without it bytes at the length staged, are put into the bank that
does not run, the length and STAGE follow (1, or 2 at the end); other places give RANGE, a body above 1,440 LENGTH, verification or a swap
BUSY, all without an effect; bytes without BEGIN while none is received are such another place (notes/assumptions/56.md), and the order of
checks is the model's reading (notes/assumptions/44.md, 54.md). STAGE_VERIFY_DONE while verifying: a failing check leaves STAGE 0, its code
in CST_STGERR and a flag; else STAGE 3, the identifier and a flag. CSTSWAP: by the first condition that fails a code in CST_STGERR and RANGE
or BUSY; else accepted as a warm restart with cause WARMREQ. CSTPATCH: 1 to 91 records, none pending, APPLY at most 65,536 ticks ahead and
every record in class and range, or refused by code; then it is pending. PATCH_APPLY when due: dropped with 28 in a restart; without room it
waits, at most 16 ticks, then dropped with 27; else every record is written and CST_PCNT counts. FLERASE of whole sectors leaves 0xFF
(presumed, notes/assumptions/27.md), FLWRITE its bytes, neither touches the running slot and no other byte changes. Cites 18 R826, 18 R827,
18 R829, 18 R830, 18 R833, 18 R835, 18 R836, 18 R837, 17 R772, 16 R736. -/
def Obligations.ConsistStageSwapPatchAndFlash : Prop :=
  (∀ (s : State) (h : HostCmd),
    let k := cmdTake s.chip h
    let a := h.arg0.toNat
    let n := h.body.length
    (MaySend s.chip 0x50 .consist h →
      let c := Instr.cststage h
      let begins := bit h.arg1 0
      let ends := bit h.arg1 1
      let len := (s.chip.rd Reg.cstStglen).toNat
      let at0 := if begins then 0 else len
      let free := n ≤ 1440 ∧ cstStage s.chip ≠ 2 ∧ swapping s.chip = false
      let fits := a = at0 ∧ (begins = true ∨ cstStage s.chip = 1) ∧ at0 + n ≤ 8388608
      (1440 < n → AnswersWith c s 0x50 h (fun y r => y = k ∧ r = Rsp.fail 11)) ∧
      (n ≤ 1440 → cstStage s.chip = 2 ∨ swapping s.chip = true → AnswersWith c s 0x50 h (fun y r => y = k ∧ r = Rsp.fail 7)) ∧
      (free → ¬ fits → AnswersWith c s 0x50 h (fun y r => y = k ∧ r = Rsp.fail 6)) ∧
      (free → fits → AnswersWith c s 0x50 h (fun y r => r.status = 0 ∧ r.res0 = (if ends then at0 + n else 0) ∧
        y.rd Reg.cstStglen = wn (at0 + n) ∧ cstStage y = (if ends then 2 else 1) ∧ runBank y = runBank s.chip ∧
        y.mem = memPut s.chip.mem (bankAddr (1 - runBank s.chip) + at0) h.body))) ∧
    (MaySend s.chip 0x51 .consist h →
      let code := swapCheck k a
      (h.body ≠ [] → AnswersWith (.cstswap h) s 0x51 h (fun y r => y = k ∧ r = Rsp.fail 11)) ∧
      (h.body = [] → code ≠ 0 → AnswersWith (.cstswap h) s 0x51 h (fun y r => y = k.wr Reg.cstStgerr (wn (code * 16777216)) ∧
        r = Rsp.fail (if code = 16 ∨ code = 17 then 6 else 7))) ∧
      (h.body = [] → code = 0 → rateExceeded s.chip = false → AnswersWith (.cstswap h) s 0x51 h (fun y r => r = Rsp.ok 0 0 ∧
        y.rst.swap = true ∧ y.rdBit Reg.cstStat 5 = true ∧ y.rst.cause = some (5, 0x80 + portSrc h.port)))) ∧
    (MaySend s.chip 0x52 .consist h →
      let c := Instr.cstpatch h
      let apply := if a = 0 then (s.chip.tb.tick + 1) % 4294967296 else a
      let ahead := (apply + 4294967296 - s.chip.tb.tick % 4294967296) % 4294967296
      let sized := n % 16 = 0 ∧ n ≠ 0 ∧ n ≤ 1456
      let open0 := s.chip.patch.isNone = true ∧ s.chip.rdBit Reg.sysStat 1 = false
      let recs := chunks 16 (n / 16) h.body
      (¬ sized → AnswersWith c s 0x52 h (fun y r => y = k ∧ r = Rsp.fail 11)) ∧
      (sized → ¬ open0 → AnswersWith c s 0x52 h (fun y r => y = k.wr Reg.cstPerr (wn (20 * 16777216)) ∧ r = Rsp.fail 7)) ∧
      (sized → open0 → h.arg1 ≠ 0 → AnswersWith c s 0x52 h (fun y r => y = k ∧ r = Rsp.fail 6)) ∧
      (sized → open0 → h.arg1 = 0 → ahead = 0 ∨ 65536 < ahead →
        AnswersWith c s 0x52 h (fun y r => y = k.wr Reg.cstPerr (wn (26 * 16777216)) ∧ r = Rsp.fail 6)) ∧
      (sized → open0 → h.arg1 = 0 → ahead ≠ 0 → ahead ≤ 65536 →
        (∀ e i, patchCheck k (recs.map patchRec) = some (e, i) →
          AnswersWith c s 0x52 h (fun y r => y = k.wr Reg.cstPerr (wn (e * 16777216 + i)) ∧ r = Rsp.fail 6)) ∧
        (patchCheck k (recs.map patchRec) = none → AnswersWith c s 0x52 h (fun y r => y.patch = some ⟨apply, recs, 0⟩ ∧
          y.rdBit Reg.cstStat 6 = true ∧ y.rd Reg.cstPapply = wn apply ∧ r.status = 0 ∧
          r.res0 = (s.chip.rd Reg.cstPcnt).toNat + 1)))) ∧
    (MaySend s.chip 0x59 .flash h → h.body = [] →
      let m := h.arg1.toNat
      let good := m ≠ 0 ∧ a % 4096 = 0 ∧ m % 4096 = 0 ∧ a + m ≤ 4294967296
      (¬ good → AnswersWith (.flerase h) s 0x59 h (fun y r => y = k ∧ r = Rsp.fail 6)) ∧
      (good → flashBusy k a m = true → AnswersWith (.flerase h) s 0x59 h (fun y r => y = k ∧ r = Rsp.fail 7)) ∧
      (good → flashBusy k a m = false → AnswersWith (.flerase h) s 0x59 h (fun y r => r = Rsp.ok m 0 ∧
        (∀ i, i < m → y.byteAt (flashBase + a + i) = 0xFF) ∧
        ∀ j, j < flashBase + a ∨ flashBase + a + m ≤ j → y.byteAt j = s.chip.byteAt j))) ∧
    (MaySend s.chip 0x5A .flash h →
      let m := h.arg1.toNat
      (n ≠ m → AnswersWith (.flwrite h) s 0x5A h (fun y r => y = k ∧ r = Rsp.fail 11)) ∧
      (n = m → m = 0 ∨ 4294967296 < a + m → AnswersWith (.flwrite h) s 0x5A h (fun y r => y = k ∧ r = Rsp.fail 6)) ∧
      (n = m → m ≠ 0 → a + m ≤ 4294967296 → flashBusy k a m = true →
        AnswersWith (.flwrite h) s 0x5A h (fun y r => y = k ∧ r = Rsp.fail 7)) ∧
      (n = m → m ≠ 0 → a + m ≤ 4294967296 → flashBusy k a m = false → AnswersWith (.flwrite h) s 0x5A h (fun y r => r = Rsp.ok m 0 ∧
        (∀ i b, h.body[i]? = some b → y.byteAt (flashBase + a + i) = b) ∧
        ∀ j, j < flashBase + a ∨ flashBase + a + m ≤ j → y.byteAt j = s.chip.byteAt j)))) ∧
  (∀ s : State,
    (cstStage s.chip = 2 →
      let check := stageCheck s.chip (stagedImage s.chip) (s.chip.rd Reg.cstStglen).toNat ((consistNow s.chip).bytes 13)
      (∀ e, check = some e → Completes .stageVerifyDone s (fun x => cstStage x = 0 ∧ x.rd Reg.cstStgerr = errWord e ∧
        x.rdBit Reg.cstEvt 1 = true)) ∧
      (check = none → Completes .stageVerifyDone s (fun x => cstStage x = 3 ∧
        x.rd Reg.cstStgid = wn (parseCst (stagedImage s.chip)).cstid ∧ x.rdBit Reg.cstEvt 0 = true))) ∧
    (cstStage s.chip ≠ 2 → Completes .stageVerifyDone s (fun x => x = syncSeatPend s.chip)) ∧
    (Still s.chip → s.chip.patch = none → exec .patchApply s = .next s) ∧
    (∀ p, s.chip.patch = some p →
      let s0 := s.chip.atPhase 9999
      let ps := p.recs.map patchRec
      let dropped := fun (code : Nat) => Completes .patchApply s (fun x => x.patch = none ∧ x.rdBit Reg.cstStat 6 = false ∧
        x.rd Reg.cstPerr = wn (code * 16777216) ∧ x.rd Reg.cstPlost = s.chip.rd Reg.cstPlost + 1 ∧ x.rdBit Reg.cstEvt 5 = true)
      (Still s.chip → patchDue s.chip p = false → exec .patchApply s = .next s) ∧
      (patchDue s.chip p = true → s.chip.rdBit Reg.sysStat 1 = true → dropped 28) ∧
      (patchDue s.chip p = true → s.chip.rdBit Reg.sysStat 1 = false → patchRoom s0 ps = false →
        (16 ≤ p.waited → dropped 27) ∧
        (p.waited < 16 → Completes .patchApply s (fun x => x = { s0 with patch := some { p with waited := p.waited + 1 } }))) ∧
      (patchDue s.chip p = true → s.chip.rdBit Reg.sysStat 1 = false → patchRoom s0 ps = true → Completes .patchApply s (fun x =>
        let y := ps.foldl patchOne s0
        x.patch = none ∧ x.rdBit Reg.cstStat 6 = false ∧ x.rd Reg.cstPcnt = y.rd Reg.cstPcnt + 1 ∧ x.rdBit Reg.cstEvt 4 = true ∧
        x.store = y.store ∧ x.eng = y.eng ∧
        KeepsRegsBut [Reg.cstStat, Reg.cstPapply, Reg.cstPcnt, Reg.cstPcrc, Reg.cstEvt] y x))))

/-- PCIE_PERST and H0_LINK_LOSS leave LINKUP 0 and, with the link up before, the link flag set; a queue that had an accepted descriptor, not
cut by a restart, has none, and is halted with LINK: at PERST also where the link was down. PERST returns the MSI-X table to its cold value
(presumed, notes/assumptions/29.md), with no vector pending and no word of the configuration space. H0_LINK_UP with a rate of 1 to 5 and a
width of 1, 2 or 4 shows both with LINKUP, and the words that the host writes stand in the configuration space. A write to BAR4 with the
link up only counts HPC_BARREF. A tool-LAN port that loses its link clears its bit, counts, flags and adds to odometer counter 18; one that
gains it, in the ring with its consist loaded, sets its bit and sends the dirty alarm entries, in the same command
(notes/assumptions/52.md). H3 attaches only after BOOT_DONE or in recovery, with CORE running, VBUS and its PHY powered, and shows what it
is; configured it delivers the dirty entries; detaching clears its status and flags. USB_VBUS on asks for island 25 unless it has power, is
asked for or rising; off gates it and detaches. TAP instructions: IDCODE, BYPASS and SAMPLE always; EXTEST, closed, only with PORST_L low;
DEBUG only open; any other is BYPASS. That codes of the spec's own list are told apart by number is presumed (notes/assumptions/80.md), and
what a closed TAP offers is the model's reading (notes/assumptions/28.md). Otherwise nothing changes, which is the model's choice
(notes/assumptions/4.md). Cites 20 R878, 16 R709, 16 R710, 16 R716, 16 R722, 16 R723, 16 R729, 16 R731, 16 R752, 16 R763, 17 R783. -/
def Obligations.PortLinksComeAndGo : Prop :=
  ∀ s : State,
    let c := s.chip
    let halted := fun (x : Chip) => ∀ q, q < 8 → (∃ d ∈ dqOf c q, d.cut = false) → dqOf x q = [] ∧ x.rdBit (Reg.hpcDqctl q) 0 = false ∧
      x.rdBit (Reg.hpcDqstat q) 1 = true ∧ x.rdF (Reg.hpcDqstat q) 7 4 = 6
    Completes .pciePerst s (fun x => x.rdBit Reg.hpcStat 0 = false ∧ (∀ a, 0x10808000 ≤ a → a < 0x10808400 → x.rd a = regCold a) ∧
      x.books.msixPend = [] ∧ x.hst.pciCfg = [] ∧ (h0Up c = true → x.rdBit Reg.hpcEvt 2 = true) ∧ halted x) ∧
    (h0Up c = true → Completes .h0LinkLoss s (fun x => x.rdF Reg.hpcStat 6 0 = 0 ∧ x.rdBit Reg.hpcEvt 2 = true ∧ halted x)) ∧
    (Still c → h0Up c = false → exec .h0LinkLoss s = .next s) ∧
    (∀ (gen width : Fin 8) (cfg : List (Nat × Word)),
      let may := c.boot.on = true ∧ h0Up c = false ∧ 1 ≤ gen.val ∧ gen.val ≤ 5 ∧ (width.val = 1 ∨ width.val = 2 ∨ width.val = 4)
      (may → Completes (.h0LinkUp gen ⟨width, cfg⟩) s (fun x => x.rdBit Reg.hpcStat 0 = true ∧ x.rdF Reg.hpcStat 3 1 = gen.val ∧
        x.rdF Reg.hpcStat 6 4 = width.val ∧ x.rdF Reg.hpcStat 31 7 = c.rdF Reg.hpcStat 31 7 ∧ KeepsRegsBut [Reg.hpcStat] c x ∧
        (∀ o w, cfg = [(o, w)] → Tab.get 0 x.hst.pciCfg o = w ∧ ∀ i, i ≠ o → Tab.get 0 x.hst.pciCfg i = Tab.get 0 c.hst.pciCfg i))) ∧
      (Still c → ¬ may → exec (.h0LinkUp gen ⟨width, cfg⟩) s = .next s)) ∧
    (Still c → (h0Up c = true → exec .bar4Write s = .next { s with chip := c.bump Reg.hpcBarref }) ∧
      (h0Up c = false → exec .bar4Write s = .next s)) ∧
    (∀ portB : Bool,
      let b := b2n portB
      let lost := if portB then Reg.tlnLlossb else Reg.tlnLlossa
      (c.rdBit Reg.tlnStat b = true → Completes (.toolLanLinkLoss portB) s (fun x => x.rdBit Reg.tlnStat b = false ∧
        x.rd lost = c.rd lost + 1 ∧ x.rdBit Reg.tlnEvt b = true ∧
        Tab.get 0 x.odo.cnt 18 = min (Tab.get 0 c.odo.cnt 18 + 1) 18446744073709551615)) ∧
      (Still c → c.rdBit Reg.tlnStat b = false → exec (.toolLanLinkLoss portB) s = .next s) ∧
      (let may := c.rdBit Reg.tlnCtl 0 = true ∧ c.rdBit Reg.tlnStat 2 = false ∧ c.boot.loaded = true
       (may → Completes (.tlnLinkUp portB) s (fun x => x.rdBit Reg.tlnStat b = true ∧ x.books.dirtyLan = [] ∧
         x.rd Reg.tlnAlmtx = c.rd Reg.tlnAlmtx + wn c.books.dirtyLan.length)) ∧
       (Still c → ¬ may → exec (.tlnLinkUp portB) s = .next s))) ∧
    (∀ configured high : Bool,
      let may := (c.booted = true ∨ inRecovery c = true) ∧ c.rdBit Reg.sysStat 1 = false ∧ c.hst.vbus = true ∧ c.rdBit Reg.pwrIslpwr 25 = true ∧
        usbLevel c = true
      (may → Completes (.usbAttach true configured high) s (fun x => x.rd Reg.svcStat = wn (1 + 2 * b2n configured + 4 * b2n high) ∧
        (configured = true → x.books.dirtyUsb = []) ∧ (c.rdBit Reg.svcStat 0 = false → x.rdBit Reg.svcEvt 0 = true))) ∧
      (Still c → ¬ may → exec (.usbAttach true configured high) s = .next s) ∧
      (c.rdBit Reg.svcStat 0 = true → Completes (.usbAttach false configured high) s (fun x => x.rd Reg.svcStat = 0 ∧
        x.rdBit Reg.svcEvt 1 = true)) ∧
      (Still c → c.rdBit Reg.svcStat 0 = false → exec (.usbAttach false configured high) s = .next s)) ∧
    (c.boot.on = true →
      Completes (.usbVbusChange true) s (fun x => x.hst.vbus = true ∧ (c.rdBit Reg.pwrIslpwr 25 = true ∨ x.rdBit Reg.pwrIslreq 25 = true ∨
        c.pwr.rising.any (fun e => e.1 == 25) = true) ∧ KeepsRegsBut [Reg.pwrIslreq] c x) ∧
      Completes (.usbVbusChange false) s (fun x => x.hst.vbus = false ∧ x.rdBit Reg.pwrIslpwr 25 = false ∧
        x.rdBit Reg.pwrIslreq 25 = false ∧ x.rdBit Reg.svcStat 0 = false)) ∧
    (∀ code : TapCode, Still c →
      let closed := bit (fuseNow c Reg.secFuse) 12
      exec (.tapInstruction code) s = .next { s with chip := { c with hst := { c.hst with tap := (match code with
        | .idcode => 0
        | .bypass => 1
        | .sample => 2
        | .extest => if closed && c.pwr.porst then 1 else 3
        | .debug => if closed then 1 else 4
        | .other => 1) } } })

/-- DEVICE_FRAME on the tool LAN: a frame that is not the Poermun's own and carries its address and TLN_ETYPE is taken at a port in the
ring. The second copy of one counts TLN_DUP and does nothing else (an HBEAT apart, which counts as a heartbeat); the first with a prefix
that is none counts BADPFX, of another KIND does nothing, with a full queue of 64 counts CMDDROP, and else counts RXCMD and joins the queue,
whatever its opcode. On H3 or JTAG an opcode without a row is answered OPCODE at once when the port's turn is there. An unknown opcode at
the head of the tool-LAN queue is answered OPCODE in its turn and counted (both: the model's reading, notes/assumptions/44.md). HSR_FRAME at
a port in the ring: a bad tag sets its flag; an own frame is removed; a first copy not for the Poermun alone leaves by the other port, its
bytes unchanged, but for the correction of a Sync, which grows by its stay and the peer delay; a copy that this port has brought within the
forget time is counted and dropped, one only the other port has brought is counted and forwarded (notes/assumptions/36.md, 37.md); an HBEAT
of a supervisor marks its path up first. HSR_SUPERVISION sends the next sequence number on each port in the ring. PTP_SYNC of the clock's
domain: of a worse master than the one heard only the peer delay is kept; a Sync of TLB is not taken while those of TLA come within three
intervals, unless its master is new; of one that is taken the offset shows, clamped to 32 bits, the servo lies within 50,000 ppb, a value
the model leaves free; above 1,000 ns or from a new master the lock falls, the 16th in a row within 100 ns sets it, between the two it stays
and the count restarts (notes/assumptions/37.md). PTP_SYNC_TIMEOUT drops the lock. Otherwise nothing changes but that DEVICE_FRAME clears
what was sent before, which is the model's choice (notes/assumptions/4.md, 74.md). Cites 16 R720, 16 R724, 16 R725, 16 R726, 16 R727, 16
R728, 16 R736, 16 R738, 16 R744, 01 R41. -/
def Obligations.ToolLanFramesAndSyncs : Prop :=
  (∀ (s : State) (f : DevFrame),
    let c := s.chip
    let quiet := { c with hst := { c.hst with sent := [] } }
    let cmd := Instr.deviceFrame .tlan f.toDevHead f.op f.cfl f.cseq
    let p := f.pre.toNat
    let good := p % 256 = 0xA7 ∧ p / 256 % 256 ≤ 2 ∧ p / 65536 = 0
    let mine := lanPort c f.portB = true ∧ f.mac.toNat ≠ ownMac c ∧ isDevice c f = true
    let known := c.hst.hsrSeen.any (fun e => decide (c.nowNs < e.2.2 + hsrForget) &&
      (e.1 == f.mac.toNat && (e.2.1 == 2 * f.seq.toNat || e.2.1 == 2 * f.seq.toNat + 1)))
    let first := fun (P : Chip → Chip → Prop) => Completes cmd s (fun x => ∃ y, P y x ∧ y.hst.lanQ = c.hst.lanQ ∧
      (isHbeat f = false → KeepsRegsBut [] c y))
    (isDevice c f = true ↔ f.dst.toNat = ownMac c ∧ f.etype.toNat = c.rdF Reg.tlnEtype 15 0) ∧
    (Still c → ¬ mine → exec cmd s = .next { s with chip := quiet }) ∧
    (mine → known = true → Completes cmd s (fun x => x.hst.lanQ = c.hst.lanQ ∧
      (isHbeat f = false → x.rd Reg.tlnDup = c.rd Reg.tlnDup + 1 ∧ KeepsRegsBut [Reg.tlnDup] c x))) ∧
    (mine → known = false →
      (¬ good → first (fun y x => x = y.bump Reg.tlnBadpfx)) ∧
      (good → p / 256 % 256 ≠ 0 → first (fun y x => x = y)) ∧
      (good → p / 256 % 256 = 0 → 64 ≤ c.hst.lanQ.length → first (fun y x => x = y.bump Reg.tlnCmddrop)) ∧
      (good → p / 256 % 256 = 0 → c.hst.lanQ.length < 64 → first (fun y x => x = { y.bump Reg.tlnRxcmd with
        hst := { y.hst with lanQ := y.hst.lanQ ++ [⟨f.mac.toNat, f.op.toNat, natBit f.cfl.toNat 0 || f.op == 0x11, f.cseq.toNat⟩] } }))) ∧
    (∀ port : HostPort, port ≠ .tlan →
      let answers := port ≠ .h0 ∧ (port = .h3 → usbUp c = true) ∧ (port = .jtag → tapOpen c = true ∧ inRecovery c = false) ∧
        wrsigRuns c (portSrc port) = false ∧ turnComes c (homeOf port) = true ∧ f.op.toNat ∉ opcodes ∧ (c.booted = true ∨ inRecovery c = true)
      (answers → Completes (.deviceFrame port f.toDevHead f.op f.cfl f.cseq) s (fun x =>
        x = respond (takeFrom c port) ⟨portSrc port, 0, natBit f.cfl.toNat 0, f.cseq.toNat⟩ f.op.toNat (Rsp.fail 10))) ∧
      (Still c → ¬ answers → exec (.deviceFrame port f.toDevHead f.op f.cfl f.cseq) s = .next { s with chip := quiet }))) ∧
  (∀ (z : Chip) (q : LanCmd), z.hst.lanQ = [q] → z.booted = true → wrsigRuns z 11 = false → q.op ∉ opcodes → headUnknown z .h0 = none →
    ∃ y, unknownDone z = respond y ⟨11, q.mac, q.norsp, q.cseq⟩ q.op (Rsp.fail 10) ∧ y.hst.lanQ = [] ∧
      y.rd Reg.hpcCmdcnt = z.rd Reg.hpcCmdcnt + 1 ∧ KeepsRegsBut [Reg.hpcCmdcnt] z y) ∧
  (∀ (s : State) (portB : Bool) (mac : BitVec 48) (seq : BitVec 16) (alone : Bool) (bytes : List Byte) (stay : Nat),
    let c := s.chip
    let frame := fun (tagOk hbeat : Bool) => Instr.hsrFrame portB mac seq tagOk alone hbeat ⟨bytes, stay⟩
    let before := fun (b : Bool) => c.hst.hsrSeen.any (fun e => decide (c.nowNs < e.2.2 + hsrForget) &&
      (e.1 == mac.toNat && e.2.1 == 2 * seq.toNat + b2n b))
    let isSync := ofBe (sliceB bytes 6 2) = 0x88F7 ∧ leAt bytes 8 1 % 16 = 0
    let corr : Int := (ofBe (sliceB bytes 16 8) : Nat) + 65536 * ((stay : Int) + Tab.get 0 c.hst.ptp.peer (b2n portB))
    let leaves := fun (x : Chip) => ∃ bs, x.hst.sent = [(32 + b2n (!portB), mac.toNat, bs)] ∧ (¬ isSync → bs = bytes) ∧
      (isSync → bs = bytes.take 16 ++ beBytes 8 (corr % 2 ^ 64).toNat ++ bytes.drop 24)
    (lanPort c portB = false → Still c → ∀ ok hb, exec (frame ok hb) s = .next s) ∧
    (lanPort c portB = true →
      (∀ hb, Completes (frame false hb) s (fun x => x.rdBit Reg.tlnEvt 3 = true ∧ x.hst.sent = [] ∧ x.hst.hsrSeen = c.hst.hsrSeen)) ∧
      (∀ hb, mac.toNat = ownMac c → Completes (frame true hb) s (fun x => x.hst.sent = [] ∧ x.regs = c.regs)) ∧
      (mac.toNat ≠ ownMac c →
        (before portB = true → Completes (frame true false) s (fun x => x.hst.sent = [] ∧ x.rd Reg.tlnDup = c.rd Reg.tlnDup + 1)) ∧
        (before portB = false → Completes (frame true false) s (fun x => (alone = true → x.hst.sent = []) ∧ (alone = false → leaves x) ∧
          x.rd Reg.tlnDup = c.rd Reg.tlnDup + (if before (!portB) then 1 else 0) ∧
          (mac.toNat, 2 * seq.toNat + b2n portB, c.nowNs) ∈ x.hst.hsrSeen)) ∧
        (∀ k, svByMac c mac.toNat = some k → Completes (frame true true) s (fun x =>
          pathUp x k (if svHome c k = 0 then 2 else if portB then 2 else 1) = true))))) ∧
  (∀ s : State, Still s.chip →
    let c := s.chip
    let n := (c.hst.hsrSeq + 1) % 65536
    let one := fun (b : Bool) => if c.rdBit Reg.tlnStat (b2n b) then [(32 + b2n b, ownMac c, beBytes 2 n)] else []
    (lanUp c = true → exec .hsrSupervision s = .next { s with chip := { c with hst := { c.hst with
      sent := one false ++ one true
      hsrSeq := n } } }) ∧
    (lanUp c = false → exec .hsrSupervision s = .next s)) ∧
  (∀ (s : State) (portB : Bool) (m : PtpSync),
    let c := s.chip
    let cmd := Instr.ptpSync portB m.toPtpTimes m.interval m.master
    let takes := lanPort c portB = true ∧ c.rdBit Reg.tlnCtl 3 = true ∧ m.domain.toNat = c.rdF Reg.tlnPtpcfg 7 0
    let peers := match m.peer with
      | some t => Tab.set 0 c.hst.ptp.peer (b2n portB) (((t.2.2.2 - t.1) - (t.2.2.1 - t.2.1)) / 2)
      | none => c.hst.ptp.peer
    let worse := ∃ r, masterNow c = some r ∧ r < m.master
    let fresh := c.hst.ptp.master.map (·.1) ≠ some m.master
    let aLives := ∃ t, c.hst.ptp.lastA = some t ∧ c.nowNs < t + 3 * m.interval
    let measured : Int := match m.follow with
      | some f => m.receipt - f.1 - (m.corr + f.2) / 65536 - Tab.get 0 peers (b2n portB)
      | none => m.receipt - m.origin - m.corr / 65536 - Tab.get 0 peers (b2n portB)
    let counted := if c.hst.ptp.master.map (·.1) = some m.master ∧ measured.natAbs ≤ 100 then c.hst.ptp.good + 1 else 0
    let heard := { c.hst.ptp with
      peer := peers
      master := some (m.master, c.nowNs, m.interval)
      lastA := if portB then (if c.hst.ptp.master.map (·.1) = some m.master then c.hst.ptp.lastA else none) else some c.nowNs }
    (Still c → ¬ takes → exec cmd s = .next s) ∧
    (takes → worse → Still c → exec cmd s = .next { s with chip := { c with hst := { c.hst with ptp := { c.hst.ptp with peer := peers } } } }) ∧
    (takes → ¬ worse → portB = true → ¬ fresh → aLives → Still c → exec cmd s = .next { s with chip := { c with hst := { c.hst with ptp := heard } } }) ∧
    (takes → ¬ worse → portB = false ∨ fresh ∨ ¬ aLives → Completes cmd s (fun x =>
      x.hst.ptp = { heard with
        good := counted
        servo := x.hst.ptp.servo } ∧
      -50000 ≤ x.hst.ptp.servo ∧ x.hst.ptp.servo ≤ 50000 ∧
      x.rd Reg.tlnPtpofs = w32 (max (-2147483648) (min measured 2147483647)) ∧ x.rdBit Reg.tlnStat 4 = portB ∧
      (fresh ∨ 1000 < measured.natAbs → x.rdBit Reg.sysTbstat 1 = false) ∧
      (¬ fresh → measured.natAbs ≤ 1000 → x.rdBit Reg.sysTbstat 1 = (decide (16 ≤ counted) || c.rdBit Reg.sysTbstat 1))))) ∧
  (∀ s : State, Completes .ptpSyncTimeout s (fun x => x.rdBit Reg.sysTbstat 1 = false ∧ x.hst.ptp = { s.chip.hst.ptp with good := 0 } ∧
    KeepsRegsBut [Reg.sysTbstat, Reg.tlnStat, Reg.tlnEvt] s.chip x))

/-- By an agent that may write it: HPC_DQqTAIL takes its 12 bits and HPC_DQqCTL.EN becomes 1 where the ring has 4 to 4,096 entries (else
nothing changes), then descriptors are accepted, at the ends of their queues, at most four in one and sixteen in all, none that may be
accepted left while there is room; their rotation starts at queue 0 (notes/assumptions/69.md). DESCRIPTOR_END and COMPLETION_TIMEOUT act on
the oldest accepted descriptor of a queue, and do nothing without one (a timeout also for one that waits for no completions), which is the
model's choice (notes/assumptions/4.md). The status is 8 for a descriptor out of range (what counts as such, and the order of STATUS and
HEAD, as notes/assumptions/53.md has it), 5 for a timeout, 4 for a DIR 0 transfer whose local read meets an uncorrectable error, else the
code of the link. With CORE out of reset, no fill running, the word of STATUS undamaged and no descriptor behind it cut by a restart, it is
written at the descriptor's last word, HEAD goes on by one, DONE counts one, LAST is the tag; a status but 1 sets HALT with the code and
clears EN. DIR 0 with status 1 copies the local bytes to the host, DIR 1 stores the bytes that came, outside the STATUS word. With CORE in
reset STATUS and HEAD wait for its release. HPC_CQTAIL takes its value and no other register changes; an entry that H0 has put there before
stands in host memory (notes/assumptions/45.md). Cites 13 R591, 13 R608, 16 R713, 16 R714, 16 R715, 16 R716, 16 R717, 16 R718, 16 R739, 17
R780, 19 R850. -/
def Obligations.DescriptorsAreTakenAndEnd : Prop :=
  (∀ (s : State) (who : Agent) (q : Fin 8) (v : Word), Memory.wf s.chip.mem = true →
    let kept := fun (x : Chip) => ∀ a, x.byteAt a = s.chip.byteAt a
    let sized := 2 ≤ s.chip.rdF (Reg.hpcDqctl q.val) 4 1 ∧ s.chip.rdF (Reg.hpcDqctl q.val) 4 1 ≤ 12
    (MayWrite s.chip who (Reg.hpcDqtail q.val) → Completes (.dqTail who q v) s (fun x => x.rd (Reg.hpcDqtail q.val) = wn (fld v 11 0) ∧
      DqGrows s.chip x ∧ kept x)) ∧
    (MayWrite s.chip who (Reg.hpcDqctl q.val) → 
      (sized → Completes (.dqEnable who q) s (fun x => x.rdBit (Reg.hpcDqctl q.val) 0 = true ∧ DqGrows s.chip x ∧ kept x)) ∧
      (¬ sized → Still s.chip → exec (.dqEnable who q) s = .next s)) ∧
    (MayWrite s.chip who Reg.hpcCqtail → ∀ images : List (List Byte), Completes (.hpcCqtail who ⟨v, images⟩) s (fun x => x.rd Reg.hpcCqtail = v ∧
      KeepsRegsBut [Reg.hpcCqtail] s.chip x ∧ (who ≠ .h0 → x.hostMem = s.chip.hostMem) ∧
      (∀ b, who = .h0 → images = [b] → x.hostMem = memPut s.chip.hostMem (addr64 s.chip Reg.hpcCqbaselo Reg.hpcCqbasehi +
        2048 * ((s.chip.rd Reg.hpcCqtail).toNat % ringEntries s.chip)) b)))) ∧
  (∀ (s : State) (q : Fin 8) (code : Fin 7) (data : List Byte), Memory.wf s.chip.mem = true →
    let c := s.chip
    (Still c → dqOf c q.val = [] → exec (.descriptorEnd q code data) s = .next s ∧ exec (.completionTimeout q) s = .next s) ∧
    (∀ d rest, dqOf c q.val = d :: rest →
      let in1 := natBit d.ctl 0
      let bad := dqRangeBad c d
      let v := d.ctl / 256 % 64
      let head := (d.idx + 1) % dqSize c q.val
      let clear := c.memu.fill = none ∧ d.adr % 32 = 0 ∧ Undamaged c (d.adr + 28) 4 ∧ (∀ e ∈ rest, e.cut = false)
      let books := fun (x : Chip) => x.rd (Reg.hpcDqdone q.val) = c.rd (Reg.hpcDqdone q.val) + 1 ∧ x.rd (Reg.hpcDqlast q.val) = wn d.tag
      let ended := fun (x : Chip) (st : Nat) => books x ∧
        (∀ i b, (leBytes 4 st)[i]? = some b → x.byteAt (d.adr + 28 + i) = b) ∧
        x.rd (Reg.hpcDqhead q.val) = wn head ∧ (∃ new, dqOf x q.val = rest ++ new) ∧
        (st ≠ 1 → dqOf x q.val = rest ∧ x.rdBit (Reg.hpcDqctl q.val) 0 = false ∧ x.rdBit (Reg.hpcDqstat q.val) 1 = true ∧
          x.rdF (Reg.hpcDqstat q.val) 7 4 = st)
      let waits := fun (x : Chip) (st : Nat) => books x ∧ x.rd (Reg.hpcDqhead q.val) = c.rd (Reg.hpcDqhead q.val) ∧
        x.hst.dqLate = c.hst.dqLate ++ [⟨d.adr + 28, st, q.val, head, if natBit d.ctl 2 && decide (v ≥ 6) then some v else none⟩]
      (c.rst.inCore = false → clear →
        (bad = true → Completes (.descriptorEnd q code data) s (fun x => ended x 8 ∧ x.hostMem = c.hostMem)) ∧
        (bad = false → in1 = false → code.val ≠ 0 → code.val ≠ 1 → Completes (.descriptorEnd q code data) s (fun x =>
          ended x code.val ∧ x.hostMem = c.hostMem)) ∧
        (bad = false → in1 = false → code.val = 1 →
          ((readBytes c 15 d.ladr d.len).2.2 = 2 → Completes (.descriptorEnd q code data) s (fun x => ended x 4 ∧ x.hostMem = c.hostMem)) ∧
          (Undamaged c d.ladr d.len → Completes (.descriptorEnd q code data) s (fun x =>
            ended x 1 ∧ x.hostMem = memPut c.hostMem d.hadr (c.bytes d.ladr d.len)))) ∧
        (bad = false → in1 = true → code.val ≠ 0 → Undamaged c d.ladr d.len → Completes (.descriptorEnd q code data) s (fun x =>
          let bs := if code.val = 1 then padTo d.len data else data.take d.len
          ended x code.val ∧ x.hostMem = c.hostMem ∧
          (∀ i b, bs[i]? = some b → d.ladr + i < d.adr + 28 ∨ d.adr + 32 ≤ d.ladr + i → x.byteAt (d.ladr + i) = b) ∧
          ∀ j, j < d.ladr ∨ d.ladr + bs.length ≤ j → j < d.adr + 28 ∨ d.adr + 32 ≤ j → x.byteAt j = c.byteAt j)) ∧
        (in1 = true → bad = false → Completes (.completionTimeout q) s (fun x => ended x 5 ∧ x.hostMem = c.hostMem))) ∧
      (c.rst.inCore = true → (∀ e ∈ rest, e.cut = false) →
        (bad = true → Completes (.descriptorEnd q code data) s (fun x => waits x 8)) ∧
        (bad = false → code.val ≠ 0 → code.val ≠ 1 ∨ in1 = true ∧ Undamaged c d.ladr d.len → Completes (.descriptorEnd q code data) s (fun x => waits x code.val)) ∧
        (bad = false → in1 = true → Completes (.completionTimeout q) s (fun x => waits x 5))) ∧
      (Still c → in1 = false ∨ bad = true → exec (.completionTimeout q) s = .next s)))

/-- CLAIM without a body by a sender that is a supervisor on its home port, at most its ceiling, becomes its request, is answered, and the
holder is right afterwards: LIVE, above 0, exceeded by no LIVE supervisor; above the ceiling it counts CEILREF and gives CEILING; a sender
that is none gives NOSV; a supervisor on another port AUTH; the order of these checks, and the results, are the model's reading
(notes/assumptions/44.md). HBEAT on H0 and CLM_HB mark path 1 of the home-H0 supervisor up with its time, HBEAT on H3 that of SV15; with
every path up an ABSENT or FAILED one becomes PENDING or LIVE. PATH_TIMEOUT of a path that is up and whose time has run (SV15's not while
CORE is held): the path is down; of a LIVE supervisor with another path up PATHALM is set and it stays LIVE, else it is FAILED and counted.
HOLD_EXPIRY of a PENDING one whose HOLD has run makes it LIVE; both leave the holder right, whose decision is made afresh
(notes/assumptions/51.md). LEDGER_CHECK with every tested equation in balance and no snapshot asked changes nothing but the phase
(notes/assumptions/5.md); with one ledger broken it counts each break, sets the flag and raises fault 3 of class RESTART. The differences
recorded by set and by trigger unit, which have no register, are among what balances (notes/assumptions/63.md). LDG_SNAP asks for a snapshot
once. Otherwise nothing changes, which is the model's choice (notes/assumptions/4.md). Cites 16 R742, 16 R743, 16 R744, 16 R745, 16 R746, 16
R747, 19 R852, 19 R854, 19 R855, 19 R860. -/
def Obligations.ClaimsHeartbeatsAndLedgers : Prop :=
  (∀ (s : State) (h : HostCmd), MaySend s.chip 0x10 .claim h → h.body = [] →
    let k := cmdTake s.chip h
    let v := fld h.arg0 15 0
    let sv := svOfSender s.chip (portSrc h.port) h.mac.toNat
    (sv = none → AnswersWith (.claim h) s 0x10 h (fun y r => y = k ∧ r = Rsp.fail 9)) ∧
    (∀ j, sv = some j →
      (svHome s.chip j ≠ homeOf h.port → AnswersWith (.claim h) s 0x10 h (fun y r => y = authRefuse k ∧ r = Rsp.fail 5)) ∧
      (svHome s.chip j = homeOf h.port → svCeiling s.chip j < v → AnswersWith (.claim h) s 0x10 h (fun y r =>
        r = ⟨8, svEffective s.chip j, 0, []⟩ ∧ y.rd Reg.clmCeilref = s.chip.rd Reg.clmCeilref + 1 ∧ y.hst = k.hst)) ∧
      (svHome s.chip j = homeOf h.port → v ≤ svCeiling s.chip j → AnswersWith (.claim h) s 0x10 h (fun y r =>
        r = ⟨0, v, 0, []⟩ ∧ svRequest y j = v ∧ HolderRight y ∧ ∀ i, i < 16 → i ≠ j → svRequest y i = svRequest s.chip i)))) ∧
  (∀ (s : State) (h : HostCmd) (who : Agent),
    let beats := fun (c : Instr) (j : Nat) => Completes c s (fun x => pathUp x j 1 = true ∧
      (svState s.chip j = 0 ∨ svState s.chip j = 3 → j = 15 ∨ pathUp s.chip j 2 = true → svState x j = 1 ∨ svState x j = 2))
    (∀ j, svHomeH0 s.chip = some j →
      (MaySend s.chip 0x11 .claim { h with norsp := true } → h.port = .h0 → beats (.hbeat h) j) ∧
      (MayWrite s.chip who Reg.clmHb → beats (.clmHb who) j)) ∧
    (MaySend s.chip 0x11 .claim { h with norsp := true } → h.port = .h3 → beats (.hbeat h) 15) ∧
    (svHomeH0 s.chip = none → MayWrite s.chip who Reg.clmHb → Still s.chip → exec (.clmHb who) s = .next s)) ∧
  (∀ (s : State) (k : Fin 16) (p : Fin 2),
    let last := if p.val = 0 then (svOf s.chip k.val).last1 else (svOf s.chip k.val).last2
    let due := pathUp s.chip k.val (p.val + 1) = true ∧ last + svLimit s.chip k.val ≤ s.chip.nowNs ∧
      (k.val = 15 → s.chip.rst.inCore = false)
    let other := k.val ≠ 15 ∧ pathUp s.chip k.val (2 - p.val) = true
    (Still s.chip → ¬ due → exec (.pathTimeout k p) s = .next s) ∧
    (due → Completes (.pathTimeout k p) s (fun x => pathUp x k.val (p.val + 1) = false)) ∧
    (due → svState s.chip k.val = 2 → k.val ≠ 15 → other → Completes (.pathTimeout k p) s (fun x => svState x k.val = 2 ∧
      x.rdBit (Reg.clmSvstat k.val) 21 = true)) ∧
    (due → svState s.chip k.val = 2 → ¬ other → (k.val = 15 → p.val = 0) → Completes (.pathTimeout k p) s (fun x =>
      svState x k.val = 3 ∧ x.rd Reg.clmFailcnt = s.chip.rd Reg.clmFailcnt + 1 ∧ HolderRight x)) ∧
    (let ripe := svState s.chip k.val = 1 ∧ (svOf s.chip k.val).pendAt + svHold s.chip k.val ≤ s.chip.nowNs
     (ripe → Completes (.holdExpiry k) s (fun x => svState x k.val = 2 ∧ HolderRight x)) ∧
     (Still s.chip → ¬ ripe → exec (.holdExpiry k) s = .next s))) ∧
  (∀ s : State, s.chip.boot.on = true →
    let s0 := s.chip.atPhase 9700
    let breaks := fun (l : Nat) => if ledTested s0 l then (equations s0 l).filter (fun e => e.2.1 != 0) else []
    ((∀ l, l < 8 → breaks l = []) → s.chip.books.snapWaits = false → Completes (.ledgerCheck []) s (fun x => x = s0)) ∧
    (∀ l, l < 8 → breaks l ≠ [] → (∀ m, m < 8 → m ≠ l → breaks m = []) → s.chip.books.snapWaits = false →
      Completes (.ledgerCheck []) s (fun x => x.rd Reg.ldgFailcnt = s.chip.rd Reg.ldgFailcnt + wn (breaks l).length ∧
        x.rdBit Reg.ldgEvt 0 = true ∧
        (s.chip.restarting = false → rateExceeded s.chip = false → s.chip.stage ≠ 5 → x.rst.cause = some (3, l))))) ∧
  (∀ (s : State) (who : Agent) (v : Word), MayWrite s.chip who Reg.ldgCmd →
    (bit v 0 = true → s.chip.books.snapWaits = false → Completes (.ldgSnap who v) s (fun x => x.books.snapWaits = true ∧
      x.rdBit Reg.ldgStat 9 = false ∧ KeepsRegsBut [Reg.ldgStat] s.chip x)) ∧
    (Still s.chip → bit v 0 = false ∨ s.chip.books.snapWaits = true → exec (.ldgSnap who v) s = .next s))

/-- VSUP_SAMPLE with AON running keeps the sample and counts, for each stage, the samples in a row below its threshold, to 4; the next stage
is entered when its count is 4 and the one after is not also; without that the stage stays. STAGE_LEAVE when the leave timer has run lowers
the stage by one, at STAGET. GOVERNOR_SLOT admits the request that no waiting one comes before (in the order of notes/assumptions/21.md
where the spec gives none), which rises for 800 ns, is no longer asked for and is counted; with none waiting, its phase passed, or a start
of this slot admitted already, only the phase moves (notes/assumptions/5.md). ISLAND_POWER_GOOD of a rising island, in the tick in which its
800 ns are over, gives it power at that moment. JOURNAL_SEAL_DONE of a running seal: SEALRUN falls; complete, SEALED and its flag are set
and no byte outside the seal changes; abandoned, the memory is unchanged and its flag set. THERM, armed and AON running, enters fault 0x20
of class ALARM once and sets its flag; THERM_REARM arms it. Otherwise nothing changes, which is the model's choice (notes/assumptions/4.md).
Cites 17 R768, 17 R784, 17 R785, 17 R786, 17 R787, 17 R788, 17 R789, 17 R793, 17 R797, 17 R802. -/
def Obligations.SupplyGovernorAndSeal : Prop :=
  ∀ s : State,
    let c := s.chip
    let same := fun (i : Instr) => exec i s = .next s
    (∀ (k : Fin 10) (mv : BitVec 16),
      let m := mv.toNat
      let count := fun (n : Nat) => if m < enterBelow n then min (Tab.get 0 c.pwr.below n + 1) 4 else 0
      let smp := Instr.vsupSample k mv
      (Still c → c.boot.on = false → same smp) ∧
      (c.boot.on = true →
        Completes smp s (fun x => x.pwr.mv = m ∧ ∀ n, 1 ≤ n → n ≤ 5 → Tab.get 0 x.pwr.below n = count n) ∧
        (count (c.stage + 1) < 4 ∨ 5 ≤ c.stage → Completes smp s (fun x => x.stage = c.stage ∧ x.rd Reg.pwrVsup = wn m)) ∧
        (c.stage < 5 → count (c.stage + 1) = 4 → c.stage = 4 ∨ count (c.stage + 2) < 4 → Completes smp s (fun x =>
          x.stage = c.stage + 1 ∧ x.rd Reg.pwrStaget = c.tick32 ∧ x.rdBit Reg.pwrEvt 0 = true)))) ∧
    (∀ t, c.pwr.leave = some t →
      (c.stage ≠ 0 → t + leaveTime c.stage ≤ c.nowNs → Completes .stageLeave s (fun x => x.stage = c.stage - 1 ∧
        x.rd Reg.pwrStaget = c.tick32)) ∧
      (Still c → c.stage = 0 ∨ c.nowNs < t + leaveTime c.stage → same .stageLeave)) ∧
    (Still c → c.pwr.leave = none → same .stageLeave) ∧
    (∀ k : Fin 10,
      let s0 := c.atPhase (1000 * k.val)
      let gone := 1000 * k.val < c.tb.phase ∨ c.pwr.rising.any (fun e => e.2 == s0.nowNs + 800) = true
      (Still c → c.pwr.starts = [] ∨ gone → exec (.governorSlot k) s = .next { s with chip := s0 }) ∧
      (c.pwr.starts ≠ [] → ¬ gone → Completes (.governorSlot k) s (fun x => ∃ q ∈ c.pwr.starts,
        (∀ p ∈ c.pwr.starts, startBefore p q = true → p = q) ∧
        x.pwr.rising = c.pwr.rising ++ [(q.isl, s0.nowNs + 800)] ∧
        x.pwr.starts.map (·.isl) = (c.pwr.starts.map (·.isl)).filter (fun i => i != q.isl) ∧
        (q.isl < 32 → x.rdBit Reg.pwrIslreq q.isl = false) ∧ x.rd Reg.pwrGovcnt = c.rd Reg.pwrGovcnt + 1))) ∧
    (∀ j : Fin 32,
      let rises := c.pwr.rising.find? (fun e => e.1 == j.val)
      (∀ e, rises = some e → c.inTick e.2 = true → Completes (.islandPowerGood j) s (fun x => x.rdBit Reg.pwrIslpwr j.val = true ∧
        x.pwr.rising = c.pwr.rising.filter (fun e => e.1 != j.val) ∧ (j.val < 16 → x.rdBit (Reg.ltStat j.val) 0 = true) ∧
        x.tb = (c.atPhase (e.2 - c.tb.base)).tb)) ∧
      (Still c → (∀ e, rises = some e → c.inTick e.2 = false) → same (.islandPowerGood j))) ∧
    ((∀ t, c.pwr.sealTick = some t →
      Completes (.journalSealDone true) s (fun x => x.pwr.sealTick = none ∧ x.rdBit Reg.pwrStat 3 = false ∧
        x.rdBit Reg.pwrStat 4 = true ∧ x.rdBit Reg.pwrEvt 3 = true ∧
        (Memory.wf c.mem = true → ∀ a, a < sealAddr ∨ sealAddr + 0x110000 ≤ a → x.byteAt a = c.byteAt a)) ∧
      Completes (.journalSealDone false) s (fun x => x.pwr.sealTick = none ∧ x.rdBit Reg.pwrStat 3 = false ∧
        x.rdBit Reg.pwrStat 4 = c.rdBit Reg.pwrStat 4 ∧ x.rdBit Reg.pwrEvt 5 = true ∧ x.mem = c.mem)) ∧
     (Still c → c.pwr.sealTick = none → ∀ good, same (.journalSealDone good))) ∧
    (c.boot.on = true → c.pwr.therm = true → c.books.faultQ.length < 16 → Completes .therm s (fun x => x.pwr.therm = false ∧
      x.books.faultQ = c.books.faultQ ++ [⟨0x20, 1, true, 0, c.tb.tick⟩] ∧ x.rdBit Reg.pwrEvt 4 = true)) ∧
    (Still c → c.boot.on = false ∨ c.pwr.therm = false → same .therm) ∧
    (Still c → exec .thermRearm s = .next { s with chip := { c with pwr := { c.pwr with therm := true } } })

/-- WARM_L, booted, and the key at SYS_RSTREQ by a core: with no restart in progress, the rate not exceeded and not at stage 5, the fault
becomes the restart's cause; in progress, the fault only enters the queue and the restart goes on as it was. Before BOOT_DONE, which is the
model's choice (notes/assumptions/24.md), and for another value, nothing changes. WARM_RESTART_START with a cause and none running: SYS_STAT
shows it, T0 is now, every core is stopped and H3 detached. CORE_RESET, running, CORE not held, phase 9,600 not passed, and at that phase no
CAN frame in progress or 1 ms past T0: CORE is held from phase 9,600, no evaluation, result or queued write of the loop engine is left and
the store is marked. RESTART_RELOAD_DONE with CORE held, after the swap boundary of a swap: an image that does not match, among those read
or by the operand (notes/assumptions/18.md), or a consist that does not, is a fault of class COLD; with images and consist matching the
reload is noted. ENGINE_RESUME at a boundary of a later tick: CORE runs, no cause is left, SYS_STAT shows none, no RESTART entry stays in
the fault queue, SYS_WARMDUR is the time since T0 and the resume is flagged. SYS_FACK takes the first entry when it is NOTE or ALARM.
Otherwise nothing changes, which is the model's choice (notes/assumptions/4.md); that CORE_RESET comes no later than phase 9,600 of a tick,
and the order at the resume, are its reading (notes/assumptions/5.md, 75.md). Cites 17 R775, 17 R776, 17 R778, 17 R779, 17 R781, 17 R798, 17
R799, 17 R801, 03 R162, 03 R164, 02 R107. -/
def Obligations.WarmRestartRunsItsCourse : Prop :=
  ∀ s : State,
    let c := s.chip
    let same := fun (i : Instr) => exec i s = .next s
    let takes := fun (i : Instr) (code item : Nat) =>
      (c.restarting = false → rateExceeded c = false → c.stage ≠ 5 → Completes i s (fun x => x.rst = { c.rst with
        cause := some (code, item) })) ∧
      (c.restarting = true → c.books.faultQ.length < 16 → Completes i s (fun x => x.rst = c.rst ∧
        x.books.faultQ = c.books.faultQ ++ [⟨code, 2, false, item, c.tb.tick⟩]))
    (c.booted = true → takes .warmL 4 0) ∧
    (Still c → c.booted = false → same .warmL) ∧
    (∀ (who : Agent) (v : Word), MayWrite c who Reg.sysRstreq →
      let acts := c.booted = true ∧ srcIsCore (agentSrc who) = true ∧ v = 0x5741524D
      (acts → takes (.sysRstreq who v) 5 (agentSrc who)) ∧
      (Still c → ¬ acts → same (.sysRstreq who v))) ∧
    (let may := c.rst.cause.isSome = true ∧ c.rdBit Reg.sysStat 1 = false
     (may → Completes .warmRestartStart s (fun x => x.rdBit Reg.sysStat 1 = true ∧ x.rst.t0 = c.nowNs ∧ x.rst.pwmHold = true ∧
       x.rst.times = recentRestarts c ++ [c.nowNs] ∧ x.rst.cause = c.rst.cause ∧ (∀ n, n < 10 → x.rdF (coreStat n) 1 0 = 0) ∧
       x.rdBit Reg.svcStat 0 = false)) ∧
     (Still c → ¬ may → same .warmRestartStart)) ∧
    (∀ onLink : List Nat,
      let may := c.rdBit Reg.sysStat 1 = true ∧ c.rst.inCore = false ∧ c.tb.phase ≤ 9600 ∧
        ((∀ n, n < 8 → (canSt c n).bus = none) ∨ c.rst.t0 + 1000000 ≤ (c.atPhase 9600).nowNs)
      (may → Completes (.coreReset onLink) s (fun x => x.rst.inCore = true ∧ x.rst.coreT = (c.atPhase 9600).nowNs ∧
        x.tb = (c.atPhase 9600).tb ∧ x.eng.held = [] ∧ x.eng.due = [] ∧ x.eng.shq = [] ∧ x.rdBit Reg.sigStat 1 = true ∧
        x.store.entries = (setHeld c).store.entries)) ∧
      (Still c → ¬ may → same (.coreReset onLink))) ∧
    (∀ (mir jou : List Nat) (bad : Option Nat),
      let i := Instr.restartReloadDone mir jou bad
      let may := c.rst.inCore = true ∧ c.rst.reloaded = none ∧ (c.rst.swap = true → c.rst.swapped = true)
      (Still c → ¬ may → same i) ∧
      (may → bad.isSome = true → Completes i s (fun x => x.books.cold.isSome = true)) ∧
      (may → bad = none → (∃ d ∈ tcmImages c, imageOk c d = false) ∨ sha256 (consistNow c).img ≠ regHash c (Reg.secCsthash 0) →
        Completes i s (fun x => x.books.cold.isSome = true)) ∧
      (may → bad = none → (∀ d ∈ tcmImages c, imageOk c d = true) → sha256 (consistNow c).img = regHash c (Reg.secCsthash 0) →
        Completes i s (fun x => x.rst.reloaded = some c.tb.tick ∧ x.rst.inCore = true))) ∧
    (let may := c.rst.inCore = true ∧ c.tb.phase = 0 ∧ ∃ t, c.rst.reloaded = some t ∧ t ≠ c.tb.tick
     (may → Completes .engineResume s (fun x => x.rst.inCore = false ∧ x.rst.cause = none ∧ x.rst.reloaded = none ∧ x.rst.swap = false ∧
       x.rdBit Reg.sysStat 1 = false ∧ (∀ e ∈ x.books.faultQ, e.cls ≠ 2) ∧ x.rdBit Reg.sysEvt 1 = true ∧ x.hst.warm = [] ∧
       x.rd Reg.sysWarmdur = wn ((c.nowNs - c.rst.t0) / 1000) ∧ x.rdBit Reg.lpeStat 0 = true ∧ x.rd Reg.lpeResume = c.tick32)) ∧
     (Still c → ¬ may → same .engineResume)) ∧
    (∀ (who : Agent) (v : Word), MayWrite c who Reg.sysFack → Still c →
      (∀ e q, c.books.faultQ = e :: q → bit v 0 = true → e.cls ≤ 1 →
        exec (.sysFack who v) s = .next { s with chip := { c with books := { c.books with faultQ := q } } }) ∧
      (bit v 0 = false ∨ (∀ e q, c.books.faultQ = e :: q → 2 ≤ e.cls) → same (.sysFack who v)))
end

