-- ==== Sys2Proof/Laws/Bits.lean ====
section
/-!
SUPPORT. Bit fields: what a field reads after a field has been replaced.
-/

namespace Sys2Proof.Machine

theorem fld_lt (w : Word) (hi lo : Nat) : fld w hi lo < 2 ^ (hi + 1 - lo) := Nat.mod_lt _ (Nat.two_pow_pos _)

theorem setFld_toNat (w : Word) {hi lo : Nat} (v : Nat) (h : lo ≤ hi) (h' : hi ≤ 31) :
    (setFld w hi lo v).toNat =
      w.toNat / 2 ^ (hi + 1) * 2 ^ (hi + 1) + v % 2 ^ (hi + 1 - lo) * 2 ^ lo + w.toNat % 2 ^ lo := by
  have e : (2 : Nat) ^ (hi + 1) = 2 ^ (hi + 1 - lo) * 2 ^ lo := by rw [← pow_add]; congr 1; omega
  have e32 : (2 : Nat) ^ 32 = 2 ^ (32 - (hi + 1)) * 2 ^ (hi + 1) := by rw [← pow_add]; congr 1; omega
  unfold setFld fld
  rw [BitVec.toNat_ofNat, Nat.shiftRight_eq_div_pow, Nat.shiftLeft_eq, Nat.shiftLeft_eq]
  have hw := w.isLt
  generalize w.toNat = x at *
  rw [e32] at hw ⊢
  generalize h32 : 2 ^ (32 - (hi + 1)) = M at *
  rw [e] at hw ⊢
  have hP : 0 < 2 ^ (hi + 1 - lo) := Nat.two_pow_pos _
  have hL : 0 < 2 ^ lo := Nat.two_pow_pos _
  generalize 2 ^ (hi + 1 - lo) = P at *
  generalize 2 ^ lo = L at *
  have hv : v % P < P := Nat.mod_lt _ hP
  generalize v % P = u at *
  have hA : x / (P * L) = x / L / P := by rw [Nat.mul_comm, Nat.div_div_eq_div_mul]
  have d1 : x = L * (x / L) + x % L := (Nat.div_add_mod x L).symm
  have d2 : x / L = P * (x / L / P) + x / L % P := (Nat.div_add_mod (x / L) P).symm
  have hAlt : x / (P * L) < M := Nat.div_lt_of_lt_mul (by rw [Nat.mul_comm]; exact hw)
  have hxl : x % L < L := Nat.mod_lt _ hL
  have hq : x / L % P < P := Nat.mod_lt _ hP
  rw [hA] at *
  generalize x / L / P = A at *
  generalize x / L % P = B at *
  generalize x % L = C at *
  have hx : x = A * (P * L) + B * L + C := by
    rw [d1, d2]; ring
  have hsub : x - B * L = A * (P * L) + C := by omega
  rw [hsub]
  have hu : u * L + C < P * L := by
    have : (u + 1) * L ≤ P * L := Nat.mul_le_mul_right _ hv
    have : (u + 1) * L = u * L + L := by ring
    omega
  have hlt : A * (P * L) + C + u * L < M * (P * L) := by
    have : (A + 1) * (P * L) ≤ M * (P * L) := Nat.mul_le_mul_right _ hAlt
    have : (A + 1) * (P * L) = A * (P * L) + P * L := by ring
    omega
  rw [Nat.mod_eq_of_lt hlt]
  omega

/-- The field replaced reads the new value's low bits. -/
theorem fld_setFld_self (w : Word) {hi lo : Nat} (v : Nat) (h : lo ≤ hi) (h' : hi ≤ 31) :
    fld (setFld w hi lo v) hi lo = v % 2 ^ (hi + 1 - lo) := by
  have e : (2 : Nat) ^ (hi + 1) = 2 ^ (hi + 1 - lo) * 2 ^ lo := by rw [← pow_add]; congr 1; omega
  show (setFld w hi lo v).toNat >>> lo % _ = _
  rw [setFld_toNat w v h h', Nat.shiftRight_eq_div_pow, e]
  have hL : 0 < 2 ^ lo := Nat.two_pow_pos _
  have hC : w.toNat % 2 ^ lo < 2 ^ lo := Nat.mod_lt _ hL
  generalize w.toNat % 2 ^ lo = C at *
  have : w.toNat / (2 ^ (hi + 1 - lo) * 2 ^ lo) * (2 ^ (hi + 1 - lo) * 2 ^ lo) + v % 2 ^ (hi + 1 - lo) * 2 ^ lo + C =
      C + (v % 2 ^ (hi + 1 - lo) + w.toNat / (2 ^ (hi + 1 - lo) * 2 ^ lo) * 2 ^ (hi + 1 - lo)) * 2 ^ lo := by ring
  rw [this, Nat.add_mul_div_right _ _ hL, Nat.div_eq_of_lt hC, Nat.zero_add, Nat.add_mul_mod_self_right, Nat.mod_mod]

theorem testBit_setFld (w : Word) {hi lo : Nat} (v i : Nat) (h : lo ≤ hi) (h' : hi ≤ 31) :
    (setFld w hi lo v).toNat.testBit i =
      if i < lo then w.toNat.testBit i else if i ≤ hi then v.testBit (i - lo) else w.toNat.testBit i := by
  have e : (2 : Nat) ^ (hi + 1) = 2 ^ (hi + 1 - lo) * 2 ^ lo := by rw [← pow_add]; congr 1; omega
  rw [setFld_toNat w v h h']
  have hC : w.toNat % 2 ^ lo < 2 ^ lo := Nat.mod_lt _ (Nat.two_pow_pos _)
  have hv : v % 2 ^ (hi + 1 - lo) < 2 ^ (hi + 1 - lo) := Nat.mod_lt _ (Nat.two_pow_pos _)
  have r : w.toNat / 2 ^ (hi + 1) * 2 ^ (hi + 1) + v % 2 ^ (hi + 1 - lo) * 2 ^ lo + w.toNat % 2 ^ lo =
      2 ^ lo * (2 ^ (hi + 1 - lo) * (w.toNat / 2 ^ (hi + 1)) + v % 2 ^ (hi + 1 - lo)) + w.toNat % 2 ^ lo := by
    rw [e]; ring
  rw [r, Nat.testBit_two_pow_mul_add _ hC]
  by_cases h1 : i < lo
  · simp [h1, Nat.testBit_mod_two_pow]
  · rw [if_neg h1, if_neg h1, Nat.testBit_two_pow_mul_add _ hv]
    by_cases h2 : i ≤ hi
    · have : i - lo < hi + 1 - lo := by omega
      simp [h2, this, Nat.testBit_mod_two_pow]
    · have : ¬ i - lo < hi + 1 - lo := by omega
      rw [if_neg this, if_neg h2, Nat.testBit_div_two_pow]
      congr 1
      omega

theorem testBit_fld (w : Word) (hi lo i : Nat) :
    (fld w hi lo).testBit i = (decide (i < hi + 1 - lo) && w.toNat.testBit (i + lo)) := by
  unfold fld
  rw [Nat.testBit_mod_two_pow, Nat.testBit_shiftRight, Nat.add_comm lo i]

/-- A field that does not meet the field replaced reads as before. -/
theorem fld_setFld_disj (w : Word) {hi lo h2 l2 : Nat} (v : Nat) (h : lo ≤ hi) (h' : hi ≤ 31) (hd : h2 < lo ∨ hi < l2) :
    fld (setFld w hi lo v) h2 l2 = fld w h2 l2 := by
  apply Nat.eq_of_testBit_eq
  intro i
  rw [testBit_fld, testBit_fld, testBit_setFld w v _ h h']
  by_cases hi2 : i < h2 + 1 - l2
  · have : i + l2 < lo ∨ hi < i + l2 := by omega
    rcases this with c | c
    · simp [c]
    · rw [if_neg (by omega), if_neg (by omega)]
  · simp [hi2]

theorem bit_eq_testBit (w : Word) (b : Nat) : bit w b = w.toNat.testBit b := by
  have e : b + 1 - b = 1 := by omega
  unfold bit fld
  rw [e, Nat.testBit, Nat.shiftRight_eq_div_pow, Nat.pow_one, Nat.and_comm, Nat.and_one_is_mod]
  rcases Nat.mod_two_eq_zero_or_one (w.toNat / 2 ^ b) with h | h <;> simp [h]

theorem bit_setFld (w : Word) {hi lo : Nat} (v b : Nat) (h : lo ≤ hi) (h' : hi ≤ 31) :
    bit (setFld w hi lo v) b = if lo ≤ b ∧ b ≤ hi then v.testBit (b - lo) else bit w b := by
  rw [bit_eq_testBit, bit_eq_testBit, testBit_setFld w v b h h']
  by_cases h1 : b < lo
  · rw [if_pos h1, if_neg (by omega)]
  · by_cases h2 : b ≤ hi
    · rw [if_neg h1, if_pos h2, if_pos (by omega)]
    · rw [if_neg h1, if_neg h2, if_neg (by omega)]

/-- The bit written reads the value written. -/
theorem bit_setBit_self (w : Word) {b : Nat} (x : Bool) (h : b ≤ 31) : bit (setBit w b x) b = x := by
  unfold setBit
  rw [bit_setFld w _ b (Nat.le_refl b) h, if_pos ⟨Nat.le_refl b, Nat.le_refl b⟩, Nat.sub_self]
  cases x <;> rfl

/-- Every other bit reads as before. -/
theorem bit_setBit_ne (w : Word) {b c : Nat} (x : Bool) (h : b ≤ 31) (hc : c ≠ b) : bit (setBit w b x) c = bit w c := by
  unfold setBit
  rw [bit_setFld w _ c (Nat.le_refl b) h, if_neg (by omega)]

/-- A field that does not hold the bit written reads as before. -/
theorem fld_setBit (w : Word) {b hi lo : Nat} (x : Bool) (h : b ≤ 31) (hd : hi < b ∨ b < lo) :
    fld (setBit w b x) hi lo = fld w hi lo :=
  fld_setFld_disj w _ (Nat.le_refl b) h hd

end Sys2Proof.Machine
end

