-- ==== Sys2Proof/Laws/State.lean ====
section
/-!
SUPPORT. One lemma per field per named update of the Poermun: the fields that an update leaves alone, true by `rfl`.
-/

namespace Sys2Proof.Machine

@[simp] theorem Chip.wr_shadow (s : Chip) (a : Nat) (w : Word) : (s.wr a w).shadow = s.shadow := rfl
@[simp] theorem Chip.wr_tb (s : Chip) (a : Nat) (w : Word) : (s.wr a w).tb = s.tb := rfl
@[simp] theorem Chip.wr_lowCaps (s : Chip) (a : Nat) (w : Word) : (s.wr a w).lowCaps = s.lowCaps := rfl
@[simp] theorem Chip.wr_store (s : Chip) (a : Nat) (w : Word) : (s.wr a w).store = s.store := rfl
@[simp] theorem Chip.wr_eng (s : Chip) (a : Nat) (w : Word) : (s.wr a w).eng = s.eng := rfl
@[simp] theorem Chip.wr_ewn (s : Chip) (a : Nat) (w : Word) : (s.wr a w).ewn = s.ewn := rfl
@[simp] theorem Chip.wr_can (s : Chip) (a : Nat) (w : Word) : (s.wr a w).can = s.can := rfl
@[simp] theorem Chip.wr_fb (s : Chip) (a : Nat) (w : Word) : (s.wr a w).fb = s.fb := rfl
@[simp] theorem Chip.wr_adc (s : Chip) (a : Nat) (w : Word) : (s.wr a w).adc = s.adc := rfl
@[simp] theorem Chip.wr_recd (s : Chip) (a : Nat) (w : Word) : (s.wr a w).recd = s.recd := rfl
@[simp] theorem Chip.wr_mem (s : Chip) (a : Nat) (w : Word) : (s.wr a w).mem = s.mem := rfl
@[simp] theorem Chip.wr_hostMem (s : Chip) (a : Nat) (w : Word) : (s.wr a w).hostMem = s.hostMem := rfl
@[simp] theorem Chip.wr_fills (s : Chip) (a : Nat) (w : Word) : (s.wr a w).fills = s.fills := rfl
@[simp] theorem Chip.wr_isl (s : Chip) (a : Nat) (w : Word) : (s.wr a w).isl = s.isl := rfl
@[simp] theorem Chip.wr_dsp (s : Chip) (a : Nat) (w : Word) : (s.wr a w).dsp = s.dsp := rfl
@[simp] theorem Chip.wr_memu (s : Chip) (a : Nat) (w : Word) : (s.wr a w).memu = s.memu := rfl
@[simp] theorem Chip.wr_hst (s : Chip) (a : Nat) (w : Word) : (s.wr a w).hst = s.hst := rfl
@[simp] theorem Chip.wr_pwr (s : Chip) (a : Nat) (w : Word) : (s.wr a w).pwr = s.pwr := rfl
@[simp] theorem Chip.wr_boot (s : Chip) (a : Nat) (w : Word) : (s.wr a w).boot = s.boot := rfl
@[simp] theorem Chip.wr_patch (s : Chip) (a : Nat) (w : Word) : (s.wr a w).patch = s.patch := rfl
@[simp] theorem Chip.wr_books (s : Chip) (a : Nat) (w : Word) : (s.wr a w).books = s.books := rfl
@[simp] theorem Chip.wr_odo (s : Chip) (a : Nat) (w : Word) : (s.wr a w).odo = s.odo := rfl
@[simp] theorem Chip.wr_rst (s : Chip) (a : Nat) (w : Word) : (s.wr a w).rst = s.rst := rfl
@[simp] theorem Chip.wr_pins (s : Chip) (a : Nat) (w : Word) : (s.wr a w).pins = s.pins := rfl
@[simp] theorem Chip.wr_notes (s : Chip) (a : Nat) (w : Word) : (s.wr a w).notes = s.notes := rfl
@[simp] theorem Chip.wr_acc (s : Chip) (a : Nat) (w : Word) : (s.wr a w).acc = s.acc := rfl
@[simp] theorem Chip.wr_draws (s : Chip) (a : Nat) (w : Word) : (s.wr a w).draws = s.draws := rfl

@[simp] theorem Chip.wrF_shadow (s : Chip) (a hi lo v : Nat) : (s.wrF a hi lo v).shadow = s.shadow := rfl
@[simp] theorem Chip.wrF_tb (s : Chip) (a hi lo v : Nat) : (s.wrF a hi lo v).tb = s.tb := rfl
@[simp] theorem Chip.wrF_lowCaps (s : Chip) (a hi lo v : Nat) : (s.wrF a hi lo v).lowCaps = s.lowCaps := rfl
@[simp] theorem Chip.wrF_store (s : Chip) (a hi lo v : Nat) : (s.wrF a hi lo v).store = s.store := rfl
@[simp] theorem Chip.wrF_eng (s : Chip) (a hi lo v : Nat) : (s.wrF a hi lo v).eng = s.eng := rfl
@[simp] theorem Chip.wrF_ewn (s : Chip) (a hi lo v : Nat) : (s.wrF a hi lo v).ewn = s.ewn := rfl
@[simp] theorem Chip.wrF_can (s : Chip) (a hi lo v : Nat) : (s.wrF a hi lo v).can = s.can := rfl
@[simp] theorem Chip.wrF_fb (s : Chip) (a hi lo v : Nat) : (s.wrF a hi lo v).fb = s.fb := rfl
@[simp] theorem Chip.wrF_adc (s : Chip) (a hi lo v : Nat) : (s.wrF a hi lo v).adc = s.adc := rfl
@[simp] theorem Chip.wrF_recd (s : Chip) (a hi lo v : Nat) : (s.wrF a hi lo v).recd = s.recd := rfl
@[simp] theorem Chip.wrF_mem (s : Chip) (a hi lo v : Nat) : (s.wrF a hi lo v).mem = s.mem := rfl
@[simp] theorem Chip.wrF_hostMem (s : Chip) (a hi lo v : Nat) : (s.wrF a hi lo v).hostMem = s.hostMem := rfl
@[simp] theorem Chip.wrF_fills (s : Chip) (a hi lo v : Nat) : (s.wrF a hi lo v).fills = s.fills := rfl
@[simp] theorem Chip.wrF_isl (s : Chip) (a hi lo v : Nat) : (s.wrF a hi lo v).isl = s.isl := rfl
@[simp] theorem Chip.wrF_dsp (s : Chip) (a hi lo v : Nat) : (s.wrF a hi lo v).dsp = s.dsp := rfl
@[simp] theorem Chip.wrF_memu (s : Chip) (a hi lo v : Nat) : (s.wrF a hi lo v).memu = s.memu := rfl
@[simp] theorem Chip.wrF_hst (s : Chip) (a hi lo v : Nat) : (s.wrF a hi lo v).hst = s.hst := rfl
@[simp] theorem Chip.wrF_pwr (s : Chip) (a hi lo v : Nat) : (s.wrF a hi lo v).pwr = s.pwr := rfl
@[simp] theorem Chip.wrF_boot (s : Chip) (a hi lo v : Nat) : (s.wrF a hi lo v).boot = s.boot := rfl
@[simp] theorem Chip.wrF_patch (s : Chip) (a hi lo v : Nat) : (s.wrF a hi lo v).patch = s.patch := rfl
@[simp] theorem Chip.wrF_books (s : Chip) (a hi lo v : Nat) : (s.wrF a hi lo v).books = s.books := rfl
@[simp] theorem Chip.wrF_odo (s : Chip) (a hi lo v : Nat) : (s.wrF a hi lo v).odo = s.odo := rfl
@[simp] theorem Chip.wrF_rst (s : Chip) (a hi lo v : Nat) : (s.wrF a hi lo v).rst = s.rst := rfl
@[simp] theorem Chip.wrF_pins (s : Chip) (a hi lo v : Nat) : (s.wrF a hi lo v).pins = s.pins := rfl
@[simp] theorem Chip.wrF_notes (s : Chip) (a hi lo v : Nat) : (s.wrF a hi lo v).notes = s.notes := rfl
@[simp] theorem Chip.wrF_acc (s : Chip) (a hi lo v : Nat) : (s.wrF a hi lo v).acc = s.acc := rfl
@[simp] theorem Chip.wrF_draws (s : Chip) (a hi lo v : Nat) : (s.wrF a hi lo v).draws = s.draws := rfl

@[simp] theorem Chip.wrBit_shadow (s : Chip) (a b : Nat) (x : Bool) : (s.wrBit a b x).shadow = s.shadow := rfl
@[simp] theorem Chip.wrBit_tb (s : Chip) (a b : Nat) (x : Bool) : (s.wrBit a b x).tb = s.tb := rfl
@[simp] theorem Chip.wrBit_lowCaps (s : Chip) (a b : Nat) (x : Bool) : (s.wrBit a b x).lowCaps = s.lowCaps := rfl
@[simp] theorem Chip.wrBit_store (s : Chip) (a b : Nat) (x : Bool) : (s.wrBit a b x).store = s.store := rfl
@[simp] theorem Chip.wrBit_eng (s : Chip) (a b : Nat) (x : Bool) : (s.wrBit a b x).eng = s.eng := rfl
@[simp] theorem Chip.wrBit_ewn (s : Chip) (a b : Nat) (x : Bool) : (s.wrBit a b x).ewn = s.ewn := rfl
@[simp] theorem Chip.wrBit_can (s : Chip) (a b : Nat) (x : Bool) : (s.wrBit a b x).can = s.can := rfl
@[simp] theorem Chip.wrBit_fb (s : Chip) (a b : Nat) (x : Bool) : (s.wrBit a b x).fb = s.fb := rfl
@[simp] theorem Chip.wrBit_adc (s : Chip) (a b : Nat) (x : Bool) : (s.wrBit a b x).adc = s.adc := rfl
@[simp] theorem Chip.wrBit_recd (s : Chip) (a b : Nat) (x : Bool) : (s.wrBit a b x).recd = s.recd := rfl
@[simp] theorem Chip.wrBit_mem (s : Chip) (a b : Nat) (x : Bool) : (s.wrBit a b x).mem = s.mem := rfl
@[simp] theorem Chip.wrBit_hostMem (s : Chip) (a b : Nat) (x : Bool) : (s.wrBit a b x).hostMem = s.hostMem := rfl
@[simp] theorem Chip.wrBit_fills (s : Chip) (a b : Nat) (x : Bool) : (s.wrBit a b x).fills = s.fills := rfl
@[simp] theorem Chip.wrBit_isl (s : Chip) (a b : Nat) (x : Bool) : (s.wrBit a b x).isl = s.isl := rfl
@[simp] theorem Chip.wrBit_dsp (s : Chip) (a b : Nat) (x : Bool) : (s.wrBit a b x).dsp = s.dsp := rfl
@[simp] theorem Chip.wrBit_memu (s : Chip) (a b : Nat) (x : Bool) : (s.wrBit a b x).memu = s.memu := rfl
@[simp] theorem Chip.wrBit_hst (s : Chip) (a b : Nat) (x : Bool) : (s.wrBit a b x).hst = s.hst := rfl
@[simp] theorem Chip.wrBit_pwr (s : Chip) (a b : Nat) (x : Bool) : (s.wrBit a b x).pwr = s.pwr := rfl
@[simp] theorem Chip.wrBit_boot (s : Chip) (a b : Nat) (x : Bool) : (s.wrBit a b x).boot = s.boot := rfl
@[simp] theorem Chip.wrBit_patch (s : Chip) (a b : Nat) (x : Bool) : (s.wrBit a b x).patch = s.patch := rfl
@[simp] theorem Chip.wrBit_books (s : Chip) (a b : Nat) (x : Bool) : (s.wrBit a b x).books = s.books := rfl
@[simp] theorem Chip.wrBit_odo (s : Chip) (a b : Nat) (x : Bool) : (s.wrBit a b x).odo = s.odo := rfl
@[simp] theorem Chip.wrBit_rst (s : Chip) (a b : Nat) (x : Bool) : (s.wrBit a b x).rst = s.rst := rfl
@[simp] theorem Chip.wrBit_pins (s : Chip) (a b : Nat) (x : Bool) : (s.wrBit a b x).pins = s.pins := rfl
@[simp] theorem Chip.wrBit_notes (s : Chip) (a b : Nat) (x : Bool) : (s.wrBit a b x).notes = s.notes := rfl
@[simp] theorem Chip.wrBit_acc (s : Chip) (a b : Nat) (x : Bool) : (s.wrBit a b x).acc = s.acc := rfl
@[simp] theorem Chip.wrBit_draws (s : Chip) (a b : Nat) (x : Bool) : (s.wrBit a b x).draws = s.draws := rfl

@[simp] theorem Chip.bumpBy_shadow (s : Chip) (a n : Nat) : (s.bumpBy a n).shadow = s.shadow := rfl
@[simp] theorem Chip.bumpBy_tb (s : Chip) (a n : Nat) : (s.bumpBy a n).tb = s.tb := rfl
@[simp] theorem Chip.bumpBy_lowCaps (s : Chip) (a n : Nat) : (s.bumpBy a n).lowCaps = s.lowCaps := rfl
@[simp] theorem Chip.bumpBy_store (s : Chip) (a n : Nat) : (s.bumpBy a n).store = s.store := rfl
@[simp] theorem Chip.bumpBy_eng (s : Chip) (a n : Nat) : (s.bumpBy a n).eng = s.eng := rfl
@[simp] theorem Chip.bumpBy_ewn (s : Chip) (a n : Nat) : (s.bumpBy a n).ewn = s.ewn := rfl
@[simp] theorem Chip.bumpBy_can (s : Chip) (a n : Nat) : (s.bumpBy a n).can = s.can := rfl
@[simp] theorem Chip.bumpBy_fb (s : Chip) (a n : Nat) : (s.bumpBy a n).fb = s.fb := rfl
@[simp] theorem Chip.bumpBy_adc (s : Chip) (a n : Nat) : (s.bumpBy a n).adc = s.adc := rfl
@[simp] theorem Chip.bumpBy_recd (s : Chip) (a n : Nat) : (s.bumpBy a n).recd = s.recd := rfl
@[simp] theorem Chip.bumpBy_mem (s : Chip) (a n : Nat) : (s.bumpBy a n).mem = s.mem := rfl
@[simp] theorem Chip.bumpBy_hostMem (s : Chip) (a n : Nat) : (s.bumpBy a n).hostMem = s.hostMem := rfl
@[simp] theorem Chip.bumpBy_fills (s : Chip) (a n : Nat) : (s.bumpBy a n).fills = s.fills := rfl
@[simp] theorem Chip.bumpBy_isl (s : Chip) (a n : Nat) : (s.bumpBy a n).isl = s.isl := rfl
@[simp] theorem Chip.bumpBy_dsp (s : Chip) (a n : Nat) : (s.bumpBy a n).dsp = s.dsp := rfl
@[simp] theorem Chip.bumpBy_memu (s : Chip) (a n : Nat) : (s.bumpBy a n).memu = s.memu := rfl
@[simp] theorem Chip.bumpBy_hst (s : Chip) (a n : Nat) : (s.bumpBy a n).hst = s.hst := rfl
@[simp] theorem Chip.bumpBy_pwr (s : Chip) (a n : Nat) : (s.bumpBy a n).pwr = s.pwr := rfl
@[simp] theorem Chip.bumpBy_boot (s : Chip) (a n : Nat) : (s.bumpBy a n).boot = s.boot := rfl
@[simp] theorem Chip.bumpBy_patch (s : Chip) (a n : Nat) : (s.bumpBy a n).patch = s.patch := rfl
@[simp] theorem Chip.bumpBy_books (s : Chip) (a n : Nat) : (s.bumpBy a n).books = s.books := rfl
@[simp] theorem Chip.bumpBy_odo (s : Chip) (a n : Nat) : (s.bumpBy a n).odo = s.odo := rfl
@[simp] theorem Chip.bumpBy_rst (s : Chip) (a n : Nat) : (s.bumpBy a n).rst = s.rst := rfl
@[simp] theorem Chip.bumpBy_pins (s : Chip) (a n : Nat) : (s.bumpBy a n).pins = s.pins := rfl
@[simp] theorem Chip.bumpBy_notes (s : Chip) (a n : Nat) : (s.bumpBy a n).notes = s.notes := rfl
@[simp] theorem Chip.bumpBy_acc (s : Chip) (a n : Nat) : (s.bumpBy a n).acc = s.acc := rfl
@[simp] theorem Chip.bumpBy_draws (s : Chip) (a n : Nat) : (s.bumpBy a n).draws = s.draws := rfl

@[simp] theorem Chip.bump_shadow (s : Chip) (a : Nat) : (s.bump a).shadow = s.shadow := rfl
@[simp] theorem Chip.bump_tb (s : Chip) (a : Nat) : (s.bump a).tb = s.tb := rfl
@[simp] theorem Chip.bump_lowCaps (s : Chip) (a : Nat) : (s.bump a).lowCaps = s.lowCaps := rfl
@[simp] theorem Chip.bump_store (s : Chip) (a : Nat) : (s.bump a).store = s.store := rfl
@[simp] theorem Chip.bump_eng (s : Chip) (a : Nat) : (s.bump a).eng = s.eng := rfl
@[simp] theorem Chip.bump_ewn (s : Chip) (a : Nat) : (s.bump a).ewn = s.ewn := rfl
@[simp] theorem Chip.bump_can (s : Chip) (a : Nat) : (s.bump a).can = s.can := rfl
@[simp] theorem Chip.bump_fb (s : Chip) (a : Nat) : (s.bump a).fb = s.fb := rfl
@[simp] theorem Chip.bump_adc (s : Chip) (a : Nat) : (s.bump a).adc = s.adc := rfl
@[simp] theorem Chip.bump_recd (s : Chip) (a : Nat) : (s.bump a).recd = s.recd := rfl
@[simp] theorem Chip.bump_mem (s : Chip) (a : Nat) : (s.bump a).mem = s.mem := rfl
@[simp] theorem Chip.bump_hostMem (s : Chip) (a : Nat) : (s.bump a).hostMem = s.hostMem := rfl
@[simp] theorem Chip.bump_fills (s : Chip) (a : Nat) : (s.bump a).fills = s.fills := rfl
@[simp] theorem Chip.bump_isl (s : Chip) (a : Nat) : (s.bump a).isl = s.isl := rfl
@[simp] theorem Chip.bump_dsp (s : Chip) (a : Nat) : (s.bump a).dsp = s.dsp := rfl
@[simp] theorem Chip.bump_memu (s : Chip) (a : Nat) : (s.bump a).memu = s.memu := rfl
@[simp] theorem Chip.bump_hst (s : Chip) (a : Nat) : (s.bump a).hst = s.hst := rfl
@[simp] theorem Chip.bump_pwr (s : Chip) (a : Nat) : (s.bump a).pwr = s.pwr := rfl
@[simp] theorem Chip.bump_boot (s : Chip) (a : Nat) : (s.bump a).boot = s.boot := rfl
@[simp] theorem Chip.bump_patch (s : Chip) (a : Nat) : (s.bump a).patch = s.patch := rfl
@[simp] theorem Chip.bump_books (s : Chip) (a : Nat) : (s.bump a).books = s.books := rfl
@[simp] theorem Chip.bump_odo (s : Chip) (a : Nat) : (s.bump a).odo = s.odo := rfl
@[simp] theorem Chip.bump_rst (s : Chip) (a : Nat) : (s.bump a).rst = s.rst := rfl
@[simp] theorem Chip.bump_pins (s : Chip) (a : Nat) : (s.bump a).pins = s.pins := rfl
@[simp] theorem Chip.bump_notes (s : Chip) (a : Nat) : (s.bump a).notes = s.notes := rfl
@[simp] theorem Chip.bump_acc (s : Chip) (a : Nat) : (s.bump a).acc = s.acc := rfl
@[simp] theorem Chip.bump_draws (s : Chip) (a : Nat) : (s.bump a).draws = s.draws := rfl

@[simp] theorem Chip.raise_regs (s : Chip) (n : Nat) : (s.raise n).regs = s.regs := rfl
@[simp] theorem Chip.raise_shadow (s : Chip) (n : Nat) : (s.raise n).shadow = s.shadow := rfl
@[simp] theorem Chip.raise_tb (s : Chip) (n : Nat) : (s.raise n).tb = s.tb := rfl
@[simp] theorem Chip.raise_lowCaps (s : Chip) (n : Nat) : (s.raise n).lowCaps = s.lowCaps := rfl
@[simp] theorem Chip.raise_store (s : Chip) (n : Nat) : (s.raise n).store = s.store := rfl
@[simp] theorem Chip.raise_eng (s : Chip) (n : Nat) : (s.raise n).eng = s.eng := rfl
@[simp] theorem Chip.raise_ewn (s : Chip) (n : Nat) : (s.raise n).ewn = s.ewn := rfl
@[simp] theorem Chip.raise_can (s : Chip) (n : Nat) : (s.raise n).can = s.can := rfl
@[simp] theorem Chip.raise_fb (s : Chip) (n : Nat) : (s.raise n).fb = s.fb := rfl
@[simp] theorem Chip.raise_adc (s : Chip) (n : Nat) : (s.raise n).adc = s.adc := rfl
@[simp] theorem Chip.raise_recd (s : Chip) (n : Nat) : (s.raise n).recd = s.recd := rfl
@[simp] theorem Chip.raise_mem (s : Chip) (n : Nat) : (s.raise n).mem = s.mem := rfl
@[simp] theorem Chip.raise_hostMem (s : Chip) (n : Nat) : (s.raise n).hostMem = s.hostMem := rfl
@[simp] theorem Chip.raise_fills (s : Chip) (n : Nat) : (s.raise n).fills = s.fills := rfl
@[simp] theorem Chip.raise_isl (s : Chip) (n : Nat) : (s.raise n).isl = s.isl := rfl
@[simp] theorem Chip.raise_dsp (s : Chip) (n : Nat) : (s.raise n).dsp = s.dsp := rfl
@[simp] theorem Chip.raise_memu (s : Chip) (n : Nat) : (s.raise n).memu = s.memu := rfl
@[simp] theorem Chip.raise_hst (s : Chip) (n : Nat) : (s.raise n).hst = s.hst := rfl
@[simp] theorem Chip.raise_pwr (s : Chip) (n : Nat) : (s.raise n).pwr = s.pwr := rfl
@[simp] theorem Chip.raise_boot (s : Chip) (n : Nat) : (s.raise n).boot = s.boot := rfl
@[simp] theorem Chip.raise_patch (s : Chip) (n : Nat) : (s.raise n).patch = s.patch := rfl
@[simp] theorem Chip.raise_books (s : Chip) (n : Nat) : (s.raise n).books = s.books := rfl
@[simp] theorem Chip.raise_odo (s : Chip) (n : Nat) : (s.raise n).odo = s.odo := rfl
@[simp] theorem Chip.raise_rst (s : Chip) (n : Nat) : (s.raise n).rst = s.rst := rfl
@[simp] theorem Chip.raise_pins (s : Chip) (n : Nat) : (s.raise n).pins = s.pins := rfl
@[simp] theorem Chip.raise_acc (s : Chip) (n : Nat) : (s.raise n).acc = s.acc := rfl
@[simp] theorem Chip.raise_draws (s : Chip) (n : Nat) : (s.raise n).draws = s.draws := rfl

@[simp] theorem Chip.atPhase_regs (s : Chip) (p : Nat) : (s.atPhase p).regs = s.regs := rfl
@[simp] theorem Chip.atPhase_shadow (s : Chip) (p : Nat) : (s.atPhase p).shadow = s.shadow := rfl
@[simp] theorem Chip.atPhase_lowCaps (s : Chip) (p : Nat) : (s.atPhase p).lowCaps = s.lowCaps := rfl
@[simp] theorem Chip.atPhase_store (s : Chip) (p : Nat) : (s.atPhase p).store = s.store := rfl
@[simp] theorem Chip.atPhase_eng (s : Chip) (p : Nat) : (s.atPhase p).eng = s.eng := rfl
@[simp] theorem Chip.atPhase_ewn (s : Chip) (p : Nat) : (s.atPhase p).ewn = s.ewn := rfl
@[simp] theorem Chip.atPhase_can (s : Chip) (p : Nat) : (s.atPhase p).can = s.can := rfl
@[simp] theorem Chip.atPhase_fb (s : Chip) (p : Nat) : (s.atPhase p).fb = s.fb := rfl
@[simp] theorem Chip.atPhase_adc (s : Chip) (p : Nat) : (s.atPhase p).adc = s.adc := rfl
@[simp] theorem Chip.atPhase_recd (s : Chip) (p : Nat) : (s.atPhase p).recd = s.recd := rfl
@[simp] theorem Chip.atPhase_mem (s : Chip) (p : Nat) : (s.atPhase p).mem = s.mem := rfl
@[simp] theorem Chip.atPhase_hostMem (s : Chip) (p : Nat) : (s.atPhase p).hostMem = s.hostMem := rfl
@[simp] theorem Chip.atPhase_fills (s : Chip) (p : Nat) : (s.atPhase p).fills = s.fills := rfl
@[simp] theorem Chip.atPhase_isl (s : Chip) (p : Nat) : (s.atPhase p).isl = s.isl := rfl
@[simp] theorem Chip.atPhase_dsp (s : Chip) (p : Nat) : (s.atPhase p).dsp = s.dsp := rfl
@[simp] theorem Chip.atPhase_memu (s : Chip) (p : Nat) : (s.atPhase p).memu = s.memu := rfl
@[simp] theorem Chip.atPhase_hst (s : Chip) (p : Nat) : (s.atPhase p).hst = s.hst := rfl
@[simp] theorem Chip.atPhase_pwr (s : Chip) (p : Nat) : (s.atPhase p).pwr = s.pwr := rfl
@[simp] theorem Chip.atPhase_boot (s : Chip) (p : Nat) : (s.atPhase p).boot = s.boot := rfl
@[simp] theorem Chip.atPhase_patch (s : Chip) (p : Nat) : (s.atPhase p).patch = s.patch := rfl
@[simp] theorem Chip.atPhase_books (s : Chip) (p : Nat) : (s.atPhase p).books = s.books := rfl
@[simp] theorem Chip.atPhase_odo (s : Chip) (p : Nat) : (s.atPhase p).odo = s.odo := rfl
@[simp] theorem Chip.atPhase_rst (s : Chip) (p : Nat) : (s.atPhase p).rst = s.rst := rfl
@[simp] theorem Chip.atPhase_pins (s : Chip) (p : Nat) : (s.atPhase p).pins = s.pins := rfl
@[simp] theorem Chip.atPhase_notes (s : Chip) (p : Nat) : (s.atPhase p).notes = s.notes := rfl
@[simp] theorem Chip.atPhase_acc (s : Chip) (p : Nat) : (s.atPhase p).acc = s.acc := rfl
@[simp] theorem Chip.atPhase_draws (s : Chip) (p : Nat) : (s.atPhase p).draws = s.draws := rfl

@[simp] theorem Chip.draw_regs (s : Chip) : (s.draw).regs = s.regs := rfl
@[simp] theorem Chip.draw_shadow (s : Chip) : (s.draw).shadow = s.shadow := rfl
@[simp] theorem Chip.draw_tb (s : Chip) : (s.draw).tb = s.tb := rfl
@[simp] theorem Chip.draw_lowCaps (s : Chip) : (s.draw).lowCaps = s.lowCaps := rfl
@[simp] theorem Chip.draw_store (s : Chip) : (s.draw).store = s.store := rfl
@[simp] theorem Chip.draw_eng (s : Chip) : (s.draw).eng = s.eng := rfl
@[simp] theorem Chip.draw_ewn (s : Chip) : (s.draw).ewn = s.ewn := rfl
@[simp] theorem Chip.draw_can (s : Chip) : (s.draw).can = s.can := rfl
@[simp] theorem Chip.draw_fb (s : Chip) : (s.draw).fb = s.fb := rfl
@[simp] theorem Chip.draw_adc (s : Chip) : (s.draw).adc = s.adc := rfl
@[simp] theorem Chip.draw_recd (s : Chip) : (s.draw).recd = s.recd := rfl
@[simp] theorem Chip.draw_mem (s : Chip) : (s.draw).mem = s.mem := rfl
@[simp] theorem Chip.draw_hostMem (s : Chip) : (s.draw).hostMem = s.hostMem := rfl
@[simp] theorem Chip.draw_fills (s : Chip) : (s.draw).fills = s.fills := rfl
@[simp] theorem Chip.draw_isl (s : Chip) : (s.draw).isl = s.isl := rfl
@[simp] theorem Chip.draw_dsp (s : Chip) : (s.draw).dsp = s.dsp := rfl
@[simp] theorem Chip.draw_memu (s : Chip) : (s.draw).memu = s.memu := rfl
@[simp] theorem Chip.draw_hst (s : Chip) : (s.draw).hst = s.hst := rfl
@[simp] theorem Chip.draw_pwr (s : Chip) : (s.draw).pwr = s.pwr := rfl
@[simp] theorem Chip.draw_boot (s : Chip) : (s.draw).boot = s.boot := rfl
@[simp] theorem Chip.draw_patch (s : Chip) : (s.draw).patch = s.patch := rfl
@[simp] theorem Chip.draw_books (s : Chip) : (s.draw).books = s.books := rfl
@[simp] theorem Chip.draw_odo (s : Chip) : (s.draw).odo = s.odo := rfl
@[simp] theorem Chip.draw_rst (s : Chip) : (s.draw).rst = s.rst := rfl
@[simp] theorem Chip.draw_pins (s : Chip) : (s.draw).pins = s.pins := rfl
@[simp] theorem Chip.draw_notes (s : Chip) : (s.draw).notes = s.notes := rfl

@[simp] theorem Chip.led_regs (s : Chip) (l j n : Nat) : (s.led l j n).regs = s.regs := rfl
@[simp] theorem Chip.led_shadow (s : Chip) (l j n : Nat) : (s.led l j n).shadow = s.shadow := rfl
@[simp] theorem Chip.led_tb (s : Chip) (l j n : Nat) : (s.led l j n).tb = s.tb := rfl
@[simp] theorem Chip.led_lowCaps (s : Chip) (l j n : Nat) : (s.led l j n).lowCaps = s.lowCaps := rfl
@[simp] theorem Chip.led_store (s : Chip) (l j n : Nat) : (s.led l j n).store = s.store := rfl
@[simp] theorem Chip.led_eng (s : Chip) (l j n : Nat) : (s.led l j n).eng = s.eng := rfl
@[simp] theorem Chip.led_ewn (s : Chip) (l j n : Nat) : (s.led l j n).ewn = s.ewn := rfl
@[simp] theorem Chip.led_can (s : Chip) (l j n : Nat) : (s.led l j n).can = s.can := rfl
@[simp] theorem Chip.led_fb (s : Chip) (l j n : Nat) : (s.led l j n).fb = s.fb := rfl
@[simp] theorem Chip.led_adc (s : Chip) (l j n : Nat) : (s.led l j n).adc = s.adc := rfl
@[simp] theorem Chip.led_recd (s : Chip) (l j n : Nat) : (s.led l j n).recd = s.recd := rfl
@[simp] theorem Chip.led_mem (s : Chip) (l j n : Nat) : (s.led l j n).mem = s.mem := rfl
@[simp] theorem Chip.led_hostMem (s : Chip) (l j n : Nat) : (s.led l j n).hostMem = s.hostMem := rfl
@[simp] theorem Chip.led_fills (s : Chip) (l j n : Nat) : (s.led l j n).fills = s.fills := rfl
@[simp] theorem Chip.led_isl (s : Chip) (l j n : Nat) : (s.led l j n).isl = s.isl := rfl
@[simp] theorem Chip.led_dsp (s : Chip) (l j n : Nat) : (s.led l j n).dsp = s.dsp := rfl
@[simp] theorem Chip.led_memu (s : Chip) (l j n : Nat) : (s.led l j n).memu = s.memu := rfl
@[simp] theorem Chip.led_hst (s : Chip) (l j n : Nat) : (s.led l j n).hst = s.hst := rfl
@[simp] theorem Chip.led_pwr (s : Chip) (l j n : Nat) : (s.led l j n).pwr = s.pwr := rfl
@[simp] theorem Chip.led_boot (s : Chip) (l j n : Nat) : (s.led l j n).boot = s.boot := rfl
@[simp] theorem Chip.led_patch (s : Chip) (l j n : Nat) : (s.led l j n).patch = s.patch := rfl
@[simp] theorem Chip.led_odo (s : Chip) (l j n : Nat) : (s.led l j n).odo = s.odo := rfl
@[simp] theorem Chip.led_rst (s : Chip) (l j n : Nat) : (s.led l j n).rst = s.rst := rfl
@[simp] theorem Chip.led_pins (s : Chip) (l j n : Nat) : (s.led l j n).pins = s.pins := rfl
@[simp] theorem Chip.led_notes (s : Chip) (l j n : Nat) : (s.led l j n).notes = s.notes := rfl
@[simp] theorem Chip.led_acc (s : Chip) (l j n : Nat) : (s.led l j n).acc = s.acc := rfl
@[simp] theorem Chip.led_draws (s : Chip) (l j n : Nat) : (s.led l j n).draws = s.draws := rfl

@[simp] theorem Chip.ledCan_regs (s : Chip) (ch j n : Nat) : (s.ledCan ch j n).regs = s.regs := rfl
@[simp] theorem Chip.ledCan_shadow (s : Chip) (ch j n : Nat) : (s.ledCan ch j n).shadow = s.shadow := rfl
@[simp] theorem Chip.ledCan_tb (s : Chip) (ch j n : Nat) : (s.ledCan ch j n).tb = s.tb := rfl
@[simp] theorem Chip.ledCan_lowCaps (s : Chip) (ch j n : Nat) : (s.ledCan ch j n).lowCaps = s.lowCaps := rfl
@[simp] theorem Chip.ledCan_store (s : Chip) (ch j n : Nat) : (s.ledCan ch j n).store = s.store := rfl
@[simp] theorem Chip.ledCan_eng (s : Chip) (ch j n : Nat) : (s.ledCan ch j n).eng = s.eng := rfl
@[simp] theorem Chip.ledCan_ewn (s : Chip) (ch j n : Nat) : (s.ledCan ch j n).ewn = s.ewn := rfl
@[simp] theorem Chip.ledCan_can (s : Chip) (ch j n : Nat) : (s.ledCan ch j n).can = s.can := rfl
@[simp] theorem Chip.ledCan_fb (s : Chip) (ch j n : Nat) : (s.ledCan ch j n).fb = s.fb := rfl
@[simp] theorem Chip.ledCan_adc (s : Chip) (ch j n : Nat) : (s.ledCan ch j n).adc = s.adc := rfl
@[simp] theorem Chip.ledCan_recd (s : Chip) (ch j n : Nat) : (s.ledCan ch j n).recd = s.recd := rfl
@[simp] theorem Chip.ledCan_mem (s : Chip) (ch j n : Nat) : (s.ledCan ch j n).mem = s.mem := rfl
@[simp] theorem Chip.ledCan_hostMem (s : Chip) (ch j n : Nat) : (s.ledCan ch j n).hostMem = s.hostMem := rfl
@[simp] theorem Chip.ledCan_fills (s : Chip) (ch j n : Nat) : (s.ledCan ch j n).fills = s.fills := rfl
@[simp] theorem Chip.ledCan_isl (s : Chip) (ch j n : Nat) : (s.ledCan ch j n).isl = s.isl := rfl
@[simp] theorem Chip.ledCan_dsp (s : Chip) (ch j n : Nat) : (s.ledCan ch j n).dsp = s.dsp := rfl
@[simp] theorem Chip.ledCan_memu (s : Chip) (ch j n : Nat) : (s.ledCan ch j n).memu = s.memu := rfl
@[simp] theorem Chip.ledCan_hst (s : Chip) (ch j n : Nat) : (s.ledCan ch j n).hst = s.hst := rfl
@[simp] theorem Chip.ledCan_pwr (s : Chip) (ch j n : Nat) : (s.ledCan ch j n).pwr = s.pwr := rfl
@[simp] theorem Chip.ledCan_boot (s : Chip) (ch j n : Nat) : (s.ledCan ch j n).boot = s.boot := rfl
@[simp] theorem Chip.ledCan_patch (s : Chip) (ch j n : Nat) : (s.ledCan ch j n).patch = s.patch := rfl
@[simp] theorem Chip.ledCan_odo (s : Chip) (ch j n : Nat) : (s.ledCan ch j n).odo = s.odo := rfl
@[simp] theorem Chip.ledCan_rst (s : Chip) (ch j n : Nat) : (s.ledCan ch j n).rst = s.rst := rfl
@[simp] theorem Chip.ledCan_pins (s : Chip) (ch j n : Nat) : (s.ledCan ch j n).pins = s.pins := rfl
@[simp] theorem Chip.ledCan_notes (s : Chip) (ch j n : Nat) : (s.ledCan ch j n).notes = s.notes := rfl
@[simp] theorem Chip.ledCan_acc (s : Chip) (ch j n : Nat) : (s.ledCan ch j n).acc = s.acc := rfl
@[simp] theorem Chip.ledCan_draws (s : Chip) (ch j n : Nat) : (s.ledCan ch j n).draws = s.draws := rfl

@[simp] theorem Chip.ledSub_regs (s : Chip) (l j n : Nat) : (s.ledSub l j n).regs = s.regs := rfl
@[simp] theorem Chip.ledSub_shadow (s : Chip) (l j n : Nat) : (s.ledSub l j n).shadow = s.shadow := rfl
@[simp] theorem Chip.ledSub_tb (s : Chip) (l j n : Nat) : (s.ledSub l j n).tb = s.tb := rfl
@[simp] theorem Chip.ledSub_lowCaps (s : Chip) (l j n : Nat) : (s.ledSub l j n).lowCaps = s.lowCaps := rfl
@[simp] theorem Chip.ledSub_store (s : Chip) (l j n : Nat) : (s.ledSub l j n).store = s.store := rfl
@[simp] theorem Chip.ledSub_eng (s : Chip) (l j n : Nat) : (s.ledSub l j n).eng = s.eng := rfl
@[simp] theorem Chip.ledSub_ewn (s : Chip) (l j n : Nat) : (s.ledSub l j n).ewn = s.ewn := rfl
@[simp] theorem Chip.ledSub_can (s : Chip) (l j n : Nat) : (s.ledSub l j n).can = s.can := rfl
@[simp] theorem Chip.ledSub_fb (s : Chip) (l j n : Nat) : (s.ledSub l j n).fb = s.fb := rfl
@[simp] theorem Chip.ledSub_adc (s : Chip) (l j n : Nat) : (s.ledSub l j n).adc = s.adc := rfl
@[simp] theorem Chip.ledSub_recd (s : Chip) (l j n : Nat) : (s.ledSub l j n).recd = s.recd := rfl
@[simp] theorem Chip.ledSub_mem (s : Chip) (l j n : Nat) : (s.ledSub l j n).mem = s.mem := rfl
@[simp] theorem Chip.ledSub_hostMem (s : Chip) (l j n : Nat) : (s.ledSub l j n).hostMem = s.hostMem := rfl
@[simp] theorem Chip.ledSub_fills (s : Chip) (l j n : Nat) : (s.ledSub l j n).fills = s.fills := rfl
@[simp] theorem Chip.ledSub_isl (s : Chip) (l j n : Nat) : (s.ledSub l j n).isl = s.isl := rfl
@[simp] theorem Chip.ledSub_dsp (s : Chip) (l j n : Nat) : (s.ledSub l j n).dsp = s.dsp := rfl
@[simp] theorem Chip.ledSub_memu (s : Chip) (l j n : Nat) : (s.ledSub l j n).memu = s.memu := rfl
@[simp] theorem Chip.ledSub_hst (s : Chip) (l j n : Nat) : (s.ledSub l j n).hst = s.hst := rfl
@[simp] theorem Chip.ledSub_pwr (s : Chip) (l j n : Nat) : (s.ledSub l j n).pwr = s.pwr := rfl
@[simp] theorem Chip.ledSub_boot (s : Chip) (l j n : Nat) : (s.ledSub l j n).boot = s.boot := rfl
@[simp] theorem Chip.ledSub_patch (s : Chip) (l j n : Nat) : (s.ledSub l j n).patch = s.patch := rfl
@[simp] theorem Chip.ledSub_odo (s : Chip) (l j n : Nat) : (s.ledSub l j n).odo = s.odo := rfl
@[simp] theorem Chip.ledSub_rst (s : Chip) (l j n : Nat) : (s.ledSub l j n).rst = s.rst := rfl
@[simp] theorem Chip.ledSub_pins (s : Chip) (l j n : Nat) : (s.ledSub l j n).pins = s.pins := rfl
@[simp] theorem Chip.ledSub_notes (s : Chip) (l j n : Nat) : (s.ledSub l j n).notes = s.notes := rfl
@[simp] theorem Chip.ledSub_acc (s : Chip) (l j n : Nat) : (s.ledSub l j n).acc = s.acc := rfl
@[simp] theorem Chip.ledSub_draws (s : Chip) (l j n : Nat) : (s.ledSub l j n).draws = s.draws := rfl

@[simp] theorem Chip.signal_regs (s : Chip) (v : Nat) : (s.signal v).regs = s.regs := rfl
@[simp] theorem Chip.signal_shadow (s : Chip) (v : Nat) : (s.signal v).shadow = s.shadow := rfl
@[simp] theorem Chip.signal_tb (s : Chip) (v : Nat) : (s.signal v).tb = s.tb := rfl
@[simp] theorem Chip.signal_lowCaps (s : Chip) (v : Nat) : (s.signal v).lowCaps = s.lowCaps := rfl
@[simp] theorem Chip.signal_store (s : Chip) (v : Nat) : (s.signal v).store = s.store := rfl
@[simp] theorem Chip.signal_eng (s : Chip) (v : Nat) : (s.signal v).eng = s.eng := rfl
@[simp] theorem Chip.signal_ewn (s : Chip) (v : Nat) : (s.signal v).ewn = s.ewn := rfl
@[simp] theorem Chip.signal_can (s : Chip) (v : Nat) : (s.signal v).can = s.can := rfl
@[simp] theorem Chip.signal_fb (s : Chip) (v : Nat) : (s.signal v).fb = s.fb := rfl
@[simp] theorem Chip.signal_adc (s : Chip) (v : Nat) : (s.signal v).adc = s.adc := rfl
@[simp] theorem Chip.signal_recd (s : Chip) (v : Nat) : (s.signal v).recd = s.recd := rfl
@[simp] theorem Chip.signal_mem (s : Chip) (v : Nat) : (s.signal v).mem = s.mem := rfl
@[simp] theorem Chip.signal_hostMem (s : Chip) (v : Nat) : (s.signal v).hostMem = s.hostMem := rfl
@[simp] theorem Chip.signal_fills (s : Chip) (v : Nat) : (s.signal v).fills = s.fills := rfl
@[simp] theorem Chip.signal_isl (s : Chip) (v : Nat) : (s.signal v).isl = s.isl := rfl
@[simp] theorem Chip.signal_dsp (s : Chip) (v : Nat) : (s.signal v).dsp = s.dsp := rfl
@[simp] theorem Chip.signal_memu (s : Chip) (v : Nat) : (s.signal v).memu = s.memu := rfl
@[simp] theorem Chip.signal_hst (s : Chip) (v : Nat) : (s.signal v).hst = s.hst := rfl
@[simp] theorem Chip.signal_pwr (s : Chip) (v : Nat) : (s.signal v).pwr = s.pwr := rfl
@[simp] theorem Chip.signal_boot (s : Chip) (v : Nat) : (s.signal v).boot = s.boot := rfl
@[simp] theorem Chip.signal_patch (s : Chip) (v : Nat) : (s.signal v).patch = s.patch := rfl
@[simp] theorem Chip.signal_odo (s : Chip) (v : Nat) : (s.signal v).odo = s.odo := rfl
@[simp] theorem Chip.signal_rst (s : Chip) (v : Nat) : (s.signal v).rst = s.rst := rfl
@[simp] theorem Chip.signal_pins (s : Chip) (v : Nat) : (s.signal v).pins = s.pins := rfl
@[simp] theorem Chip.signal_notes (s : Chip) (v : Nat) : (s.signal v).notes = s.notes := rfl
@[simp] theorem Chip.signal_acc (s : Chip) (v : Nat) : (s.signal v).acc = s.acc := rfl
@[simp] theorem Chip.signal_draws (s : Chip) (v : Nat) : (s.signal v).draws = s.draws := rfl

@[simp] theorem Chip.putBytes_regs (s : Chip) (a : Nat) (bs : List Byte) : (s.putBytes a bs).regs = s.regs := rfl
@[simp] theorem Chip.putBytes_shadow (s : Chip) (a : Nat) (bs : List Byte) : (s.putBytes a bs).shadow = s.shadow := rfl
@[simp] theorem Chip.putBytes_tb (s : Chip) (a : Nat) (bs : List Byte) : (s.putBytes a bs).tb = s.tb := rfl
@[simp] theorem Chip.putBytes_lowCaps (s : Chip) (a : Nat) (bs : List Byte) : (s.putBytes a bs).lowCaps = s.lowCaps := rfl
@[simp] theorem Chip.putBytes_store (s : Chip) (a : Nat) (bs : List Byte) : (s.putBytes a bs).store = s.store := rfl
@[simp] theorem Chip.putBytes_eng (s : Chip) (a : Nat) (bs : List Byte) : (s.putBytes a bs).eng = s.eng := rfl
@[simp] theorem Chip.putBytes_ewn (s : Chip) (a : Nat) (bs : List Byte) : (s.putBytes a bs).ewn = s.ewn := rfl
@[simp] theorem Chip.putBytes_can (s : Chip) (a : Nat) (bs : List Byte) : (s.putBytes a bs).can = s.can := rfl
@[simp] theorem Chip.putBytes_fb (s : Chip) (a : Nat) (bs : List Byte) : (s.putBytes a bs).fb = s.fb := rfl
@[simp] theorem Chip.putBytes_adc (s : Chip) (a : Nat) (bs : List Byte) : (s.putBytes a bs).adc = s.adc := rfl
@[simp] theorem Chip.putBytes_recd (s : Chip) (a : Nat) (bs : List Byte) : (s.putBytes a bs).recd = s.recd := rfl
@[simp] theorem Chip.putBytes_hostMem (s : Chip) (a : Nat) (bs : List Byte) : (s.putBytes a bs).hostMem = s.hostMem := rfl
@[simp] theorem Chip.putBytes_fills (s : Chip) (a : Nat) (bs : List Byte) : (s.putBytes a bs).fills = s.fills := rfl
@[simp] theorem Chip.putBytes_isl (s : Chip) (a : Nat) (bs : List Byte) : (s.putBytes a bs).isl = s.isl := rfl
@[simp] theorem Chip.putBytes_dsp (s : Chip) (a : Nat) (bs : List Byte) : (s.putBytes a bs).dsp = s.dsp := rfl
@[simp] theorem Chip.putBytes_hst (s : Chip) (a : Nat) (bs : List Byte) : (s.putBytes a bs).hst = s.hst := rfl
@[simp] theorem Chip.putBytes_pwr (s : Chip) (a : Nat) (bs : List Byte) : (s.putBytes a bs).pwr = s.pwr := rfl
@[simp] theorem Chip.putBytes_boot (s : Chip) (a : Nat) (bs : List Byte) : (s.putBytes a bs).boot = s.boot := rfl
@[simp] theorem Chip.putBytes_patch (s : Chip) (a : Nat) (bs : List Byte) : (s.putBytes a bs).patch = s.patch := rfl
@[simp] theorem Chip.putBytes_books (s : Chip) (a : Nat) (bs : List Byte) : (s.putBytes a bs).books = s.books := rfl
@[simp] theorem Chip.putBytes_odo (s : Chip) (a : Nat) (bs : List Byte) : (s.putBytes a bs).odo = s.odo := rfl
@[simp] theorem Chip.putBytes_rst (s : Chip) (a : Nat) (bs : List Byte) : (s.putBytes a bs).rst = s.rst := rfl
@[simp] theorem Chip.putBytes_pins (s : Chip) (a : Nat) (bs : List Byte) : (s.putBytes a bs).pins = s.pins := rfl
@[simp] theorem Chip.putBytes_notes (s : Chip) (a : Nat) (bs : List Byte) : (s.putBytes a bs).notes = s.notes := rfl
@[simp] theorem Chip.putBytes_acc (s : Chip) (a : Nat) (bs : List Byte) : (s.putBytes a bs).acc = s.acc := rfl
@[simp] theorem Chip.putBytes_draws (s : Chip) (a : Nat) (bs : List Byte) : (s.putBytes a bs).draws = s.draws := rfl

@[simp] theorem Chip.putHost_regs (s : Chip) (a : Nat) (bs : List Byte) : (s.putHost a bs).regs = s.regs := rfl
@[simp] theorem Chip.putHost_shadow (s : Chip) (a : Nat) (bs : List Byte) : (s.putHost a bs).shadow = s.shadow := rfl
@[simp] theorem Chip.putHost_tb (s : Chip) (a : Nat) (bs : List Byte) : (s.putHost a bs).tb = s.tb := rfl
@[simp] theorem Chip.putHost_lowCaps (s : Chip) (a : Nat) (bs : List Byte) : (s.putHost a bs).lowCaps = s.lowCaps := rfl
@[simp] theorem Chip.putHost_store (s : Chip) (a : Nat) (bs : List Byte) : (s.putHost a bs).store = s.store := rfl
@[simp] theorem Chip.putHost_eng (s : Chip) (a : Nat) (bs : List Byte) : (s.putHost a bs).eng = s.eng := rfl
@[simp] theorem Chip.putHost_ewn (s : Chip) (a : Nat) (bs : List Byte) : (s.putHost a bs).ewn = s.ewn := rfl
@[simp] theorem Chip.putHost_can (s : Chip) (a : Nat) (bs : List Byte) : (s.putHost a bs).can = s.can := rfl
@[simp] theorem Chip.putHost_fb (s : Chip) (a : Nat) (bs : List Byte) : (s.putHost a bs).fb = s.fb := rfl
@[simp] theorem Chip.putHost_adc (s : Chip) (a : Nat) (bs : List Byte) : (s.putHost a bs).adc = s.adc := rfl
@[simp] theorem Chip.putHost_recd (s : Chip) (a : Nat) (bs : List Byte) : (s.putHost a bs).recd = s.recd := rfl
@[simp] theorem Chip.putHost_mem (s : Chip) (a : Nat) (bs : List Byte) : (s.putHost a bs).mem = s.mem := rfl
@[simp] theorem Chip.putHost_fills (s : Chip) (a : Nat) (bs : List Byte) : (s.putHost a bs).fills = s.fills := rfl
@[simp] theorem Chip.putHost_isl (s : Chip) (a : Nat) (bs : List Byte) : (s.putHost a bs).isl = s.isl := rfl
@[simp] theorem Chip.putHost_dsp (s : Chip) (a : Nat) (bs : List Byte) : (s.putHost a bs).dsp = s.dsp := rfl
@[simp] theorem Chip.putHost_memu (s : Chip) (a : Nat) (bs : List Byte) : (s.putHost a bs).memu = s.memu := rfl
@[simp] theorem Chip.putHost_hst (s : Chip) (a : Nat) (bs : List Byte) : (s.putHost a bs).hst = s.hst := rfl
@[simp] theorem Chip.putHost_pwr (s : Chip) (a : Nat) (bs : List Byte) : (s.putHost a bs).pwr = s.pwr := rfl
@[simp] theorem Chip.putHost_boot (s : Chip) (a : Nat) (bs : List Byte) : (s.putHost a bs).boot = s.boot := rfl
@[simp] theorem Chip.putHost_patch (s : Chip) (a : Nat) (bs : List Byte) : (s.putHost a bs).patch = s.patch := rfl
@[simp] theorem Chip.putHost_books (s : Chip) (a : Nat) (bs : List Byte) : (s.putHost a bs).books = s.books := rfl
@[simp] theorem Chip.putHost_odo (s : Chip) (a : Nat) (bs : List Byte) : (s.putHost a bs).odo = s.odo := rfl
@[simp] theorem Chip.putHost_rst (s : Chip) (a : Nat) (bs : List Byte) : (s.putHost a bs).rst = s.rst := rfl
@[simp] theorem Chip.putHost_pins (s : Chip) (a : Nat) (bs : List Byte) : (s.putHost a bs).pins = s.pins := rfl
@[simp] theorem Chip.putHost_notes (s : Chip) (a : Nat) (bs : List Byte) : (s.putHost a bs).notes = s.notes := rfl
@[simp] theorem Chip.putHost_acc (s : Chip) (a : Nat) (bs : List Byte) : (s.putHost a bs).acc = s.acc := rfl
@[simp] theorem Chip.putHost_draws (s : Chip) (a : Nat) (bs : List Byte) : (s.putHost a bs).draws = s.draws := rfl

@[simp] theorem Chip.fillMem_regs (s : Chip) (lo len pat : Nat) : (s.fillMem lo len pat).regs = s.regs := rfl
@[simp] theorem Chip.fillMem_shadow (s : Chip) (lo len pat : Nat) : (s.fillMem lo len pat).shadow = s.shadow := rfl
@[simp] theorem Chip.fillMem_tb (s : Chip) (lo len pat : Nat) : (s.fillMem lo len pat).tb = s.tb := rfl
@[simp] theorem Chip.fillMem_lowCaps (s : Chip) (lo len pat : Nat) : (s.fillMem lo len pat).lowCaps = s.lowCaps := rfl
@[simp] theorem Chip.fillMem_store (s : Chip) (lo len pat : Nat) : (s.fillMem lo len pat).store = s.store := rfl
@[simp] theorem Chip.fillMem_eng (s : Chip) (lo len pat : Nat) : (s.fillMem lo len pat).eng = s.eng := rfl
@[simp] theorem Chip.fillMem_ewn (s : Chip) (lo len pat : Nat) : (s.fillMem lo len pat).ewn = s.ewn := rfl
@[simp] theorem Chip.fillMem_can (s : Chip) (lo len pat : Nat) : (s.fillMem lo len pat).can = s.can := rfl
@[simp] theorem Chip.fillMem_fb (s : Chip) (lo len pat : Nat) : (s.fillMem lo len pat).fb = s.fb := rfl
@[simp] theorem Chip.fillMem_adc (s : Chip) (lo len pat : Nat) : (s.fillMem lo len pat).adc = s.adc := rfl
@[simp] theorem Chip.fillMem_recd (s : Chip) (lo len pat : Nat) : (s.fillMem lo len pat).recd = s.recd := rfl
@[simp] theorem Chip.fillMem_hostMem (s : Chip) (lo len pat : Nat) : (s.fillMem lo len pat).hostMem = s.hostMem := rfl
@[simp] theorem Chip.fillMem_isl (s : Chip) (lo len pat : Nat) : (s.fillMem lo len pat).isl = s.isl := rfl
@[simp] theorem Chip.fillMem_dsp (s : Chip) (lo len pat : Nat) : (s.fillMem lo len pat).dsp = s.dsp := rfl
@[simp] theorem Chip.fillMem_hst (s : Chip) (lo len pat : Nat) : (s.fillMem lo len pat).hst = s.hst := rfl
@[simp] theorem Chip.fillMem_pwr (s : Chip) (lo len pat : Nat) : (s.fillMem lo len pat).pwr = s.pwr := rfl
@[simp] theorem Chip.fillMem_boot (s : Chip) (lo len pat : Nat) : (s.fillMem lo len pat).boot = s.boot := rfl
@[simp] theorem Chip.fillMem_patch (s : Chip) (lo len pat : Nat) : (s.fillMem lo len pat).patch = s.patch := rfl
@[simp] theorem Chip.fillMem_books (s : Chip) (lo len pat : Nat) : (s.fillMem lo len pat).books = s.books := rfl
@[simp] theorem Chip.fillMem_odo (s : Chip) (lo len pat : Nat) : (s.fillMem lo len pat).odo = s.odo := rfl
@[simp] theorem Chip.fillMem_rst (s : Chip) (lo len pat : Nat) : (s.fillMem lo len pat).rst = s.rst := rfl
@[simp] theorem Chip.fillMem_pins (s : Chip) (lo len pat : Nat) : (s.fillMem lo len pat).pins = s.pins := rfl
@[simp] theorem Chip.fillMem_notes (s : Chip) (lo len pat : Nat) : (s.fillMem lo len pat).notes = s.notes := rfl
@[simp] theorem Chip.fillMem_acc (s : Chip) (lo len pat : Nat) : (s.fillMem lo len pat).acc = s.acc := rfl
@[simp] theorem Chip.fillMem_draws (s : Chip) (lo len pat : Nat) : (s.fillMem lo len pat).draws = s.draws := rfl

@[simp] theorem Chip.setEntry_regs (s : Chip) (sid : Nat) (e : Entry) : (s.setEntry sid e).regs = s.regs := rfl
@[simp] theorem Chip.setEntry_shadow (s : Chip) (sid : Nat) (e : Entry) : (s.setEntry sid e).shadow = s.shadow := rfl
@[simp] theorem Chip.setEntry_tb (s : Chip) (sid : Nat) (e : Entry) : (s.setEntry sid e).tb = s.tb := rfl
@[simp] theorem Chip.setEntry_lowCaps (s : Chip) (sid : Nat) (e : Entry) : (s.setEntry sid e).lowCaps = s.lowCaps := rfl
@[simp] theorem Chip.setEntry_eng (s : Chip) (sid : Nat) (e : Entry) : (s.setEntry sid e).eng = s.eng := rfl
@[simp] theorem Chip.setEntry_ewn (s : Chip) (sid : Nat) (e : Entry) : (s.setEntry sid e).ewn = s.ewn := rfl
@[simp] theorem Chip.setEntry_can (s : Chip) (sid : Nat) (e : Entry) : (s.setEntry sid e).can = s.can := rfl
@[simp] theorem Chip.setEntry_fb (s : Chip) (sid : Nat) (e : Entry) : (s.setEntry sid e).fb = s.fb := rfl
@[simp] theorem Chip.setEntry_adc (s : Chip) (sid : Nat) (e : Entry) : (s.setEntry sid e).adc = s.adc := rfl
@[simp] theorem Chip.setEntry_recd (s : Chip) (sid : Nat) (e : Entry) : (s.setEntry sid e).recd = s.recd := rfl
@[simp] theorem Chip.setEntry_mem (s : Chip) (sid : Nat) (e : Entry) : (s.setEntry sid e).mem = s.mem := rfl
@[simp] theorem Chip.setEntry_hostMem (s : Chip) (sid : Nat) (e : Entry) : (s.setEntry sid e).hostMem = s.hostMem := rfl
@[simp] theorem Chip.setEntry_fills (s : Chip) (sid : Nat) (e : Entry) : (s.setEntry sid e).fills = s.fills := rfl
@[simp] theorem Chip.setEntry_isl (s : Chip) (sid : Nat) (e : Entry) : (s.setEntry sid e).isl = s.isl := rfl
@[simp] theorem Chip.setEntry_dsp (s : Chip) (sid : Nat) (e : Entry) : (s.setEntry sid e).dsp = s.dsp := rfl
@[simp] theorem Chip.setEntry_memu (s : Chip) (sid : Nat) (e : Entry) : (s.setEntry sid e).memu = s.memu := rfl
@[simp] theorem Chip.setEntry_hst (s : Chip) (sid : Nat) (e : Entry) : (s.setEntry sid e).hst = s.hst := rfl
@[simp] theorem Chip.setEntry_pwr (s : Chip) (sid : Nat) (e : Entry) : (s.setEntry sid e).pwr = s.pwr := rfl
@[simp] theorem Chip.setEntry_boot (s : Chip) (sid : Nat) (e : Entry) : (s.setEntry sid e).boot = s.boot := rfl
@[simp] theorem Chip.setEntry_patch (s : Chip) (sid : Nat) (e : Entry) : (s.setEntry sid e).patch = s.patch := rfl
@[simp] theorem Chip.setEntry_books (s : Chip) (sid : Nat) (e : Entry) : (s.setEntry sid e).books = s.books := rfl
@[simp] theorem Chip.setEntry_odo (s : Chip) (sid : Nat) (e : Entry) : (s.setEntry sid e).odo = s.odo := rfl
@[simp] theorem Chip.setEntry_rst (s : Chip) (sid : Nat) (e : Entry) : (s.setEntry sid e).rst = s.rst := rfl
@[simp] theorem Chip.setEntry_pins (s : Chip) (sid : Nat) (e : Entry) : (s.setEntry sid e).pins = s.pins := rfl
@[simp] theorem Chip.setEntry_notes (s : Chip) (sid : Nat) (e : Entry) : (s.setEntry sid e).notes = s.notes := rfl
@[simp] theorem Chip.setEntry_acc (s : Chip) (sid : Nat) (e : Entry) : (s.setEntry sid e).acc = s.acc := rfl
@[simp] theorem Chip.setEntry_draws (s : Chip) (sid : Nat) (e : Entry) : (s.setEntry sid e).draws = s.draws := rfl

@[simp] theorem Chip.atPhase_tick (s : Chip) (p : Nat) : (s.atPhase p).tb.tick = s.tb.tick := rfl
@[simp] theorem Chip.atPhase_phase (s : Chip) (p : Nat) : (s.atPhase p).tb.phase = max s.tb.phase (min p s.lastPhase) := rfl
@[simp] theorem Chip.raise_notes (s : Chip) (n : Nat) : (s.raise n).notes = s.notes ++ [.event n] := rfl
@[simp] theorem Chip.draw_draws (s : Chip) : s.draw.draws = s.draws + 1 := rfl
@[simp] theorem setIsl_isl (s : Chip) (x : Island) : (setIsl s x).isl = x := rfl
@[simp] theorem setIsl_regs (s : Chip) (x : Island) : (setIsl s x).regs = s.regs := rfl
@[simp] theorem setIsl_shadow (s : Chip) (x : Island) : (setIsl s x).shadow = s.shadow := rfl
@[simp] theorem setIsl_tb (s : Chip) (x : Island) : (setIsl s x).tb = s.tb := rfl
@[simp] theorem setIsl_lowCaps (s : Chip) (x : Island) : (setIsl s x).lowCaps = s.lowCaps := rfl
@[simp] theorem setIsl_store (s : Chip) (x : Island) : (setIsl s x).store = s.store := rfl
@[simp] theorem setIsl_eng (s : Chip) (x : Island) : (setIsl s x).eng = s.eng := rfl
@[simp] theorem setIsl_ewn (s : Chip) (x : Island) : (setIsl s x).ewn = s.ewn := rfl
@[simp] theorem setIsl_can (s : Chip) (x : Island) : (setIsl s x).can = s.can := rfl
@[simp] theorem setIsl_fb (s : Chip) (x : Island) : (setIsl s x).fb = s.fb := rfl
@[simp] theorem setIsl_adc (s : Chip) (x : Island) : (setIsl s x).adc = s.adc := rfl
@[simp] theorem setIsl_recd (s : Chip) (x : Island) : (setIsl s x).recd = s.recd := rfl
@[simp] theorem setIsl_mem (s : Chip) (x : Island) : (setIsl s x).mem = s.mem := rfl
@[simp] theorem setIsl_hostMem (s : Chip) (x : Island) : (setIsl s x).hostMem = s.hostMem := rfl
@[simp] theorem setIsl_fills (s : Chip) (x : Island) : (setIsl s x).fills = s.fills := rfl
@[simp] theorem setIsl_dsp (s : Chip) (x : Island) : (setIsl s x).dsp = s.dsp := rfl
@[simp] theorem setIsl_memu (s : Chip) (x : Island) : (setIsl s x).memu = s.memu := rfl
@[simp] theorem setIsl_hst (s : Chip) (x : Island) : (setIsl s x).hst = s.hst := rfl
@[simp] theorem setIsl_pwr (s : Chip) (x : Island) : (setIsl s x).pwr = s.pwr := rfl
@[simp] theorem setIsl_boot (s : Chip) (x : Island) : (setIsl s x).boot = s.boot := rfl
@[simp] theorem setIsl_patch (s : Chip) (x : Island) : (setIsl s x).patch = s.patch := rfl
@[simp] theorem setIsl_books (s : Chip) (x : Island) : (setIsl s x).books = s.books := rfl
@[simp] theorem setIsl_odo (s : Chip) (x : Island) : (setIsl s x).odo = s.odo := rfl
@[simp] theorem setIsl_rst (s : Chip) (x : Island) : (setIsl s x).rst = s.rst := rfl
@[simp] theorem setIsl_pins (s : Chip) (x : Island) : (setIsl s x).pins = s.pins := rfl
@[simp] theorem setIsl_notes (s : Chip) (x : Island) : (setIsl s x).notes = s.notes := rfl
@[simp] theorem setIsl_acc (s : Chip) (x : Island) : (setIsl s x).acc = s.acc := rfl
@[simp] theorem setIsl_draws (s : Chip) (x : Island) : (setIsl s x).draws = s.draws := rfl
@[simp] theorem Chip.accessError_regs (s : Chip) (src : Nat) : (s.accessError src).regs = s.regs := rfl
@[simp] theorem Chip.accessError_shadow (s : Chip) (src : Nat) : (s.accessError src).shadow = s.shadow := rfl
@[simp] theorem Chip.accessError_tb (s : Chip) (src : Nat) : (s.accessError src).tb = s.tb := rfl
@[simp] theorem Chip.accessError_lowCaps (s : Chip) (src : Nat) : (s.accessError src).lowCaps = s.lowCaps := rfl
@[simp] theorem Chip.accessError_store (s : Chip) (src : Nat) : (s.accessError src).store = s.store := rfl
@[simp] theorem Chip.accessError_eng (s : Chip) (src : Nat) : (s.accessError src).eng = s.eng := rfl
@[simp] theorem Chip.accessError_ewn (s : Chip) (src : Nat) : (s.accessError src).ewn = s.ewn := rfl
@[simp] theorem Chip.accessError_can (s : Chip) (src : Nat) : (s.accessError src).can = s.can := rfl
@[simp] theorem Chip.accessError_fb (s : Chip) (src : Nat) : (s.accessError src).fb = s.fb := rfl
@[simp] theorem Chip.accessError_adc (s : Chip) (src : Nat) : (s.accessError src).adc = s.adc := rfl
@[simp] theorem Chip.accessError_recd (s : Chip) (src : Nat) : (s.accessError src).recd = s.recd := rfl
@[simp] theorem Chip.accessError_mem (s : Chip) (src : Nat) : (s.accessError src).mem = s.mem := rfl
@[simp] theorem Chip.accessError_hostMem (s : Chip) (src : Nat) : (s.accessError src).hostMem = s.hostMem := rfl
@[simp] theorem Chip.accessError_fills (s : Chip) (src : Nat) : (s.accessError src).fills = s.fills := rfl
@[simp] theorem Chip.accessError_isl (s : Chip) (src : Nat) : (s.accessError src).isl = s.isl := rfl
@[simp] theorem Chip.accessError_dsp (s : Chip) (src : Nat) : (s.accessError src).dsp = s.dsp := rfl
@[simp] theorem Chip.accessError_memu (s : Chip) (src : Nat) : (s.accessError src).memu = s.memu := rfl
@[simp] theorem Chip.accessError_hst (s : Chip) (src : Nat) : (s.accessError src).hst = s.hst := rfl
@[simp] theorem Chip.accessError_pwr (s : Chip) (src : Nat) : (s.accessError src).pwr = s.pwr := rfl
@[simp] theorem Chip.accessError_boot (s : Chip) (src : Nat) : (s.accessError src).boot = s.boot := rfl
@[simp] theorem Chip.accessError_patch (s : Chip) (src : Nat) : (s.accessError src).patch = s.patch := rfl
@[simp] theorem Chip.accessError_books (s : Chip) (src : Nat) : (s.accessError src).books = s.books := rfl
@[simp] theorem Chip.accessError_odo (s : Chip) (src : Nat) : (s.accessError src).odo = s.odo := rfl
@[simp] theorem Chip.accessError_rst (s : Chip) (src : Nat) : (s.accessError src).rst = s.rst := rfl
@[simp] theorem Chip.accessError_pins (s : Chip) (src : Nat) : (s.accessError src).pins = s.pins := rfl
@[simp] theorem Chip.accessError_notes (s : Chip) (src : Nat) : (s.accessError src).notes = s.notes := rfl
@[simp] theorem Chip.accessError_draws (s : Chip) (src : Nat) : (s.accessError src).draws = s.draws := rfl
@[simp] theorem Chip.returnData_regs (s : Chip) (src v : Nat) : (s.returnData src v).regs = s.regs := rfl
@[simp] theorem Chip.returnData_shadow (s : Chip) (src v : Nat) : (s.returnData src v).shadow = s.shadow := rfl
@[simp] theorem Chip.returnData_tb (s : Chip) (src v : Nat) : (s.returnData src v).tb = s.tb := rfl
@[simp] theorem Chip.returnData_lowCaps (s : Chip) (src v : Nat) : (s.returnData src v).lowCaps = s.lowCaps := rfl
@[simp] theorem Chip.returnData_store (s : Chip) (src v : Nat) : (s.returnData src v).store = s.store := rfl
@[simp] theorem Chip.returnData_eng (s : Chip) (src v : Nat) : (s.returnData src v).eng = s.eng := rfl
@[simp] theorem Chip.returnData_ewn (s : Chip) (src v : Nat) : (s.returnData src v).ewn = s.ewn := rfl
@[simp] theorem Chip.returnData_can (s : Chip) (src v : Nat) : (s.returnData src v).can = s.can := rfl
@[simp] theorem Chip.returnData_fb (s : Chip) (src v : Nat) : (s.returnData src v).fb = s.fb := rfl
@[simp] theorem Chip.returnData_adc (s : Chip) (src v : Nat) : (s.returnData src v).adc = s.adc := rfl
@[simp] theorem Chip.returnData_recd (s : Chip) (src v : Nat) : (s.returnData src v).recd = s.recd := rfl
@[simp] theorem Chip.returnData_mem (s : Chip) (src v : Nat) : (s.returnData src v).mem = s.mem := rfl
@[simp] theorem Chip.returnData_hostMem (s : Chip) (src v : Nat) : (s.returnData src v).hostMem = s.hostMem := rfl
@[simp] theorem Chip.returnData_fills (s : Chip) (src v : Nat) : (s.returnData src v).fills = s.fills := rfl
@[simp] theorem Chip.returnData_isl (s : Chip) (src v : Nat) : (s.returnData src v).isl = s.isl := rfl
@[simp] theorem Chip.returnData_dsp (s : Chip) (src v : Nat) : (s.returnData src v).dsp = s.dsp := rfl
@[simp] theorem Chip.returnData_memu (s : Chip) (src v : Nat) : (s.returnData src v).memu = s.memu := rfl
@[simp] theorem Chip.returnData_hst (s : Chip) (src v : Nat) : (s.returnData src v).hst = s.hst := rfl
@[simp] theorem Chip.returnData_pwr (s : Chip) (src v : Nat) : (s.returnData src v).pwr = s.pwr := rfl
@[simp] theorem Chip.returnData_boot (s : Chip) (src v : Nat) : (s.returnData src v).boot = s.boot := rfl
@[simp] theorem Chip.returnData_patch (s : Chip) (src v : Nat) : (s.returnData src v).patch = s.patch := rfl
@[simp] theorem Chip.returnData_books (s : Chip) (src v : Nat) : (s.returnData src v).books = s.books := rfl
@[simp] theorem Chip.returnData_odo (s : Chip) (src v : Nat) : (s.returnData src v).odo = s.odo := rfl
@[simp] theorem Chip.returnData_rst (s : Chip) (src v : Nat) : (s.returnData src v).rst = s.rst := rfl
@[simp] theorem Chip.returnData_pins (s : Chip) (src v : Nat) : (s.returnData src v).pins = s.pins := rfl
@[simp] theorem Chip.returnData_notes (s : Chip) (src v : Nat) : (s.returnData src v).notes = s.notes := rfl
@[simp] theorem Chip.returnData_draws (s : Chip) (src v : Nat) : (s.returnData src v).draws = s.draws := rfl
@[simp] theorem Chip.poison_regs (s : Chip) (src : Nat) : (s.poison src).regs = s.regs := rfl
@[simp] theorem Chip.poison_shadow (s : Chip) (src : Nat) : (s.poison src).shadow = s.shadow := rfl
@[simp] theorem Chip.poison_tb (s : Chip) (src : Nat) : (s.poison src).tb = s.tb := rfl
@[simp] theorem Chip.poison_lowCaps (s : Chip) (src : Nat) : (s.poison src).lowCaps = s.lowCaps := rfl
@[simp] theorem Chip.poison_store (s : Chip) (src : Nat) : (s.poison src).store = s.store := rfl
@[simp] theorem Chip.poison_eng (s : Chip) (src : Nat) : (s.poison src).eng = s.eng := rfl
@[simp] theorem Chip.poison_ewn (s : Chip) (src : Nat) : (s.poison src).ewn = s.ewn := rfl
@[simp] theorem Chip.poison_can (s : Chip) (src : Nat) : (s.poison src).can = s.can := rfl
@[simp] theorem Chip.poison_fb (s : Chip) (src : Nat) : (s.poison src).fb = s.fb := rfl
@[simp] theorem Chip.poison_adc (s : Chip) (src : Nat) : (s.poison src).adc = s.adc := rfl
@[simp] theorem Chip.poison_recd (s : Chip) (src : Nat) : (s.poison src).recd = s.recd := rfl
@[simp] theorem Chip.poison_mem (s : Chip) (src : Nat) : (s.poison src).mem = s.mem := rfl
@[simp] theorem Chip.poison_hostMem (s : Chip) (src : Nat) : (s.poison src).hostMem = s.hostMem := rfl
@[simp] theorem Chip.poison_fills (s : Chip) (src : Nat) : (s.poison src).fills = s.fills := rfl
@[simp] theorem Chip.poison_isl (s : Chip) (src : Nat) : (s.poison src).isl = s.isl := rfl
@[simp] theorem Chip.poison_dsp (s : Chip) (src : Nat) : (s.poison src).dsp = s.dsp := rfl
@[simp] theorem Chip.poison_memu (s : Chip) (src : Nat) : (s.poison src).memu = s.memu := rfl
@[simp] theorem Chip.poison_hst (s : Chip) (src : Nat) : (s.poison src).hst = s.hst := rfl
@[simp] theorem Chip.poison_pwr (s : Chip) (src : Nat) : (s.poison src).pwr = s.pwr := rfl
@[simp] theorem Chip.poison_boot (s : Chip) (src : Nat) : (s.poison src).boot = s.boot := rfl
@[simp] theorem Chip.poison_patch (s : Chip) (src : Nat) : (s.poison src).patch = s.patch := rfl
@[simp] theorem Chip.poison_books (s : Chip) (src : Nat) : (s.poison src).books = s.books := rfl
@[simp] theorem Chip.poison_odo (s : Chip) (src : Nat) : (s.poison src).odo = s.odo := rfl
@[simp] theorem Chip.poison_rst (s : Chip) (src : Nat) : (s.poison src).rst = s.rst := rfl
@[simp] theorem Chip.poison_pins (s : Chip) (src : Nat) : (s.poison src).pins = s.pins := rfl
@[simp] theorem Chip.poison_notes (s : Chip) (src : Nat) : (s.poison src).notes = s.notes := rfl
@[simp] theorem Chip.poison_draws (s : Chip) (src : Nat) : (s.poison src).draws = s.draws := rfl
@[simp] theorem Chip.putShadow_regs (s : Chip) (a : Nat) (v : Word) (m : Nat) : (s.putShadow a v m).regs = s.regs := rfl
@[simp] theorem Chip.putShadow_tb (s : Chip) (a : Nat) (v : Word) (m : Nat) : (s.putShadow a v m).tb = s.tb := rfl
@[simp] theorem Chip.putShadow_lowCaps (s : Chip) (a : Nat) (v : Word) (m : Nat) : (s.putShadow a v m).lowCaps = s.lowCaps := rfl
@[simp] theorem Chip.putShadow_store (s : Chip) (a : Nat) (v : Word) (m : Nat) : (s.putShadow a v m).store = s.store := rfl
@[simp] theorem Chip.putShadow_eng (s : Chip) (a : Nat) (v : Word) (m : Nat) : (s.putShadow a v m).eng = s.eng := rfl
@[simp] theorem Chip.putShadow_ewn (s : Chip) (a : Nat) (v : Word) (m : Nat) : (s.putShadow a v m).ewn = s.ewn := rfl
@[simp] theorem Chip.putShadow_can (s : Chip) (a : Nat) (v : Word) (m : Nat) : (s.putShadow a v m).can = s.can := rfl
@[simp] theorem Chip.putShadow_fb (s : Chip) (a : Nat) (v : Word) (m : Nat) : (s.putShadow a v m).fb = s.fb := rfl
@[simp] theorem Chip.putShadow_adc (s : Chip) (a : Nat) (v : Word) (m : Nat) : (s.putShadow a v m).adc = s.adc := rfl
@[simp] theorem Chip.putShadow_recd (s : Chip) (a : Nat) (v : Word) (m : Nat) : (s.putShadow a v m).recd = s.recd := rfl
@[simp] theorem Chip.putShadow_mem (s : Chip) (a : Nat) (v : Word) (m : Nat) : (s.putShadow a v m).mem = s.mem := rfl
@[simp] theorem Chip.putShadow_hostMem (s : Chip) (a : Nat) (v : Word) (m : Nat) : (s.putShadow a v m).hostMem = s.hostMem := rfl
@[simp] theorem Chip.putShadow_fills (s : Chip) (a : Nat) (v : Word) (m : Nat) : (s.putShadow a v m).fills = s.fills := rfl
@[simp] theorem Chip.putShadow_isl (s : Chip) (a : Nat) (v : Word) (m : Nat) : (s.putShadow a v m).isl = s.isl := rfl
@[simp] theorem Chip.putShadow_dsp (s : Chip) (a : Nat) (v : Word) (m : Nat) : (s.putShadow a v m).dsp = s.dsp := rfl
@[simp] theorem Chip.putShadow_memu (s : Chip) (a : Nat) (v : Word) (m : Nat) : (s.putShadow a v m).memu = s.memu := rfl
@[simp] theorem Chip.putShadow_hst (s : Chip) (a : Nat) (v : Word) (m : Nat) : (s.putShadow a v m).hst = s.hst := rfl
@[simp] theorem Chip.putShadow_pwr (s : Chip) (a : Nat) (v : Word) (m : Nat) : (s.putShadow a v m).pwr = s.pwr := rfl
@[simp] theorem Chip.putShadow_boot (s : Chip) (a : Nat) (v : Word) (m : Nat) : (s.putShadow a v m).boot = s.boot := rfl
@[simp] theorem Chip.putShadow_patch (s : Chip) (a : Nat) (v : Word) (m : Nat) : (s.putShadow a v m).patch = s.patch := rfl
@[simp] theorem Chip.putShadow_books (s : Chip) (a : Nat) (v : Word) (m : Nat) : (s.putShadow a v m).books = s.books := rfl
@[simp] theorem Chip.putShadow_odo (s : Chip) (a : Nat) (v : Word) (m : Nat) : (s.putShadow a v m).odo = s.odo := rfl
@[simp] theorem Chip.putShadow_rst (s : Chip) (a : Nat) (v : Word) (m : Nat) : (s.putShadow a v m).rst = s.rst := rfl
@[simp] theorem Chip.putShadow_pins (s : Chip) (a : Nat) (v : Word) (m : Nat) : (s.putShadow a v m).pins = s.pins := rfl
@[simp] theorem Chip.putShadow_acc (s : Chip) (a : Nat) (v : Word) (m : Nat) : (s.putShadow a v m).acc = s.acc := rfl
@[simp] theorem Chip.putShadow_notes (s : Chip) (a : Nat) (v : Word) (m : Nat) : (s.putShadow a v m).notes = s.notes := rfl
@[simp] theorem Chip.putShadow_draws (s : Chip) (a : Nat) (v : Word) (m : Nat) : (s.putShadow a v m).draws = s.draws := rfl

@[simp] theorem Chip.readError_regs (s : Chip) (src : Nat) : (s.readError src).regs = s.regs := rfl
@[simp] theorem Chip.readError_shadow (s : Chip) (src : Nat) : (s.readError src).shadow = s.shadow := rfl
@[simp] theorem Chip.readError_tb (s : Chip) (src : Nat) : (s.readError src).tb = s.tb := rfl
@[simp] theorem Chip.readError_lowCaps (s : Chip) (src : Nat) : (s.readError src).lowCaps = s.lowCaps := rfl
@[simp] theorem Chip.readError_store (s : Chip) (src : Nat) : (s.readError src).store = s.store := rfl
@[simp] theorem Chip.readError_eng (s : Chip) (src : Nat) : (s.readError src).eng = s.eng := rfl
@[simp] theorem Chip.readError_ewn (s : Chip) (src : Nat) : (s.readError src).ewn = s.ewn := rfl
@[simp] theorem Chip.readError_can (s : Chip) (src : Nat) : (s.readError src).can = s.can := rfl
@[simp] theorem Chip.readError_fb (s : Chip) (src : Nat) : (s.readError src).fb = s.fb := rfl
@[simp] theorem Chip.readError_adc (s : Chip) (src : Nat) : (s.readError src).adc = s.adc := rfl
@[simp] theorem Chip.readError_recd (s : Chip) (src : Nat) : (s.readError src).recd = s.recd := rfl
@[simp] theorem Chip.readError_mem (s : Chip) (src : Nat) : (s.readError src).mem = s.mem := rfl
@[simp] theorem Chip.readError_hostMem (s : Chip) (src : Nat) : (s.readError src).hostMem = s.hostMem := rfl
@[simp] theorem Chip.readError_fills (s : Chip) (src : Nat) : (s.readError src).fills = s.fills := rfl
@[simp] theorem Chip.readError_isl (s : Chip) (src : Nat) : (s.readError src).isl = s.isl := rfl
@[simp] theorem Chip.readError_dsp (s : Chip) (src : Nat) : (s.readError src).dsp = s.dsp := rfl
@[simp] theorem Chip.readError_memu (s : Chip) (src : Nat) : (s.readError src).memu = s.memu := rfl
@[simp] theorem Chip.readError_hst (s : Chip) (src : Nat) : (s.readError src).hst = s.hst := rfl
@[simp] theorem Chip.readError_pwr (s : Chip) (src : Nat) : (s.readError src).pwr = s.pwr := rfl
@[simp] theorem Chip.readError_boot (s : Chip) (src : Nat) : (s.readError src).boot = s.boot := rfl
@[simp] theorem Chip.readError_patch (s : Chip) (src : Nat) : (s.readError src).patch = s.patch := rfl
@[simp] theorem Chip.readError_books (s : Chip) (src : Nat) : (s.readError src).books = s.books := rfl
@[simp] theorem Chip.readError_odo (s : Chip) (src : Nat) : (s.readError src).odo = s.odo := rfl
@[simp] theorem Chip.readError_rst (s : Chip) (src : Nat) : (s.readError src).rst = s.rst := rfl
@[simp] theorem Chip.readError_pins (s : Chip) (src : Nat) : (s.readError src).pins = s.pins := rfl
@[simp] theorem Chip.readError_notes (s : Chip) (src : Nat) : (s.readError src).notes = s.notes := rfl
@[simp] theorem Chip.readError_draws (s : Chip) (src : Nat) : (s.readError src).draws = s.draws := rfl

@[simp] theorem clearFlips_regs (s : Chip) (a n : Nat) : (clearFlips s a n).regs = s.regs := rfl
@[simp] theorem clearFlips_shadow (s : Chip) (a n : Nat) : (clearFlips s a n).shadow = s.shadow := rfl
@[simp] theorem clearFlips_tb (s : Chip) (a n : Nat) : (clearFlips s a n).tb = s.tb := rfl
@[simp] theorem clearFlips_lowCaps (s : Chip) (a n : Nat) : (clearFlips s a n).lowCaps = s.lowCaps := rfl
@[simp] theorem clearFlips_store (s : Chip) (a n : Nat) : (clearFlips s a n).store = s.store := rfl
@[simp] theorem clearFlips_eng (s : Chip) (a n : Nat) : (clearFlips s a n).eng = s.eng := rfl
@[simp] theorem clearFlips_ewn (s : Chip) (a n : Nat) : (clearFlips s a n).ewn = s.ewn := rfl
@[simp] theorem clearFlips_can (s : Chip) (a n : Nat) : (clearFlips s a n).can = s.can := rfl
@[simp] theorem clearFlips_fb (s : Chip) (a n : Nat) : (clearFlips s a n).fb = s.fb := rfl
@[simp] theorem clearFlips_adc (s : Chip) (a n : Nat) : (clearFlips s a n).adc = s.adc := rfl
@[simp] theorem clearFlips_recd (s : Chip) (a n : Nat) : (clearFlips s a n).recd = s.recd := rfl
@[simp] theorem clearFlips_mem (s : Chip) (a n : Nat) : (clearFlips s a n).mem = s.mem := rfl
@[simp] theorem clearFlips_hostMem (s : Chip) (a n : Nat) : (clearFlips s a n).hostMem = s.hostMem := rfl
@[simp] theorem clearFlips_fills (s : Chip) (a n : Nat) : (clearFlips s a n).fills = s.fills := rfl
@[simp] theorem clearFlips_isl (s : Chip) (a n : Nat) : (clearFlips s a n).isl = s.isl := rfl
@[simp] theorem clearFlips_dsp (s : Chip) (a n : Nat) : (clearFlips s a n).dsp = s.dsp := rfl
@[simp] theorem clearFlips_hst (s : Chip) (a n : Nat) : (clearFlips s a n).hst = s.hst := rfl
@[simp] theorem clearFlips_pwr (s : Chip) (a n : Nat) : (clearFlips s a n).pwr = s.pwr := rfl
@[simp] theorem clearFlips_boot (s : Chip) (a n : Nat) : (clearFlips s a n).boot = s.boot := rfl
@[simp] theorem clearFlips_patch (s : Chip) (a n : Nat) : (clearFlips s a n).patch = s.patch := rfl
@[simp] theorem clearFlips_books (s : Chip) (a n : Nat) : (clearFlips s a n).books = s.books := rfl
@[simp] theorem clearFlips_odo (s : Chip) (a n : Nat) : (clearFlips s a n).odo = s.odo := rfl
@[simp] theorem clearFlips_rst (s : Chip) (a n : Nat) : (clearFlips s a n).rst = s.rst := rfl
@[simp] theorem clearFlips_pins (s : Chip) (a n : Nat) : (clearFlips s a n).pins = s.pins := rfl
@[simp] theorem clearFlips_acc (s : Chip) (a n : Nat) : (clearFlips s a n).acc = s.acc := rfl
@[simp] theorem clearFlips_notes (s : Chip) (a n : Nat) : (clearFlips s a n).notes = s.notes := rfl
@[simp] theorem clearFlips_draws (s : Chip) (a n : Nat) : (clearFlips s a n).draws = s.draws := rfl
@[simp] theorem clearFlips_memu_track (s : Chip) (a n : Nat) : (clearFlips s a n).memu.track = s.memu.track := rfl
@[simp] theorem clearFlips_memu_pos (s : Chip) (a n : Nat) : (clearFlips s a n).memu.pos = s.memu.pos := rfl
@[simp] theorem clearFlips_memu_lap (s : Chip) (a n : Nat) : (clearFlips s a n).memu.lap = s.memu.lap := rfl
@[simp] theorem clearFlips_memu_wback (s : Chip) (a n : Nat) : (clearFlips s a n).memu.wback = s.memu.wback := rfl
@[simp] theorem clearFlips_memu_spared (s : Chip) (a n : Nat) : (clearFlips s a n).memu.spared = s.memu.spared := rfl
@[simp] theorem clearFlips_memu_init (s : Chip) (a n : Nat) : (clearFlips s a n).memu.init = s.memu.init := rfl
@[simp] theorem clearFlips_memu_fill (s : Chip) (a n : Nat) : (clearFlips s a n).memu.fill = s.memu.fill := rfl
@[simp] theorem clearFlips_memu_cool (s : Chip) (a n : Nat) : (clearFlips s a n).memu.cool = s.memu.cool := rfl
@[simp] theorem clearFlips_memu_dlap (s : Chip) (a n : Nat) : (clearFlips s a n).memu.dlap = s.memu.dlap := rfl
@[simp] theorem clearFlips_memu_dread (s : Chip) (a n : Nat) : (clearFlips s a n).memu.dread = s.memu.dread := rfl
@[simp] theorem clearFlips_memu_tjd (s : Chip) (a n : Nat) : (clearFlips s a n).memu.tjd = s.memu.tjd := rfl
@[simp] theorem clearFlips_memu_selfRef (s : Chip) (a n : Nat) : (clearFlips s a n).memu.selfRef = s.memu.selfRef := rfl
@[simp] theorem clearFlips_memu_colds (s : Chip) (a n : Nat) : (clearFlips s a n).memu.colds = s.memu.colds := rfl
@[simp] theorem clearFlips_memu_lines (s : Chip) (a n : Nat) : (clearFlips s a n).memu.lines = s.memu.lines := rfl

@[simp] theorem setFlips_regs (s : Chip) (p m : Nat) : (setFlips s p m).regs = s.regs := rfl
@[simp] theorem setFlips_shadow (s : Chip) (p m : Nat) : (setFlips s p m).shadow = s.shadow := rfl
@[simp] theorem setFlips_tb (s : Chip) (p m : Nat) : (setFlips s p m).tb = s.tb := rfl
@[simp] theorem setFlips_lowCaps (s : Chip) (p m : Nat) : (setFlips s p m).lowCaps = s.lowCaps := rfl
@[simp] theorem setFlips_store (s : Chip) (p m : Nat) : (setFlips s p m).store = s.store := rfl
@[simp] theorem setFlips_eng (s : Chip) (p m : Nat) : (setFlips s p m).eng = s.eng := rfl
@[simp] theorem setFlips_ewn (s : Chip) (p m : Nat) : (setFlips s p m).ewn = s.ewn := rfl
@[simp] theorem setFlips_can (s : Chip) (p m : Nat) : (setFlips s p m).can = s.can := rfl
@[simp] theorem setFlips_fb (s : Chip) (p m : Nat) : (setFlips s p m).fb = s.fb := rfl
@[simp] theorem setFlips_adc (s : Chip) (p m : Nat) : (setFlips s p m).adc = s.adc := rfl
@[simp] theorem setFlips_recd (s : Chip) (p m : Nat) : (setFlips s p m).recd = s.recd := rfl
@[simp] theorem setFlips_mem (s : Chip) (p m : Nat) : (setFlips s p m).mem = s.mem := rfl
@[simp] theorem setFlips_hostMem (s : Chip) (p m : Nat) : (setFlips s p m).hostMem = s.hostMem := rfl
@[simp] theorem setFlips_fills (s : Chip) (p m : Nat) : (setFlips s p m).fills = s.fills := rfl
@[simp] theorem setFlips_isl (s : Chip) (p m : Nat) : (setFlips s p m).isl = s.isl := rfl
@[simp] theorem setFlips_dsp (s : Chip) (p m : Nat) : (setFlips s p m).dsp = s.dsp := rfl
@[simp] theorem setFlips_hst (s : Chip) (p m : Nat) : (setFlips s p m).hst = s.hst := rfl
@[simp] theorem setFlips_pwr (s : Chip) (p m : Nat) : (setFlips s p m).pwr = s.pwr := rfl
@[simp] theorem setFlips_boot (s : Chip) (p m : Nat) : (setFlips s p m).boot = s.boot := rfl
@[simp] theorem setFlips_patch (s : Chip) (p m : Nat) : (setFlips s p m).patch = s.patch := rfl
@[simp] theorem setFlips_books (s : Chip) (p m : Nat) : (setFlips s p m).books = s.books := rfl
@[simp] theorem setFlips_odo (s : Chip) (p m : Nat) : (setFlips s p m).odo = s.odo := rfl
@[simp] theorem setFlips_rst (s : Chip) (p m : Nat) : (setFlips s p m).rst = s.rst := rfl
@[simp] theorem setFlips_pins (s : Chip) (p m : Nat) : (setFlips s p m).pins = s.pins := rfl
@[simp] theorem setFlips_acc (s : Chip) (p m : Nat) : (setFlips s p m).acc = s.acc := rfl
@[simp] theorem setFlips_notes (s : Chip) (p m : Nat) : (setFlips s p m).notes = s.notes := rfl
@[simp] theorem setFlips_draws (s : Chip) (p m : Nat) : (setFlips s p m).draws = s.draws := rfl
@[simp] theorem setFlips_memu_track (s : Chip) (p m : Nat) : (setFlips s p m).memu.track = s.memu.track := rfl
@[simp] theorem setFlips_memu_pos (s : Chip) (p m : Nat) : (setFlips s p m).memu.pos = s.memu.pos := rfl
@[simp] theorem setFlips_memu_lap (s : Chip) (p m : Nat) : (setFlips s p m).memu.lap = s.memu.lap := rfl
@[simp] theorem setFlips_memu_wback (s : Chip) (p m : Nat) : (setFlips s p m).memu.wback = s.memu.wback := rfl
@[simp] theorem setFlips_memu_spared (s : Chip) (p m : Nat) : (setFlips s p m).memu.spared = s.memu.spared := rfl
@[simp] theorem setFlips_memu_init (s : Chip) (p m : Nat) : (setFlips s p m).memu.init = s.memu.init := rfl
@[simp] theorem setFlips_memu_fill (s : Chip) (p m : Nat) : (setFlips s p m).memu.fill = s.memu.fill := rfl
@[simp] theorem setFlips_memu_cool (s : Chip) (p m : Nat) : (setFlips s p m).memu.cool = s.memu.cool := rfl
@[simp] theorem setFlips_memu_dlap (s : Chip) (p m : Nat) : (setFlips s p m).memu.dlap = s.memu.dlap := rfl
@[simp] theorem setFlips_memu_dread (s : Chip) (p m : Nat) : (setFlips s p m).memu.dread = s.memu.dread := rfl
@[simp] theorem setFlips_memu_tjd (s : Chip) (p m : Nat) : (setFlips s p m).memu.tjd = s.memu.tjd := rfl
@[simp] theorem setFlips_memu_selfRef (s : Chip) (p m : Nat) : (setFlips s p m).memu.selfRef = s.memu.selfRef := rfl
@[simp] theorem setFlips_memu_colds (s : Chip) (p m : Nat) : (setFlips s p m).memu.colds = s.memu.colds := rfl
@[simp] theorem setFlips_memu_lines (s : Chip) (p m : Nat) : (setFlips s p m).memu.lines = s.memu.lines := rfl

@[simp] theorem touchWords_regs (s : Chip) (a n : Nat) : (touchWords s a n).regs = s.regs := rfl
@[simp] theorem touchWords_shadow (s : Chip) (a n : Nat) : (touchWords s a n).shadow = s.shadow := rfl
@[simp] theorem touchWords_tb (s : Chip) (a n : Nat) : (touchWords s a n).tb = s.tb := rfl
@[simp] theorem touchWords_lowCaps (s : Chip) (a n : Nat) : (touchWords s a n).lowCaps = s.lowCaps := rfl
@[simp] theorem touchWords_store (s : Chip) (a n : Nat) : (touchWords s a n).store = s.store := rfl
@[simp] theorem touchWords_eng (s : Chip) (a n : Nat) : (touchWords s a n).eng = s.eng := rfl
@[simp] theorem touchWords_ewn (s : Chip) (a n : Nat) : (touchWords s a n).ewn = s.ewn := rfl
@[simp] theorem touchWords_can (s : Chip) (a n : Nat) : (touchWords s a n).can = s.can := rfl
@[simp] theorem touchWords_fb (s : Chip) (a n : Nat) : (touchWords s a n).fb = s.fb := rfl
@[simp] theorem touchWords_adc (s : Chip) (a n : Nat) : (touchWords s a n).adc = s.adc := rfl
@[simp] theorem touchWords_recd (s : Chip) (a n : Nat) : (touchWords s a n).recd = s.recd := rfl
@[simp] theorem touchWords_mem (s : Chip) (a n : Nat) : (touchWords s a n).mem = s.mem := rfl
@[simp] theorem touchWords_hostMem (s : Chip) (a n : Nat) : (touchWords s a n).hostMem = s.hostMem := rfl
@[simp] theorem touchWords_fills (s : Chip) (a n : Nat) : (touchWords s a n).fills = s.fills := rfl
@[simp] theorem touchWords_isl (s : Chip) (a n : Nat) : (touchWords s a n).isl = s.isl := rfl
@[simp] theorem touchWords_dsp (s : Chip) (a n : Nat) : (touchWords s a n).dsp = s.dsp := rfl
@[simp] theorem touchWords_hst (s : Chip) (a n : Nat) : (touchWords s a n).hst = s.hst := rfl
@[simp] theorem touchWords_pwr (s : Chip) (a n : Nat) : (touchWords s a n).pwr = s.pwr := rfl
@[simp] theorem touchWords_boot (s : Chip) (a n : Nat) : (touchWords s a n).boot = s.boot := rfl
@[simp] theorem touchWords_patch (s : Chip) (a n : Nat) : (touchWords s a n).patch = s.patch := rfl
@[simp] theorem touchWords_books (s : Chip) (a n : Nat) : (touchWords s a n).books = s.books := rfl
@[simp] theorem touchWords_odo (s : Chip) (a n : Nat) : (touchWords s a n).odo = s.odo := rfl
@[simp] theorem touchWords_rst (s : Chip) (a n : Nat) : (touchWords s a n).rst = s.rst := rfl
@[simp] theorem touchWords_pins (s : Chip) (a n : Nat) : (touchWords s a n).pins = s.pins := rfl
@[simp] theorem touchWords_acc (s : Chip) (a n : Nat) : (touchWords s a n).acc = s.acc := rfl
@[simp] theorem touchWords_notes (s : Chip) (a n : Nat) : (touchWords s a n).notes = s.notes := rfl
@[simp] theorem touchWords_draws (s : Chip) (a n : Nat) : (touchWords s a n).draws = s.draws := rfl
@[simp] theorem touchWords_memu_pos (s : Chip) (a n : Nat) : (touchWords s a n).memu.pos = s.memu.pos := rfl
@[simp] theorem touchWords_memu_lap (s : Chip) (a n : Nat) : (touchWords s a n).memu.lap = s.memu.lap := rfl
@[simp] theorem touchWords_memu_spared (s : Chip) (a n : Nat) : (touchWords s a n).memu.spared = s.memu.spared := rfl
@[simp] theorem touchWords_memu_init (s : Chip) (a n : Nat) : (touchWords s a n).memu.init = s.memu.init := rfl
@[simp] theorem touchWords_memu_fill (s : Chip) (a n : Nat) : (touchWords s a n).memu.fill = s.memu.fill := rfl
@[simp] theorem touchWords_memu_cool (s : Chip) (a n : Nat) : (touchWords s a n).memu.cool = s.memu.cool := rfl
@[simp] theorem touchWords_memu_dlap (s : Chip) (a n : Nat) : (touchWords s a n).memu.dlap = s.memu.dlap := rfl
@[simp] theorem touchWords_memu_dread (s : Chip) (a n : Nat) : (touchWords s a n).memu.dread = s.memu.dread := rfl
@[simp] theorem touchWords_memu_tjd (s : Chip) (a n : Nat) : (touchWords s a n).memu.tjd = s.memu.tjd := rfl
@[simp] theorem touchWords_memu_selfRef (s : Chip) (a n : Nat) : (touchWords s a n).memu.selfRef = s.memu.selfRef := rfl
@[simp] theorem touchWords_memu_colds (s : Chip) (a n : Nat) : (touchWords s a n).memu.colds = s.memu.colds := rfl
@[simp] theorem touchWords_memu_lines (s : Chip) (a n : Nat) : (touchWords s a n).memu.lines = s.memu.lines := rfl

@[simp] theorem Chip.putBytes_memu_track (s : Chip) (a : Nat) (bs : List Byte) : (s.putBytes a bs).memu.track = s.memu.track := rfl
@[simp] theorem Chip.putBytes_memu_pos (s : Chip) (a : Nat) (bs : List Byte) : (s.putBytes a bs).memu.pos = s.memu.pos := rfl
@[simp] theorem Chip.putBytes_memu_lap (s : Chip) (a : Nat) (bs : List Byte) : (s.putBytes a bs).memu.lap = s.memu.lap := rfl
@[simp] theorem Chip.putBytes_memu_wback (s : Chip) (a : Nat) (bs : List Byte) : (s.putBytes a bs).memu.wback = s.memu.wback := rfl
@[simp] theorem Chip.putBytes_memu_spared (s : Chip) (a : Nat) (bs : List Byte) : (s.putBytes a bs).memu.spared = s.memu.spared := rfl
@[simp] theorem Chip.putBytes_memu_init (s : Chip) (a : Nat) (bs : List Byte) : (s.putBytes a bs).memu.init = s.memu.init := rfl
@[simp] theorem Chip.putBytes_memu_fill (s : Chip) (a : Nat) (bs : List Byte) : (s.putBytes a bs).memu.fill = s.memu.fill := rfl
@[simp] theorem Chip.putBytes_memu_cool (s : Chip) (a : Nat) (bs : List Byte) : (s.putBytes a bs).memu.cool = s.memu.cool := rfl
@[simp] theorem Chip.putBytes_memu_dlap (s : Chip) (a : Nat) (bs : List Byte) : (s.putBytes a bs).memu.dlap = s.memu.dlap := rfl
@[simp] theorem Chip.putBytes_memu_dread (s : Chip) (a : Nat) (bs : List Byte) : (s.putBytes a bs).memu.dread = s.memu.dread := rfl
@[simp] theorem Chip.putBytes_memu_tjd (s : Chip) (a : Nat) (bs : List Byte) : (s.putBytes a bs).memu.tjd = s.memu.tjd := rfl
@[simp] theorem Chip.putBytes_memu_selfRef (s : Chip) (a : Nat) (bs : List Byte) : (s.putBytes a bs).memu.selfRef = s.memu.selfRef := rfl
@[simp] theorem Chip.putBytes_memu_colds (s : Chip) (a : Nat) (bs : List Byte) : (s.putBytes a bs).memu.colds = s.memu.colds := rfl
@[simp] theorem Chip.putBytes_memu_lines (s : Chip) (a : Nat) (bs : List Byte) : (s.putBytes a bs).memu.lines = s.memu.lines := rfl

@[simp] theorem Chip.fillMem_memu_track (s : Chip) (lo len pat : Nat) : (s.fillMem lo len pat).memu.track = s.memu.track := rfl
@[simp] theorem Chip.fillMem_memu_pos (s : Chip) (lo len pat : Nat) : (s.fillMem lo len pat).memu.pos = s.memu.pos := rfl
@[simp] theorem Chip.fillMem_memu_lap (s : Chip) (lo len pat : Nat) : (s.fillMem lo len pat).memu.lap = s.memu.lap := rfl
@[simp] theorem Chip.fillMem_memu_wback (s : Chip) (lo len pat : Nat) : (s.fillMem lo len pat).memu.wback = s.memu.wback := rfl
@[simp] theorem Chip.fillMem_memu_spared (s : Chip) (lo len pat : Nat) : (s.fillMem lo len pat).memu.spared = s.memu.spared := rfl
@[simp] theorem Chip.fillMem_memu_init (s : Chip) (lo len pat : Nat) : (s.fillMem lo len pat).memu.init = s.memu.init := rfl
@[simp] theorem Chip.fillMem_memu_fill (s : Chip) (lo len pat : Nat) : (s.fillMem lo len pat).memu.fill = s.memu.fill := rfl
@[simp] theorem Chip.fillMem_memu_cool (s : Chip) (lo len pat : Nat) : (s.fillMem lo len pat).memu.cool = s.memu.cool := rfl
@[simp] theorem Chip.fillMem_memu_dlap (s : Chip) (lo len pat : Nat) : (s.fillMem lo len pat).memu.dlap = s.memu.dlap := rfl
@[simp] theorem Chip.fillMem_memu_dread (s : Chip) (lo len pat : Nat) : (s.fillMem lo len pat).memu.dread = s.memu.dread := rfl
@[simp] theorem Chip.fillMem_memu_tjd (s : Chip) (lo len pat : Nat) : (s.fillMem lo len pat).memu.tjd = s.memu.tjd := rfl
@[simp] theorem Chip.fillMem_memu_selfRef (s : Chip) (lo len pat : Nat) : (s.fillMem lo len pat).memu.selfRef = s.memu.selfRef := rfl
@[simp] theorem Chip.fillMem_memu_colds (s : Chip) (lo len pat : Nat) : (s.fillMem lo len pat).memu.colds = s.memu.colds := rfl
@[simp] theorem Chip.fillMem_memu_lines (s : Chip) (lo len pat : Nat) : (s.fillMem lo len pat).memu.lines = s.memu.lines := rfl

/-! The HSR sequence number and the PTP clock -/
@[simp] theorem hsrNext_regs (s : Chip) : (hsrNext s).regs = s.regs := rfl
@[simp] theorem hsrNext_shadow (s : Chip) : (hsrNext s).shadow = s.shadow := rfl
@[simp] theorem hsrNext_tb (s : Chip) : (hsrNext s).tb = s.tb := rfl
@[simp] theorem hsrNext_lowCaps (s : Chip) : (hsrNext s).lowCaps = s.lowCaps := rfl
@[simp] theorem hsrNext_store (s : Chip) : (hsrNext s).store = s.store := rfl
@[simp] theorem hsrNext_eng (s : Chip) : (hsrNext s).eng = s.eng := rfl
@[simp] theorem hsrNext_ewn (s : Chip) : (hsrNext s).ewn = s.ewn := rfl
@[simp] theorem hsrNext_can (s : Chip) : (hsrNext s).can = s.can := rfl
@[simp] theorem hsrNext_fb (s : Chip) : (hsrNext s).fb = s.fb := rfl
@[simp] theorem hsrNext_adc (s : Chip) : (hsrNext s).adc = s.adc := rfl
@[simp] theorem hsrNext_recd (s : Chip) : (hsrNext s).recd = s.recd := rfl
@[simp] theorem hsrNext_mem (s : Chip) : (hsrNext s).mem = s.mem := rfl
@[simp] theorem hsrNext_hostMem (s : Chip) : (hsrNext s).hostMem = s.hostMem := rfl
@[simp] theorem hsrNext_fills (s : Chip) : (hsrNext s).fills = s.fills := rfl
@[simp] theorem hsrNext_isl (s : Chip) : (hsrNext s).isl = s.isl := rfl
@[simp] theorem hsrNext_dsp (s : Chip) : (hsrNext s).dsp = s.dsp := rfl
@[simp] theorem hsrNext_memu (s : Chip) : (hsrNext s).memu = s.memu := rfl
@[simp] theorem hsrNext_pwr (s : Chip) : (hsrNext s).pwr = s.pwr := rfl
@[simp] theorem hsrNext_boot (s : Chip) : (hsrNext s).boot = s.boot := rfl
@[simp] theorem hsrNext_patch (s : Chip) : (hsrNext s).patch = s.patch := rfl
@[simp] theorem hsrNext_odo (s : Chip) : (hsrNext s).odo = s.odo := rfl
@[simp] theorem hsrNext_rst (s : Chip) : (hsrNext s).rst = s.rst := rfl
@[simp] theorem hsrNext_pins (s : Chip) : (hsrNext s).pins = s.pins := rfl
@[simp] theorem hsrNext_notes (s : Chip) : (hsrNext s).notes = s.notes := rfl
@[simp] theorem hsrNext_acc (s : Chip) : (hsrNext s).acc = s.acc := rfl
@[simp] theorem hsrNext_draws (s : Chip) : (hsrNext s).draws = s.draws := rfl
@[simp] theorem hsrNext_books (s : Chip) : (hsrNext s).books = s.books := rfl
@[simp] theorem setPtp_regs (s : Chip) (p : PtpClock) : (setPtp s p).regs = s.regs := rfl
@[simp] theorem setPtp_shadow (s : Chip) (p : PtpClock) : (setPtp s p).shadow = s.shadow := rfl
@[simp] theorem setPtp_tb (s : Chip) (p : PtpClock) : (setPtp s p).tb = s.tb := rfl
@[simp] theorem setPtp_lowCaps (s : Chip) (p : PtpClock) : (setPtp s p).lowCaps = s.lowCaps := rfl
@[simp] theorem setPtp_store (s : Chip) (p : PtpClock) : (setPtp s p).store = s.store := rfl
@[simp] theorem setPtp_eng (s : Chip) (p : PtpClock) : (setPtp s p).eng = s.eng := rfl
@[simp] theorem setPtp_ewn (s : Chip) (p : PtpClock) : (setPtp s p).ewn = s.ewn := rfl
@[simp] theorem setPtp_can (s : Chip) (p : PtpClock) : (setPtp s p).can = s.can := rfl
@[simp] theorem setPtp_fb (s : Chip) (p : PtpClock) : (setPtp s p).fb = s.fb := rfl
@[simp] theorem setPtp_adc (s : Chip) (p : PtpClock) : (setPtp s p).adc = s.adc := rfl
@[simp] theorem setPtp_recd (s : Chip) (p : PtpClock) : (setPtp s p).recd = s.recd := rfl
@[simp] theorem setPtp_mem (s : Chip) (p : PtpClock) : (setPtp s p).mem = s.mem := rfl
@[simp] theorem setPtp_hostMem (s : Chip) (p : PtpClock) : (setPtp s p).hostMem = s.hostMem := rfl
@[simp] theorem setPtp_fills (s : Chip) (p : PtpClock) : (setPtp s p).fills = s.fills := rfl
@[simp] theorem setPtp_isl (s : Chip) (p : PtpClock) : (setPtp s p).isl = s.isl := rfl
@[simp] theorem setPtp_dsp (s : Chip) (p : PtpClock) : (setPtp s p).dsp = s.dsp := rfl
@[simp] theorem setPtp_memu (s : Chip) (p : PtpClock) : (setPtp s p).memu = s.memu := rfl
@[simp] theorem setPtp_pwr (s : Chip) (p : PtpClock) : (setPtp s p).pwr = s.pwr := rfl
@[simp] theorem setPtp_boot (s : Chip) (p : PtpClock) : (setPtp s p).boot = s.boot := rfl
@[simp] theorem setPtp_patch (s : Chip) (p : PtpClock) : (setPtp s p).patch = s.patch := rfl
@[simp] theorem setPtp_odo (s : Chip) (p : PtpClock) : (setPtp s p).odo = s.odo := rfl
@[simp] theorem setPtp_rst (s : Chip) (p : PtpClock) : (setPtp s p).rst = s.rst := rfl
@[simp] theorem setPtp_pins (s : Chip) (p : PtpClock) : (setPtp s p).pins = s.pins := rfl
@[simp] theorem setPtp_notes (s : Chip) (p : PtpClock) : (setPtp s p).notes = s.notes := rfl
@[simp] theorem setPtp_acc (s : Chip) (p : PtpClock) : (setPtp s p).acc = s.acc := rfl
@[simp] theorem setPtp_draws (s : Chip) (p : PtpClock) : (setPtp s p).draws = s.draws := rfl
@[simp] theorem setPtp_books (s : Chip) (p : PtpClock) : (setPtp s p).books = s.books := rfl
@[simp] theorem setPtp_ptp (s : Chip) (p : PtpClock) : (setPtp s p).hst.ptp = p := rfl

end Sys2Proof.Machine
end

