-- ==== Sys2Proof/Laws/Tab.lean ====
section
/-!
SUPPORT. Sparse tables: what reads after writes give, and that writes keep the keys rising.
-/

namespace Sys2Proof.Machine

variable {α : Type}

theorem Tab.get_erase_self (d : α) (t : Tab α) (k : Nat) : Tab.get d (t.erase k) k = d := by
  induction t with
  | nil => rfl
  | cons e r ih =>
    obtain ⟨j, v⟩ := e
    by_cases h : j = k
    · simp [Tab.erase, h, ih]
    · simp [Tab.erase, Tab.get, h, ih]

theorem Tab.get_erase_ne (d : α) (t : Tab α) {k j : Nat} (h : j ≠ k) : Tab.get d (t.erase k) j = Tab.get d t j := by
  induction t with
  | nil => rfl
  | cons e r ih =>
    obtain ⟨i, v⟩ := e
    by_cases hi : i = k
    · subst hi
      simp [Tab.erase, Tab.get, ih, h.symm]
    · by_cases hj : i = j
      · subst hj; simp [Tab.erase, Tab.get, hi]
      · simp [Tab.erase, Tab.get, hi, hj, ih]

theorem Tab.get?_erase_self (t : Tab α) (k : Nat) : Tab.get? (t.erase k) k = none := by
  induction t with
  | nil => rfl
  | cons e r ih =>
    obtain ⟨j, v⟩ := e
    by_cases h : j = k
    · simp [Tab.erase, h, ih]
    · simp [Tab.erase, Tab.get?, h, ih]

theorem Tab.get?_erase_ne (t : Tab α) {k j : Nat} (h : j ≠ k) : Tab.get? (t.erase k) j = Tab.get? t j := by
  induction t with
  | nil => rfl
  | cons e r ih =>
    obtain ⟨i, v⟩ := e
    by_cases hi : i = k
    · subst hi
      simp [Tab.erase, Tab.get?, ih, h.symm]
    · by_cases hj : i = j
      · subst hj; simp [Tab.erase, Tab.get?, hi]
      · simp [Tab.erase, Tab.get?, hi, hj, ih]

theorem Tab.get_ins_ne (d : α) (t : Tab α) {k j : Nat} (v : α) (h : j ≠ k) : Tab.get d (t.ins k v) j = Tab.get d t j := by
  induction t with
  | nil => simp [Tab.ins, Tab.get, h.symm]
  | cons e r ih =>
    obtain ⟨i, w⟩ := e
    by_cases hk : k < i
    · simp [Tab.ins, Tab.get, hk, h.symm]
    · by_cases hj : i = j
      · subst hj; simp [Tab.ins, Tab.get, hk]
      · simp [Tab.ins, Tab.get, hk, hj, ih]

theorem Tab.get?_ins_ne (t : Tab α) {k j : Nat} (v : α) (h : j ≠ k) : Tab.get? (t.ins k v) j = Tab.get? t j := by
  induction t with
  | nil => simp [Tab.ins, Tab.get?, h.symm]
  | cons e r ih =>
    obtain ⟨i, w⟩ := e
    by_cases hk : k < i
    · simp [Tab.ins, Tab.get?, hk, h.symm]
    · by_cases hj : i = j
      · subst hj; simp [Tab.ins, Tab.get?, hk]
      · simp [Tab.ins, Tab.get?, hk, hj, ih]

theorem Tab.get_ins_erase (d : α) (t : Tab α) (k : Nat) (v : α) : Tab.get d ((t.erase k).ins k v) k = v := by
  induction t with
  | nil => simp [Tab.erase, Tab.ins, Tab.get]
  | cons e r ih =>
    obtain ⟨i, w⟩ := e
    by_cases hi : i = k
    · simp [Tab.erase, hi, ih]
    · by_cases hk : k < i <;> simp [Tab.erase, Tab.ins, Tab.get, hi, hk, ih]

theorem Tab.get?_ins_erase (t : Tab α) (k : Nat) (v : α) : Tab.get? ((t.erase k).ins k v) k = some v := by
  induction t with
  | nil => simp [Tab.erase, Tab.ins, Tab.get?]
  | cons e r ih =>
    obtain ⟨i, w⟩ := e
    by_cases hi : i = k
    · simp [Tab.erase, hi, ih]
    · by_cases hk : k < i <;> simp [Tab.erase, Tab.ins, Tab.get?, hi, hk, ih]

theorem Tab.set_eq [DecidableEq α] (d : α) (t : Tab α) (k : Nat) (v : α) :
    Tab.set d t k v = if v = d then t.erase k else (t.erase k).ins k v := by
  cases t <;> rfl

@[simp] theorem Tab.get_set_self [DecidableEq α] (d : α) (t : Tab α) (k : Nat) (v : α) : Tab.get d (Tab.set d t k v) k = v := by
  by_cases h : v = d
  · simp [Tab.set_eq, h, Tab.get_erase_self]
  · simp [Tab.set_eq, h, Tab.get_ins_erase]

theorem Tab.get_set_ne [DecidableEq α] (d e : α) (t : Tab α) {k j : Nat} (v : α) (h : j ≠ k) :
    Tab.get d (Tab.set e t k v) j = Tab.get d t j := by
  by_cases hv : v = e
  · simp [Tab.set_eq, hv, Tab.get_erase_ne d t h]
  · simp [Tab.set_eq, hv, Tab.get_ins_ne d _ v h, Tab.get_erase_ne d t h]

/-- The keys rise strictly. -/
def Tab.Rising (t : Tab α) : Prop := (t.map (·.1)).Pairwise (· < ·)

theorem Tab.mem_erase {t : Tab α} {k : Nat} {e : Nat × α} (h : e ∈ t.erase k) : e ∈ t ∧ e.1 ≠ k := by
  induction t with
  | nil => cases h
  | cons x r ih =>
    obtain ⟨j, v⟩ := x
    by_cases hj : j = k
    · simp only [Tab.erase, hj, if_true] at h
      exact ⟨List.mem_cons_of_mem _ (ih h).1, (ih h).2⟩
    · simp only [Tab.erase, hj, if_false, List.mem_cons] at h
      rcases h with rfl | h
      · exact ⟨List.mem_cons_self .., hj⟩
      · exact ⟨List.mem_cons_of_mem _ (ih h).1, (ih h).2⟩

theorem Tab.rising_cons {j : Nat} {v : α} {r : Tab α} :
    Tab.Rising ((j, v) :: r) ↔ (∀ e ∈ r, j < e.1) ∧ Tab.Rising r := by
  simp [Tab.Rising, List.pairwise_cons]

theorem Tab.rising_erase {t : Tab α} (k : Nat) (h : t.Rising) : (t.erase k).Rising := by
  induction t with
  | nil => exact h
  | cons x r ih =>
    obtain ⟨j, v⟩ := x
    rw [Tab.rising_cons] at h
    by_cases hj : j = k
    · simp only [Tab.erase, hj, if_true]
      exact ih h.2
    · simp only [Tab.erase, hj, if_false]
      exact Tab.rising_cons.2 ⟨fun e he => h.1 e (Tab.mem_erase he).1, ih h.2⟩

theorem Tab.mem_ins {t : Tab α} {k : Nat} {v : α} {e : Nat × α} (h : e ∈ t.ins k v) : e = (k, v) ∨ e ∈ t := by
  induction t with
  | nil => simpa [Tab.ins] using h
  | cons x r ih =>
    obtain ⟨j, w⟩ := x
    by_cases hk : k < j
    · simpa [Tab.ins, hk] using h
    · simp only [Tab.ins, hk, if_false, List.mem_cons] at h
      rcases h with rfl | h
      · exact .inr (List.mem_cons_self ..)
      · exact (ih h).imp_right (List.mem_cons_of_mem _)

theorem Tab.rising_ins {t : Tab α} {k : Nat} (v : α) (h : t.Rising) (hk : ∀ e ∈ t, e.1 ≠ k) : (t.ins k v).Rising := by
  induction t with
  | nil => simp [Tab.ins, Tab.Rising]
  | cons x r ih =>
    obtain ⟨j, w⟩ := x
    have h' := Tab.rising_cons.1 h
    have hne : j ≠ k := hk (j, w) (List.mem_cons_self ..)
    by_cases hj : k < j
    · simp only [Tab.ins, hj, if_true]
      refine Tab.rising_cons.2 ⟨fun e he => ?_, h⟩
      rcases List.mem_cons.1 he with rfl | he
      · exact hj
      · exact lt_trans hj (h'.1 e he)
    · simp only [Tab.ins, hj, if_false]
      refine Tab.rising_cons.2 ⟨fun e he => ?_, ih h'.2 fun e he => hk e (List.mem_cons_of_mem _ he)⟩
      rcases Tab.mem_ins he with rfl | he
      · show j < k
        omega
      · exact h'.1 e he

/-- Setting an entry keeps the keys rising. -/
theorem Tab.rising_set [DecidableEq α] {t : Tab α} (d : α) (k : Nat) (v : α) (h : t.Rising) : (Tab.set d t k v).Rising := by
  by_cases hv : v = d
  · simpa [Tab.set_eq, hv] using Tab.rising_erase k h
  · simpa [Tab.set_eq, hv] using Tab.rising_ins v (Tab.rising_erase k h) fun e he => (Tab.mem_erase he).2

/-- The canonical form is rising keys and no entry equal to its default. -/
theorem Tab.wf_iff [DecidableEq α] (d : Nat → α) (t : Tab α) : Tab.wf d t = true ↔ t.Rising ∧ ∀ e ∈ t, e.2 ≠ d e.1 := by
  induction t with
  | nil => simp [Tab.wf, Tab.Rising]
  | cons x r ih =>
    obtain ⟨k, v⟩ := x
    cases r with
    | nil => simp [Tab.wf, Tab.Rising]
    | cons y q =>
      obtain ⟨j, w⟩ := y
      rw [Tab.wf, Bool.and_eq_true, Bool.and_eq_true, ih, Tab.rising_cons (j := k)]
      simp only [bne_iff_ne, ne_eq, decide_eq_true_eq, List.mem_cons, forall_eq_or_imp]
      constructor
      · rintro ⟨⟨hv, hk⟩, hr, hw, hq⟩
        exact ⟨⟨⟨hk, fun e he => lt_trans hk ((Tab.rising_cons.1 hr).1 e he)⟩, hr⟩, hv, hw, hq⟩
      · rintro ⟨⟨⟨hk, _⟩, hr⟩, hv, hw, hq⟩
        exact ⟨⟨hv, hk⟩, hr, hw, hq⟩

/-- Setting an entry against its own default keeps the canonical form. -/
theorem Tab.wf_set [DecidableEq α] (d : Nat → α) {t : Tab α} (k : Nat) (v : α) (h : Tab.wf d t = true) :
    Tab.wf d (Tab.set (d k) t k v) = true := by
  rw [Tab.wf_iff] at h ⊢
  refine ⟨Tab.rising_set _ _ _ h.1, fun e he => ?_⟩
  by_cases hv : v = d k
  · rw [Tab.set_eq, if_pos hv] at he
    exact h.2 e (Tab.mem_erase he).1
  · rw [Tab.set_eq, if_neg hv] at he
    rcases Tab.mem_ins he with rfl | he
    · exact hv
    · exact h.2 e (Tab.mem_erase he).1

end Sys2Proof.Machine
end

