-- ==== Sys2Proof/Laws/Ops.lean ====
section
/-!
SUPPORT. Registers after writes, flags, and how a command ends: once for each shared operation, everything it can do.
-/

namespace Sys2Proof.Machine

/-! Registers -/

@[simp] theorem Chip.rd_wr_self (s : Chip) (a : Nat) (w : Word) : (s.wr a w).rd a = w := by
  simp [Chip.rd, Chip.wr]

theorem Chip.rd_wr_ne (s : Chip) {a b : Nat} (w : Word) (h : b ≠ a) : (s.wr a w).rd b = s.rd b :=
  Tab.get_set_ne _ _ _ w h

theorem Chip.rd_wr (s : Chip) (a b : Nat) (w : Word) : (s.wr a w).rd b = if b = a then w else s.rd b := by
  split
  · subst b
    exact s.rd_wr_self a w
  · exact s.rd_wr_ne w ‹_›

/-- A register is read from the register file alone. -/
theorem Chip.rd_congr {s t : Chip} (h : s.regs = t.regs) (a : Nat) : s.rd a = t.rd a := by
  simp [Chip.rd, h]

theorem Chip.rdBit_wrBit_self (s : Chip) (a : Nat) {b : Nat} (x : Bool) (h : b ≤ 31) : (s.wrBit a b x).rdBit a b = x := by
  simp [Chip.rdBit, Chip.wrBit, bit_setBit_self _ x h]

theorem Chip.rdBit_wrBit_bit (s : Chip) (a : Nat) {b c : Nat} (x : Bool) (h : b ≤ 31) (hc : c ≠ b) :
    (s.wrBit a b x).rdBit a c = s.rdBit a c := by
  simp [Chip.rdBit, Chip.wrBit, bit_setBit_ne _ x h hc]

theorem Chip.rdBit_wrBit_ne (s : Chip) {a d : Nat} (b c : Nat) (x : Bool) (h : d ≠ a) : (s.wrBit a b x).rdBit d c = s.rdBit d c := by
  simp [Chip.rdBit, Chip.wrBit, s.rd_wr_ne _ h]

theorem Chip.rdF_wrF_self (s : Chip) (a : Nat) {hi lo : Nat} (v : Nat) (h : lo ≤ hi) (h' : hi ≤ 31) :
    (s.wrF a hi lo v).rdF a hi lo = v % 2 ^ (hi + 1 - lo) := by
  simp [Chip.rdF, Chip.wrF, fld_setFld_self _ v h h']

theorem Chip.rdF_wrF_ne (s : Chip) {a d : Nat} (hi lo v h l : Nat) (hd : d ≠ a) : (s.wrF a hi lo v).rdF d h l = s.rdF d h l := by
  simp [Chip.rdF, Chip.wrF, s.rd_wr_ne _ hd]

@[simp] theorem Chip.rd_bump (s : Chip) (a : Nat) : (s.bump a).rd a = s.rd a + 1 := by
  simp [Chip.bump, Chip.bumpBy, wn]

theorem Chip.rd_bump_ne (s : Chip) {a b : Nat} (h : b ≠ a) : (s.bump a).rd b = s.rd b :=
  s.rd_wr_ne _ h

/-- A flag whose event is off sets its bit and leaves no event. -/
theorem Chip.flag_off (s : Chip) {evt en b : Nat} (e : Nat) (h : s.rdBit en b = false) :
    s.flag evt en b e = s.wrBit evt b true := by
  unfold Chip.flag
  simp [h]

/-- A flag whose event is on sets its bit and leaves the event. -/
theorem Chip.flag_on (s : Chip) {evt en b : Nat} (e : Nat) (h : s.rdBit en b = true) :
    s.flag evt en b e = (s.wrBit evt b true).raise e := by
  unfold Chip.flag
  simp [h]

/-- A flag changes its own register alone. -/
theorem Chip.flag_regs (s : Chip) (evt en b e : Nat) : (s.flag evt en b e).regs = (s.wrBit evt b true).regs := by
  unfold Chip.flag
  dsimp only
  split <;> rfl

/-! How a command ends -/

/-- An empty write buffer drains nothing. -/
theorem drainBuffer_empty {s : Chip} (h : s.recd.buf = []) : drainBuffer s = s := by
  simp [drainBuffer, h]

/-- A port without an unknown command at its head answers none. -/
theorem answerUnknown_none {p : HostPort} {n : Nat} {s : Chip} (h : headUnknown s p = none) : answerUnknown p n s = s := by
  cases n <;> simp [answerUnknown, h]

/-- With none at either head nothing is answered. -/
theorem unknownDone_none {s : Chip} (h : headUnknown s .h0 = none) (t : headUnknown s .tlan = none) : unknownDone s = s := by
  rw [unknownDone, answerUnknown_none h, answerUnknown_none t]

/-- Nothing is left for the recorder, the dispatcher, the cold reset or the command engine. -/
theorem settle_still {s : Chip} (h : Still s) : settle s = s := by
  obtain ⟨hn, hb, hc, hh, ht⟩ := h
  simp [settle, reactAll, unknownDone_none hh ht, drainBuffer_empty hb, hn, hc]

theorem finish_eq (st : State) (f : Chip → Chip) : finish st f = .next { st with chip := settle (f st.chip) } := rfl

/-- A command that leaves nothing behind ends in its effect. -/
theorem finish_still {st : State} {f : Chip → Chip} (h : Still (f st.chip)) : finish st f = .next { st with chip := f st.chip } := by
  rw [finish_eq, settle_still h]

end Sys2Proof.Machine
end

