-- ==== Sys2Proof/Laws/Books.lean ====
section
/-!
SUPPORT. The shared bookkeeping: what a flag, an odometer increment, an incident-log entry, an alarm and a fault leave alone.
-/

namespace Sys2Proof.Machine

@[simp] theorem Chip.flag_shadow (s : Chip) (evt en b e : Nat) : (s.flag evt en b e).shadow = s.shadow := by
  unfold Chip.flag; dsimp only; split <;> rfl
@[simp] theorem Chip.flag_tb (s : Chip) (evt en b e : Nat) : (s.flag evt en b e).tb = s.tb := by
  unfold Chip.flag; dsimp only; split <;> rfl
@[simp] theorem Chip.flag_lowCaps (s : Chip) (evt en b e : Nat) : (s.flag evt en b e).lowCaps = s.lowCaps := by
  unfold Chip.flag; dsimp only; split <;> rfl
@[simp] theorem Chip.flag_store (s : Chip) (evt en b e : Nat) : (s.flag evt en b e).store = s.store := by
  unfold Chip.flag; dsimp only; split <;> rfl
@[simp] theorem Chip.flag_eng (s : Chip) (evt en b e : Nat) : (s.flag evt en b e).eng = s.eng := by
  unfold Chip.flag; dsimp only; split <;> rfl
@[simp] theorem Chip.flag_ewn (s : Chip) (evt en b e : Nat) : (s.flag evt en b e).ewn = s.ewn := by
  unfold Chip.flag; dsimp only; split <;> rfl
@[simp] theorem Chip.flag_can (s : Chip) (evt en b e : Nat) : (s.flag evt en b e).can = s.can := by
  unfold Chip.flag; dsimp only; split <;> rfl
@[simp] theorem Chip.flag_fb (s : Chip) (evt en b e : Nat) : (s.flag evt en b e).fb = s.fb := by
  unfold Chip.flag; dsimp only; split <;> rfl
@[simp] theorem Chip.flag_adc (s : Chip) (evt en b e : Nat) : (s.flag evt en b e).adc = s.adc := by
  unfold Chip.flag; dsimp only; split <;> rfl
@[simp] theorem Chip.flag_recd (s : Chip) (evt en b e : Nat) : (s.flag evt en b e).recd = s.recd := by
  unfold Chip.flag; dsimp only; split <;> rfl
@[simp] theorem Chip.flag_mem (s : Chip) (evt en b e : Nat) : (s.flag evt en b e).mem = s.mem := by
  unfold Chip.flag; dsimp only; split <;> rfl
@[simp] theorem Chip.flag_hostMem (s : Chip) (evt en b e : Nat) : (s.flag evt en b e).hostMem = s.hostMem := by
  unfold Chip.flag; dsimp only; split <;> rfl
@[simp] theorem Chip.flag_fills (s : Chip) (evt en b e : Nat) : (s.flag evt en b e).fills = s.fills := by
  unfold Chip.flag; dsimp only; split <;> rfl
@[simp] theorem Chip.flag_isl (s : Chip) (evt en b e : Nat) : (s.flag evt en b e).isl = s.isl := by
  unfold Chip.flag; dsimp only; split <;> rfl
@[simp] theorem Chip.flag_dsp (s : Chip) (evt en b e : Nat) : (s.flag evt en b e).dsp = s.dsp := by
  unfold Chip.flag; dsimp only; split <;> rfl
@[simp] theorem Chip.flag_memu (s : Chip) (evt en b e : Nat) : (s.flag evt en b e).memu = s.memu := by
  unfold Chip.flag; dsimp only; split <;> rfl
@[simp] theorem Chip.flag_hst (s : Chip) (evt en b e : Nat) : (s.flag evt en b e).hst = s.hst := by
  unfold Chip.flag; dsimp only; split <;> rfl
@[simp] theorem Chip.flag_pwr (s : Chip) (evt en b e : Nat) : (s.flag evt en b e).pwr = s.pwr := by
  unfold Chip.flag; dsimp only; split <;> rfl
@[simp] theorem Chip.flag_boot (s : Chip) (evt en b e : Nat) : (s.flag evt en b e).boot = s.boot := by
  unfold Chip.flag; dsimp only; split <;> rfl
@[simp] theorem Chip.flag_patch (s : Chip) (evt en b e : Nat) : (s.flag evt en b e).patch = s.patch := by
  unfold Chip.flag; dsimp only; split <;> rfl
@[simp] theorem Chip.flag_books (s : Chip) (evt en b e : Nat) : (s.flag evt en b e).books = s.books := by
  unfold Chip.flag; dsimp only; split <;> rfl
@[simp] theorem Chip.flag_odo (s : Chip) (evt en b e : Nat) : (s.flag evt en b e).odo = s.odo := by
  unfold Chip.flag; dsimp only; split <;> rfl
@[simp] theorem Chip.flag_rst (s : Chip) (evt en b e : Nat) : (s.flag evt en b e).rst = s.rst := by
  unfold Chip.flag; dsimp only; split <;> rfl
@[simp] theorem Chip.flag_pins (s : Chip) (evt en b e : Nat) : (s.flag evt en b e).pins = s.pins := by
  unfold Chip.flag; dsimp only; split <;> rfl
@[simp] theorem Chip.flag_acc (s : Chip) (evt en b e : Nat) : (s.flag evt en b e).acc = s.acc := by
  unfold Chip.flag; dsimp only; split <;> rfl
@[simp] theorem Chip.flag_draws (s : Chip) (evt en b e : Nat) : (s.flag evt en b e).draws = s.draws := by
  unfold Chip.flag; dsimp only; split <;> rfl

@[simp] theorem Chip.odoInc_shadow (s : Chip) (k n : Nat) : (s.odoInc k n).shadow = s.shadow := by
  unfold Chip.odoInc; dsimp only; split <;> simp
@[simp] theorem Chip.odoInc_tb (s : Chip) (k n : Nat) : (s.odoInc k n).tb = s.tb := by
  unfold Chip.odoInc; dsimp only; split <;> simp
@[simp] theorem Chip.odoInc_lowCaps (s : Chip) (k n : Nat) : (s.odoInc k n).lowCaps = s.lowCaps := by
  unfold Chip.odoInc; dsimp only; split <;> simp
@[simp] theorem Chip.odoInc_store (s : Chip) (k n : Nat) : (s.odoInc k n).store = s.store := by
  unfold Chip.odoInc; dsimp only; split <;> simp
@[simp] theorem Chip.odoInc_eng (s : Chip) (k n : Nat) : (s.odoInc k n).eng = s.eng := by
  unfold Chip.odoInc; dsimp only; split <;> simp
@[simp] theorem Chip.odoInc_ewn (s : Chip) (k n : Nat) : (s.odoInc k n).ewn = s.ewn := by
  unfold Chip.odoInc; dsimp only; split <;> simp
@[simp] theorem Chip.odoInc_can (s : Chip) (k n : Nat) : (s.odoInc k n).can = s.can := by
  unfold Chip.odoInc; dsimp only; split <;> simp
@[simp] theorem Chip.odoInc_fb (s : Chip) (k n : Nat) : (s.odoInc k n).fb = s.fb := by
  unfold Chip.odoInc; dsimp only; split <;> simp
@[simp] theorem Chip.odoInc_adc (s : Chip) (k n : Nat) : (s.odoInc k n).adc = s.adc := by
  unfold Chip.odoInc; dsimp only; split <;> simp
@[simp] theorem Chip.odoInc_recd (s : Chip) (k n : Nat) : (s.odoInc k n).recd = s.recd := by
  unfold Chip.odoInc; dsimp only; split <;> simp
@[simp] theorem Chip.odoInc_mem (s : Chip) (k n : Nat) : (s.odoInc k n).mem = s.mem := by
  unfold Chip.odoInc; dsimp only; split <;> simp
@[simp] theorem Chip.odoInc_hostMem (s : Chip) (k n : Nat) : (s.odoInc k n).hostMem = s.hostMem := by
  unfold Chip.odoInc; dsimp only; split <;> simp
@[simp] theorem Chip.odoInc_fills (s : Chip) (k n : Nat) : (s.odoInc k n).fills = s.fills := by
  unfold Chip.odoInc; dsimp only; split <;> simp
@[simp] theorem Chip.odoInc_isl (s : Chip) (k n : Nat) : (s.odoInc k n).isl = s.isl := by
  unfold Chip.odoInc; dsimp only; split <;> simp
@[simp] theorem Chip.odoInc_dsp (s : Chip) (k n : Nat) : (s.odoInc k n).dsp = s.dsp := by
  unfold Chip.odoInc; dsimp only; split <;> simp
@[simp] theorem Chip.odoInc_memu (s : Chip) (k n : Nat) : (s.odoInc k n).memu = s.memu := by
  unfold Chip.odoInc; dsimp only; split <;> simp
@[simp] theorem Chip.odoInc_hst (s : Chip) (k n : Nat) : (s.odoInc k n).hst = s.hst := by
  unfold Chip.odoInc; dsimp only; split <;> simp
@[simp] theorem Chip.odoInc_pwr (s : Chip) (k n : Nat) : (s.odoInc k n).pwr = s.pwr := by
  unfold Chip.odoInc; dsimp only; split <;> simp
@[simp] theorem Chip.odoInc_boot (s : Chip) (k n : Nat) : (s.odoInc k n).boot = s.boot := by
  unfold Chip.odoInc; dsimp only; split <;> simp
@[simp] theorem Chip.odoInc_patch (s : Chip) (k n : Nat) : (s.odoInc k n).patch = s.patch := by
  unfold Chip.odoInc; dsimp only; split <;> simp
@[simp] theorem Chip.odoInc_rst (s : Chip) (k n : Nat) : (s.odoInc k n).rst = s.rst := by
  unfold Chip.odoInc; dsimp only; split <;> simp
@[simp] theorem Chip.odoInc_pins (s : Chip) (k n : Nat) : (s.odoInc k n).pins = s.pins := by
  unfold Chip.odoInc; dsimp only; split <;> simp
@[simp] theorem Chip.odoInc_acc (s : Chip) (k n : Nat) : (s.odoInc k n).acc = s.acc := by
  unfold Chip.odoInc; dsimp only; split <;> simp
@[simp] theorem Chip.odoInc_draws (s : Chip) (k n : Nat) : (s.odoInc k n).draws = s.draws := by
  unfold Chip.odoInc; dsimp only; split <;> simp

@[simp] theorem Chip.logEvent_shadow (s : Chip) (k c i : Nat) : (s.logEvent k c i).shadow = s.shadow := by
  unfold Chip.logEvent; dsimp only; split; · rfl
  split <;> rfl
@[simp] theorem Chip.logEvent_tb (s : Chip) (k c i : Nat) : (s.logEvent k c i).tb = s.tb := by
  unfold Chip.logEvent; dsimp only; split; · rfl
  split <;> rfl
@[simp] theorem Chip.logEvent_lowCaps (s : Chip) (k c i : Nat) : (s.logEvent k c i).lowCaps = s.lowCaps := by
  unfold Chip.logEvent; dsimp only; split; · rfl
  split <;> rfl
@[simp] theorem Chip.logEvent_store (s : Chip) (k c i : Nat) : (s.logEvent k c i).store = s.store := by
  unfold Chip.logEvent; dsimp only; split; · rfl
  split <;> rfl
@[simp] theorem Chip.logEvent_eng (s : Chip) (k c i : Nat) : (s.logEvent k c i).eng = s.eng := by
  unfold Chip.logEvent; dsimp only; split; · rfl
  split <;> rfl
@[simp] theorem Chip.logEvent_ewn (s : Chip) (k c i : Nat) : (s.logEvent k c i).ewn = s.ewn := by
  unfold Chip.logEvent; dsimp only; split; · rfl
  split <;> rfl
@[simp] theorem Chip.logEvent_can (s : Chip) (k c i : Nat) : (s.logEvent k c i).can = s.can := by
  unfold Chip.logEvent; dsimp only; split; · rfl
  split <;> rfl
@[simp] theorem Chip.logEvent_fb (s : Chip) (k c i : Nat) : (s.logEvent k c i).fb = s.fb := by
  unfold Chip.logEvent; dsimp only; split; · rfl
  split <;> rfl
@[simp] theorem Chip.logEvent_adc (s : Chip) (k c i : Nat) : (s.logEvent k c i).adc = s.adc := by
  unfold Chip.logEvent; dsimp only; split; · rfl
  split <;> rfl
@[simp] theorem Chip.logEvent_recd (s : Chip) (k c i : Nat) : (s.logEvent k c i).recd = s.recd := by
  unfold Chip.logEvent; dsimp only; split; · rfl
  split <;> rfl
@[simp] theorem Chip.logEvent_mem (s : Chip) (k c i : Nat) : (s.logEvent k c i).mem = s.mem := by
  unfold Chip.logEvent; dsimp only; split; · rfl
  split <;> rfl
@[simp] theorem Chip.logEvent_hostMem (s : Chip) (k c i : Nat) : (s.logEvent k c i).hostMem = s.hostMem := by
  unfold Chip.logEvent; dsimp only; split; · rfl
  split <;> rfl
@[simp] theorem Chip.logEvent_fills (s : Chip) (k c i : Nat) : (s.logEvent k c i).fills = s.fills := by
  unfold Chip.logEvent; dsimp only; split; · rfl
  split <;> rfl
@[simp] theorem Chip.logEvent_isl (s : Chip) (k c i : Nat) : (s.logEvent k c i).isl = s.isl := by
  unfold Chip.logEvent; dsimp only; split; · rfl
  split <;> rfl
@[simp] theorem Chip.logEvent_dsp (s : Chip) (k c i : Nat) : (s.logEvent k c i).dsp = s.dsp := by
  unfold Chip.logEvent; dsimp only; split; · rfl
  split <;> rfl
@[simp] theorem Chip.logEvent_memu (s : Chip) (k c i : Nat) : (s.logEvent k c i).memu = s.memu := by
  unfold Chip.logEvent; dsimp only; split; · rfl
  split <;> rfl
@[simp] theorem Chip.logEvent_hst (s : Chip) (k c i : Nat) : (s.logEvent k c i).hst = s.hst := by
  unfold Chip.logEvent; dsimp only; split; · rfl
  split <;> rfl
@[simp] theorem Chip.logEvent_pwr (s : Chip) (k c i : Nat) : (s.logEvent k c i).pwr = s.pwr := by
  unfold Chip.logEvent; dsimp only; split; · rfl
  split <;> rfl
@[simp] theorem Chip.logEvent_boot (s : Chip) (k c i : Nat) : (s.logEvent k c i).boot = s.boot := by
  unfold Chip.logEvent; dsimp only; split; · rfl
  split <;> rfl
@[simp] theorem Chip.logEvent_patch (s : Chip) (k c i : Nat) : (s.logEvent k c i).patch = s.patch := by
  unfold Chip.logEvent; dsimp only; split; · rfl
  split <;> rfl
@[simp] theorem Chip.logEvent_odo (s : Chip) (k c i : Nat) : (s.logEvent k c i).odo = s.odo := by
  unfold Chip.logEvent; dsimp only; split; · rfl
  split <;> rfl
@[simp] theorem Chip.logEvent_rst (s : Chip) (k c i : Nat) : (s.logEvent k c i).rst = s.rst := by
  unfold Chip.logEvent; dsimp only; split; · rfl
  split <;> rfl
@[simp] theorem Chip.logEvent_pins (s : Chip) (k c i : Nat) : (s.logEvent k c i).pins = s.pins := by
  unfold Chip.logEvent; dsimp only; split; · rfl
  split <;> rfl
@[simp] theorem Chip.logEvent_notes (s : Chip) (k c i : Nat) : (s.logEvent k c i).notes = s.notes := by
  unfold Chip.logEvent; dsimp only; split; · rfl
  split <;> rfl
@[simp] theorem Chip.logEvent_acc (s : Chip) (k c i : Nat) : (s.logEvent k c i).acc = s.acc := by
  unfold Chip.logEvent; dsimp only; split; · rfl
  split <;> rfl
@[simp] theorem Chip.logEvent_draws (s : Chip) (k c i : Nat) : (s.logEvent k c i).draws = s.draws := by
  unfold Chip.logEvent; dsimp only; split; · rfl
  split <;> rfl

@[simp] theorem alarmDirty_shadow (s : Chip) (k v : Nat) : (alarmDirty s k v).shadow = s.shadow := by
  unfold alarmDirty; dsimp only; split <;> split <;> rfl
@[simp] theorem alarmDirty_tb (s : Chip) (k v : Nat) : (alarmDirty s k v).tb = s.tb := by
  unfold alarmDirty; dsimp only; split <;> split <;> rfl
@[simp] theorem alarmDirty_lowCaps (s : Chip) (k v : Nat) : (alarmDirty s k v).lowCaps = s.lowCaps := by
  unfold alarmDirty; dsimp only; split <;> split <;> rfl
@[simp] theorem alarmDirty_store (s : Chip) (k v : Nat) : (alarmDirty s k v).store = s.store := by
  unfold alarmDirty; dsimp only; split <;> split <;> rfl
@[simp] theorem alarmDirty_eng (s : Chip) (k v : Nat) : (alarmDirty s k v).eng = s.eng := by
  unfold alarmDirty; dsimp only; split <;> split <;> rfl
@[simp] theorem alarmDirty_ewn (s : Chip) (k v : Nat) : (alarmDirty s k v).ewn = s.ewn := by
  unfold alarmDirty; dsimp only; split <;> split <;> rfl
@[simp] theorem alarmDirty_can (s : Chip) (k v : Nat) : (alarmDirty s k v).can = s.can := by
  unfold alarmDirty; dsimp only; split <;> split <;> rfl
@[simp] theorem alarmDirty_fb (s : Chip) (k v : Nat) : (alarmDirty s k v).fb = s.fb := by
  unfold alarmDirty; dsimp only; split <;> split <;> rfl
@[simp] theorem alarmDirty_adc (s : Chip) (k v : Nat) : (alarmDirty s k v).adc = s.adc := by
  unfold alarmDirty; dsimp only; split <;> split <;> rfl
@[simp] theorem alarmDirty_recd (s : Chip) (k v : Nat) : (alarmDirty s k v).recd = s.recd := by
  unfold alarmDirty; dsimp only; split <;> split <;> rfl
@[simp] theorem alarmDirty_mem (s : Chip) (k v : Nat) : (alarmDirty s k v).mem = s.mem := by
  unfold alarmDirty; dsimp only; split <;> split <;> rfl
@[simp] theorem alarmDirty_hostMem (s : Chip) (k v : Nat) : (alarmDirty s k v).hostMem = s.hostMem := by
  unfold alarmDirty; dsimp only; split <;> split <;> rfl
@[simp] theorem alarmDirty_fills (s : Chip) (k v : Nat) : (alarmDirty s k v).fills = s.fills := by
  unfold alarmDirty; dsimp only; split <;> split <;> rfl
@[simp] theorem alarmDirty_isl (s : Chip) (k v : Nat) : (alarmDirty s k v).isl = s.isl := by
  unfold alarmDirty; dsimp only; split <;> split <;> rfl
@[simp] theorem alarmDirty_dsp (s : Chip) (k v : Nat) : (alarmDirty s k v).dsp = s.dsp := by
  unfold alarmDirty; dsimp only; split <;> split <;> rfl
@[simp] theorem alarmDirty_memu (s : Chip) (k v : Nat) : (alarmDirty s k v).memu = s.memu := by
  unfold alarmDirty; dsimp only; split <;> split <;> rfl
/-- An alarm frame takes the next HSR sequence number while a tool-LAN port is up (16 R720). -/
theorem alarmDirty_hst (s : Chip) (k v : Nat) :
    (alarmDirty s k v).hst = { s.hst with hsrSeq := if lanUp s then (s.hst.hsrSeq + 1) % 65536 else s.hst.hsrSeq } := by
  unfold alarmDirty; dsimp only; split <;> split <;> rfl
@[simp] theorem alarmDirty_pwr (s : Chip) (k v : Nat) : (alarmDirty s k v).pwr = s.pwr := by
  unfold alarmDirty; dsimp only; split <;> split <;> rfl
@[simp] theorem alarmDirty_boot (s : Chip) (k v : Nat) : (alarmDirty s k v).boot = s.boot := by
  unfold alarmDirty; dsimp only; split <;> split <;> rfl
@[simp] theorem alarmDirty_patch (s : Chip) (k v : Nat) : (alarmDirty s k v).patch = s.patch := by
  unfold alarmDirty; dsimp only; split <;> split <;> rfl
@[simp] theorem alarmDirty_odo (s : Chip) (k v : Nat) : (alarmDirty s k v).odo = s.odo := by
  unfold alarmDirty; dsimp only; split <;> split <;> rfl
@[simp] theorem alarmDirty_rst (s : Chip) (k v : Nat) : (alarmDirty s k v).rst = s.rst := by
  unfold alarmDirty; dsimp only; split <;> split <;> rfl
@[simp] theorem alarmDirty_pins (s : Chip) (k v : Nat) : (alarmDirty s k v).pins = s.pins := by
  unfold alarmDirty; dsimp only; split <;> split <;> rfl
@[simp] theorem alarmDirty_notes (s : Chip) (k v : Nat) : (alarmDirty s k v).notes = s.notes := by
  unfold alarmDirty; dsimp only; split <;> split <;> rfl
@[simp] theorem alarmDirty_acc (s : Chip) (k v : Nat) : (alarmDirty s k v).acc = s.acc := by
  unfold alarmDirty; dsimp only; split <;> split <;> rfl
@[simp] theorem alarmDirty_draws (s : Chip) (k v : Nat) : (alarmDirty s k v).draws = s.draws := by
  unfold alarmDirty; dsimp only; split <;> split <;> rfl

@[simp] theorem setAlarm_regs (s : Chip) (k : Nat) (e : AlarmEntry) : (setAlarm s k e).regs = s.regs := by
  rfl
@[simp] theorem setAlarm_shadow (s : Chip) (k : Nat) (e : AlarmEntry) : (setAlarm s k e).shadow = s.shadow := by
  rfl
@[simp] theorem setAlarm_tb (s : Chip) (k : Nat) (e : AlarmEntry) : (setAlarm s k e).tb = s.tb := by
  rfl
@[simp] theorem setAlarm_lowCaps (s : Chip) (k : Nat) (e : AlarmEntry) : (setAlarm s k e).lowCaps = s.lowCaps := by
  rfl
@[simp] theorem setAlarm_store (s : Chip) (k : Nat) (e : AlarmEntry) : (setAlarm s k e).store = s.store := by
  rfl
@[simp] theorem setAlarm_eng (s : Chip) (k : Nat) (e : AlarmEntry) : (setAlarm s k e).eng = s.eng := by
  rfl
@[simp] theorem setAlarm_ewn (s : Chip) (k : Nat) (e : AlarmEntry) : (setAlarm s k e).ewn = s.ewn := by
  rfl
@[simp] theorem setAlarm_can (s : Chip) (k : Nat) (e : AlarmEntry) : (setAlarm s k e).can = s.can := by
  rfl
@[simp] theorem setAlarm_fb (s : Chip) (k : Nat) (e : AlarmEntry) : (setAlarm s k e).fb = s.fb := by
  rfl
@[simp] theorem setAlarm_adc (s : Chip) (k : Nat) (e : AlarmEntry) : (setAlarm s k e).adc = s.adc := by
  rfl
@[simp] theorem setAlarm_recd (s : Chip) (k : Nat) (e : AlarmEntry) : (setAlarm s k e).recd = s.recd := by
  rfl
@[simp] theorem setAlarm_mem (s : Chip) (k : Nat) (e : AlarmEntry) : (setAlarm s k e).mem = s.mem := by
  rfl
@[simp] theorem setAlarm_hostMem (s : Chip) (k : Nat) (e : AlarmEntry) : (setAlarm s k e).hostMem = s.hostMem := by
  rfl
@[simp] theorem setAlarm_fills (s : Chip) (k : Nat) (e : AlarmEntry) : (setAlarm s k e).fills = s.fills := by
  rfl
@[simp] theorem setAlarm_isl (s : Chip) (k : Nat) (e : AlarmEntry) : (setAlarm s k e).isl = s.isl := by
  rfl
@[simp] theorem setAlarm_dsp (s : Chip) (k : Nat) (e : AlarmEntry) : (setAlarm s k e).dsp = s.dsp := by
  rfl
@[simp] theorem setAlarm_memu (s : Chip) (k : Nat) (e : AlarmEntry) : (setAlarm s k e).memu = s.memu := by
  rfl
@[simp] theorem setAlarm_hst (s : Chip) (k : Nat) (e : AlarmEntry) : (setAlarm s k e).hst = s.hst := by
  rfl
@[simp] theorem setAlarm_pwr (s : Chip) (k : Nat) (e : AlarmEntry) : (setAlarm s k e).pwr = s.pwr := by
  rfl
@[simp] theorem setAlarm_boot (s : Chip) (k : Nat) (e : AlarmEntry) : (setAlarm s k e).boot = s.boot := by
  rfl
@[simp] theorem setAlarm_patch (s : Chip) (k : Nat) (e : AlarmEntry) : (setAlarm s k e).patch = s.patch := by
  rfl
@[simp] theorem setAlarm_odo (s : Chip) (k : Nat) (e : AlarmEntry) : (setAlarm s k e).odo = s.odo := by
  rfl
@[simp] theorem setAlarm_rst (s : Chip) (k : Nat) (e : AlarmEntry) : (setAlarm s k e).rst = s.rst := by
  rfl
@[simp] theorem setAlarm_pins (s : Chip) (k : Nat) (e : AlarmEntry) : (setAlarm s k e).pins = s.pins := by
  rfl
@[simp] theorem setAlarm_notes (s : Chip) (k : Nat) (e : AlarmEntry) : (setAlarm s k e).notes = s.notes := by
  rfl
@[simp] theorem setAlarm_acc (s : Chip) (k : Nat) (e : AlarmEntry) : (setAlarm s k e).acc = s.acc := by
  rfl
@[simp] theorem setAlarm_draws (s : Chip) (k : Nat) (e : AlarmEntry) : (setAlarm s k e).draws = s.draws := by
  rfl

@[simp] theorem Chip.alarm_shadow (s : Chip) (c v d : Nat) : (s.alarm c v d).shadow = s.shadow := by
  unfold Chip.alarm; dsimp only
  (repeat' split) <;> simp
@[simp] theorem Chip.alarm_tb (s : Chip) (c v d : Nat) : (s.alarm c v d).tb = s.tb := by
  unfold Chip.alarm; dsimp only
  (repeat' split) <;> simp
@[simp] theorem Chip.alarm_lowCaps (s : Chip) (c v d : Nat) : (s.alarm c v d).lowCaps = s.lowCaps := by
  unfold Chip.alarm; dsimp only
  (repeat' split) <;> simp
@[simp] theorem Chip.alarm_store (s : Chip) (c v d : Nat) : (s.alarm c v d).store = s.store := by
  unfold Chip.alarm; dsimp only
  (repeat' split) <;> simp
@[simp] theorem Chip.alarm_eng (s : Chip) (c v d : Nat) : (s.alarm c v d).eng = s.eng := by
  unfold Chip.alarm; dsimp only
  (repeat' split) <;> simp
@[simp] theorem Chip.alarm_ewn (s : Chip) (c v d : Nat) : (s.alarm c v d).ewn = s.ewn := by
  unfold Chip.alarm; dsimp only
  (repeat' split) <;> simp
@[simp] theorem Chip.alarm_can (s : Chip) (c v d : Nat) : (s.alarm c v d).can = s.can := by
  unfold Chip.alarm; dsimp only
  (repeat' split) <;> simp
@[simp] theorem Chip.alarm_fb (s : Chip) (c v d : Nat) : (s.alarm c v d).fb = s.fb := by
  unfold Chip.alarm; dsimp only
  (repeat' split) <;> simp
@[simp] theorem Chip.alarm_adc (s : Chip) (c v d : Nat) : (s.alarm c v d).adc = s.adc := by
  unfold Chip.alarm; dsimp only
  (repeat' split) <;> simp
@[simp] theorem Chip.alarm_recd (s : Chip) (c v d : Nat) : (s.alarm c v d).recd = s.recd := by
  unfold Chip.alarm; dsimp only
  (repeat' split) <;> simp
@[simp] theorem Chip.alarm_mem (s : Chip) (c v d : Nat) : (s.alarm c v d).mem = s.mem := by
  unfold Chip.alarm; dsimp only
  (repeat' split) <;> simp
@[simp] theorem Chip.alarm_hostMem (s : Chip) (c v d : Nat) : (s.alarm c v d).hostMem = s.hostMem := by
  unfold Chip.alarm; dsimp only
  (repeat' split) <;> simp
@[simp] theorem Chip.alarm_fills (s : Chip) (c v d : Nat) : (s.alarm c v d).fills = s.fills := by
  unfold Chip.alarm; dsimp only
  (repeat' split) <;> simp
@[simp] theorem Chip.alarm_isl (s : Chip) (c v d : Nat) : (s.alarm c v d).isl = s.isl := by
  unfold Chip.alarm; dsimp only
  (repeat' split) <;> simp
@[simp] theorem Chip.alarm_dsp (s : Chip) (c v d : Nat) : (s.alarm c v d).dsp = s.dsp := by
  unfold Chip.alarm; dsimp only
  (repeat' split) <;> simp
@[simp] theorem Chip.alarm_memu (s : Chip) (c v d : Nat) : (s.alarm c v d).memu = s.memu := by
  unfold Chip.alarm; dsimp only
  (repeat' split) <;> simp
/-- An alarm changes nothing of the host ports but the HSR sequence number. -/
theorem Chip.alarm_hst (s : Chip) (c v d : Nat) : (s.alarm c v d).hst = { s.hst with hsrSeq := (s.alarm c v d).hst.hsrSeq } := by
  unfold Chip.alarm; dsimp only
  (repeat' split) <;> simp [alarmDirty_hst]
@[simp] theorem Chip.alarm_pwr (s : Chip) (c v d : Nat) : (s.alarm c v d).pwr = s.pwr := by
  unfold Chip.alarm; dsimp only
  (repeat' split) <;> simp
@[simp] theorem Chip.alarm_boot (s : Chip) (c v d : Nat) : (s.alarm c v d).boot = s.boot := by
  unfold Chip.alarm; dsimp only
  (repeat' split) <;> simp
@[simp] theorem Chip.alarm_patch (s : Chip) (c v d : Nat) : (s.alarm c v d).patch = s.patch := by
  unfold Chip.alarm; dsimp only
  (repeat' split) <;> simp
@[simp] theorem Chip.alarm_odo (s : Chip) (c v d : Nat) : (s.alarm c v d).odo = s.odo := by
  unfold Chip.alarm; dsimp only
  (repeat' split) <;> simp
@[simp] theorem Chip.alarm_rst (s : Chip) (c v d : Nat) : (s.alarm c v d).rst = s.rst := by
  unfold Chip.alarm; dsimp only
  (repeat' split) <;> simp
@[simp] theorem Chip.alarm_pins (s : Chip) (c v d : Nat) : (s.alarm c v d).pins = s.pins := by
  unfold Chip.alarm; dsimp only
  (repeat' split) <;> simp
@[simp] theorem Chip.alarm_acc (s : Chip) (c v d : Nat) : (s.alarm c v d).acc = s.acc := by
  unfold Chip.alarm; dsimp only
  (repeat' split) <;> simp
@[simp] theorem Chip.alarm_draws (s : Chip) (c v d : Nat) : (s.alarm c v d).draws = s.draws := by
  unfold Chip.alarm; dsimp only
  (repeat' split) <;> simp

@[simp] theorem enterFault_shadow (s : Chip) (c i : Nat) (b : Bool) : (enterFault s c i b).shadow = s.shadow := by
  unfold enterFault; dsimp only
  split <;> simp
@[simp] theorem enterFault_tb (s : Chip) (c i : Nat) (b : Bool) : (enterFault s c i b).tb = s.tb := by
  unfold enterFault; dsimp only
  split <;> simp
@[simp] theorem enterFault_lowCaps (s : Chip) (c i : Nat) (b : Bool) : (enterFault s c i b).lowCaps = s.lowCaps := by
  unfold enterFault; dsimp only
  split <;> simp
@[simp] theorem enterFault_store (s : Chip) (c i : Nat) (b : Bool) : (enterFault s c i b).store = s.store := by
  unfold enterFault; dsimp only
  split <;> simp
@[simp] theorem enterFault_eng (s : Chip) (c i : Nat) (b : Bool) : (enterFault s c i b).eng = s.eng := by
  unfold enterFault; dsimp only
  split <;> simp
@[simp] theorem enterFault_ewn (s : Chip) (c i : Nat) (b : Bool) : (enterFault s c i b).ewn = s.ewn := by
  unfold enterFault; dsimp only
  split <;> simp
@[simp] theorem enterFault_can (s : Chip) (c i : Nat) (b : Bool) : (enterFault s c i b).can = s.can := by
  unfold enterFault; dsimp only
  split <;> simp
@[simp] theorem enterFault_fb (s : Chip) (c i : Nat) (b : Bool) : (enterFault s c i b).fb = s.fb := by
  unfold enterFault; dsimp only
  split <;> simp
@[simp] theorem enterFault_adc (s : Chip) (c i : Nat) (b : Bool) : (enterFault s c i b).adc = s.adc := by
  unfold enterFault; dsimp only
  split <;> simp
@[simp] theorem enterFault_recd (s : Chip) (c i : Nat) (b : Bool) : (enterFault s c i b).recd = s.recd := by
  unfold enterFault; dsimp only
  split <;> simp
@[simp] theorem enterFault_mem (s : Chip) (c i : Nat) (b : Bool) : (enterFault s c i b).mem = s.mem := by
  unfold enterFault; dsimp only
  split <;> simp
@[simp] theorem enterFault_hostMem (s : Chip) (c i : Nat) (b : Bool) : (enterFault s c i b).hostMem = s.hostMem := by
  unfold enterFault; dsimp only
  split <;> simp
@[simp] theorem enterFault_fills (s : Chip) (c i : Nat) (b : Bool) : (enterFault s c i b).fills = s.fills := by
  unfold enterFault; dsimp only
  split <;> simp
@[simp] theorem enterFault_isl (s : Chip) (c i : Nat) (b : Bool) : (enterFault s c i b).isl = s.isl := by
  unfold enterFault; dsimp only
  split <;> simp
@[simp] theorem enterFault_dsp (s : Chip) (c i : Nat) (b : Bool) : (enterFault s c i b).dsp = s.dsp := by
  unfold enterFault; dsimp only
  split <;> simp
@[simp] theorem enterFault_memu (s : Chip) (c i : Nat) (b : Bool) : (enterFault s c i b).memu = s.memu := by
  unfold enterFault; dsimp only
  split <;> simp
/-- A fault changes nothing of the host ports but the HSR sequence number. -/
theorem enterFault_hst (s : Chip) (c i : Nat) (b : Bool) :
    (enterFault s c i b).hst = { s.hst with hsrSeq := (enterFault s c i b).hst.hsrSeq } := by
  unfold enterFault; dsimp only
  split <;> (rw [Chip.alarm_hst]; simp)
@[simp] theorem enterFault_pwr (s : Chip) (c i : Nat) (b : Bool) : (enterFault s c i b).pwr = s.pwr := by
  unfold enterFault; dsimp only
  split <;> simp
@[simp] theorem enterFault_boot (s : Chip) (c i : Nat) (b : Bool) : (enterFault s c i b).boot = s.boot := by
  unfold enterFault; dsimp only
  split <;> simp
@[simp] theorem enterFault_patch (s : Chip) (c i : Nat) (b : Bool) : (enterFault s c i b).patch = s.patch := by
  unfold enterFault; dsimp only
  split <;> simp
@[simp] theorem enterFault_rst (s : Chip) (c i : Nat) (b : Bool) : (enterFault s c i b).rst = s.rst := by
  unfold enterFault; dsimp only
  split <;> simp
@[simp] theorem enterFault_pins (s : Chip) (c i : Nat) (b : Bool) : (enterFault s c i b).pins = s.pins := by
  unfold enterFault; dsimp only
  split <;> simp
@[simp] theorem enterFault_acc (s : Chip) (c i : Nat) (b : Bool) : (enterFault s c i b).acc = s.acc := by
  unfold enterFault; dsimp only
  split <;> simp
@[simp] theorem enterFault_draws (s : Chip) (c i : Nat) (b : Bool) : (enterFault s c i b).draws = s.draws := by
  unfold enterFault; dsimp only
  split <;> simp

theorem Chip.odoInc_cold (s : Chip) (k n : Nat) : (s.odoInc k n).books.cold = s.books.cold := by
  unfold Chip.odoInc; dsimp only; split <;> simp [Chip.led]

theorem Chip.logEvent_cold (s : Chip) (k c i : Nat) : (s.logEvent k c i).books.cold = s.books.cold := by
  unfold Chip.logEvent; dsimp only; split; · rfl
  split <;> rfl

theorem Chip.signal_cold (s : Chip) (v : Nat) : (s.signal v).books.cold = s.books.cold := by
  simp only [Chip.signal]; split <;> rfl

theorem alarmDirty_cold (s : Chip) (k v : Nat) : (alarmDirty s k v).books.cold = s.books.cold := by
  unfold alarmDirty; dsimp only; split <;> split <;> exact Chip.signal_cold ..

theorem setAlarm_cold (s : Chip) (k : Nat) (e : AlarmEntry) : (setAlarm s k e).books.cold = s.books.cold := rfl

theorem Chip.alarm_cold (s : Chip) (c v d : Nat) : (s.alarm c v d).books.cold = s.books.cold := by
  unfold Chip.alarm; dsimp only
  (repeat' split) <;> simp [alarmDirty_cold, setAlarm_cold, Chip.logEvent_cold]

theorem enterFault_cold (s : Chip) (c i : Nat) (b : Bool) : (enterFault s c i b).books.cold = s.books.cold := by
  unfold enterFault; dsimp only
  split <;> simp [Chip.alarm_cold, Chip.odoInc_cold]

theorem Chip.flag_rd_ne (s : Chip) {a evt : Nat} (en b e : Nat) (h : a ≠ evt) : (s.flag evt en b e).rd a = s.rd a := by
  rw [Chip.rd_congr (Chip.flag_regs ..), Chip.wrBit, Chip.rd_wr_ne _ _ h]

theorem Chip.odoInc_rd_ne (s : Chip) (k n : Nat) {a : Nat} (h : a ≠ Reg.odoEvt) : (s.odoInc k n).rd a = s.rd a := by
  unfold Chip.odoInc; dsimp only; split
  · rfl
  · rw [Chip.flag_rd_ne _ _ _ _ h]; rfl

theorem Chip.logEvent_rd_ne (s : Chip) (k c i : Nat) {a : Nat} (h : a ∉ [Reg.ldgLogskip, Reg.ldgLogseq, Reg.ldgLogshed]) :
    (s.logEvent k c i).rd a = s.rd a := by
  simp only [List.mem_cons, List.not_mem_nil, or_false, not_or] at h
  unfold Chip.logEvent; dsimp only; split
  · rw [Chip.rd_bump_ne _ h.1]; rfl
  · split
    · rw [Chip.rd_bump_ne _ h.2.2, Chip.rd_wr_ne _ _ h.2.1]; rfl
    · rw [Chip.rd_wr_ne _ _ h.2.1]; rfl

/-- Marking an entry changed writes its dirty bit and ALMTX alone. -/
theorem alarmDirty_rd_ne (x : Chip) (k w : Nat) {a : Nat} (h1 : a ≠ Reg.hpcAlmdirty (k / 32)) (ht : a ≠ Reg.tlnAlmtx) :
    (alarmDirty x k w).rd a = x.rd a := by
  unfold alarmDirty; dsimp only
  have this : ((x.wrBit (Reg.hpcAlmdirty (k / 32)) (k % 32) true).signal w).rd a = x.rd a := x.rd_wr_ne _ h1
  (repeat' split) <;> first
    | exact this
    | exact (Chip.rd_congr rfl a).trans ((Chip.rd_bump_ne _ ht).trans this)

/-- The registers that an alarm may write (16 R751, R752, 19 R858). -/
def alarmRegs : List Nat :=
  [Reg.ldgLogskip, Reg.ldgLogseq, Reg.ldgLogshed, Reg.tlnAlmtx, Reg.hpcAlmcnt, Reg.hpcEvt] ++ (List.range 8).map Reg.hpcAlmdirty

/-- The registers that a fault may write (17 R798). -/
def faultRegs : List Nat := [Reg.sysEvt, Reg.sysFqlost, Reg.odoEvt] ++ alarmRegs

/-- An alarm writes no other register than its own. -/
theorem Chip.alarm_rd_ne (s : Chip) (c v d : Nat) {a : Nat} (h : a ∉ alarmRegs) : (s.alarm c v d).rd a = s.rd a := by
  simp only [alarmRegs, List.cons_append, List.nil_append, List.mem_cons, List.mem_map, List.mem_range, not_or, not_exists, not_and] at h
  obtain ⟨h1, h2, h3, ht, hc, he, hd⟩ := h
  have dirty : ∀ (x : Chip) k w, k ≤ 255 → (alarmDirty x k w).rd a = x.rd a :=
    fun x k w hk => alarmDirty_rd_ne x k w (fun e => hd (k / 32) (by omega) e.symm) ht
  have log : (s.logEvent 1 c v).rd a = s.rd a := s.logEvent_rd_ne _ _ _ (by simp [h1, h2, h3])
  have key : ∀ t k, findAlarm t c = some k → k ≤ 255 := by
    intro t k h
    unfold findAlarm at h
    simp only [Option.map_eq_some_iff] at h
    obtain ⟨e, he, rfl⟩ := h
    have := List.find?_some he
    simp only [Bool.and_eq_true, decide_eq_true_eq] at this
    omega
  have free : ∀ t k, freeAlarm t c = some k → k ≤ 255 := by
    intro t k h
    unfold freeAlarm at h
    split at h
    · cases h
    · have := List.mem_of_find?_eq_some h
      simp only [List.mem_range] at this
      omega
  unfold Chip.alarm; dsimp only
  rw [Chip.rd_wr_ne _ _ hc]
  split
  · rename_i k hk
    split
    · rw [dirty _ _ _ (key _ _ hk)]
      exact log
    · exact log
  · split
    · rename_i k hk
      rw [dirty _ _ _ (free _ _ hk)]
      exact log
    · rw [Chip.flag_rd_ne _ _ _ _ he, dirty _ _ _ (Nat.le_refl _)]
      exact log

/-- A fault writes no other register than its own. -/
theorem enterFault_rd_ne (s : Chip) (c i : Nat) (b : Bool) {a : Nat} (h : a ∉ faultRegs) : (enterFault s c i b).rd a = s.rd a := by
  simp only [faultRegs, List.cons_append, List.nil_append, List.mem_cons, not_or] at h
  obtain ⟨he, hq, ho, ha⟩ := h
  unfold enterFault; dsimp only
  rw [Chip.alarm_rd_ne _ _ _ _ ha]
  split
  · exact (Chip.odoInc_rd_ne _ _ _ ho).trans (Chip.flag_rd_ne _ _ _ _ he)
  · rw [Chip.flag_rd_ne _ _ _ _ he, Chip.rd_bump_ne _ hq, Chip.odoInc_rd_ne _ _ _ ho, Chip.flag_rd_ne _ _ _ _ he]

theorem Chip.odoInc_notes {s : Chip} (k n : Nat) (h : s.rdBit Reg.odoEvten 2 = false) : (s.odoInc k n).notes = s.notes := by
  unfold Chip.odoInc; dsimp only; split
  · rfl
  · rw [Chip.flag_off _ _ (by simpa [Chip.rdBit, Chip.rd] using h)]; rfl

theorem Chip.alarm_notes {s : Chip} (c v d : Nat) (h : s.rdBit Reg.hpcEvten 1 = false) : (s.alarm c v d).notes = s.notes := by
  have dn : Reg.hpcEvten ∉ [Reg.ldgLogskip, Reg.ldgLogseq, Reg.ldgLogshed] := by decide
  unfold Chip.alarm; dsimp only
  (repeat' split) <;> (try simp; done)
  simp only [Chip.wr_notes]
  rw [Chip.flag_off]
  · simp
  · have hn : ∀ (x : Chip) w, (alarmDirty x 255 w).rd Reg.hpcEvten = x.rd Reg.hpcEvten :=
      fun x w => alarmDirty_rd_ne x 255 w (by decide) (by decide)
    unfold Chip.rdBit
    rw [hn]
    show bit ((s.logEvent 1 c v).rd Reg.hpcEvten) 1 = false
    rw [Chip.logEvent_rd_ne _ _ _ _ dn]
    exact h

/-- A fault whose events are off leaves no event. -/
theorem enterFault_notes {s : Chip} (c i : Nat) (b : Bool) (q : FaultQuiet s) : (enterFault s c i b).notes = s.notes := by
  obtain ⟨q0, q2, qo, qh⟩ := q
  have e1 : ∀ {a : Nat} (k : Nat), a ≠ Reg.sysEvt → a ≠ Reg.odoEvt → ((s.flag Reg.sysEvt Reg.sysEvten 0 0).odoInc k 1).rd a = s.rd a :=
    fun k h1 h2 => (Chip.odoInc_rd_ne _ _ _ h2).trans (Chip.flag_rd_ne _ _ _ _ h1)
  have n1 : ((s.flag Reg.sysEvt Reg.sysEvten 0 0).odoInc (26 + faultClass c) 1).notes = s.notes := by
    rw [Chip.odoInc_notes _ _ (by unfold Chip.rdBit; rw [Chip.flag_rd_ne _ _ _ _ (by decide)]; exact qo), Chip.flag_off _ _ q0]
    rfl
  unfold enterFault; dsimp only
  rw [Chip.alarm_notes]
  · split
    · exact n1
    · rw [Chip.flag_off]
      · exact n1
      · unfold Chip.rdBit
        rw [Chip.rd_bump_ne _ (by decide), e1 _ (by decide) (by decide)]
        exact q2
  · split
    · unfold Chip.rdBit
      show bit (((s.flag Reg.sysEvt Reg.sysEvten 0 0).odoInc (26 + faultClass c) 1).rd Reg.hpcEvten) 1 = false
      rw [e1 _ (by decide) (by decide)]
      exact qh
    · unfold Chip.rdBit
      rw [Chip.flag_rd_ne _ _ _ _ (by decide), Chip.rd_bump_ne _ (by decide), e1 _ (by decide) (by decide)]
      exact qh

/-- What stands at the head of a host port's queue depends on the registers of H0's rings, host memory, the P3 queues and the ports alone. -/
theorem headUnknown_congr {s t : Chip} (p : HostPort) (hm : t.hostMem = s.hostMem) (hs : t.store = s.store)
    (hh : t.hst = { s.hst with hsrSeq := t.hst.hsrSeq })
    (hr : ∀ a ∈ [Reg.hpcStat, Reg.hpcCqctl, Reg.hpcCqhead, Reg.hpcCqtail, Reg.hpcCqbaselo, Reg.hpcCqbasehi, Reg.hpcRqhead, Reg.hpcRqtail,
      Reg.sysStat], t.rd a = s.rd a) : headUnknown t p = headUnknown s p := by
  have hw : ∀ k, wrsigRuns t k = wrsigRuns s k := fun k => by unfold wrsigRuns; rw [hh]
  have hl : t.hst.lanQ = s.hst.lanQ := by rw [hh]
  simp only [List.forall_mem_cons, List.not_mem_nil, false_implies, implies_true, and_true] at hr
  obtain ⟨r1, r2, r3, r4, r5, r6, r7, r8, r9⟩ := hr
  have en : ringEntries t = ringEntries s := by simp [ringEntries, Chip.rdF, r2]
  have ent : h0Entry t = h0Entry s := by simp [h0Entry, addr64, Chip.hostByte, en, r3, r5, r6, hm]
  have rdy : h0Ready t = h0Ready s := by
    simp only [h0Ready, h0Waiting, h0Posted, rspRoom, h0Room, h0Up, Chip.rdBit, ent, en, hw, hs, r1, r2, r3, r4, r7, r8]
  cases p <;> simp [headUnknown, rdy, ent, hw, hl, Chip.booted, Chip.rdBit, r9]

/-- A fault whose events are off leaves nothing behind. -/
theorem enterFault_still {s : Chip} (c i : Nat) (b : Bool) (h : Still s) (q : FaultQuiet s) : Still (enterFault s c i b) := by
  have hu : ∀ p, headUnknown (enterFault s c i b) p = headUnknown s p := fun p =>
    headUnknown_congr p (by simp) (by simp) (enterFault_hst s c i b) (fun a ha => enterFault_rd_ne s c i b (by revert a; decide))
  exact ⟨(enterFault_notes c i b q).trans h.1, (congrArg Recorder.buf (enterFault_recd s c i b)).trans h.2.1,
    (enterFault_cold s c i b).trans h.2.2.1, (hu _).trans h.2.2.2.1, (hu _).trans h.2.2.2.2⟩

/-- Entering a fault with a place in the queue puts it at the end (17 R798). -/
theorem enterFault_queue (s : Chip) (c i : Nat) (b : Bool) (h : s.books.faultQ.length < 16) :
    (enterFault s c i b).books.faultQ = s.books.faultQ ++ [⟨c, faultClass c, b, i, s.tb.tick⟩] := by
  have al : ∀ (x : Chip) c v d, (x.alarm c v d).books.faultQ = x.books.faultQ := by
    intro x c v d
    have lg : ∀ (y : Chip) k c i, (y.logEvent k c i).books.faultQ = y.books.faultQ := by
      intro y k c i
      unfold Chip.logEvent; dsimp only; split; · rfl
      split <;> rfl
    have ad : ∀ (y : Chip) k v, (alarmDirty y k v).books.faultQ = y.books.faultQ := by
      intro y k v
      have sg : ∀ (z : Chip), (z.signal v).books.faultQ = z.books.faultQ := fun z => by
        simp only [Chip.signal]; split <;> rfl
      unfold alarmDirty; dsimp only; split <;> split <;> exact sg _
    have sa : ∀ (y : Chip) k e, (setAlarm y k e).books.faultQ = y.books.faultQ := fun _ _ _ => rfl
    unfold Chip.alarm; dsimp only
    (repeat' split) <;> simp [lg, ad, sa]
  have od : ∀ (x : Chip) k n, (x.odoInc k n).books.faultQ = x.books.faultQ := by
    intro x k n
    unfold Chip.odoInc; dsimp only; split <;> simp [Chip.led]
  unfold enterFault; dsimp only
  rw [al, if_pos (by rw [od, Chip.flag_books]; exact h)]
  simp [od]

end Sys2Proof.Machine
end

