-- ==== Sys2Proof/Laws/Crc.lean ====
section
/-!
SUPPORT. The CRC of a byte list has 32 bits, and reads back from the bytes it is stored in.
-/

namespace Sys2Proof.Machine

theorem ofLe_leBytes (k n : Nat) : ofLe (leBytes k n) = n % 256 ^ k := by
  induction k generalizing n with
  | zero => simp [leBytes, ofLe, Nat.mod_one]
  | succ k ih => simp [leBytes, ofLe, ih, pow_succ', Nat.mod_mul]

theorem leBytes_length (k n : Nat) : (leBytes k n).length = k := by
  induction k generalizing n with
  | zero => rfl
  | succ k ih => simp [leBytes, ih]

theorem crcBit_lt {p r : Nat} (hp : p < 2 ^ 32) (hr : r < 2 ^ 32) : crcBit p r < 2 ^ 32 := by
  unfold crcBit
  split
  · exact Nat.xor_lt_two_pow (by omega) hp
  · omega

theorem crcByte_lt {p r : Nat} (b : Byte) (hp : p < 2 ^ 32) (hr : r < 2 ^ 32) : crcByte p r b < 2 ^ 32 := by
  have h : Nat.xor r b.toNat < 2 ^ 32 := Nat.xor_lt_two_pow hr (by have := b.isLt; omega)
  unfold crcByte
  iterate 8 apply crcBit_lt hp
  exact h

theorem crcRefl_lt {p : Nat} (bs : List Byte) (hp : p < 2 ^ 32) : crcRefl p bs < 2 ^ 32 := by
  have h : ∀ (l : List Byte) (r : Nat), r < 2 ^ 32 → l.foldl (crcByte p) r < 2 ^ 32 := by
    intro l
    induction l with
    | nil => exact fun _ h => h
    | cons b l ih => exact fun r hr => ih _ (crcByte_lt b hp hr)
  exact Nat.xor_lt_two_pow (h _ _ (by decide)) (by decide)

theorem crc32c_lt (bs : List Byte) : crc32c bs < 2 ^ 32 := crcRefl_lt bs (by decide)

/-- A CRC stored behind the bytes it covers reads back as it is. -/
theorem leAt_crc (x : List Byte) (n : Nat) (h : x.length = n) : leAt (x ++ leBytes 4 (crc32c x)) n 4 = crc32c x := by
  have hd : (x ++ leBytes 4 (crc32c x)).drop n = leBytes 4 (crc32c x) := by rw [← h]; simp
  have ht : (leBytes 4 (crc32c x)).take 4 = leBytes 4 (crc32c x) := List.take_of_length_le (by simp [leBytes_length])
  unfold leAt sliceB
  rw [hd]
  simp only [padTo, ht, leBytes_length]
  simp only [Nat.sub_self, List.replicate_zero, List.append_nil]
  rw [ofLe_leBytes]
  exact Nat.mod_eq_of_lt (by have := crc32c_lt x; omega)

end Sys2Proof.Machine
end

