-- ==== Sys2Proof/Laws/Memory.lean ====
section
/-!
SUPPORT. Every memory operation keeps the canonical form: addresses strictly rising.
-/

namespace Sys2Proof.Machine

theorem Memory.wf_iff (m : List Host.Cell) : Memory.wf m = true ↔ Tab.Rising m := by
  induction m with
  | nil => simp [Memory.wf, Tab.Rising]
  | cons x r ih =>
    obtain ⟨a, b⟩ := x
    cases r with
    | nil => simp [Memory.wf, Tab.Rising]
    | cons y q =>
      obtain ⟨c, d⟩ := y
      rw [Memory.wf, Bool.and_eq_true, ih, Tab.rising_cons (j := a)]
      simp only [decide_eq_true_eq, List.mem_cons, forall_eq_or_imp]
      constructor
      · rintro ⟨hac, hr⟩
        exact ⟨⟨hac, fun e he => lt_trans hac ((Tab.rising_cons.1 hr).1 e he)⟩, hr⟩
      · rintro ⟨⟨hac, _⟩, hr⟩
        exact ⟨hac, hr⟩

theorem Memory.wf_filter {m : List Host.Cell} (p : Host.Cell → Bool) (h : Memory.wf m = true) : Memory.wf (m.filter p) = true := by
  rw [Memory.wf_iff] at *
  exact h.sublist (List.filter_sublist.map _)

theorem Memory.wf_memSet {m : List Host.Cell} (a : Nat) (b : Byte) (h : Memory.wf m = true) : Memory.wf (memSet m a b) = true := by
  rw [Memory.wf_iff] at *
  exact Tab.rising_ins b (Tab.rising_erase a h) fun e he => (Tab.mem_erase he).2

theorem cellsFrom_mem {bs : List Byte} {a : Nat} {e : Host.Cell} (h : e ∈ cellsFrom a bs) : a ≤ e.1 ∧ e.1 < a + bs.length := by
  induction bs generalizing a with
  | nil => cases h
  | cons b r ih =>
    rcases List.mem_cons.1 h with rfl | h
    · simp
    · have := ih h
      simp only [List.length_cons]
      omega

theorem cellsFrom_rising (a : Nat) (bs : List Byte) : Tab.Rising (cellsFrom a bs) := by
  induction bs generalizing a with
  | nil => simp [cellsFrom, Tab.Rising]
  | cons b r ih =>
    refine Tab.rising_cons.2 ⟨fun e he => ?_, ih (a + 1)⟩
    have := cellsFrom_mem he
    omega

theorem Tab.rising_append {t u : Tab Byte} (ht : t.Rising) (hu : u.Rising) (h : ∀ x ∈ t, ∀ y ∈ u, x.1 < y.1) : Tab.Rising (t ++ u) := by
  unfold Tab.Rising at *
  rw [List.map_append, List.pairwise_append]
  refine ⟨ht, hu, ?_⟩
  simp only [List.mem_map]
  rintro _ ⟨x, hx, rfl⟩ _ ⟨y, hy, rfl⟩
  exact h x hx y hy

theorem Memory.wf_memPut {m : List Host.Cell} (a : Nat) (bs : List Byte) (h : Memory.wf m = true) :
    Memory.wf (memPut m a bs) = true := by
  have hf := fun p => (Memory.wf_iff _).1 (Memory.wf_filter p h)
  rw [Memory.wf_iff]
  unfold memPut
  refine Tab.rising_append (Tab.rising_append (hf _) (cellsFrom_rising a bs) fun x hx y hy => ?_) (hf _) fun x hx y hy => ?_
  · have := (List.mem_filter.1 hx).2
    have := cellsFrom_mem hy
    simp only [decide_eq_true_eq] at *
    omega
  · have hy' := (List.mem_filter.1 hy).2
    rcases List.mem_append.1 hx with hx | hx
    · have := (List.mem_filter.1 hx).2
      simp only [decide_eq_true_eq] at *
      omega
    · have := cellsFrom_mem hx
      simp only [decide_eq_true_eq] at *
      omega

theorem Chip.putBytes_wf {s : Chip} (a : Nat) (bs : List Byte) (h : Memory.wf s.mem = true) : Memory.wf (s.putBytes a bs).mem = true :=
  Memory.wf_memPut a bs h

theorem Chip.putHost_wf {s : Chip} (a : Nat) (bs : List Byte) (h : Memory.wf s.hostMem = true) :
    Memory.wf (s.putHost a bs).hostMem = true :=
  Memory.wf_memPut a bs h

theorem Chip.fillMem_wf {s : Chip} (lo len pat : Nat) (h : Memory.wf s.mem = true) : Memory.wf (s.fillMem lo len pat).mem = true :=
  Memory.wf_filter _ h

theorem Chip.writeBytes_wf {s : Chip} (a : Nat) (bs : List Byte) (h : Memory.wf s.mem = true) : Memory.wf (s.writeBytes a bs).mem = true :=
  Memory.wf_memPut a bs h

/-- Reading words never writes memory but through `rewriteWord`, which keeps its form. -/
theorem rewriteWord_wf {s : Chip} (w : Nat) (xs : List Nat) (h : Memory.wf s.mem = true) : Memory.wf (rewriteWord s w xs).mem = true := by
  have fl : ∀ (l : List (Nat × Nat)) (y : Chip), (l.foldl (fun y e =>
      if e.1 = 0 then y else setFlips y (8 * w + e.2) (e.1 + 256 * checkBits e.1)) y).mem = y.mem := by
    intro l
    induction l with
    | nil => exact fun _ => rfl
    | cons e r ih => intro y; rw [List.foldl_cons, ih]; split <;> rfl
  unfold rewriteWord; dsimp only
  have h0 : Memory.wf (if (List.range 8).any (fun i => neverWritten s (8 * w + i)) then s.putBytes (8 * w) (s.bytes (8 * w) 8) else s).mem
      = true := by
    split
    · exact Chip.putBytes_wf _ _ h
    · exact h
  split
  · split
    · exact h0
    · exact Chip.putBytes_wf _ _ h0
  · rw [fl]; exact h0

@[simp] theorem Chip.memFlag_mem (s : Chip) (e : Nat) : (s.memFlag e).mem = s.mem := by
  unfold Chip.memFlag Chip.flag; dsimp only; split <;> rfl

theorem noteRead_mem (s : Chip) (c a r k : Nat) : (noteRead s c a r k).mem = s.mem := by
  unfold noteRead; dsimp only
  (repeat' split) <;> simp

theorem hardWord_wf {s : Chip} (w : Nat) (xs : List Nat) (h : Memory.wf s.mem = true) : Memory.wf (hardWord s w xs).mem = true := by
  unfold hardWord; dsimp only
  split
  · simpa using h
  · split
    · simpa using h
    · simp only [Chip.odoInc_mem, Chip.memFlag_mem, Chip.bump_mem]
      exact rewriteWord_wf w xs h

theorem trackCe_wf {s : Chip} (w : Nat) (xs : List Nat) (h : Memory.wf s.mem = true) : Memory.wf (trackCe s w xs).mem = true := by
  unfold trackCe; dsimp only
  (repeat' split) <;> first
    | exact h
    | exact hardWord_wf _ _ (by simpa [setTrack] using h)
    | simpa [setTrack] using h

theorem readOne_wf {src lo hi : Nat} {r : SpanRead} (w : Nat) (h : Memory.wf r.chip.mem = true) :
    Memory.wf (readOne src lo hi r w).chip.mem = true := by
  unfold readOne; dsimp only
  (repeat' split) <;> first
    | exact trackCe_wf _ _ (by simpa [noteRead_mem] using h)
    | simpa [noteRead_mem] using h

/-- A read of a span keeps memory in its canonical form. -/
theorem readSpan_wf {s : Chip} (src p n : Nat) (h : Memory.wf s.mem = true) : Memory.wf (readSpan s src p n).chip.mem = true := by
  have go : ∀ (l : List Nat) (r : SpanRead), Memory.wf r.chip.mem = true → Memory.wf (l.foldl (readOne src p (p + n)) r).chip.mem = true := by
    intro l
    induction l with
    | nil => exact fun _ h => h
    | cons w t ih => exact fun r h => ih _ (readOne_wf w h)
  exact go _ _ h

@[simp] theorem clearChecks_mem (s : Chip) (a n : Nat) : (clearChecks s a n).mem = s.mem := by
  unfold clearChecks; split <;> rfl

/-- Whole words that the fill engine writes keep memory in its canonical form. -/
theorem fillWords_wf {s : Chip} (a n pat : Nat) (h : Memory.wf s.mem = true) : Memory.wf (fillWords s a n pat).mem = true := by
  unfold fillWords
  rw [Chip.bumpBy_mem, clearChecks_mem]
  exact Chip.fillMem_wf a _ pat h

theorem advanceFill_wf {s : Chip} (h : Memory.wf s.mem = true) : Memory.wf (advanceFill s).mem = true := by
  unfold advanceFill; dsimp only
  split
  · exact h
  · rename_i a n pat t _
    split
    · exact h
    · exact fillWords_wf a _ pat h

theorem dramPart_wf {s : Chip} (a : Nat) (bs : List Byte) (h : Memory.wf s.mem = true) : Memory.wf (dramPart s a bs).1.mem = true := by
  unfold dramPart readBytes; dsimp only
  split
  · exact h
  · split
    · exact readSpan_wf _ _ _ h
    · exact Chip.writeBytes_wf _ _ (readSpan_wf _ _ _ h)

/-- A write of shared SRAM or DRAM keeps memory in its canonical form. -/
theorem memWrite_wf {s : Chip} (a : Nat) (bs : List Byte) (h : Memory.wf s.mem = true) : Memory.wf (memWrite s a bs).1.mem = true := by
  unfold memWrite agentWrite; dsimp only
  split
  · exact Chip.writeBytes_wf _ _ (advanceFill_wf h)
  · refine dramPart_wf _ _ ?_
    rw [clearChecks_mem]
    split
    · exact dramPart_wf _ _ (advanceFill_wf h)
    · exact Chip.writeBytes_wf _ _ (dramPart_wf _ _ (advanceFill_wf h))

theorem Chip.reset_mem_wf : Memory.wf Chip.reset.mem = true := rfl

/-- Every register write keeps the register file's canonical form. -/
theorem Chip.wr_regsOk {s : Chip} (a : Nat) (w : Word) (h : RegsOk s.regs) : RegsOk (s.wr a w).regs :=
  Tab.wf_set regCold a w h

theorem byteErr_zero : byteErr 0 = (0, 0) := by decide +kernel

/-- A place that has been written has no damage while no flip stands anywhere. -/
theorem flipsAt_written {s : Chip} {p : Nat} (hf : s.memu.flips = []) (hw : neverWritten s p = false) : flipsAt s p = 0 := by
  simp only [flipsAt, hf, Tab.get?, hw]
  rfl

/-- A word of SRAM or of a block RAM whose bytes have no damage reads as it was written, as CLEAN. -/
theorem wordErr_clean {s : Chip} {word : Nat} (lo hi : Nat) (hd : 8 * word < 0x04000000 ∨ 0x06000000 ≤ 8 * word ∧ 8 * word < 0x100000000)
    (h : ∀ i, i < 8 → flipsAt s (8 * word + i) = 0) :
    wordErr s word lo hi = (List.replicate 8 0, 0) := by
  have hD : isDram (8 * word) = false := decide_eq_false (by omega)
  have hM : isMram (8 * word) = false := decide_eq_false (by omega)
  have hE : (List.range 8).map (fun i => if lo ≤ 8 * word + i ∧ 8 * word + i < hi then byteErr (flipsAt s (8 * word + i)) else (0, 0)) =
      List.replicate 8 (0, 0) :=
    List.eq_replicate_iff.2 ⟨by simp, fun b hb => by
      obtain ⟨i, hi, rfl⟩ := List.mem_map.1 hb
      rw [h i (List.mem_range.1 hi), byteErr_zero, ite_self]⟩
  simp only [wordErr, hD, hM, Bool.false_eq_true, if_false, hE]
  rfl

/-- Bytes of SRAM or of a block RAM are undamaged where no place of their words has damage. -/
theorem undamaged_block {s : Chip} {p n : Nat} (hd : p + n ≤ 0x04000000 ∨ 0x06000000 ≤ p ∧ p + n ≤ 0x100000000)
    (h : ∀ q, p / 8 * 8 ≤ q → q < p + n + 7 → flipsAt s q = 0) : Undamaged s p n := fun w h1 h2 =>
  wordErr_clean p (p + n) (by omega) fun i hi => h (8 * w + i) (by omega) (by omega)

/-- The store, the journal SRAM and the tile windows are initialised (13 R603): while no flip stands anywhere they are undamaged. -/
theorem undamaged_initialised {s : Chip} {p n : Nat} (hf : s.memu.flips = [])
    (hp : 0x02000000 ≤ p ∧ p + n + 8 ≤ 0x04000000 ∨ 0x18000000 ≤ p ∧ p + n + 8 ≤ 0x19000000) : Undamaged s p n :=
  undamaged_block (by omega) fun q h1 h2 => flipsAt_written hf (by
    have hs : isSram q = false := decide_eq_false (by omega)
    have hd : isDram q = false := decide_eq_false (by omega)
    have ht : isTcmAt q = false := decide_eq_false (by simp only [tcmBase]; omega)
    have hi : isIslandSram q = false := decide_eq_false (by simp only [islandSram]; omega)
    simp only [neverWritten, hs, hd, ht, hi, Bool.or_false, Bool.false_and])

end Sys2Proof.Machine
end

