-- ==== Sys2Proof/Tests/Slice0.lean ====
section
/-!
SUPPORT. Tests: ill-formed commands are refused, every statement's hypotheses are met by a concrete state, and single steps against results
worked out by hand from the rules of the spec.
-/

namespace Sys2Proof.Tests

open Sys2Proof.Machine

set_option Elab.async false

/-- The Poermun that has left cold reset. -/
def base : Chip := { Chip.reset with boot := { Boot.zero with on := true } }

/-- The Poermun after BOOT_DONE, with no consist loaded. -/
def run : Chip := base.wrBit Reg.sysStat 0 true

/-- The state with this Poermun and no command waiting. -/
def st (c : Chip) : State := ⟨c, []⟩

/-- Port JTAG open at the debug instruction, JTAGCLOSE not blown (16 R731). -/
def jtag : Chip := { run with hst := { run.hst with
  tap := 4
  fuses := [(Reg.secFuse, 0)] } }

/-- A host command at port JTAG. -/
def cmd (arg0 arg1 : Word) (body : List Byte) : HostCmd := ⟨.jtag, 0, false, 0, arg0, arg1, body⟩

/-- The events that a fault may raise switched off. -/
def calm (c : Chip) : Chip := ((c.wr Reg.hpcEvten 0).wr Reg.sysEvten 0).wr Reg.odoEvten 0

/-- TICK moved to `t`. -/
def atTick (c : Chip) (t : Nat) : Chip := { c with tb := { c.tb with
  tick := t
  base := 10000 * t } }

/-- Phase `p` of the tick reached. -/
def atPh (c : Chip) (p : Nat) : Chip := c.atPhase p

/-- A declared SID: an output written by P3 from supervisors and the hosts, limits -10 to 10, fallback 3, force line 2. -/
def decl (guard : Bool) : SidDecl := ⟨.p3 false true true, true, guard, 5, 0, 3, -10, 10, false, 2⟩

/-- A table with one entry reads as that entry at its key and as the default elsewhere. -/
theorem tab_one {α : Type} (d : α) (k a : Nat) (v : α) : Tab.get d [(k, v)] a = if a = k then v else d := by
  simp only [Tab.get, eq_comm]

/-! Ill-formed commands are refused, at the first value outside each range. -/

theorem test_wf_body : (Instr.ping (cmd 0 0 (List.replicate 1457 0))).wf = false := by
  simp only [Instr.wf, HostCmd.wf, cmd, List.length_replicate]
  decide
theorem test_wf_tickBoundary : (Instr.tickBoundary 0 1000000000 []).wf = false ∧ (Instr.tickBoundary 0 0 [32]).wf = false := by decide
theorem test_wf_slotEnable : (Instr.slotEnable (.sup 0) 0 0 2).wf = false ∧ (Instr.slotDisable (.sup 0) 0 0 1).wf = false := by decide
theorem test_wf_compartmentReturn : (Instr.compartmentReturn true ⟨0, true⟩ 400 (List.replicate 64 0)).wf = false ∧
    (Instr.compartmentReturn true ⟨0, true⟩ 399 (List.replicate 63 0)).wf = false := by decide
theorem test_wf_coachHeaderReturn : (Instr.coachHeaderReturn true (List.replicate 65 0) 0).wf = false := by decide
theorem test_wf_nodes : (Instr.uplinkFrame 0 [] [] ⟨true, true⟩).wf = false ∧ (Instr.nctlReadmit .h0 63).wf = false ∧ (Instr.nctlExclude .h0 0 true).wf = false := by
  decide
theorem test_wf_copies : (Instr.enumReturn [0] [] ⟨true, true⟩).wf = false ∧ (Instr.delayReturn [] [0] ⟨true, true⟩ 0 0 0 0).wf = false := by decide
theorem test_wf_canFrameValid : (Instr.canFrameValid 0 0 ⟨0, 10000, 0, 0, false, false, [], false⟩).wf = false ∧
    (Instr.canFrameValid 0 0 ⟨0, 0, 0, 0, false, false, List.replicate 65 0, false⟩).wf = false := by decide
theorem test_wf_pwmPeriodStart : (Instr.pwmPeriodStart 0 100).wf = false := by decide
theorem test_wf_scrubs : (Instr.sramScrubRead 0 [0]).wf = false ∧ (Instr.sramScrubRead 0 (List.replicate 8 8192)).wf = false ∧
    (Instr.scrubWriteback (2 ^ 38)).wf = false ∧ (Instr.dramScrubRead (List.replicate 64 65536)).wf = false ∧
    (Instr.dramScrubRead [0]).wf = false ∧ (Instr.dramTempRead []).wf = false := by decide
theorem test_wf_extremeCheck : (Instr.extremeCheck 0 65536 0).wf = false ∧ (Instr.extremeCheck 0 0 65536).wf = false := by decide
theorem test_wf_ruleEvaluation : (Instr.ruleEvaluation (some 32)).wf = false := by decide
/-- A Sync of master 5 without corrections, with offset `o` while no peer delay is known. -/
def sync (o : Int) (interval : Nat) : PtpSync := ⟨⟨0, 0, 0, none, o, none⟩, interval, 5⟩

theorem test_wf_ports : (Instr.ptpSync false (sync 0 0).toPtpTimes 0 5).wf = false ∧ (Instr.descriptorEnd 0 0 []).wf = false ∧ (Instr.h0LinkUp 0 ⟨1, []⟩).wf = false ∧
    (Instr.h0LinkUp 6 ⟨1, []⟩).wf = false ∧ (Instr.h0LinkUp 5 ⟨3, []⟩).wf = false ∧ (Instr.h0LinkUp 5 ⟨4, [(4096, 0)]⟩).wf = false ∧
    (Instr.hsrFrame false 0 0 true false false ⟨[], 5001⟩).wf = false := by decide
theorem test_wf_hpcCqtail : (Instr.hpcCqtail .h0 ⟨0, [List.replicate 2049 0]⟩).wf = false := by
  simp only [Instr.wf, List.all_cons, List.length_replicate]
  decide
theorem test_wf_restart : (Instr.coreReset [8]).wf = false ∧ (Instr.restartReloadDone [4096] [] none).wf = false ∧
    (Instr.restartReloadDone [] [8192] none).wf = false ∧ (Instr.restartReloadDone [] [] (some 12)).wf = false ∧
    (Instr.ledgerCheck [16]).wf = false := by decide

/-! Every statement's hypotheses are met by a concrete state. -/

theorem witness_ColdFaultNeverWaits : Chip.reset.books.cold = none ∧ step ⟨Chip.reset, [.bar4Write]⟩ = .next (st Chip.reset) := ⟨rfl, by rfl⟩

theorem witness_ColdResetForgets : st run ≠ st base ∧ (st run).pending = (st base).pending ∧
    run.mem.filter (fun (e : Host.Cell) => keepsCold e.1) = base.mem.filter (fun (e : Host.Cell) => keepsCold e.1) ∧
    run.fills.filter (fun (f : MemFill) => keepsCold f.lo) = base.fills.filter (fun (f : MemFill) => keepsCold f.lo) ∧
    run.hostMem = base.hostMem ∧ run.hst.fuses = base.hst.fuses ∧ run.hst.vbus = base.hst.vbus ∧
    run.pwr.aonLow = base.pwr.aonLow ∧ run.pwr.banks = base.pwr.banks ∧ run.pwr.safeMv = base.pwr.safeMv ∧ run.memu.colds = base.memu.colds ∧ run.draws = base.draws := by decide +kernel

/-- A restart under way for 20 ms. -/
def late : Chip := atTick (calm (run.wrBit Reg.sysStat 1 true)) 2000

theorem witness_ColdResetsLeaveTheColdState : base.boot.on = true ∧ Still late ∧ FaultQuiet late ∧ late.boot.on = true ∧
    late.rdBit Reg.sysStat 1 = true ∧ late.nowNs ≥ late.rst.t0 + 20000000 := by decide +kernel

/-- VDD_AON low, PORST_L high; and a cold reset held by a supply or by heat. -/
def aonLow : Chip := { Chip.reset with pwr := { Power.zero with
  aonLow := true
  porst := true } }
def held (hot : Bool) : Chip := { Chip.reset with pwr := { Power.zero with
  hold := some hot
  porst := true } }

theorem witness_ColdSequenceAndLock : (Still Chip.reset ∧ Chip.reset.boot.on = false ∧ Chip.reset.hst.tap = 0 ∧
      Chip.reset.pwr.aonLow = false ∧ Chip.reset.pwr.hold = none) ∧
    (Still aonLow ∧ aonLow.boot.on = false ∧ aonLow.hst.tap = 0 ∧ aonLow.pwr.aonLow = true ∧ aonLow.pwr.hold = none ∧ aonLow.pwr.porst = true) ∧
    (∀ hot : Bool, Still (held hot) ∧ (held hot).boot.on = false ∧ (held hot).hst.tap = 0 ∧ (held hot).pwr.hold = some hot ∧
      (hot = true → (559 : Int) < 560) ∧ (held hot).pwr.porst = true ∧ (held hot).pwr.aonLow = false) ∧
    (Still base ∧ base.boot.on = true ∧ base.boot.pll = false ∧ base.stage < 4 ∧ base.rdBit Reg.pwrIslpwr 26 = false ∧
      base.rdBit Reg.pwrIslreq 26 = false ∧ base.pwr.rising = []) ∧
    (let s := { base with boot := { base.boot with pll := true } }
     Still s ∧ s.boot.on = true ∧ s.boot.pll = true) ∧
    4 ≤ (base.wrF Reg.pwrStat 2 0 4).stage := by decide +kernel

/-- The Poermun with boot events behind it. -/
def booting (b : Boot) : Chip := { base with boot := { b with on := true } }

theorem witness_BootMarksArraysAndMemories :
    (let s := booting { Boot.zero with pll := true }
     s.boot.pll = true ∧ s.boot.zeroed = false ∧ s.boot.trained = false ∧ Still s) ∧
    base.boot.on = true ∧ base.boot.mram = false ∧
    (let s := booting { Boot.zero with zeroed := true, trained := true, mram := true }
     Still s ∧ s.boot.zeroed = true ∧ s.boot.trained = true ∧ s.boot.mram = true) := by decide +kernel

/-- The boot flash erased to zero, so that no slot has a manifest. -/
def blank (b : Boot) : Chip := { booting b with fills := [⟨flashBase, 2 ^ 32, 0⟩] }

theorem witness_BootRomChoosesAndChecksTheSlot :
    (base.boot.on = true ∧ base.boot.slot = none ∧ base.boot.gone = [] ∧ base.rdBit Reg.secBootstat 8 = false) ∧
    (let s := blank { Boot.zero with slot := some 0, images := 1, zeroed := true }
     s.boot.slot = some 0 ∧ s.boot.images = 0 + 1 ∧ s.boot.zeroed = true ∧
       imageOk s (imgDesc (manifest s 0) (nimg (manifest s 0) - (0 + 1))) = false) ∧
    (let s := { blank { Boot.zero with slot := some 0, images := 1, zeroed := true } with
       mem := cellsFrom (flashBase + 7) [1] ++ cellsFrom (flashBase + 64) (sha256 []) }
     s.boot.slot = some 0 ∧ s.boot.images = 0 + 1 ∧ s.boot.zeroed = true ∧
       imageOk s (imgDesc (manifest s 0) (nimg (manifest s 0) - (0 + 1))) = true) ∧
    (let s := blank { Boot.zero with slot := some 0, mram := true }
     s.boot.slot = some 0 ∧ s.boot.images = 0 ∧ s.boot.verified = false ∧ s.boot.mram = true ∧
       (cstCheck s (imgBytes s (cstDesc (manifest s 0))) (leAt (cstDesc (manifest s 0)) 8 4)).isSome = true) :=
  ⟨by decide +kernel, by decide +kernel, by decide +kernel, by decide +kernel⟩

theorem witness_ConsistLoadAndBootDone :
    (let s := booting { Boot.zero with verified := true, mram := true, zeroed := true }
     s.boot.verified = true ∧ s.boot.mram = true ∧ s.boot.zeroed = true ∧ s.boot.loaded = false) ∧
    (let s := (booting { Boot.zero with loaded := true, trained := true, pll := true }).wrBit Reg.odoStat 0 true
     s.boot.loaded = true ∧ s.boot.trained = true ∧ s.boot.pll = true ∧ odoRuns s = true ∧ bootSnapOpen s = false ∧
       s.booted = false) ∧
    (let s := (booting { Boot.zero with loaded := true }).wrBit Reg.sysStat 0 true
     Still s ∧ s.boot.loaded = true ∧ s.booted = true) := by decide +kernel

theorem witness_TickBoundaryAdvancesTime : (st base).chip.boot.on = true := by decide

/-- FINE in force, and a trim 10 ppb (in units of 1 ppb) past the one in force. -/
def trimmed (target eff : Word) : Chip := (((run.wrBit Reg.sysTbstat 0 true).wrF Reg.sysTbctl 1 0 1).wr Reg.sysTbtrim target).wr Reg.sysTbtrimeff eff

theorem witness_TrimAndSyncOut :
    (∀ p ∈ ([(10, 0), (11, 0), (0, 11), (50000, 50000), (4294917296, 4294917296)] : List (Nat × Nat)),
      let s := trimmed (wn p.1) (wn p.2)
      s.fine = true ∧ s32 (s.rd Reg.sysTbtrimeff) ≥ -50000 ∧ s32 (s.rd Reg.sysTbtrimeff) ≤ 50000 ∧ trimTarget s 0 ≥ -50000 ∧
        trimTarget s 0 ≤ 50000 ∧ s.tb.trimAcc < 100000) ∧
    run.fine = false ∧
    (base.booted = false ∧ base.tb.syncArmed = false) ∧ (run.booted = true ∧ (run.wrBit Reg.sysTbctl 2 false).booted = true ∧ (run.wrBit Reg.sysTbctl 2 false).rdBit Reg.sysTbctl 2 = false) ∧
    (let s := run.wrBit Reg.sysTbctl 2 true
     let marked := (atTick s 4096).wrBit Reg.sysTbctl 3 true
     s.booted = true ∧ s.rdBit Reg.sysTbctl 2 = true ∧ s.rdBit Reg.sysTbctl 3 = false ∧ marked.rdBit Reg.sysTbctl 3 = true ∧
       marked.tb.tick % 4096 = 0 ∧ marked.rdBit Reg.sysTbctl 2 = true ∧ marked.booted = true) ∧ Still run := by decide +kernel

/-- 01 R43: at an effective trim of 50,000 ppb the second boundary gives up 100,000 and its tick is a nanosecond short. -/
theorem test_trim_accumulator : (applyTrim (trimmed 50000 50000) 0).tb.trimAcc = 50000 ∧ (applyTrim (trimmed 50000 50000) 0).tb.tickLen = 10000 ∧
    (applyTrim (applyTrim (trimmed 50000 50000) 0) 0).tb.trimAcc = 0 ∧
    (applyTrim (applyTrim (trimmed 50000 50000) 0) 0).tb.tickLen = 9999 := by decide +kernel

/-- SID 5 declared, written last at TICK 0. -/
def withSid (guard : Bool) : Chip := { run with store := { run.store with
  decls := [(5, decl guard)]
  entries := [(5, { initEntry (decl guard) with
    subst := false
    lastTick := some 0 })] } }

theorem witness_StoreWriteDecidesInOrder : Tab.get? run.store.decls 5 = none ∧ Tab.get? (withSid false).store.decls 5 = some (decl false) ∧
    producerOk (decl false) ⟨0, .p3 false false false, none⟩ = false ∧ producerOk (decl false) ⟨8, .p3 false false false, none⟩ = true ∧
    producerOk (decl true) ⟨10, .p3 false false false, none⟩ = true ∧
    ((decl true).guard && srcIsHost 10 && !isHolder (withSid true) ⟨10, .p3 false false false, none⟩) = true ∧
    (decl false).isOut = true ∧ ((withSid false).wrBit Reg.sigForcestat 2 true).forced 2 = true ∧ (withSid false).forced 2 = false := by
  decide +kernel

theorem witness_StoreReadComposes : Tab.get? (withSid false).store.decls 5 = some (decl false) ∧
    (Tab.get? (withSid false).store.entries 5).isSome = true ∧ Tab.get? run.store.decls 262143 = none := by decide +kernel

/-- Writes of one agent waiting. -/
def waiting (a n : Nat) : Chip := { withSid false with store := { (withSid false).store with
  p3q := [(a, List.replicate n ⟨8, none, 5, .value 7, false⟩)] } }

theorem witness_P3QueuesAndArbiter :
    (Still (waiting 8 3) ∧ reachesStore (waiting 8 3) (.sup 0) = true ∧ P3Form.value 7 ≠ .counters ∧
      p3Held (waiting 8 3) 8 = [] ∧ (p3Queue (waiting 8 3) 8).length < 4) ∧
    (Still (waiting 8 4) ∧ reachesStore (waiting 8 4) (.sup 0) = true ∧ (p3Queue (waiting 8 4) 8).length = 4) ∧
    (Still run ∧ run.tb.phase < 9500 ∧ (∀ src, wrsigRuns run src = false) ∧ ∀ a, a < 11 → Tab.get [] run.store.p3q a = []) ∧
    (∀ i ∈ [0, 8, 10], (waiting i 1).tb.phase < 9500 ∧ (∀ src, wrsigRuns (waiting i 1) src = false) ∧
      (∀ j, j < i → Tab.get [] (waiting i 1).store.p3q (((waiting i 1).store.p3next + j) % 11) = []) ∧
      Tab.get [] (waiting i 1).store.p3q (((waiting i 1).store.p3next + i) % 11) = ⟨8, none, 5, .value 7, false⟩ :: [] ∧
      (p3Request (.value 7)).isSome = true) := by
  refine ⟨by decide +kernel, by decide +kernel, ⟨by decide, by decide, fun _ => rfl, by decide +kernel⟩, ?_⟩
  intro i hi
  exact ⟨(by decide : (0 : Nat) < 9500), fun _ => rfl, (by decide +kernel : ∀ i ∈ [0, 8, 10], (∀ j, j < i → Tab.get [] (waiting i 1).store.p3q (((waiting i 1).store.p3next + j) % 11) = []) ∧
      Tab.get [] (waiting i 1).store.p3q (((waiting i 1).store.p3next + i) % 11) = ⟨8, none, 5, .value 7, false⟩ :: [] ∧
      (p3Request (.value 7)).isSome = true) i hi⟩

/-- The PCIe link up at generation 3, four lanes. -/
def linked : Chip := run.wr Reg.hpcStat (wn (1 + 2 * 3 + 16 * 4))

theorem witness_JournalPartOfBar2IsAClaimRefusal : h0Up linked = true := by decide +kernel

theorem witness_ReadsCaptureTheirSet : Still (withSid false) ∧ reachesStore (withSid false) (.sup 0) = true ∧
    (∀ e, Tab.get? (withSid false).store.entries 5 = some e → e.ue = false) ∧
    Undamaged (withSid false) (entryAt 5) 4 ∧ ((withSid false).tb.phase ≠ 9000 ∧ MayWrite run (.sup 0) Reg.sigClr) ∧
    (let s := readEntry (withSid false) 8 5 .value
     Still s ∧ reachesStore s (.sup 0) = true ∧ s.tb.phase ≠ 9000 ∧
       Tab.get none s.store.caps (agentSrc (.sup 0)) = some (5, (withSid false).storeRead 5)) := by
  refine ⟨by decide +kernel, by decide +kernel, ?_, undamaged_initialised rfl (by decide), by decide +kernel, by decide +kernel⟩
  intro e h
  cases h
  rfl

/-- Slot 1 of tile 0 due at this tick. -/
def dueSlot : Chip := { run with eng := { run.eng with
  due := [(0, [1])]
  dueN := [(0, 1)] } }

/-- A result of slot 1 waiting for the commit. -/
def heldSlot : Chip := { run with eng := { run.eng with held := [⟨1, 5, 5, false, false, JRec.zero, 0, false, true, false, 0, 0, 0⟩] } }

theorem witness_EvaluationsHoldTheirResults :
    ((atPh dueSlot 8999).tb.phase ≤ 8999 ∧ Tab.get [] (atPh dueSlot 8999).eng.due 0 = 1 :: [] ∧ 1 / 256 = 0 ∧
      (atPh dueSlot 8999).rdBit (Reg.ltInjstat 0) 0 = false) ∧
    (Undamaged dueSlot (recordAt 1) 128 ∧ Undamaged dueSlot (slotStateAt 1) 52 ∧ ∀ sid ∈ lawSids (slotCfg dueSlot 1),
      Undamaged dueSlot (entryAt sid) 8 ∧ ∀ e, Tab.get? dueSlot.store.entries sid = some e → e.ue = false) ∧
    (run.tb.phase ≤ 8999 ∧ Still run ∧ Tab.get [] run.eng.due 15 = []) ∧
    ((atPh heldSlot 9000).tb.phase ≤ 9000 ∧ heldSlot.eng.commitDone = false ∧ heldSlot.eng.held.length = 1 ∧ ∀ t, t < 16 → Tab.get [] heldSlot.eng.due t = []) ∧
    (∀ n, n < 32 →
      let sid := heldSlot.rdF (Reg.adcPwmsid (n / 4) (n % 4)) 17 0
      Undamaged heldSlot (entryAt sid) 8 ∧ ∀ e, Tab.get? heldSlot.store.entries sid = some e → e.ue = false) ∧
    (Still (atPh run 9001) ∧ 9000 < (atPh run 9001).tb.phase) := by
  refine ⟨by decide +kernel, ⟨undamaged_initialised rfl (by decide), undamaged_initialised rfl (by decide), fun sid h => ?_⟩, by decide +kernel,
    by decide +kernel, fun n h => ?_, by decide +kernel⟩
  · have hs : sid < 262144 := (by decide +kernel : ∀ x ∈ lawSids (slotCfg dueSlot 1), x < 262144) sid h
    exact ⟨undamaged_initialised rfl (by simp only [entryAt]; omega), fun e h => nomatch h⟩
  · have hs : heldSlot.rdF (Reg.adcPwmsid (n / 4) (n % 4)) 17 0 = 0 :=
      (by decide +kernel : ∀ n < 32, heldSlot.rdF (Reg.adcPwmsid (n / 4) (n % 4)) 17 0 = 0) n h
    simp only [hs]
    exact ⟨undamaged_initialised rfl (by decide), fun e h => nomatch h⟩

/-- Tile 0 powered, slot 1 with a producer of its OUTSID, and `n` writes waiting. -/
def tiled (n : Nat) : Chip :=
  let s := setRecWord (run.wrBit (Reg.ltStat 0) 0 true) 1 5 5
  setShq { s with store := { s.store with decls := [(5, { decl false with producer := .slot 1 })] } } 0 (List.replicate n .injStart)

/-- Slot 1 of tile 0 enabled. -/
def running : Chip := setRecWord (tiled 0) 1 0 1

theorem witness_SlotRecordWritesByClass :
    (∀ w ∈ [(8 : Fin 32), 29], 8 ≤ w.val ∧ w.val ≤ 29 ∧ tilePowered (tiled 255) 0 = true ∧ MayWrite (tiled 255) (.sup 0) (slotAddr 0 1 w.val) ∧
      (shq (tiled 255) 0).length < 256 ∧ MayWrite (tiled 256) (.sup 0) (slotAddr 0 1 w.val) ∧ tilePowered (tiled 256) 0 = true ∧
      256 ≤ (shq (tiled 256) 0).length ∧ Still (tiled 255) ∧ Still (tiled 256)) ∧
    MayWrite (tiled 0) (.sup 0) (slotAddr 0 1 7) ∧
    (∀ w ∈ [(1, 0x80000005), (6, 255)], 1 ≤ w.1 ∧ w.1 ≤ 6 ∧ MayWrite (tiled 0) (.sup 0) (slotAddr 0 1 w.1) ∧
      slotRunning (tiled 0) 1 = false ∧ wordRangeOk w.1 (wn w.2) = true ∧ wordProducerOk (tiled 0) 1 w.1 (wn w.2) = true ∧
      MayWrite running (.sup 0) (slotAddr 0 1 w.1) ∧ slotRunning running 1 = true ∧
      (wn w.2 ^^^ recWord running 1 w.1) &&& wn (wordCs w.1) ≠ 0 ∧ Still running) ∧
    (let s := setRecWord (tiled 0) 1 1 0x80000005
     let next := setShq (setRecWord s 1 0 (merge (recWord s 1 0) 1 (ctlCs + ctlLv))) 0 (shq s 0 ++ [.word 1 0 1 ctlSh])
     tilePowered s 0 = true ∧ (shq s 0).length < 256 ∧ MayWrite s (.sup 0) (slotAddr 0 1 0) ∧ ctlRangeOk 1 = true ∧ ctlRangeOk 0 = true ∧
       bit 1 0 = true ∧ slotRunning s 1 = false ∧ enableCheck next 1 = 0 ∧ bit 0 0 = false ∧ (0 ^^^ recWord s 1 0) &&& wn ctlCs = 0 ∧
       Still s) ∧
    ((∀ n ∈ [255, 0], Still (tiled n) ∧ (tiled n).phaseRead ≠ 2000 ∧ MayWrite (tiled n) (.sup 0) (Reg.ltInjcmd 0) ∧
      MayWrite (tiled n) (.sup 0) (Reg.ltCapcmd 0) ∧ (shq (tiled n) 0).length < 256 ∧ MayWrite (tiled n) (.sup 0) (Reg.ltFlagclr 0))) :=
  ⟨by decide +kernel, by decide +kernel, by decide +kernel, by decide +kernel, by decide +kernel⟩

theorem witness_CommitPointTakesTheStoreAndTuning : ((atPh run 2000).tb.phase ≤ 2000 ∧ run.eng.pointDone = false ∧ run.store.froze = false ∧
      Still run ∧ run.engineRuns = false ∧ run.eng.waits = []) ∧
    ((run.wrBit Reg.lpeStat 0 true).engineRuns = true ∧ (run.wrBit Reg.lpeStat 0 true).eng.waits = []) ∧
    (Still (atPh run 2001) ∧ 2000 < (atPh run 2001).tb.phase) ∧
    (∀ n ∈ [255, 256], (tiled n).phaseRead ≠ 2000 ∧ Still (tiled n) ∧ MayWrite (tiled n) (.sup 0) (Reg.ltInjcmd 0) ∧ MayWrite (tiled n) (.sup 0) (Reg.ltCapcmd 0) ∧
      (shq (tiled n) 0).length = n ∧ MayWrite (tiled n) (.sup 0) (Reg.ltFlagclr 0)) := by decide +kernel
/-- A coach of TICK `t` and the one before it. -/
def coach (t : Nat) : Coach := ⟨t, false, false, false, 0, 0, [], []⟩

/-- A ring with compartment 0 of kind `k` (2 IN, 4 SAFE-U), owned by node 1, at TICK 7. -/
def ring (k : Nat) : Chip := { atTick run 7 with ewn := { run.ewn with
  comps := [(0, ⟨k, 1⟩)]
  lockA := true
  lockB := true
  now := some (coach 7)
  prev := some (coach 6) } }

/-- A copy of compartment 0 of the coach of TICK 6 with first byte `b`, owner 1 and TTVER 0, and a CCRC over it (06 R267, R274). -/
def copy (b : Byte) : List Byte :=
  let x := [b] ++ List.replicate 55 0 ++ [1, 0, 0, 0]
  x ++ leBytes 4 (crc32c (leBytes 2 0 ++ leBytes 2 6 ++ x))

/-- A coach header with its CRC; `flags` is its byte 1. -/
def header (flags : Byte) : List Byte :=
  let x := [(0 : Byte), flags] ++ List.replicate 58 0
  x ++ leBytes 4 (crc32c x)

theorem witness_ReturnedCopiesAreHeld : Still (ring 2) ∧ (∀ k ∈ [2, 4], (ring k).ewn.prev = some (coach 6) ∧ (ring k).ewn.now = some (coach 7) ∧
      ((Tab.get ⟨0, 0⟩ (ring k).ewn.comps 0).kind = 2 ∨ (Tab.get ⟨0, 0⟩ (ring k).ewn.comps 0).kind = 4)) ∧
    (Tab.get ⟨0, 0⟩ (ring 1).ewn.comps 0).kind ≠ 2 ∧ (Tab.get ⟨0, 0⟩ (ring 1).ewn.comps 0).kind ≠ 4 ∧ run.ewn.now = none ∧
    (∀ own : Bool, hears (ring 2) 0 own = true ∧ hears (ring 2) 1 own = true ∧ hears run 0 own = false ∧ hears run 1 own = false) ∧
    (atPh (ring 2) 5000).tb.phase ≤ 5000 ∧ 5000 < (atPh (ring 2) 5001).tb.phase ∧ Still run ∧
    leAt (padTo 64 [1]) 60 4 ≠ crc32c ((padTo 64 [1]).take 60) ∧
    (∀ f ∈ [0, 2], leAt (padTo 64 (header (BitVec.ofNat 8 f))) 60 4 = crc32c ((padTo 64 (header (BitVec.ofNat 8 f))).take 60) ∧
      natBit (leAt (padTo 64 (header (BitVec.ofNat 8 f))) 1 1) 1 = (f == 2)) := by decide +kernel

/-- Copies of compartment 0 held. -/
def returned (l : Tab (List Byte)) : Chip := { ring 2 with ewn := { (ring 2).ewn with retPrev := l } }

theorem witness_LandingPrefersRingA : (ring 2).rst.swapped = false ∧ (coach 6).ttver = ((ring 2).rd Reg.ewnTtver).toNat ∧
    (let cause := fun (x : Option (List Byte)) => (x.map (copyCause 0 6 0 1)).getD 1
     let a := fun (l : Tab (List Byte)) => Tab.get? (returned l).ewn.retPrev 0
     let b := fun (l : Tab (List Byte)) => Tab.get? (returned l).ewn.retPrev 1
     (a [(0, copy 1)] = some (copy 1) ∧ cause (a [(0, copy 1)]) = 0 ∧ cause (b [(0, copy 1)]) ≠ 0) ∧
     (cause (a [(0, copy 1), (1, copy 1)]) = 0 ∧ ((b [(0, copy 1), (1, copy 1)]).getD []).take 60 = (copy 1).take 60) ∧
     (cause (a [(0, copy 1), (1, copy 2)]) = 0 ∧ cause (b [(0, copy 1), (1, copy 2)]) = 0 ∧ (copy 2).take 60 ≠ (copy 1).take 60) ∧
     (cause (a [(1, copy 2)]) ≠ 0 ∧ b [(1, copy 2)] = some (copy 2) ∧ cause (b [(1, copy 2)]) = 0) ∧
     cause (a []) ≠ 0 ∧ cause (b []) ≠ 0) ∧
    (atPh (ring 2) 5800).tb.phase ≤ 5800 ∧ (atPh (ring 2) 5800).ewn.prev = some (coach 6) ∧ Still (atPh run 5801) ∧
    5800 < (atPh run 5801).tb.phase := by decide +kernel

/-- A frame for node 1 sent at TICK 0 and not acknowledged, at TICK 300. -/
def frame (tries : Nat) : MailFrame := ⟨1, 3, false, 7, [1, 2], 0, 0, 1, 0, tries⟩
def overdue (tries : Nat) : Chip := { atTick run 300 with ewn := { run.ewn with unacked := [frame tries] } }

/-- A coach on the line, one carrier a tick, and node 1 in mail. -/
def carrying : Chip := setNodeState ((ring 2).wrF Reg.ewnMailcfg 3 0 1) 1 2

theorem witness_MailLeavesByCreditAndTime : (run.ewn.now = none ∧ (ring 2).ewn.now ≠ none ∧ overdueFrames (ring 2) = []) ∧
    (carrying.ewn.carSent < min (carrying.rdF Reg.ewnMailcfg 3 0) 8 ∧ carrierFits (sendEnum carrying) = true ∧ carrierNext carrying [] = some 1) ∧
    fitsWindow (sendEnum { overdue 0 with ewn := { (overdue 0).ewn with linePos := mailLimit } }) (frame 0).body.length = false ∧
    (overdueFrames (overdue 0) = frame 0 :: [] ∧ (frame 0).tries < max ((overdue 0).rdF Reg.ewnMailcfg 23 16) 1 ∧
      fitsWindow (sendEnum (overdue 0)) (frame 0).body.length = true) ∧
    (overdueFrames (overdue 255) = frame 255 :: [] ∧ max ((overdue 255).rdF Reg.ewnMailcfg 23 16) 1 ≤ (frame 255).tries ∧
      1 ≤ (frame 255).dst ∧ (frame 255).dst ≤ 62) := by decide +kernel

/-- A carrier of 16 body bytes granted to node 1, which is in mail. -/
def granted : Chip :=
  let s := setNodeState (run.wrF Reg.ewnMailcfg 31 26 1) 1 2
  { s with ewn := { s.ewn with
    lockA := true
    lockB := true
    carriers := [(1, 16)] } }

/-- A returned carrier: SRC, LEN, MSEQ. -/
def carrier (src len mseq : Nat) (b : Byte) : List Byte :=
  let x := [(0 : Byte), BitVec.ofNat 8 src, 0, 0] ++ leBytes 2 len ++ leBytes 2 mseq ++ List.replicate 23 0 ++ [b]
  x ++ leBytes 4 (crc32c x)

/-- The first entry of the core queue: a frame of 4 body bytes, which takes 32 bytes. -/
def entry4 : Chip := { run with ewn := { run.ewn with txMem := [(0, 1), (1, 4)] } }

theorem witness_UplinkAndTransmitQueue : carrierOf run 1 = none ∧ carrierOf granted 1 = some (1, 16) ∧
    (∀ f ∈ [carrier 0 0 0 0, carrier 1 4 1 0, carrier 1 4 5 0], carrierOk 16 0 (heard granted 0 true f) = true ∧
      carrierOk 16 1 (heard granted 1 true f) = false) ∧ carrierOk 16 1 [] = false ∧
    leAt (carrier 0 0 0 0) 1 1 = 0 ∧ leAt (carrier 1 4 1 0) 1 1 = 1 ∧
    leAt (carrier 1 4 1 0) 6 2 = ((nodeSt granted 1).rxSeq + 1) % 65536 ∧
    leAt (carrier 1 4 5 0) 6 2 ≠ ((nodeSt granted 1).rxSeq + 1) % 65536 ∧ leAt (carrier 1 4 5 0) 4 2 > 0 ∧
    MayWrite entry4 (.sup 0) Reg.ewnMtxtail ∧
    (let size := 16 + pad16 (coreEntry entry4 0).body.length
     size = 32 ∧ (32 + 65536 - entry4.ewn.coreEnd % 65536) % 65536 = size ∧ (31 + 65536 - entry4.ewn.coreEnd % 65536) % 65536 < size) := by
  decide +kernel

/-- A survey round at step `n`, with nodes 1 and 62 found. -/
def survey (n : Nat) : Chip := { ring 2 with ewn := { (ring 2).ewn with
  stage := n
  found := [1, 62] } }

/-- A survey packet over bytes `x`, with its CRC (07 R307). -/
def packet (x : List Byte) : List Byte := x ++ leBytes 4 (crc32c x)

/-- The bytes of an ENUM copy of a ring in which node 1 has entered itself, and of a DELAY copy in which nodes 1 and 62 have written. -/
def enumBytes (r : Byte) : List Byte := [(0 : Byte), 0, 1, r] ++ List.replicate 12 0 ++ [1] ++ List.replicate 991 0
def delayBytes (r : Byte) : List Byte :=
  [(0 : Byte), 0, 0, r] ++ List.replicate 12 0 ++ [0, 0, 0, 0, 0, 0, 1, 0] ++ List.replicate 480 0 ++ [0, 0, 0, 0, 0, 0, 1, 0]

theorem surveyOk_packet (ring n : Nat) (x : List Byte) (h : x.length = n + 16) (hr : leAt (packet x) 3 1 % 2 = ring) :
    surveyOk ring n (packet x) = true := by
  have hl : (packet x).length = n + 20 := by simp [packet, leBytes_length, h]
  have ht : (packet x).take (n + 16) = x := by simp [packet, ← h]
  unfold surveyOk
  rw [hl, ht, hr]
  simp [packet, leAt_crc x (n + 16) h]

theorem witness_SurveyRoundFindsAndMeasures :
    (Still (survey 1) ∧ (survey 1).hst.resend = [] ∧ (survey 1).ewn.stage = 1 ∧ (survey 1).ewn.sent = false ∧ (survey 1).ewn.now ≠ none) ∧
    (Still (survey 2) ∧ (survey 2).hst.resend = [] ∧ (survey 2).ewn.stage ≠ 1) ∧
    ((survey 1).ewn.stage ≠ 0 ∧ surveyOk 0 992 (packet (enumBytes 0)) = true ∧ surveyOk 1 992 (packet (enumBytes 1)) = true) ∧
    (∀ n ∈ [2, 3], ((survey n).ewn.stage = 2 ∨ (survey n).ewn.stage = 3) ∧ (∀ d ∈ (survey n).ewn.found, 1 ≤ d ∧ d ≤ 62) ∧
      (survey n).ewn.found.Nodup) ∧
    surveyOk 0 496 (packet (delayBytes 0)) = true ∧ surveyOk 1 496 (packet (delayBytes 1)) = true ∧
    ∀ d ∈ [1, 62], (delayEntry (packet (delayBytes 0)) d).written = true ∧ (delayEntry (packet (delayBytes 1)) d).written = true :=
  ⟨by decide +kernel, by decide +kernel,
    ⟨by decide +kernel, surveyOk_packet 0 992 _ (by simp only [enumBytes, List.length_append, List.length_replicate, List.length_cons, List.length_nil]) (by decide +kernel), surveyOk_packet 1 992 _ (by simp only [enumBytes, List.length_append, List.length_replicate, List.length_cons, List.length_nil]) (by decide +kernel)⟩,
    by decide +kernel, surveyOk_packet 0 496 _ (by simp only [delayBytes, List.length_append, List.length_replicate, List.length_cons, List.length_nil]) (by decide +kernel),
    surveyOk_packet 1 496 _ (by simp only [delayBytes, List.length_append, List.length_replicate, List.length_cons, List.length_nil]) (by decide +kernel), by decide +kernel⟩

/-- A broken ring with `n` clean coaches since. -/
def broken (n : Nat) : Chip := { (ring 2).wrBit Reg.ewnSurvstat 2 true with ewn := { (ring 2).ewn with clean := n } }

/-- The same with one lock lost; and the coach of the next TICK cut. -/
def lockLess (b : Bool) : Chip := { broken 1000 with ewn := { (broken 1000).ewn with
  lockA := b
  lockB := !b } }
def cutAlready : Chip := { ring 2 with ewn := { (ring 2).ewn with next := some (coach 8) } }

theorem witness_BreaksAndSeats :
    ((atPh (ring 2) 9500).booted = true ∧ (atPh (ring 2) 9500).tb.phase ≤ 9500 ∧ (atPh (ring 2) 9500).ewn.next = none ∧
      (ring 2).rst.swapped = false ∧ (ring 2).rdBit Reg.sysStat 1 = false ∧ ((ring 2).wrBit Reg.sysStat 1 true).rdBit Reg.sysStat 1 = true ∧
      ((ring 2).wrBit Reg.sysStat 1 true).booted = true) ∧
    (Still cutAlready ∧ cutAlready.ewn.next.isSome = true) ∧
    (Still (atPh run 9501) ∧ (atPh run 9501).tb.phase > 9500) ∧
    ((ring 2).ewn.now ≠ none ∧ (ring 2).rdBit Reg.ewnSurvstat 2 = false ∧ Still (ring 2)) ∧ (run.ewn.now = none ∧ Still run) ∧
    (∀ n ∈ [999, 1000], (broken n).rdBit Reg.ewnSurvstat 2 = true ∧ (broken n).ewn.clean = n ∧ Still (broken n) ∧
      (broken n).ewn.lockA = true ∧ (broken n).ewn.lockB = true) ∧
    (∀ b : Bool, Still (lockLess b) ∧ ((lockLess b).ewn.lockA = false ∨ (lockLess b).ewn.lockB = false)) ∧
    (∀ d ∈ [(1 : Fin 64), 62], 1 ≤ d.val ∧ d.val ≤ 62 ∧ MayWrite run (.sup 0) (Reg.ewnNctl d.val)) := by
  refine ⟨by decide +kernel, by decide +kernel, by decide +kernel, ?_⟩
  decide +kernel
/-- CAN channel 0 on and joined to its bus. -/
def can (c : CanChan) : Chip := { run.wr (Reg.canCtl 0) 1 with can := [(0, { c with joined := true })] }

/-- A buffer pending since 0 ns with a window of 1 µs, from the matrix or not. -/
def pend (b : Nat) (sched : Bool) : CanPend := ⟨b, sched, 0, 1, [5], none, false⟩

/-- Matrix entry 0 in use. -/
def matrix (c : CanChan) : Chip := (can c).wrF (Reg.canSchcfg 0) 16 8 1

theorem witness_CanRequestsAbortsAndReleases :
    (∀ hi : Bool, MayWrite (can CanChan.zero) (.sup 0) (if hi then Reg.canTxreq1 0 else Reg.canTxreq0 0) ∧
      MayWrite (can CanChan.zero) (.sup 0) (if hi then Reg.canTxabort1 0 else Reg.canTxabort0 0)) ∧
    (((List.range 32).filter (fun j => bit 0x80000001 j)).map (fun j => j + 32 * b2n true) = [32, 63]) ∧
    (∀ b ∈ [32, 63], (canOn (can CanChan.zero) 0 && !(can CanChan.zero).rdBit (Reg.canCtl 0) 3 && !bufSched (can CanChan.zero) 0 b &&
      !bufBusy (can CanChan.zero) 0 b) = true) ∧
    (∀ b ∈ [32, 63], (canOn run 0 && !run.rdBit (Reg.canCtl 0) 3 && !bufSched run 0 b && !bufBusy run 0 b) = false) ∧
    (let s := matrix CanChan.zero
     canOn s 0 = true ∧ 0 < s.rdF (Reg.canSchcfg 0) 16 8 ∧ canColumn s 0 = fld (canWord s 0 0x6000) 9 0 ∧ s.rst.inCore = false ∧
       Still s ∧ ¬ 1 < s.rdF (Reg.canSchcfg 0) 16 8) ∧
    (let z := fun (s : Chip) => commitDue (s.atPhase (fld (canWord s 0 0x6004) 13 0))
     let b := fld (canWord (matrix CanChan.zero) 0 0x6000) 21 16
     let off := matrix { CanChan.zero with tec := 256 }
     (z (matrix CanChan.zero)).rdBit (Reg.canCtl 0) 3 = false ∧ bufBusy (z (matrix CanChan.zero)) 0 b = false ∧
       canBusState (z (matrix CanChan.zero)) 0 ≠ 3 ∧ (z ((matrix CanChan.zero).wrBit (Reg.canCtl 0) 3 true)).rdBit (Reg.canCtl 0) 3 = true ∧
       bufBusy (z (matrix { CanChan.zero with pend := [pend 0 false] })) 0 0 = true ∧
       canOn off 0 = true ∧ 0 < off.rdF (Reg.canSchcfg 0) 16 8 ∧ canColumn off 0 = fld (canWord off 0 0x6000) 9 0 ∧ bufBusy (z off) 0 b = false ∧
       canBusState (z off) 0 = 3 ∧ (z off).rdBit (Reg.canCtl 0) 3 = false) ∧
    (let s := can { CanChan.zero with pend := [pend 63 true] }
     (canSt s 0).pend.find? (fun q => q.buf == 63) = some (pend 63 true) ∧ (pend 63 true).sched = true ∧
       (pend 63 true).rel + 1000 * (pend 63 true).win ≤ (s.atPhase 1000).nowNs) := by decide +kernel

/-- A received frame, and filter 1 of channel 0 taking it into the FIFO. -/
def canFrame : CanFrame := ⟨0, 0, 5, 8, false, false, [1, 2, 3], false⟩
def filtered (act head : Nat) : Chip :=
  (((can CanChan.zero).wr (canBase 0 + 0x1010) 5).wr (canBase 0 + 0x1018) (wn (1 + 16 * act))).wr (Reg.canRxhead 0) (wn head)

/-- Two buffers pending with one ID, and one of them on the bus. -/
def two : Chip := can { CanChan.zero with pend := [pend 63 false, pend 2 false] }
def onBus : Chip := can { CanChan.zero with bus := some (pend 63 false) }

theorem witness_CanFiltersAndArbitration :
    ((canBusState (can CanChan.zero) 0 = 1 ∧ (canSt (can CanChan.zero) 0).bus = none ∧ bit canFrame.id 30 = false) ∧
      takingFilter (can CanChan.zero) 0 canFrame.id = none) ∧
    (let fd : CanFrame := { canFrame with
       id := 0x40000005
       res := true }
     let on := (can CanChan.zero).wrBit (Reg.canCtl 0) 2 true
     bit fd.id 30 = true ∧ canBusState (can CanChan.zero) 0 = 1 ∧ (can CanChan.zero).rdBit (Reg.canCtl 0) 2 = false ∧
       canBusState on 0 = 1 ∧ (canSt on 0).bus = none ∧ on.rdBit (Reg.canCtl 0) 2 = true ∧ on.rdBit (Reg.canCtl 0) 6 = false ∧
       canBusState (on.wrBit (Reg.canCtl 0) 6 true) 0 = 1 ∧ (on.wrBit (Reg.canCtl 0) 6 true).rdBit (Reg.canCtl 0) 6 = true) ∧
    (∀ act ∈ [0, 1, 3], canBusState (filtered act 0) 0 = 1 ∧ (canSt (filtered act 0) 0).bus = none ∧
      takingFilter (filtered act 0) 0 canFrame.id = some 1 ∧ fld (canWord (filtered act 0) 0 (0x1008 + 16 * 1)) 5 4 = act ∧
      fifoFull (filtered act 0) 0 = false ∧ fifoFull (filtered act 64) 0 = true ∧
      takingFilter (filtered act 64) 0 canFrame.id = some 1 ∧ canBusState (filtered act 64) 0 = 1) ∧
    (Still run ∧ canBusState run 0 ≠ 1 ∧ canBusState run 0 ≠ 2) ∧
    (mayTransmit two 0 = true ∧ (canSt two 0).pend.filter (mayArbitrate two 0) ≠ []) ∧ mayTransmit run 0 = false ∧
    ((canSt onBus 0).bus = some (pend 63 false) ∧ (pend 63 false).buf < 64) ∧ (canSt run 0).bus = none := by decide +kernel

/-- Bus-off. -/
def busOff (manual recovering : Bool) : Chip := (can { CanChan.zero with
  tec := 256
  recovering := recovering }).wrBit (Reg.canCtl 0) 5 manual

theorem witness_CanErrorCountersAndBusOff :
    canBusState (can CanChan.zero) 0 = 1 ∧ canBusState (can { CanChan.zero with recv := 128 }) 0 = 2 ∧
    (let c := { CanChan.zero with
        bus := some (pend 0 false)
        tec := 255
        joined := true }
     canBusState { run.wr (Reg.canCtl 0) 1 with can := [(0, c)] } 0 = 2 ∧ 255 < (canCount c 1 (.frame true false)).tec) ∧
    (Still run ∧ canBusState run 0 ≠ 1 ∧ canBusState run 0 ≠ 2 ∧ canBusState run 0 ≠ 3) ∧
    (canBusState (busOff false false) 0 = 3 ∧ (busOff false false).rdBit (Reg.canCtl 0) 5 = false) ∧
    (canBusState (busOff true true) 0 = 3 ∧ (canSt (busOff true true) 0).recovering = true) ∧
    (Still (busOff true false) ∧ (busOff true false).rdBit (Reg.canCtl 0) 5 = true ∧ (canSt (busOff true false) 0).recovering = false) ∧
    (MayWrite (busOff true false) (.sup 0) (Reg.canCtl 0) ∧ canBusState (busOff true false) 0 = 3) ∧
    (MayWrite run (.sup 0) (Reg.canCtl 0) ∧ run.rdBit (Reg.canCtl 0) 0 = false ∧ canStage run = false) ∧
    (let s := run.wrF Reg.pwrStat 2 0 4
     MayWrite s (.sup 0) (Reg.canCtl 0) ∧ s.rdBit (Reg.canCtl 0) 0 = false ∧ canStage s = true ∧ s.rdBit (Reg.canCtl 0) 7 = false) ∧
    ((can CanChan.zero).rdBit (Reg.canCtl 0) 0 = true ∧ (canSt (can CanChan.zero) 0).bus = none ∧
      MayWrite (can CanChan.zero) (.sup 0) (Reg.canCtl 0)) ∧
    (let s := run.wr (Reg.canCtl 0) 1
     canOn s 0 = true ∧ (canSt s 0).joined = false ∧ s.rst.inCore = false) := by decide +kernel

/-- Feedback channel 31 running in mode `m`. -/
def fb (m : Nat) (c : FbChan) : Chip := { (run.wrBit (Reg.fbStat 31) 0 true).wrF (Reg.fbCtl 31) 3 1 m with fb := [(31, c)] }

/-- A compare pulse of pin 31 that ends at 100 ns. -/
def pulse : Chip := { run with pins := { run.pins with cmp := [⟨31, 0, 31, 10, 100⟩] } }

theorem witness_FeedbackCountsEdges :
    (Still run ∧ fbRuns run 31 = false) ∧
    (fbRuns (fb 0 FbChan.zero) 31 = true ∧ fbMode (fb 0 FbChan.zero) 31 = 0 ∧
      (let f := (fb 0 FbChan.zero).rdF (Reg.fbCtl 31) 7 4
       (if f = 0 then 16 else f) = 16 ∧ (⟨true, 16⟩ : RawLine).level ≠ (fbSt (fb 0 FbChan.zero) 31).a)) ∧
    pulse.pins.cmp.any (fun p => p.pin == 31 && decide (p.stop ≤ (pulse.atPhase 100).nowNs)) = true ∧
    (Still pulse ∧ pulse.pins.cmp.any (fun p => p.pin == 31 && decide (p.stop ≤ (pulse.atPhase 99).nowNs)) = false) ∧
    (Still run ∧ MayWrite run (.sup 0) (Reg.fbCmpval 31 3)) := by decide +kernel

/-- A channel due with two counts of history one sample window apart. -/
def dueFb : FbChan := { FbChan.zero with
  due := true
  hist := [(50, some 2000), (10, some 1000)] }

theorem witness_FeedbackSamplesAndWords :
    (fbRuns (fb 0 dueFb) 31 = true ∧ fbMode (fb 0 dueFb) 31 ≠ 2 ∧ (fbSt (fb 0 dueFb) 31).due = true) ∧
    ((fbSt (fb 0 dueFb) 31).hist.head? = some (50, some 2000) ∧
      (fbSt (fb 0 dueFb) 31).hist[2 ^ fbSw (fb 0 dueFb) 31]? = some (10, some 1000) ∧ dist32 (wn 50) (wn 10) ≠ 0) ∧
    (Still run ∧ fbRuns run 31 = false) ∧
    (let s := ((fb 2 { FbChan.zero with word := some 10000 }).wrF (Reg.fbSer 31) 13 8 16).wrF (Reg.fbSer 31) 19 14 16
     ∃ t, wordDue s 31 = some t ∧ s.inTick t = false ∧ Still s) ∧
    (let s := fun (noIdle : Bool) => ((fb 2 { FbChan.zero with
        word := some 0
        noIdle := noIdle }).wrF (Reg.fbSer 31) 13 8 16).wrF (Reg.fbSer 31) 19 14 16
     (∀ b : Bool, wordDue (s b) 31 = some (fbStamp2 (s b) 31 / 2) ∧ (s b).inTick (fbStamp2 (s b) 31 / 2) = true) ∧ fbRuns (s false) 31 = true ∧ fbMode (s false) 31 = 2 ∧ (fbSt (s false) 31).word ≠ none ∧ (fbSt (s false) 31).noIdle = false ∧
       wordErrors (s false) 31 5 = (false, false) ∧ (fbSt (s true) 31).noIdle = true ∧ (fbSt (s true) 31).word ≠ none ∧
       fbRuns (s true) 31 = true ∧ fbMode (s true) 31 = 2) ∧
    (MayWrite run (.sup 0) (Reg.fbCtl 31) ∧ fbMode run 31 ≤ 2 ∧ run.rdBit (Reg.fbCtl 31) 0 = false ∧ fbStartOk run 31 = true) ∧
    (let s := run.wrBit (Reg.fbCtl 31) 0 true
     MayWrite s (.sup 0) (Reg.fbCtl 31) ∧ fbMode s 31 ≤ 2 ∧ s.rdBit (Reg.fbCtl 31) 0 = true) := by
  refine ⟨by decide +kernel, by decide +kernel, by decide +kernel, ⟨_, rfl, by decide +kernel, by decide +kernel⟩, by decide +kernel, by decide +kernel,
    by decide +kernel⟩

/-- Converter 7 with sequencer state `c`; the word 1 of entry 0 and the entries in use as given. -/
def adc (c : AdcSeq) (w1 nent : Nat) : Chip :=
  { (run.wr (0x11400000 + 0x20000 * 7 + 0x404) (wn w1)).wrF (Reg.adcCtl 7) 14 8 nent with adc := [(7, c)] }

theorem witness_ConverterEntries :
    (let s := atTick (adc { AdcSeq.zero with waiting := some 30000 } 0x200 1) 4
     Still s ∧ (adcSt s 7).waiting = some 30000 ∧ 30000 < s.tb.base) ∧
    (let s := atTick (adc { AdcSeq.zero with waiting := some 30000 } 0x200 1) 3
     Still s ∧ (adcSt s 7).waiting = some 30000 ∧ s.tb.base ≤ 30000) ∧
    (let s := fun (e t0 : Nat) => (adc { AdcSeq.zero with running := some t0 } 0 2).wrF (Reg.adcStat 7) 13 8 e
     (∀ e ∈ [0, 1], Still (s e 0) ∧ (adcSt (s e 0) 7).running = some 0 ∧ adcEntry (s e 0) 7 = e ∧ adcNent (s e 0) 7 = 2 ∧
       0 + entryTime (s e 0) 7 e < (s e 0).tb.base + (s e 0).tb.tickLen) ∧
     (adcSt (s 0 9500) 7).running = some 9500 ∧ (s 0 9500).tb.base + (s 0 9500).tb.tickLen ≤ 9500 + entryTime (s 0 9500) 7 0) ∧
    (let s := (adc { AdcSeq.zero with result := some ⟨0, 5, false, false, false, 9999⟩ } 0 1).wr (0x11400000 + 0x20000 * 7 + 0x400) 0x80000005
     Still s ∧ (adcSt s 7).result = some ⟨0, 5, false, false, false, 9999⟩ ∧ 9999 < s.tb.base + s.tb.tickLen ∧ bit (adcWord s 7 0 0) 31 = true) ∧
    ((adcSt run 7).result = none ∧ Still run ∧ run.rdBit (Reg.adcStat 7) 2 = false) ∧
    (let s := run.wrBit (Reg.adcStat 7) 2 true
     Still s ∧ s.rdBit (Reg.adcStat 7) 2 = true) := by decide +kernel

theorem witness_ConvertersAndPwmStartAndStop :
    (MayWrite (adc AdcSeq.zero 0 1) (.sup 0) (Reg.adcCtl 7) ∧ (adc AdcSeq.zero 0 1).rdBit (Reg.adcCtl 7) 0 = false ∧
      adcTableOk (adc AdcSeq.zero 0 1) 7 = true ∧ 1 ≤ adcNent (adc AdcSeq.zero 0 1) 7 ∧ adcNent (adc AdcSeq.zero 0 1) 7 ≤ 64 ∧
      MayWrite (adc AdcSeq.zero 0 1) (.sup 0) (Reg.adcCmd 7)) ∧
    (MayWrite (adc AdcSeq.zero 0 0) (.sup 0) (Reg.adcCtl 7) ∧ (adc AdcSeq.zero 0 0).rdBit (Reg.adcCtl 7) 0 = false ∧
      ¬ 1 ≤ adcNent (adc AdcSeq.zero 0 0) 7) ∧
    (let s := (adc AdcSeq.zero 0 1).wrBit (Reg.adcCtl 7) 0 true
     let busy := (adc { AdcSeq.zero with running := some 0 } 0 1).wrBit (Reg.adcCtl 7) 0 true
     s.rdBit (Reg.adcCtl 7) 0 = true ∧ MayWrite s (.sup 0) (Reg.adcCtl 7) ∧ MayWrite s (.sup 0) (Reg.adcCmd 7) ∧
       (adcSt s 7).running = none ∧ (adcSt s 7).waiting = none ∧ (adcSt s 7).result = none ∧
       busy.rdBit (Reg.adcCtl 7) 0 = true ∧ MayWrite busy (.sup 0) (Reg.adcCmd 7) ∧ (adcSt busy 7).running ≠ none) ∧
    (∀ rate ∈ [1, 100],
      let s := (run.wrBit (pwmCtl 31) 0 true).wrF (pwmCtl 31) 22 16 rate
      s.rdBit (pwmCtl 31) 0 = true ∧ s.rdF (pwmCtl 31) 22 16 = rate ∧ rate ∈ pwmRates ∧ rate - 1 < rate ∧ 9999 ≤ s.tb.tickLen) ∧
    (Still run ∧ run.rdBit (pwmCtl 31) 0 = false) ∧
    (let s := ({ run with store := { run.store with decls := [(5, decl false)] } }.wrF (pwmCtl 31) 22 16 80).wr (Reg.adcPwmsid 7 3) 5
     MayWrite s (.sup 0) (pwmCtl 31) ∧ s.rdBit (pwmCtl 31) 0 = false ∧
       (pwmRates.contains (s.rdF (pwmCtl 31) 22 16) && pwmSidOk s (s.rdF (Reg.adcPwmsid 7 3) 17 0)) = true) ∧
    (MayWrite run (.sup 0) (pwmCtl 31) ∧ run.rdBit (pwmCtl 31) 0 = false ∧
      (pwmRates.contains (run.rdF (pwmCtl 31) 22 16) && pwmSidOk run (run.rdF (Reg.adcPwmsid 7 3) 17 0)) = false) := by decide +kernel

/-- Recording set 63: configuration word, and the words of its region. -/
def recset (cfg rs : Nat) : Chip := (run.wr (Reg.recSetcfg 63) (wn cfg)).wr (Reg.recSetrs 63) (wn rs)

theorem witness_RecordingSetsKeepTheCeilings :
    (MayWrite (recset 0x4000 1024) (.sup 0) (Reg.recSetcfg 63) ∧ bit (setCfg (recset 0x4000 1024) 63) 0 = false ∧
      enableSetCheck (recset 0x4000 1024) 63 = 0 ∧ bit (setCfg (recset 0x4000 1024) 63) 1 = false) ∧
    (∀ p ∈ [(0, 0), (2 ^ 32 - 1, 0), (0, 3)],
      let s := ((recset 0x4002 (0x40000000 + 1024)).wr (Reg.recSetpost 63) (wn p.1)).wr (Reg.recSetstat 63) (wn p.2)
      MayWrite s (.sup 0) (Reg.recSetcfg 63) ∧ bit (setCfg s 63) 0 = false ∧ enableSetCheck s 63 = 0 ∧ bit (setCfg s 63) 1 = true ∧
        capMode s 63 = true ∧ bit (setCfg s 63) 14 = true ∧
        ((s.rd (Reg.recSetpost 63)).toNat > nrec s 63 - 1 ↔ p.1 ≠ 0) ∧ (halfState s 63 (curHalf s 63) = 0 ↔ p.2 = 0)) ∧
    (MayWrite (recset 0x4000 1023) (.sup 0) (Reg.recSetcfg 63) ∧ bit (setCfg (recset 0x4000 1023) 63) 0 = false ∧
      enableSetCheck (recset 0x4000 1023) 63 ≠ 0) ∧
    (MayWrite (recset 0x4001 1024) (.sup 0) (Reg.recSetcfg 63) ∧ bit (setCfg (recset 0x4001 1024) 63) 0 = true) ∧
    (let s := atTick ((recset 0x4021 1024).wrBit Reg.recStat 0 true) (redWindow run 63)
     recRuns s = true ∧ bit (setCfg s 63) 0 = true ∧ bit (setCfg s 63) 5 = true ∧ bit (setCfg s 63) 2 = false ∧
       (recSt s 63).window ≠ s.tb.tick / redWindow s 63) ∧
    (Still run ∧ ¬ recRuns run = true) := by decide +kernel

/-- An enabled set in CAPTURE, of two halves or one, with the states of its halves and the one in use. -/
def capset (two : Bool) (h0 h1 cur : Nat) : Chip :=
  (recset 0x4001 (0x40000000 + 1024 + b2n two * 2 ^ 29)).wr (Reg.recSetstat 63) (wn (h0 + 4 * h1 + 16 * cur))

theorem witness_CaptureSetsAndTriggers :
    (MayWrite run (.sup 0) (Reg.recSetcmd 63) ∧ Still run ∧ bit (setCfg run 63) 0 = false) ∧
    (MayWrite (recset 0x4001 1024) (.sup 0) (Reg.recSetcmd 63) ∧ Still (recset 0x4001 1024) ∧ bit (setCfg (recset 0x4001 1024) 63) 0 = true ∧
      capMode (recset 0x4001 1024) 63 = false ∧ bit (setCfg (recset 1 1024) 63) 14 = false) ∧
    (let s := capset false 0 0 0
     bit (setCfg s 63) 14 = true ∧ bit (setCfg s 63) 0 = true ∧ capMode s 63 = true ∧ MayWrite s (.sup 0) (Reg.recSetcmd 63) ∧
       (s.rd (Reg.recSetpost 63)).toNat ≤ nrec s 63 - 1 ∧ halfState s 63 (curHalf s 63) = 0 ∧ s.stage < 4 ∧
       s.recd.bytes + 16 * ((if (readyGap (recSt s 63).gapR).isSome then regionLead s 63 s.tb.tick s.phaseRead
         else timeBefore s 63 s.tb.tick s.phaseRead).length + 2) ≤ 240000 ∧
       (let t := s.wrF Reg.pwrStat 2 0 4
        4 ≤ t.stage ∧ halfState t 63 (curHalf t 63) = 0 ∧ (t.rd (Reg.recSetpost 63)).toNat ≤ nrec t 63 - 1 ∧ MayWrite t (.sup 0) (Reg.recSetcmd 63)) ∧
       (let t := s.wr (Reg.recSetpost 63) (wn (nrec s 63 - 1))
        (t.rd (Reg.recSetpost 63)).toNat ≤ nrec t 63 - 1) ∧
       let u := s.wr (Reg.recSetpost 63) (wn (nrec s 63))
       Still u ∧ (u.rd (Reg.recSetpost 63)).toNat > nrec u 63 - 1 ∧ bit (setCfg u 63) 0 = true ∧ capMode u 63 = true) ∧
    (let s := capset false 1 0 0
     Still s ∧ halfState s 63 (curHalf s 63) ≠ 0 ∧ bit (setCfg s 63) 14 = true ∧ bit (setCfg s 63) 0 = true ∧ capMode s 63 = true ∧ s.stage < 4 ∧ halfState s 63 (curHalf s 63) = 1) ∧
    (let s := capset false 3 0 0
     capMode s 63 = true ∧ pingpong s 63 = false ∧ halfState s 63 0 = 3) ∧
    (let s := capset true 3 3 1
     pingpong s 63 = true ∧ halfState s 63 (1 - curHalf s 63) = 3 ∧ halfState s 63 (curHalf s 63) = 3) ∧
    (let s := capset true 3 1 1
     pingpong s 63 = true ∧ halfState s 63 (1 - curHalf s 63) = 3 ∧ halfState s 63 (curHalf s 63) ≠ 3) ∧
    (let s := capset true 0 3 1
     pingpong s 63 = true ∧ halfState s 63 (1 - curHalf s 63) ≠ 3 ∧ halfState s 63 (curHalf s 63) = 3) ∧
    (MayWrite run (.sup 0) (Reg.recTrgcmd 31) ∧ (trgSt run 31).fired ≠ some run.tb.tick ∧ trgTargets run 31 = []) ∧
    (let s := { run with recd := { run.recd with trig := [(31, { TrigUnit.zero with
       fired := some 0
       rearm := some (0, 0) })] } }
     let later := { run with recd := { run.recd with trig := [(31, { TrigUnit.zero with rearm := some (0, 1) })] } }
     Still s ∧ (trgSt s 31).fired = some s.tb.tick ∧ (trgSt s 31).rearm = some (0, 0) ∧ tickSince s.tb.tick 0 < 2 ^ 47 ∧ 0 ≤ s.tb.phase ∧
       (trgSt later 31).rearm = some (0, 1) ∧ tickSince later.tb.tick 0 = 0 ∧ later.tb.phase < 1 ∧ Still later) ∧
    (∀ hold ∈ [0, 3], let s := (run.wrBit (Reg.recTrgcfg 31) 21 true).wrF (Reg.recTrghold 31) 15 0 hold
     MayWrite s (.sup 0) (Reg.recTrgcmd 31) ∧ (trgSt s 31).fired ≠ some s.tb.tick ∧ s.rdBit (Reg.recTrgcfg 31) 21 = true ∧
       s.rdF (Reg.recTrghold 31) 15 0 = hold) ∧
    (Still run ∧ (trgSt run 31).rearm = none) := by
  refine ⟨?_, ?_, ?_, ?_, ?_, ?_, ?_, ?_, ?_, ?_, ?_, ?_⟩ <;> decide +kernel
/-- The dispatcher running, with hitch 9 enabled. -/
def disp : Chip := (run.wrBit Reg.dspStat 0 true).wrBit (Reg.dspHitch 9) 0 true

/-- A cart of hitch 9. -/
def cart (kind ord : Nat) (pl : CartPlace) : Cart := ⟨3, 0, 9, 2, kind, 5, 0, ord, 0, 0, 0, pl⟩

/-- The dispatcher with carts. -/
def carts (l : List Cart) : Chip := { disp with dsp := { disp.dsp with carts := l } }

/-- Event 900 mapped: EVMAP word, and its pending count. -/
def mapped (w pending : Nat) (l : List Cart) : Chip := { (carts l).wr (Reg.dspEvmap 900) (wn w) with dsp := { (carts l).dsp with
  pend := if pending = 0 then [] else [(900, pending)]
  coal := [(900, 1)] } }

theorem witness_RaisesMakeCartsOrWait : run.rst.inCore = false ∧ 896 ≤ fld 896 9 0 ∧ fld 895 9 0 < 896 ∧ evEn run 900 = false ∧
    (let s := mapped 0xA009 0 [cart 0 0 .queued]
     evEn s 900 = true ∧ evCoal s 900 = true ∧ coalCart s 900 = some (cart 0 0 .queued)) ∧
    (let s := mapped 0x8009 0 []
     evEn s 900 = true ∧ evCoal s 900 = false ∧ (decide (1 > 0) && eventMay s 900 && pendOf s 900 == 0) = true ∧ s.dsp.carts.length < 4096) ∧
    (∀ n ∈ [65534, 65535], evEn (mapped 0x8009 n []) 900 = true ∧ evCoal (mapped 0x8009 n []) 900 = false ∧
      (decide (1 > 0) && eventMay (mapped 0x8009 n []) 900 && pendOf (mapped 0x8009 n []) 900 == 0) = false ∧
      pendOf (mapped 0x8009 n []) 900 = n) ∧
    (let s := mapped 0x8009 3 []
     dspRuns s = true ∧ s.dsp.pend = [(900, 3)] ∧ s.dsp.posts = [] ∧ s.dsp.raises = [] ∧ s.dsp.ops = [] ∧ TimersRest s ∧
       65 < freeCarts s ∧ suspended s (evHitch s 900) = false) ∧
    (Still run ∧ run.dsp.pend = []) := by decide +kernel

theorem witness_PostsMakeCartsOrStall :
    (let s := disp
     s.rst.inCore = false ∧ dspRuns s = true ∧ Tab.get none s.dsp.posts 9 = none ∧ s.dsp.posts = [] ∧ s.dsp.ops = [] ∧ hitchEn s (fld 8 9 0) = false ∧
       hitchEn s (fld 9 9 0) = true ∧ postMay s 9 = true ∧ (bit 0x10009 16 = true ∧ (s.rd (Reg.dspPpostdly 9)).toNat = 0) ∧ ¬ bit 9 16 = true ∧
       (let t := s.wr (Reg.dspPpostdly 9) 16777216
        ¬ (bit 0x10009 16 = true ∧ ((t.rd (Reg.dspPpostdly 9)).toNat = 0 ∨ 16777216 < (t.rd (Reg.dspPpostdly 9)).toNat))) ∧
       let u := s.wr (Reg.dspPpostdly 9) 16777217
       16777216 < (u.rd (Reg.dspPpostdly 9)).toNat) ∧
    (let s := { disp with dsp := { disp.dsp with carts := List.replicate 4032 (cart 0 0 .queued) } }
     hitchEn s 9 = true ∧ postMay s 9 = false ∧ s.dsp.posts = []) ∧
    (Still run ∧ dspRuns run = false ∧ run.dsp.posts = []) ∧
    (let s := { disp with dsp := { disp.dsp with posts := [(9, some (9, 4, 0))] } }
     dspRuns s = true ∧ s.dsp.posts = [(9, some (9, 4, 0))] ∧ postMay s 9 = true ∧ s.dsp.pend = [] ∧ s.dsp.raises = [] ∧ s.dsp.ops = [] ∧
       TimersRest s) := by
  refine ⟨by decide +kernel, by decide +kernel, by decide +kernel, by decide +kernel⟩

theorem witness_TakeDoneCancel : (disp.rst.inCore = false ∧ dspRuns disp = true ∧ disp.dsp.ops = []) ∧
    [(⟨0, 0x20, 3⟩ : PortOp), ⟨9, 0x20, 3⟩].Pairwise (fun a b => 16 * opStep a.reg + a.port ≤ 16 * opStep b.reg + b.port) ∧
    (serviceCart (carts [cart 1 0 (.prefetched 9)]) 9 = none ∧ slotCart (carts [cart 1 0 (.prefetched 9)]) 9 = some (cart 1 0 (.prefetched 9))) ∧
    (serviceCart disp 9 = none ∧ slotCart disp 9 = none) ∧
    (serviceCart (carts [cart 1 0 (.inService 9)]) 9 = some (cart 1 0 (.inService 9)) ∧ (cart 1 0 (.inService 9)).tag = (3 : Word).toNat ∧
      (cart 1 0 (.inService 9)).tag ≠ (4 : Word).toNat) ∧
    (∀ pl ∈ [CartPlace.inService 9, .queued],
      (carts [cart 1 0 pl]).dsp.carts.find? (fun c => c.tag == (3 : Word).toNat) = some (cart 1 0 pl)) := by decide +kernel

/-- Step timer of hitch 9. -/
def timed (armed wait : Bool) : Chip := { disp with dsp := { disp.dsp with timers := [(9, ⟨0, 2, armed, wait⟩)] } }

theorem witness_StepTimersAndDeferredCarts : (disp.rst.inCore = false ∧ dspRuns disp = true ∧ disp.dsp.ops = [] ∧ disp.dsp.zeroAt ≠ some disp.tb.tick) ∧
    (∀ w : Bool, dspRuns (timed true w) = true ∧ (timed true w).dsp.timers = [(9, ⟨0, 2, true, w⟩)] ∧ hitchEn (timed true w) 9 = true ∧
      suspended (timed true w) 9 = false ∧ 64 < freeCarts (timed true w) ∧ (timed true w).tb.phase = 0 ∧
      (timed true w).dsp.zeroAt ≠ some (timed true w).tb.tick ∧ (timed true w).dsp.ops = [] ∧ tickSince (timed true w).tb.tick 0 < 2 ^ 47) ∧
    disp.dsp.posts = [] ∧ (Still run ∧ dspRuns run = false) ∧ (Still (atPh disp 1) ∧ (atPh disp 1).tb.phase ≠ 0) ∧
    (Still disp ∧ disp.dsp.timers.any (fun e => e.2.wait) = false) := by decide +kernel

/-- Port 9 serves hitch 9, with LEN in its staging page. -/
def serving (len : Nat) : Chip := { carts [cart 1 0 (.inService 9)] with
  fills := [⟨0x03000000, 0x200000, 0⟩]
  mem := cellsFrom (stagingAddr 9 + 6) (leBytes 2 len) }

/-- A commit of hitch 9 with SEQ 1 under way on port 9. -/
def committing : Chip := { run with
  mem := cellsFrom (pageAddr 9) (leBytes 4 1)
  dsp := { run.dsp with commits := [(9, some ⟨9, List.replicate 1012 0, some 1⟩)] } }

/-- Core 9 with a watchdog of one tick, kicked at 0 ns. -/
def kicked : Chip := { calm ((run.wr Reg.sysRstcfg 3).wr (coreWdcfg 9) 1) with dsp := { run.dsp with kicks := [(9, some 0)] } }

theorem witness_PagesAndWatchdogs : (∀ len ∈ [1000, 1001], Undamaged (serving len) (stagingAddr 9) 1016 ∧ Undamaged (serving len) (pageAddr 9) 4 ∧
      (∀ q < 10, Tab.get none (serving len).dsp.commits q = none)) ∧
    (let s := { serving 1000 with dsp := { (serving 1000).dsp with
       commits := [(2, some ⟨8, [], some 5⟩)]
       jturn := 2 } }
     s.dsp.jturn = 2 ∧ Tab.get none s.dsp.commits 2 = some ⟨8, [], some 5⟩ ∧ (serviceCart s 9).any (fun c => c.hitch == 9) = true) ∧
    (∀ len ∈ [1000, 1001], Memory.wf (serving len).mem = true ∧ dspRuns (serving len) = true ∧ (serving len).rst.inCore = false ∧
      (serving len).rdBit (Reg.dspPjstat 9) 0 = false ∧ (serving len).dsp.ops = [] ∧ (serviceCart (serving len) 9).any (fun c => c.hitch == fld 9 9 0) = true ∧
      (serviceCart (serving len) 9).any (fun c => c.hitch == fld 8 9 0) = false ∧ leAt ((serving len).bytes (stagingAddr 9) 1016) 6 2 = len) ∧
    (Still run ∧ dspRuns run = false) ∧
    (let s := disp.wrBit (Reg.dspPjstat 9) 0 true
     Still s ∧ s.rst.inCore = false ∧ Memory.wf s.mem = true ∧ dspRuns s = true ∧ s.rdBit (Reg.dspPjstat 9) 0 = true) ∧
    (Tab.get [] committing.dsp.stalls 9 = [] ∧ Memory.wf committing.mem = true ∧ Tab.get none committing.dsp.commits 9 = some ⟨9, List.replicate 1012 0, some 1⟩ ∧
      (∀ q, q ≠ 9 → Tab.get none committing.dsp.commits q = none) ∧ (List.replicate 1012 (0 : Byte)).length = 1012 ∧ ofLe (committing.bytes (pageAddr 9) 4) = 1) ∧
    (let s := atTick kicked 1
     Tab.get none s.dsp.kicks 9 = some 0 ∧ s.rdF (coreWdcfg 9) 23 0 ≠ 0 ∧ s.rdF (coreStat 9) 1 0 ≠ 3 ∧
       10000 * s.rdF (coreWdcfg 9) 23 0 ≤ s.tickTimeSince 0 ∧ s.books.faultQ.length < 16 ∧ rateExceeded s = false) ∧
    (Still (atPh kicked 9999) ∧ (atPh kicked 9999).tickTimeSince 0 < 10000 * (atPh kicked 9999).rdF (coreWdcfg 9) 23 0) ∧
    (Still kicked ∧ kicked.rst.inCore = false ∧ (kicked.wr (coreStat 9) 1).rdF (coreStat 9) 1 0 = 1 ∧ Still (kicked.wr (coreStat 9) 1) ∧
      kicked.rdF (coreStat 9) 1 0 ≠ 1 ∧ kicked.rdF (coreStat 9) 1 0 ≠ 2) ∧
    Tab.get none run.dsp.kicks 9 = none ∧
    (let s := { atTick (run.wr (coreStat 7) 1) 100 with dsp := { run.dsp with stage3 := some 0 } }
     s.dsp.stage3 = some 0 ∧ s.rdF (coreStat 7) 1 0 = 1 ∧ 0 + 1000000 ≤ s.nowNs) ∧ run.dsp.stage3 = none := by
  refine ⟨?_, by decide +kernel, by decide +kernel, by decide +kernel, by decide +kernel,
    ⟨by decide +kernel, by decide +kernel, by decide +kernel, fun q h => (tab_one none 9 q _).trans (if_neg h), List.length_replicate, by decide +kernel⟩, by decide +kernel,
    by decide +kernel, by decide +kernel, by decide +kernel, by decide +kernel, by decide +kernel⟩
  intro len _
  have clean : ∀ q, 0x03000000 ≤ q → q < 0x04000000 → flipsAt (serving len) q = 0 := fun q h1 h2 =>
    flipsAt_written rfl (by
      have hs : isSram q = false := decide_eq_false (by omega)
      have hd : isDram q = false := decide_eq_false (by omega)
      have ht : isTcmAt q = false := decide_eq_false (by simp only [tcmBase]; omega)
      have hi : isIslandSram q = false := decide_eq_false (by simp only [islandSram]; omega)
      simp only [neverWritten, hs, hd, ht, hi, Bool.or_false, Bool.false_and])
  exact ⟨undamaged_block (by decide) (fun q h1 h2 => clean q (by simp only [stagingAddr] at h1; omega) (by simp only [stagingAddr] at h2; omega)),
    undamaged_block (by decide) (fun q h1 h2 => clean q (by simp only [pageAddr] at h1; omega) (by simp only [pageAddr] at h2; omega)),
    fun _ _ => rfl⟩

theorem witness_ScrubbersAndTracker :
    (∀ a ∈ [0, 61],
      let s := { (run.wrBit Reg.memSscrub 16 true).wr Reg.memSinit 0xFFFF with memu := { run.memu with init := true } }
      s.rdBit Reg.memSscrub 16 = true ∧ arrayInit s a = true ∧ arrayLive s a = true) ∧
    (Memory.wf run.mem = true ∧ (wordErr (upset run 0x03000000 [1]) 0x600000 0x03000000 0x03000008).2 = 1 ∧
      (wordErr (upset run 0x03000000 [3]) 0x600000 0x03000000 0x03000008).2 = 2 ∧ Still run ∧ ¬ arrayInit run 0 = true) ∧
    ([(5, [1])] : List (Nat × List Nat)).find? (fun e => e.1 == 5) = some (5, [1]) ∧ run.memu.wback = [] ∧ isDram (8 * 5) = false ∧
    dscrubRuns (run.wrBit Reg.memDscrcfg 31 true) = true ∧ dscrubRuns (run.wrBit Reg.memDscrcfg 31 false) = false := by decide +kernel

theorem witness_RefreshAndFills :
    run.memu.selfRef = false ∧ (85 : Int) ≤ 85 ∧ refRow 86 > run.rdF Reg.memStat 4 3 ∧ refRow 85 ≤ run.rdF Reg.memStat 4 3 ∧
    (let s := { (atTick run 10000).wrF Reg.memStat 4 3 1 with memu := { run.memu with cool := some 0 } }
     s.rdF Reg.memStat 4 3 ≠ 0 ∧ (80 : Int) ≤ rowEdge (s.rdF Reg.memStat 4 3) - 5 ∧ s.memu.cool = some 0 ∧ 0 + 100000000 ≤ s.nowNs) ∧
    (let s := { run with memu := { run.memu with selfRef := true } }
     Still s ∧ s.memu.selfRef = true) ∧
    (MayWrite run (.sup 0) Reg.memFillcmd ∧ Still run ∧ bit 0 0 = false ∧ bit 1 0 = true ∧ fillCheck run 0 0 ≠ 0) ∧
    (let s := (run.wr Reg.memFilladrlo 0x01FFFFC0).wr Reg.memFilllen 64
     MayWrite s (.sup 0) Reg.memFillcmd ∧
       fillCheck s ((s.rd Reg.memFilladrlo).toNat + s.rdF Reg.memFilladrhi 7 0 * 2 ^ 32) (s.rd Reg.memFilllen).toNat = 0) ∧
    (let s := { run with memu := { run.memu with fill := some (0x03000000, 64, 5, 0) } }
     s.memu.fill = some (0x03000000, 64, 5, 0)) ∧ run.memu.fill = none ∧ MayWrite run (.sup 0) Reg.memSinit := by decide +kernel

/-- The odometer running at HOURS `h` and HFRAC `f`. -/
def odo (h f : Nat) : Chip := { ((run.wrBit Reg.odoStat 0 true).wr Reg.odoHours (wn h)).wrF Reg.odoHfrac 11 0 f with
  pwr := { run.pwr with porst := true } }

theorem witness_OdometerTimeAndExtremes : (odo 9 3599).rdF Reg.odoHfrac 11 0 < 3600 ∧ ((odo 9 3599).rd Reg.odoHours).toNat < 2 ^ 32 - 1 ∧
    operating (odo 9 3599) = true ∧ (Still run ∧ operating run = false) ∧ odoRuns (odo 9 3599) = true ∧ (odo 9 3599).rdF Reg.odoHfrac 11 0 = 3599 ∧ (((odo 9 3599).rd Reg.odoHours).toNat + 1) % 2 ^ 32 % 10 = 0 ∧
    (((odo (2 ^ 32 - 1) 3599).rd Reg.odoHours).toNat + 1) % 2 ^ 32 % 10 = 0 ∧ (odo (2 ^ 32 - 1) 3599).rdF Reg.odoHfrac 11 0 = 3599 ∧
    Tab.get 0 run.odo.hist 256 < 2 ^ 32 - 1 ∧ (-2147483648 : Int) < -2147483647 ∧ (-2147483647 : Int) < 2147483647 := by decide +kernel

/-- A snapshot being written to copy 1. -/
def snapping : Chip := { run with odo := { run.odo with write := some ⟨1, 1, 7, leBytes 4 7 ++ List.replicate 4080 0, 0, 0, false⟩ } }

theorem witness_SnapshotsNeverTouchTheGoodCopy :
    (let s := { odo 0 0 with odo := { run.odo with waits := 1 } }
     odoRuns s = true ∧ s.odo.waits ≠ 0 ∧ s.odo.write = none ∧ s.odo.clear = none ∧ s.tb.phase = 0) ∧
    (Still run ∧ ¬ odoRuns run = true ∧ run.odo.write = none) ∧
    snapping.odo.write = some ⟨1, 1, 7, leBytes 4 7 ++ List.replicate 4080 0, 0, 0, false⟩ ∧
    (leBytes 4 7 ++ List.replicate 4080 (0 : Byte)).length = 4084 ∧ leAt (leBytes 4 7 ++ List.replicate 4080 0) 0 4 = 7 ∧
    Memory.wf snapping.mem = true := by
  refine ⟨by decide +kernel, by decide +kernel, rfl, ?_, by decide +kernel, by decide +kernel⟩
  simp only [List.length_append, List.length_replicate, leBytes_length]

/-- Port H3 in maintenance, with `n` clears done. -/
def maint (n : Nat) : Chip := ((calm run).wrBit Reg.safStat 8 true).wrF Reg.odoClrstat 15 8 n

theorem witness_ClearsAreMaintenanceOnly : (Still run ∧ MayWrite run (.sup 0) Reg.odoCmd) ∧ (Agent.sup 0 ≠ .h3 ∧ run.rst.inCore = false) ∧
    (∀ n ∈ [254, 255], MayWrite (maint n) .h3 Reg.odoClr ∧ Still (maint n) ∧ (maint n).rdF Reg.odoClrstat 15 8 = n ∧
      (maint n).odo.write = none ∧ (maint n).odo.clear = none) ∧
    fld 7 2 0 ≠ 0 ∧ fld 8 2 0 = 0 ∧
    (let s := { maint 0 with odo := { run.odo with clear := some ⟨7⟩ } }
     MayWrite s .h3 Reg.odoClr ∧ Still s ∧ s.odo.clear = some ⟨7⟩ ∧ s.tb.phase = 0 ∧ s.odo.write = none ∧
       (atPh s 1).odo.clear = some ⟨7⟩ ∧ Still (atPh s 1) ∧ (atPh s 1).tb.phase ≠ 0) ∧ run.odo.clear = none := by
  refine ⟨?_, ?_, ?_, ?_, ?_, ?_, ?_⟩ <;> decide +kernel
/-- The island in state `n` with no profile; and with profile bytes. -/
def island (n : Nat) : Chip := (calm (run.wr Reg.sysRstcfg 3)).wrF Reg.safStat 2 0 n
def profiled (n : Nat) (prof : List Byte) : Chip := { island n with isl := { Island.zero with
  prof := prof
  cfgAcc := some 3 } }

theorem witness_IslandFaultsEndInSafe : (∀ n ∈ [0, 1, 2, 3, 4], Still (island n) ∧ islState (island n) = n ∧ (island n).boot.on = true) ∧
    (∀ n ∈ [(1979 : Nat), 1980, 1620], (1980 < 1981 ∧ 1619 < 1620) ∧ 1620 ≤ n ∧ n ≤ 1980) ∧
    (supplyHigh (island 0) = false ∧ (let s := { island 0 with pwr := { run.pwr with safeMv := some 1981 } }
     supplyHigh s = true ∧ supplyLow s = false ∧ islState s = 0 ∧ s.boot.on = true)) ∧
    (supplyLow (island 0) = false ∧ (let s := { island 0 with pwr := { run.pwr with safeMv := some 1619 } }
     supplyLow s = true ∧ Still s) ∧ ({ island 0 with pwr := { run.pwr with safeMv := some 1668 } }).pwr.safeMv = some 1668) ∧
    (degradedNow (island 2) = false ∧ degradedNow { island 2 with isl := { Island.zero with degTick := some 0 } } = true ∧
      ({ island 4 with isl := { Island.zero with safeTick := some 0 } }).isl.safeTick = some (island 4).tb.tick) ∧
    (∀ t ∈ [0, 1], ({ island 3 with isl := { Island.zero with degEnd := some t } }).isl.degEnd = some t) ∧
    (island 3).nowNs < 1 ∧ 0 ≤ (island 3).nowNs ∧ (island 3).isl.degEnd = none ∧ Chip.reset.boot.on = false := by decide +kernel

/-- A node of the island fresh since TICK 0, and a pair that differs since TICK 0. -/
def aged (told : Bool) : Chip := { (profiled 2 (List.replicate 12 0)).wrBit Reg.safNode 15 true with isl := { (profiled 2 (List.replicate 12 0)).isl with
  nodes := [(15, ⟨none, some 0, 0⟩)]
  pairs := [(11, ⟨false, false, some 0, told⟩)] } }

theorem witness_IslandSamplesInputs :
    (islState (profiled 2 [1]) ≠ 0 ∧ hasProf (profiled 2 [1]) = true ∧ (profiled 2 [1]).isl.cfgAcc = some 3 ∧ fld 3 15 0 = 3) ∧
    (Still (island 0) ∧ islState (island 0) = 0) ∧ (islState (island 2) ≠ 0 ∧ hasProf (island 2) = false ∧ (island 2).isl.profiles = []) ∧
    (let s := atTick (aged false) 1
     (Tab.get SafePair.zero s.isl.pairs 11).differ = some 0 ∧ 100 * pf s 12 2 < tickSince s.tb.tick 0 ∧
       (Tab.get SafePair.zero s.isl.pairs 11).told = false ∧ islState s = 2 ∧ recurs s 12 22 = false ∧ degradedNow s = false ∧
       (Tab.get SafeNode.zero s.isl.nodes 15).last = some 0 ∧ pf s 11 1 < tickSince s.tb.tick 0 ∧ isFresh s 15 = true) ∧
    (Still (aged true) ∧ (Tab.get SafePair.zero (aged true).isl.pairs 11).told = true ∧
      tickSince (aged true).tb.tick 0 ≤ pf (aged true) 11 1 ∧ isFresh run 15 = false) := by decide +kernel

/-- A profile with test pulses on lines 0 to 3 at TICKs 0, 16, 32, 48 of every 2^10, input 3 on line 3 and output 15 with off pulses. -/
def prof : List Byte :=
  List.replicate 19 0 ++ [4] ++ List.replicate 20 0 ++ [26, 0, 0, 0, 26, 0, 0, 0, 26, 0, 0, 0, 26, 0, 0, 0] ++ List.replicate 60 0 ++ [48, 1, 100, 0]

/-- Test pulse 3 low with input 3 high at its start; an off pulse of output 15 since 1,000 ns, which lasts 100 µs (OPW of `prof`). -/
def pulsing (low : Bool) : Chip := { profiled 2 prof with isl := { (profiled 2 prof).isl with
  tpLow := if low then [3] else []
  tpRaw := [3]
  outs := [(15, ⟨0, some 1000, false⟩)] } }

theorem witness_IslandTestPulses :
    (let s := atTick (pulsing false) 48
     islState s ≠ 0 ∧ hasProf s = true ∧ tpTick s 3 = true ∧ s.isl.tpLow.contains 3 = false ∧ Still s) ∧
    (Still (pulsing false) ∧ ¬ tpTick (pulsing false) 3 = true) ∧
    (let s := pulsing true
     s.isl.tpLow.contains 3 = true ∧ s.isl.tpRaw.filter (fun n => pf s (16 + n) 1 % 8 == 3 + 1 && natBit (0 : Word).toNat n) = [] ∧
       s.isl.tpRaw.filter (fun n => pf s (16 + n) 1 % 8 == 3 + 1 && natBit (8 : Word).toNat n) = [3] ∧ islState s = 2 ∧ recurs s 11 3 = false ∧
       degradedNow s = false ∧ (Tab.get SafeOut.zero s.isl.outs 15).pulse = some 1000 ∧ (Tab.get SafeOut.zero s.isl.outs 15).checked = false ∧
       recurs s 10 15 = false ∧ Still s) ∧
    (let due := 1000 + 1000 * soCfg (pulsing false) 15 25 16
     due = 101000 ∧ (atTick (pulsing false) 10).inTick (due - 500) = true ∧ (atTick (pulsing false) 10).inTick due = true ∧
       (pulsing false).inTick (due - 500) = false ∧ (pulsing false).inTick due = false) ∧
    (let s := (atTick (profiled 2 prof) 960).wrBit Reg.safOut 31 true
     s.rdBit Reg.safOut (16 + 15) = true ∧ soCfg s 15 4 4 = 1 ∧ s.tb.tick % 2 ^ (soCfg s 15 3 0 + 10) = 64 * 15 ∧
       (Tab.get SafeOut.zero s.isl.outs 15).pulse = none) ∧
    (Still run ∧ (Tab.get SafeOut.zero run.isl.outs 15).pulse = none) := by decide +kernel

/-- Rule 31 demanding since TICK 0, with the acknowledgement waiting or not. -/
def ruled (n : Nat) (ack : Bool) : Chip := { (profiled n [0, 0, 0, 0, 0, 0, 2]).wrBit Reg.safDemand 31 true with isl := { (profiled n [0, 0, 0, 0, 0, 0, 2]).isl with
  ack := ack
  demandAt := [(31, some 0)] } }

theorem witness_RulesDriveTheOutputs :
    (∀ n ∈ [1, 2, 3, 4], hasProf (ruled n false) = true ∧ islState (ruled n false) = n ∧ (ruled n false).isl.ack = false) ∧
    (islState (ruled 2 true) = 2 ∧ (ruled 2 true).isl.ack = true) ∧
    (∀ p ∈ [5800, 9300], let s := atPh (ruled 2 false) p
      delayRun s 31 = true ∧ 5800 ≤ s.tb.phase ∧ s.tb.phase ≤ 9300) ∧
    (∀ p ∈ [5799, 9301], let s := atPh (ruled 2 false) p
      Still s ∧ ¬ (5800 ≤ s.tb.phase ∧ s.tb.phase ≤ 9300)) ∧
    (Still (ruled 2 false) ∧ MayWrite (ruled 2 false) .h0 Reg.safAck ∧ bit 1 0 = true ∧ natBit (pf (ruled 2 false) 6 1) 1 = true ∧
      islState (ruled 2 false) ≠ 0 ∧ bit 0 0 = false) := by decide +kernel

/-- CORE held in reset by a warm restart. -/
def heldCore (c : Chip) : Chip := { c with rst := { c.rst with inCore := true } }

/-- H3 attached and configured, with a command of its own. -/
def usb : Chip := run.wr Reg.svcStat 3
def usbCmd : HostCmd := ⟨.h3, 0, false, 0, 0, 0, []⟩

theorem witness_HostCommandTurn : (Still run ∧ cmdReady run 0x01 (cmd 0 0 []) = false) ∧
    (∀ op ∈ [0x20, 0x21, 0x22, 0x50, 0x51, 0x52, 0x58, 0x59, 0x5A], cmdReady usb op usbCmd = true) ∧ usb.rst.inCore = false ∧
    (∀ a ∈ [Authority.recipe, .mail, .restart, .consist, .flash], holds usb usbCmd.port a = false) ∧
    (cmdReady jtag 0x10 (cmd 0 0 []) = true ∧ cmdReady jtag 0x11 { cmd 0 0 [] with norsp := true } = true ∧ holds jtag (cmd 0 0 []).port .claim = false) ∧
    ((heldCore jtag).rst.inCore = true ∧ (∀ op ∈ [0x20, 0x22, 0x04, 0x05], cmdReady (heldCore jtag) op (cmd (wn (Reg.canCtl 0 - 0x10000000)) 1 [0, 0, 0, 0]) = true) ∧
      touchesCore (wn (Reg.canCtl 0 - 0x10000000)).toNat (min (1 : Word).toNat 256) = true) ∧
    (vectorOpen linked 5 = false ∧ vectorOpen (linked.wrBit (vectorCtl 5) 0 true) 5 = true ∧ h0Up (linked.wrBit (vectorCtl 5) 0 true) = true) ∧
    (h0Up run = false ∧ h0Up linked = true ∧ usb.rdBit Reg.svcStat 0 = true) := by decide +kernel

/-- Memory of the boot flash and the alarm table zero. -/
def flash : Chip := { jtag with fills := [⟨flashBase, 2 ^ 32, 0⟩] }

theorem witness_HostReadsAnswerTheState :
    ((readSpan (upset jtag 0x03060000 []) 16 0x03060000 8).cls ≠ 2 ∧ (readSpan (upset jtag 0x03060000 [3]) 16 0x03060000 8).cls = 2 ∧
      jtag.memu.fill = none ∧ jtag.tb.phase < 9000) ∧
    (Undamaged jtag 0x03060000 8 ∧ (∀ i, i < 180 → Undamaged jtag (entryAt (262144 - 180 + i)) 8) ∧
      (∀ sid e, Tab.get? jtag.store.entries sid = some e → e.ue = false) ∧
      ∀ i q p, i < 4 → placeOf (bar0 0x100 + 4 * i) = some q → q.storedAt (bar0 0x100 + 4 * i) = some p → Undamaged jtag p 4) ∧ (∀ op ∈ [0x01, 0x02, 0x04, 0x06, 0x12, 0x30], MaySend jtag op .read (cmd 0 0 []) ∧ MaySend jtag op .read (cmd 0 0 [1])) ∧
    MaySend jtag 0x41 .attest (cmd 0 0 []) ∧ MaySend jtag 0x58 .flash (cmd 0 0 []) ∧ (cmd 0 0 [1]).body ≠ [] ∧ jtag.rst.inCore = false ∧
    ((262144 - 180 : Nat) + 180 ≤ 262144 ∧ (262144 : Nat) < (262144 - 180) + 181) ∧
    (let reads := fun (a i : Nat) => (placeOf (bar0 a + 4 * i)).isSome && answersRead jtag (portSrc .jtag) (bar0 a + 4 * i)
     (∀ i, i < 4 → reads 0x100 i = true) ∧ reads 0x3000000 0 = false ∧ (placeOf (bar0 0x100)).isSome = true) ∧
    ((memRead jtag (0x03060000 : Word).toNat).isSome = true ∧ isDram 0x03060000 = false ∧
      (memRead jtag 0x100000000).isSome = true ∧ isDram 0x100000000 = true ∧ jtag.stage = 0 ∧
      1 ≤ (jtag.wrF Reg.pwrStat 2 0 1).stage ∧ MaySend (jtag.wrF Reg.pwrStat 2 0 1) 0x06 .read (cmd 0 0 [])) := by
  refine ⟨by decide +kernel, ⟨undamaged_initialised rfl (by decide), fun i h => undamaged_initialised rfl (by simp only [entryAt]; omega),
    fun sid e h => (nofun : Tab.get? ([] : Tab Entry) sid = some e → e.ue = false) h, fun i q p h hq hp => ?_⟩, by decide +kernel⟩
  have hs : (List.range 4).all (fun i => ((placeOf (bar0 0x100 + 4 * i)).bind (·.storedAt (bar0 0x100 + 4 * i))).isNone) = true := by decide +kernel
  have hn := List.all_eq_true.1 hs i (List.mem_range.2 h)
  simp only [hq, Option.bind_some, hp, Option.isNone_some, Bool.false_eq_true] at hn

/-- A port JTAG command with `n` body bytes of 0. -/
def sized (n : Nat) : HostCmd := cmd 0 0 (List.replicate n 0)

/-- Entry 0 of the alarm table holds code 7; or every entry below 255 is in use. -/
def alarms (full : Bool) : Chip := { run with books := { run.books with
  alarms := if full then (List.range 255).map (fun k => (k, ⟨100 + k, 0, 1, 0, 0, 0⟩)) else [(0, ⟨7, 0, 1, 0, 0, 0⟩)] } }

theorem witness_HostWritesAndRegisterWrites :
    (MaySend jtag 0x03 .wsig (sized 8) ∧ (sized 8).body.length = 8 ∧ MaySend jtag 0x03 .wsig (sized 7) ∧ (sized 7).body.length % 8 ≠ 0) ∧
    (let w : P3Write := ⟨16, none, 5, .value 7, true⟩
     let s : Chip := { jtag with
       store := { jtag.store with p3q := [(10, [w])] }
       hst := { jtag.hst with wrsig := [(16, some ⟨⟨16, 0, false, 0⟩, 2, [0]⟩)] } }
     s.tb.phase < 9500 ∧ (p3Request w.form).isSome = true ∧ (∀ a, Tab.get [] s.store.p3q a = if a = 10 then [w] else []) ∧
       (∀ src, Tab.get none s.hst.wrsig src = if src = w.src then some ⟨⟨16, 0, false, 0⟩, 2, [0]⟩ else none) ∧ [(0 : Byte)].length + 1 = 2) ∧
    (∀ op ∈ [0x04, 0x05], MaySend jtag op .read (sized 4)) ∧ (sized 3).body.length % 4 ≠ 0 ∧ jtag.rst.inCore = false ∧
    ((regWrite jtag (portSrc .jtag) (0x10000000 + (0x100 : Word).toNat) 0 false).2 = .done ∧
      (regWrite jtag (portSrc .jtag) Reg.safAck 1 false).2 = .auth ∧ (regWrite jtag (portSrc .jtag) 0x1FFFFFFC 1 false).2 = .access ∧
      (regWrite { tiled 256 with hst := jtag.hst } (portSrc .jtag) (slotAddr 0 1 8) 1 false).2 = .waits) ∧
    (MaySend jtag 0x20 .recipe (cmd 96 0 []) ∧ (cmd 96 0 []).body = [] ∧ fld 96 9 0 = 96 ∧ fld 127 9 0 = 127 ∧ fld 128 9 0 = 128 ∧
      fld 95 9 0 = 95) ∧
    (placeOf 0x1FFFFFFC = none ∧ 0x1FFFFFFC < 0x20000000 ∧ Width.half ≠ .word) ∧
    ((placeOf Reg.sysTbtrim).isSome = true ∧ answers run (agentSrc .tlan) Reg.sysTbtrim = true ∧
      regAuth run (agentSrc .tlan) Reg.sysTbtrim = false ∧ Reg.sysTbtrim ≠ Reg.odoClr ∧ srcIsHost (agentSrc .tlan) = true ∧
      (placeOf Reg.safAck).isSome = true ∧ answers run (agentSrc (.sup 0)) Reg.safAck = true ∧
      regAuth run (agentSrc (.sup 0)) Reg.safAck = false ∧ srcIsHost (agentSrc (.sup 0)) = false) ∧
    (MayWrite run (.sup 0) Reg.sysEvten ∧ (match placeOf Reg.sysEvten with
      | some (.reg b u o r) => !isOnWord b o && (csRuns run b u o Reg.sysEvten && ((5 ^^^ run.rd Reg.sysEvten) &&& wn r.cs) != 0) == false &&
          rangeCode run b u o Reg.sysEvten 5 == 0 && (actingWrite run (agentSrc (.sup 0)) Reg.sysEvten b u o 5 false).isNone &&
          !tuneWaits run b u o 5
      | _ => false) = true) ∧
    (srcIsCore (agentSrc (.sup 0)) = true ∧ run.booted = true ∧ run.rst.inCore = false ∧ run.memu.fill = none ∧
      ∀ w ∈ [(Width.byte, 0x01FFFFFF), (.double, 0x01FFFFF8)], w.2 + widthLen w.1 ≤ 0x02000000) ∧
    (Still linked ∧ reachesStore linked .h0 = true ∧ srcIsCore (agentSrc (.seq 0)) = true ∧ reachesStore run (.seq 0) = true ∧
      ∀ w ∈ [(Width.byte, 0x021FFFFF), (.word, 0x021FFFFC), (.word, 0x02000000), (.double, 0x02000000)], w.2 % widthLen w.1 = 0 ∧ w.2 < 0x02200000) ∧
    (MayWrite run (.sup 0) Reg.hpcAlmraise ∧ findAlarm (alarms false).books.alarms 7 = some 0 ∧
      (Tab.get? (alarms false).books.alarms 0).isSome = true ∧ findAlarm (alarms false).books.alarms 8 = none ∧
      freeAlarm (alarms false).books.alarms 8 = some 1 ∧ findAlarm (alarms true).books.alarms 7 = none ∧
      freeAlarm (alarms true).books.alarms 7 = none ∧ MayWrite (alarms true) (.sup 0) Reg.hpcAlmraise) ∧
    (MayWrite (maint 0) .h3 Reg.secArbcmd ∧ MayWrite (maint 0) .h3 Reg.secFusecmd ∧ Still (maint 0)) := by
  refine ⟨?_, ⟨by decide, rfl, fun a => tab_one [] 10 a _, fun a => tab_one none 16 a _, rfl⟩, ?_, ?_, ?_, ?_, ?_, ?_, ?_, ?_, ?_, ?_, ?_, ?_⟩ <;> decide +kernel

/-- A MAIL command waiting for its response until 1 ms, with its frame waiting, gone, lost or answered. -/
def mailCmd (waitRsp : Bool) : MailCmd := ⟨⟨16, 0, false, 0⟩, 0x80000001, waitRsp, 1000000⟩
def mailing (waitRsp : Bool) (lost : List Nat) (q : List MailFrame) (rx : List (Nat × List Byte)) (src : Nat) : Chip :=
  { jtag with
    ewn := { jtag.ewn with
      engQ := q
      engRx := rx }
    hst := { jtag.hst with
      mails := [{ mailCmd waitRsp with hdr := ⟨src, 0, false, 0⟩ }]
      lost := lost } }

theorem witness_MailWarmAlarmsAndQuotes :
    (MaySend jtag 0x21 .mail (cmd 62 0 (List.replicate 1024 0)) ∧ MaySend jtag 0x21 .mail (cmd 63 0 []) ∧
      MaySend jtag 0x21 .mail (cmd 0 0 (List.replicate 1025 0)) ∧ fld 62 5 0 = 62 ∧ fld 63 5 0 = 63) ∧
    (let s := jtag.wr Reg.sysRstcfg 3
     MaySend s 0x22 .restart (cmd 0 0 []) ∧ s.rst.inCore = false ∧ s.restarting = false ∧ rateExceeded s = false ∧ s.stage ≠ 5) ∧
    (MaySend { alarms false with hst := jtag.hst } 0x31 .alm (cmd 7 0 []) ∧ fld 7 15 0 = 7 ∧ fld 0xFFFF 15 0 = 0xFFFF ∧
      findAlarm (alarms false).books.alarms 7 = some 0 ∧ findAlarm (alarms false).books.alarms 8 = none) ∧
    (MaySend jtag 0x40 .attest (sized 32) ∧ (sized 32).body.length = 32 ∧ (sized 31).body.length ≠ 32 ∧ jtag.rdBit Reg.secQstat 0 = false ∧
      (jtag.wrBit Reg.secQstat 0 true).rdBit Reg.secQstat 0 = true ∧
      MaySend (jtag.wrBit Reg.secQstat 0 true) 0x40 .attest (sized 32)) ∧
    (let m := mailCmd true
     let here : MailFrame := ⟨1, 0, false, 0x80000001, [], 1, 0, 0, 0, 0⟩
     let rsp : List Byte := List.replicate 12 0 ++ [1, 0, 0, 0x80]
     (mailing true [m.corr] [] [] 16).hst.mails = [m] ∧ rspRoom (mailing true [m.corr] [] [] 16) m.hdr = true ∧ m.corr ∈ [m.corr] ∧
     m.corr ∉ (mailing true [] [] [(1, rsp)] 16).hst.lost ∧
     (mailing true [] [] [(1, rsp)] 16).ewn.engRx.find? (fun e => leAt e.2 12 4 == m.corr) = some (1, rsp) ∧
     (mailing true [] [] [] 16).ewn.engRx.find? (fun e => leAt e.2 12 4 == m.corr) = none ∧
     m.stop ≤ (atTick (mailing true [] [] [] 16) 100).nowNs ∧ (mailing true [] [] [] 16).nowNs < m.stop ∧ Still (mailing true [] [] [] 16) ∧
     (mailCmd false).waitRsp = false ∧
     ((mailing false [] [] [] 16).ewn.engQ ++ (mailing false [] [] [] 16).ewn.unacked).all (fun f => !(f.own == 1 && f.corr == m.corr)) = true ∧
     ((mailing false [] [here] [] 16).ewn.engQ ++ (mailing false [] [here] [] 16).ewn.unacked).all
       (fun f => !(f.own == 1 && f.corr == m.corr)) = false ∧
     let full := ((mailing true [] [] [] 10).wr Reg.hpcStat 1).wrF Reg.hpcCqctl 4 1 0
     rspRoom full ⟨10, 0, false, 0⟩ = false ∧ Still full) ∧
    (let s := { jtag.wrBit Reg.pwrIslpwr 24 true with hst := { jtag.hst with attest := some ⟨16, 0, false, 0⟩ } }
     s.hst.attest = some ⟨16, 0, false, 0⟩ ∧ s.rdBit Reg.pwrIslpwr 24 = true ∧ rspRoom s ⟨16, 0, false, 0⟩ = true) ∧
    (Still run ∧ run.hst.attest = none) := by
  refine ⟨?_, ?_, ?_, ?_, ?_, ?_, ?_⟩ <;> decide +kernel

/-- The staging state `n` of port JTAG's Poermun. -/
def staged (n : Nat) : Chip := (jtag.wr Reg.sysRstcfg 3).wrF Reg.cstStat 3 2 n

/-- A patch record: kind 2, attribute 1 (the STALE limit) of SID 5, value 9; and one of an unknown kind. -/
def record (kind : Byte) : List Byte := [kind, 0, 1, 0, 5, 0, 0, 0, 0, 0, 0, 0, 9, 0, 0, 0]

/-- A record that writes a shadow word of slot 1 of tile 0, due at the next tick. -/
def patch (waited : Nat) : Patch := ⟨1, [[1, 0, 0, 0] ++ leBytes 4 (slotAddr 0 1 8) ++ [255, 0, 0, 0, 5, 0, 0, 0]], waited⟩
def patching (n waited : Nat) (restart : Bool) : Chip := { (tiled n).wrBit Reg.sysStat 1 restart with patch := some (patch waited) }

theorem witness_ConsistStageSwapPatchAndFlash :
    (MaySend (staged 0) 0x50 .consist (cmd 0 1 [1]) ∧ bit 1 0 = true ∧ (cmd 0 1 [1]).body.length ≤ 1440 ∧ cstStage (staged 0) ≠ 2 ∧
      swapping (staged 0) = false ∧ (0 : Word).toNat = 0 ∧ (staged 0).wr Reg.cstStglen 0 = staged 0) ∧
    (cstStage (staged 2) = 2 ∧ MaySend (staged 2) 0x50 .consist (cmd 0 1 [1]) ∧
      1440 < (sized 1441).body.length ∧ MaySend (staged 0) 0x50 .consist (sized 1441) ∧ (4 : Word).toNat ≠ 0) ∧
    (MaySend (staged 3) 0x51 .consist (cmd 0 0 []) ∧ swapCheck (cmdTake (staged 3) (cmd 0 0 [])) 0 = 0 ∧ rateExceeded (staged 3) = false ∧
      swapCheck (cmdTake (staged 0) (cmd 0 0 [])) 0 = 16 ∧ swapCheck (cmdTake (staged 3) (cmd 1 0 [])) 1 = 17) ∧
    (let s := { withSid false with hst := jtag.hst }
     MaySend s 0x52 .consist (cmd 0 0 (record 2)) ∧ (record 2).length % 16 = 0 ∧ (record 2).length ≠ 0 ∧ (record 2).length ≤ 1456 ∧
       s.patch.isNone = true ∧ s.rdBit Reg.sysStat 1 = false ∧ (65536 : Nat) ≤ 65536 ∧
       patchCheck (cmdTake s (cmd 0 0 (record 2))) ((chunks 16 1 (record 2)).map patchRec) = none ∧
       (cmd 0 0 (record 2)).arg1 = 0 ∧ (cmd 0 1 (record 2)).arg1 ≠ 0 ∧ MaySend s 0x52 .consist (cmd 0 1 (record 2)) ∧
       (patchCheck (cmdTake s (cmd 0 0 (record 9))) ((chunks 16 1 (record 9)).map patchRec)).isSome = true ∧ (sized 15).body.length % 16 ≠ 0) ∧
    (MaySend flash 0x59 .flash (cmd 0xFFFFF000 4096 []) ∧ (0xFFFFF000 : Word).toNat % 4096 = 0 ∧
      (0xFFFFF000 : Word).toNat + (4096 : Word).toNat ≤ 4294967296 ∧ flashBusy (cmdTake flash (cmd 0xFFFFF000 4096 [])) 0xFFFFF000 4096 = false ∧
      let s := { flash with boot := { flash.boot with slot := some 0 } }
      MaySend s 0x59 .flash (cmd 0 4096 []) ∧ flashBusy (cmdTake s (cmd 0 4096 [])) 0 4096 = true) ∧
    (MaySend flash 0x5A .flash (cmd 0xFFFFFFFE 2 [1, 2]) ∧ (cmd 0xFFFFFFFE 2 [1, 2]).body.length = (2 : Word).toNat ∧
      (0xFFFFFFFE : Word).toNat + (2 : Word).toNat ≤ 4294967296 ∧ flashBusy (cmdTake flash (cmd 0xFFFFFFFE 2 [1, 2])) 0xFFFFFFFE 2 = false) ∧
    (stageCheck (staged 2) (stagedImage (staged 2)) ((staged 2).rd Reg.cstStglen).toNat ((consistNow (staged 2)).bytes 13)).isSome = true ∧
    (Still run ∧ run.patch = none ∧ cstStage run ≠ 2) ∧
    (∀ w ∈ [15, 16],
      let s := { patching 256 w false with tb := { run.tb with tick := w } }
      s.patch = some (patch w) ∧ patchDue s (patch w) = true ∧ s.rdBit Reg.sysStat 1 = false ∧
        patchRoom (s.atPhase 9999) ((patch w).recs.map patchRec) = false) ∧
    (patchDue (patching 0 0 false) (patch 0) = true ∧ patchRoom ((patching 0 0 false).atPhase 9999) ((patch 0).recs.map patchRec) = true) ∧
    ((patching 0 0 true).rdBit Reg.sysStat 1 = true ∧ patchDue (patching 0 0 true) (patch 0) = true ∧
      patchDue (patching 0 1 false) (patch 1) = false ∧ Still (patching 0 1 false)) := by
  refine ⟨?_, ?_, ?_, ?_, ?_, ?_, ?_, ?_, ?_, ?_, ?_⟩ <;> decide +kernel
theorem witness_PortLinksComeAndGo : (∃ d ∈ dqOf { linked with hst := { run.hst with dq := [(7, [⟨0, 0, 0, 1, 0, 0, 0, 0, false⟩])] } } 7, d.cut = false) ∧
    h0Up linked = true ∧ (Still run ∧ h0Up run = false ∧ run.boot.on = true) ∧
    (∀ w ∈ [1, 2, 4], 1 ≤ (1 : Nat) ∧ (5 : Nat) ≤ 5 ∧ (w = 1 ∨ w = 2 ∨ w = 4)) ∧
    (∀ b : Bool, (run.wrBit Reg.tlnStat (b2n b) true).rdBit Reg.tlnStat (b2n b) = true ∧ run.rdBit Reg.tlnStat (b2n b) = false) ∧
    (let s := { run.wrBit Reg.tlnCtl 0 true with boot := { run.boot with loaded := true } }
     s.rdBit Reg.tlnCtl 0 = true ∧ s.rdBit Reg.tlnStat 2 = false ∧ s.boot.loaded = true) ∧
    (let s := { run.wrBit Reg.pwrIslpwr 25 true with hst := { run.hst with vbus := true }, pwr := { run.pwr with banks := some ⟨true, true, true, true, true⟩ } }
     usbLevel s = true ∧ s.booted = true ∧ s.rdBit Reg.sysStat 1 = false ∧ s.hst.vbus = true ∧ s.rdBit Reg.pwrIslpwr 25 = true ∧ s.rdBit Reg.svcStat 0 = false) ∧
    (usb.rdBit Reg.svcStat 0 = true ∧ run.rdBit Reg.svcStat 0 = false ∧ run.hst.vbus = false) := by decide +kernel

/-- The tool LAN up on both ports, with `n` commands waiting and a frame of a MAC seen on port A. -/
def lan (n : Nat) : Chip := { (run.wrBit Reg.tlnCtl 0 true).wrF Reg.tlnStat 1 0 3 with hst := { run.hst with
  lanQ := List.replicate n ⟨7, 1, false, 0⟩
  hsrSeen := [(5, 2 * 9 + 0, 0)] } }

/-- A frame of MAC `mac` for the Poermun's device frames, as `lan` has its own address and EtherType. -/
def devFrame (mac : BitVec 48) (pre : Word) (op : Byte) : DevFrame :=
  ⟨⟨false, 9, mac, BitVec.ofNat 48 (ownMac (lan 0)), BitVec.ofNat 16 ((lan 0).rdF Reg.tlnEtype 15 0), pre⟩, op, 0, 0⟩

/-- The PTP clock of `lan` on, with master 5 heard at 0 ns on TLA. -/
def clocked (heard : Bool) : Chip := { (lan 0).wrBit Reg.tlnCtl 3 true with hst := { (lan 0).hst with
  ptp := if heard then { PtpClock.zero with master := some (5, 0, 1), lastA := some 0 } else PtpClock.zero } }

theorem witness_ToolLanFramesAndSyncs : (Still run ∧ lanUp run = false) ∧
    (∀ n ∈ [63, 64], ∀ f ∈ [devFrame 4 0xA7 1, devFrame 4 0x100A7 1, devFrame 4 0x1A7 1, devFrame 5 0xA7 1, devFrame 4 0xA7 0x11],
      lanPort (lan n) f.portB = true ∧ f.mac.toNat ≠ ownMac (lan n) ∧ isDevice (lan n) f = true ∧
        (lan n).hst.hsrSeen.any (fun e => decide ((lan n).nowNs < e.2.2 + hsrForget) &&
          (e.1 == f.mac.toNat && (e.2.1 == 2 * f.seq.toNat || e.2.1 == 2 * f.seq.toNat + 1))) = (f.mac == 5)) ∧
    ((lan 63).hst.lanQ.length < 64 ∧ 64 ≤ (lan 64).hst.lanQ.length ∧ Still (lan 63)) ∧
    ((0xA7 : Word).toNat / 65536 = 0 ∧ (0x100A7 : Word).toNat / 65536 ≠ 0 ∧ (0x1A7 : Word).toNat / 256 % 256 ≠ 0) ∧
    isDevice (lan 0) { devFrame 4 0xA7 1 with dst := 9 } = false ∧
    (isHbeat (devFrame 4 0xA7 0x11) = true ∧ isHbeat (devFrame 4 0xA7 1) = false) ∧
    (usbUp usb = true ∧ tapOpen jtag = true ∧ inRecovery jtag = false ∧ (∀ c ∈ [usb, jtag], wrsigRuns c 12 = false ∧ wrsigRuns c 16 = false ∧
      turnComes c 2 = true ∧ turnComes c 3 = true ∧ c.booted = true ∧ Still c) ∧ (0x07 : Byte).toNat ∉ opcodes ∧ usbUp run = false) ∧
    (let z := { lan 0 with hst := { (lan 0).hst with lanQ := [⟨7, 0x07, false, 3⟩] } }
     z.hst.lanQ = [⟨7, 0x07, false, 3⟩] ∧ z.booted = true ∧ wrsigRuns z 11 = false ∧ 0x07 ∉ opcodes ∧ headUnknown z .h0 = none) ∧
    (∀ b : Bool, lanPort (lan 0) b = true ∧ lanPort run b = false) ∧
    ((5 : BitVec 48).toNat ≠ ownMac (lan 0) ∧ (0 : BitVec 48).toNat = ownMac (lan 0)) ∧
    (let before := fun (b : Bool) => (lan 0).hst.hsrSeen.any (fun e => decide ((lan 0).nowNs < e.2.2 + hsrForget) &&
      (e.1 == 5 && e.2.1 == 2 * 9 + b2n b))
     before false = true ∧ before true = false) ∧
    (let s := (lan 0).wr (Reg.clmSvcfg 0) 1
     svByMac s 0 = some 0 ∧ svByMac ((lan 0).wr (Reg.clmSvmaclo 0) 5 |>.wr (Reg.clmSvcfg 0) 1) 5 = some 0) ∧
    (let c := clocked true
     let m := sync 100 1
     (∀ b : Bool, lanPort c b = true) ∧ c.rdBit Reg.tlnCtl 3 = true ∧ m.domain.toNat = c.rdF Reg.tlnPtpcfg 7 0 ∧ Still c ∧
       masterNow c = some m.master ∧ (5 : Nat) < 6 ∧ c.hst.ptp.master.map (·.1) = some m.master ∧ c.nowNs < 0 + 3 * m.interval ∧
       (clocked false).hst.ptp.master.map (·.1) ≠ some m.master ∧ masterNow (clocked false) = none) := by
  refine ⟨?_, ?_, ?_, ?_, ?_, ?_, ?_, ?_, ?_, ?_, ?_, ?_, ?_⟩ <;> decide +kernel

/-- A descriptor of queue 7 in shared SRAM; DIR as `ctl`, `n` bytes. -/
def desc (ctl n : Nat) : DmaDesc := ⟨0, 0x01000000, ctl, n, 0x01001000, 0x5000, 9, 0, false⟩
def queued (ctl n : Nat) : Chip := { run with
  fills := [⟨0x01000000, 0x1000000, 0⟩]
  hst := { run.hst with dq := [(7, [desc ctl n])] } }

theorem queued_clean (ctl n : Nat) {p k : Nat} (h1 : 0x01000000 ≤ p) (h2 : p + k + 8 ≤ 0x02000000) : Undamaged (queued ctl n) p k :=
  undamaged_block (by omega) fun q a b => flipsAt_written rfl (by
    have hf : (queued ctl n).fills.any (fun f => decide (f.lo ≤ q) && decide (q < f.lo + f.len)) = true := by
      simp only [queued, List.any_cons, Bool.or_eq_true, Bool.and_eq_true, decide_eq_true_eq]
      exact .inl ⟨by omega, by omega⟩
    simp only [neverWritten, hf, Bool.not_true, Bool.and_false])

theorem witness_DescriptorsAreTakenAndEnd :
    (MayWrite run (.sup 0) (Reg.hpcDqtail 7) ∧ MayWrite run (.sup 0) (Reg.hpcDqctl 7) ∧ MayWrite run (.sup 0) Reg.hpcCqtail ∧
      MayWrite linked .h0 Reg.hpcCqtail ∧ run.rdF (Reg.hpcDqctl 7) 4 1 < 2) ∧
    (∀ n ∈ [2, 12], let s := run.wrF (Reg.hpcDqctl 7) 4 1 n
     MayWrite s (.sup 0) (Reg.hpcDqctl 7) ∧ 2 ≤ s.rdF (Reg.hpcDqctl 7) 4 1 ∧ s.rdF (Reg.hpcDqctl 7) 4 1 ≤ 12) ∧
    (Memory.wf run.mem = true ∧ ∀ ctl ∈ [0, 1], Memory.wf (queued ctl 1).mem = true) ∧
    (Still run ∧ dqOf run 7 = []) ∧
    (∀ n ∈ [0, 16777217], dqOf (queued 0 n) 7 = desc 0 n :: [] ∧ dqRangeBad (queued 0 n) (desc 0 n) = true) ∧
    (∀ n ∈ [1, 4096], ∀ ctl ∈ [0, 1], dqOf (queued ctl n) 7 = desc ctl n :: [] ∧ dqRangeBad (queued ctl n) (desc ctl n) = false ∧
      natBit (desc ctl n).ctl 0 = (ctl == 1) ∧ (queued ctl n).memu.fill = none ∧ Still (queued ctl n) ∧ (queued ctl n).rst.inCore = false ∧
      (heldCore (queued ctl n)).rst.inCore = true ∧ (desc ctl n).adr % 32 = 0) ∧
    (∀ n ∈ [1, 4096], Undamaged (queued 0 n) ((desc 0 n).adr + 28) 4 ∧ Undamaged (queued 0 n) (desc 0 n).ladr n ∧ Undamaged (queued 1 n) (desc 1 n).ladr n) ∧
    (let s := { queued 0 1 with memu := { run.memu with flips := [(0x01001000, 3)] } }
     dqOf s 7 = desc 0 1 :: [] ∧ (readBytes s 15 (desc 0 1).ladr (desc 0 1).len).2.2 = 2 ∧ Memory.wf s.mem = true) := by
  refine ⟨by decide +kernel, by decide +kernel, by decide +kernel, by decide +kernel, by decide +kernel, by decide +kernel, fun n hn => ?_,
    by decide +kernel⟩
  have h : n ≤ 4096 := by revert n; decide
  exact ⟨queued_clean 0 n (by simp only [desc]; omega) (by simp only [desc]; omega), queued_clean 0 n (by simp only [desc]; omega) (by simp only [desc]; omega),
    queued_clean 1 n (by simp only [desc]; omega) (by simp only [desc]; omega)⟩

/-- Supervisor 0 at H0 in state `n`, both paths up or the first only; a claim on H3. -/
def sups (n : Nat) (both : Bool) : Chip :=
  (((usb.wr (Reg.clmSvcfg 0) 0x00000101).wrF (Reg.clmSvstat 0) 18 16 n).wrBit (Reg.clmSvstat 0) 19 true).wrBit (Reg.clmSvstat 0) 20 both
def claimCmd (v : Word) : HostCmd := ⟨.h3, 0, false, 0, v, 0, []⟩

/-- The tool LAN holds a CLAIM command of a MAC that no supervisor has, or that of supervisor 0, whose home it is or not. -/
def lanClaim (home : Bool) : Chip :=
  { ((lan 0).wr (Reg.clmSvcfg 0) (wn (1 + 2 * b2n home))).wr (Reg.clmSvmaclo 0) 7 with hst := { (lan 0).hst with lanQ := [⟨7, 0x10, false, 0⟩] } }
def lanCmd (v : Word) : HostCmd := ⟨.tlan, 7, false, 0, v, 0, []⟩

theorem witness_ClaimsHeartbeatsAndLedgers :
    (MaySend (lanClaim true) 0x10 .claim (lanCmd 0xC000) ∧ (lanCmd 0xC000).body = [] ∧
      svOfSender (lanClaim true) (portSrc .tlan) 7 = some 0 ∧ svHome (lanClaim true) 0 = homeOf .tlan ∧
      (0xC000 : Nat) ≤ svCeiling (lanClaim true) 0 ∧ svCeiling (lanClaim true) 0 < 0xC001 ∧
      svOfSender (lanClaim false) (portSrc .tlan) 7 = some 0 ∧ svHome (lanClaim false) 0 ≠ homeOf .tlan ∧
      svOfSender ((lanClaim true).wr (Reg.clmSvmaclo 0) 8) (portSrc .tlan) 7 = none) ∧
    (MaySend usb 0x11 .claim { claimCmd 0 with norsp := true } ∧ (claimCmd 0).port = .h3 ∧ svHomeH0 usb = none ∧ Still usb ∧ MayWrite usb .h0 Reg.clmHb ∧
      svHomeH0 (sups 0 true) = some 0 ∧ MayWrite (sups 0 true) .h0 Reg.clmHb ∧ svState (sups 0 true) 0 = 0 ∧ pathUp (sups 0 true) 0 2 = true) ∧
    (∀ both : Bool,
      let s := atTick (sups 2 both) 300
      pathUp s 0 1 = true ∧ (svOf s 0).last1 + svLimit s 0 ≤ s.nowNs ∧ svState s 0 = 2 ∧ pathUp s 0 2 = both) ∧
    (Still (sups 2 true) ∧ ¬ (svOf (sups 2 true) 0).last1 + svLimit (sups 2 true) 0 ≤ (sups 2 true).nowNs) ∧
    (svState (atTick (sups 1 true) 200000) 0 = 1 ∧
      (svOf (sups 1 true) 0).pendAt + svHold (sups 1 true) 0 ≤ (atTick (sups 1 true) 200000).nowNs ∧ Still (sups 1 true) ∧
      ¬ (svOf (sups 1 true) 0).pendAt + svHold (sups 1 true) 0 ≤ (sups 1 true).nowNs) ∧
    (let breaks := fun (c : Chip) (l : Nat) => if ledTested (c.atPhase 9700) l then (equations (c.atPhase 9700) l).filter (fun e => e.2.1 != 0) else []
     let bad := { island 0 with books := { run.books with led := [(16 * 1, 1)] } }
     run.boot.on = true ∧ run.books.snapWaits = false ∧ (∀ l, l < 8 → breaks run l = []) ∧
       breaks bad 1 ≠ [] ∧ (∀ m, m < 8 → m ≠ 1 → breaks bad m = []) ∧ bad.books.snapWaits = false ∧
       bad.restarting = false ∧ rateExceeded bad = false ∧ bad.stage ≠ 5) ∧
    (MayWrite run (.sup 0) Reg.ldgCmd ∧ bit 1 0 = true ∧ bit 0 0 = false ∧ Still run) := by
  refine ⟨?_, ?_, ?_, ?_, ?_, ?_, ?_⟩ <;> decide +kernel

/-- Stage `n` with `k` samples below the threshold of the next. -/
def sagging (n k : Nat) : Chip := { run.wrF Reg.pwrStat 2 0 n with pwr := { run.pwr with below := [(n + 1, k)] } }
/-- Stage `n` left since 0 ns. -/
def leaving (n : Nat) : Chip := { run.wrF Reg.pwrStat 2 0 n with pwr := { run.pwr with leave := some 0 } }

theorem witness_SupplyGovernorAndSeal : (Still Chip.reset ∧ Chip.reset.boot.on = false) ∧
    (∀ n ∈ [0, 4], (sagging n 3).boot.on = true ∧ (sagging n 3).stage < 5 ∧
      (if 819 < enterBelow (n + 1) then min (Tab.get 0 (sagging n 3).pwr.below (n + 1) + 1) 4 else 0) = 4 ∧
      (if enterBelow (n + 1) < enterBelow (n + 1) then min (Tab.get 0 (sagging n 3).pwr.below (n + 1) + 1) 4 else 0) < 4) ∧
    (939 < enterBelow 1 ∧ ¬ 939 < enterBelow 2 ∧ (sagging 5 3).stage = 5) ∧
    (∀ p ∈ [(1, 1000), (5, 10000)], (leaving p.1).pwr.leave = some 0 ∧ (leaving p.1).stage ≠ 0 ∧
      0 + leaveTime (leaving p.1).stage ≤ (atTick (leaving p.1) p.2).nowNs ∧
      (atPh (atTick (leaving p.1) (p.2 - 1)) 9999).nowNs < 0 + leaveTime (leaving p.1).stage ∧ Still (leaving p.1)) ∧
    (Still run ∧ run.pwr.leave = none ∧ run.pwr.starts = [] ∧ run.pwr.rising = [] ∧ run.pwr.sealTick = none ∧ run.boot.on = true ∧
      run.pwr.therm = true ∧ run.books.faultQ.length < 16) ∧
    (let s := { run with pwr := { run.pwr with
       starts := [⟨31, 1, 0, false⟩, ⟨3, 0, 0, false⟩]
       rising := [(31, 800)]
       sealTick := some 0
       therm := false } }
     s.pwr.starts ≠ [] ∧ s.pwr.rising.find? (fun e => e.1 == 31) = some (31, 800) ∧ s.inTick 800 = true ∧ s.inTick 10000 = false ∧
       s.pwr.rising.any (fun e => e.2 == (s.atPhase 1000).nowNs + 800) = false ∧ 1000 < (atPh s 1001).tb.phase ∧ s.pwr.sealTick = some 0 ∧ Still s ∧ s.pwr.therm = false) := by
  refine ⟨?_, ?_, ?_, ?_, ?_, ?_⟩ <;> decide +kernel

/-- A warm restart under way, CORE held, and the reload done at TICK 4 or not; the hash registers hold the hash of no consist. -/
def restarted (done : Option Nat) : Chip :=
  let h := sha256 []
  let s := (List.range 8).foldl (fun (x : Chip) i => x.wr (Reg.secCsthash i) (wn (leAt h (4 * i) 4))) (island 2)
  { s.wrBit Reg.sysStat 1 true with rst := { s.rst with
    inCore := true
    cause := some (4, 0)
    reloaded := done } }

theorem witness_WarmRestartRunsItsCourse :
    (run.booted = true ∧ Still Chip.reset ∧ Chip.reset.booted = false ∧ (island 2).restarting = false ∧ rateExceeded (island 2) = false ∧
      (island 2).stage ≠ 5 ∧ (island 2).booted = true ∧ (restarted none).restarting = true ∧ (restarted none).booted = true ∧
      (restarted none).books.faultQ.length < 16) ∧
    (MayWrite run (.sup 0) Reg.sysRstreq ∧ srcIsCore (agentSrc (.sup 0)) = true ∧ MayWrite run .h0 Reg.sysRstreq ∧
      srcIsCore (agentSrc .h0) = false ∧ Still run) ∧
    (let s := { run with rst := { run.rst with cause := some (4, 0) } }
     s.rst.cause.isSome = true ∧ s.rdBit Reg.sysStat 1 = false) ∧ run.rst.cause.isSome = false ∧
    (let s := run.wrBit Reg.sysStat 1 true
     let t := atTick { s with can := [(0, { CanChan.zero with bus := some (pend 0 false) })] } 100
     s.rdBit Reg.sysStat 1 = true ∧ s.rst.inCore = false ∧ s.tb.phase ≤ 9600 ∧ t.tb.phase ≤ 9600 ∧ (∀ n, n < 8 → (canSt s n).bus = none) ∧
       t.rdBit Reg.sysStat 1 = true ∧ t.rst.inCore = false ∧ (canSt t 0).bus ≠ none ∧ t.rst.t0 + 1000000 ≤ (t.atPhase 9600).nowNs) ∧
    ((restarted none).rst.inCore = true ∧ (restarted none).rst.reloaded = none ∧ (restarted none).rst.swap = false ∧
      (∀ d ∈ tcmImages (restarted none), imageOk (restarted none) d = true) ∧
      sha256 (consistNow (restarted none)).img = regHash (restarted none) (Reg.secCsthash 0) ∧ Still (restarted none)) ∧
    (let s := atTick (restarted (some 4)) 5
     s.rst.inCore = true ∧ s.tb.phase = 0 ∧ s.rst.reloaded = some 4 ∧ 4 ≠ s.tb.tick ∧ Still (atTick s 4) ∧
       ¬ 4 ≠ (atTick s 4).tb.tick) ∧
    (MayWrite run (.sup 0) Reg.sysFack ∧ Still run ∧ bit 1 0 = true ∧
      ∀ cls ∈ [1, 2], ({ run with books := { run.books with faultQ := [⟨0x20, cls, true, 0, 0⟩] } }).books.faultQ = ⟨0x20, cls, true, 0, 0⟩ :: []) := by
  refine ⟨?_, ?_, ?_, ?_, ?_, ?_, ?_, ?_⟩ <;> decide +kernel
/-- The Poermun after one command. -/
def after (c : Instr) (s : Chip) : Chip :=
  match exec c (st s) with
  | .next t => t.chip
  | _ => s

/-! Helpers, against values worked out from the rules. -/

/-- 06 R257: the CRC of the nine bytes "123456789". -/
theorem test_crc32c : crc32c [0x31, 0x32, 0x33, 0x34, 0x35, 0x36, 0x37, 0x38, 0x39] = 0xE3069283 := by decide +kernel

/-- The primes below 312: the first 64. -/
def primes : List Nat := (List.range 312).filter (fun p => decide (2 ≤ p) && (List.range 18).all (fun d => d < 2 || d == p || p % d != 0))

/-- FIPS 180-4: round constant `r` is the fraction of the cube root of prime `r`: with its whole part before it, its cube meets p × 2^96. -/
theorem test_sha_rounds : primes.length = 64 ∧ (List.range 64).all (fun r => (List.range 7).any (fun n =>
    let p := primes.getD r 0 * 2 ^ 96
    let x := n * 2 ^ 32 + (wordOf (shaFractions.getD (r / 8) 0) (r % 8)).toNat
    decide (x ^ 3 ≤ p) && decide (p < (x + 1) ^ 3))) = true := by decide +kernel

/-- FIPS 180-4: starting word `i` is the fraction of the square root of prime `i`. -/
theorem test_sha_start : (List.range 8).all (fun i => (List.range 5).any (fun n =>
    let p := primes.getD i 0 * 2 ^ 64
    let x := n * 2 ^ 32 + (wordOf shaStart i).toNat
    decide (x ^ 2 ≤ p) && decide (p < (x + 1) ^ 2))) = true := by decide +kernel

/-- FIPS 180-4: SHA-256 of "abc" begins BA7816BF. -/
theorem test_sha256 : (sha256 [0x61, 0x62, 0x63]).take 4 = [0xBA, 0x78, 0x16, 0xBF] := by decide +kernel

/-- 00 R21: ties go to the even integer. -/
theorem test_roundNE : roundNE 10 2 = 2 ∧ roundNE 14 2 = 4 ∧ roundNE (-10) 2 = -2 ∧ roundNE 11 2 = 3 := by decide

/-- 10 R443: two codes averaged, gain 1.0, offset 5: (3 + 4) / 2 LSB = 896 / 256, plus 5. -/
theorem test_entryResult : entryResult [3, 4] true 5 0x40000000 = 901 ∧ entryResult [3, 4] false 0 0x40000000 = 1024 := by decide +kernel

/-- 10 R455: half the duty of a period of 125 ns is 62.5 ns, rounded to even. -/
theorem test_pwmHigh : pwmHigh 0x8000 125 = 62 ∧ pwmHigh 65535 100 = 100 := by decide

/-- 14 R627: bins of the temperatures −64 °C, 25.75 °C and 300 °C, in units of 0.25 °C. -/
theorem test_tempBin : tempBin (-256) = 0 ∧ tempBin 103 = 44 ∧ tempBin 1200 = 127 := by decide

/-- 13 R588: one flipped bit is correctable, two are not. -/
theorem test_byteClass : byteClass 0x1000 = 1 ∧ byteClass 0x1001 = 2 ∧ byteClass 0 = 0 := by decide +kernel

/-- 13 R588: 0xA5 with its own check bits reads clean, with data bit 3 flipped corrected, with two data bits flipped as stored. -/
theorem test_decodeByte : decodeByte 0xA5 (checkBits 0xA5) = (0xA5, 0) ∧ decodeByte 0xAD (checkBits 0xA5) = (0xA5, 1) ∧
    decodeByte 0xAF (checkBits 0xA5) = (0xAF, 2) := by decide +kernel

/-- The slot record of a P and I loop: KP 2.0, KI 0.5, deadband 1, wide limits. -/
def law (mode : Nat) (orate : Int) : SlotCfg :=
  { slotCfgOf (fun _ => 0) with mode, orate, kp := 2 ^ 25, ki := 2 ^ 23, dband := 1, ihi := 100, ilo := -100, ohi := 1000, olo := -1000, manval := 77 }

/-- 04 R187: setpoint 10, measurement 4, deadband 1: the error is 5, P 10, I 2.5 rounded to 2. -/
theorem test_law_auto : (lawEval (law 2 0) { SlotState.zero with mode := 2 } ⟨4, true, 10, true, 0, true, 0, true⟩ none).y = 12 ∧
    (lawEval (law 2 0) { SlotState.zero with mode := 2 } ⟨4, true, 10, true, 0, true, 0, true⟩ none).st.integ = 5 * 2 ^ 23 := by decide +kernel

/-- 04 R187: the rate limit allows 3 from 0; MANUAL gives MANVAL; an unusable measurement holds the output. -/
theorem test_law_modes : (lawEval (law 2 3) { SlotState.zero with mode := 2 } ⟨4, true, 10, true, 0, true, 0, true⟩ none).y = 3 ∧
    (lawEval (law 1 0) SlotState.zero ⟨4, true, 10, true, 0, true, 0, true⟩ none).y = 77 ∧
    (lawEval (law 2 0) { SlotState.zero with out := 9 } ⟨4, false, 10, true, 0, true, 0, true⟩ none).y = 9 := by decide +kernel

/-! One step of a command each. -/

/-- 01 R27: TICK wraps from 2^48 − 1 to 0. -/
theorem test_tick_wraps : (after (.tickBoundary 0 0 []) (atPh (atTick run (2 ^ 48 - 1)) 9999)).tb.tick = 0 ∧
    (after (.tickBoundary 0 0 []) (atPh (atTick run 7) 9999)).tb.phase = 0 := by decide +kernel

/-- 01 R58, R61: TICKHI reads bits [47:32] as the read of TICKLO captured them. -/
theorem test_tickhi : (readReg (after (.readSysTicklo (.sup 0)) (atTick run 0x234500000007)) 8 Reg.sysTickhi).1 = some 0x2345 := by decide +kernel

/-- 00 R7: a cold reset clears BOOT_DONE and TICK. -/
theorem test_cold_reset : (after .porstLLow (atTick run 9)).rdBit Reg.sysStat 0 = false ∧ (after .porstLLow (atTick run 9)).tb.tick = 0 := by
  decide +kernel

/-- A P3 write of 25 by SUP0 waiting. -/
def write25 : Chip := { withSid false with store := { (withSid false).store with p3q := [(8, [⟨8, none, 5, .value 25, false⟩])] } }

/-- 02 R95, R97: the value is clamped to 10, counted, and SAT carried. -/
theorem test_p3_clamps : ((Tab.get? (after .p3ArbiterTake write25).store.entries 5).map (fun e => (e.value, e.carried.sat, e.wseq))) = some (10, true, 1) ∧
    (after .p3ArbiterTake write25).rd Reg.sigClampcnt = 1 := by decide +kernel

/-- 02 R84: SEQ3 is no producer of SID 5; PRODLAST holds SRC and SID. -/
theorem test_p3_producer :
    (after .p3ArbiterTake { write25 with store := { write25.store with p3q := [(3, [⟨3, none, 5, .value 25, false⟩])] } }).rd Reg.sigProdlast =
      wn (3 * 2 ^ 27 + 5) := by decide +kernel

/-- 02 R77, R78: six ticks after the last write the AGE is 6, over the limit of 5: STALE. -/
theorem test_stale : ((atTick (withSid false) 6).storeRead 5).age = 6 ∧ natBit ((atTick (withSid false) 6).storeRead 5).status 1 = true ∧
    natBit ((atTick (withSid false) 5).storeRead 5).status 1 = false := by decide +kernel

/-- 02 PEAKCLR of SIG_CLR: bit n clears peak counter n. -/
theorem test_peakclr : (after (.sigClrPeakclr (.sup 0) 2) ((run.wr (Reg.sigPpeak 1) 9).wr (Reg.sigPpeak 2) 8)).rd (Reg.sigPpeak 1) = 0 ∧
    (after (.sigClrPeakclr (.sup 0) 2) ((run.wr (Reg.sigPpeak 1) 9).wr (Reg.sigPpeak 2) 8)).rd (Reg.sigPpeak 2) = 8 := by decide +kernel

/-- 03 R138: MANVAL is taken at once; 03 R139: a CS word of a running slot is refused with code 1 and its word and slot. -/
theorem test_slot_writes : recWord (after (.slotLvWrite (.sup 0) 0 1 7 77) running) 1 7 = 77 ∧
    (after (.slotCsWrite (.sup 0) 0 1 6 3) running).rd (Reg.ltCfgerr 0) = wn (2 ^ 28 + 6 * 256 + 1) := by decide +kernel

/-- 06 R257, R274: a copy with a wrong CCRC on ring B is counted in EWN_CRCB only. -/
theorem test_ccrc : (after (.compartmentReturn true ⟨1, true⟩ 0 (List.replicate 64 0)) (ring 2)).rd Reg.ewnCrcb = 1 ∧
    (after (.compartmentReturn true ⟨1, true⟩ 0 (List.replicate 64 0)) (ring 2)).rd Reg.ewnCrca = 0 ∧
    (after (.compartmentReturn true ⟨1, true⟩ 0 (copy 1)) (ring 2)).rd Reg.ewnCrcb = 0 := by decide +kernel

/-- 06 R277: both copies missing is a miss of cause 1 on compartment 0. -/
theorem test_miss : (after .landing (ring 2)).rd Reg.ewnMisscnt = 1 ∧ (after .landing (ring 2)).rd Reg.ewnMisslast = wn (2 ^ 28) := by
  decide +kernel

/-- 06 R282: an uplink frame that follows in sequence is counted; the same one again is a duplicate. -/
theorem test_uplink : (after (.uplinkFrame 1 (carrier 1 4 1 0) [] ⟨true, true⟩) granted).rd Reg.ewnMrxcnt = 1 ∧
    (after (.uplinkFrame 1 (carrier 1 4 5 0) [] ⟨true, true⟩) granted).rd Reg.ewnMdup = 1 := by decide +kernel

/-- 07 R337: losing block lock starts one break, and it heals after 1,000 clean coaches. -/
theorem test_break : (after (.rxBlockLockLoss 0) (ring 2)).rd Reg.ewnBrkcnt = 1 ∧
    (after .breakHeal (broken 1000)).rdBit Reg.ewnSurvstat 2 = false ∧ (after .breakHeal (broken 999)).rdBit Reg.ewnSurvstat 2 = true := by
  decide +kernel

/-- 08 R359: filter 1 takes the frame into the FIFO: ID and data; without a filter it is counted in RXNOMATCH. -/
theorem test_can_receive : (after (.canFrameValid 0 0 canFrame) (filtered 1 0)).rd (canBase 0 + 0x4008) = 5 ∧
    (after (.canFrameValid 0 0 canFrame) (filtered 1 0)).rd (canBase 0 + 0x4010) = 0x00030201 ∧
    (after (.canFrameValid 0 0 canFrame) (can CanChan.zero)).rd (Reg.canRxnomatch 0) = 1 := by decide +kernel

/-- 08 R366: the buffer with the lower number goes first at equal IDs; 08 R380: an error while sending adds 8 to TEC. -/
theorem test_can_send : ((canSt (after (.canStartOfFrame 0 0 true) two) 0).bus.map (fun p => p.buf)) = some 2 ∧
    (canSt (after (.canBusError 0 0 3 (.frame false false) none) onBus) 0).tec = 8 := by decide +kernel

/-- 09 R397, R399: from (0, 0) a rise of B counts up, a rise of A counts down, and 0 wraps to 0xFFFFFFFF. -/
theorem test_quadrature : (after (.fbEdgeAccepted 31 0 ⟨false, 16⟩ ⟨true, 16⟩ ⟨false, 16⟩) (fb 0 FbChan.zero)).rd (Reg.fbCnt 31) = 1 ∧
    (after (.fbEdgeAccepted 31 0 ⟨true, 16⟩ ⟨false, 16⟩ ⟨false, 16⟩) (fb 0 FbChan.zero)).rd (Reg.fbCnt 31) = 0xFFFFFFFF := by decide +kernel

/-- 09 R411: 40 counts in 1,000 samples of 5 ns at SW = 0 are 80 counts per tick, Q16.16. -/
theorem test_speed : s32 ((after (.fbSample 31) (fb 0 dueFb)).rd (Reg.fbSpd 31)) = 80 * 65536 := by decide +kernel

/-- 10 R448: a write of GO while ON = 0 is refused. -/
theorem test_adc_go : (after (.adcGo (.sup 0) 7) run).rd (Reg.adcCfgerr 7) = wn (6 * 2 ^ 28 + 4) := by decide +kernel

/-- 11 R508: a fire is counted with the time of the fire. -/
theorem test_trigger : (after (.trgFire (.sup 0) 31) (atTick run 6)).rd (Reg.recTrgfirecnt 31) = 1 ∧
    (after (.trgFire (.sup 0) 31) (atTick run 6)).rd (Reg.recTrglastt 31) = 6 := by decide +kernel

/-- 12 R543: the raise of an event with a mapping makes one cart with its number and a count of 1. -/
theorem test_raise : ((raiseOne (mapped 0x8009 0 [], 1) 900).1.dsp.carts.map (fun c => (c.hitch, c.arg))) = [(9, 900 + 65536)] := by decide +kernel

/-- 12 R545: a post without its hitch enabled answers 3; R547: DONE with another tag is an error. -/
theorem test_ports : (after (.postctl 9 8 false) disp).rd (Reg.dspPpostres 9) = 0x30000 ∧
    (after (.done 9 4 false) (carts [cart 1 0 (.inService 9)])).rdF (Reg.dspPerr 9) 2 0 = 1 := by decide +kernel

/-- 13 R605: a fill of shared SRAM writes the pattern and its count. -/
theorem test_fill : (let s := after .fillDone { run with memu := { run.memu with fill := some (0x01000000, 64, 0x0102030405060708, 0) } }
    (s.byteAt 0x01000001, s.rd Reg.memFilldoneb)) = (7, 64) := by decide +kernel

/-- 14 R625: HFRAC 3599 turns into an hour. -/
theorem test_hours : ((after .hfracAdvance (odo 8 3599)).rd Reg.odoHours, (after .hfracAdvance (odo 8 3599)).rdF Reg.odoHfrac 11 0) = (9, 0) := by
  decide +kernel

/-- 15 R691: a clock fault (code 3) in RUN goes to SAFE with its word in FAULT1, every force line asserted. -/
theorem test_island_safe : islState (after .clockFault (island 2)) = 4 ∧ (after .clockFault (island 2)).rd Reg.safFault1 = 0x30000000 ∧
    (after .clockFault (island 2)).rdF Reg.sigForcestat 15 0 = 0xFFFF := by decide +kernel

/-- 16 R736: PING answers the TICK and the epoch (bytes 8 to 15 of the response). -/
theorem test_ping : ((after (.ping (cmd 0 0 [])) (atTick jtag 0x102)).hst.sent.map (fun e => (e.1, e.2.2))) =
    [(16, [0x81, 0, 0, 0, 0, 0, 0, 0, 2, 1, 0, 0, 0, 0, 0, 0])] := by decide +kernel

/-- 16 R733: JTAG has no claim authority: status 5. -/
theorem test_claim_auth : ((after (.claim (cmd 0 0 [])) jtag).hst.sent.map (fun e => e.2.2[1]?)) = [some 5] ∧
    (after (.claim (cmd 0 0 [])) jtag).rd Reg.hpcAuthref = 1 := by decide +kernel

/-- 16 R724: an unknown prefix is counted. -/
theorem test_device_frame : (after (.deviceFrame .tlan (devFrame 4 0xA8 1).toDevHead 1 0 0) (lan 0)).rd Reg.tlnBadpfx = 1 := by decide +kernel

/-- 16 R736, R720: a command with an unknown opcode is answered OPCODE (10) in a copy on each port. -/
theorem test_unknown_opcode : ((after (.deviceFrame .tlan (devFrame 4 0xA7 0x07).toDevHead 7 0 0) (lan 0)).hst.sent.map (fun e => (e.1, e.2.1, e.2.2.drop 4))) =
    [(32, 4, [0xA7, 1, 0, 0, 0x87, 10, 0, 0, 0, 0, 0, 0, 0, 0, 0, 0, 0, 0, 0, 0]),
     (33, 4, [0xA7, 1, 0, 0, 0x87, 10, 0, 0, 0, 0, 0, 0, 0, 0, 0, 0, 0, 0, 0, 0])] := by decide +kernel

/-- 16 R726: of a two-step Sync received at 100 ns the offset takes off origin (20 ns) and corrections (3 and 5 ns) of both messages; the peer delay
is half of what the legs of the exchange take together. -/
theorem test_ptp_offset : syncOffset (clocked false) false { sync 100 1 with
    corr := 3 * 65536
    follow := some (20, 5 * 65536) } = 72 ∧ peerMean (0, 30, 40, 90) = 40 := by decide

/-- 17 R788: four samples below 940 mV enter stage 1. -/
theorem test_stage : (after (.vsupSample 0 939) (sagging 0 3)).stage = 1 ∧ (after (.vsupSample 0 940) (sagging 0 3)).stage = 0 := by decide +kernel

/-- 17 R785: the governor starts priority 0 before priority 1. -/
theorem test_governor : (after (.governorSlot 1) { run with pwr := { run.pwr with starts := [⟨31, 1, 0, false⟩, ⟨3, 0, 0, false⟩] } }).pwr.rising =
    [(3, 1800)] := by decide +kernel

/-- 17 R775: WARM_L is a RESTART fault, code 4. -/
theorem test_warm : (after .warmL (island 2)).rst.cause = some (4, 0) := by decide +kernel

/-- 19 R852: a ledger that does not balance fails. -/
theorem test_ledger : (after (.ledgerCheck []) { island 0 with books := { run.books with led := [(16 * 1, 1)] } }).rst.cause = some (3, 1) := by
  decide +kernel

end Sys2Proof.Tests
end

section
/-!
PROOFS of the scope (00): a step is its front command, and every command answers.
-/

namespace Sys2Proof.Machine

/-- Settles O1: `step` is this case split on the queue. -/
theorem stepRunsFrontCommand : Obligations.StepRunsFrontCommand := fun _ _ _ => ⟨rfl, rfl⟩

/-- Every command of the table ends in `finish`; only its effect on the Poermun differs. -/
theorem exec_eq_finish (c : Instr) : ∃ f, ∀ s, exec c s = finish s f := by
  unfold exec
  cases c <;> exact ⟨_, fun _ => rfl⟩

/-- Settles O2: `finish` answers a next state and keeps the queue. -/
theorem everyCommandAnswers : Obligations.EveryCommandAnswers := by
  intro c s
  obtain ⟨f, hf⟩ := exec_eq_finish c
  exact ⟨_, hf s, rfl⟩

end Sys2Proof.Machine
end

section
/-!
PROOFS of the scope. What a cold reset forgets: `coldState` does not see what a fault changes.
-/

namespace Sys2Proof.Machine

@[simp] theorem coldState_wr (s : Chip) (a : Nat) (w : Word) : coldState (s.wr a w) = coldState s := rfl

@[simp] theorem coldState_wrF (s : Chip) (a hi lo v : Nat) : coldState (s.wrF a hi lo v) = coldState s := rfl

@[simp] theorem coldState_wrBit (s : Chip) (a b : Nat) (x : Bool) : coldState (s.wrBit a b x) = coldState s := rfl

@[simp] theorem coldState_bump (s : Chip) (a : Nat) : coldState (s.bump a) = coldState s := rfl

@[simp] theorem coldState_setIsl (s : Chip) (x : Island) : coldState (setIsl s x) = coldState s := rfl

@[simp] theorem coldState_setForceLines (s : Chip) (lines : Nat) : coldState (setForceLines s lines) = coldState s := rfl

@[simp] theorem coldState_driveForce (s : Chip) (lines : Nat) : coldState (driveForce s lines) = coldState s := rfl

@[simp] theorem coldState_safFlag (s : Chip) (e : Nat) : coldState (s.safFlag e) = coldState s := by
  simp [coldState, Chip.safFlag]

@[simp] theorem coldState_setIslState (s : Chip) (x : Nat) : coldState (setIslState s x) = coldState s := by
  unfold setIslState
  split <;> simp

@[simp] theorem coldState_driveOut (s : Chip) (n : Nat) (on : Bool) : coldState (driveOut s n on) = coldState s := by
  unfold driveOut
  split <;> simp

@[simp] theorem coldState_allSafe (s : Chip) : coldState (allSafe s) = coldState s := by
  rw [allSafe, coldState_driveForce]
  exact List.foldlRecOn (motive := fun x => coldState x = coldState s) _ _ rfl fun x h n _ => by simp [h]

@[simp] theorem coldState_enterFault (s : Chip) (code item : Nat) (acted : Bool) :
    coldState (enterFault s code item acted) = coldState s := by
  unfold coldState
  rw [enterFault_hst]
  simp

theorem coldState_setBooks (s : Chip) (b : Books) : coldState { s with books := b } = coldState s := rfl

theorem coldState_setRst (s : Chip) (r : RestartUnit) : coldState { s with rst := r } = coldState s := rfl

theorem coldState_coldFault (s : Chip) (code item : Nat) : coldState (coldFault s code item) = coldState s :=
  (coldState_setBooks _ _).trans (coldState_enterFault s code item true)

theorem coldState_restartFault (s : Chip) (code item : Nat) : coldState (restartFault s code item) = coldState s := by
  unfold restartFault
  split
  · exact coldState_enterFault ..
  · split
    · exact coldState_coldFault ..
    · dsimp only
      split <;> exact (coldState_setRst _ _).trans (coldState_enterFault ..)

@[simp] theorem coldState_fault (s : Chip) (code item : Nat) : coldState (s.fault code item) = coldState s := by
  unfold Chip.fault
  split
  · exact coldState_restartFault ..
  · split
    · exact coldState_coldFault ..
    · exact coldState_enterFault ..

@[simp] theorem coldState_pairFall (s : Chip) (p : Nat) : coldState (pairFall s p) = coldState s := by
  unfold pairFall
  dsimp only
  split <;> simp

@[simp] theorem coldState_markItem (s : Chip) (code item : Nat) : coldState (markItem s code item) = coldState s := by
  unfold markItem
  split <;> simp [syncPermits]

theorem coldState_safeFault (s : Chip) (code item : Nat) : coldState (safeFault s code item) = coldState s := by
  unfold safeFault
  dsimp only
  split <;> simp

theorem coldState_toSafe (s : Chip) (code item : Nat) : coldState (toSafe s code item) = coldState s := by
  simp [toSafe]

theorem coldState_toDegraded (s : Chip) (code item : Nat) : coldState (toDegraded s code item) = coldState s := by
  unfold toDegraded
  dsimp only
  rw [coldState_fault]
  split <;> simp

/-- A fault of the island touches nothing that a cold reset keeps. -/
theorem coldState_islFault (s : Chip) (code item : Nat) : coldState (islFault s code item) = coldState s := by
  unfold islFault
  split
  · rfl
  · split
    · exact coldState_safeFault ..
    · split
      · exact coldState_toDegraded ..
      · exact coldState_toSafe ..

theorem coldReset_eq (s : Chip) : coldReset s = coldState s := coldState_islFault s 15 0

theorem porstLow_eq (s : Chip) : porstLow s = coldState { s with pwr := { s.pwr with porst := false, hold := .none } } :=
  coldReset_eq _

/-- Settles O5: the fault that a cold reset records stays within what the cold state overwrites (`coldState_islFault`), so PORST_L low
leaves `coldState` of the state it finds, and that reads nothing beyond the fields the premises name. -/
theorem coldResetForgets : Obligations.ColdResetForgets := by
  intro s u hpend hmem hfills hhost hfuses hvbus haon hbanks hsafe hcolds hdraws
  have hcold : porstLow s.chip = porstLow u.chip := by
    rw [porstLow_eq, porstLow_eq]
    unfold coldState
    rw [hmem, hfills, hhost, hfuses, hvbus, haon, hbanks, hsafe, hcolds, hdraws]
  show finish s porstLow = finish u porstLow
  rw [finish_eq, finish_eq, hcold, hpend]

end Sys2Proof.Machine
end

section
/-!
PROOFS of the scope. `Chip.Inv` speaks of the registers, the timebase and the two memories alone, so most updates of the state keep it by
`Chip.Inv.frame`. For each function `f` of the model, `Chip.Inv.f` says that `f` keeps it, from the lemmas of the functions that `f` calls:
`h.bump.wr.raise` follows a state that meets it through `bump`, `wr` and `raise`. The lemmas here carry it through the branches and folds.
-/

namespace Sys2Proof.Machine

/-- An update that leaves the registers, the timebase and both memories alone keeps the forms. -/
theorem Chip.Inv.frame {s : Chip}
    {v1 v3 v4 v5 v6 v7 v8 v9 v10 v13 v14 v15 v16 v17 v18 v19 v20 v21 v22 v23 v24 v25 v26 v27}
    (h : s.Inv) :
    Chip.Inv ⟨s.regs, v1, s.tb, v3, v4, v5, v6, v7, v8, v9, v10, s.mem, s.hostMem, v13, v14, v15, v16, v17, v18,
      v19, v20, v21, v22, v23, v24, v25, v26, v27⟩ :=
  ⟨h.regs, h.time, h.mem, h.host⟩

theorem Chip.Inv.ite {a b : Chip} {c : Prop} {_ : Decidable c} (ha : a.Inv) (hb : b.Inv) : (if c then a else b).Inv := by
  split <;> assumption

theorem Chip.Inv.iteFst {α : Type} {a b : Chip × α} {c : Prop} {_ : Decidable c}
    (ha : a.1.Inv) (hb : b.1.Inv) : (if c then a else b).1.Inv := by
  split <;> assumption

theorem Chip.Inv.iteSnd {α : Type} {a b : α × Chip} {c : Prop} {_ : Decidable c}
    (ha : a.2.Inv) (hb : b.2.Inv) : (if c then a else b).2.Inv := by
  split <;> assumption

theorem Chip.Inv.foldl {α : Type} {f : Chip → α → Chip} {l : List α} {s : Chip} (h : s.Inv)
    (hf : ∀ x a, x.Inv → (f x a).Inv) : (l.foldl f s).Inv := by
  induction l generalizing s with
  | nil => exact h
  | cons a l ih => exact ih (hf s a h)

theorem Chip.Inv.foldlFst {α β : Type} {f : Chip × β → α → Chip × β} {l : List α} {s : Chip × β} (h : s.1.Inv)
    (hf : ∀ x a, x.1.Inv → (f x a).1.Inv) : (l.foldl f s).1.Inv := by
  induction l generalizing s with
  | nil => exact h
  | cons a l ih => exact ih (hf s a h)

theorem Chip.Inv.foldlSpan {α : Type} {f : SpanRead → α → SpanRead} {l : List α} {s : SpanRead} (h : s.chip.Inv)
    (hf : ∀ x a, x.chip.Inv → (f x a).chip.Inv) : (l.foldl f s).chip.Inv := by
  induction l generalizing s with
  | nil => exact h
  | cons a l ih => exact ih (hf s a h)

/-- What a host command's action gives, if it gives anything, is a state with the forms. -/
def CmdInv (r : Option (Chip × Option Rsp)) : Prop := ∀ p ∈ r, p.1.Inv

theorem CmdInv.none : CmdInv none := by simp [CmdInv]

theorem CmdInv.some {p} (h : p.1.Inv) : CmdInv (some p) := by simp [CmdInv, h]

theorem CmdInv.ite {a b} {c : Prop} {_ : Decidable c} (ha : CmdInv a) (hb : CmdInv b) : CmdInv (if c then a else b) := by
  split <;> assumption

/-- The state given, if there is one, has the forms. -/
def OptInv (r : Option Chip) : Prop := ∀ x ∈ r, x.Inv

theorem OptInv.none : OptInv none := by simp [OptInv]

theorem OptInv.some {s : Chip} (h : s.Inv) : OptInv (some s) := by simpa [OptInv] using h

theorem OptInv.ite {a b : Option Chip} {c : Prop} {_ : Decidable c}
    (ha : OptInv a) (hb : OptInv b) : OptInv (if c then a else b) := by
  split <;> assumption

/-- An update of the timebase keeps the forms when TICK and phase stay in range. -/
theorem Chip.Inv.setTime {s : Chip} {t : TimeBase}
    {{v1 v3 v4 v5 v6 v7 v8 v9 v10 v13 v14 v15 v16 v17 v18 v19 v20 v21 v22 v23 v24 v25 v26 v27}}
    (h : s.Inv) (tick : t.tick < 2 ^ 48) (phase : t.phase < 10000) :
    Chip.Inv ⟨s.regs, v1, t, v3, v4, v5, v6, v7, v8, v9, v10, s.mem, s.hostMem, v13, v14, v15, v16, v17, v18,
      v19, v20, v21, v22, v23, v24, v25, v26, v27⟩ :=
  ⟨h.regs, ⟨tick, phase⟩, h.mem, h.host⟩

/-- Leaving registers out keeps the register file canonical: they read their cold values. -/
theorem RegsOk.filter {r : Tab Word} (p : Nat × Word → Bool) (h : RegsOk r) : RegsOk (r.filter p) := by
  unfold RegsOk at *
  rw [Tab.wf_iff] at *
  obtain ⟨hr, hd⟩ := h
  exact ⟨hr.sublist (List.filter_sublist.map _), fun e he => hd e (List.mem_of_mem_filter he)⟩

/-- A map that keeps the keys, and leaves out what becomes its register's cold value, keeps the register file canonical. -/
theorem RegsOk.filterMap {r : Tab Word} {f : Nat × Word → Option (Nat × Word)} (h : RegsOk r)
    (hf : ∀ e, e.2 ≠ regCold e.1 → ∀ x, f e = Option.some x → x.1 = e.1 ∧ x.2 ≠ regCold x.1) : RegsOk (r.filterMap f) := by
  unfold RegsOk at *
  rw [Tab.wf_iff] at *
  obtain ⟨hr, hd⟩ := h
  induction r with
  | nil => exact ⟨hr, hd⟩
  | cons e r ih =>
    obtain ⟨hlt, hr⟩ := Tab.rising_cons.1 hr
    have hrest := ih hr fun x hx => hd x (List.mem_cons_of_mem _ hx)
    cases hfe : f e with
    | none => simpa [hfe] using hrest
    | some x =>
      obtain ⟨hkey, hval⟩ := hf e (hd e List.mem_cons_self) x hfe
      rw [List.filterMap_cons_some hfe]
      refine ⟨Tab.rising_cons.2 ⟨fun y hy => ?_, hrest.1⟩, List.forall_mem_cons.2 ⟨hval, hrest.2⟩⟩
      obtain ⟨z, hz, hfz⟩ := List.mem_filterMap.1 hy
      rw [hkey, (hf z (hd z (List.mem_cons_of_mem _ hz)) y hfz).1]
      exact hlt z hz

end Sys2Proof.Machine
end

section
/-!
PROOFS of the scope. The forms of the Poermun's state through the model's functions, in the order of the model's files.
-/

namespace Sys2Proof.Machine

variable {s : Chip}

/-! ### Ops -/

theorem Chip.Inv.wr {a : Nat} {w : Word} (h : s.Inv) : (s.wr a w).Inv := { h with regs := Chip.wr_regsOk a w h.regs }

theorem Chip.Inv.wrF {a hi lo v : Nat} (h : s.Inv) : (s.wrF a hi lo v).Inv := h.wr

theorem Chip.Inv.wrBit {a b : Nat} {x : Bool} (h : s.Inv) : (s.wrBit a b x).Inv := h.wr

theorem Chip.Inv.bumpBy {a n : Nat} (h : s.Inv) : (s.bumpBy a n).Inv := h.wr

theorem Chip.Inv.bump {a : Nat} (h : s.Inv) : (s.bump a).Inv := h.bumpBy

theorem Chip.Inv.raise {n : Nat} (h : s.Inv) : (s.raise n).Inv := h.frame

theorem Chip.Inv.flag {evt en b event : Nat} (h : s.Inv) : (s.flag evt en b event).Inv := .ite h.wrBit.raise h.wrBit

theorem Chip.Inv.atPhase {p : Nat} (h : s.Inv) : (s.atPhase p).Inv := by
  have hlast : s.lastPhase < 10000 := by unfold Chip.lastPhase; split <;> decide
  exact { h with time := ⟨h.time.1, max_lt h.time.2 ((min_le_right _ _).trans_lt hlast)⟩ }

theorem Chip.Inv.putShadow {a : Nat} {v : Word} {mask : Nat} (h : s.Inv) : (s.putShadow a v mask).Inv := h.frame

theorem Chip.Inv.accessError {src : Nat} (h : s.Inv) : (s.accessError src).Inv := h.frame

theorem Chip.Inv.returnData {src v : Nat} (h : s.Inv) : (s.returnData src v).Inv := h.frame

theorem Chip.Inv.readError {src : Nat} (h : s.Inv) : (s.readError src).Inv := h.accessError.returnData

theorem Chip.Inv.poison {src : Nat} (h : s.Inv) : (s.poison src).Inv := h.frame

theorem Chip.Inv.fetchFault {src : Nat} (h : s.Inv) : (s.fetchFault src).Inv := h.frame

theorem Chip.Inv.draw (h : s.Inv) : s.draw.Inv := h.frame

/-! ### Books -/

theorem Chip.Inv.led {l j n : Nat} (h : s.Inv) : (s.led l j n).Inv := h.frame

theorem Chip.Inv.ledCan {ch j n : Nat} (h : s.Inv) : (s.ledCan ch j n).Inv := h.led.led

theorem Chip.Inv.ledSub {l j n : Nat} (h : s.Inv) : (s.ledSub l j n).Inv := h.led

theorem Chip.Inv.odoInc {slot n : Nat} (h : s.Inv) : (s.odoInc slot n).Inv := .ite h.frame.led h.frame.led.led.flag

theorem Chip.Inv.logEvent {kind code item : Nat} (h : s.Inv) : (s.logEvent kind code item).Inv :=
  .ite h.frame.bump (.ite h.frame.wr.bump h.frame.wr)

theorem Chip.Inv.signal {v : Nat} (h : s.Inv) : (s.signal v).Inv := h.frame

theorem Chip.Inv.sendPending {v : Nat} (h : s.Inv) : (sendPending s v).Inv := .ite h.frame.signal h

theorem Chip.Inv.hsrNext (h : s.Inv) : (hsrNext s).Inv := h.frame

theorem Chip.Inv.sendAlarmLan {k : Nat} (h : s.Inv) : (sendAlarmLan s k).Inv := h.bump.hsrNext.frame

theorem Chip.Inv.sendAlarmUsb {k : Nat} (h : s.Inv) : (sendAlarmUsb s k).Inv := h.frame

theorem Chip.Inv.alarmDirty {k sev : Nat} (h : s.Inv) : (alarmDirty s k sev).Inv := by
  unfold Machine.alarmDirty
  extract_lets s1 _ s2 _
  have hs1 : s1.Inv := h.wrBit.signal
  have hs2 : s2.Inv := .ite hs1.sendAlarmLan hs1.frame
  exact .ite hs2.sendAlarmUsb hs2.frame

theorem Chip.Inv.setAlarm {k : Nat} {e : AlarmEntry} (h : s.Inv) : (setAlarm s k e).Inv := h.frame

theorem Chip.Inv.alarm {code sev data : Nat} (h : s.Inv) : (s.alarm code sev data).Inv := by
  unfold Chip.alarm
  extract_lets _ _ _ _ _ s1
  have hs1 : s1.Inv := by
    unfold s1
    split
    · split
      · exact h.logEvent.setAlarm.alarmDirty
      · exact h.logEvent
    · split
      · exact h.logEvent.setAlarm.alarmDirty
      · exact h.logEvent.setAlarm.alarmDirty.flag
  exact hs1.wr

theorem Chip.Inv.enterFault {code item : Nat} {acted : Bool} (h : s.Inv) : (enterFault s code item acted).Inv :=
  .alarm (.ite h.flag.odoInc.frame h.flag.odoInc.bump.flag)

theorem Chip.Inv.coldFault {code item : Nat} (h : s.Inv) : (coldFault s code item).Inv := h.enterFault.frame

theorem Chip.Inv.restartFault {code item : Nat} (h : s.Inv) : (restartFault s code item).Inv :=
  .ite h.enterFault (.ite h.coldFault (.ite h.enterFault.frame h.enterFault.frame))

theorem Chip.Inv.fault {code item : Nat} (h : s.Inv) : (s.fault code item).Inv :=
  .ite h.restartFault (.ite h.coldFault h.enterFault)

/-! ### Islands -/

theorem Chip.Inv.askStart {i : Nat} (h : s.Inv) : (askStart s i).Inv := .ite h h.wrBit.frame

theorem Chip.Inv.gateIsland {i : Nat} (h : s.Inv) : (gateIsland s i).Inv := h.wrBit.wrBit.frame

theorem Chip.Inv.hashRest (h : s.Inv) : (hashRest s).Inv := .ite h.gateIsland h

/-! ### Memory -/

theorem Chip.Inv.clearFlips {a n : Nat} (h : s.Inv) : (clearFlips s a n).Inv := h.frame

theorem Chip.Inv.fillMem {lo len pat : Nat} (h : s.Inv) : (s.fillMem lo len pat).Inv :=
  { h with mem := Chip.fillMem_wf lo len pat h.mem }

theorem Chip.Inv.putBytes {a : Nat} {bs : List Byte} (h : s.Inv) : (s.putBytes a bs).Inv :=
  { h with mem := Chip.putBytes_wf a bs h.mem }

theorem Chip.Inv.touchWords {addr len : Nat} (h : s.Inv) : (touchWords s addr len).Inv := h.clearFlips.frame

theorem Chip.Inv.writeBytes {a : Nat} {bs : List Byte} (h : s.Inv) : (s.writeBytes a bs).Inv := h.putBytes.touchWords

theorem Chip.Inv.putHost {a : Nat} {bs : List Byte} (h : s.Inv) : (s.putHost a bs).Inv :=
  { h with host := Chip.putHost_wf a bs h.host }

/-! ### Codes -/

theorem Chip.Inv.setFlips {p m : Nat} (h : s.Inv) : (setFlips s p m).Inv := h.frame

theorem Chip.Inv.upset {p : Nat} {ms : List Nat} (h : s.Inv) : (upset s p ms).Inv := by
  unfold Machine.upset
  exact .foldl h fun _ _ hx => .ite hx (.ite (.ite (.ite hx hx.setFlips) (.setFlips (.ite hx hx.setFlips))) hx.setFlips)

theorem Chip.Inv.memFlag {e : Nat} (h : s.Inv) : (s.memFlag e).Inv := h.flag

theorem Chip.Inv.noteRead {cls addr src memk : Nat} (h : s.Inv) : (noteRead s cls addr src memk).Inv := by
  unfold Machine.noteRead
  refine .ite ?_ ?_
  · exact h
  · exact .ite h.bump.wr.wr.memFlag.odoInc (.ite h.bump.wr.wr.memFlag h.bump.wr.wr.memFlag.odoInc)

theorem Chip.Inv.setTrack {t : List TrackEntry} (h : s.Inv) : (setTrack s t).Inv := h.frame

theorem Chip.Inv.rewriteWord {word : Nat} {xs : List Nat} (h : s.Inv) : (rewriteWord s word xs).Inv := by
  unfold Machine.rewriteWord
  extract_lets _ s1 s2
  have hs1 : s1.Inv := .clearFlips (.ite h.putBytes h)
  have hs2 : s2.Inv := hs1.clearFlips
  exact .ite (.ite hs2 hs2.putBytes) (.foldl hs1 fun _ _ hx => .ite hx hx.setFlips)

theorem Chip.Inv.hardWord {word : Nat} {xs : List Nat} (h : s.Inv) : (hardWord s word xs).Inv := by
  unfold Machine.hardWord
  split
  · exact h.bump.memFlag.odoInc
  · exact .ite h.memFlag h.setTrack.rewriteWord.frame.bump.bump.memFlag.odoInc

theorem Chip.Inv.trackCe {word : Nat} {xs : List Nat} (h : s.Inv) : (trackCe s word xs).Inv := by
  unfold Machine.trackCe
  extract_lets
  split
  · extract_lets _ _ s2
    have hs2 : s2.Inv := .ite h.setTrack (.ite h.setTrack.wr.memFlag h.setTrack)
    exact .ite hs2.hardWord hs2
  · refine .ite (.ite h.setTrack.wr.memFlag h.setTrack) ?_
    split
    · exact h
    · exact .ite h.setTrack.bump.wr.memFlag h.setTrack.bump

theorem Chip.Inv.readOne {src lo hi : Nat} {r : SpanRead} {word : Nat} (h : r.chip.Inv) : (readOne src lo hi r word).chip.Inv :=
  .ite (.trackCe (.ite h h.noteRead)) (.ite h h.noteRead)

theorem Chip.Inv.readSpan {src p n : Nat} (h : s.Inv) : (readSpan s src p n).chip.Inv :=
  .foldlSpan h fun _ _ hx => hx.readOne

theorem Chip.Inv.readBytes {src p n : Nat} (h : s.Inv) : (readBytes s src p n).1.Inv := h.readSpan

theorem Chip.Inv.clearChecks {a n : Nat} (h : s.Inv) : (clearChecks s a n).Inv := .ite h.clearFlips h

theorem Chip.Inv.fillWords {a n pat : Nat} (h : s.Inv) : (fillWords s a n pat).Inv :=
  h.fillMem.touchWords.clearChecks.bumpBy

theorem Chip.Inv.advanceFill (h : s.Inv) : (advanceFill s).Inv := by
  unfold Machine.advanceFill
  split
  · exact h
  · exact .ite h h.fillWords.frame

theorem Chip.Inv.agentWrite {a : Nat} {bs : List Byte} (h : s.Inv) : (agentWrite s a bs).Inv := h.advanceFill.writeBytes

theorem Chip.Inv.dramPart {a : Nat} {bs : List Byte} (h : s.Inv) : (dramPart s a bs).1.Inv :=
  .iteFst h (.iteFst h.readBytes.bump h.readBytes.clearFlips.writeBytes)

theorem Chip.Inv.memWrite {a : Nat} {bs : List Byte} (h : s.Inv) : (memWrite s a bs).1.Inv := by
  unfold Machine.memWrite
  refine .iteFst ?_ ?_
  · exact h.agentWrite
  · exact .dramPart (.clearChecks (.ite h.advanceFill.dramPart h.advanceFill.dramPart.writeBytes))

/-! ### Timebase -/

theorem Chip.Inv.noteTrimLimit {t : Int} (h : s.Inv) : (noteTrimLimit s t).Inv := .ite h h.wrBit.raise

theorem Chip.Inv.applyMode (h : s.Inv) : (applyMode s).Inv := .ite h (.ite h.wrBit h.wrBit.wrBit.raise.odoInc.fault)

theorem Chip.Inv.slewTrim {servo : Int} (h : s.Inv) : (slewTrim s servo).Inv := h.wr

theorem Chip.Inv.accumulateTrim (h : s.Inv) : (accumulateTrim s).Inv :=
  .ite (h.setTime h.time.1 h.time.2) (h.setTime h.time.1 h.time.2)

theorem Chip.Inv.applyTrim {servo : Int} (h : s.Inv) : (applyTrim s servo).Inv :=
  .ite h.slewTrim.accumulateTrim (h.setTime h.time.1 h.time.2)

theorem Chip.Inv.applyShadowOne {a : Nat} {v : Word} {mask : Nat} (h : s.Inv) : (applyShadowOne s a v mask).Inv :=
  .ite h.wr.noteTrimLimit h.wr

theorem Chip.Inv.applyShadow (h : s.Inv) : (applyShadow s).Inv := (h.foldl fun _ _ hx => hx.applyShadowOne).frame

theorem Chip.Inv.recordFab {sec ns : Nat} (h : s.Inv) : (recordFab s sec ns).Inv := .ite (h.setTime h.time.1 h.time.2) h

theorem Chip.Inv.syncRise (h : s.Inv) : (syncRise s).Inv := by
  unfold Machine.syncRise
  extract_lets _ s1
  have hs1 : s1.Inv := .ite (h.setTime h.time.1 h.time.2) h
  exact .ite (hs1.setTime hs1.time.1 hs1.time.2) hs1

theorem Chip.Inv.syncFall (h : s.Inv) : (syncFall s).Inv := .ite h.atPhase.frame h

theorem Chip.Inv.advanceTick (h : s.Inv) : (advanceTick s).Inv :=
  h.setTime (Nat.mod_lt _ (Nat.two_pow_pos 48)) (Nat.succ_pos _)

theorem Chip.Inv.captureTick {reader : Nat} (h : s.Inv) : (captureTick s reader).Inv := h.frame

theorem Chip.Inv.captureFab {reader : Nat} (h : s.Inv) : (captureFab s reader).Inv := h.frame

theorem Chip.Inv.writeTbctl {v : Word} (h : s.Inv) : (writeTbctl s v).Inv := .ite h.wrF.wrF h.wrF.wrF.putShadow

/-! ### Store -/

theorem Chip.Inv.setEntry {sid : Nat} {e : Entry} (h : s.Inv) : (s.setEntry sid e).Inv := h.frame

theorem Chip.Inv.sigFlag {b : Nat} (h : s.Inv) : (s.sigFlag b).Inv := h.flag

theorem Chip.Inv.countProd {sid src : Nat} (h : s.Inv) : (countProd s sid src).Inv := h.bump.wr.sigFlag

theorem Chip.Inv.countGate {sid src : Nat} (h : s.Inv) : (countGate s sid src).Inv := h.bump.wr.sigFlag

theorem Chip.Inv.countForce (h : s.Inv) : (countForce s).Inv := h.bump.sigFlag

theorem Chip.Inv.countClamp (h : s.Inv) : (countClamp s).Inv := h.bump.sigFlag.odoInc

theorem Chip.Inv.touchEntry {sid : Nat} {r : WriteReq} (h : s.Inv) : (touchEntry s sid r).Inv :=
  .ite h.touchWords h.touchWords

theorem Chip.Inv.storeWrite {sid : Nat} {r : WriteReq} {w : Writer} (h : s.Inv) : (storeWrite s sid r w).1.Inv := by
  unfold Machine.storeWrite
  split
  · exact h.countProd
  · refine .iteFst ?_ ?_
    · exact h.countProd
    · exact .iteFst h.countGate (.iteFst h.countForce (.touchEntry (.setEntry (.ite h.countClamp h))))

theorem Chip.Inv.storeWrites {ws : List (Nat × WriteReq)} {w : Writer} (h : s.Inv) : (storeWrites s ws w).1.Inv :=
  .foldlFst h fun _ _ hx => hx.storeWrite

theorem Chip.Inv.countPort {p : Nat} (h : s.Inv) : (countPort s p).Inv := .ite h.bump.frame.wrF h.bump.frame

theorem Chip.Inv.freezeStore (h : s.Inv) : (freezeStore s).Inv := .ite h h.frame

theorem Chip.Inv.keepViews (h : s.Inv) : (keepViews s).Inv := .ite (.frame (.ite h.freezeStore h)) (.ite h.freezeStore h)

theorem Chip.Inv.transaction {port : Nat} {w : Writer} {tag : Nat} {ws : List (Nat × WriteReq)} {body : List Byte} (h : s.Inv) :
    (transaction s port w tag ws body).Inv :=
  h.keepViews.storeWrites.countPort.frame

theorem Chip.Inv.p3Enqueue {w : P3Write} (h : s.Inv) : (p3Enqueue s w).Inv := .ite h h.frame

theorem Chip.Inv.p3Halt (h : s.Inv) : (p3Halt s).Inv := h.frame

theorem Chip.Inv.dropCapture {reader : Nat} (h : s.Inv) : (dropCapture s reader).Inv := h.frame

theorem Chip.Inv.notePair {w : P3Write} {out : Nat} (h : s.Inv) : (notePair s w out).Inv := by
  unfold Machine.notePair
  split
  · exact h.frame
  · exact h

theorem Chip.Inv.p3Take (h : s.Inv) : (p3Take s).Inv := by
  unfold Machine.p3Take
  split
  · exact h
  · split
    · exact h
    · extract_lets _ s1 _
      have hs1 : s1.Inv := h.frame
      split
      · exact hs1
      · exact hs1.transaction.notePair

theorem Chip.Inv.seeBytes {src sid o n : Nat} (h : s.Inv) : (seeBytes s src sid o n).1.Inv := by
  unfold Machine.seeBytes
  split
  · exact h
  · exact .ite h.readSpan.setEntry.bump.sigFlag h.readSpan

theorem Chip.Inv.lookBytes {src sid o n : Nat} (h : s.Inv) : (lookBytes s src sid o n).1.Inv := h.seeBytes

theorem Chip.Inv.lookEntry {src sid : Nat} (h : s.Inv) : (lookEntry s src sid).1.Inv := h.lookBytes

theorem Chip.Inv.readEntry {reader sid : Nat} {form : ReadForm} (h : s.Inv) : (readEntry s reader sid form).Inv := by
  unfold Machine.readEntry
  split
  · exact h.lookBytes.frame.returnData
  · exact .ite h.dropCapture.returnData h.lookBytes.dropCapture.returnData
  · exact h.lookBytes.returnData
  · exact h.lookBytes.dropCapture.returnData

theorem Chip.Inv.setForceLines {lines : Nat} (h : s.Inv) : (setForceLines s lines).Inv := h.frame.wr

theorem Chip.Inv.gateChange {holder : Option Nat} (h : s.Inv) : (gateChange s holder).Inv := h.frame

theorem Chip.Inv.cutLook {sid : Nat} (h : s.Inv) : (cutLook s sid).1.Inv := h.seeBytes

theorem Chip.Inv.setHeld (h : s.Inv) : (setHeld s).Inv := h.frame

theorem Chip.Inv.applyStoreShadow (h : s.Inv) : (applyStoreShadow s).Inv := h.frame

theorem Chip.Inv.loadDecls {ds : Tab SidDecl} (h : s.Inv) : (loadDecls s ds).Inv := h.frame.touchWords.wr.wr.wrBit

/-! ### Inject -/

theorem Chip.Inv.tileFlag {t e : Nat} (h : s.Inv) : (s.tileFlag t e).Inv := h.flag

theorem Chip.Inv.setTune {t : Nat} {u : TuneUnit} (h : s.Inv) : (s.setTune t u).Inv := h.frame

theorem Chip.Inv.endInjection {t cause : Nat} (h : s.Inv) : (endInjection s t cause).Inv :=
  .setTune (.ite h.wrBit.wrF.tileFlag.tileFlag h.wrBit.wrF.tileFlag)

theorem Chip.Inv.raiseCause {t cause : Nat} (h : s.Inv) : (raiseCause s t cause).Inv :=
  .ite (.ite h.wrF.tileFlag h.wrF) h

theorem Chip.Inv.tuneRefuse {t reg code : Nat} (h : s.Inv) : (tuneRefuse s t reg code).Inv := h.wrF.tileFlag

theorem Chip.Inv.endCapture {t cause : Nat} (h : s.Inv) : (endCapture s t cause).Inv :=
  .ite h.wrF.wrF.setTune.tileFlag (.ite h.wrF h)

theorem Chip.Inv.newMoment {t : Nat} (h : s.Inv) : (newMoment s t).Inv := .ite h.setTune h

/-! ### Tiles -/

theorem Chip.Inv.setSlotSt {lid : Nat} {x : SlotState} (h : s.Inv) : (setSlotSt s lid x).Inv := h.frame

theorem Chip.Inv.setRecWord {lid w : Nat} {v : Word} (h : s.Inv) : (setRecWord s lid w v).Inv := h.frame.touchWords

theorem Chip.Inv.setShq {t : Nat} {q : List ShCmd} (h : s.Inv) : (setShq s t q).Inv := h.frame

theorem Chip.Inv.slotRefuse {lid w code : Nat} (h : s.Inv) : (slotRefuse s lid w code).Inv := h.wr.tileFlag

theorem Chip.Inv.slotApply {lid w : Nat} {v : Word} {enabling : Bool} (h : s.Inv) : (slotApply s lid w v enabling).Inv := by
  unfold Machine.slotApply
  extract_lets _ _ s1
  have hs1 : s1.Inv := .ite h h.setRecWord
  exact .ite hs1 (.ite hs1.setShq (.ite hs1.setShq.askStart (.ite hs1.setShq hs1.setRecWord)))

theorem Chip.Inv.slotWrite {lid w : Nat} {v : Word} (h : s.Inv) : (slotWrite s lid w v).Inv := .ite h h.slotApply

theorem Chip.Inv.tileQueue {t : Nat} {c : ShCmd} (h : s.Inv) : (tileQueue s t c).Inv := .ite h h.setShq

theorem Chip.Inv.frozenLook {sid : Nat} (h : s.Inv) : (frozenLook s sid).1.Inv := h.seeBytes

theorem Chip.Inv.initSlot {s0 : Chip} {lid : Nat} (h : s0.Inv) : (initSlot s0 lid).Inv := by
  unfold Machine.initSlot
  exact .touchWords (.setSlotSt (.iteFst h.frozenLook.lookEntry.frozenLook h.frozenLook.lookEntry))

theorem Chip.Inv.setMirrorBit {lid b : Nat} {x : Bool} (h : s.Inv) : (setMirrorBit s lid b x).Inv := h.frame.touchWords

theorem Chip.Inv.captureInjEnd {t : Nat} (h : s.Inv) : (captureInjEnd s t).Inv := .ite h.endCapture h

theorem Chip.Inv.disableEnds {lid : Nat} (h : s.Inv) : (disableEnds s lid).Inv := by
  unfold Machine.disableEnds
  extract_lets _ _ s1
  have hs1 : s1.Inv := .ite h.endInjection.captureInjEnd (.ite h.raiseCause h)
  exact .ite hs1.endCapture hs1

theorem Chip.Inv.startInjection {t : Nat} (h : s.Inv) : (startInjection s t).Inv := by
  unfold Machine.startInjection
  refine .ite ?_ ?_
  · exact h.tuneRefuse
  · exact .ite h.tuneRefuse (.ite h.tuneRefuse (.ite h.tuneRefuse h.wrBit.wr.setTune))

theorem Chip.Inv.armCapture {t : Nat} (h : s.Inv) : (armCapture s t).Inv :=
  .ite h.tuneRefuse (.ite h.tuneRefuse (.ite h.tuneRefuse h.wrF.wr.wr.setTune))

theorem Chip.Inv.applyOne {t : Nat} {c : ShCmd} (h : s.Inv) : (applyOne s t c).Inv := by
  unfold Machine.applyOne
  split
  · exact h.startInjection
  · exact .ite h.endInjection.captureInjEnd h
  · exact h.armCapture
  · exact h.endCapture
  · exact .ite h.setRecWord.setMirrorBit.initSlot (.ite h.setRecWord.disableEnds h.setRecWord)

theorem Chip.Inv.applyQueue {t : Nat} (h : s.Inv) : (applyQueue s t).Inv := (h.foldl fun _ _ hx => hx.applyOne).setShq

theorem Chip.Inv.mirrorWrites (h : s.Inv) : (mirrorWrites s).Inv := (h.frame.foldl fun _ _ hx => hx.touchWords)

theorem Chip.Inv.shedSlot {lid : Nat} (h : s.Inv) : (shedSlot s lid).Inv := by
  unfold Machine.shedSlot
  refine .ite ?_ (.ite (.ite h.frame.initSlot h.frame) h)
  split
  · exact .ite h.frame.setEntry h.frame
  · exact h.frame

theorem Chip.Inv.gateTile {t : Nat} (h : s.Inv) : (gateTile s t).Inv := .ite h.wrBit.gateIsland h

theorem Chip.Inv.tileCommit {t : Nat} (h : s.Inv) : (tileCommit s t).Inv := by
  unfold Machine.tileCommit
  exact ((h.newMoment.applyQueue.foldl fun _ _ hx => hx.initSlot).foldl fun _ _ hx => hx.shedSlot).gateTile.frame.wrBit

theorem Chip.Inv.commitPoint (h : s.Inv) : (commitPoint s).Inv := by
  unfold Machine.commitPoint
  refine .ite ?_ ?_
  · exact (h.atPhase.freezeStore.frame.foldl fun _ _ hx => hx.tileCommit).frame.mirrorWrites
  · exact h.atPhase.freezeStore.frame

theorem Chip.Inv.afterSample {t : Nat} {added : Int} {incUsed kept : Nat} (h : s.Inv) : (afterSample s t added incUsed kept).Inv := by
  unfold Machine.afterSample
  refine .ite (.endInjection (.wr (.bump (.ite h.wr h)))) ?_
  refine .ite ?_ ?_
  · exact .endInjection (.wr (.bump (.ite h.wr h)))
  · exact .ite (.endInjection (.wr (.bump (.ite h.wr h)))) (.wr (.bump (.ite h.wr h)))

theorem Chip.Inv.lawEvents {lid : Nat} {old : SlotState} {o : LawOut} (h : s.Inv) : (lawEvents s lid old o).Inv := by
  unfold Machine.lawEvents
  extract_lets _ _ s1 s2 s3
  have hs1 : s1.Inv := .ite h.wr.tileFlag h
  have hs2 : s2.Inv := .ite hs1.tileFlag hs1
  have hs3 : s3.Inv := .ite hs2.tileFlag hs2
  exact .ite hs3.tileFlag hs3

theorem Chip.Inv.readSlot {lid : Nat} (h : s.Inv) : (readSlot s lid).1.Inv := h.readSpan.readSpan

theorem Chip.Inv.lookAll {sids : List Nat} (h : s.Inv) : (lookAll s sids).1.Inv :=
  .foldlFst h fun _ _ hx => hx.frozenLook

theorem Chip.Inv.readSample {t : Nat} (h : s.Inv) : (readSample s t).1.Inv := by
  unfold Machine.readSample
  split
  · exact h.readSpan
  · exact h

theorem Chip.Inv.evalSlot {lid : Nat} (h : s.Inv) : (evalSlot s lid).Inv := by
  have hread := h.readSlot (lid := lid)
  unfold Machine.evalSlot
  generalize Machine.readSlot s lid = r at hread ⊢
  obtain ⟨sr, c, st0⟩ := r
  have hlook := hread.lookAll (sids := lawSids c)
  dsimp -zeta only at hlook ⊢
  generalize Machine.lookAll sr (lawSids c) = r at hlook ⊢
  obtain ⟨si, look⟩ := r
  extract_lets t st injOn inj o _ st' s1 u _ s2 _ _ s3
  have hs1 : s1.Inv := .touchWords (.setSlotSt (.iteFst hlook.readSample hlook))
  have hs2 : s2.Inv := .ite hs1.setTune.afterSample hs1
  have hs3 : s3.Inv := .ite hs2.setSlotSt.touchWords hs2
  exact hs3.lawEvents.frame

theorem Chip.Inv.evalNext {t : Nat} (h : s.Inv) : (evalNext s t).Inv := by
  unfold Machine.evalNext
  split
  · exact h
  · exact h.atPhase.frame.evalSlot

theorem Chip.Inv.putCapture {t : Nat} {w0 w1 w2 w3 : Word} (h : s.Inv) : (putCapture s t w0 w1 w2 w3).Inv :=
  .bump (.wr (.ite h.frame.touchWords.wrBit h.frame.touchWords))

theorem Chip.Inv.streamCapture {t lid kind cnt flagsWord : Nat} {ws : List Word} (h : s.Inv) : (streamCapture s t lid kind cnt flagsWord ws).Inv :=
  .ite h.frame h

theorem Chip.Inv.captureHeld {h : Held} (hi : s.Inv) : (captureHeld s h).Inv := by
  unfold Machine.captureHeld
  extract_lets _ _ _ _ _ _ _ _ _ _ _ s3 _ s4
  have hs3 : s3.Inv := .ite (.streamCapture (.putCapture (.setTune (.ite hi.wrF.wr hi)))) (.setTune (.ite hi.wrF.wr hi))
  have hs4 : s4.Inv := .ite hs3.endCapture hs3
  exact .ite hi (.ite hi (.ite hs4.endCapture hs4))

theorem Chip.Inv.captureMissed {evaluated : List Nat} {t : Nat} (h : s.Inv) : (captureMissed s evaluated t).Inv :=
  .ite h.endCapture h

theorem Chip.Inv.publishJournal {h : Held} (hi : s.Inv) : (publishJournal s h).Inv :=
  hi.frame.touchWords.setMirrorBit.setMirrorBit

theorem Chip.Inv.commitHeld {h : Held} (hi : s.Inv) : (commitHeld s h).Inv := by
  unfold Machine.commitHeld
  extract_lets _ s1 _ _ _
  have hs1 : s1.Inv := hi.transaction
  exact .captureHeld (.bump (.publishJournal (.setSlotSt (.ite hs1.odoInc hs1))))

theorem Chip.Inv.commitAll (h : s.Inv) : (commitAll s).Inv := by
  unfold Machine.commitAll
  exact (((h.foldl fun _ _ hx => hx.newMoment).foldl fun _ _ hx => hx.commitHeld).foldl fun _ _ hx => hx.captureInjEnd.captureMissed).frame

theorem Chip.Inv.noteOverrun {t : Nat} (h : s.Inv) : (noteOverrun s t).Inv := h.bump.tileFlag.odoInc.fault.frame

theorem Chip.Inv.flagClear {lid mask : Nat} (h : s.Inv) : (flagClear s lid mask).Inv := h.setSlotSt

theorem Chip.Inv.restoreSlot {lid : Nat} {r : JRec} (h : s.Inv) : (restoreSlot s lid r).Inv := h.setSlotSt.touchWords

theorem Chip.Inv.lostSlot {lid : Nat} (h : s.Inv) : (lostSlot s lid).Inv := h.bump.wr.tileFlag

/-! ### Ewene -/

theorem Chip.Inv.setNodeState {d x : Nat} (h : s.Inv) : (setNodeState s d x).Inv := h.wrF

theorem Chip.Inv.setNodeSt {d : Nat} {x : NodeSt} (h : s.Inv) : (setNodeSt s d x).Inv := h.frame

theorem Chip.Inv.ewnFlag {b : Nat} (h : s.Inv) : (s.ewnFlag b).Inv := h.flag

theorem Chip.Inv.ewnFlag2 {b : Nat} (h : s.Inv) : (s.ewnFlag2 b).Inv := h.flag

theorem Chip.Inv.syncCred {d : Nat} (h : s.Inv) : (syncCred s d).Inv := h.wrF

theorem Chip.Inv.syncHead (h : s.Inv) : (syncHead s).Inv := by
  unfold Machine.syncHead
  extract_lets _ starts
  cases starts <;> exact h.wr

theorem Chip.Inv.loseMail {d : Nat} (h : s.Inv) : (loseMail s d).Inv := by
  unfold Machine.loseMail
  extract_lets _ _ _ _ s0 _ s1
  have hs0 : s0.Inv := h.frame
  have hs1 : s1.Inv := hs0.frame
  split
  · exact h
  · exact hs1.bumpBy.wr.led.ewnFlag.syncHead

theorem Chip.Inv.withdraw {d : Nat} (h : s.Inv) : (withdraw s d).Inv := .ite h.led h

theorem Chip.Inv.noteDeparture {d cause : Nat} (h : s.Inv) : (noteDeparture s d cause).Inv :=
  .ite h.frame.wrF.ewnFlag2.odoInc.logEvent.setNodeSt h.frame.wrF.ewnFlag2.odoInc.logEvent

theorem Chip.Inv.applyCauses {d : Nat} {cs : List Nat} (h : s.Inv) : (applyCauses s d cs).Inv := by
  unfold Machine.applyCauses
  split
  · exact h
  · extract_lets _ _ s1 s2 s3
    have hs1 : s1.Inv := .ite h.noteDeparture h
    have hs2 : s2.Inv := .ite hs1.withdraw hs1
    have hs3 : s3.Inv := .ite hs2.setNodeState (.ite hs2.setNodeState (.ite hs2.setNodeState hs2))
    exact .syncCred (.ite hs3.loseMail hs3)

theorem Chip.Inv.admitNode {d : Nat} (h : s.Inv) : (admitNode s d).Inv :=
  .ite h.setNodeState.setNodeSt.ewnFlag2 (.ite h.ewnFlag2.odoInc.logEvent.setNodeState h)

theorem Chip.Inv.fillSeat {acc : Chip × Tab (List Byte)} {x : Seat} (h : acc.1.Inv) : (fillSeat acc x).1.Inv :=
  .ite h.cutLook h.cutLook.bump.ewnFlag.odoInc

theorem Chip.Inv.cutCoach (h : s.Inv) : (cutCoach s).Inv :=
  .frame (.foldlFst (.ite h (h.foldl fun _ _ hx => hx.admitNode)) fun _ _ hx => hx.fillSeat)

theorem Chip.Inv.surveyAdvance (h : s.Inv) : (surveyAdvance s).Inv := by
  unfold Machine.surveyAdvance
  extract_lets s1 _ _
  have hs1 : s1.Inv := .ite h.bump h
  exact .ite hs1.frame (.ite hs1.frame (.ite hs1.frame hs1.frame))

theorem Chip.Inv.startBreak (h : s.Inv) : (startBreak s).Inv := .ite h h.wrBit.bump.ewnFlag2.odoInc.frame

theorem Chip.Inv.ringTickEnd (h : s.Inv) : (ringTickEnd s).Inv := .frame (.ite h.wrBit.wrBit.startBreak h.wrBit.wrBit)

theorem Chip.Inv.sendBoth {octet : Nat} {bytes : Nat → List Byte} (h : s.Inv) : (sendBoth s octet bytes).Inv := h.frame

theorem Chip.Inv.sendSurvey {octet apply : Nat} {entries : List Byte} (h : s.Inv) : (sendSurvey s octet apply entries).Inv :=
  h.sendBoth.frame

theorem Chip.Inv.sendDelays {apply : Nat} {ds : List (Nat × Word × Word)} (h : s.Inv) : (sendDelays s apply ds).Inv :=
  (h.foldl fun _ _ hx => hx.wr.wr).sendSurvey

theorem Chip.Inv.sendRound (h : s.Inv) : (sendRound s).Inv := by
  unfold Machine.sendRound
  refine .ite h.sendSurvey ?_
  split
  · exact h.sendDelays
  · exact h

theorem Chip.Inv.startCoach (h : s.Inv) : (startCoach s).Inv := .ite h h.surveyAdvance.wrF.frame.sendBoth.sendRound

theorem Chip.Inv.compartmentReturn {ofPrev : Bool} {ring comp : Nat} {b : List Byte} (h : s.Inv) : (compartmentReturn s ofPrev ring comp b).Inv := by
  unfold Machine.compartmentReturn
  extract_lets coach
  cases coach with
  | none => exact h
  | some c =>
    refine .ite h ?_
    extract_lets bad s1
    have hs1 : s1.Inv := .ite h.bump h
    exact .ite hs1 (.ite hs1.frame hs1.frame)

theorem Chip.Inv.headerReturn {ownPort : Bool} {b : List Byte} {time : Nat} (h : s.Inv) : (headerReturn s ownPort b time).Inv :=
  .ite h.bump h.frame

theorem Chip.Inv.lockLost {ring : Nat} (h : s.Inv) : (lockLost s ring).Inv := .ite h.frame.startBreak h.frame

theorem Chip.Inv.lockRegained {ring : Nat} (h : s.Inv) : (lockRegained s ring).Inv := h.frame

theorem Chip.Inv.extreme {k : Nat} {high : Bool} {v : Int} (h : s.Inv) : (s.extreme k high v).Inv := .ite h.frame h

theorem Chip.Inv.healBreak (h : s.Inv) : (healBreak s).Inv := .ite h.wrBit.ewnFlag2.frame.extreme h

theorem Chip.Inv.noteTrailer {d : Nat} {p : List Byte} (h : s.Inv) : (noteTrailer s d p).Inv :=
  h.wrBit.wrBit.wrBit.setNodeSt

theorem Chip.Inv.landOne {c : Coach} {comp : Nat} {cfg : CompCfg} {ring : Nat} {p : List Byte} (h : s.Inv) : (landOne s c comp cfg ring p).Inv :=
  .ite h.atPhase.bump.transaction.noteTrailer.frame h.atPhase.bump.transaction.noteTrailer

theorem Chip.Inv.missOne {comp cause : Nat} (h : s.Inv) : (missOne s comp cause).Inv := h.bump.wr.ewnFlag.odoInc

theorem Chip.Inv.noteDivergence {c : Coach} {comp : Nat} {cfg : CompCfg} (h : s.Inv) : (noteDivergence s c comp cfg).Inv :=
  .ite h.bump.wr.ewnFlag2.odoInc h

theorem Chip.Inv.landComp {c : Coach} {comp : Nat} {cfg : CompCfg} (h : s.Inv) : (landComp s c comp cfg).Inv := by
  unfold Machine.landComp
  split
  · exact h.noteDivergence.landOne
  · exact h.missOne

theorem Chip.Inv.departAfterLanding {before : Chip} {c : Coach} {d : Nat} (hs : s.Inv) : (departAfterLanding before c s d).Inv :=
  .ite hs hs.setNodeSt.applyCauses

theorem Chip.Inv.landCoach (h : s.Inv) : (landCoach s).Inv := by
  unfold Machine.landCoach
  extract_lets s1 _ s2
  have hs1 : s1.Inv := h.atPhase
  have hs2 : s2.Inv := hs1.frame
  split
  · exact hs1
  · exact .frame (.foldl (.foldl hs2 fun _ _ hx => .ite hx.landComp hx) fun _ _ hx => hx.departAfterLanding)

theorem Chip.Inv.setExclude {d : Nat} {x : Bool} (h : s.Inv) : (setExclude s d x).Inv := h.wrBit

theorem Chip.Inv.readmit {d : Nat} (h : s.Inv) : (readmit s d).Inv := h.setNodeSt

/-! ### Mail -/

theorem Chip.Inv.takeEntries {n : Nat} (h : s.Inv) : (takeEntries s n).Inv := by
  induction n generalizing s with
  | zero => exact h
  | succ n ih => exact .ite (ih h.frame.led) h

theorem Chip.Inv.writeMtxtail {v : Nat} (h : s.Inv) : (writeMtxtail s v).Inv := h.wr.takeEntries.syncHead

theorem Chip.Inv.useLine {n : Nat} (h : s.Inv) : (useLine s n).Inv := h.frame

theorem Chip.Inv.grantCarrier {d : Nat} (h : s.Inv) : (grantCarrier s d).Inv := h.useLine.sendBoth.frame

theorem Chip.Inv.grantCarriers {done : List Nat} {n : Nat} (h : s.Inv) : (grantCarriers s done n).Inv := by
  induction n generalizing s done with
  | zero => exact h
  | succ n ih =>
    unfold Machine.grantCarriers
    extract_lets
    split
    · exact h
    · exact .ite (ih h.grantCarrier) h

theorem Chip.Inv.sendCarriers (h : s.Inv) : (sendCarriers s).Inv := h.grantCarriers

theorem Chip.Inv.failMail {d : Nat} (h : s.Inv) : (failMail s d).Inv := h.wrBit.loseMail.applyCauses

theorem Chip.Inv.resendFrame {acc : Chip × List Nat} {f : MailFrame} (h : acc.1.Inv) : (resendFrame acc f).1.Inv :=
  .iteFst h (.iteFst h.failMail (.iteFst h (.iteFst h.useLine.sendBoth.bump.frame h)))

theorem Chip.Inv.resendAll (h : s.Inv) : (resendAll s).1.Inv := .foldlFst h fun _ _ hx => hx.resendFrame

theorem Chip.Inv.resendOldest (h : s.Inv) : (resendOldest s).Inv := by
  unfold Machine.resendOldest
  split
  · exact h
  · exact h.resendFrame

theorem Chip.Inv.firstSend {f : MailFrame} (h : s.Inv) : (firstSend s f).Inv := h.setNodeSt.useLine.sendBoth.bump.frame

theorem Chip.Inv.sendNew {held : List Nat} {n : Nat} (h : s.Inv) : (sendNew s held n).Inv := by
  induction n generalizing s with
  | zero => exact h
  | succ n ih =>
    unfold Machine.sendNew
    refine .ite ?_ (.ite ?_ h)
    · split
      · exact h
      · exact ih h.frame.firstSend
    · split
      · exact h
      · exact ih h.frame.firstSend

theorem Chip.Inv.mailWindow (h : s.Inv) : (mailWindow s).Inv := .ite h h.sendCarriers.resendAll.sendNew

theorem Chip.Inv.takeAck {d ack : Nat} (h : s.Inv) : (takeAck s d ack).Inv := .ite h h.setNodeSt.frame.led.syncHead

theorem Chip.Inv.takeFreed {d freed : Nat} (h : s.Inv) : (takeFreed s d freed).Inv :=
  .ite h.setNodeSt.syncCred h.bump.flag.syncCred

theorem Chip.Inv.putRx {bytes : List Byte} (h : s.Inv) : (putRx s bytes).Inv :=
  (h.frame.foldl fun _ _ hx => hx.clearFlips).wr

theorem Chip.Inv.syncSeatPend (h : s.Inv) : (syncSeatPend s).Inv := .ite h.wr.wr.wrBit.flag h.wr.wr.wrBit

theorem Chip.Inv.noteSeatAck {d ttver status : Nat} (h : s.Inv) : (noteSeatAck s d ttver status).Inv :=
  .ite h.setNodeSt h.setNodeSt.frame

theorem Chip.Inv.noteUplink {d type : Nat} {body : List Byte} (h : s.Inv) : (noteUplink s d type body).Inv :=
  .ite h.setNodeSt (.ite h.noteSeatAck h)

theorem Chip.Inv.deliverUplink {d cap : Nat} {frame : List Byte} (h : s.Inv) : (deliverUplink s d cap frame).Inv :=
  .ite h.bump.noteUplink.frame h.bump.noteUplink.putRx.ewnFlag

theorem Chip.Inv.uplinkFrom {d cap : Nat} {b : List Byte} (h : s.Inv) : (uplinkFrom s d cap b).Inv := by
  unfold Machine.uplinkFrom
  refine .ite ?_ ?_
  · exact h.setNodeSt.takeAck.takeFreed.deliverUplink
  · exact .ite h.bump (.ite h.takeAck.takeFreed h)

theorem Chip.Inv.dropCarrier {c : Nat × Nat} (h : s.Inv) : (dropCarrier s c).Inv := h.frame

theorem Chip.Inv.noteWraps {a b : List Byte} {own : OwnPorts} (h : s.Inv) : (noteWraps s a b own).Inv := h.frame

theorem Chip.Inv.uplinkFrame {d : Nat} {a b : List Byte} {own : OwnPorts} (h : s.Inv) : (uplinkFrame s d a b own).Inv := by
  unfold Machine.uplinkFrame
  split
  · exact h
  · extract_lets s1 _ _
    have hs1 : s1.Inv := h.dropCarrier.noteWraps
    exact .ite hs1.uplinkFrom (.ite hs1.uplinkFrom (.ite hs1.bump hs1))

/-! ### Analog -/

theorem Chip.Inv.setAdc {k : Nat} {c : AdcSeq} (h : s.Inv) : (setAdc s k c).Inv := h.frame.wrBit.wrBit

theorem Chip.Inv.adcFlag {k e : Nat} (h : s.Inv) : (s.adcFlag k e).Inv := h.flag

theorem Chip.Inv.adcRefuse {k code off : Nat} (h : s.Inv) : (adcRefuse s k code off).Inv := h.wr.adcFlag

theorem Chip.Inv.startEntry {k e t : Nat} (h : s.Inv) : (startEntry s k e t).Inv := h.wrF.setAdc

theorem Chip.Inv.reachEntry {k e t : Nat} (h : s.Inv) : (reachEntry s k e t).Inv :=
  .ite h.startEntry (.ite h.wrF.setAdc.bump.adcFlag h.wrF.setAdc)

theorem Chip.Inv.startPass {k t : Nat} (h : s.Inv) : (startPass s k t).Inv := h.setAdc.reachEntry

theorem Chip.Inv.passEnd {k t : Nat} (h : s.Inv) : (passEnd s k t).Inv :=
  .ite h.bump.adcFlag.startPass h.bump.adcFlag.setAdc

theorem Chip.Inv.entryEnd {k : Nat} {codes : List AdcSample} (h : s.Inv) : (entryEnd s k codes).Inv := by
  unfold Machine.entryEnd
  extract_lets
  split
  · exact h
  · exact .ite h (.ite h.atPhase.setAdc.passEnd h.atPhase.setAdc.reachEntry)

theorem Chip.Inv.entryWrite {k : Nat} (h : s.Inv) : (entryWrite s k).Inv := by
  unfold Machine.entryWrite
  extract_lets
  split
  · exact h
  · extract_lets s1 _ s2
    have hs1 : s1.Inv := h.atPhase.setAdc
    have hs2 : s2.Inv := hs1.transaction.bump
    exact .ite h (.ite (.ite hs2.bump.adcFlag hs2) hs1)

theorem Chip.Inv.syncStart {k : Nat} (h : s.Inv) : (syncStart s k).Inv := by
  unfold Machine.syncStart
  split
  · exact h
  · exact .ite h h.startEntry

theorem Chip.Inv.adcBoundary {k : Nat} (h : s.Inv) : (adcBoundary s k).Inv := h.frame

theorem Chip.Inv.adcStop {k : Nat} (h : s.Inv) : (adcStop s k).Inv := h.setAdc

theorem Chip.Inv.adcOnWrite {k : Nat} {on : Bool} (h : s.Inv) : (adcOnWrite s k on).Inv :=
  .ite h (.ite (.ite h.wrBit.startPass h.adcRefuse) h.wrBit.adcStop)

theorem Chip.Inv.adcGo {k : Nat} (h : s.Inv) : (adcGo s k).Inv := .ite h.adcRefuse (.ite h.adcRefuse h.startPass)

theorem Chip.Inv.refBad {k : Nat} (h : s.Inv) : (refBad s k).Inv := .ite h h.wrBit.adcFlag.frame

theorem Chip.Inv.refClear {k : Nat} (h : s.Inv) : (refClear s k).Inv := h.wrBit

theorem Chip.Inv.loadDuty {n : Nat} (h : s.Inv) : (loadDuty s n).Inv :=
  .ite h (.ite h.lookEntry.wr h.lookEntry.wr.bump.adcFlag.odoInc)

theorem Chip.Inv.loadDuties (h : s.Inv) : (loadDuties s).Inv := .ite (h.foldl fun _ _ hx => hx.loadDuty) h

theorem Chip.Inv.pwmPeriod {n i : Nat} (h : s.Inv) : (pwmPeriod s n i).Inv := .ite h h.atPhase.wr.frame

theorem Chip.Inv.pwmOnWrite {n : Nat} {on : Bool} (h : s.Inv) : (pwmOnWrite s n on).Inv :=
  .ite h.wrBit.frame (.ite h.adcRefuse (.ite h.adcRefuse h.wrBit))

/-! ### Can -/

theorem Chip.Inv.setCan {n : Nat} {c : CanChan} (h : s.Inv) : (setCan s n c).Inv := h.frame

theorem Chip.Inv.canFlag {n e : Nat} (h : s.Inv) : (s.canFlag n e).Inv := h.flag

theorem Chip.Inv.canRefuse {n code off : Nat} (h : s.Inv) : (canRefuse s n code off).Inv := h.wr.canFlag

theorem Chip.Inv.syncCanStat {n : Nat} (h : s.Inv) : (syncCanStat s n).Inv := h.wrF.wrF.wrBit.wrF

theorem Chip.Inv.syncCanPend {n : Nat} (h : s.Inv) : (syncCanPend s n).Inv := h.wr.wr

theorem Chip.Inv.canRetire {n : Nat} {p : CanPend} {code : Nat} (h : s.Inv) : (canRetire s n p code).Inv := by
  unfold Machine.canRetire
  extract_lets _ _ s0 s1
  have hs0 : s0.Inv := by
    unfold s0
    split
    · exact h
    · exact h.draw
  have hs1 : s1.Inv := hs0.wr.ledCan
  exact .ite hs1.bump.canFlag (.ite hs1.bump.canFlag hs1)

theorem Chip.Inv.canRetireAll {n : Nat} {ps : List CanPend} {code : Nat} (h : s.Inv) : (canRetireAll s n ps code).Inv :=
  (h.foldl fun _ _ hx => hx.canRetire)

theorem Chip.Inv.makePending {n b : Nat} {sched : Bool} {rel win : Nat} (h : s.Inv) : (makePending s n b sched rel win).Inv :=
  h.setCan.ledCan.syncCanPend

theorem Chip.Inv.canRequest {n b : Nat} (h : s.Inv) : (canRequest s n b).Inv := .ite h.canRefuse h.makePending

theorem Chip.Inv.canTxreq {n : Nat} {hi : Bool} {mask : Word} (h : s.Inv) : (canTxreq s n hi mask).Inv :=
  .foldl h fun _ _ hx => .ite hx.canRequest hx

theorem Chip.Inv.canAbort {n b : Nat} (h : s.Inv) : (canAbort s n b).Inv := by
  unfold Machine.canAbort
  extract_lets
  split
  · exact h.setCan.canRetire.syncCanPend
  · split
    · exact .ite h.setCan h
    · exact h

theorem Chip.Inv.canTxabort {n : Nat} {hi : Bool} {mask : Word} (h : s.Inv) : (canTxabort s n hi mask).Inv :=
  .foldl h fun _ _ hx => .ite hx.canAbort hx

theorem Chip.Inv.canAgain {n : Nat} {p : CanPend} (h : s.Inv) : (canAgain s n p).Inv := by
  unfold Machine.canAgain
  refine .ite ?_ ?_
  · exact h.canRetire
  · exact .ite h.canRetire (.ite (.ite h.canRetire h.setCan) (.ite h.canRetire h.setCan))

theorem Chip.Inv.canStartFrame {n ph : Nat} {won : Bool} (h : s.Inv) : (canStartFrame s n ph won).Inv := by
  unfold Machine.canStartFrame
  refine .ite h ?_
  split
  · exact h
  · exact .syncCanPend (.ite h.atPhase.setCan.setCan h.atPhase.setCan.canAgain)

theorem Chip.Inv.canLeave {n : Nat} (h : s.Inv) : (canLeave s n).Inv := .ite h.setCan h

theorem Chip.Inv.takeTdcv {n : Nat} {p : CanPend} {tdcv : Nat} (h : s.Inv) : (takeTdcv s n p tdcv).Inv := .ite h.wrF h

theorem Chip.Inv.canFrameEnd {n ph tdcv : Nat} (h : s.Inv) : (canFrameEnd s n ph tdcv).Inv := by
  unfold Machine.canFrameEnd
  extract_lets _ s1
  have hs1 : s1.Inv := h.atPhase.setCan
  split
  · exact h
  · exact hs1.canRetire.takeTdcv.canLeave.syncCanStat.syncCanPend

theorem Chip.Inv.canExpire {n b ph : Nat} (h : s.Inv) : (canExpire s n b ph).Inv := by
  unfold Machine.canExpire
  extract_lets s0 _
  have hs0 : s0.Inv := h.atPhase
  split
  · exact h
  · exact hs0.setCan.canRetire.syncCanPend

theorem Chip.Inv.canEnterBusoff {n : Nat} (h : s.Inv) : (canEnterBusoff s n).Inv :=
  h.setCan.canRetireAll.bump.canFlag.odoInc

theorem Chip.Inv.canErrorState {n before : Nat} (h : s.Inv) : (canErrorState s n before).Inv := by
  unfold Machine.canErrorState
  extract_lets s1 _
  have hs1 : s1.Inv := .ite h.canEnterBusoff h
  exact .syncCanPend (.syncCanStat (.canLeave (.ite hs1.canFlag.odoInc hs1)))

theorem Chip.Inv.noteBusError {n code : Nat} (h : s.Inv) : (noteBusError s n code).Inv := h.bump.wrF.canFlag.odoInc

theorem Chip.Inv.canBusError {n ph code : Nat} {kind : CanErr} {tdcv : Option Nat} (h : s.Inv) : (canBusError s n ph code kind tdcv).Inv := by
  unfold Machine.canBusError
  refine .ite h ?_
  extract_lets before c s0 c1 s1
  have hs0 : s0.Inv := h.atPhase
  have hs1 : s1.Inv := hs0.noteBusError.setCan
  split
  · split
    · exact hs1.canErrorState
    · extract_lets s2
      have hs2 : s2.Inv := by
        unfold s2
        split
        · exact hs1.takeTdcv
        · exact hs1
      exact .ite hs2.setCan.canErrorState hs2.canAgain.canErrorState
  · exact hs0.noteBusError.setCan.canErrorState
  · exact hs0.setCan.canErrorState

theorem Chip.Inv.canRecovered {n : Nat} (h : s.Inv) : (canRecovered s n).Inv := .ite h.setCan.canFlag.syncCanStat h

theorem Chip.Inv.canRecoverWrite {n : Nat} (h : s.Inv) : (canRecoverWrite s n).Inv := .ite h.setCan h

theorem Chip.Inv.canJoin {n : Nat} (h : s.Inv) : (canJoin s n).Inv := .ite h.setCan.syncCanStat h

theorem Chip.Inv.canSwitchOff {n code : Nat} (h : s.Inv) : (canSwitchOff s n code).Inv :=
  h.setCan.canRetireAll.canLeave.syncCanStat.syncCanPend

theorem Chip.Inv.canPower {n : Nat} (h : s.Inv) : (canPower s n).Inv := .ite h.askStart h.gateIsland

theorem Chip.Inv.canShed {n : Nat} (h : s.Inv) : (canShed s n).Inv := .ite h.canSwitchOff.setCan.syncCanStat.canPower h

theorem Chip.Inv.canOnWrite {n : Nat} {on : Bool} (h : s.Inv) : (canOnWrite s n on).Inv := by
  unfold Machine.canOnWrite
  refine .ite h ?_
  extract_lets _ s2
  have hs2 : s2.Inv := .canPower (.ite h.wrBit.syncCanStat h.wrBit.canSwitchOff)
  exact .ite hs2.canShed hs2

theorem Chip.Inv.canUnshed {n : Nat} (h : s.Inv) : (canUnshed s n).Inv := .ite h.setCan.syncCanStat.canPower h

theorem Chip.Inv.canStart (h : s.Inv) : (canStart s).Inv := (h.foldl fun _ _ hx => hx.syncCanStat.canPower)

theorem Chip.Inv.canFollowStage (h : s.Inv) : (canFollowStage s).Inv := by
  refine h.foldl fun x n hx => ?_
  split
  · exact hx.canShed
  · exact hx.canUnshed

theorem Chip.Inv.canReset {n : Nat} (h : s.Inv) : (canReset s n).Inv := h.ledCan.setCan

theorem Chip.Inv.setBufByte {n b o : Nat} {x : Byte} (h : s.Inv) : (setBufByte s n b o x).Inv := h.clearFlips.wrF

theorem Chip.Inv.packField {n b i : Nat} (h : s.Inv) : (packField n b s i).Inv :=
  .foldl (.ite h.lookEntry.bump.odoInc h.lookEntry) fun _ _ hx => hx.setBufByte

theorem Chip.Inv.packBuffer {n b : Nat} (h : s.Inv) : (packBuffer s n b).Inv := (h.foldl fun _ _ hx => hx.packField)

theorem Chip.Inv.canRelease {n i : Nat} (h : s.Inv) : (canRelease s n i).Inv := by
  unfold Machine.canRelease
  extract_lets _ _ _ _ _ s1
  have hs1 : s1.Inv := h.atPhase.packBuffer
  refine .ite h ?_
  refine .ite ?_ ?_
  · exact h.atPhase.ledCan.canRetire
  · exact .ite h.atPhase.bump (.ite hs1.ledCan.canRetire hs1.makePending)

theorem Chip.Inv.fifoEnter {n filter : Nat} {f : CanFrame} (h : s.Inv) : (fifoEnter s n filter f).Inv :=
  .ite h.bump.canFlag (h.clearFlips.wr.wr.wr.wr.foldl fun _ _ hx => hx.wr).wrF.canFlag

theorem Chip.Inv.canExtract {n : Nat} {f : CanFrame} {cfg : Word} (h : s.Inv) : (canExtract s n f cfg).Inv :=
  .transaction (.ite h h.bumpBy.canFlag)

theorem Chip.Inv.takeFrame {n : Nat} {f : CanFrame} (h : s.Inv) : (takeFrame s n f).Inv := by
  unfold Machine.takeFrame
  split
  · exact h.bump
  · extract_lets _ _ _ s2
    have hs2 : s2.Inv := .ite h.bump.fifoEnter h.bump
    exact .ite hs2.canExtract hs2

theorem Chip.Inv.canReceive {n ph : Nat} {f : CanFrame} (h : s.Inv) : (canReceive s n ph f).Inv := by
  unfold Machine.canReceive
  refine .ite h ?_
  refine .ite h.canBusError ?_
  refine .ite ?_ ?_
  · exact .ite h.atPhase.setCan.syncCanStat h.canBusError
  · exact h.atPhase.setCan.syncCanStat.takeFrame

theorem Chip.Inv.canTableWrite {n off : Nat} {v : Word} (h : s.Inv) : (canTableWrite s n off v).Inv :=
  .ite (.ite h.canRefuse (.ite h.canRefuse h.wr)) (.ite h.wr h)

/-! ### Feedback -/

theorem Chip.Inv.setFb {n : Nat} {c : FbChan} (h : s.Inv) : (setFb s n c).Inv := h.frame

theorem Chip.Inv.fbFlag {n e : Nat} (h : s.Inv) : (s.fbFlag n e).Inv := h.flag

theorem Chip.Inv.fbRefuse {n code off : Nat} (h : s.Inv) : (fbRefuse s n code off).Inv := h.wr.fbFlag

theorem Chip.Inv.indexCheck {n : Nat} (h : s.Inv) : (indexCheck s n).Inv := by
  unfold Machine.indexCheck
  refine .ite h ?_
  split
  · exact h.setFb
  · exact .ite h (.ite h.wr.setFb.wrBit.fbFlag h.wr.setFb)

theorem Chip.Inv.indexEvent {n : Nat} (h : s.Inv) : (indexEvent s n).Inv := h.wr.bump.fbFlag.wrBit.indexCheck

theorem Chip.Inv.firePulse {n u pin pw : Nat} (h : s.Inv) : (firePulse s n u pin pw).Inv := h.frame

theorem Chip.Inv.compareFire {n u : Nat} (h : s.Inv) : (compareFire n s u).Inv := by
  unfold Machine.compareFire
  extract_lets _ _ _ _ s3 _ s4
  have hs3 : s3.Inv := .ite h.bump.wr.wr.fbFlag h.bump.wr.wr
  have hs4 : s4.Inv := .ite hs3.wrBit hs3.wr
  exact .ite hs4 hs4.firePulse

theorem Chip.Inv.compareUnits {n : Nat} {c : Word} {d : Int} (h : s.Inv) : (compareUnits s n c d).Inv :=
  .foldl h fun _ _ hx => .ite hx.compareFire hx

theorem Chip.Inv.countBy {n : Nat} {d : Int} (h : s.Inv) : (countBy s n d).Inv := h.wr.setFb.compareUnits

theorem Chip.Inv.illegalEdge {n : Nat} (h : s.Inv) : (illegalEdge s n).Inv := h.wrBit.bump.fbFlag.setFb

theorem Chip.Inv.decodeEdge {n : Nat} {a b a' b' : Bool} (h : s.Inv) : (decodeEdge s n a b a' b').Inv := by
  unfold Machine.decodeEdge
  refine .ite ?_ ?_
  · exact .ite h.illegalEdge (.ite h.countBy h)
  · exact .ite (.ite (.ite h.illegalEdge h.countBy) h) h

theorem Chip.Inv.relatch {n : Nat} (h : s.Inv) : (relatch s n).Inv := .ite h.wr.setFb h

theorem Chip.Inv.fbEdge {n ph : Nat} {ra rb rz : RawLine} (h : s.Inv) : (fbEdge s n ph ra rb rz).Inv := by
  unfold Machine.fbEdge
  extract_lets _ _ _ _ _ _ s2 _ _ _
  have hs2 : s2.Inv := h.atPhase.setFb.decodeEdge.relatch
  exact .ite h.atPhase.setFb (.setFb (.ite hs2.indexEvent hs2))

theorem Chip.Inv.fbWrite {n : Nat} {pos v : Int} {satd fault : Bool} (h : s.Inv) : (fbWrite s n pos v satd fault).Inv :=
  h.transaction

theorem Chip.Inv.fbSample {n : Nat} (h : s.Inv) : (fbSample s n).Inv :=
  .ite h (.fbWrite (.setFb (.wr (.ite h.atPhase h.atPhase.draw))))

theorem Chip.Inv.fbBoundary {busy : List Nat} {n : Nat} (h : s.Inv) : (fbBoundary busy s n).Inv :=
  .ite h (.ite (.ite (.ite h.wr.setFb.wrBit.fbFlag h.wr.setFb) h.wr) h.wr.setFb)

theorem Chip.Inv.fbBoundaries {busy : List Nat} (h : s.Inv) : (fbBoundaries s busy).Inv :=
  (h.foldl fun _ _ hx => hx.fbBoundary)

theorem Chip.Inv.badWord {n : Nat} {crcErr encErr : Bool} (h : s.Inv) : (badWord s n crcErr encErr).Inv := by
  unfold Machine.badWord
  extract_lets s1 s2 _ _ _
  have hs1 : s1.Inv := .ite h.wrBit h
  have hs2 : s2.Inv := .ite hs1.wrBit hs1
  exact .fbWrite (.setFb (.ite hs2.bump.fbFlag hs2.bump))

theorem Chip.Inv.goodWord {n u : Nat} (h : s.Inv) : (goodWord s n u).Inv :=
  .fbWrite (.setFb (.wr (.ite h.wr.setFb.compareUnits h.wr.setFb.compareUnits.draw)))

theorem Chip.Inv.serialWord {n word : Nat} (h : s.Inv) : (serialWord s n word).Inv := by
  unfold Machine.serialWord
  split
  · exact h
  · exact .ite h (.ite h.atPhase.setFb.wr.wr.badWord h.atPhase.setFb.wr.wr.goodWord)

theorem Chip.Inv.cmpvalWrite {n u : Nat} {v : Word} (h : s.Inv) : (cmpvalWrite s n u v).Inv := h.wr.wrBit

theorem Chip.Inv.pulseEnd {pin ph : Nat} (h : s.Inv) : (pulseEnd s pin ph).Inv := .ite h.atPhase.frame h

theorem Chip.Inv.fbStart {n : Nat} {cnt : Word} {first : Bool} (h : s.Inv) : (fbStart s n cnt first).Inv :=
  h.setFb.wr.wrBit.wrBit

theorem Chip.Inv.fbStop {n : Nat} (h : s.Inv) : (fbStop s n).Inv := (h.wrBit.setFb.foldl fun _ _ hx => hx.wrBit).frame

theorem Chip.Inv.fbOnWrite {n : Nat} {on : Bool} (h : s.Inv) : (fbOnWrite s n on).Inv :=
  .ite h (.ite (.ite h.wrBit.fbStart h.fbRefuse) h.wrBit.fbStop)

theorem Chip.Inv.fbHalt (h : s.Inv) : (fbHalt s).Inv := (h.foldl fun _ _ hx => hx.wrBit.setFb).frame

theorem Chip.Inv.fbResume {n : Nat} (h : s.Inv) : (fbResume s n).Inv := by
  unfold Machine.fbResume
  refine .ite (.fbFlag (.wrBit (.wr ?_))) (.wr ?_) <;>
    exact .ite (.fbStart (.iteFst h.lookEntry h)) (.wr (.setFb (.iteFst h.lookEntry h)))

/-! ### Recorder -/

theorem Chip.Inv.setRec {i : Nat} {r : RecSet} (h : s.Inv) : (setRec s i r).Inv := h.frame

theorem Chip.Inv.setFlag {i e : Nat} (h : s.Inv) : (s.setFlag i e).Inv := .ite h.wrBit.raise h.wrBit

theorem Chip.Inv.setHalf {i h x : Nat} (hi : s.Inv) : (setHalf s i h x).Inv := hi.wrF

theorem Chip.Inv.writePos {i : Nat} {w : Word × Word} (h : s.Inv) : (writePos s i w).Inv := h.wr.wr

theorem Chip.Inv.pushBuf {b : BufRec} (h : s.Inv) : (pushBuf s b).Inv := h.frame

theorem Chip.Inv.putRegion {i : Nat} {bs : List Byte} (h : s.Inv) : (putRegion s i bs).Inv :=
  .led (.bump (.ite h.frame.pushBuf.setRec.wr h.frame.pushBuf.setRec))

theorem Chip.Inv.syncPos {i : Nat} (h : s.Inv) : (syncPos s i).Inv := .ite h.writePos h.pushBuf

theorem Chip.Inv.landRec {b : BufRec} (h : s.Inv) : (landRec s b).Inv :=
  .writePos (.ite h (.led (.bump (.ite h.memWrite h.memWrite.memWrite))))

theorem Chip.Inv.drainRecs {now t : Nat} {l : List BufRec} (h : s.Inv) : (drainRecs now t s l).Inv := by
  induction l generalizing s t with
  | nil => exact h.frame
  | cons b l ih => exact .ite (ih h.landRec) h.frame

theorem Chip.Inv.drainBuffer (h : s.Inv) : (drainBuffer s).Inv := .ite h h.drainRecs

theorem Chip.Inv.drainAll (h : s.Inv) : (drainAll s).Inv := (h.foldl fun _ _ hx => hx.landRec).frame

theorem Chip.Inv.putStream {i : Nat} {bs : List Byte} (h : s.Inv) : (putStream s i bs).Inv := by
  unfold Machine.putStream
  extract_lets r base m
  have hm : Memory.wf m = true :=
    List.foldlRecOn (motive := fun m => Memory.wf m = true) _ _ h.host fun _ hm _ _ => Memory.wf_memSet _ _ hm
  exact .led (.led (.bump (.bump (.wrBit (.wr (.setRec { h with host := hm }))))))

theorem Chip.Inv.leadRegion {i tick phase : Nat} (h : s.Inv) : (leadRegion s i tick phase).Inv := by
  unfold Machine.leadRegion
  refine .ite ?_ ?_
  · exact (h.foldl fun _ _ hx => hx.putRegion).setRec.setFlag
  · exact (h.foldl fun _ _ hx => hx.putRegion).setRec

theorem Chip.Inv.leadStream {i tick phase : Nat} (h : s.Inv) : (leadStream s i tick phase).Inv := by
  unfold Machine.leadStream
  refine .ite ?_ ?_
  · exact (h.foldl fun _ _ hx => hx.putStream).setRec.setFlag
  · exact (h.foldl fun _ _ hx => hx.putStream).setRec

theorem Chip.Inv.shedRegion {i cause tick : Nat} (h : s.Inv) : (shedRegion s i cause tick).Inv :=
  .setFlag (.odoInc (.led (.led (.bump (.bump (.bump (.ite h h.setRec)))))))

theorem Chip.Inv.shedStream {i cause tick : Nat} (h : s.Inv) : (shedStream s i cause tick).Inv :=
  .setFlag (.odoInc (.led (.led (.bump (.bump (.bump (.ite h.setRec.wrBit h.setRec)))))))

theorem Chip.Inv.enterDone {i cause : Nat} (h : s.Inv) : (enterDone s i cause).Inv :=
  .ite h.setHalf.wrF.setFlag.wrF.setHalf.setRec.syncPos h.setHalf.wrF.setFlag

theorem Chip.Inv.recordRegion {i tick phase : Nat} {data : Bool} {bs : List Byte} (h : s.Inv) : (recordRegion s i tick phase data bs).Inv := by
  unfold Machine.recordRegion
  extract_lets _ s2 _ _ s3
  have hs2 : s2.Inv := h.leadRegion.putRegion
  have hs3 : s3.Inv := .ite hs2.setRec hs2
  exact .ite hs3.enterDone hs3

theorem Chip.Inv.owedRegion {i tick phase : Nat} {raw : Option Nat} {data : Bool} {bs : List Byte} (h : s.Inv) :
    (owedRegion s i tick phase raw data bs).Inv := by
  unfold Machine.owedRegion
  extract_lets _ _ s1
  have hs1 : s1.Inv := .ite h.enterDone h
  split
  · exact h.shedRegion
  · exact .ite hs1.recordRegion hs1.shedRegion

theorem Chip.Inv.owedStream {i tick phase : Nat} {raw : Option Nat} {bs : List Byte} (h : s.Inv) : (owedStream s i tick phase raw bs).Inv :=
  .ite h.shedStream (.ite h.shedStream h.leadStream.putStream)

theorem Chip.Inv.owed {i tick phase : Nat} {raw : Option Nat} {data : Bool} {bs : List Byte} (h : s.Inv) : (owed s i tick phase raw data bs).Inv := by
  unfold Machine.owed
  extract_lets _ s1
  have hs1 : s1.Inv := .ite h.owedRegion h
  exact .ite hs1 (.ite hs1.shedStream hs1.owedStream)

theorem Chip.Inv.shedChange {i idx : Nat} (h : s.Inv) : (shedChange s i idx).Inv :=
  h.frame.bumpBy.bumpBy.bumpBy.led.led.odoInc.setFlag

theorem Chip.Inv.changeWrite {t : Txn} {i : Nat} {w : TxnWrite} (h : s.Inv) : (changeWrite t i s w).Inv :=
  .ite h (.ite h.shedChange h.setRec.frame.owed)

theorem Chip.Inv.reduceWrite {t : Txn} {i : Nat} {w : TxnWrite} (h : s.Inv) : (reduceWrite t i s w).Inv := h.frame

theorem Chip.Inv.setRaw {t : Txn} {later i : Nat} (h : s.Inv) : (setRaw t later s i).Inv := .ite h.owed h

theorem Chip.Inv.setKept {t : Txn} {i : Nat} (h : s.Inv) : (setKept t s i).Inv := by
  unfold Machine.setKept
  extract_lets _ _ s1
  have hs1 : s1.Inv := .ite (h.foldl fun _ _ hx => hx.changeWrite) h
  exact .ite (.ite (hs1.foldl fun _ _ hx => hx.reduceWrite) hs1) h

theorem Chip.Inv.discardTxn {t : Txn} {i : Nat} (h : s.Inv) : (discardTxn t s i).Inv :=
  .ite h.setRec.bumpBy.bumpBy.led.led h

theorem Chip.Inv.captureRecord {i : Nat} {bs : List Byte} (h : s.Inv) : (captureRecord s i bs).Inv :=
  .ite h.owed h.bump.odoInc

theorem Chip.Inv.setTrg {u : Nat} {x : TrigUnit} (h : s.Inv) : (setTrg s u x).Inv := h.frame

theorem Chip.Inv.condWrite {w : TxnWrite} {u : Nat} (h : s.Inv) : (condWrite w s u).Inv :=
  .ite (.ite h.wrBit.setTrg h.wrBit) h

theorem Chip.Inv.condTxn {t : Txn} (h : s.Inv) : (condTxn s t).Inv :=
  (h.foldl fun _ _ hx => (hx.foldl fun _ _ hx1 => hx1.condWrite))

theorem Chip.Inv.condEvent {n : Nat} (h : s.Inv) : (condEvent s n).Inv := .foldl h fun _ _ hx => .ite hx.wrBit hx

theorem Chip.Inv.putTrig {i unit tick phase : Nat} (h : s.Inv) : (putTrig s i unit tick phase).Inv := by
  unfold Machine.putTrig
  split
  · exact h.shedRegion
  · exact h.wr.leadRegion.putRegion

theorem Chip.Inv.fireRegion {i unit tick phase : Nat} (h : s.Inv) : (fireRegion s i unit tick phase).1.Inv := by
  unfold Machine.fireRegion
  extract_lets _ _ _ _ _ s5
  have hs5 : s5.Inv := .setHalf (.setRec (.putTrig (.ite h.wr h.wr.wrBit)))
  exact .iteFst h (.iteFst h.putTrig (.iteFst h (.ite hs5.enterDone hs5)))

theorem Chip.Inv.fireStream {i unit tick phase pre : Nat} (h : s.Inv) : (fireStream s i unit tick phase pre).1.Inv :=
  .iteFst h.owedStream h

theorem Chip.Inv.fireSet {i unit tick phase : Nat} (h : s.Inv) : (fireSet s i unit tick phase).1.Inv :=
  .iteFst h.bump.fireRegion.fireStream.bump h.bump.fireRegion.fireStream.bump.wr.setFlag

theorem Chip.Inv.fireUnit {u tick phase : Nat} (h : s.Inv) : (fireUnit s u tick phase).Inv := by
  unfold Machine.fireUnit
  refine .ite h (.foldl (.setTrg (.wrBit (.ite ?_ (.bump ?_)))) fun _ _ hx => .ite hx.wrBit hx) <;>
    exact .foldlFst h.bump.wr.wr.raise fun _ _ hx => hx.fireSet

theorem Chip.Inv.fireUnits {tick phase : Nat} (h : s.Inv) : (fireUnits s tick phase).Inv :=
  .foldl (.foldl h fun _ _ hx => .ite hx.fireUnit hx) fun _ _ hx => hx.setTrg

theorem Chip.Inv.recKept {n : Note} (h : s.Inv) : (recKept s n).Inv := by
  unfold Machine.recKept
  split
  · exact .ite (h.foldl fun _ _ hx => hx.setKept) h
  · exact .ite h.captureRecord h
  · exact h

theorem Chip.Inv.recOne {n : Note} {later : Nat} (h : s.Inv) : (recOne s n later).Inv := by
  unfold Machine.recOne
  split
  · refine .ite ?_ ?_
    · exact (h.recKept.foldl fun _ _ hx => hx.setRaw).condTxn
    · exact (h.foldl fun _ _ hx => hx.discardTxn)
  · exact h.recKept
  · exact .ite h.condEvent h

theorem Chip.Inv.takeNotes {later : Nat} {l : List Note} (h : s.Inv) : (takeNotes later s l).Inv := by
  induction l generalizing s later with
  | nil => exact h
  | cons n l ih => exact ih (.ite h.recOne.fireUnits h.recOne)

theorem Chip.Inv.recNotes {l : List Note} (h : s.Inv) : (recNotes s l).Inv := h.takeNotes

theorem Chip.Inv.startFill {i h : Nat} (hi : s.Inv) : (startFill s i h).Inv := hi.wrF.setHalf.setRec.syncPos

theorem Chip.Inv.recRefuse {code off : Nat} (h : s.Inv) : (recRefuse s code off).Inv := h.wr

theorem Chip.Inv.setRefuse {i code : Nat} (h : s.Inv) : (setRefuse s i code).Inv := h.wrF.recRefuse

theorem Chip.Inv.armSet {i : Nat} (h : s.Inv) : (armSet s i).Inv := by
  unfold Machine.armSet
  refine .ite h.setRefuse (.ite h (.ite h.setRefuse (.ite h.setRefuse ?_)))
  extract_lets t p s1 _ s2 arm g lead s3 _ s4
  have hs2 : s2.Inv := h.wrBit.startFill.setRec
  have hs4 : s4.Inv := (hs2.foldl fun _ _ hx => hx.putRegion).setRec
  split
  · exact (hs2.foldl fun _ _ hx => hx.shedRegion).setRec
  · exact .ite hs4.setFlag hs4

theorem Chip.Inv.releaseSet {i : Nat} (h : s.Inv) : (releaseSet s i).Inv :=
  .ite h (.ite (.ite h.startFill h) (.ite (.ite h.startFill h.setHalf) (.ite h.setHalf h)))

theorem Chip.Inv.stopSet {i : Nat} (h : s.Inv) : (stopSet s i).Inv := .setHalf (.setHalf (.ite h.wrF h))

theorem Chip.Inv.softTrigger {i : Nat} (h : s.Inv) : (softTrigger s i).Inv := h.fireSet

theorem Chip.Inv.armUnit {u : Nat} (h : s.Inv) : (armUnit s u).Inv := h.wrBit.wrBit.setTrg

theorem Chip.Inv.disarmUnit {u : Nat} (h : s.Inv) : (disarmUnit s u).Inv := h.wrBit.setTrg

theorem Chip.Inv.rearmUnit {u : Nat} (h : s.Inv) : (rearmUnit s u).Inv := by
  unfold Machine.rearmUnit
  split
  · exact h
  · exact .ite h.wrBit.wrBit.setTrg h

theorem Chip.Inv.syncCeil (h : s.Inv) : (syncCeil s).Inv := h.wr.wr

theorem Chip.Inv.startSet {i : Nat} (h : s.Inv) : (startSet s i).Inv := .ite h.frame.setRec h.frame.setRec.syncPos

theorem Chip.Inv.recRunning (h : s.Inv) : (recRunning s).Inv := h.wrF

theorem Chip.Inv.strRunning {i : Nat} (h : s.Inv) : (strRunning s i).Inv := h.wr

theorem Chip.Inv.setEnable {i : Nat} {on : Bool} (h : s.Inv) : (setEnable s i on).Inv := by
  unfold Machine.setEnable
  refine .ite h ?_
  refine .ite h.advanceFill.wrBit.wr.syncCeil ?_
  extract_lets _ s1 s2
  have hs1 : s1.Inv := h.advanceFill.wrBit.startSet
  have hs2 : s2.Inv := .syncCeil (.ite hs1.strRunning hs1)
  exact .ite h.recRefuse (.ite hs2.armSet hs2)

theorem Chip.Inv.writeAcc {i win : Nat} {part : Bool} {sid : Nat} (h : s.Inv) : (writeAcc i win part s sid).Inv :=
  .ite h h.frame.owed

theorem Chip.Inv.writeShare {i : Nat} (h : s.Inv) : (writeShare s i).Inv := by
  unfold Machine.writeShare
  split
  · exact h
  · exact (h.foldl fun _ _ hx => hx.writeAcc).setRec

theorem Chip.Inv.windowEnd {i : Nat} (h : s.Inv) : (windowEnd s i).Inv := .ite h h.setRec.writeShare

theorem Chip.Inv.redTick (h : s.Inv) : (redTick s).Inv := .ite (h.foldl fun _ _ hx => hx.writeShare) h

theorem Chip.Inv.signalTimes {v n : Nat} (h : s.Inv) : (signalTimes s v n).Inv := by
  induction n generalizing s with
  | zero => exact h
  | succ n ih => exact ih h.signal

theorem Chip.Inv.streamWriteback {i : Nat} (h : s.Inv) : (streamWriteback s i).Inv :=
  .ite h h.putHost.signalTimes.setRec

theorem Chip.Inv.recBoundary (h : s.Inv) : (recBoundary s).Inv := by
  unfold Machine.recBoundary
  exact .foldl (.foldl (h.foldl fun _ _ hx => hx.streamWriteback).frame.frame fun _ _ hx => .ite hx.wrBit hx) fun _ _ hx => hx.setTrg

theorem Chip.Inv.recStage {stage : Nat} (h : s.Inv) : (recStage s stage).Inv := by
  unfold Machine.recStage
  refine .ite ?_ ?_
  · exact .foldl h.wrBit fun _ _ hx => .ite hx.wrF hx
  · exact .ite (.foldl h.wrBit.drainAll fun _ _ hx => .ite hx.enterDone hx) h.wrBit

theorem Chip.Inv.recUnstage {stage : Nat} (h : s.Inv) : (recUnstage s stage).Inv :=
  .foldl h.wrBit fun _ _ hx => .ite hx.setRec.wrF hx.setRec

theorem Chip.Inv.rollBack {i : Nat} (h : s.Inv) : (rollBack s i).Inv := .ite h h.bumpBy.led.setRec.writePos

theorem Chip.Inv.recReset (h : s.Inv) : (recReset s).Inv := by
  unfold Machine.recReset
  extract_lets s1 s2 _ s3 s4 _ _ _
  have hs1 : s1.Inv := h.drainBuffer.foldl fun _ _ hx => hx.streamWriteback
  have hs2 : s2.Inv := hs1.foldl fun _ _ hx => hx.rollBack
  have hs4 : s4.Inv := by
    refine .foldl hs2.frame fun _ _ hx => .ite (.enterDone ?_) hx
    split
    · exact hx.shedRegion
    · exact hx.leadRegion.putRegion
  exact hs4.drainAll.wrBit.frame

theorem Chip.Inv.armAuto (h : s.Inv) : (armAuto s).Inv := .foldl h fun _ _ hx => .ite hx.armUnit hx

theorem Chip.Inv.trgConfig {u : Nat} (h : s.Inv) : (trgConfig s u).Inv := h.wrBit

theorem Chip.Inv.recResume (h : s.Inv) : (recResume s).Inv := by
  unfold Machine.recResume
  exact .syncCeil (.foldl (.armAuto (.foldl h.recRunning fun _ _ hx => .ite (.ite hx.setRec hx) hx.setRec)) fun _ _ hx => .ite hx.strRunning hx)

/-! ### Survey -/

theorem Chip.Inv.sendEnum (h : s.Inv) : (sendEnum s).Inv := .ite h.frame.sendSurvey h

theorem Chip.Inv.admitMail {d : Nat} (h : s.Inv) : (admitMail s d).Inv :=
  h.setNodeSt.setNodeState.wrBit.wrF.led.syncCred

theorem Chip.Inv.forgetNode {d : Nat} (h : s.Inv) : (forgetNode s d).Inv := h.setNodeSt

theorem Chip.Inv.enumNode {a b : List Byte} {d : Nat} (h : s.Inv) : (enumNode a b s d).Inv := by
  unfold Machine.enumNode
  refine .ite ?_ (.ite h h.applyCauses.setNodeState.forgetNode)
  extract_lets _ _ _ s1
  have hs1 : s1.Inv := .ite h.setNodeSt h.setNodeSt.ewnFlag2
  exact .ite hs1 (.ite hs1.admitMail hs1.setNodeState)

theorem Chip.Inv.enumReturn {a b : List Byte} {own : OwnPorts} (h : s.Inv) : (enumReturn s a b own).Inv :=
  .ite h (h.noteWraps.foldl fun _ _ hx => hx.enumNode).frame

theorem Chip.Inv.takeDelays {a b : List Byte} {rtA depA depB d : Nat} (h : s.Inv) : (takeDelays a b rtA depA depB s d).Inv :=
  h.setNodeSt

theorem Chip.Inv.takeRoundTrips {rtA rtB : Nat} (h : s.Inv) : (takeRoundTrips s rtA rtB).Inv := h.frame.wr.wr.wrBit

theorem Chip.Inv.checkSymmetry {a b : List Byte} (h : s.Inv) : (checkSymmetry s a b).Inv := .ite h.wrBit.ewnFlag2 h

theorem Chip.Inv.takeLock {a b : List Byte} {okA okB : Bool} {d : Nat} (h : s.Inv) : (takeLock a b okA okB s d).Inv :=
  .ite h.wrBit h

theorem Chip.Inv.takeMargin (h : s.Inv) : (takeMargin s).Inv := by
  unfold Machine.takeMargin
  split
  · exact h.wr.wrBit
  · exact h

theorem Chip.Inv.delayDepart {d : Nat} (h : s.Inv) : (delayDepart s d).Inv := .ite h.applyCauses h

theorem Chip.Inv.delayReturn {a b : List Byte} {own : OwnPorts} {depA depB rtA rtB : Nat} (h : s.Inv) :
    (delayReturn s a b own depA depB rtA rtB).Inv := by
  unfold Machine.delayReturn
  refine .ite h ?_
  extract_lets _ _ _ s2 _ _
  have hs2 : s2.Inv := (h.noteWraps.takeRoundTrips.foldl fun _ _ hx => hx.takeLock)
  exact .foldl (.takeMargin (.ite (hs2.foldl fun _ _ hx => hx.takeDelays).checkSymmetry hs2)) fun _ _ hx => hx.delayDepart

/-! ### Carts -/

theorem Chip.Inv.moveCart {c : Cart} {pl : CartPlace} (h : s.Inv) : (moveCart s c pl).Inv := h.frame

theorem Chip.Inv.makeCart {kind hitch level arg src : Nat} {pl : CartPlace} (h : s.Inv) : (makeCart s kind hitch level arg src pl).Inv :=
  .ite h.frame.led.flag h.frame.led

theorem Chip.Inv.dropCart {c : Cart} {exit : Nat} (h : s.Inv) : (dropCart s c exit).Inv := h.frame.led

theorem Chip.Inv.fillSlot {p : Nat} (h : s.Inv) : (fillSlot s p).Inv := by
  unfold Machine.fillSlot
  refine .ite ?_ h
  split
  · exact h.moveCart
  · exact h

theorem Chip.Inv.recallGroup {g : Nat} (h : s.Inv) : (recallGroup s g).Inv := by
  unfold Machine.recallGroup
  extract_lets
  split
  · exact .ite h.moveCart.moveCart h
  · exact h

theorem Chip.Inv.fillAndRecall (h : s.Inv) : (fillAndRecall s).Inv :=
  (h.foldl fun _ _ hx => hx.fillSlot).recallGroup.recallGroup

theorem Chip.Inv.portErr {p code : Nat} (h : s.Inv) : (portErr s p code).Inv := h.wrF.bump.flag

theorem Chip.Inv.setPend {i n : Nat} (h : s.Inv) : (setPend s i n).Inv := h.frame

theorem Chip.Inv.eventCart {i count : Nat} (h : s.Inv) : (eventCart s i count).Inv := h.makeCart.frame

theorem Chip.Inv.joinPending {i : Nat} (h : s.Inv) : (joinPending s i).Inv := .ite h.bump.wr.flag h.setPend

theorem Chip.Inv.raiseOne {acc : Chip × Nat} {i : Nat} (h : acc.1.Inv) : (raiseOne acc i).1.Inv := by
  unfold Machine.raiseOne
  refine .iteFst h.bump ?_
  split
  · exact h.frame
  · exact .iteFst h.eventCart h.joinPending

theorem Chip.Inv.servePending {acc : Chip × Nat} {i : Nat} (h : acc.1.Inv) : (servePending acc i).1.Inv :=
  .iteFst h (.iteFst h.setPend.eventCart h.setPend.eventCart)

theorem Chip.Inv.eventsStep {evs : List Nat} (h : s.Inv) : (eventsStep s evs).Inv := by
  unfold Machine.eventsStep
  exact .foldlFst (.foldlFst h fun _ _ hx => hx.servePending.servePending) fun _ _ hx => hx.raiseOne

theorem Chip.Inv.setTimer {h : Nat} {t : StepTimer} (hi : s.Inv) : (setTimer s h t).Inv := hi.frame.touchWords

theorem Chip.Inv.timerCart {acc : Chip × Nat} {h : Nat} (hi : acc.1.Inv) : (timerCart acc h).1.Inv :=
  .iteFst hi.setTimer (.iteFst hi.setTimer.makeCart hi.setTimer)

theorem Chip.Inv.waitingTimers {n : Nat} (h : s.Inv) : (waitingTimers s n).Inv := .foldlFst h fun _ _ hx => hx.timerCart

theorem Chip.Inv.fireTimers {n : Nat} (h : s.Inv) : (fireTimers s n).Inv := .foldlFst h fun _ _ hx => hx.timerCart

theorem Chip.Inv.postCart {p : Nat} {ctl arg dly : Word} (h : s.Inv) : (postCart s p ctl arg dly).Inv := h.makeCart.wr

theorem Chip.Inv.stalledPosts (h : s.Inv) : (stalledPosts s).Inv := by
  unfold Machine.stalledPosts
  refine .foldl h fun _ _ hx => ?_
  split
  · exact .ite hx.frame.postCart hx
  · exact hx

theorem Chip.Inv.stopCore {p : Nat} (h : s.Inv) : (stopCore s p).Inv := h.wrF.frame

theorem Chip.Inv.takeOp {p : Nat} (h : s.Inv) : (takeOp s p).Inv := by
  unfold Machine.takeOp
  extract_lets empty
  have hempty : empty.Inv := h.wr.returnData
  refine .ite hempty.portErr ?_
  split
  · exact hempty
  · exact h.moveCart.wr.wr.wr.wr.returnData

theorem Chip.Inv.doneOp {p : Nat} {v : Word} (h : s.Inv) : (doneOp s p v).Inv := by
  unfold Machine.doneOp
  split
  · exact .ite (.ite h.dropCart.stopCore h.dropCart) h.portErr
  · exact h.portErr

theorem Chip.Inv.cancelOp {p : Nat} {v : Word} (h : s.Inv) : (cancelOp s p v).Inv := by
  unfold Machine.cancelOp
  split
  · exact h.wr
  · split
    · exact h.wr
    · exact h.dropCart.wr

theorem Chip.Inv.stepOp {p : Nat} {v : Word} (h : s.Inv) : (stepOp s p v).Inv := h.setTimer

theorem Chip.Inv.postOp {p : Nat} {v : Word} (h : s.Inv) : (postOp s p v).Inv := .ite h.wr (.ite h.wr h.frame)

theorem Chip.Inv.holdStall {p : Nat} {x : Stalled} (h : s.Inv) : (holdStall s p x).Inv := h.frame

theorem Chip.Inv.commitServe (h : s.Inv) : (commitServe s).Inv := by
  unfold Machine.commitServe
  split
  · exact h
  · split
    · exact h.readBytes.writeBytes.frame
    · exact h

theorem Chip.Inv.commitOp {p : Nat} {v : Word} (h : s.Inv) : (commitOp s p v).Inv :=
  .ite h.portErr (.ite h.readBytes.portErr h.readBytes.frame.wr.commitServe)

theorem Chip.Inv.runOp {o : PortOp} (h : s.Inv) : (runOp s o).Inv := by
  unfold Machine.runOp
  split
  · exact h.commitOp
  · exact h.doneOp
  · exact h.takeOp
  · exact h.cancelOp
  · exact h.stepOp
  · exact h.postOp
  · exact h

theorem Chip.Inv.deferredQueued (h : s.Inv) : (deferredQueued s).Inv := h.frame

theorem Chip.Inv.cycleEnd {evs : List Nat} (h : s.Inv) : (cycleEnd s evs).Inv := h.stalledPosts.eventsStep.fillAndRecall

theorem Chip.Inv.cycleTimers {zero : Bool} (h : s.Inv) : (cycleTimers s zero).Inv :=
  .ite h.fireTimers.deferredQueued h.waitingTimers

theorem Chip.Inv.runCycle {ops : List PortOp} {evs : List Nat} {zero : Bool} (h : s.Inv) : (runCycle s ops evs zero).Inv :=
  ((h.foldl fun _ _ hx => hx.runOp).cycleTimers.foldl fun _ _ hx => hx.runOp).cycleEnd

theorem Chip.Inv.nextCycle (h : s.Inv) : (nextCycle s).Inv := h.frame

theorem Chip.Inv.dspCycleOf {evs : List Nat} {zero : Bool} (h : s.Inv) : (dspCycleOf s evs zero).Inv :=
  .ite h.nextCycle.runCycle (.ite h.bumpBy h)

theorem Chip.Inv.zeroCycle {evs : List Nat} (h : s.Inv) : (zeroCycle s evs).Inv := h.frame.dspCycleOf

theorem Chip.Inv.dspCycle {evs : List Nat} (h : s.Inv) : (dspCycle s evs).Inv := .ite h.zeroCycle h.dspCycleOf

theorem Chip.Inv.portEnd {more : Bool} (h : s.Inv) : (portEnd more s).Inv := .ite h.frame h.dspCycle

theorem Chip.Inv.arriveRaises {evs : List Nat} (h : s.Inv) : (arriveRaises s evs).Inv := .ite h.frame h.dspCycle

theorem Chip.Inv.portOp {p r : Nat} {v : Word} {more : Bool} (h : s.Inv) : (portOp s p r v more).Inv := h.frame.portEnd

theorem Chip.Inv.postCtl {p : Nat} {v : Word} {more : Bool} (h : s.Inv) : (postCtl s p v more).Inv := .ite h h.portOp

theorem Chip.Inv.takeRead {p : Nat} {more : Bool} (h : s.Inv) : (takeRead s p more).Inv := .ite h.wr.returnData h.portOp

theorem Chip.Inv.doneWrite {p : Nat} {v : Word} {more : Bool} (h : s.Inv) : (doneWrite s p v more).Inv :=
  .ite h h.portOp

theorem Chip.Inv.cancelWrite {p : Nat} {v : Word} {more : Bool} (h : s.Inv) : (cancelWrite s p v more).Inv :=
  .ite h h.portOp

theorem Chip.Inv.stepCtl {p : Nat} {v : Word} {more : Bool} (h : s.Inv) : (stepCtl s p v more).Inv := .ite h h.portOp

theorem Chip.Inv.jcommit {p : Nat} {v : Word} {more : Bool} (h : s.Inv) : (jcommit s p v more).Inv :=
  .ite h (.ite h.holdStall h.portOp)

theorem Chip.Inv.evRaise {p : Nat} {v : Word} {more : Bool} (h : s.Inv) : (evRaise s p v more).Inv :=
  .ite h.frame.raise h.portErr.portEnd

theorem Chip.Inv.phaseZero (h : s.Inv) : (phaseZero s).Inv := .ite h.zeroCycle h

theorem Chip.Inv.stepFire (h : s.Inv) : (stepFire s).Inv := h.phaseZero

theorem Chip.Inv.deferredDue (h : s.Inv) : (deferredDue s).Inv := h.phaseZero

theorem Chip.Inv.resumeStalls {p : Nat} {l : List Stalled} (h : s.Inv) : (resumeStalls s p l).Inv := by
  induction l generalizing s with
  | nil => exact h
  | cons x l ih =>
    unfold Machine.resumeStalls
    refine .ite (h.foldl fun _ _ hx => hx.holdStall) ?_
    cases x with
    | store a bs => exact ih h.writeBytes
    | commit v => exact ih h.jcommit

theorem Chip.Inv.jcommitEnd {p : Nat} (h : s.Inv) : (jcommitEnd s p).Inv := by
  unfold Machine.jcommitEnd
  split
  · exact h.writeBytes.wrBit.frame.commitServe.resumeStalls
  · exact h

theorem Chip.Inv.readPage {h : Nat} (hi : s.Inv) : (readPage s h).1.Inv := hi.readBytes

theorem Chip.Inv.wdKick {c : Nat} (h : s.Inv) : (wdKick s c).Inv := .ite h.frame h

theorem Chip.Inv.wdExpiry {c : Nat} (h : s.Inv) : (wdExpiry s c).Inv := by
  unfold Machine.wdExpiry
  extract_lets
  split
  · exact h
  · exact .ite h.frame.fault h

theorem Chip.Inv.coreStopTimeout {c : Nat} (h : s.Inv) : (coreStopTimeout s c).Inv := by
  unfold Machine.coreStopTimeout
  split
  · exact h
  · exact .ite h.stopCore h

theorem Chip.Inv.dspSag (h : s.Inv) : (dspSag s).Inv := .ite h.frame.wrBit.dspCycle h.frame

theorem Chip.Inv.unstopCore {c : Nat} (h : s.Inv) : (unstopCore s c).Inv := by
  unfold Machine.unstopCore
  split
  · exact h
  · exact h.wrF.frame

theorem Chip.Inv.dspUnsag (h : s.Inv) : (dspUnsag s).Inv := (h.frame.foldl fun _ _ hx => hx.unstopCore).wrBit.dspCycle

theorem Chip.Inv.dspReset (h : s.Inv) : (dspReset s).Inv := h.frame.led.wr.wr

theorem Chip.Inv.resumeCart {h : Nat} (hi : s.Inv) : (resumeCart s h).Inv := .ite hi.readPage.makeCart hi

theorem Chip.Inv.releaseCores (h : s.Inv) : (releaseCores s).Inv := (h.foldl fun _ _ hx => hx.wrF.frame)

theorem Chip.Inv.dspResume (h : s.Inv) : (dspResume s).Inv := by
  unfold Machine.dspResume
  exact (h.nextCycle.wrF.foldl fun _ _ hx => hx.resumeCart).wrBit.frame.releaseCores.wr.bump.runCycle

/-! ### MemEcc -/

theorem Chip.Inv.scrubWord {word : Nat} {flips : List Nat} (h : s.Inv) : (scrubWord s word flips).Inv :=
  .ite h.upset.readSpan.frame h.upset.readSpan

theorem Chip.Inv.sramScrub {a : Nat} {flips : List Nat} (h : s.Inv) : (sramScrub s a flips).Inv :=
  .ite h (.ite h.scrubWord.frame.wr h.scrubWord.frame)

theorem Chip.Inv.scrubWriteback {word : Nat} (h : s.Inv) : (scrubWriteback s word).Inv := by
  unfold Machine.scrubWriteback
  split
  · exact h.touchWords.rewriteWord
  · exact h

theorem Chip.Inv.dramScrub {flips : List Nat} (h : s.Inv) : (dramScrub s flips).Inv := by
  unfold Machine.dramScrub
  refine .ite h ?_
  extract_lets _ _ _ _ _ _ s1
  have hs1 : s1.Inv := .foldl (.ite h.frame h) fun _ _ hx => hx.scrubWord
  exact .ite hs1.wr hs1.wr.wr

theorem Chip.Inv.setRow {r : Nat} (h : s.Inv) : (setRow s r).Inv := .ite h h.wrF.memFlag

theorem Chip.Inv.dramTemp {ts : List Int} (h : s.Inv) : (dramTemp s ts).Inv := by
  unfold Machine.dramTemp
  split
  · exact h
  · refine .ite h ?_
    extract_lets t _ _ s1 row cools since _ s2 _ _ s3
    have hs2 : s2.Inv := h.wrF.frame.frame
    have hs3 : s3.Inv := by
      refine .ite hs2.setRow.frame ?_
      cases since with
      | some x => exact .ite hs2.setRow.frame hs2
      | none => exact hs2
    exact .ite hs3.wrBit.memFlag hs3

theorem Chip.Inv.fillGo {v : Word} (h : s.Inv) : (fillGo s v).Inv := .ite h (.ite h.wrF h.wr.wr.wrBit.frame)

theorem Chip.Inv.markFilled {a n : Nat} (h : s.Inv) : (markFilled s a n).Inv := .foldl h fun _ _ hx => .ite hx.wrBit hx

theorem Chip.Inv.fillEnd (h : s.Inv) : (fillEnd s).Inv := by
  unfold Machine.fillEnd
  split
  · exact h
  · exact h.fillWords.frame.wrBit.wrF.memFlag.markFilled

theorem Chip.Inv.fillAbandon (h : s.Inv) : (fillAbandon s).Inv := by
  unfold Machine.fillAbandon
  extract_lets s1 _ _
  have hs1 : s1.Inv := h.advanceFill
  split
  · exact hs1
  · exact hs1.wrBit.wrF.frame

theorem Chip.Inv.zeroFill (h : s.Inv) : (zeroFill s).Inv := by
  unfold Machine.zeroFill
  exact ((h.foldl fun _ _ hx => hx.fillMem).fillMem.foldl fun _ _ hx => hx.fillMem).clearFlips.clearFlips

theorem Chip.Inv.setSelfRef {x : Bool} (h : s.Inv) : (setSelfRef s x).Inv := h.frame

/-! ### OdoSnap -/

theorem Chip.Inv.odoFlag {e : Nat} (h : s.Inv) : (s.odoFlag e).Inv := h.flag

theorem Chip.Inv.askSnap {cause : Nat} (h : s.Inv) : (askSnap s cause).Inv := h.wrBit.frame

theorem Chip.Inv.hfracAdvance (h : s.Inv) : (hfracAdvance s).Inv := .ite h (.ite h.wr (.ite h.wr.wr.askSnap h.wr.wr))

theorem Chip.Inv.histInc {bin : Nat} (h : s.Inv) : (histInc s bin).Inv := .ite h.led.led.odoFlag h.led.frame

theorem Chip.Inv.histRead (h : s.Inv) : (histRead s).Inv := by
  unfold Machine.histRead
  extract_lets _ _ s2 _ _
  have hs2 : s2.Inv := by
    unfold s2
    split
    · exact .ite h.histInc.histInc h.histInc
    · exact h.histInc
  exact hs2.histInc.histInc

theorem Chip.Inv.histSample (h : s.Inv) : (histSample s).Inv := .ite h.histRead h

theorem Chip.Inv.extremeCheck {tjc : Int} {vcore vaon : Nat} (h : s.Inv) : (extremeCheck s tjc vcore vaon).Inv := by
  unfold Machine.extremeCheck
  extract_lets _ _ _ s3
  have hs3 : s3.Inv := by
    unfold s3
    split
    · exact h.wr.wr.wr.extreme.extreme.extreme.extreme
    · exact h.wr.wr.wr.extreme.extreme
  exact hs3.extreme.extreme.extreme.extreme.extreme.extreme

theorem Chip.Inv.odoEdge (h : s.Inv) : (odoEdge s).Inv := h.frame

theorem Chip.Inv.captureSnap {e : OdoSums} {cause left : Nat} (h : s.Inv) : (captureSnap s e cause left).Inv :=
  .ite h.putBytes.putBytes.frame.wrBit.wrBit.wrBit h.putBytes.putBytes.frame.wrBit.wrBit

theorem Chip.Inv.snapCapture (h : s.Inv) : (snapCapture s).Inv := .ite h.captureSnap h

theorem Chip.Inv.finalCapture {e : OdoSums} (h : s.Inv) : (finalCapture s e).Inv := .ite h.captureSnap h.frame

theorem Chip.Inv.sealBegin (h : s.Inv) : (sealBegin s).Inv := h.putBytes.putBytes.wrBit.frame

theorem Chip.Inv.snapWriteDone {good : Bool} (h : s.Inv) : (snapWriteDone s good).Inv := by
  unfold Machine.snapWriteDone
  split
  · exact h
  · extract_lets _ _ s0 _ _ _ _ _ s1
    have hs0 : s0.Inv := h.wrBit.wrBit.frame
    have hs1 : s1.Inv := .ite hs0.putBytes.frame.wr.wrF.led.odoFlag hs0.bump.odoFlag
    exact .ite hs1.sealBegin hs1

theorem Chip.Inv.mergeExtreme {b : List Byte} {k : Nat} (h : s.Inv) : (mergeExtreme b s k).Inv := by
  unfold Machine.mergeExtreme
  extract_lets
  split
  · exact .ite h h.frame
  · exact h.frame
  · exact h

theorem Chip.Inv.restoreLoss {h c : Nat} (hi : s.Inv) : (restoreLoss s h c).Inv := .ite hi hi.frame.led.odoFlag

theorem Chip.Inv.odoRestore (h : s.Inv) : (odoRestore s).Inv := by
  unfold Machine.odoRestore
  extract_lets _ s1
  have hs1 : s1.Inv := by
    unfold s1
    split
    · exact h.wr.wrBit.wrF
    · extract_lets _ _ _ _ _ _ _ x _ _ _ _ z1
      have hx : x.Inv := h.frame.restoreLoss
      have hz1 : z1.Inv := .wrF (.wrBit (.wrF (.wr (.wr (.wr (.wr (.ite hx (hx.foldl fun _ _ hx1 => hx1.mergeExtreme))))))))
      exact .ite hz1 hz1.odoInc
  exact hs1.wrBit.askSnap.odoEdge

theorem Chip.Inv.odoClr {h3 : Bool} {v : Word} (h : s.Inv) : (odoClr s h3 v).Inv :=
  .ite h.bump (.ite h.wrF (.ite h.wrF (.ite h.wrF (.ite h.wrF h.putBytes.frame))))

theorem Chip.Inv.clearApply (h : s.Inv) : (clearApply s).Inv := by
  unfold Machine.clearApply
  split
  · exact h
  · exact .ite h h.frame.led.wrF.wrBit.captureSnap.odoFlag

/-! ### SafeIsland -/

theorem Chip.Inv.safFlag {e : Nat} (h : s.Inv) : (s.safFlag e).Inv := h.flag

theorem Chip.Inv.setIsl {x : Island} (h : s.Inv) : (setIsl s x).Inv := h.frame

theorem Chip.Inv.setIslState {x : Nat} (h : s.Inv) : (setIslState s x).Inv := .ite h h.wrF.safFlag

theorem Chip.Inv.driveForce {lines : Nat} (h : s.Inv) : (driveForce s lines).Inv := h.wrF.setForceLines

theorem Chip.Inv.driveOut {n : Nat} {on : Bool} (h : s.Inv) : (driveOut s n on).Inv := .ite h h.wrBit.setIsl

theorem Chip.Inv.allSafe (h : s.Inv) : (allSafe s).Inv := (h.foldl fun _ _ hx => hx.driveOut).driveForce

theorem Chip.Inv.toSafe {code item : Nat} (h : s.Inv) : (toSafe s code item).Inv :=
  h.setIslState.wr.safFlag.setIsl.allSafe.fault

theorem Chip.Inv.syncPermits (h : s.Inv) : (syncPermits s).Inv := h.wr

theorem Chip.Inv.pairFall {p : Nat} (h : s.Inv) : (pairFall s p).Inv := .ite h h.setIsl

theorem Chip.Inv.markItem {code item : Nat} (h : s.Inv) : (markItem s code item).Inv :=
  .ite h.wrBit.pairFall.syncPermits h.wrBit

theorem Chip.Inv.toDegraded {code item : Nat} (h : s.Inv) : (toDegraded s code item).Inv := by
  unfold Machine.toDegraded
  exact .fault (.ite h.setIslState.wr.safFlag.markItem.setIsl.driveOut h.setIslState.wr.safFlag.markItem.setIsl)

theorem Chip.Inv.safeFault {code item : Nat} (h : s.Inv) : (safeFault s code item).Inv := .ite h.bump.wr.setIsl h.bump

theorem Chip.Inv.islFault {code item : Nat} (h : s.Inv) : (islFault s code item).Inv :=
  .ite h (.ite h.safeFault (.ite h.toDegraded h.toSafe))

theorem Chip.Inv.islReset (h : s.Inv) : (islReset s).Inv := .setForceLines (.setIsl { h with regs := h.regs.filter _ })

theorem Chip.Inv.syncVwarn (h : s.Inv) : (syncVwarn s).Inv := by
  unfold Machine.syncVwarn
  split
  · exact h.wrBit
  · exact h

theorem Chip.Inv.islRelease (h : s.Inv) : (islRelease s).Inv :=
  .ite (.ite h.setIslState.setIsl.syncVwarn.islFault h.setIslState.setIsl.syncVwarn) h

theorem Chip.Inv.syncMaint (h : s.Inv) : (syncMaint s).Inv := .ite h.wrBit h.wrBit.wrBit.safFlag

theorem Chip.Inv.demandLatched (h : s.Inv) : (demandLatched s).Inv :=
  ((h.foldl fun _ _ hx => hx.wrBit.wrBit).setIsl.foldl fun _ _ hx => hx.safFlag)

theorem Chip.Inv.takeProfile (h : s.Inv) : (takeProfile s).Inv := by
  unfold Machine.takeProfile
  split
  · exact h
  · refine .ite h ?_
    split
    · exact h.islFault
    · exact .ite h.islFault (.ite h.wrF.setIsl.islFault h.wrF.setIsl.demandLatched)

theorem Chip.Inv.sampleCfg {cfg : Nat} (h : s.Inv) : (sampleCfg s cfg).Inv := by
  unfold Machine.sampleCfg
  extract_lets _ _ _ s1 _
  have hs1 : s1.Inv := h.wrF.setIsl
  split
  · exact .ite hs1.wrF.setIsl.takeProfile.syncMaint hs1
  · extract_lets _ _ _ _ _ s3
    have hs3 : s3.Inv := hs1.wrF.setIsl.takeProfile.syncMaint
    exact .ite hs3.islFault hs3

theorem Chip.Inv.islAck (h : s.Inv) : (islAck s).Inv := h.setIsl

theorem Chip.Inv.sampleIn {si n : Nat} (h : s.Inv) : (sampleIn si s n).Inv := .ite h.setIsl.islAck h.setIsl

theorem Chip.Inv.samplePair {p : Nat} (h : s.Inv) : (samplePair s p).Inv := .ite h h.setIsl

theorem Chip.Inv.checkReadbacks {rb : Nat} (h : s.Inv) : (checkReadbacks rb s).Inv :=
  (h.foldl fun _ _ hx => hx.islFault)

theorem Chip.Inv.islSample {si rb cfg ces : Nat} (h : s.Inv) : (islSample s si rb cfg ces).Inv := by
  unfold Machine.islSample
  refine .ite h ?_
  extract_lets _ s2 _ _ _ _ _
  have hs2 : s2.Inv := (h.bumpBy.sampleCfg.foldl fun _ _ hx => hx.sampleIn)
  exact .ite hs2.setIsl (hs2.foldl fun _ _ hx => hx.samplePair).syncPermits.checkReadbacks.setIsl

theorem Chip.Inv.tpStart {k : Nat} (h : s.Inv) : (tpStart s k).Inv := .ite h.atPhase.setIsl h

theorem Chip.Inv.tpCheck {k si : Nat} (h : s.Inv) : (tpCheck s k si).Inv :=
  .ite h (h.atPhase.foldl fun _ _ hx => hx.islFault).syncPermits

theorem Chip.Inv.tpEnd {k : Nat} (h : s.Inv) : (tpEnd s k).Inv := .ite h h.atPhase.setIsl

theorem Chip.Inv.offStart {n : Nat} (h : s.Inv) : (offStart s n).Inv := .ite h.atPhase.setIsl h

theorem Chip.Inv.offCheck {n : Nat} {rb : Bool} (h : s.Inv) : (offCheck s n rb).Inv := by
  unfold Machine.offCheck
  extract_lets
  split
  · exact h
  · exact .ite h (.ite h.atPhase.islFault h.atPhase.setIsl)

theorem Chip.Inv.offEnd {n : Nat} (h : s.Inv) : (offEnd s n).Inv := by
  unfold Machine.offEnd
  extract_lets
  split
  · exact h
  · exact .ite h (.ite h.atPhase.setIsl.bump h.atPhase.setIsl)

theorem Chip.Inv.nodeTimeout {k : Nat} (h : s.Inv) : (nodeTimeout s k).Inv := .ite h.wrBit.wrBit.bump.safFlag h

theorem Chip.Inv.judgeFrame {p : List Byte} {k : Nat} (h : s.Inv) : (judgeFrame p s k).Inv :=
  .ite h.bump (.ite h.setIsl.nodeTimeout h.setIsl.wrBit)

theorem Chip.Inv.islLand (h : s.Inv) : (islLand s).Inv :=
  .ite h (h.foldl fun _ _ hx => (hx.foldl fun _ _ hx1 => hx1.judgeFrame))

theorem Chip.Inv.freshTimeout {k : Nat} (h : s.Inv) : (freshTimeout s k).Inv := by
  unfold Machine.freshTimeout
  split
  · exact .ite h.nodeTimeout h
  · exact h

theorem Chip.Inv.evalRule {ack : Bool} {acc : Chip × Bool} {r : Nat} (h : acc.1.Inv) : (evalRule ack acc r).1.Inv := by
  unfold Machine.evalRule
  extract_lets _ _ _ _ _ s1 _ s2
  have hs1 : s1.Inv := h.wrBit.wrBit
  have hs2 : s2.Inv := .ite hs1 hs1.setIsl
  exact .iteFst h (.ite hs2.safFlag hs2)

theorem Chip.Inv.ackDegraded (h : s.Inv) : (ackDegraded s).Inv := h.setIslState.wr.wr.setIsl.syncPermits

theorem Chip.Inv.evalRules {mis : Option Nat} (h : s.Inv) : (evalRules s mis).Inv := by
  unfold Machine.evalRules
  extract_lets _ _ s1 _ _ _ _ _ _
  have hs1 : s1.Inv := .ite h.atPhase.setIslState.demandLatched h.atPhase
  refine .ite h.atPhase ?_
  split
  · exact h.atPhase.islFault
  · refine .ite ?_ ?_
    · exact .safFlag (.setIsl (.foldlFst (.ite hs1.ackDegraded hs1) fun _ _ hx => hx.evalRule))
    · exact .setIsl (.foldlFst (.ite hs1.ackDegraded hs1) fun _ _ hx => hx.evalRule)

theorem Chip.Inv.islOutputs (h : s.Inv) : (islOutputs s).Inv := by
  unfold Machine.islOutputs
  refine .ite h.atPhase ?_
  refine .ite ?_ ?_
  · exact h.atPhase.allSafe.setIsl
  · exact (h.atPhase.foldl fun _ _ hx => hx.driveOut).setIsl.driveForce

theorem Chip.Inv.delayExpiry {r : Nat} (h : s.Inv) : (delayExpiry s r).Inv := .ite h.islOutputs h

theorem Chip.Inv.discExpiry {p : Nat} (h : s.Inv) : (discExpiry s p).Inv := by
  unfold Machine.discExpiry
  extract_lets _ _ s1
  have hs1 : s1.Inv := h.setIsl
  split
  · exact .ite hs1.islFault.syncPermits h
  · exact h

theorem Chip.Inv.degTime (h : s.Inv) : (degTime s).Inv := by
  unfold Machine.degTime
  split
  · exact .ite h.islFault h
  · exact h

theorem Chip.Inv.islPrepare (h : s.Inv) : (islPrepare s).Inv := .ite h.frame h.setIsl.frame

theorem Chip.Inv.selfTestDone {pass : Bool} (h : s.Inv) : (selfTestDone s pass).Inv := .ite h (.ite h.setIsl h.islFault)

theorem Chip.Inv.supplyRead {mv : Nat} (h : s.Inv) : (supplyRead s mv).Inv := .ite h.frame h.frame.syncVwarn

theorem Chip.Inv.vsafe {mv : Nat} (h : s.Inv) : (vsafe s mv).Inv :=
  .ite h.supplyRead (.ite h.supplyRead.islFault.islReset h.supplyRead.islFault)

theorem Chip.Inv.vwarn {mv : Nat} (h : s.Inv) : (vwarn s mv).Inv := h.vsafe

theorem Chip.Inv.safAck {v : Word} (h : s.Inv) : (safAck s v).Inv := .ite h.islAck h

/-! ### Claims -/

theorem Chip.Inv.clmFlag {e : Nat} (h : s.Inv) : (s.clmFlag e).Inv := h.flag

theorem Chip.Inv.setSvState {k x : Nat} (h : s.Inv) : (setSvState s k x).Inv := .ite h.wrF h.wrF.wrBit

theorem Chip.Inv.setSv {k : Nat} {v : Sv} (h : s.Inv) : (setSv s k v).Inv := h.frame

theorem Chip.Inv.gateInstant (h : s.Inv) : (gateInstant s).Inv := by
  unfold Machine.gateInstant
  extract_lets _ _ _ _ s2 s3 _ _ _ _ _ _
  have hs2 : s2.Inv := h.gateChange.logEvent
  have hs3 : s3.Inv := .ite hs2.led hs2
  exact .frame (.led (.ledSub (.ite h (.odoInc (.ite hs3.led hs3)))))

theorem Chip.Inv.gateDue (h : s.Inv) : (gateDue s).Inv := .ite h.gateInstant h

theorem Chip.Inv.decideHolder (h : s.Inv) : (decideHolder s).Inv := by
  unfold Machine.decideHolder
  extract_lets new s1
  have hs1 : s1.Inv := .ite h h.bump.clmFlag
  cases new <;> exact hs1.wr

theorem Chip.Inv.makeLive {k : Nat} (h : s.Inv) : (makeLive s k).Inv := h.setSvState.clmFlag

theorem Chip.Inv.claimLogic (h : s.Inv) : (claimLogic s).Inv := by
  unfold Machine.claimLogic
  extract_lets s1
  have hs1 : s1.Inv := h.gateDue.decideHolder
  exact .ite hs1 (.decideHolder (.foldl hs1 fun _ _ hx => .ite hx.makeLive hx))

theorem Chip.Inv.maintFollow {old new : Chip} (hnew : new.Inv) : (maintFollow old new).Inv := .ite hnew hnew.claimLogic

theorem Chip.Inv.heartbeat {k p : Nat} (h : s.Inv) : (heartbeat s k p).Inv := by
  unfold Machine.heartbeat
  extract_lets _ _ s1 _
  have hs1 : s1.Inv := h.wrBit.setSv
  exact .ite hs1 (.ite hs1.wrBit (.ite hs1 hs1.setSv.setSvState.claimLogic))

theorem Chip.Inv.pathDown {k p : Nat} (h : s.Inv) : (pathDown s k p).Inv := by
  unfold Machine.pathDown
  refine .ite h.wrBit.setSvState.claimLogic ?_
  refine .ite ?_ ?_
  · exact h.wrBit
  · exact .ite (.ite h.wrBit h.wrBit.wrBit.bump.clmFlag) h.wrBit.setSvState.bump.clmFlag.claimLogic

theorem Chip.Inv.pathTimeout {k p : Nat} (h : s.Inv) : (pathTimeout s k p).Inv := .ite h h.pathDown

theorem Chip.Inv.holdExpiry {k : Nat} (h : s.Inv) : (holdExpiry s k).Inv := .ite h.makeLive.claimLogic h

theorem Chip.Inv.lanHeartbeat {mac : Nat} {b : Bool} (h : s.Inv) : (lanHeartbeat s mac b).Inv := by
  unfold Machine.lanHeartbeat
  split
  · exact h
  · exact h.heartbeat

theorem Chip.Inv.h0Heartbeat (h : s.Inv) : (h0Heartbeat s).Inv := by
  unfold Machine.h0Heartbeat
  split
  · exact h
  · exact h.heartbeat

theorem Chip.Inv.svHalt (h : s.Inv) : (svHalt s).Inv := h.frame

theorem Chip.Inv.svRelease (h : s.Inv) : (svRelease s).Inv := h.frame.setSv

/-! ### ConsCheck -/

theorem Chip.Inv.setTimetable {c : Cst} (h : s.Inv) : (setTimetable s c).Inv :=
  .wrF (.wrF (.wr (.foldl h.frame fun _ _ hx => .ite hx hx.wrF)))

/-! ### Load -/

theorem Chip.Inv.takeImage {e : Nat × Word} (h : s.Inv) : (takeImage s e).Inv := h.wr

theorem Chip.Inv.clearImaged {p : Nat → Bool} (h : s.Inv) : (clearImaged p s).Inv := by
  refine { h with regs := h.regs.filterMap fun e he x hx => ?_ }
  dsimp only at hx
  split at hx
  · simp only [Option.ite_none_left_eq_some, Option.some.injEq] at hx
    obtain ⟨hw, rfl⟩ := hx
    exact ⟨rfl, hw⟩
  · cases hx; exact ⟨rfl, he⟩

theorem Chip.Inv.loadWords {p : Nat → Bool} {c : Cst} (h : s.Inv) : (loadWords p s c).Inv :=
  (h.clearImaged.foldl fun _ _ hx => hx.takeImage)

theorem Chip.Inv.queueEnable {lid : Nat} (h : s.Inv) : (queueEnable s lid).Inv := h.setRecWord.setShq.askStart

theorem Chip.Inv.touchMirror (h : s.Inv) : (touchMirror s).Inv := h.touchWords

theorem Chip.Inv.loadSlots {c : Cst} (h : s.Inv) : (loadSlots s c).Inv :=
  ((h.frame.touchMirror.foldl fun _ _ hx => hx.touchWords).foldl fun _ _ hx => hx.queueEnable)

theorem Chip.Inv.wrHash {base : Nat} {h : List Byte} (hi : s.Inv) : (wrHash s base h).Inv :=
  (hi.foldl fun _ _ hx => hx.wr)

theorem Chip.Inv.noteConsist {c : Cst} {b : Nat} (h : s.Inv) : (noteConsist s c b).Inv :=
  h.wr.wr.wr.wrBit.wrF.wr.wr.wrHash

theorem Chip.Inv.zeroLedgers (h : s.Inv) : (zeroLedgers s).Inv := (h.frame.foldl fun _ _ hx => hx.wr.wr).wr.wr.wr.wr

theorem Chip.Inv.raiseEpoch (h : s.Inv) : (raiseEpoch s).Inv := by
  unfold Machine.raiseEpoch
  split
  · exact h.putBytes.wr
  · exact h.putBytes.wr.wrBit.flag.fault

theorem Chip.Inv.loadProfiles {c : Cst} (h : s.Inv) : (loadProfiles s c).Inv := h.frame

theorem Chip.Inv.loadConsist (h : s.Inv) : (loadConsist s).Inv := by
  unfold Machine.loadConsist
  exact h.loadDecls.loadWords.setTimetable.loadSlots.noteConsist.zeroLedgers.raiseEpoch.wrBit.loadProfiles.armAuto

theorem Chip.Inv.swapSupervisors {before : Chip} (hs : s.Inv) : (swapSupervisors before s).Inv :=
  (hs.foldl fun _ _ hx => hx.wr.setSv).frame.claimLogic

theorem Chip.Inv.swapSets (h : s.Inv) : (swapSets s).Inv := (h.foldl fun _ _ hx => hx.wr.wr.wr.wr.wr.wr.setRec)

theorem Chip.Inv.swapPersist (h : s.Inv) : (swapPersist s).Inv :=
  h.loadDecls.loadWords.swapSupervisors.swapSets.frame.touchMirror.noteConsist

theorem Chip.Inv.restoreLost {c : Cst} {lid : Nat} (h : s.Inv) : (restoreLost c s lid).Inv :=
  h.frame.setRecWord.frame.touchWords.lostSlot

theorem Chip.Inv.readRecord {at0 n : Nat} {bad : Bool} (h : s.Inv) : (readRecord s at0 n bad).1.Inv :=
  .ite h.readSpan.noteRead h.readSpan

theorem Chip.Inv.restoreOne {journalBad : List Nat} {lid : Nat} (h : s.Inv) : (restoreOne journalBad s lid).Inv := by
  unfold Machine.restoreOne
  refine .ite (.ite h.frame h.queueEnable) ?_
  refine .ite ?_ ?_
  · exact .ite h.readRecord.lostSlot.frame h.readRecord.lostSlot.queueEnable
  · exact h.readRecord.restoreSlot

theorem Chip.Inv.recordRead {lid : Nat} {errs : List Nat} (h : s.Inv) : (recordRead s lid errs).Inv := .ite h h.frame

theorem Chip.Inv.restoreMirror {c : Cst} {mirrorBad journalBad : List Nat} {lid : Nat} (h : s.Inv) :
    (restoreMirror c mirrorBad journalBad s lid).Inv := by
  unfold Machine.restoreMirror
  extract_lets _ s1
  have hs1 : s1.Inv := h.readRecord.recordRead
  exact .ite h.readRecord.restoreLost (.ite hs1.restoreOne hs1)

theorem Chip.Inv.restoreTiles {c : Cst} {mirrorBad journalBad : List Nat} (h : s.Inv) : (restoreTiles s c mirrorBad journalBad).Inv :=
  ((h.frame.foldl fun _ _ hx => hx.touchWords).foldl fun _ _ hx => hx.restoreMirror)

theorem Chip.Inv.warmRegs (h : s.Inv) : (warmRegs s).Inv := by
  refine { h with regs := h.regs.filterMap fun e he x hx => ?_ }
  cases hrow : rowOf e.1 with
  | some r =>
    simp only [hrow, Option.ite_none_left_eq_some, Option.some.injEq] at hx
    obtain ⟨hw, rfl⟩ := hx
    exact ⟨rfl, hw⟩
  | none =>
    simp only [hrow, Option.ite_none_right_eq_some, Option.some.injEq] at hx
    obtain ⟨-, rfl⟩ := hx
    exact ⟨rfl, he⟩

theorem Chip.Inv.reloadCore {c : Cst} (h : s.Inv) : (reloadCore s c).Inv := h.loadWords.canStart

theorem Chip.Inv.startRecorder (h : s.Inv) : (startRecorder s).Inv := by
  unfold Machine.startRecorder
  refine .syncCeil (.foldl h.recRunning fun x i hx => ?_)
  extract_lets y z
  have hz : z.Inv := .ite hx.startSet.strRunning hx.startSet
  exact .ite hz.armSet hz

theorem Chip.Inv.startConverters (h : s.Inv) : (startConverters s).Inv := .foldl h fun _ _ hx => .ite hx.startPass hx

theorem Chip.Inv.startFeedback (h : s.Inv) : (startFeedback s).Inv := .foldl h fun _ _ hx => .ite hx.fbStart hx

/-! ### Boot -/

theorem Chip.Inv.coldState (h : s.Inv) : (coldState s).Inv :=
  ⟨rfl, ⟨Nat.two_pow_pos 48, Nat.succ_pos _⟩, Memory.wf_filter _ h.mem, h.host⟩

theorem Chip.Inv.coldReset (h : s.Inv) : (coldReset s).Inv := h.islFault.coldState

theorem Chip.Inv.loadFuse {a mask : Nat} (h : s.Inv) : (loadFuse s a mask).Inv := h.wr

theorem Chip.Inv.loadFuses (h : s.Inv) : (loadFuses s).Inv := by
  unfold Machine.loadFuses
  exact (h.loadFuse.loadFuse.loadFuse.wr.wr.foldl fun _ _ hx => hx.loadFuse).loadFuse.loadFuse.wrF.frame

theorem Chip.Inv.startBoot (h : s.Inv) : (startBoot s).Inv :=
  .setForceLines (.wrBit (.ite h.frame.loadFuses.askStart.askStart h.frame.loadFuses.askStart))

theorem Chip.Inv.porstRising {banks : BankLevels} (h : s.Inv) : (porstRising s banks).Inv := .ite h.frame.startBoot h.frame

theorem Chip.Inv.porstLow (h : s.Inv) : (porstLow s).Inv := h.frame.coldReset

theorem Chip.Inv.refclkFault (h : s.Inv) : (refclkFault s).Inv := .ite h.frame.coldReset h

theorem Chip.Inv.vddAonLow (h : s.Inv) : (vddAonLow s).Inv := h.frame.coldReset

theorem Chip.Inv.vddAonRecovered (h : s.Inv) : (vddAonRecovered s).Inv := .ite h.frame.startBoot h.frame

theorem Chip.Inv.holdEnd {tj : Int} (h : s.Inv) : (holdEnd s tj).Inv := by
  unfold Machine.holdEnd
  split
  · exact h
  · exact .ite h (.ite h.frame.startBoot h.frame)

theorem Chip.Inv.pllLocked (h : s.Inv) : (pllLocked s).Inv := by
  unfold Machine.pllLocked
  refine .ite h ?_
  extract_lets _ _ s1
  have hs1 : s1.Inv := h.setTime h.time.1 h.time.2
  exact .ite hs1 hs1.askStart

theorem Chip.Inv.pllLost (h : s.Inv) : (pllLost s).Inv := h.setTime h.time.1 h.time.2

theorem Chip.Inv.zeroFillDone (h : s.Inv) : (zeroFillDone s).Inv := .ite h.frame.zeroFill h

theorem Chip.Inv.dramTrained (h : s.Inv) : (dramTrained s).Inv := .ite h.frame.setSelfRef h

theorem Chip.Inv.takeColdCause (h : s.Inv) : (takeColdCause s).Inv := .ite h.putBytes.wr h.wr

theorem Chip.Inv.mramReadable (h : s.Inv) : (mramReadable s).Inv := .ite h.frame.odoRestore.takeColdCause h

theorem Chip.Inv.recovery {cause : Nat} (h : s.Inv) : (recovery s cause).Inv := h.frame.wrF.wrBit.wrBit.gateIsland

theorem Chip.Inv.takeSlot {k : Nat} (h : s.Inv) : (takeSlot s k).Inv := h.frame.wrF.wrF.wrF.wrHash.askStart

theorem Chip.Inv.chooseSlot {cause : Nat} (h : s.Inv) : (chooseSlot s cause).Inv := by
  unfold Machine.chooseSlot
  extract_lets ok
  match ok with
  | [] => exact h.recovery
  | [k] => exact h.takeSlot
  | _ :: _ :: _ => exact h.takeSlot

theorem Chip.Inv.manifestCheck (h : s.Inv) : (manifestCheck s).Inv := .ite h.chooseSlot h

theorem Chip.Inv.abandonSlot {k cause : Nat} (h : s.Inv) : (abandonSlot s k cause).Inv := h.frame.chooseSlot

theorem Chip.Inv.placeImage {d : List Byte} (h : s.Inv) : (placeImage s d).Inv := by
  unfold Machine.placeImage
  split
  · exact h.writeBytes
  · exact h

theorem Chip.Inv.imageLoadDone (h : s.Inv) : (imageLoadDone s).Inv := by
  unfold Machine.imageLoadDone
  split
  · exact h
  · exact .ite h (.ite h.frame.placeImage h.abandonSlot)

theorem Chip.Inv.consistVerified (h : s.Inv) : (consistVerified s).Inv := by
  unfold Machine.consistVerified
  split
  · exact h
  · refine .ite h ?_
    extract_lets _ _ _ _ s1
    have hs1 : s1.Inv := h.frame.wrHash
    split
    · exact h.wr.abandonSlot
    · exact .ite hs1 hs1.putBytes

theorem Chip.Inv.consistLoad (h : s.Inv) : (consistLoad s).Inv :=
  .ite h.frame.loadConsist.canStart.canFollowStage.gateIsland h

theorem Chip.Inv.bootDone (h : s.Inv) : (bootDone s).Inv :=
  .ite h.wrBit.wr.wrBit.wrF.releaseCores.startRecorder.startFeedback.startConverters h

/-! ### Dma -/

theorem Chip.Inv.setDq {q : Nat} {l : List DmaDesc} (h : s.Inv) : (setDq s q l).Inv := h.wrBit.frame

theorem Chip.Inv.dqRead {q i : Nat} (h : s.Inv) : (dqRead s q i).1.Inv := h.readBytes

theorem Chip.Inv.dqAcceptOne (h : s.Inv) : (dqAcceptOne s).Inv := by
  unfold Machine.dqAcceptOne
  extract_lets
  split
  · exact h.dqRead.setDq.led.frame
  · exact h

theorem Chip.Inv.dqAccept (h : s.Inv) : (dqAccept s).Inv := (h.foldl fun _ _ hx => hx.dqAcceptOne)

theorem Chip.Inv.dqPublish {e : DqLate} (h : s.Inv) : (dqPublish s e).Inv := by
  unfold Machine.dqPublish
  extract_lets s1
  have hs1 : s1.Inv := h.memWrite.wr
  split
  · exact hs1.signal
  · exact hs1

theorem Chip.Inv.dqEnd {late : Bool} {q : Nat} {d : DmaDesc} {rest : List DmaDesc} {st : Nat} (h : s.Inv) : (dqEnd s late q d rest st).Inv := by
  unfold Machine.dqEnd
  extract_lets s1 _ _ _ _ _ s4
  have hs1 : s1.Inv := h.setDq.led.bump
  have hs4 : s4.Inv := .ite (.flag (.wr (.ite hs1.frame hs1.dqPublish))) (.wr (.ite hs1.frame hs1.dqPublish))
  exact .ite hs4 hs4.wrBit.wrF.wrBit

theorem Chip.Inv.dqEndCut {late : Bool} {q : Nat} (h : s.Inv) : (dqEndCut s late q).Inv :=
  (h.foldl fun _ _ hx => hx.dqEnd)

theorem Chip.Inv.descriptorEnd {q st : Nat} {data : List Byte} (h : s.Inv) : (descriptorEnd s q st data).Inv := by
  unfold Machine.descriptorEnd
  split
  · exact h
  · extract_lets _ _ r
    have hr : r.1.Inv := h.advanceFill.readBytes
    refine .ite h.dqEnd.dqEndCut.dqAccept ?_
    refine .ite h.memWrite.dqEnd.dqEndCut.dqAccept ?_
    refine .ite ?_ ?_
    · exact .ite hr.dqEnd.dqEndCut.dqAccept hr.putHost.dqEnd.dqEndCut.dqAccept
    · exact .dqAccept (.dqEndCut (.dqEnd (.ite h.noteRead h)))

theorem Chip.Inv.completionTimeout {q : Nat} (h : s.Inv) : (completionTimeout s q).Inv := by
  unfold Machine.completionTimeout
  split
  · exact h
  · exact .ite h.dqEnd.dqEndCut.dqAccept h

theorem Chip.Inv.dqEndAll {q st : Nat} (h : s.Inv) : (dqEndAll s q st).Inv := (h.foldl fun _ _ hx => hx.dqEnd)

theorem Chip.Inv.dqLinkEnd (h : s.Inv) : (dqLinkEnd s).Inv := (h.foldl fun _ _ hx => hx.dqEndAll).dqAccept

theorem Chip.Inv.linkLost (h : s.Inv) : (linkLost s).Inv := h.dqLinkEnd.wr.flag

theorem Chip.Inv.dqTail {q v : Nat} (h : s.Inv) : (dqTail s q v).Inv := h.wr.dqAccept

theorem Chip.Inv.dqEnable {q : Nat} (h : s.Inv) : (dqEnable s q).Inv := h.wrBit.dqAccept

theorem Chip.Inv.dqRestartOne {onLink : List Nat} {q : Nat} (h : s.Inv) : (dqRestartOne onLink s q).Inv :=
  h.setDq.dqEndCut.wrBit

theorem Chip.Inv.dqRestart {onLink : List Nat} (h : s.Inv) : (dqRestart s onLink).Inv :=
  (h.foldl fun _ _ hx => hx.dqRestartOne)

theorem Chip.Inv.dqRelease (h : s.Inv) : (dqRelease s).Inv := (h.foldl fun _ _ hx => hx.dqPublish).frame

/-! ### Power -/

theorem Chip.Inv.pwrFlag {e : Nat} (h : s.Inv) : (s.pwrFlag e).Inv := h.flag

theorem Chip.Inv.missedSlot {q : StartReq} (h : s.Inv) : (missedSlot s q).Inv := .ite h h.frame.bump.pwrFlag

theorem Chip.Inv.governorSlot {k : Nat} (h : s.Inv) : (governorSlot s k).Inv := by
  unfold Machine.governorSlot
  extract_lets s0 _
  have hs0 : s0.Inv := h.atPhase
  split
  · exact hs0
  · exact hs0
  · exact (hs0.wrBit.bump.frame.wr.foldl fun _ _ hx => hx.missedSlot)

theorem Chip.Inv.islandPowerGood {i : Nat} (h : s.Inv) : (islandPowerGood s i).Inv := by
  unfold Machine.islandPowerGood
  split
  · exact h
  · exact .ite h (.ite h.atPhase.frame.wrBit.wrBit h.atPhase.frame.wrBit)

theorem Chip.Inv.endInjections {cause : Nat} (h : s.Inv) : (endInjections s cause).Inv :=
  .foldl h fun _ _ hx => .ite hx.endInjection.captureInjEnd hx

theorem Chip.Inv.stageCore {n : Nat} (h : s.Inv) : (stageCore s n).Inv := by
  unfold Machine.stageCore
  refine .ite h ?_
  split
  · exact h.recStage.endInjections
  · exact h.recStage
  · exact h.dspSag
  · exact (h.recStage.foldl fun _ _ hx => hx.canShed)
  · exact h

theorem Chip.Inv.stagePlatform {e : OdoSums} {n : Nat} (h : s.Inv) : (stagePlatform s e n).Inv := by
  unfold Machine.stagePlatform
  split
  · exact h.frame
  · exact h.setSelfRef.gateIsland.pwrFlag
  · extract_lets _ s2
    have hs2 : s2.Inv := .ite h.wrBit.sealBegin h.wrBit.finalCapture
    exact .ite hs2.islFault hs2
  · exact h

theorem Chip.Inv.setStage {n : Nat} (h : s.Inv) : (setStage s n).Inv := h.wrF.wr.logEvent

theorem Chip.Inv.enterStage {n : Nat} (h : s.Inv) : (enterStage s n).Inv :=
  h.setStage.pwrFlag.fault.odoInc.extreme.frame.stagePlatform.stageCore

theorem Chip.Inv.enterStages (h : s.Inv) : (enterStages s).Inv := .foldl h fun _ _ hx => .ite hx.enterStage hx

theorem Chip.Inv.leaveTimer (h : s.Inv) : (leaveTimer s).Inv := .ite h.frame (.ite h.frame h.frame)

theorem Chip.Inv.vsupSample {k mv : Nat} (h : s.Inv) : (vsupSample s k mv).Inv :=
  .ite h h.atPhase.wr.frame.enterStages.leaveTimer

theorem Chip.Inv.unstageCore {n : Nat} (h : s.Inv) : (unstageCore s n).Inv := by
  unfold Machine.unstageCore
  refine .ite h ?_
  split
  · exact h.recUnstage
  · exact h.recUnstage
  · exact .ite h.dspUnsag h
  · exact (h.recUnstage.setSelfRef.foldl fun _ _ hx => hx.canUnshed)
  · exact h

theorem Chip.Inv.unstagePlatform {n : Nat} (h : s.Inv) : (unstagePlatform s n).Inv := by
  unfold Machine.unstagePlatform
  split
  · exact h.dqAccept
  · exact h.frame
  · exact h.askStart
  · extract_lets _ _ s1 _
    have hs1 : s1.Inv := h.wrBit.frame
    split
    · exact hs1.frame
    · exact hs1
  · exact h

theorem Chip.Inv.stageLeave (h : s.Inv) : (stageLeave s).Inv := by
  unfold Machine.stageLeave
  split
  · exact h
  · exact .ite h h.setStage.frame.unstageCore.unstagePlatform

theorem Chip.Inv.sealDone {good : Bool} (h : s.Inv) : (sealDone s good).Inv := by
  unfold Machine.sealDone
  split
  · exact h
  · extract_lets _ _ s0
    have hs0 : s0.Inv := h.wrBit.frame
    have hread := hs0.readBytes (src := 15) (p := pageAddr 0) (n := 0x100000)
    generalize Machine.readBytes s0 15 (pageAddr 0) 0x100000 = r at hread ⊢
    obtain ⟨s1, pages, c⟩ := r
    exact .ite (.pwrFlag (.wrBit (.putBytes (.putBytes hread)))) hs0.pwrFlag.fault

theorem Chip.Inv.internalCold {code item : Nat} (h : s.Inv) : (internalCold s code item).Inv := by
  unfold Machine.internalCold
  extract_lets s0 _ s2 _ _ _
  have hs0 : s0.Inv := .ite h h.enterStage
  have hs2 : s2.Inv := by
    unfold s2
    split
    · exact .ite (.snapWriteDone (.ite hs0.captureSnap hs0)) (.ite hs0.captureSnap hs0)
    · exact .ite hs0.captureSnap hs0
  exact hs2.sealDone.putBytes.frame.coldReset

theorem Chip.Inv.coldAction (h : s.Inv) : (coldAction s).Inv := by
  unfold Machine.coldAction
  split
  · exact h.internalCold
  · exact h

theorem Chip.Inv.vmon {item : Nat} (h : s.Inv) : (vmon s item).Inv := .ite h.fault h

theorem Chip.Inv.therm (h : s.Inv) : (therm s).Inv := .ite h.frame.fault.pwrFlag h

theorem Chip.Inv.thermRearm (h : s.Inv) : (thermRearm s).Inv := h.frame

theorem Chip.Inv.thermsd (h : s.Inv) : (thermsd s).Inv := .ite h.fault h

theorem Chip.Inv.sysFack {v : Word} (h : s.Inv) : (sysFack s v).Inv := by
  unfold Machine.sysFack
  split
  · exact .ite h.frame h
  · exact h

theorem Chip.Inv.warmPin (h : s.Inv) : (warmPin s).Inv := .ite h.fault h

theorem Chip.Inv.sysRstreq {src : Nat} {v : Word} (h : s.Inv) : (sysRstreq s src v).Inv := .ite h.fault h

/-! ### Restart -/

theorem Chip.Inv.usbDetach (h : s.Inv) : (usbDetach s).Inv := .ite h.wr.flag h

theorem Chip.Inv.haltCores (h : s.Inv) : (haltCores s).Inv := (h.foldl fun _ _ hx => hx.wrF).p3Halt.frame

theorem Chip.Inv.warmStart (h : s.Inv) : (warmStart s).Inv := by
  unfold Machine.warmStart
  split
  · exact h
  · refine .ite h ?_
    exact (h.wrBit.frame.odoInc.logEvent.haltCores.fbHalt.foldl fun _ _ hx => hx.adcStop).endInjections.usbDetach

theorem Chip.Inv.engineReset (h : s.Inv) : (engineReset s).Inv := .frame (.bumpBy (.foldl h fun _ _ hx => .ite hx.wrF hx))

theorem Chip.Inv.channelsReset (h : s.Inv) : (channelsReset s).Inv := (h.foldl fun _ _ hx => hx.canReset).frame

theorem Chip.Inv.cutVerify (h : s.Inv) : (cutVerify s).Inv := .ite h.wrF.frame h

theorem Chip.Inv.coreReset {onLink : List Nat} (h : s.Inv) : (coreReset s onLink).Inv := by
  unfold Machine.coreReset
  extract_lets _ _ _ _ s1 s2 s3 _ _
  have hs1 : s1.Inv := h.atPhase.clearFlips.clearFlips.frame.channelsReset.engineReset.setHeld
  have hs2 : s2.Inv := hs1.dspReset.recReset.fillAbandon.dqRestart
  have hs3 : s3.Inv := hs2.setSelfRef.svHalt.cutVerify.warmRegs.wrBit
  exact .ite h hs3.frame.askStart

theorem Chip.Inv.swapBoundary (h : s.Inv) : (swapBoundary s).Inv := .ite h.swapPersist h

theorem Chip.Inv.reloadDone {mirrorBad journalBad : List Nat} {bad : Option Nat} (h : s.Inv) : (reloadDone s mirrorBad journalBad bad).Inv := by
  unfold Machine.reloadDone
  refine .ite h ?_
  extract_lets _ _ s1 s2 s3 _
  have hs1 : s1.Inv := (h.foldl fun _ _ hx => hx.placeImage).reloadCore
  have hs2 : s2.Inv := hs1.restoreTiles
  have hs3 : s3.Inv := hs2.canFollowStage.setSelfRef
  split
  · exact h.fault
  · exact h.fault
  · exact .ite h.fault hs3.frame.hashRest

theorem Chip.Inv.captureMarker {t : Nat} (h : s.Inv) : (captureMarker s t).Inv :=
  h.frame.touchWords.streamCapture.wrF.wrBit

theorem Chip.Inv.recAgain (h : s.Inv) : (recAgain s).Inv :=
  .wrBit (.wrBit (.wrBit (.ite h.startRecorder.armAuto h.recResume)))

theorem Chip.Inv.swapEnd (h : s.Inv) : (swapEnd s).Inv := .ite h.bump.wrBit.wrF.frame.flag.syncSeatPend h

theorem Chip.Inv.restartBooks (h : s.Inv) : (restartBooks s).Inv := h.wr.wr.extreme.logEvent.frame

theorem Chip.Inv.engineResume (h : s.Inv) : (engineResume s).Inv := by
  unfold Machine.engineResume
  split
  · exact h
  · refine .ite h ?_
    extract_lets s1 s2 s3 s4 s5 _ _ _ _ _ _ _
    have hs3 : s3.Inv := (h.wrBit.wr.foldl fun _ _ hx => hx.tileFlag).foldl fun _ _ hx => hx.captureMarker
    have hs4 : s4.Inv := (hs3.recAgain.foldl fun _ _ hx => hx.fbResume).startConverters
    have hs5 : s5.Inv := hs4.svRelease.dqRelease.restartBooks.swapEnd
    exact .dspResume (.setSelfRef (.canFollowStage (.frame (.flag (.wrBit (.wrBit (.ite hs5.wrF.frame.askStart hs5)))))))

theorem Chip.Inv.rstLate (h : s.Inv) : (rstLate s).Inv := .ite h.fault h

theorem Chip.Inv.swapTimetable (h : s.Inv) : (swapTimetable s).Inv :=
  .ite (h.foldl fun _ _ hx => hx.applyCauses).setTimetable.frame h

theorem Chip.Inv.commitNow (h : s.Inv) : (commitNow s).Inv := by
  unfold Machine.commitNow
  refine .ite h ?_
  extract_lets _ _ s1 s2
  have hs1 : s1.Inv := h.setTime h.time.1 (by decide : 9000 < 10000)
  have hs2 : s2.Inv := (hs1.foldl fun _ _ hx => hx.noteOverrun).commitAll.loadDuties
  exact hs2.setTime hs2.time.1 (max_lt h.time.2 (by decide))

theorem Chip.Inv.resultCommit (h : s.Inv) : (resultCommit s).Inv := .ite h.commitNow h

theorem Chip.Inv.commitDue (h : s.Inv) : (commitDue s).Inv := .ite h.commitNow h

theorem Chip.Inv.coachCut (h : s.Inv) : (coachCut s).Inv := .ite h h.atPhase.gateDue.swapTimetable.islPrepare.cutCoach

theorem Chip.Inv.pwmRelease (h : s.Inv) : (pwmRelease s).Inv := by
  unfold Machine.pwmRelease
  split
  · exact .ite h.frame h
  · exact h

/-! ### Ledgers -/

theorem Chip.Inv.ldgFlag {e : Nat} (h : s.Inv) : (s.ldgFlag e).Inv := h.flag

theorem Chip.Inv.noteBreak {l inst d al aj : Nat} (h : s.Inv) : (noteBreak s l inst d al aj).Inv :=
  h.wr.wr.wr.led.bump.ldgFlag.logEvent

theorem Chip.Inv.checkLedger {c : Chip} {l : Nat} (hs : s.Inv) : (checkLedger c s l).Inv :=
  .ite hs (.ite hs (hs.foldl fun _ _ hx => hx.noteBreak).fault)

theorem Chip.Inv.unsoundLedger {l : Nat} (h : s.Inv) : (unsoundLedger s l).Inv := h.wrBit.noteRead.ldgFlag

theorem Chip.Inv.takeSnapshot {c : Chip} (hs : s.Inv) : (takeSnapshot c s).Inv := hs.frame.clearFlips.wr.wrBit.ldgFlag

theorem Chip.Inv.ledgerCheck {ue : List Nat} (h : s.Inv) : (ledgerCheck s ue).Inv := by
  unfold Machine.ledgerCheck
  refine .ite h ?_
  extract_lets _ s1
  have hs1 : s1.Inv := ((h.atPhase.foldl fun _ _ hx => hx.unsoundLedger).foldl fun _ _ hx => hx.checkLedger)
  exact .ite hs1.takeSnapshot hs1

theorem Chip.Inv.ldgSnap {v : Word} (h : s.Inv) : (ldgSnap s v).Inv := .ite h.wrBit.frame h

/-! ### Registers -/

theorem Chip.Inv.readCapture {reader a : Nat} {p : Place} (h : s.Inv) : (readCapture s reader a p).Inv := by
  unfold Machine.readCapture
  refine .ite h.captureTick ?_
  refine .ite h.captureFab ?_
  split
  · exact h.frame
  · exact h

theorem Chip.Inv.ueAt {p : Place} (h : s.Inv) : (ueAt s p).Inv := by
  cases p with
  | ledger => exact h.wrBit.ldgFlag
  | _ => exact h

theorem Chip.Inv.readCoded {src a : Nat} {v : Word} (h : s.Inv) : (readCoded s src a v).1.Inv := by
  unfold Machine.readCoded
  split
  · exact h
  · split
    · exact h
    · extract_lets _ s1
      have hs1 : s1.Inv := .ite h.readSpan.ueAt h.readSpan
      exact .ite hs1.clearFlips hs1

theorem Chip.Inv.upsetPlace {a : Nat} {flips : List Nat} (h : s.Inv) : (upsetPlace s a flips).Inv := by
  unfold Machine.upsetPlace
  split
  · exact h.upset
  · exact h

theorem Chip.Inv.readReg {reader a : Nat} (h : s.Inv) : (readReg s reader a).2.Inv := by
  unfold Machine.readReg
  split
  · exact .iteSnd h.readCapture h
  · exact h

theorem Chip.Inv.authRefuse (h : s.Inv) : (authRefuse s).Inv := h.bump.flag

theorem Chip.Inv.blockRefuse {b u o code : Nat} (h : s.Inv) : (blockRefuse s b u o code).Inv := by
  unfold Machine.blockRefuse
  split
  · exact h.canRefuse
  · exact h.fbRefuse
  · exact h.adcRefuse
  · exact h.recRefuse
  · exact h.tuneRefuse
  · exact .ite h.bump h

theorem Chip.Inv.applyTypes {a : Nat} {r : RegRow} {v : Word} (h : s.Inv) : (applyTypes s a r v).Inv :=
  .ite h.wr h.wr.putShadow

theorem Chip.Inv.arbCommit {v : Word} (h : s.Inv) : (arbCommit s v).Inv :=
  .ite (.flag (.frame (.wrF (.ite h.wrF.frame.flag h)))) (.ite h.wrF.frame.flag h)

theorem Chip.Inv.jtagClose {v : Word} (h : s.Inv) : (jtagClose s v).Inv := .ite h.wrBit.frame h

theorem Chip.Inv.peakClear {v : Word} (h : s.Inv) : (peakClear s v).Inv := .foldl h fun _ _ hx => .ite hx.wr hx

theorem Chip.Inv.almRaise {v : Word} (h : s.Inv) : (almRaise s v).Inv := h.alarm

theorem Chip.Inv.nctlWrite {d : Nat} {v : Word} (h : s.Inv) : (nctlWrite s d v).Inv := .setExclude (.ite h.readmit h)

theorem Chip.Inv.setCommand {i : Nat} {v : Word} (h : s.Inv) : (setCommand s i v).Inv := by
  unfold Machine.setCommand
  extract_lets s1 s2 s3
  have hs1 : s1.Inv := .ite h.armSet h
  have hs2 : s2.Inv := .ite hs1.releaseSet hs1
  have hs3 : s3.Inv := .ite hs2.stopSet hs2
  exact .ite hs3.softTrigger hs3

theorem Chip.Inv.trgCommand {u : Nat} {v : Word} (h : s.Inv) : (trgCommand s u v).Inv := by
  unfold Machine.trgCommand
  extract_lets s1 s2
  have hs1 : s1.Inv := .ite h.armUnit h
  have hs2 : s2.Inv := .ite hs1.disarmUnit hs1
  exact .ite hs2.fireUnit hs2

theorem Chip.Inv.tuneCommand {t : Nat} {start stop : ShCmd} {v : Word} (h : s.Inv) : (tuneCommand s t start stop v).Inv :=
  .ite (.tileQueue (.ite h.tileQueue h)) (.ite h.tileQueue h)

theorem Chip.Inv.portWrite {p o : Nat} {v : Word} {more : Bool} (h : s.Inv) : (portWrite s p o v more).Inv := by
  unfold Machine.portWrite
  split
  · exact h.postCtl
  · exact h.doneWrite
  · exact h.cancelWrite
  · exact h.evRaise
  · exact h.jcommit
  · exact h.stepCtl
  · exact .ite h.wrF h
  · exact h.wr
  · exact h.wr
  · exact h.wr
  · exact h.wr
  · exact h.wr
  · exact h

theorem Chip.Inv.dqWrite {q o a : Nat} {v : Word} (h : s.Inv) : (dqWrite s q o a v).Inv := by
  unfold Machine.dqWrite
  split
  · exact .ite h h.wr
  · exact .ite h h.wr
  · exact .ite (.dqEnable (.ite h h.wrF)) (.wrBit (.ite h h.wrF))
  · exact h.dqTail
  · exact .ite h.wrBit h
  · exact h

theorem Chip.Inv.actingWrite {src a b u o : Nat} {v : Word} {more : Bool} (h : s.Inv) : OptInv (actingWrite s src a b u o v more) := by
  unfold Machine.actingWrite
  split
  · exact .ite (.some h.writeTbctl) (.ite (.some h.sysRstreq) (.ite (.some h.sysFack) (.none)))
  · exact .ite (.some h.arbCommit) (.ite (.some h.jtagClose) (.none))
  · exact .ite (.some h.peakClear) (.none)
  · exact .ite (.some h.writeMtxtail) (.ite (.some h.nctlWrite) (.none))
  · exact .ite (.some h.almRaise) (.ite (.some h.dqWrite) (.none))
  · exact .ite (.some h.h0Heartbeat) (.none)
  · exact .ite (.some h.setCommand) (.ite (.some h.trgCommand) (.none))
  · exact .ite (.some h.portWrite) (.none)
  · exact .ite (.some h.fillGo) (.none)
  · exact .ite (.some (.ite h.askSnap h)) (.ite (.some h.odoClr) (.none))
  · exact .ite (.some h.safAck) (.none)
  · exact .ite (.some h.ldgSnap) (.none)
  · refine .ite ?_ ?_
    · exact .some h.canTxreq
    · exact .ite (.some h.canTxreq) (.ite (.some h.canTxabort) (.ite (.some h.canTxabort) (.none)))
  · exact .ite (.some h.cmpvalWrite) (.none)
  · exact .ite (.some (.ite h.adcGo h)) (.none)
  · exact .ite (.some h.wdKick) (.none)
  · exact .ite (.some h.flagClear) (.ite (.some h.tuneCommand) (.ite (.some h.tuneCommand) (.none)))
  · exact .none

theorem Chip.Inv.onWrite {b u o : Nat} {on : Bool} (h : s.Inv) : (onWrite s b u o on).Inv := by
  unfold Machine.onWrite
  split
  · exact h.canOnWrite
  · exact h.fbOnWrite
  · exact .ite h.adcOnWrite h.pwmOnWrite
  · exact h.setEnable
  · exact h

theorem Chip.Inv.writeOnWord {b u o a : Nat} {r : RegRow} {v : Word} (h : s.Inv) : (writeOnWord s b u o a r v).1.Inv :=
  .iteFst h.blockRefuse (.ite h.applyTypes.onWrite.canRecoverWrite h.applyTypes.onWrite)

theorem Chip.Inv.reconfigured {b o : Nat} (h : s.Inv) : (reconfigured s b o).Inv := .ite h.trgConfig h

theorem Chip.Inv.writeRow {src a b u o : Nat} {r : RegRow} {v : Word} {more : Bool} (h : s.Inv) : (writeRow s src a b u o r v more).1.Inv := by
  unfold Machine.writeRow
  refine .iteFst h.blockRefuse (.iteFst h.blockRefuse ?_)
  have hact := h.actingWrite (src := src) (a := a) (b := b) (u := u) (o := o) (v := v) (more := more)
  cases hw : Machine.actingWrite s src a b u o v more with
  | some s1 => exact hact s1 hw
  | none => exact .iteFst h.writeOnWord h.applyTypes.reconfigured

theorem Chip.Inv.adcTableWrite {k o : Nat} {v : Word} (h : s.Inv) : (adcTableWrite s k o v).1.Inv :=
  .iteFst h.adcRefuse (.iteFst h.adcRefuse h.wr)

theorem Chip.Inv.canTableStore {n o : Nat} {v : Word} (h : s.Inv) : (canTableStore s n o v).1.Inv := h.canTableWrite

theorem Chip.Inv.slotStore {lid w : Nat} {v : Word} (h : s.Inv) : (slotStore s lid w v).1.Inv :=
  .iteFst h (.iteFst h.slotRefuse h.slotWrite)

theorem Chip.Inv.injTableWrite {t i : Nat} {v : Word} (h : s.Inv) : (injTableWrite s t i v).1.Inv :=
  .iteFst h.tuneRefuse h.frame.touchWords

theorem Chip.Inv.releaseOne {h : HeldWrite} (hi : s.Inv) : (releaseOne s h).Inv := by
  unfold Machine.releaseOne
  split
  · exact .ite hi.frame hi.slotStore
  · exact .ite hi.frame (.ite hi.tuneCommand hi.tuneCommand)

theorem Chip.Inv.tileCommitPoint (h : s.Inv) : (tileCommitPoint s).Inv :=
  .ite h (.ite h.commitPoint (h.commitPoint.frame.foldl fun _ _ hx => hx.releaseOne))

theorem Chip.Inv.tileDue (h : s.Inv) : (tileDue s).Inv := .ite h.tileCommitPoint h

theorem Chip.Inv.msixWrite {a o : Nat} {v : Word} (h : s.Inv) : (msixWrite s a o v).Inv := h.wr.sendPending

theorem Chip.Inv.placeWrite {src a : Nat} {v : Word} {more : Bool} {p : Place} (h : s.Inv) : (placeWrite s src a v more p).1.Inv := by
  cases p with
  | reg => exact .iteFst (.iteFst h.tileDue h.tileDue.writeRow) h.writeRow
  | canTable => exact h.clearFlips.canTableStore
  | adcTable => exact h.clearFlips.adcTableWrite
  | mailTx => exact h.frame.clearFlips
  | msix => exact .ite h.clearFlips.msixWrite h
  | slotRec => exact h.tileDue.slotStore
  | injTable => exact h.injTableWrite
  | _ => exact h

theorem Chip.Inv.regWrite {src a : Nat} {v : Word} {more : Bool} (h : s.Inv) : (regWrite s src a v more).1.Inv := by
  unfold Machine.regWrite
  split
  · exact h
  · refine .iteFst ?_ ?_
    · exact h
    · exact .iteFst h (.iteFst (.ite (.authRefuse (.ite h.odoClr h)) (.ite h.odoClr h)) h.placeWrite)

theorem Chip.Inv.holdWrite {src a : Nat} {v : Word} (h : s.Inv) : (holdWrite s src a v).Inv := by
  unfold Machine.holdWrite
  extract_lets w
  cases w with
  | some x => exact h.frame
  | none => exact h

/-! ### Stage -/

theorem Chip.Inv.cstFlag {e : Nat} (h : s.Inv) : (s.cstFlag e).Inv := h.flag

theorem Chip.Inv.dropStaged (h : s.Inv) : (dropStaged s).Inv := h.wr.wrF.frame.syncSeatPend

theorem Chip.Inv.cstStageCmd {arg0 arg1 : Nat} {body : List Byte} (h : s.Inv) : (cstStageCmd s arg0 arg1 body).1.Inv := by
  unfold Machine.cstStageCmd
  extract_lets _ _ _ s1
  have hs1 : s1.Inv := .wr (.putBytes (.ite h.dropStaged.wrF h))
  exact .iteFst h (.iteFst h (.iteFst h (.iteFst hs1.wrF.askStart hs1)))

theorem Chip.Inv.engineMail {d type corr : Nat} {body : List Byte} (h : s.Inv) : (engineMail s d type corr body).Inv :=
  h.frame.led

theorem Chip.Inv.sendTimetable {c : Cst} {d : Nat} (h : s.Inv) : (sendTimetable c s d).Inv :=
  (h.foldl fun _ _ hx => hx.engineMail.draw)

theorem Chip.Inv.forgetAcks {ttver : Nat} (h : s.Inv) : (forgetAcks s ttver).Inv :=
  .foldl h fun _ _ hx => .ite hx.setNodeSt hx

theorem Chip.Inv.stageVerifyDone (h : s.Inv) : (stageVerifyDone s).Inv := by
  unfold Machine.stageVerifyDone
  refine .ite h ?_
  extract_lets _ _ _ s1 _ s2
  have hs1 : s1.Inv := h.wrF.wr.cstFlag.hashRest.forgetAcks
  have hs2 : s2.Inv := hs1.frame
  split
  · exact h.wr.wrF.cstFlag.hashRest
  · exact (hs2.foldl fun _ _ hx => hx.sendTimetable).syncSeatPend

theorem Chip.Inv.sendToEntrants {before : Chip} (hs : s.Inv) : (sendToEntrants before s).Inv :=
  .ite hs (.ite hs (hs.foldl fun _ _ hx => hx.sendTimetable))

theorem Chip.Inv.sendAgain (h : s.Inv) : (sendAgain s).Inv := .ite h (h.foldl fun _ _ hx => hx.sendTimetable).frame

theorem Chip.Inv.cstSwapCmd {src cstid : Nat} (h : s.Inv) : (cstSwapCmd s src cstid).1.Inv := by
  unfold Machine.cstSwapCmd
  refine .iteFst ?_ h.wr
  dsimp only
  exact .fault (h.wrBit.frame)

theorem Chip.Inv.patchSig {p : PatchRec} (h : s.Inv) : (patchSig s p).Inv := by
  unfold Machine.patchSig
  split
  · exact h
  · exact .ite h.frame h.frame

theorem Chip.Inv.patchReg {p : PatchRec} (h : s.Inv) : (patchReg s p).1.Inv := by
  unfold Machine.patchReg
  split
  · exact h.writeRow
  · exact .iteFst h.slotApply h
  · exact h

theorem Chip.Inv.patchOne {p : PatchRec} (h : s.Inv) : (patchOne s p).Inv := .ite h.patchSig h.patchReg

theorem Chip.Inv.patchErr {code i : Nat} (h : s.Inv) : (patchErr s code i).Inv := h.wr

theorem Chip.Inv.cstPatchCmd {arg0 arg1 : Nat} {body : List Byte} (h : s.Inv) : (cstPatchCmd s arg0 arg1 body).1.Inv := by
  unfold Machine.cstPatchCmd
  refine .iteFst h (.iteFst h.patchErr (.iteFst h (.iteFst h.patchErr ?_)))
  extract_lets
  split
  · exact h.patchErr
  · exact h.wrBit.wr.frame

theorem Chip.Inv.patchGone (h : s.Inv) : (patchGone s).Inv := h.wrBit.wr.frame

theorem Chip.Inv.patchDrop {code : Nat} (h : s.Inv) : (patchDrop s code).Inv := h.patchGone.patchErr.bump.cstFlag

theorem Chip.Inv.patchApply (h : s.Inv) : (patchApply s).Inv := by
  unfold Machine.patchApply
  split
  · exact h
  · refine .ite h ?_
    refine .ite h.atPhase.patchDrop ?_
    refine .ite ?_ ?_
    · exact .ite h.atPhase.patchDrop h.atPhase.frame
    · exact (h.atPhase.foldl fun _ _ hx => hx.patchOne).patchGone.bump.wr.cstFlag

/-! ### Hosts -/

theorem Chip.Inv.takeFrom {p : HostPort} (h : s.Inv) : (takeFrom s p).Inv := by
  unfold Machine.takeFrom
  extract_lets _ s1 _
  have hs1 : s1.Inv := by
    unfold s1
    split
    · exact h.wr
    · exact h.frame
    · exact h.bump
    · exact h
  exact hs1.frame.bump

theorem Chip.Inv.cmdTake {h : HostCmd} (hi : s.Inv) : (cmdTake s h).Inv := hi.takeFrom

theorem Chip.Inv.respond {k : HostHdr} {op : Nat} {r : Rsp} (h : s.Inv) : (respond s k op r).Inv :=
  .ite h (.ite (.ite h.putHost.wr.signal h) (.ite h.bump (.ite h.hsrNext.frame h.frame)))

theorem Chip.Inv.answerUnknown {p : HostPort} {n : Nat} (h : s.Inv) : (answerUnknown p n s).Inv := by
  induction n generalizing s with
  | zero => exact h
  | succ n ih =>
    unfold Machine.answerUnknown
    split
    · exact ih h.takeFrom.frame.respond
    · exact h

theorem Chip.Inv.unknownDone (h : s.Inv) : (unknownDone s).Inv := h.answerUnknown.answerUnknown

theorem Chip.Inv.hostRun {op : Nat} {a : Authority} {c : HostCmd} {late : Bool} {f : Chip → Option (Chip × Option Rsp)}
    (h : s.Inv) (hf : ∀ x, x.Inv → CmdInv (f x)) :
    (hostRun s op a c late f).Inv := by
  unfold Machine.hostRun
  refine .ite h (.ite h.cmdTake.respond (.ite h.cmdTake.authRefuse.respond ?_))
  have hcmd := hf _ (h.cmdTake (h := c))
  split
  · exact h
  · next e => exact .respond (hcmd _ e)
  · next e => exact hcmd _ e

theorem Chip.Inv.answer {r : Rsp} (h : s.Inv) : CmdInv (answer s r) := .some h

theorem Chip.Inv.noBody {h : HostCmd} {f : Option (Chip × Option Rsp)} (hs : s.Inv) (hf : CmdInv f) : CmdInv (noBody h s f) :=
  .ite hf hs.answer

theorem Chip.Inv.pingCmd {h : HostCmd} (hi : s.Inv) : CmdInv (pingCmd h s) := (hi.noBody hi.answer)

theorem Chip.Inv.rdsigOne {src : Nat} {acc : Chip × List Byte} {sid : Nat} (h : acc.1.Inv) : (rdsigOne src acc sid).1.Inv :=
  h.lookEntry

theorem Chip.Inv.rdsigCmd {h : HostCmd} (hi : s.Inv) : CmdInv (rdsigCmd h s) := by
  unfold Machine.rdsigCmd
  exact (hi.noBody (.ite hi.answer (.answer (.foldlFst hi.commitDue.dropCapture fun _ _ hx => hx.rdsigOne))))

theorem Chip.Inv.wrsigCmd {h : HostCmd} (hi : s.Inv) : CmdInv (wrsigCmd h s) :=
  .ite hi.answer (.some (hi.dropCapture.foldl fun _ _ hx => hx.p3Enqueue).frame)

theorem Chip.Inv.wrsigEnd {src : Nat} (h : s.Inv) : (wrsigEnd s src).Inv := by
  unfold Machine.wrsigEnd
  split
  · exact h
  · exact .ite h h.frame.respond

theorem Chip.Inv.p3Arbiter (h : s.Inv) : (p3Arbiter s).Inv := (h.gateDue.p3Take.foldl fun _ _ hx => hx.wrsigEnd)

theorem Chip.Inv.rdregWord {src base : Nat} {acc : Chip × List Byte × Option Nat} {i : Nat} (h : acc.1.Inv) : (rdregWord src base acc i).1.Inv := by
  unfold Machine.rdregWord
  extract_lets _ q
  have hq : q.1.Inv := by
    unfold q
    split
    · exact h.readReg.readCoded
    · exact h.readReg
  exact hq

theorem Chip.Inv.rdregCmd {h : HostCmd} (hi : s.Inv) : CmdInv (rdregCmd h s) :=
  (hi.noBody (.ite hi.answer (.answer (.foldlFst hi fun _ _ hx => hx.rdregWord))))

theorem Chip.Inv.wrregWords {src base i : Nat} {l : List Word} (h : s.Inv) : (wrregWords src base s i l).1.Inv := by
  induction l generalizing s i with
  | nil => exact h
  | cons v l ih => exact .iteFst (ih h.regWrite) h.regWrite

theorem Chip.Inv.wrregCmd {h : HostCmd} (hi : s.Inv) : CmdInv (wrregCmd h s) :=
  .ite hi.answer (.ite (.none) (.ite hi.wrregWords.answer hi.wrregWords.answer))

theorem Chip.Inv.rdmemCmd {c : HostCmd} {flips : List Nat} (h : s.Inv) : CmdInv (rdmemCmd c flips s) := by
  unfold Machine.rdmemCmd
  refine h.noBody ?_
  split
  · exact h.answer
  · split
    · exact h.answer
    · have hr := (h.advanceFill.upset (p := c.arg0.toNat + fld c.arg1 7 0 * 2 ^ 32) (ms := flips.take (fld c.arg1 27 16))).readSpan
        (src := portSrc c.port) (p := c.arg0.toNat + fld c.arg1 7 0 * 2 ^ 32) (n := fld c.arg1 27 16)
      exact .ite hr.answer hr.answer

theorem Chip.Inv.claimCmd {h : HostCmd} (hi : s.Inv) : CmdInv (claimCmd h s) := by
  unfold Machine.claimCmd
  refine (hi.noBody (?_))
  split
  · exact hi.answer
  · refine .ite ?_ ?_
    · exact hi.authRefuse.answer
    · exact .ite hi.bump.clmFlag.answer (.answer (.claimLogic (.ite hi hi.wrF.setSv)))

theorem Chip.Inv.hbeatCmd {h : HostCmd} (hi : s.Inv) : CmdInv (hbeatCmd h s) := by
  unfold Machine.hbeatCmd
  split
  · exact .some hi.h0Heartbeat
  · exact .some hi.heartbeat
  · exact .some hi

theorem Chip.Inv.clmstatCmd {h : HostCmd} (hi : s.Inv) : CmdInv (clmstatCmd h s) := (hi.noBody hi.answer)

theorem Chip.Inv.eventCmd {h : HostCmd} (hi : s.Inv) : CmdInv (eventCmd h s) :=
  (hi.noBody (.ite hi.raise.answer hi.answer))

theorem Chip.Inv.mailCmd {h : HostCmd} (hi : s.Inv) : CmdInv (mailCmd h s) :=
  .ite hi.answer (.ite hi.answer (.some hi.engineMail.draw.frame))

theorem Chip.Inv.pruneMail (h : s.Inv) : (pruneMail s).Inv := h.frame

theorem Chip.Inv.mailDone (h : s.Inv) : (mailDone s).Inv := by
  unfold Machine.mailDone
  split
  · exact h
  · exact h.frame.respond.pruneMail

theorem Chip.Inv.warmCmd {h : HostCmd} (hi : s.Inv) : CmdInv (warmCmd h s) := (hi.noBody (.some hi.fault.frame))

theorem Chip.Inv.warmDone (h : s.Inv) : (warmDone s).Inv := .ite h (h.frame.foldl fun _ _ hx => hx.respond)

theorem Chip.Inv.almreadCmd {h : HostCmd} (hi : s.Inv) : CmdInv (almreadCmd h s) :=
  (hi.noBody (.ite hi.answer hi.answer))

theorem Chip.Inv.syncAlmcnt (h : s.Inv) : (syncAlmcnt s).Inv := h.wr

theorem Chip.Inv.almackCmd {h : HostCmd} (hi : s.Inv) : CmdInv (almackCmd h s) := by
  unfold Machine.almackCmd
  refine (hi.noBody (.ite hi.setAlarm.alarmDirty.syncAlmcnt.answer (?_)))
  split
  · exact hi.answer
  · exact hi.frame.alarmDirty.syncAlmcnt.answer

theorem Chip.Inv.attestCmd {h : HostCmd} (hi : s.Inv) : CmdInv (attestCmd h s) :=
  .ite hi.answer (.ite hi.answer (.some hi.askStart.wr.frame))

theorem Chip.Inv.attestDone (h : s.Inv) : (attestDone s).Inv := by
  unfold Machine.attestDone
  split
  · exact h
  · exact .ite h h.frame.wr.flag.hashRest.respond

theorem Chip.Inv.qreadCmd {h : HostCmd} (hi : s.Inv) : CmdInv (qreadCmd h s) := (hi.noBody (.ite hi.answer hi.answer))

theorem Chip.Inv.flreadCmd {h : HostCmd} (hi : s.Inv) : CmdInv (flreadCmd h s) := (hi.noBody (.ite hi.answer hi.answer))

theorem Chip.Inv.fleraseCmd {h : HostCmd} (hi : s.Inv) : CmdInv (fleraseCmd h s) :=
  (hi.noBody (.ite hi.answer (.ite hi.answer hi.fillMem.answer)))

theorem Chip.Inv.flwriteCmd {h : HostCmd} (hi : s.Inv) : CmdInv (flwriteCmd h s) :=
  .ite hi.answer (.ite hi.answer (.ite hi.answer hi.putBytes.answer))

theorem Chip.Inv.answered {r : Chip × Rsp} (h : r.1.Inv) : CmdInv (answered r) := .some h

theorem Chip.Inv.cstswapCmd {h : HostCmd} (hi : s.Inv) : CmdInv (cstswapCmd h s) := (hi.noBody hi.cstSwapCmd.answered)

/-! ### Ports -/

theorem Chip.Inv.lanSend {portB : Bool} {mac : Nat} {bytes : List Byte} (h : s.Inv) : (lanSend s portB mac bytes).Inv :=
  h.frame

theorem Chip.Inv.hsrSee {portB : Bool} {mac seq : Nat} {hbeat : Bool} (h : s.Inv) : (hsrSee s portB mac seq hbeat).1.Inv :=
  .ite (.bump (.frame (.ite h.lanHeartbeat h))) (.frame (.ite h.lanHeartbeat h))

theorem Chip.Inv.hsrFrame {portB : Bool} {mac seq : Nat} {tagOk alone hbeat : Bool} {bytes : List Byte} {stay : Nat} (h : s.Inv) :
    (hsrFrame s portB mac seq tagOk alone hbeat bytes stay).Inv :=
  .ite h (.ite h.frame.flag (.ite h.frame (.ite h.frame.hsrSee h.frame.hsrSee.lanSend)))

theorem Chip.Inv.queueFrame {f : DevFrame} (h : s.Inv) : (queueFrame s f).Inv :=
  .ite h.bump (.ite h (.ite h.bump h.bump.frame))

theorem Chip.Inv.deviceFrame {port : HostPort} {f : DevFrame} (h : s.Inv) : (deviceFrame s port f).Inv := by
  unfold Machine.deviceFrame
  split
  · exact .ite h (.ite h.hsrSee h.hsrSee.queueFrame)
  · exact .ite h h.takeFrom.respond

theorem Chip.Inv.hsrSupervise (h : s.Inv) : (hsrSupervise s).Inv :=
  .ite h (.ite (.lanSend (.ite h.frame.lanSend h.frame)) (.ite h.frame.lanSend h.frame))

theorem Chip.Inv.lanLoss {portB : Bool} (h : s.Inv) : (lanLoss s portB).Inv := .ite h h.wrBit.bump.flag.odoInc

theorem Chip.Inv.deliverLan (h : s.Inv) : (deliverLan s).Inv := .ite (h.foldl fun _ _ hx => hx.sendAlarmLan).frame h

theorem Chip.Inv.lanLinkUp {portB : Bool} (h : s.Inv) : (lanLinkUp s portB).Inv := .ite h.wrBit.deliverLan h

theorem Chip.Inv.setLock {x : Bool} (h : s.Inv) : (setLock s x).Inv := .ite h h.wrBit.wrBit.flag

theorem Chip.Inv.setPtp {p : PtpClock} (h : s.Inv) : (setPtp s p).Inv := h.frame

theorem Chip.Inv.servoTake {portB fresh : Bool} {offset : Int} (h : s.Inv) : (servoTake s portB fresh offset).Inv := by
  unfold Machine.servoTake
  refine .ite ?_ ?_
  · exact h.draw.wrBit.wr.noteTrimLimit.setPtp.setLock
  · exact .ite h.draw.wrBit.wr.noteTrimLimit.setPtp.setLock h.draw.wrBit.wr.noteTrimLimit.setPtp

theorem Chip.Inv.ptpSync {portB : Bool} {m : PtpSync} (h : s.Inv) : (ptpSync s portB m).Inv := by
  unfold Machine.ptpSync
  refine .ite h ?_
  extract_lets _ s1 _ _ _ _ _
  have hs1 : s1.Inv := by
    unfold s1
    split
    · exact h.setPtp
    · exact h
  exact .ite hs1 (.ite hs1.setPtp hs1.setPtp.servoTake)

theorem Chip.Inv.ptpTimeout (h : s.Inv) : (ptpTimeout s).Inv := h.setPtp.setLock

theorem Chip.Inv.pciePerst (h : s.Inv) : (pciePerst s).Inv := by
  unfold Machine.pciePerst
  extract_lets s1
  have hs1 : s1.Inv := .ite h.linkLost h.dqLinkEnd
  exact { hs1 with regs := hs1.regs.filter _ }

theorem Chip.Inv.h0LinkUp {gen width : Nat} {cfg : List (Nat × Word)} (h : s.Inv) : (h0LinkUp s gen width cfg).Inv :=
  .ite h.wr.frame h

theorem Chip.Inv.ringSubmit {src : Nat} {images : List (List Byte)} (h : s.Inv) : (ringSubmit s src images).Inv :=
  .ite h (h.foldl fun _ _ hx => hx.putHost)

theorem Chip.Inv.usbAttach {attach configured highSpeed : Bool} (h : s.Inv) : (usbAttach s attach configured highSpeed).Inv := by
  unfold Machine.usbAttach
  refine .ite h.usbDetach ?_
  refine .ite h ?_
  extract_lets _ _ s2 _ _
  have hs2 : s2.Inv := .ite h.wr h.wr.flag
  exact .ite (hs2.foldl fun _ _ hx => hx.sendAlarmUsb).frame hs2

theorem Chip.Inv.usbVbus {on : Bool} (h : s.Inv) : (usbVbus s on).Inv :=
  .ite h.frame (.ite h.frame.askStart h.frame.usbDetach.gateIsland)

theorem Chip.Inv.tapLoad {c : TapCode} (h : s.Inv) : (tapLoad s c).Inv := h.frame

theorem Chip.Inv.tapClose (h : s.Inv) : (tapClose s).Inv := .ite h.frame h

theorem Chip.Inv.bar4Write (h : s.Inv) : (bar4Write s).Inv := .ite h.bump h

theorem Chip.Inv.journalWrite (h : s.Inv) : (journalWrite s).Inv := .ite h.countGate h

/-! ### Access -/

theorem Chip.Inv.answerWrite {src a : Nat} {v : Word} {r : Chip × WrRes} (h : r.1.Inv) : (answerWrite src a v r).Inv := by
  unfold Machine.answerWrite
  split
  · exact h.accessError
  · exact h.accessError
  · exact h.holdWrite
  · exact h

theorem Chip.Inv.regCmd {who : Agent} {a : Nat} {v : Word} (h : s.Inv) : (regCmd s who a v).Inv :=
  h.regWrite.answerWrite

theorem Chip.Inv.onCmd {who : Agent} {a : Nat} {on : Bool} (h : s.Inv) : (onCmd s who a on).Inv := h.regCmd

theorem Chip.Inv.portCmd {p a : Nat} {v : Word} {more : Bool} (h : s.Inv) : (portCmd s p a v more).Inv :=
  h.regWrite.answerWrite

theorem Chip.Inv.p3Write {who : Agent} {mac sid : Nat} {form : P3Form} (h : s.Inv) : (p3Write s who mac sid form).Inv :=
  .ite h.dropCapture.p3Enqueue h

theorem Chip.Inv.fetchBytes {src a : Nat} {bs : List Byte} {flips : List Nat} (h : s.Inv) : (fetchBytes s src a bs flips).1.Inv :=
  h.upset.readSpan

theorem Chip.Inv.evictLine {c : Nat} (h : s.Inv) : (evictLine c s).Inv := by
  unfold Machine.evictLine
  refine .ite h ?_
  extract_lets
  split
  · exact h.draw.frame
  · exact h

theorem Chip.Inv.putLines {c a : Nat} {bs : List Byte} (h : s.Inv) : (putLines s c a bs).Inv := h.frame

theorem Chip.Inv.cacheFill {c a : Nat} {bs : List Byte} (h : s.Inv) : (cacheFill s c a bs).Inv :=
  (h.putLines.foldl fun _ _ hx => hx.evictLine)

theorem Chip.Inv.dropLines {c a n : Nat} (h : s.Inv) : (dropLines s c a n).Inv := h.frame

theorem Chip.Inv.cacheRead {core a : Nat} {bs : List Byte} {flips : List Nat} {use : CacheUse} (h : s.Inv) :
    (cacheRead s core a bs flips use).1.Inv := by
  unfold Machine.cacheRead
  extract_lets
  split
  · refine .iteFst (.iteFst h.fetchBytes h.fetchBytes.cacheFill) ?_
    refine .iteFst ?_ ?_
    · exact .iteFst h.bump.odoInc.dropLines.fetchBytes h.bump.odoInc.dropLines.fetchBytes.cacheFill
    · exact h
  · exact .iteFst h.fetchBytes h.fetchBytes.cacheFill
  · exact .iteFst h.bump.odoInc.dropLines.fetchBytes h.bump.odoInc.dropLines.fetchBytes.cacheFill

theorem Chip.Inv.answerRead {src : Nat} {r : Chip × List Byte × Nat} (h : r.1.Inv) : (answerRead src r).Inv :=
  .ite (.ite h.readError (.ite h.returnData.poison h.accessError.returnData)) h.returnData

theorem Chip.Inv.memAccess {src a n : Nat} {flips : List Nat} {use : CacheUse} (h : s.Inv) : (memAccess s src a n flips use).Inv := by
  unfold Machine.memAccess
  extract_lets s1 _ _ r
  have hs1 : s1.Inv := h.advanceFill
  have hr : r.1.Inv := .iteFst hs1.cacheRead hs1.fetchBytes
  exact .ite h.readError (.ite hr.fetchFault hr.answerRead)

theorem Chip.Inv.storeAccess {src a : Nat} {w : Width} {flips : List Nat} (h : s.Inv) : (storeAccess s src a w flips).Inv := by
  unfold Machine.storeAccess
  refine .ite h.readError ?_
  split
  · exact h.upset.readEntry
  · exact h.upset.readEntry
  · exact h.upset.lookBytes.dropCapture.returnData

theorem Chip.Inv.regAccess {src a : Nat} {w : Width} {flips : List Nat} (h : s.Inv) : (regAccess s src a w flips).Inv := by
  unfold Machine.regAccess
  extract_lets r
  have hr : r.2.Inv := h.readReg
  split
  · exact .ite h.takeRead hr.upsetPlace.readCoded.answerRead
  · exact h.readError

theorem Chip.Inv.localRead {who : Agent} {a : Nat} {w : Width} {flips : List Nat} {use : CacheUse} (h : s.Inv) :
    (localRead s who a w flips use).Inv :=
  .ite h.regAccess (.ite h (.ite h.commitDue.storeAccess h.memAccess))

theorem Chip.Inv.cacheStore {c a : Nat} {bs : List Byte} (h : s.Inv) : (cacheStore s c a bs).Inv :=
  .foldl h fun _ _ hx => .ite hx.putLines hx

theorem Chip.Inv.dramStore {c a : Nat} {bs : List Byte} {flips : List Nat} (h : s.Inv) : (dramStore s c a bs flips).Inv :=
  .ite h.upset.memWrite.cacheStore h.upset.memWrite.accessError

theorem Chip.Inv.coreStore {c a : Nat} {bs : List Byte} {flips : List Nat} (h : s.Inv) : (coreStore s c a bs flips).Inv := by
  unfold Machine.coreStore
  refine .ite h ?_
  refine .ite ?_ ?_
  · exact h.agentWrite
  · exact .ite h.dramStore (.ite h.writeBytes (.ite (.ite h.holdStall h.writeBytes) h.accessError))

theorem Chip.Inv.storeStore {who : Agent} {a : Nat} {w : Width} {v hi : Word} (h : s.Inv) : (storeStore s who a w v hi).Inv :=
  .ite h.accessError h.p3Write

theorem Chip.Inv.localWrite {who : Agent} {a : Nat} {w : Width} {v hi : Word} {flips : List Nat} {more : Bool} (h : s.Inv) :
    (localWrite s who a w v hi flips more).Inv := by
  unfold Machine.localWrite
  refine .ite ?_ ?_
  · split
    · exact h.regWrite.answerWrite
    · exact h.accessError
  · refine .ite h ?_
    refine .ite ?_ ?_
    · exact h.storeStore
    · exact .ite h.coreStore (.ite h.journalWrite (.ite h.bar4Write h.accessError))

/-! ### Settle -/

theorem Chip.Inv.recAll {n : Nat} (h : s.Inv) : (recAll s n).1.Inv := by
  induction n generalizing s with
  | zero => exact h.frame
  | succ n ih => exact .iteFst h (ih h.frame.recNotes)

theorem Chip.Inv.eventVectors {e : Nat} (h : s.Inv) : (eventVectors s e).Inv :=
  .foldl (.ite h.signal h) fun _ _ hx => .ite hx.signal hx

theorem Chip.Inv.react (h : s.Inv) : (react s).Inv :=
  .ite h.recAll (h.recAll.foldl fun _ _ hx => hx.eventVectors).arriveRaises

theorem Chip.Inv.reactAll {n : Nat} (h : s.Inv) : (reactAll s n).Inv := by
  induction n generalizing s with
  | zero => exact h
  | succ n ih => exact .ite h (ih h.react)

theorem Chip.Inv.settle (h : s.Inv) : (settle s).Inv := by
  unfold Machine.settle
  extract_lets s1
  have hs1 : s1.Inv := h.unknownDone.drainBuffer.reactAll
  split
  · exact hs1
  · exact hs1.coldAction

theorem Chip.Inv.booksTick (h : s.Inv) : (booksTick s).Inv := h.frame

theorem Chip.Inv.timeTick {fabSec fabNs : Nat} (h : s.Inv) : (timeTick s fabSec fabNs).Inv :=
  h.advanceTick.booksTick.applyShadow.applyMode.applyTrim.recordFab

theorem Chip.Inv.engineTick (h : s.Inv) : (engineTick s).Inv := (h.foldl fun _ _ hx => hx.wrF).frame

theorem Chip.Inv.tickBoundary {fabSec fabNs : Nat} {busy : List Nat} (h : s.Inv) : (tickBoundary s fabSec fabNs busy).Inv := by
  unfold Machine.tickBoundary
  extract_lets s1 s2 s3
  have hs1 : s1.Inv := h.odoEdge.ringTickEnd.recBoundary.timeTick.redTick
  have hs2 : s2.Inv := hs1.applyStoreShadow.engineTick.swapBoundary.syncRise
  have hs3 : s3.Inv := hs2.startCoach.pwmRelease
  exact .ite h (hs3.foldl fun _ _ hx => hx.adcBoundary).fbBoundaries.syncSeatPend

end Sys2Proof.Machine
end

section
/-!
PROOFS of the scope. The forms of the Poermun's state through the commands, a step and reset.
-/

namespace Sys2Proof.Machine

/-- Every next state of the outcome has the forms. -/
def NextInv (o : Host.Outcome State Fault Refusal) : Prop := ∀ t, o = .next t → t.chip.Inv

theorem NextInv.finish {st : State} {f : Chip → Chip} (h : (f st.chip).Inv) : NextInv (finish st f) := by
  intro t e
  cases e
  exact h.settle

/-- Every command of the table keeps the forms. -/
theorem exec_inv (c : Instr) {st : State} (h : st.chip.Inv) : NextInv (exec c st) := by
  unfold exec
  cases c with
  | porstLRising => exact .finish h.frame.tapClose.porstRising
  | porstLLow => exact .finish h.porstLow
  | refclkFault => exact .finish h.refclkFault
  | vddAonLow => exact .finish h.vddAonLow
  | vddAonRecovered => exact .finish h.vddAonRecovered
  | vmon => exact .finish h.vmon
  | therm => exact .finish h.therm
  | thermsd => exact .finish h.thermsd
  | coldResetHoldEnd => exact .finish h.holdEnd
  | pllLocked => exact .finish h.pllLocked
  | pllLockLost => exact .finish h.pllLost
  | zeroFillDone => exact .finish h.zeroFillDone
  | dramTrainingDone => exact .finish h.dramTrained
  | mramReadable => exact .finish h.mramReadable
  | manifestCheck => exact .finish h.manifestCheck
  | imageLoadDone => exact .finish h.imageLoadDone
  | consistVerified => exact .finish h.consistVerified
  | consistLoad => exact .finish h.consistLoad
  | bootDone => exact .finish h.bootDone
  | tickBoundary => exact .finish h.tickBoundary
  | syncOutPulseEnd => exact .finish h.syncFall
  | readSysTicklo => exact .finish h.localRead
  | readSysFabtlo => exact .finish h.localRead
  | readLowWordCapture => exact .finish h.localRead
  | storeValueRead => exact .finish (.ite h h.commitDue.upset.readEntry)
  | p3QueueWrite => exact .finish h.p3Write
  | p3ArbiterTake => exact .finish h.p3Arbiter
  | bar2JournalWrite => exact .finish h.journalWrite
  | sigClrPeakclr => exact .finish h.regCmd
  | tileCommitPoint => exact .finish (.ite h.tileCommitPoint h)
  | slotEvaluation => exact .finish (.ite h.evalNext h)
  | resultCommit => exact .finish h.resultCommit
  | slotShWrite => exact .finish (.ite h h.regCmd)
  | slotLvWrite => exact .finish (.ite h h.regCmd)
  | slotCsWrite => exact .finish (.ite h h.regCmd)
  | slotEnable => exact .finish (.ite h.regCmd h)
  | slotDisable => exact .finish (.ite h h.regCmd)
  | flagclr => exact .finish h.regCmd
  | injStart => exact .finish h.regCmd
  | injStop => exact .finish h.regCmd
  | capArm => exact .finish h.regCmd
  | capStop => exact .finish h.regCmd
  | compartmentReturn => exact .finish (.ite h.compartmentReturn h)
  | coachHeaderReturn => exact .finish (.ite h.headerReturn h)
  | landing => exact .finish (.ite h.landCoach.islLand h)
  | coachCut => exact .finish (.ite h.coachCut.syncSeatPend h)
  | mailWindow => exact .finish h.sendEnum.mailWindow.syncSeatPend
  | mailRetransmit => exact .finish h.sendEnum.resendOldest.syncSeatPend
  | uplinkFrame => exact .finish (.ite h.uplinkFrame.syncSeatPend.pruneMail h)
  | mtxtailWrite => exact .finish h.regCmd
  | surveyRoundStart => exact .finish (.ite h.sendEnum.sendAgain h)
  | enumReturn => exact .finish h.enumReturn.sendToEntrants.syncSeatPend
  | delayReturn => exact .finish h.delayReturn.syncSeatPend
  | rxBlockLockLoss => exact .finish h.lockLost
  | breakHeal => exact .finish h.healBreak
  | nctlReadmit => exact .finish h.regCmd
  | nctlExclude => exact .finish h.regCmd
  | canFrameValid => exact .finish h.canReceive
  | canTxreq => exact .finish h.regCmd
  | canTxabort => exact .finish h.regCmd
  | canRelease => exact .finish (.ite h.atPhase.commitDue.canRelease h)
  | canWindowExpiry => exact .finish h.canExpire
  | canFrameEnd => exact .finish h.canFrameEnd
  | canBusError => exact .finish h.canBusError
  | busoffRecovery => exact .finish h.canRecovered
  | canRecover => exact .finish h.regCmd
  | canOnWrite => exact .finish h.onCmd
  | fbEdgeAccepted => exact .finish h.fbEdge
  | fbSample => exact .finish h.fbSample
  | serialWordDecode => exact .finish h.serialWord
  | comparePulseEnd => exact .finish h.pulseEnd
  | cmpvalWrite => exact .finish h.regCmd
  | fbOnWrite => exact .finish h.onCmd
  | syncEntryStart => exact .finish h.syncStart
  | adcEntryEnd => exact .finish h.entryEnd
  | adcEntryResult => exact .finish h.entryWrite
  | refbad => exact .finish h.refBad
  | adcOnWrite => exact .finish h.onCmd
  | adcGo => exact .finish h.regCmd
  | pwmPeriodStart => exact .finish h.pwmPeriod
  | pwmOnWrite => exact .finish h.onCmd
  | reductionWindowEnd => exact .finish h.windowEnd
  | setEnable => exact .finish h.onCmd
  | setArm => exact .finish h.regCmd
  | setRelease => exact .finish h.regCmd
  | setStop => exact .finish h.regCmd
  | setTrig => exact .finish h.regCmd
  | trgArm => exact .finish h.regCmd
  | trgDisarm => exact .finish h.regCmd
  | trgFire => exact .finish h.regCmd
  | triggerRearm => exact .finish h.rearmUnit
  | eventRaise => exact .finish h.raise
  | pendingCart => exact .finish (.ite h h.dspCycle)
  | postctl => exact .finish h.portCmd
  | postStallRelease => exact .finish (.ite h h.dspCycle)
  | take => exact .finish (.ite h h.takeRead)
  | done => exact .finish h.portCmd
  | cancel => exact .finish h.portCmd
  | evraise => exact .finish h.portCmd
  | stepctl => exact .finish h.portCmd
  | stepTimerFire => exact .finish h.stepFire
  | stepWaitCart => exact .finish (.ite h.dspCycle h)
  | deferredDue => exact .finish h.deferredDue
  | jcommit => exact .finish h.portCmd
  | jcommitComplete => exact .finish h.jcommitEnd
  | watchdogExpiry => exact .finish h.wdExpiry
  | wdkick => exact .finish h.portCmd
  | coreStopTimeout => exact .finish h.coreStopTimeout
  | sramScrubRead => exact .finish h.sramScrub
  | scrubWriteback => exact .finish h.scrubWriteback
  | dramScrubRead => exact .finish h.dramScrub
  | dramTempRead => exact .finish h.dramTemp
  | fillGo => exact .finish h.regCmd
  | fillDone => exact .finish h.fillEnd
  | memSinitWrite => exact .finish h.regCmd
  | hfracAdvance => exact .finish h.hfracAdvance
  | histogramSample => exact .finish h.histSample
  | extremeCheck => exact .finish h.extremeCheck
  | snapshotCapture => exact .finish h.snapCapture
  | snapshotWriteDone => exact .finish h.snapWriteDone
  | odoSnap => exact .finish h.regCmd
  | odoClr => exact .finish h.regCmd
  | clearApply => exact .finish h.clearApply
  | islandRelease => exact .finish h.islRelease
  | islandSample => exact .finish h.islSample.maintFollow
  | tpPulseStart => exact .finish h.tpStart
  | tpPulseCheck => exact .finish h.tpCheck
  | tpPulseEnd => exact .finish h.tpEnd
  | soOffPulseStart => exact .finish h.offStart
  | soOffPulseCheck => exact .finish h.offCheck
  | soOffPulseEnd => exact .finish h.offEnd
  | ruleEvaluation => exact .finish h.evalRules
  | islandOutputUpdate => exact .finish h.islOutputs
  | ruleDelayExpiry => exact .finish h.delayExpiry
  | discrepancyExpiry => exact .finish h.discExpiry
  | nodeFreshTimeout => exact .finish h.freshTimeout
  | lockstep => exact .finish h.islFault
  | clockFault => exact .finish h.islFault
  | vsafe => exact .finish h.vsafe.maintFollow
  | degtime => exact .finish h.degTime
  | safAck => exact .finish h.regCmd
  | pciePerst => exact .finish h.pciePerst
  | h0LinkLoss => exact .finish (.ite h.linkLost h)
  | bar4Write => exact .finish h.bar4Write
  | hpcCqtail => exact .finish h.ringSubmit.regCmd
  | ping => exact .finish (h.hostRun (fun _ hx => hx.pingCmd))
  | rdsig => exact .finish (h.hostRun (fun _ hx => hx.rdsigCmd))
  | wrsig => exact .finish (h.hostRun (fun _ hx => hx.wrsigCmd))
  | rdreg => exact .finish (h.hostRun (fun _ hx => hx.rdregCmd))
  | wrreg => exact .finish (h.hostRun (fun _ hx => hx.wrregCmd))
  | rdmem => exact .finish (h.hostRun (fun _ hx => hx.rdmemCmd))
  | claim => exact .finish (h.hostRun (fun _ hx => hx.claimCmd))
  | hbeat => exact .finish (h.hostRun (fun _ hx => hx.hbeatCmd))
  | clmstat => exact .finish (h.hostRun (fun _ hx => hx.clmstatCmd))
  | event => exact .finish (h.hostRun (fun _ hx => hx.eventCmd))
  | mail => exact .finish (h.hostRun (fun _ hx => hx.mailCmd))
  | mailResponse => exact .finish h.mailDone
  | warm => exact .finish (h.hostRun (fun _ hx => hx.warmCmd))
  | almread => exact .finish (h.hostRun (fun _ hx => hx.almreadCmd))
  | almack => exact .finish (h.hostRun (fun _ hx => hx.almackCmd))
  | attest => exact .finish (h.hostRun (fun _ hx => hx.attestCmd))
  | attestDone => exact .finish h.attestDone
  | qread => exact .finish (h.hostRun (fun _ hx => hx.qreadCmd))
  | cststage => exact .finish (h.hostRun (fun _ hx => hx.cstStageCmd.answered))
  | stageVerifyDone => exact .finish h.stageVerifyDone.syncSeatPend
  | cstswap => exact .finish (h.hostRun (fun _ hx => hx.cstswapCmd))
  | cstpatch => exact .finish (h.hostRun (fun _ hx => hx.cstPatchCmd.answered))
  | patchApply => exact .finish h.patchApply
  | flread => exact .finish (h.hostRun (fun _ hx => hx.flreadCmd))
  | flerase => exact .finish (h.hostRun (fun _ hx => hx.fleraseCmd))
  | flwrite => exact .finish (h.hostRun (fun _ hx => hx.flwriteCmd))
  | deviceFrame => exact .finish h.frame.deviceFrame
  | hsrFrame => exact .finish h.hsrFrame
  | hsrSupervision => exact .finish h.hsrSupervise
  | toolLanLinkLoss => exact .finish h.lanLoss
  | ptpSync => exact .finish h.ptpSync
  | ptpSyncTimeout => exact .finish h.ptpTimeout
  | usbAttach => exact .finish h.usbAttach
  | dqTail => exact .finish h.regCmd
  | descriptorEnd => exact .finish h.descriptorEnd
  | completionTimeout => exact .finish h.completionTimeout
  | dqEnable => exact .finish h.onCmd
  | clmHb => exact .finish h.regCmd
  | pathTimeout => exact .finish h.pathTimeout
  | holdExpiry => exact .finish h.holdExpiry
  | almraise => exact .finish h.regCmd
  | arbCommit => exact .finish h.regCmd
  | fuseJtagclose => exact .finish h.regCmd
  | vsupSample => exact .finish h.vsupSample
  | stageLeave => exact .finish h.stageLeave
  | journalSealDone => exact .finish h.sealDone
  | warmL => exact .finish h.warmPin
  | sysRstreq => exact .finish h.regCmd
  | warmRestartStart => exact .finish h.warmStart
  | coreReset => exact .finish h.coreReset
  | restartReloadDone => exact .finish h.reloadDone
  | engineResume => exact .finish (.ite h.engineResume.syncSeatPend.warmDone h.engineResume)
  | rstlate => exact .finish h.rstLate
  | sysFack => exact .finish h.regCmd
  | governorSlot => exact .finish h.governorSlot
  | islandPowerGood => exact .finish h.islandPowerGood
  | ledgerCheck => exact .finish h.ledgerCheck
  | ldgSnap => exact .finish h.regCmd
  | registerWrite => exact .finish h.localWrite
  | refbadClear => exact .finish h.refClear
  | thermRearm => exact .finish h.thermRearm
  | rxBlockLockRegained => exact .finish h.lockRegained
  | tlnLinkUp => exact .finish h.lanLinkUp
  | h0LinkUp => exact .finish h.h0LinkUp
  | usbVbusChange => exact .finish h.usbVbus
  | tapInstruction => exact .finish h.tapLoad
  | memue => exact .finish h.islFault
  | selfTestDone => exact .finish h.selfTestDone
  | vwarnChange => exact .finish h.vwarn
  | canBusIntegration => exact .finish h.canJoin
  | canStartOfFrame => exact .finish h.canStartFrame

theorem step_inv {s : State} (h : s.chip.Inv) : NextInv (step s) := by
  obtain ⟨chip, pending⟩ := s
  cases pending with
  | nil =>
    intro t e
    cases e
    exact h
  | cons c rest => exact exec_inv c h

theorem reset_inv : Chip.reset.Inv := ⟨rfl, ⟨by decide, by decide⟩, rfl, rfl⟩

theorem reset_coldOf : ColdOf Chip.reset Chip.reset := ⟨fun _ => rfl, rfl, rfl, rfl, rfl, rfl, fun _ _ => rfl⟩

theorem reset_still : Still Chip.reset := ⟨rfl, rfl, rfl, rfl, rfl⟩

/-- Settles O4: a step is a command or idles, and every command keeps the forms; the state after reset computes. -/
theorem resetStateIsCold : Obligations.ResetStateIsCold :=
  ⟨fun _ t h e => step_inv h t e, rfl, reset_coldOf, reset_still, reset_inv, rfl⟩

end Sys2Proof.Machine
end

section
/-!
PROOFS of 01 to 03. When nothing is left of a command: what `Still` reads of the Poermun, and folds that leave a part of it alone.
-/

namespace Sys2Proof.Machine

/-- What each step of a fold over the Poermun leaves alone, the fold leaves alone. -/
theorem foldl_keeps {α β : Type} (π : Chip → β) {f : Chip → α → Chip} (h : ∀ x a, π (f x a) = π x) (l : List α) (s : Chip) :
    π (l.foldl f s) = π s :=
  List.foldlRecOn (motive := fun x => π x = π s) _ _ rfl fun x hx a _ => (h x a).trans hx

/-- The registers that tell what stands at the head of a host port's queue (16 R738). -/
def headRegs : List Nat :=
  [Reg.hpcStat, Reg.hpcCqctl, Reg.hpcCqhead, Reg.hpcCqtail, Reg.hpcCqbaselo, Reg.hpcCqbasehi, Reg.hpcRqhead, Reg.hpcRqtail, Reg.sysStat]

/-- Of the store, the head of a host port's queue depends on the P3 queues alone. -/
theorem headUnknown_setStore (s : Chip) {x : Store} (h : x.p3q = s.store.p3q) (p : HostPort) :
    headUnknown { s with store := x } p = headUnknown s p := by
  have hp : h0Posted { s with store := x } = h0Posted s := by simp [h0Posted, h]
  have hready : h0Ready { s with store := x } = h0Ready s := by
    unfold h0Ready
    rw [hp]
    rfl
  unfold headUnknown
  rw [hready]
  rfl

/-- Nothing is left of a command where nothing was and what `Still` reads stands. -/
theorem Still.congr {s t : Chip} (h : Still s) (hn : t.notes = s.notes) (hb : t.recd.buf = s.recd.buf)
    (hc : t.books.cold = s.books.cold) (hm : t.hostMem = s.hostMem) (hq : t.store.p3q = s.store.p3q) (hh : t.hst = s.hst)
    (hr : ∀ a ∈ headRegs, t.rd a = s.rd a) : Still t := by
  have hu : ∀ p, headUnknown t p = headUnknown s p := fun p => by
    rw [← headUnknown_setStore t hq.symm p]
    exact headUnknown_congr p hm rfl (by simp [hh]) hr
  obtain ⟨sn, sb, sc, sh, st⟩ := h
  exact ⟨hn.trans sn, hb.trans sb, hc.trans sc, (hu _).trans sh, (hu _).trans st⟩

theorem Still.setTime {s : Chip} (h : Still s) (t : TimeBase) (p : Pins) : Still { s with tb := t, pins := p } :=
  h.congr rfl rfl rfl rfl rfl rfl fun _ _ => rfl

theorem Still.setEwn {s : Chip} (h : Still s) (e : Ewene) : Still { s with ewn := e } :=
  h.congr rfl rfl rfl rfl rfl rfl fun _ _ => rfl

theorem Still.setEng {s : Chip} (h : Still s) (e : Engine) : Still { s with eng := e } :=
  h.congr rfl rfl rfl rfl rfl rfl fun _ _ => rfl

end Sys2Proof.Machine
end

section
/-!
PROOFS of the timebase (01). What the books of the tick that ends leave of it, the shadow, the mode, the trim and SYNC_OUT at a boundary.
-/

namespace Sys2Proof.Machine

/-! ### What the books of the tick that ends leave of the timebase -/

theorem startBreak_tb (s : Chip) : (startBreak s).tb = s.tb := by
  unfold startBreak
  split
  · rfl
  · simp [Chip.ewnFlag2]

theorem ringTickEnd_tb (s : Chip) : (ringTickEnd s).tb = s.tb := by
  unfold ringTickEnd
  dsimp only
  split
  · rw [startBreak_tb]; rfl
  · rfl

theorem signalTimes_tb (s : Chip) (v n : Nat) : (signalTimes s v n).tb = s.tb := by
  induction n generalizing s with
  | zero => rfl
  | succ n ih => exact ih _

theorem streamWriteback_tb (s : Chip) (i : Nat) : (streamWriteback s i).tb = s.tb := by
  unfold streamWriteback
  dsimp only
  split
  · rfl
  · exact signalTimes_tb ..

theorem recBoundary_tb (s : Chip) : (recBoundary s).tb = s.tb := by
  unfold recBoundary
  extract_lets s1 r1 s2 r2 s3 s4
  calc _ = s4.tb := foldl_keeps Chip.tb (fun _ _ => by rfl) allUnits s4
    _ = s3.tb := foldl_keeps Chip.tb (fun x u => by split <;> rfl) allUnits s3
    _ = s1.tb := rfl
    _ = s.tb := foldl_keeps Chip.tb streamWriteback_tb _ _

/-! ### The shadow and the mode -/

theorem noteTrimLimit_tb (s : Chip) (t : Int) : (noteTrimLimit s t).tb = s.tb := by
  unfold noteTrimLimit
  split <;> rfl

theorem applyShadowOne_tb (s : Chip) (a : Nat) (v : Word) (mask : Nat) : (applyShadowOne s a v mask).tb = s.tb := by
  unfold applyShadowOne
  split
  · exact noteTrimLimit_tb ..
  · rfl

theorem applyShadow_tb (s : Chip) : (applyShadow s).tb = s.tb :=
  foldl_keeps Chip.tb (fun x _ => applyShadowOne_tb x ..) _ s

/-- The fault of a fall to coarse mode is a NOTE (17 R797): it only enters the queue. -/
theorem fault_coarse (s : Chip) : s.fault 0x28 0 = enterFault s 0x28 0 true := rfl

theorem applyMode_tb (s : Chip) : (applyMode s).tb = s.tb := by
  unfold applyMode
  dsimp only
  split
  · rfl
  · split
    · rfl
    · simp [fault_coarse]

theorem applyMode_shadow (s : Chip) : (applyMode s).shadow = s.shadow := by
  unfold applyMode
  dsimp only
  split
  · rfl
  · split
    · rfl
    · simp [fault_coarse]

/-- At a boundary FINE in force follows the lock (01 R31, R32). -/
theorem applyMode_fine (s : Chip) : (applyMode s).fine = s.tb.pllLocked := by
  unfold applyMode Chip.fine
  dsimp only
  split
  · next h => simpa [Chip.fine] using h
  · have set : ((s.wrBit Reg.sysTbstat 0 s.tb.pllLocked).rdBit Reg.sysTbstat 0) = s.tb.pllLocked :=
      s.rdBit_wrBit_self _ _ (by decide)
    split
    · exact set
    · rw [fault_coarse, Chip.rdBit, enterFault_rd_ne _ _ _ _ (by decide), Chip.odoInc_rd_ne _ _ _ (by decide)]
      refine Eq.trans ?_ set
      exact Chip.rdBit_wrBit_bit _ _ _ (by decide) (by decide)


/-! ### The trim -/

/-- The sign the accumulator goes by: a trim of 0 has that of the last (01 R44). -/
def trimSign (s : Chip) : Bool := if s32 (s.rd Reg.sysTbtrimeff) = 0 then s.tb.trimNeg else decide (s32 (s.rd Reg.sysTbtrimeff) < 0)

/-- What the accumulator comes to at a boundary, before it gives up 100,000 (01 R43, R44). -/
def trimSum (s : Chip) : Nat := (if trimSign s == s.tb.trimNeg then s.tb.trimAcc else 0) + (s32 (s.rd Reg.sysTbtrimeff)).natAbs

theorem accumulateTrim_below {s : Chip} (h : trimSum s < 100000) :
    accumulateTrim s = { s with tb := { s.tb with trimAcc := trimSum s, trimNeg := trimSign s, tickLen := 10000 } } :=
  if_neg (Nat.not_le.2 h)

theorem accumulateTrim_full {s : Chip} (h : 100000 ≤ trimSum s) :
    accumulateTrim s = { s with tb := { s.tb with
      trimAcc := trimSum s - 100000
      trimNeg := trimSign s
      tickLen := if s32 (s.rd Reg.sysTbtrimeff) > 0 then 9999 else 10001 } } :=
  if_pos h

theorem applyTrim_fine {s : Chip} (h : s.fine = true) (servo : Int) : applyTrim s servo = accumulateTrim (slewTrim s servo) :=
  if_pos h

theorem applyTrim_coarse {s : Chip} (h : s.fine = false) (servo : Int) :
    applyTrim s servo = { s with tb := { s.tb with tickLen := 10000 } } := by
  simp [applyTrim, h]

/-- The tick of a boundary has 9,999 to 10,001 ns, and TICK and phase stand (01 R43). -/
def TrimmedTick (s t : Chip) : Prop :=
  t.tb.tick = s.tb.tick ∧ t.tb.phase = s.tb.phase ∧ 9999 ≤ t.tb.tickLen ∧ t.tb.tickLen ≤ 10001

theorem TrimmedTick.setTrim (s : Chip) (acc : Nat) (neg : Bool) {len : Nat} (h : 9999 ≤ len) (h' : len ≤ 10001) :
    TrimmedTick s { s with tb := { s.tb with trimAcc := acc, trimNeg := neg, tickLen := len } } :=
  ⟨rfl, rfl, h, h'⟩

theorem TrimmedTick.setFab {s t : Chip} (h : TrimmedTick s t) (tick sec ns : Nat) (valid : Bool) :
    TrimmedTick s { t with tb := { t.tb with fabTick := tick, fabSec := sec, fabNs := ns, fabValid := valid } } := h

theorem accumulateTrim_tick (s : Chip) : TrimmedTick s (accumulateTrim s) := by
  rcases Nat.lt_or_ge (trimSum s) 100000 with h | h
  · rw [accumulateTrim_below h]
    exact .setTrim _ _ _ (by decide) (by decide)
  · rw [accumulateTrim_full h]
    exact .setTrim _ _ _ (by split <;> decide) (by split <;> decide)

theorem applyTrim_tick (s : Chip) (servo : Int) : TrimmedTick s (applyTrim s servo) := by
  cases h : s.fine
  · rw [applyTrim_coarse h]
    exact .setTrim s s.tb.trimAcc s.tb.trimNeg (by decide) (by decide)
  · rw [applyTrim_fine h]
    exact accumulateTrim_tick _

theorem recordFab_tick {s t : Chip} (h : TrimmedTick s t) (sec ns : Nat) : TrimmedTick s (recordFab t sec ns) := by
  unfold recordFab
  split
  · exact h.setFab ..
  · exact h

/-! ### The boundary -/

theorem exec_tickBoundary (st : State) (sec : BitVec 48) (ns : Word) (busy : List Nat) :
    exec (.tickBoundary sec ns busy) st = finish st (fun s => tickBoundary s sec.toNat ns.toNat busy) := rfl

theorem tickBoundary_off {s : Chip} (h : s.boot.on = false) (sec ns : Nat) (busy : List Nat) : tickBoundary s sec ns busy = s := by
  simp [tickBoundary, h]

theorem tickBoundary_on {s : Chip} (h : s.boot.on = true) (sec ns : Nat) (busy : List Nat) :
    tickBoundary s sec ns busy = syncSeatPend (fbBoundaries ((List.range 8).foldl adcBoundary (pwmRelease (startCoach (syncRise
      (swapBoundary (engineTick (applyStoreShadow (redTick (timeTick (recBoundary (ringTickEnd (odoEdge s))) sec ns))))))))) busy) := by
  simp [tickBoundary, h]

/-- Settles O11: the books that close before TICK advances leave the timebase, the shadow and the mode leave TICK and phase, and the
trim chooses the length of the tick. -/
theorem tickBoundaryAdvancesTime : Obligations.TickBoundaryAdvancesTime := by
  unfold Obligations.TickBoundaryAdvancesTime
  intro s sec ns busy
  refine ⟨fun hon => ?_, fun hoff hs => ?_⟩
  · intro w y
    have hbooks : (recBoundary (ringTickEnd (odoEdge s.chip))).tb = s.chip.tb :=
      (recBoundary_tb _).trans (ringTickEnd_tb _)
    have hnew : (booksTick (advanceTick (recBoundary (ringTickEnd (odoEdge s.chip))))).tb = (advanceTick s.chip).tb := by
      simp only [booksTick, advanceTick, hbooks]
    have htb : w.tb = (advanceTick s.chip).tb := (applyMode_tb _).trans ((applyShadow_tb _).trans hnew)
    have hfine : w.fine = s.chip.tb.pllLocked := by
      refine (applyMode_fine _).trans ?_
      rw [applyShadow_tb, hnew]
      rfl
    obtain ⟨htick, hphase, hlen, hlen'⟩ := recordFab_tick (applyTrim_tick w w.hst.ptp.servo) sec.toNat ns.toNat
    refine ⟨?_, ?_, ?_, hfine, ?_, htick, ?_, hlen, hlen'⟩
    · rw [exec_tickBoundary, finish_eq, tickBoundary_on hon, timeTick]
    · rw [htb]; rfl
    · rw [htb]; rfl
    · exact applyMode_shadow _
    · rw [hphase, htb]; rfl
  · rw [exec_tickBoundary, finish_eq, tickBoundary_off hoff, settle_still hs]

end Sys2Proof.Machine
end

section
/-!
PROOFS of the timebase (01). The slew and the accumulator case by case, SLEWING and SYNC_OUT.
-/

namespace Sys2Proof.Machine

/-! ### The slew -/

/-- A word keeps an integer of 32 bits. -/
theorem s32_w32 {x : Int} (h : -2147483648 ≤ x) (h' : x < 2147483648) : s32 (w32 x) = x := by
  unfold s32 w32
  rw [BitVec.toInt_ofInt]
  exact Int.bmod_eq_of_le (by omega) (by omega)

/-- The slew leaves the effective trim one step nearer the target (01 R42). -/
theorem slewTrim_eff {s : Chip} {servo : Int} (hlo : -50000 ≤ trimStep (s32 (s.rd Reg.sysTbtrimeff)) (trimTarget s servo))
    (hhi : trimStep (s32 (s.rd Reg.sysTbtrimeff)) (trimTarget s servo) ≤ 50000) :
    s32 ((slewTrim s servo).rd Reg.sysTbtrimeff) = trimStep (s32 (s.rd Reg.sysTbtrimeff)) (trimTarget s servo) := by
  unfold slewTrim
  rw [Chip.rd_wr_self, s32_w32 (by omega) (by omega)]

theorem accumulateTrim_regs (s : Chip) : (accumulateTrim s).regs = s.regs := by
  rcases Nat.lt_or_ge (trimSum s) 100000 with h | h
  · rw [accumulateTrim_below h]
  · rw [accumulateTrim_full h]

/-- A step of the trim is the target brought within 10 ppb (01 R42). -/
theorem trimStep_bounds (eff target : Int) :
    eff - 10 ≤ trimStep eff target ∧ trimStep eff target ≤ eff + 10 ∧
      (target ≤ eff → target ≤ trimStep eff target ∧ trimStep eff target ≤ eff) ∧
      (eff ≤ target → eff ≤ trimStep eff target ∧ trimStep eff target ≤ target) ∧
      (eff - 10 ≤ target → target ≤ eff + 10 → trimStep eff target = target) := by
  unfold trimStep clampI
  omega

/-- The sign of the accumulator stands exactly when the trim is 0 or has that sign (01 R44). -/
theorem trimSign_same (s : Chip) :
    trimSign s = s.tb.trimNeg ↔ s32 (s.rd Reg.sysTbtrimeff) = 0 ∨ (s32 (s.rd Reg.sysTbtrimeff) < 0 ↔ s.tb.trimNeg = true) := by
  unfold trimSign
  split
  · next h => simp [h]
  · next h => cases s.tb.trimNeg <;> simp [h]

/-- What the accumulator of the Poermun leaves, by what it held (01 R43, R44). -/
theorem accumulateTrim_tb (s : Chip) :
    let eff := s32 (s.rd Reg.sysTbtrimeff)
    let t := accumulateTrim s
    let same := eff = 0 ∨ (eff < 0 ↔ s.tb.trimNeg = true)
    let acc := (if same then s.tb.trimAcc else 0) + eff.natAbs
    (acc < 100000 → t.tb.trimAcc = acc ∧ t.tb.tickLen = 10000) ∧
      (100000 ≤ acc → t.tb.trimAcc = acc - 100000 ∧ (eff > 0 → t.tb.tickLen = 9999) ∧ (eff < 0 → t.tb.tickLen = 10001)) ∧
      t.tb.trimNeg = (if eff = 0 then s.tb.trimNeg else decide (eff < 0)) := by
  intro eff t same acc
  have hsum : trimSum s = acc := by
    simp only [trimSum, acc, same, beq_iff_eq, trimSign_same s, eff]
  refine ⟨fun h => ?_, fun h => ?_, ?_⟩
  · rw [← hsum] at h
    simp [t, accumulateTrim_below h, hsum]
  · rw [← hsum] at h
    simp only [t, accumulateTrim_full h, hsum, true_and]
    exact ⟨fun h => if_pos h, fun h => if_neg (by omega)⟩
  · rcases Nat.lt_or_ge (trimSum s) 100000 with h | h
    · rw [show t = _ from accumulateTrim_below h]; rfl
    · rw [show t = _ from accumulateTrim_full h]; rfl

/-! ### SLEWING and SYNC_OUT -/

/-- SYS_TBSTAT answers every reader, SLEWING as it stands (01 R66). -/
theorem readReg_tbstat (s : Chip) (reader : Nat) :
    (readReg s reader Reg.sysTbstat).1 = some (setBit (s.rd Reg.sysTbstat) 2 (slewing s)) := by
  obtain ⟨r, hp⟩ : ∃ r, placeOf Reg.sysTbstat = some (.reg 0 0 0x118 r) := ⟨_, rfl⟩
  have ha : answersRead s reader Reg.sysTbstat = true := rfl
  simp only [readReg, hp, ha, if_true]
  rfl

theorem syncRise_unarmed {s : Chip} (hb : s.booted = false) (ha : s.tb.syncArmed = false) : syncRise s = s := by
  simp [syncRise, hb, ha]

/-- From the first boundary after BOOT_DONE on, SYNC_OUT is armed and rises while SYNCEN is 1 (01 R35, R36). -/
theorem syncRise_armed {s : Chip} (h : s.booted = true ∨ s.tb.syncArmed = true) :
    syncRise s = 
      let x : Chip := { s with tb := { s.tb with syncArmed := true } }
      if s.rdBit Reg.sysTbctl 2 then { x with pins := { x.pins with syncOut := true }, tb := { x.tb with syncEnd := syncWidth s } } else x := by
  have harm : (if (s.booted && !s.tb.syncArmed) = true then { s with tb := { s.tb with syncArmed := true } } else s) =
      { s with tb := { s.tb with syncArmed := true } } := by
    cases ha : s.tb.syncArmed
    · have hb : s.booted = true := h.resolve_right (by simp [ha])
      simp [hb]
    · simp [← ha]
  unfold syncRise
  rw [harm]
  rfl

theorem syncWidth_eq (s : Chip) :
    syncWidth s = s.rdF Reg.sysTbctl 11 4 * 20 * (if s.rdBit Reg.sysTbctl 3 = true ∧ s.tb.tick % 4096 = 0 then 2 else 1) := by
  unfold syncWidth
  simp only [Bool.and_eq_true, beq_iff_eq]
  split <;> omega

/-- What is left of a command is left whatever the timebase and the pins are. -/
theorem syncFall_high {s : Chip} (h : s.pins.syncOut = true) :
    syncFall s = { s with
      tb := { s.tb with phase := max s.tb.phase (min s.tb.syncEnd s.lastPhase) }
      pins := { s.pins with syncOut := false } } :=
  if_pos h

theorem syncFall_low {s : Chip} (h : ¬ s.pins.syncOut = true) : syncFall s = s := if_neg h

theorem exec_syncOutPulseEnd (st : State) : exec .syncOutPulseEnd st = finish st syncFall := rfl

/-- Settles O12: one step of the slew, then the accumulator's two cases (`accumulateTrim_tb`); SYNC_OUT by its arming and SYNCEN. -/
theorem trimAndSyncOut : Obligations.TrimAndSyncOut := by
  unfold Obligations.TrimAndSyncOut
  refine ⟨?_, ?_, ?_, ?_⟩
  · intro s servo eff target hf he he' ht ht' t eff'
    have hstep := trimStep_bounds eff target
    have heff : s32 ((slewTrim s servo).rd Reg.sysTbtrimeff) = trimStep eff target :=
      slewTrim_eff (by change -50000 ≤ trimStep eff target; omega) (by change trimStep eff target ≤ 50000; omega)
    have ht : t = accumulateTrim (slewTrim s servo) := applyTrim_fine hf servo
    have heff' : eff' = trimStep eff target := by
      rw [← heff, ← Chip.rd_congr (accumulateTrim_regs (slewTrim s servo)), ← ht]
    obtain ⟨h1, h2, h3, h4, h5⟩ := heff' ▸ hstep
    refine ⟨h1, h2, h3, h4, h5, fun _ => ?_⟩
    have key := accumulateTrim_tb (slewTrim s servo)
    rw [heff, ← heff', ← ht] at key
    exact key
  · intro s reader
    refine ⟨⟨_, readReg_tbstat s reader, ?_⟩, fun hc => ?_⟩
    · rw [bit_setBit_self _ _ (by decide)]
      simp [slewing]
    · rw [applyTrim_coarse hc]
      exact ⟨rfl, rfl, rfl⟩
  · intro s
    refine ⟨syncRise_unarmed, fun h => ⟨fun hen => ?_, fun hen => ?_⟩⟩
    · rw [syncRise_armed h, hen]
      rfl
    · rw [syncRise_armed h, hen, syncWidth_eq]
      rfl
  · intro s hs
    rw [exec_syncOutPulseEnd, finish_eq]
    split
    · next h => rw [syncFall_high h, settle_still (hs.setTime _ _)]
    · next h => rw [syncFall_low h, settle_still hs]

end Sys2Proof.Machine
end

section
/-!
PROOFS of returned copies (06, 07). What a compartment copy and a header copy leave, case by case.
-/

namespace Sys2Proof.Machine

/-! ### Compartments -/

/-- The CCRC that a copy should carry (06 R276). -/
def rightCcrc (comp tick : Nat) (b : List Byte) : Nat := crc32c (leBytes 2 comp ++ leBytes 2 (tick % 65536) ++ sliceB b 0 60)

/-- Cause 2 is that of a wrong CCRC alone. -/
theorem copyCause_ccrc (comp tick ttver owner : Nat) (b : List Byte) :
    (copyCause comp tick ttver owner b == 2) = decide (leAt b 60 4 ≠ rightCcrc comp tick b) := by
  unfold copyCause rightCcrc
  split
  · next h => rw [decide_eq_true h]; rfl
  · next h =>
    rw [decide_eq_false h]
    split
    · rfl
    · split <;> rfl

/-- The counter of wrong CCRCs of a ring (07 R337). -/
def crcCounter (ring : Nat) : Nat := if ring = 0 then Reg.ewnCrca else Reg.ewnCrcb

/-- The Poermun with a wrong CCRC of a ring counted (07 R337). -/
def countCcrc (s : Chip) (ring : Nat) (bad : Bool) : Chip := if bad then s.bump (crcCounter ring) else s

theorem countCcrc_counter (s : Chip) (ring : Nat) (bad : Bool) :
    (countCcrc s ring bad).rd (crcCounter ring) = s.rd (crcCounter ring) + (if bad then 1 else 0) := by
  cases bad <;> simp [countCcrc]

theorem countCcrc_keeps (s : Chip) (ring : Nat) (bad : Bool) : KeepsRegsBut [crcCounter ring] s (countCcrc s ring bad) := by
  intro a ha
  cases bad
  · rfl
  · exact s.rd_bump_ne (by simpa using ha)

theorem headRegs_ne_crcCounter {a : Nat} (ring : Nat) (h : a ∈ headRegs) : a ∉ [crcCounter ring] := by
  unfold crcCounter
  split <;> revert a <;> decide

/-- A copy of 64 bytes is held under its key, in place of an earlier one (06 R276). -/
def holdCopy (held : Tab (List Byte)) (k : Nat) (b : List Byte) : Tab (List Byte) := Tab.ins (Tab.erase held k) k b

theorem holdCopy_self (held : Tab (List Byte)) (k : Nat) (b : List Byte) : Tab.get? (holdCopy held k b) k = some b :=
  Tab.get?_ins_erase ..

theorem holdCopy_ne (held : Tab (List Byte)) {k j : Nat} (b : List Byte) (h : j ≠ k) : Tab.get? (holdCopy held k b) j = Tab.get? held j := by
  rw [holdCopy, Tab.get?_ins_ne _ _ h, Tab.get?_erase_ne _ h]

/-- A copy of the previous coach is held until phase 5,000, one of this tick's coach at any phase (01 R49). -/
def copyInTime (s : Chip) (ofPrev : Bool) : Bool := !(ofPrev && decide (5000 < s.tb.phase))

/-- The rings' books with a copy held for the coach that it belongs to. -/
def holdFor (e : Ewene) (ofPrev : Bool) (k : Nat) (b : List Byte) : Ewene :=
  if ofPrev then { e with retPrev := holdCopy e.retPrev k b } else { e with retNow := holdCopy e.retNow k b }

/-- Whether a compartment's copies are landed: those of kinds IN and SAFE-U (06 R276). -/
def landsKind (s : Chip) (comp : Nat) : Prop :=
  (Tab.get ⟨0, 0⟩ s.ewn.comps comp).kind = 2 ∨ (Tab.get ⟨0, 0⟩ s.ewn.comps comp).kind = 4

/-- The coach that a copy is of. -/
def coachOf (s : Chip) (ofPrev : Bool) : Option Coach := if ofPrev then s.ewn.prev else s.ewn.now

theorem compartmentReturn_noCoach {s : Chip} {ofPrev : Bool} (h : coachOf s ofPrev = none) (ring comp : Nat) (b : List Byte) :
    compartmentReturn s ofPrev ring comp b = s := by
  unfold coachOf at h
  simp only [compartmentReturn, h]

theorem compartmentReturn_otherKind {s : Chip} {comp : Nat} (h : ¬ landsKind s comp) (ofPrev : Bool) (ring : Nat) (b : List Byte) :
    compartmentReturn s ofPrev ring comp b = s := by
  unfold compartmentReturn
  dsimp only
  split
  · rfl
  · exact if_pos (not_or.1 h)

/-- What a copy that is landed leaves: its CCRC is judged, and in time it is held. -/
def copyLanded (s : Chip) (ofPrev : Bool) (ring comp tick : Nat) (b : List Byte) : Chip :=
  { s with
    regs := (countCcrc s ring (decide (leAt b 60 4 ≠ rightCcrc comp tick b))).regs
    ewn := if copyInTime s ofPrev then holdFor s.ewn ofPrev (2 * comp + ring) b else s.ewn }

theorem compartmentReturn_lands {s : Chip} {ofPrev : Bool} {comp : Nat} {c : Coach} (hc : coachOf s ofPrev = some c)
    (hk : landsKind s comp) (ring : Nat) (b : List Byte) :
    compartmentReturn s ofPrev ring comp b = copyLanded s ofPrev ring comp c.tick (padTo 64 b) := by
  unfold coachOf at hc
  have hk' : ¬ ((Tab.get ⟨0, 0⟩ s.ewn.comps comp).kind ≠ 2 ∧ (Tab.get ⟨0, 0⟩ s.ewn.comps comp).kind ≠ 4) := by
    unfold landsKind at hk
    omega
  simp only [compartmentReturn, hc, if_neg hk', copyCause_ccrc]
  unfold copyLanded copyInTime
  generalize decide (leAt (padTo 64 b) 60 4 ≠ rightCcrc comp c.tick (padTo 64 b)) = bad
  cases ofPrev
  · cases bad <;> rfl
  · cases decide (5000 < s.tb.phase) <;> cases bad <;> rfl

theorem copyLanded_counter (s : Chip) (ofPrev : Bool) (ring comp tick : Nat) (b : List Byte) :
    (copyLanded s ofPrev ring comp tick b).rd (crcCounter ring) =
      s.rd (crcCounter ring) + (if leAt b 60 4 = rightCcrc comp tick b then 0 else 1) := by
  refine (countCcrc_counter s ring _).trans ?_
  simp only [decide_eq_true_eq, ite_not]

theorem copyLanded_keeps (s : Chip) (ofPrev : Bool) (ring comp tick : Nat) (b : List Byte) :
    KeepsRegsBut [crcCounter ring] s (copyLanded s ofPrev ring comp tick b) := countCcrc_keeps s ring _

/-- What is left of a command is left whatever the rings' books are. -/
theorem copyLanded_still {s : Chip} (h : Still s) (ofPrev : Bool) (ring comp tick : Nat) (b : List Byte) :
    Still (copyLanded s ofPrev ring comp tick b) :=
  h.congr rfl rfl rfl rfl rfl rfl fun _ ha => copyLanded_keeps s _ _ _ _ _ _ (headRegs_ne_crcCounter ring ha)

/-- The copies held for a coach. -/
def heldOf (e : Ewene) (ofPrev : Bool) : Tab (List Byte) := if ofPrev then e.retPrev else e.retNow

theorem holdFor_held (e : Ewene) (ofPrev : Bool) (k : Nat) (b : List Byte) :
    heldOf (holdFor e ofPrev k b) ofPrev = holdCopy (heldOf e ofPrev) k b := by
  cases ofPrev <;> rfl

theorem holdFor_other (e : Ewene) (ofPrev : Bool) (k : Nat) (b : List Byte) : heldOf (holdFor e ofPrev k b) (!ofPrev) = heldOf e (!ofPrev) := by
  cases ofPrev <;> rfl

theorem copyLanded_held (s : Chip) (ofPrev : Bool) (ring comp tick : Nat) (b : List Byte) :
    heldOf (copyLanded s ofPrev ring comp tick b).ewn ofPrev =
      if copyInTime s ofPrev then holdCopy (heldOf s.ewn ofPrev) (2 * comp + ring) b else heldOf s.ewn ofPrev := by
  unfold copyLanded
  split
  · exact holdFor_held ..
  · rfl

theorem copyLanded_other (s : Chip) (ofPrev : Bool) (ring comp tick : Nat) (b : List Byte) :
    heldOf (copyLanded s ofPrev ring comp tick b).ewn (!ofPrev) = heldOf s.ewn (!ofPrev) := by
  unfold copyLanded
  split
  · exact holdFor_other ..
  · rfl

/-- What is held under another key stays. -/
theorem copyLanded_held_ne (s : Chip) (ofPrev : Bool) (ring comp tick : Nat) (b : List Byte) {k : Nat} (h : k ≠ 2 * comp + ring) :
    Tab.get? (heldOf (copyLanded s ofPrev ring comp tick b).ewn ofPrev) k = Tab.get? (heldOf s.ewn ofPrev) k := by
  rw [copyLanded_held]
  split
  · exact holdCopy_ne _ _ h
  · rfl

theorem copyLanded_frame (s : Chip) (ofPrev : Bool) (ring comp tick : Nat) (b : List Byte) :
    copyLanded s ofPrev ring comp tick b = { s with
      regs := (copyLanded s ofPrev ring comp tick b).regs
      ewn := { s.ewn with
        retPrev := (copyLanded s ofPrev ring comp tick b).ewn.retPrev
        retNow := (copyLanded s ofPrev ring comp tick b).ewn.retNow } } := by
  unfold copyLanded holdFor
  cases copyInTime s ofPrev <;> cases ofPrev <;> rfl

theorem exec_compartmentReturn (ofPrev : Bool) (copy : RingCopy) (comp : Nat) (b : List Byte) (st : State) :
    exec (.compartmentReturn ofPrev copy comp b) st = finish st (fun s =>
      if hears s copy.ring.val copy.ownPort then compartmentReturn s ofPrev copy.ring.val comp b else s) := rfl

/-! ### Headers -/

theorem exec_coachHeaderReturn (own : Bool) (b : List Byte) (time : Nat) (st : State) :
    exec (.coachHeaderReturn own b time) st = finish st (fun s =>
      if hears s (b2n (natBit (leAt (padTo 64 b) 1 1) 1)) own then headerReturn s own b time else s) := rfl

/-- A header copy noted in the books of its ring: back, wrapped, and its time (07 R337). -/
def noteHeader (e : Ewene) (ringB back own : Bool) (time : Nat) (trigger : Bool) : Ewene :=
  if ringB then { e with hdrB := e.hdrB || back, wrapB := e.wrapB || !own, retB := (time :: e.retB).take 8, trigger := trigger }
  else { e with hdrA := e.hdrA || back, wrapA := e.wrapA || !own, retA := (time :: e.retA).take 8, trigger := trigger }

theorem noteHeader_ringA (e : Ewene) (back own : Bool) (time : Nat) (trigger : Bool) :
    let e' := noteHeader e false back own time trigger
    e'.hdrA = (e.hdrA || back) ∧ e'.wrapA = (e.wrapA || !own) ∧ e'.retA = (time :: e.retA).take 8 ∧ e'.hdrB = e.hdrB ∧ e'.wrapB = e.wrapB :=
  ⟨rfl, rfl, rfl, rfl, rfl⟩

theorem noteHeader_ringB (e : Ewene) (back own : Bool) (time : Nat) (trigger : Bool) :
    let e' := noteHeader e true back own time trigger
    e'.hdrB = (e.hdrB || back) ∧ e'.wrapB = (e.wrapB || !own) ∧ e'.retB = (time :: e.retB).take 8 ∧ e'.hdrA = e.hdrA ∧ e'.wrapA = e.wrapA :=
  ⟨rfl, rfl, rfl, rfl, rfl⟩

theorem headerReturn_wrong {s : Chip} {b : List Byte} (h : leAt (padTo 64 b) 60 4 ≠ crc32c ((padTo 64 b).take 60)) (own : Bool)
    (time : Nat) : headerReturn s own b time = s.bump Reg.ewnHcrc :=
  if_pos h

/-- A right header is noted, whatever its time tells of the ring's length. -/
theorem headerReturn_right {s : Chip} {b : List Byte} (h : leAt (padTo 64 b) 60 4 = crc32c ((padTo 64 b).take 60)) (own : Bool)
    (time : Nat) :
    let ringB := natBit (leAt (padTo 64 b) 1 1) 1
    let back := s.ewn.now.any (fun c => leAt (padTo 64 b) 4 6 == c.tick)
    ∃ trigger, headerReturn s own b time = { s with ewn := noteHeader s.ewn ringB back own time trigger } := by
  intro ringB back
  refine ⟨(headerReturn s own b time).ewn.trigger, ?_⟩
  unfold headerReturn noteHeader
  dsimp only
  rw [if_neg (not_not.2 h)]
  unfold ringB
  cases natBit (leAt (padTo 64 b) 1 1) 1 <;> rfl

/-- Settles O21: a copy that is landed leaves `copyLanded`, and a header its books (`noteHeader`) or its count; none of them
leaves anything for what follows a command. -/
theorem returnedCopiesAreHeld : Obligations.ReturnedCopiesAreHeld := by
  unfold Obligations.ReturnedCopiesAreHeld
  intro s hs
  refine ⟨fun ofPrev ring own comp b c hh hc => ?_, fun ofPrev ring own comp b hno => ?_, fun own b time => ?_⟩
  · intro cfg counter
    rw [exec_compartmentReturn, finish_eq, if_pos hh]
    refine ⟨fun hk => ?_, fun h2 h4 => ?_⟩
    · rw [compartmentReturn_lands hc hk, settle_still (copyLanded_still hs ..)]
      refine ⟨_, rfl, ?_, ⟨fun ht => ?_, fun hp ht => ?_, ?_, fun k hne => copyLanded_held_ne _ _ _ _ _ _ hne⟩,
        copyLanded_counter .., fun a ha => copyLanded_keeps _ _ _ _ _ _ a ha⟩
      · rw [← copyLanded_frame]
      · have hin : copyInTime s.chip ofPrev = true := by
          rcases ht with rfl | ht
          · rfl
          · simp [copyInTime, Nat.not_lt.2 ht]
        refine (congrArg (Tab.get? · _) (copyLanded_held ..)).trans ?_
        rw [if_pos hin, holdCopy_self]
      · have hin : ¬ copyInTime s.chip ofPrev = true := by simp [copyInTime, hp, ht]
        exact (copyLanded_held ..).trans (if_neg hin)
      · have hother := copyLanded_other s.chip ofPrev ring.val comp c.tick (padTo 64 b)
        cases ofPrev <;> exact hother
    · rw [compartmentReturn_otherKind (not_or.2 ⟨h2, h4⟩), settle_still hs]
  · rw [exec_compartmentReturn, finish_eq]
    rcases hno with hno | hno
    · rw [compartmentReturn_noCoach hno, ite_self, settle_still hs]
    · rw [if_neg (by simp [hno]), settle_still hs]
  · intro ringB
    rw [exec_coachHeaderReturn, finish_eq]
    refine ⟨fun hh => ?_, fun hh => ⟨fun hbad => ?_, fun hgood => ?_⟩⟩
    · rw [if_neg (by simpa using hh), settle_still hs]
    · rw [if_pos hh, headerReturn_wrong hbad, settle_still]
      exact hs.congr rfl rfl rfl rfl rfl rfl fun a ha => Chip.rd_bump_ne _ (by revert a; decide)
    · obtain ⟨trigger, hret⟩ := headerReturn_right (s := s.chip) hgood own time
      rw [if_pos hh, hret, settle_still (hs.setEwn _)]
      refine ⟨_, rfl, rfl, fun hA => ?_, fun hB => ?_⟩
      · rw [show natBit (leAt (padTo 64 b) 1 1) 1 = false from hA]
        exact noteHeader_ringA ..
      · rw [show natBit (leAt (padTo 64 b) 1 1) 1 = true from hB]
        exact noteHeader_ringB ..

end Sys2Proof.Machine
end

section
/-!
PROOFS of the commit point (03). What the tiles' work at phase 2,000 leaves alone: the timebase, the frozen view, the queues and the power of
the other tiles. For each function `f` of the model, `PointKeeps.f` says that `f` leaves these alone, from the lemmas of the functions it calls.
-/

namespace Sys2Proof.Machine

/-- From `s` on, `x` has kept the timebase, the frozen view, the mark of the commit point and the writes that wait, the shadow queues of the
tiles of `p` and the power of the tiles of `q`. -/
structure PointKeeps (p q : Nat → Prop) (s x : Chip) : Prop where
  tb : x.tb = s.tb
  frozen : x.store.frozen = s.store.frozen
  point : x.eng.pointDone = s.eng.pointDone
  waits : x.eng.waits = s.eng.waits
  shq : ∀ k, p k → shq x k = shq s k
  power : ∀ k, q k → tilePowered x k = tilePowered s k

/-- The register is no LTt_STAT: these stand at the start of their tile's registers (03 R169). -/
abbrev NoStat (a : Nat) : Prop := a % 0x100000 ≠ 0x80000

theorem ltStat_ne {a : Nat} (h : NoStat a) (k : Nat) : Reg.ltStat k ≠ a := by
  unfold Reg.ltStat
  omega

/-- A register of a tile's block other than the first. -/
theorem noStat_tile {c : Nat} (h : NoStat c) (t : Nat) : NoStat (c + 0x100000 * t) := by
  unfold NoStat at *
  omega

variable {p q : Nat → Prop} {s x : Chip}

theorem PointKeeps.refl (p q : Nat → Prop) (s : Chip) : PointKeeps p q s s := ⟨rfl, rfl, rfl, rfl, fun _ _ => rfl, fun _ _ => rfl⟩

theorem PointKeeps.ite {a b : Chip} {c : Prop} {_ : Decidable c} (ha : PointKeeps p q s a) (hb : PointKeeps p q s b) :
    PointKeeps p q s (if c then a else b) := by
  split <;> assumption

theorem PointKeeps.iteFst {α : Type} {a b : Chip × α} {c : Prop} {_ : Decidable c} (ha : PointKeeps p q s a.1) (hb : PointKeeps p q s b.1) :
    PointKeeps p q s (if c then a else b).1 := by
  split <;> assumption

theorem PointKeeps.foldl {α : Type} {f : Chip → α → Chip} {l : List α} (h : PointKeeps p q s x)
    (hf : ∀ y a, PointKeeps p q s y → PointKeeps p q s (f y a)) : PointKeeps p q s (l.foldl f x) := by
  induction l generalizing x with
  | nil => exact h
  | cons a l ih => exact ih (hf x a h)

/-- An update that leaves the registers, the timebase, the store and the loop engine alone. -/
theorem PointKeeps.frame {v1 v3 v6 v7 v8 v9 v10 v11 v12 v13 v14 v15 v16 v17 v18 v19 v20 v21 v22 v23 v24 v25 v26 v27}
    (h : PointKeeps p q s x) :
    PointKeeps p q s ⟨x.regs, v1, x.tb, v3, x.store, x.eng, v6, v7, v8, v9, v10, v11, v12, v13, v14, v15, v16, v17, v18, v19, v20, v21,
      v22, v23, v24, v25, v26, v27⟩ :=
  ⟨h.tb, h.frozen, h.point, h.waits, h.shq, h.power⟩

/-- An update of the loop engine that leaves the mark, the waiting writes and the queues alone. -/
theorem PointKeeps.setEng {e : Engine} (h : PointKeeps p q s x) (hp : e.pointDone = x.eng.pointDone) (hw : e.waits = x.eng.waits)
    (hq : e.shq = x.eng.shq) : PointKeeps p q s { x with eng := e } :=
  ⟨h.tb, h.frozen, hp.trans h.point, hw.trans h.waits, fun k hk => (congrArg (Tab.get [] · k) hq).trans (h.shq k hk), h.power⟩

/-! ### Registers and books -/

theorem PointKeeps.wr {a : Nat} {w : Word} (h : PointKeeps p q s x) (ha : NoStat a) : PointKeeps p q s (x.wr a w) := by
  refine ⟨h.tb, h.frozen, h.point, h.waits, h.shq, fun k hk => ?_⟩
  rw [← h.power k hk]
  simp only [tilePowered, Chip.rdBit, Chip.rd_wr_ne _ _ (ltStat_ne ha k)]

theorem PointKeeps.wrF {a hi lo v : Nat} (h : PointKeeps p q s x) (ha : NoStat a) : PointKeeps p q s (x.wrF a hi lo v) := h.wr ha

theorem PointKeeps.wrBit {a b : Nat} {v : Bool} (h : PointKeeps p q s x) (ha : NoStat a) : PointKeeps p q s (x.wrBit a b v) := h.wr ha

theorem PointKeeps.bump {a : Nat} (h : PointKeeps p q s x) (ha : NoStat a) : PointKeeps p q s (x.bump a) := h.wr ha

theorem PointKeeps.flag {evt en b e : Nat} (h : PointKeeps p q s x) (ha : NoStat evt) : PointKeeps p q s (x.flag evt en b e) :=
  .ite (h.wrBit ha).frame (h.wrBit ha)

theorem PointKeeps.odoInc {slot n : Nat} (h : PointKeeps p q s x) : PointKeeps p q s (x.odoInc slot n) :=
  .ite h.frame (h.frame.flag (by decide))

/-! ### Memory -/

theorem PointKeeps.memFlag {e : Nat} (h : PointKeeps p q s x) : PointKeeps p q s (x.memFlag e) := h.flag (by decide)

theorem PointKeeps.noteRead {cls addr src memk : Nat} (h : PointKeeps p q s x) : PointKeeps p q s (noteRead x cls addr src memk) := by
  unfold Machine.noteRead
  extract_lets s1 s2 s3
  have hs3 : PointKeeps p q s s3 :=
    (((PointKeeps.bump h (by split <;> decide)).wr (by decide)).wr (by decide)).memFlag
  exact .ite h (.ite hs3.odoInc (.ite hs3 hs3.odoInc))

theorem PointKeeps.rewriteWord {word : Nat} {xs : List Nat} (h : PointKeeps p q s x) : PointKeeps p q s (rewriteWord x word xs) := by
  unfold Machine.rewriteWord
  extract_lets s0 s1 s2
  have hs0 : PointKeeps p q s s0 := .ite h.frame h
  exact .ite (.ite hs0.frame hs0.frame) (.foldl hs0.frame fun _ _ hy => .ite hy hy.frame)

theorem arrayAt_lt {word a : Nat} (h : arrayAt word = some a) : a < 62 := List.mem_range.1 (List.mem_of_find?_eq_some h)

theorem PointKeeps.hardWord {word : Nat} {xs : List Nat} (h : PointKeeps p q s x) : PointKeeps p q s (hardWord x word xs) := by
  unfold Machine.hardWord
  split
  · exact (h.bump (by decide)).memFlag.odoInc
  · next a ha =>
    have hspare : NoStat (Reg.memSpare a) := by
      have := arrayAt_lt ha
      unfold Reg.memSpare NoStat
      omega
    exact .ite h.memFlag (((PointKeeps.frame (PointKeeps.rewriteWord h.frame)).bump (by decide)).bump hspare).memFlag.odoInc

theorem PointKeeps.trackCe {word : Nat} {xs : List Nat} (h : PointKeeps p q s x) : PointKeeps p q s (trackCe x word xs) := by
  unfold Machine.trackCe
  extract_lets thr reach
  have hreach : ∀ {y n}, PointKeeps p q s y → PointKeeps p q s (reach y n) := fun hy => .ite (hy.wr (by decide)).memFlag hy
  split
  · extract_lets _ _ s2
    have hs2 : PointKeeps p q s s2 := .ite h.frame (hreach h.frame)
    exact .ite hs2.hardWord hs2
  · refine .ite (hreach h.frame) ?_
    split
    · exact h
    · exact hreach (PointKeeps.bump h.frame (by decide))

theorem PointKeeps.readSpan {src a n : Nat} (h : PointKeeps p q s x) : PointKeeps p q s (readSpan x src a n).chip := by
  unfold Machine.readSpan
  refine List.foldlRecOn (motive := fun r : SpanRead => PointKeeps p q s r.chip) _ _ h fun r hr word _ => ?_
  have hnote : PointKeeps p q s (if isMram (8 * word) then r.chip else Machine.noteRead r.chip (wordErr r.chip word a (a + n)).2
      (localOf (8 * word)) src (memKindAt (8 * word))) := .ite hr hr.noteRead
  exact .ite hnote.trackCe hnote

theorem PointKeeps.touchWords {a n : Nat} (h : PointKeeps p q s x) : PointKeeps p q s (touchWords x a n) := h.frame

/-! ### The store -/

theorem PointKeeps.setEntry {sid : Nat} {e : Entry} (h : PointKeeps p q s x) : PointKeeps p q s (x.setEntry sid e) :=
  ⟨h.tb, h.frozen, h.point, h.waits, h.shq, h.power⟩

theorem PointKeeps.seeBytes {src sid o n : Nat} (h : PointKeeps p q s x) : PointKeeps p q s (seeBytes x src sid o n).1 := by
  unfold Machine.seeBytes
  split
  · exact h
  · exact .ite (((h.readSpan.setEntry).bump (by decide)).flag (by decide)) h.readSpan

theorem PointKeeps.lookEntry {src sid : Nat} (h : PointKeeps p q s x) : PointKeeps p q s (lookEntry x src sid).1 := h.seeBytes

theorem PointKeeps.frozenLook {sid : Nat} (h : PointKeeps p q s x) : PointKeeps p q s (frozenLook x sid).1 := h.seeBytes

/-! ### Injections and captures -/

theorem PointKeeps.tileFlag {t e : Nat} (h : PointKeeps p q s x) : PointKeeps p q s (x.tileFlag t e) :=
  h.flag (noStat_tile (by decide) t)

theorem PointKeeps.setTune {t : Nat} {u : TuneUnit} (h : PointKeeps p q s x) : PointKeeps p q s (x.setTune t u) := h.setEng rfl rfl rfl

theorem PointKeeps.wrInjstat {t hi lo v : Nat} (h : PointKeeps p q s x) : PointKeeps p q s (x.wrF (Reg.ltInjstat t) hi lo v) :=
  h.wrF (noStat_tile (by decide) t)

theorem PointKeeps.wrCapstat {t hi lo v : Nat} (h : PointKeeps p q s x) : PointKeeps p q s (x.wrF (Reg.ltCapstat t) hi lo v) :=
  h.wrF (noStat_tile (by decide) t)

theorem PointKeeps.endInjection {t cause : Nat} (h : PointKeeps p q s x) : PointKeeps p q s (endInjection x t cause) := by
  have hstat : PointKeeps p q s (x.wrBit (Reg.ltInjstat t) 0 false) := h.wrBit (noStat_tile (by decide) t)
  exact .setTune (.ite hstat.wrInjstat.tileFlag.tileFlag hstat.wrInjstat.tileFlag)

theorem PointKeeps.raiseCause {t cause : Nat} (h : PointKeeps p q s x) : PointKeeps p q s (raiseCause x t cause) :=
  .ite (.ite h.wrInjstat.tileFlag h.wrInjstat) h

theorem PointKeeps.endCapture {t cause : Nat} (h : PointKeeps p q s x) : PointKeeps p q s (endCapture x t cause) :=
  .ite h.wrCapstat.wrCapstat.setTune.tileFlag (.ite h.wrCapstat h)

theorem PointKeeps.captureInjEnd {t : Nat} (h : PointKeeps p q s x) : PointKeeps p q s (captureInjEnd x t) := .ite h.endCapture h

theorem PointKeeps.newMoment {t : Nat} (h : PointKeeps p q s x) : PointKeeps p q s (newMoment x t) := .ite h.setTune h

theorem PointKeeps.startInjection {t : Nat} (h : PointKeeps p q s x) : PointKeeps p q s (startInjection x t) := by
  have hrefuse : ∀ {code}, PointKeeps p q s (tuneRefuse x t (Reg.ltInjstat t) code) := h.wrInjstat.tileFlag
  unfold Machine.startInjection
  refine .ite ?_ ?_
  · exact hrefuse
  · exact .ite hrefuse (.ite hrefuse (.ite hrefuse
      ((h.wrBit (noStat_tile (by decide) t)).wr (noStat_tile (by decide) t)).setTune))

theorem PointKeeps.armCapture {t : Nat} (h : PointKeeps p q s x) : PointKeeps p q s (armCapture x t) := by
  have hrefuse : ∀ {code}, PointKeeps p q s (tuneRefuse x t (Reg.ltCapstat t) code) := h.wrCapstat.tileFlag
  exact .ite hrefuse (.ite hrefuse (.ite hrefuse
    ((h.wrCapstat.wr (noStat_tile (by decide) t)).wr (noStat_tile (by decide) t)).setTune))

/-! ### Slots -/

theorem PointKeeps.setSlotSt {lid : Nat} {v : SlotState} (h : PointKeeps p q s x) : PointKeeps p q s (setSlotSt x lid v) :=
  h.setEng rfl rfl rfl

theorem PointKeeps.setRecWord {lid w : Nat} {v : Word} (h : PointKeeps p q s x) : PointKeeps p q s (setRecWord x lid w v) :=
  .touchWords (h.setEng rfl rfl rfl)

theorem PointKeeps.setMirrorBit {lid b : Nat} {v : Bool} (h : PointKeeps p q s x) : PointKeeps p q s (setMirrorBit x lid b v) :=
  .touchWords (h.setEng rfl rfl rfl)

theorem PointKeeps.initSlot {lid : Nat} (h : PointKeeps p q s x) : PointKeeps p q s (initSlot x lid) := by
  unfold Machine.initSlot
  exact .touchWords (.setSlotSt (.iteFst h.frozenLook.lookEntry.frozenLook h.frozenLook.lookEntry))

theorem PointKeeps.disableEnds {lid : Nat} (h : PointKeeps p q s x) : PointKeeps p q s (disableEnds x lid) := by
  unfold Machine.disableEnds
  extract_lets _ _ s1
  have hs1 : PointKeeps p q s s1 := .ite h.endInjection.captureInjEnd (.ite h.raiseCause h)
  exact .ite hs1.endCapture hs1

theorem PointKeeps.applyOne {t : Nat} {c : ShCmd} (h : PointKeeps p q s x) : PointKeeps p q s (applyOne x t c) := by
  unfold Machine.applyOne
  split
  · exact h.startInjection
  · exact .ite h.endInjection.captureInjEnd h
  · exact h.armCapture
  · exact h.endCapture
  · exact .ite h.setRecWord.setMirrorBit.initSlot (.ite h.setRecWord.disableEnds h.setRecWord)

theorem PointKeeps.shedSlot {lid : Nat} (h : PointKeeps p q s x) : PointKeeps p q s (shedSlot x lid) := by
  have hshed : ∀ {l}, PointKeeps p q s { x with eng := { x.eng with shed := l } } := h.setEng rfl rfl rfl
  unfold Machine.shedSlot
  refine .ite ?_ (.ite (.ite hshed.initSlot hshed) h)
  split
  · exact .ite hshed.setEntry hshed
  · exact hshed

/-! ### A tile's commit point -/

theorem shq_setShq (x : Chip) (t k : Nat) (l : List ShCmd) : shq (setShq x t l) k = if k = t then l else shq x k := by
  unfold shq setShq
  split
  · next h => rw [h]; exact Tab.get_set_self ..
  · next h => exact Tab.get_set_ne _ _ _ _ h

theorem PointKeeps.setShq {t : Nat} {l : List ShCmd} (h : PointKeeps p q s x) (ht : ¬ p t) : PointKeeps p q s (setShq x t l) := by
  refine ⟨h.tb, h.frozen, h.point, h.waits, fun k hk => ?_, h.power⟩
  have hne : k ≠ t := fun e => ht (e ▸ hk)
  rw [shq_setShq, if_neg hne, h.shq k hk]

theorem PointKeeps.wrStat {t b : Nat} {v : Bool} (h : PointKeeps p q s x) (ht : ¬ q t) : PointKeeps p q s (x.wrBit (Reg.ltStat t) b v) := by
  refine ⟨h.tb, h.frozen, h.point, h.waits, h.shq, fun k hk => ?_⟩
  have hne : Reg.ltStat k ≠ Reg.ltStat t := by
    have : k ≠ t := fun e => ht (e ▸ hk)
    unfold Reg.ltStat
    omega
  rw [← h.power k hk]
  exact x.rdBit_wrBit_ne _ _ _ hne

theorem PointKeeps.applyQueue {t : Nat} (h : PointKeeps p q s x) (ht : ¬ p t) : PointKeeps p q s (applyQueue x t) :=
  (h.foldl fun _ _ hy => hy.applyOne).setShq ht

theorem PointKeeps.gateTile {t : Nat} (h : PointKeeps p q s x) (ht : ¬ q t) : PointKeeps p q s (gateTile x t) :=
  .ite (.frame (((h.wrStat ht).wrBit (by decide)).wrBit (by decide))) h

/-- The rest of a tile's commit point, once its queue is applied. -/
theorem PointKeeps.afterQueue {t : Nat} (h : PointKeeps p q s (Machine.applyQueue (Machine.newMoment x t) t)) (ht : ¬ q t) :
    PointKeeps p q s (tileCommit x t) := by
  unfold Machine.tileCommit
  extract_lets _ s1 s2 s3 d s4 e5 s5
  have hs3 : PointKeeps p q s s3 := (h.foldl fun _ _ hy => hy.initSlot).foldl fun _ _ hy => hy.shedSlot
  have hs4 : PointKeeps p q s s4 := hs3.gateTile ht
  clear_value s4
  have hs5 : PointKeeps p q s s5 := hs4.setEng rfl rfl rfl
  exact hs5.wrStat ht

theorem PointKeeps.tileCommit {t : Nat} (h : PointKeeps p q s x) (hp : ¬ p t) (hq : ¬ q t) : PointKeeps p q s (tileCommit x t) :=
  .afterQueue (h.newMoment.applyQueue hp) hq

/-- A tile with power takes its whole queue (03 R137). -/
theorem shq_tileCommit {t : Nat} (h : tilePowered x t = true) : shq (tileCommit x t) t = [] := by
  have hkeep : PointKeeps (fun _ => True) (fun _ => False) (applyQueue (newMoment x t) t) (tileCommit x t) :=
    .afterQueue (.refl _ _ _) id
  have hmoment : PointKeeps (fun _ => True) (fun _ => True) x (newMoment x t) := (PointKeeps.refl _ _ x).newMoment
  rw [hkeep.shq t trivial, applyQueue, shq_setShq, if_pos rfl, hmoment.power t trivial, h]
  exact List.filter_eq_nil_iff.2 fun c _ => by cases c <;> simp [staysQueued]

/-- After the first `n` tiles: theirs, where they had power, have empty queues; the other tiles have kept their power. -/
theorem tileCommits_upto (s : Chip) (n : Nat) :
    PointKeeps (fun _ => False) (n ≤ ·) s ((List.range n).foldl tileCommit s) ∧
      ∀ t < n, tilePowered s t = true → shq ((List.range n).foldl tileCommit s) t = [] := by
  induction n with
  | zero => exact ⟨.refl _ _ _, fun _ ht => absurd ht (Nat.not_lt_zero _)⟩
  | succ n ih =>
    obtain ⟨hkeep, hempty⟩ := ih
    rw [List.range_succ, List.foldl_append]
    refine ⟨PointKeeps.tileCommit ⟨hkeep.tb, hkeep.frozen, hkeep.point, hkeep.waits, fun _ h => h.elim, fun k hk => hkeep.power k (by omega)⟩
      id (by omega), fun t ht hpow => ?_⟩
    generalize (List.range n).foldl tileCommit s = x at *
    by_cases h : t = n
    · subst h
      exact shq_tileCommit ((hkeep.power t (Nat.le_refl t)).trans hpow)
    · have hother : PointKeeps (· ≠ n) (· ≠ n) x (tileCommit x n) := (PointKeeps.refl _ _ x).tileCommit (fun h => h rfl) (fun h => h rfl)
      exact (hother.shq t h).trans (hempty t (by omega) hpow)

end Sys2Proof.Machine
end

section
/-!
PROOFS of the commit point (03). The writes that waited, TILE_COMMIT_POINT, and the tuning commands around it.
-/

namespace Sys2Proof.Machine

/-! ### The writes that waited -/

section
variable {q : Nat → Prop} {s x : Chip}

theorem PointKeeps.slotRefuse {p : Nat → Prop} {lid w code : Nat} (h : PointKeeps p q s x) : PointKeeps p q s (slotRefuse x lid w code) :=
  (h.wr (noStat_tile (by decide) (lid / 256))).tileFlag

theorem PointKeeps.askStart {p : Nat → Prop} {i : Nat} (h : PointKeeps p q s x) : PointKeeps p q s (askStart x i) :=
  .ite h (.frame (h.wrBit (by decide)))

theorem PointKeeps.slotApply {lid w : Nat} {v : Word} {enabling : Bool} (h : PointKeeps (fun _ => False) q s x) :
    PointKeeps (fun _ => False) q s (slotApply x lid w v enabling) := by
  unfold Machine.slotApply
  extract_lets _ _ s1
  have hs1 : PointKeeps (fun _ => False) q s s1 := .ite h h.setRecWord
  exact .ite hs1 (.ite (hs1.setShq id) (.ite (hs1.setShq id).askStart (.ite (hs1.setShq id) hs1.setRecWord)))

theorem PointKeeps.slotStore {lid w : Nat} {v : Word} (h : PointKeeps (fun _ => False) q s x) :
    PointKeeps (fun _ => False) q s (slotStore x lid w v).1 :=
  .iteFst h (.iteFst h.slotRefuse (.ite h h.slotApply))

theorem PointKeeps.tileQueue {t : Nat} {c : ShCmd} (h : PointKeeps (fun _ => False) q s x) :
    PointKeeps (fun _ => False) q s (tileQueue x t c) := .ite h (h.setShq id)

theorem PointKeeps.tuneCommand {t : Nat} {go stop : ShCmd} {v : Word} (h : PointKeeps (fun _ => False) q s x) :
    PointKeeps (fun _ => False) q s (tuneCommand x t go stop v) := by
  unfold Machine.tuneCommand
  extract_lets s1
  have hs1 : PointKeeps (fun _ => False) q s s1 := .ite h.tileQueue h
  exact .ite hs1.tileQueue hs1

end

/-- From `s` on, `x` has kept the timebase, the frozen view and the mark of the commit point. -/
structure PointStands (s x : Chip) : Prop where
  tb : x.tb = s.tb
  frozen : x.store.frozen = s.store.frozen
  point : x.eng.pointDone = s.eng.pointDone

theorem PointKeeps.stands {p q : Nat → Prop} {s x : Chip} (h : PointKeeps p q s x) : PointStands s x := ⟨h.tb, h.frozen, h.point⟩

theorem PointStands.trans {s x y : Chip} (h : PointStands s x) (h' : PointStands x y) : PointStands s y :=
  ⟨h'.tb.trans h.tb, h'.frozen.trans h.frozen, h'.point.trans h.point⟩

/-- A write waits for the next commit point of its tile (03 R137). -/
def waitOn (s : Chip) (h : HeldWrite) : Chip := { s with eng := { s.eng with waits := s.eng.waits ++ [h] } }

theorem waitOn_stands (s : Chip) (h : HeldWrite) : PointStands s (waitOn s h) := ⟨rfl, rfl, rfl⟩

theorem releaseOne_stands (s : Chip) (h : HeldWrite) : PointStands s (releaseOne s h) := by
  have hself : PointKeeps (fun _ => False) (fun _ => False) s s := .refl _ _ s
  cases h with
  | record src lid w v =>
    unfold releaseOne
    dsimp only
    split
    · exact waitOn_stands ..
    · exact hself.slotStore.stands
  | tune src t capture v =>
    unfold releaseOne
    dsimp only
    split
    · exact waitOn_stands ..
    · split
      · exact hself.tuneCommand.stands
      · exact hself.tuneCommand.stands

theorem releases_stand (l : List HeldWrite) (s : Chip) : PointStands s (l.foldl releaseOne s) :=
  List.foldlRecOn (motive := PointStands s) _ _ ⟨rfl, rfl, rfl⟩ fun x hx h _ => hx.trans (releaseOne_stands x h)

/-! ### The commit point -/

/-- The freeze of phase 2,000, with the commit point marked (01 R47). -/
def pointFreeze (s : Chip) : Chip :=
  { s with
    tb := { s.tb with phase := 2000 }
    store := (freezeStore s).store
    eng := { s.eng with
      dueAll := []
      pointDone := true } }

theorem atPhase_point {s : Chip} (h : s.tb.phase ≤ 2000) : s.atPhase 2000 = { s with tb := { s.tb with phase := 2000 } } := by
  have hlast : 2000 ≤ s.lastPhase := by
    unfold Chip.lastPhase
    split <;> decide
  unfold Chip.atPhase
  rw [Nat.min_eq_left hlast, Nat.max_eq_right h]

theorem freezeStore_setTb (s : Chip) {t : TimeBase} (h : t.tick = s.tb.tick) :
    freezeStore { s with tb := t } = { s with tb := t, store := (freezeStore s).store } := by
  have hread : ∀ sid, Chip.storeRead { s with tb := t } sid = s.storeRead sid := fun sid => by
    simp only [Chip.storeRead, h]
    rfl
  unfold freezeStore
  split
  · rfl
  · simp only [freezeView, hread]

/-- The commit point of the engine: each tile's in turn, then the mirror (03 R136, R159). -/
def tilesPoint (s : Chip) : Chip :=
  let x := (List.range 16).foldl tileCommit s
  mirrorWrites { x with eng := { x.eng with initNext := [] } }

/-- The commit point of this tick is marked as made. -/
def markPoint (s : Chip) : Chip := { s with eng := { s.eng with dueAll := [], pointDone := true } }

theorem commitPoint_marked (s : Chip) :
    commitPoint s = if (markPoint (freezeStore (s.atPhase 2000))).engineRuns then tilesPoint (markPoint (freezeStore (s.atPhase 2000)))
      else markPoint (freezeStore (s.atPhase 2000)) := by
  unfold commitPoint
  generalize freezeStore (s.atPhase 2000) = x
  extract_lets _ _ s2 s3
  have hmark : markPoint x = s2 := rfl
  have htiles : (List.range 16).foldl tileCommit s2 = s3 := rfl
  rw [hmark, tilesPoint, htiles]

/-- The commit point is the freeze, then the tiles' while the engine runs (03 R136, R166). -/
theorem commitPoint_eq {s : Chip} (hp : s.tb.phase ≤ 2000) :
    commitPoint s = if s.engineRuns then tilesPoint (pointFreeze s) else pointFreeze s := by
  have hfreeze : freezeStore (s.atPhase 2000) = { s with tb := { s.tb with phase := 2000 }, store := (freezeStore s).store } := by
    rw [atPhase_point hp]
    exact freezeStore_setTb s rfl
  have hmark : markPoint (freezeStore (s.atPhase 2000)) = pointFreeze s := by
    rw [hfreeze]
    rfl
  rw [commitPoint_marked, hmark]
  rfl

/-- The mirror takes every write, and touches memory alone beside it (03 R159). -/
theorem mirrorWrites_keeps {p q : Nat → Prop} {s x : Chip} (h : PointKeeps p q s x) :
    PointKeeps p q s (mirrorWrites x) ∧ (mirrorWrites x).eng.dirty = [] ∧ (mirrorWrites x).eng.initNext = x.eng.initNext := by
  unfold mirrorWrites
  extract_lets m
  refine ⟨.foldl (h.setEng rfl rfl rfl) fun _ _ hy => hy.touchWords, ?_⟩
  have heng := foldl_keeps Chip.eng (f := fun (x : Chip) k => touchWords x (0x03180000 + 4 * k) 4) (fun _ _ => rfl) x.eng.dirty
    { x with eng := { x.eng with mirror := m, dirty := [] } }
  rw [heng]
  exact ⟨rfl, rfl⟩

/-- The tiles keep what a commit point keeps; those with power take their queues and the mirror what was written (03 R136, R137, R159). -/
theorem tilesPoint_takes (s : Chip) :
    PointStands s (tilesPoint s) ∧ (tilesPoint s).eng.waits = s.eng.waits ∧
      (∀ t < 16, tilePowered s t = true → shq (tilesPoint s) t = []) ∧ (tilesPoint s).eng.dirty = [] ∧ (tilesPoint s).eng.initNext = [] := by
  obtain ⟨hkeep, hempty⟩ := tileCommits_upto s 16
  unfold tilesPoint
  generalize (List.range 16).foldl tileCommit s = x at hkeep hempty ⊢
  have hinit : PointKeeps (fun _ => True) (fun _ => True) x { x with eng := { x.eng with initNext := [] } } :=
    (PointKeeps.refl _ _ x).setEng rfl rfl rfl
  obtain ⟨hmirror, hdirty, hnext⟩ := mirrorWrites_keeps hinit
  exact ⟨hkeep.stands.trans hmirror.stands, hmirror.waits.trans hkeep.waits,
    fun t ht hpow => (hmirror.shq t trivial).trans (hempty t ht hpow), hdirty, hnext⟩

/-- What the commit point leaves, whatever the engine does. -/
theorem commitPoint_stands {s : Chip} (hp : s.tb.phase ≤ 2000) :
    PointStands (pointFreeze s) (commitPoint s) ∧ (commitPoint s).eng.waits = s.eng.waits := by
  rw [commitPoint_eq hp]
  split
  · obtain ⟨hstands, hwaits, -⟩ := tilesPoint_takes (pointFreeze s)
    exact ⟨hstands, hwaits⟩
  · exact ⟨⟨rfl, rfl, rfl⟩, rfl⟩

theorem tileCommitPoint_done {s : Chip} (h : s.eng.pointDone = true) : tileCommitPoint s = s := if_pos h

theorem tileCommitPoint_noWaits {s : Chip} (hp : s.tb.phase ≤ 2000) (hd : s.eng.pointDone = false) (hw : s.eng.waits = []) :
    tileCommitPoint s = commitPoint s := by
  have hw' : (commitPoint s).eng.waits = [] := (commitPoint_stands hp).2.trans hw
  simp only [tileCommitPoint, hd, hw', Bool.false_eq_true, if_false, if_true]

theorem tileCommitPoint_stands {s : Chip} (hp : s.tb.phase ≤ 2000) (hd : s.eng.pointDone = false) :
    PointStands (pointFreeze s) (tileCommitPoint s) := by
  have hpoint := (commitPoint_stands hp).1
  unfold tileCommitPoint
  rw [if_neg (by simp [hd])]
  dsimp only
  split
  · exact hpoint
  · have hclear : PointStands (commitPoint s) { commitPoint s with eng := { (commitPoint s).eng with waits := [] } } := ⟨rfl, rfl, rfl⟩
    exact hpoint.trans (hclear.trans (releases_stand _ _))

/-- The freeze shows each entry as it was composed then (01 R47, R78). -/
theorem frozenRead_freezeStore {s : Chip} (h : s.store.froze = false) {sid : Nat} {e : Entry} (he : Tab.get? s.store.entries sid = some e) :
    frozenRead (freezeStore s) sid = s.storeRead sid := by
  have hget : ∀ l : Tab Entry, Tab.get? l sid = some e →
      Tab.get? (l.map fun (x : Nat × Entry) => (x.1, s.storeRead x.1)) sid = some (s.storeRead sid) := by
    intro l
    induction l with
    | nil => exact fun h => nomatch h
    | cons x l ih =>
      obtain ⟨k, v⟩ := x
      by_cases hk : k = sid
      · simp [Tab.get?, hk]
      · simpa [Tab.get?, hk] using ih
  unfold freezeStore frozenRead
  simp only [h, Bool.false_eq_true, if_false]
  rw [show freezeView s = s.store.entries.map fun (x : Nat × Entry) => (x.1, s.storeRead x.1) from rfl, hget _ he]

theorem exec_tileCommitPoint (st : State) :
    exec .tileCommitPoint st = finish st (fun s => if before s 2000 then tileCommitPoint s else s) := rfl

theorem before_of_le {s : Chip} {p : Nat} (h : s.tb.phase ≤ p) : before s p = true := decide_eq_true h

theorem frozenRead_congr {s t : Chip} (h : t.store.frozen = s.store.frozen) (sid : Nat) : frozenRead t sid = frozenRead s sid := by
  unfold frozenRead
  rw [h]

/-- What is left of a command is left by the freeze. -/
theorem Still.pointFreeze {s : Chip} (h : Still s) : Still (pointFreeze s) := by
  have hq : (freezeStore s).store.p3q = s.store.p3q := by
    unfold freezeStore
    split <;> rfl
  exact h.congr rfl rfl rfl rfl hq rfl fun _ _ => rfl

/-- The three clauses of TILE_COMMIT_POINT: it is made, it is only the freeze, or its time has passed. -/
theorem exec_tileCommitPoint_cases (s : State) :
    (s.chip.tb.phase ≤ 2000 → s.chip.eng.pointDone = false → Completes .tileCommitPoint s (fun x =>
      x.tb.phase = 2000 ∧ x.tb.tick = s.chip.tb.tick ∧ x.eng.pointDone = true ∧
      (s.chip.store.froze = false → ∀ sid e, Tab.get? s.chip.store.entries sid = some e → frozenRead x sid = s.chip.storeRead sid) ∧
      (s.chip.store.froze = true → x.store.frozen = s.chip.store.frozen) ∧
      (s.chip.engineRuns = true → s.chip.eng.waits = [] →
        (∀ t, t < 16 → tilePowered s.chip t = true → shq x t = []) ∧ x.eng.dirty = [] ∧ x.eng.initNext = []))) ∧
    (s.chip.tb.phase ≤ 2000 → s.chip.eng.pointDone = false → Still s.chip → s.chip.engineRuns = false → s.chip.eng.waits = [] →
      exec .tileCommitPoint s = .next { s with chip := pointFreeze s.chip }) ∧
    (Still s.chip → 2000 < s.chip.tb.phase ∨ s.chip.eng.pointDone = true → exec .tileCommitPoint s = .next s) := by
  rw [exec_tileCommitPoint, finish_eq]
  refine ⟨fun hp hd => ?_, fun hp hd hs hr hw => ?_, fun hs hlate => ?_⟩
  · obtain ⟨htb, hfrozen, hpoint⟩ := tileCommitPoint_stands hp hd
    refine ⟨tileCommitPoint s.chip, ?_, ?_, ?_, hpoint, fun hz sid e he => ?_, fun hz => ?_, fun hr hw => ?_⟩
    · rw [exec_tileCommitPoint, finish_eq, if_pos (before_of_le hp)]
    · rw [htb]; rfl
    · rw [htb]; rfl
    · exact (frozenRead_congr (s := freezeStore s.chip) hfrozen sid).trans (frozenRead_freezeStore hz he)
    · rw [hfrozen]
      simp [pointFreeze, freezeStore, hz]
    · rw [tileCommitPoint_noWaits hp hd hw, commitPoint_eq hp, if_pos hr]
      exact (tilesPoint_takes (pointFreeze s.chip)).2.2
  · rw [if_pos (before_of_le hp), tileCommitPoint_noWaits hp hd hw, commitPoint_eq hp, if_neg (by simp [hr]), settle_still hs.pointFreeze]
  · have hnone : (if before s.chip 2000 then tileCommitPoint s.chip else s.chip) = s.chip := by
      rcases hlate with hp | hd
      · exact if_neg (by simp [before, hp])
      · rw [tileCommitPoint_done hd, ite_self]
    rw [hnone, settle_still hs]

/-! ### Tuning commands around it -/

/-- A register of a tile that only commands write: no bit of it is held. -/
def commandRow (o : Nat) : RegRow := ⟨o, 1, 4, 0, 0, 0, 0, 0, 0, 0, 0, 0, 0, 0⟩

theorem placeOf_tileCommands (t : Fin 16) :
    placeOf (Reg.ltInjcmd t.val) = some (.reg 32 t.val 0x5C (commandRow 0x5C)) ∧
      placeOf (Reg.ltCapcmd t.val) = some (.reg 32 t.val 0x88 (commandRow 0x88)) ∧
      placeOf (Reg.ltFlagclr t.val) = some (.reg 32 t.val 0x1C (commandRow 0x1C)) := by
  revert t
  decide

/-- Off phase 2,000, or with the commit point made, a write to a tile meets no commit point (03 R136). -/
theorem tileDue_none {s : Chip} (h : s.phaseRead = 2000 → s.eng.pointDone = true) : tileDue s = s := by
  unfold tileDue
  split
  · next hp =>
    simp only [Bool.and_eq_true, decide_eq_true_eq] at hp
    exact tileCommitPoint_done (h hp.1)
  · rfl

/-- A write of an agent that may write a tile's register waits, or is made. -/
theorem regCmd_tile {s : Chip} {who : Agent} {a t o : Nat} {r : RegRow} (hp : placeOf a = some (.reg 32 t o r)) (hm : MayWrite s who a)
    (hd : tileDue s = s) (v : Word) :
    regCmd s who a v =
      if tuneWaits s 32 t o v then waitOn s (.tune (agentSrc who) t (o == 0x88) v)
      else answerWrite (agentSrc who) a v (writeRow s (agentSrc who) a 32 t o r v false) := by
  obtain ⟨hcore, hans, hauth⟩ := hm
  unfold regCmd regWrite
  simp only [hp, hcore, hans, hauth, Bool.and_false, Bool.not_true, Bool.false_eq_true, if_false, placeWrite, hd, if_true]
  split
  · simp only [answerWrite, holdWrite, hp]
    rfl
  · rfl

/-- With the tile's queue full a command of one bit waits (03 R137). -/
theorem tuneWaits_full {s : Chip} {t o : Nat} (h : 256 ≤ (shq s t).length) (ho : o = 0x5C ∨ o = 0x88) {v : Word} (hv : v = 1 ∨ v = 2) :
    tuneWaits s 32 t o v = true := by
  have hbits : (bit v 0 || bit v 1) = true ∧ b2n (bit v 0) + b2n (bit v 1) = 1 := by
    rcases hv with rfl | rfl <;> decide
  obtain ⟨hany, hone⟩ := hbits
  have hoff : (o == 0x5C || o == 0x88) = true := by simpa using ho
  have hroom : (shq s t).length + b2n (bit v 0) + b2n (bit v 1) > 256 := by omega
  simp only [tuneWaits, hany, hoff, hroom, decide_true, beq_self_eq_true, Bool.and_self]

/-- FLAGCLR clears flags of the slot that it names, and is never refused (04 R207). -/
theorem writeRow_flagclr (s : Chip) (src a t : Nat) (v : Word) :
    writeRow s src a 32 t 0x1C (commandRow 0x1C) v false = (flagClear s (256 * t + fld v 7 0) (fld v 19 8), .done) := by
  have hcs : ((v ^^^ s.rd a) &&& wn (commandRow 0x1C).cs) = 0 := by
    show (v ^^^ s.rd a) &&& 0#32 = 0
    exact BitVec.and_zero
  unfold writeRow
  simp only [hcs, bne_self_eq_false, Bool.and_false, Bool.false_eq_true, if_false]
  rfl

theorem exec_injStart (who : Agent) (t : Fin 16) (st : State) :
    exec (.injStart who t) st = finish st (fun s => regCmd s who (Reg.ltInjcmd t.val) 1) := rfl

theorem exec_injStop (who : Agent) (t : Fin 16) (st : State) :
    exec (.injStop who t) st = finish st (fun s => regCmd s who (Reg.ltInjcmd t.val) 2) := rfl

theorem exec_capArm (who : Agent) (t : Fin 16) (st : State) :
    exec (.capArm who t) st = finish st (fun s => regCmd s who (Reg.ltCapcmd t.val) 1) := rfl

theorem exec_capStop (who : Agent) (t : Fin 16) (st : State) :
    exec (.capStop who t) st = finish st (fun s => regCmd s who (Reg.ltCapcmd t.val) 2) := rfl

theorem exec_flagclr (who : Agent) (t : Fin 16) (v : Word) (st : State) :
    exec (.flagclr who t v) st = finish st (fun s => regCmd s who (Reg.ltFlagclr t.val) v) := rfl

/-- A tile command that waits leaves nothing but its wait. -/
theorem finish_tileWaits {s : State} (hs : Still s.chip) {who : Agent} {a t o : Nat} {r : RegRow} (hp : placeOf a = some (.reg 32 t o r))
    (hm : MayWrite s.chip who a) (hd : tileDue s.chip = s.chip) {v : Word} (hw : tuneWaits s.chip 32 t o v = true) :
    finish s (fun x => regCmd x who a v) = .next { s with chip := waitOn s.chip (.tune (agentSrc who) t (o == 0x88) v) } := by
  rw [finish_eq, regCmd_tile hp hm hd, if_pos hw, waitOn, settle_still (hs.setEng _)]

theorem slotSt_setSlotSt_ne (s : Chip) {lid k : Nat} (x : SlotState) (h : k ≠ lid) : slotSt (setSlotSt s lid x) k = slotSt s k :=
  Tab.get_set_ne _ _ _ _ h

/-- What LTt_SLOTST shows of a slot does not hold the flags to be cleared (04 R207, 03 R177). -/
theorem slotBytes_flagClear (s : Chip) (lid mask : Nat) : slotBytes (slotSt (flagClear s lid mask) lid) = slotBytes (slotSt s lid) := by
  have hself : slotSt (flagClear s lid mask) lid = { slotSt s lid with clr := (slotSt s lid).clr ||| mask % 4096 } := Tab.get_set_self ..
  rw [hself]
  rfl

/-- Settles O20: the tiles' work at phase 2,000 keeps the timebase, the frozen view and the queues taken before (`tilesPoint_takes`), and so
do the writes released after it; a tuning command that meets a full queue only waits, and FLAGCLR only marks the flags. -/
theorem commitPointTakesTheStoreAndTuning : Obligations.CommitPointTakesTheStoreAndTuning := by
  unfold Obligations.CommitPointTakesTheStoreAndTuning
  refine ⟨exec_tileCommitPoint_cases, fun s who t hs hphase => ?_⟩
  intro q waits
  have hd : tileDue s.chip = s.chip := tileDue_none hphase
  obtain ⟨hinj, hcap, hflag⟩ := placeOf_tileCommands t
  refine ⟨fun hm hq => ?_, fun hm hq => ?_, fun v hm => ?_⟩
  · rw [exec_injStart, exec_injStop]
    exact ⟨finish_tileWaits hs hinj hm hd (tuneWaits_full hq (.inl rfl) (.inl rfl)),
      finish_tileWaits hs hinj hm hd (tuneWaits_full hq (.inl rfl) (.inr rfl))⟩
  · rw [exec_capArm, exec_capStop]
    exact ⟨finish_tileWaits hs hcap hm hd (tuneWaits_full hq (.inr rfl) (.inl rfl)),
      finish_tileWaits hs hcap hm hd (tuneWaits_full hq (.inr rfl) (.inr rfl))⟩
  · have hnow : ¬ tuneWaits s.chip 32 t.val 0x1C v = true := by simp [tuneWaits]
    have hclear : regCmd s.chip who (Reg.ltFlagclr t.val) v = flagClear s.chip (256 * t.val + fld v 7 0) (fld v 19 8) := by
      rw [regCmd_tile hflag hm hd, if_neg hnow, writeRow_flagclr]
      rfl
    refine ⟨{ s with chip := flagClear s.chip (256 * t.val + fld v 7 0) (fld v 19 8) }, ?_, slotBytes_flagClear .., fun lid hne => ?_, rfl⟩
    · rw [exec_flagclr, finish_eq, hclear, flagClear, setSlotSt, settle_still (hs.setEng _)]
    · exact slotSt_setSlotSt_ne _ _ hne

end Sys2Proof.Machine
end

section
/-!
PROOFS of the dispatcher (12). What the steps of a cycle keep of the pool, the timers and the timebase. For each function `f` of the model,
`PoolKeeps.f` says that `f` keeps them, from the lemmas of the functions that it calls.
-/

namespace Sys2Proof.Machine

/-- Two carts of the same work: KIND, HITCH and LEVEL (12 R538). -/
def SameWork (c d : Cart) : Prop := d.kind = c.kind ∧ d.hitch = c.hitch ∧ d.level = c.level

theorem SameWork.refl (c : Cart) : SameWork c c := ⟨rfl, rfl, rfl⟩

theorem SameWork.trans {c d e : Cart} (h : SameWork c d) (h' : SameWork d e) : SameWork c e := by
  obtain ⟨hk, hh, hl⟩ := h
  obtain ⟨hk', hh', hl'⟩ := h'
  exact ⟨hk'.trans hk, hh'.trans hh, hl'.trans hl⟩

/-- From `s` on, `x` has kept the timebase and every cart's work; with `T` the step timers; and with no post waiting it has none and defers no
further cart. -/
structure PoolKeeps (T : Prop) (s x : Chip) : Prop where
  tb : x.tb = s.tb
  timers : T → x.dsp.timers = s.dsp.timers
  work : ∀ c ∈ s.dsp.carts, ∃ d ∈ x.dsp.carts, SameWork c d
  length : s.dsp.carts.length ≤ x.dsp.carts.length
  posts : s.dsp.posts = [] → x.dsp.posts = []
  deferred : s.dsp.posts = [] → ∀ d ∈ x.dsp.carts, ∀ due, d.place = .deferred due → ∃ c ∈ s.dsp.carts, c.place = .deferred due

theorem PoolKeeps.refl (T : Prop) (s : Chip) : PoolKeeps T s s :=
  ⟨rfl, fun _ => rfl, fun c hc => ⟨c, hc, .refl c⟩, Nat.le_refl _, id, fun _ d hd _ hp => ⟨d, hd, hp⟩⟩

section
variable {T : Prop} {s x : Chip}

theorem PoolKeeps.ite {a b : Chip} {c : Prop} {_ : Decidable c} (ha : PoolKeeps T s a) (hb : PoolKeeps T s b) :
    PoolKeeps T s (if c then a else b) := by
  split <;> assumption

theorem PoolKeeps.foldl {α : Type} {f : Chip → α → Chip} {l : List α} (h : PoolKeeps T s x)
    (hf : ∀ y a, PoolKeeps T s y → PoolKeeps T s (f y a)) : PoolKeeps T s (l.foldl f x) :=
  List.foldlRecOn (motive := PoolKeeps T s) _ _ h fun y hy a _ => hf y a hy

theorem PoolKeeps.foldlFst {α β : Type} {f : Chip × β → α → Chip × β} {l : List α} {r : Chip × β} (h : PoolKeeps T s r.1)
    (hf : ∀ y a, PoolKeeps T s y.1 → PoolKeeps T s (f y a).1) : PoolKeeps T s (l.foldl f r).1 :=
  List.foldlRecOn (motive := fun r : Chip × β => PoolKeeps T s r.1) _ _ h fun y hy a _ => hf y a hy

/-- An update that leaves the timebase, the pool, the timers and the posts alone. -/
theorem PoolKeeps.same {y : Chip} (h : PoolKeeps T s x) (ht : y.tb = x.tb) (hr : y.dsp.timers = x.dsp.timers)
    (hc : y.dsp.carts = x.dsp.carts) (hp : y.dsp.posts = x.dsp.posts) : PoolKeeps T s y :=
  ⟨ht.trans h.tb, fun t => hr.trans (h.timers t), hc ▸ h.work, hc ▸ h.length, fun e => hp.trans (h.posts e), hc ▸ h.deferred⟩

/-- Carts rewritten one by one, each keeping its work and none newly deferred. -/
theorem PoolKeeps.mapCarts {f : Cart → Cart} (h : PoolKeeps T s x) (hw : ∀ c, SameWork c (f c))
    (hd : ∀ c due, (f c).place = .deferred due → c.place = .deferred due) :
    PoolKeeps T s { x with dsp := { x.dsp with carts := x.dsp.carts.map f } } := by
  refine ⟨h.tb, h.timers, fun c hc => ?_, ?_, h.posts, fun hp d hm due hdue => ?_⟩
  · obtain ⟨d, hm, hwork⟩ := h.work c hc
    exact ⟨f d, List.mem_map_of_mem hm, hwork.trans (hw d)⟩
  · simpa using h.length
  · obtain ⟨e, he, rfl⟩ := List.mem_map.1 hm
    exact h.deferred hp e he due (hd e due hdue)

theorem PoolKeeps.moveCart {c : Cart} {pl : CartPlace} (h : PoolKeeps T s x) (hpl : ∀ due, pl ≠ .deferred due) :
    PoolKeeps T s (moveCart x c pl) := by
  refine h.mapCarts (fun d => ?_) fun d due hdue => ?_
  · split <;> exact ⟨rfl, rfl, rfl⟩
  · split at hdue
    · exact absurd hdue (hpl due)
    · exact hdue

/-- The cart that is made stands at the end of the pool (12 R536). -/
theorem makeCart_carts (x : Chip) (kind hitch level arg src : Nat) (pl : CartPlace) :
    ∃ c : Cart, (makeCart x kind hitch level arg src pl).dsp.carts = x.dsp.carts ++ [c] ∧
      c.kind = kind ∧ c.hitch = hitch ∧ c.level = level ∧ c.place = pl := by
  unfold Machine.makeCart
  extract_lets i g c s1 s2
  refine ⟨c, ?_, rfl, rfl, rfl, rfl⟩
  split
  · rw [Chip.flag_dsp]
    rfl
  · rfl

theorem makeCart_frame (x : Chip) (kind hitch level arg src : Nat) (pl : CartPlace) :
    (makeCart x kind hitch level arg src pl).tb = x.tb ∧ (makeCart x kind hitch level arg src pl).dsp.timers = x.dsp.timers ∧
      (makeCart x kind hitch level arg src pl).dsp.posts = x.dsp.posts := by
  unfold Machine.makeCart
  extract_lets i g c s1 s2
  split
  · rw [Chip.flag_dsp, Chip.flag_tb]
    exact ⟨rfl, rfl, rfl⟩
  · exact ⟨rfl, rfl, rfl⟩

theorem PoolKeeps.makeCart {kind hitch level arg src : Nat} {pl : CartPlace} (h : PoolKeeps T s x)
    (hpl : s.dsp.posts = [] → ∀ due, pl ≠ .deferred due) : PoolKeeps T s (makeCart x kind hitch level arg src pl) := by
  obtain ⟨c, hcarts, -, -, -, hplace⟩ := makeCart_carts x kind hitch level arg src pl
  obtain ⟨htb, htimers, hposts⟩ := makeCart_frame x kind hitch level arg src pl
  refine ⟨htb.trans h.tb, fun t => htimers.trans (h.timers t), fun c hc => ?_, ?_, fun e => hposts.trans (h.posts e), fun e d hd due hdue => ?_⟩
  · obtain ⟨d, hm, hwork⟩ := h.work c hc
    exact ⟨d, by simp [hcarts, hm], hwork⟩
  · rw [hcarts, List.length_append]
    exact h.length.trans (Nat.le_add_right _ _)
  · rw [hcarts, List.mem_append, List.mem_singleton] at hd
    rcases hd with hd | rfl
    · exact h.deferred e d hd due hdue
    · exact absurd (hplace.symm.trans hdue) (hpl e due)

/-! ### Events -/

theorem PoolKeeps.eventCart {i n : Nat} (h : PoolKeeps T s x) : PoolKeeps T s (eventCart x i n) :=
  (h.makeCart (pl := .queued) fun _ _ => nofun).same rfl rfl rfl rfl

theorem PoolKeeps.setPend {i n : Nat} (h : PoolKeeps T s x) : PoolKeeps T s (setPend x i n) := h.same rfl rfl rfl rfl

theorem PoolKeeps.joinPending {i : Nat} (h : PoolKeeps T s x) : PoolKeeps T s (joinPending x i) :=
  .ite (h.same (by simp) (by simp) (by simp) (by simp)) h.setPend

theorem PoolKeeps.raiseOne {r : Chip × Nat} {i : Nat} (h : PoolKeeps T s r.1) : PoolKeeps T s (raiseOne r i).1 := by
  unfold Machine.raiseOne
  dsimp only
  split
  · exact h.same rfl rfl rfl rfl
  · split
    · refine h.mapCarts (fun d => ?_) fun d due hdue => ?_
      · split <;> exact ⟨rfl, rfl, rfl⟩
      · split at hdue <;> exact hdue
    · split
      · exact h.eventCart
      · exact h.joinPending

theorem PoolKeeps.servePending {r : Chip × Nat} {i : Nat} (h : PoolKeeps T s r.1) : PoolKeeps T s (servePending r i).1 := by
  unfold Machine.servePending
  dsimp only
  split
  · exact h
  · split
    · exact h.setPend.eventCart
    · exact h.setPend.eventCart

theorem PoolKeeps.eventsStep {evs : List Nat} (h : PoolKeeps T s x) : PoolKeeps T s (eventsStep x evs) := by
  unfold Machine.eventsStep
  refine .foldlFst (.foldlFst h fun y i hy => ?_) fun y i hy => hy.raiseOne
  exact hy.servePending.servePending

/-! ### Slots -/

theorem PoolKeeps.fillSlot {p : Nat} (h : PoolKeeps T s x) : PoolKeeps T s (fillSlot x p) := by
  unfold Machine.fillSlot
  refine .ite ?_ h
  split
  · exact h.moveCart fun _ => nofun
  · exact h

theorem PoolKeeps.recallGroup {g : Nat} (h : PoolKeeps T s x) : PoolKeeps T s (recallGroup x g) := by
  unfold Machine.recallGroup
  dsimp only
  split
  · exact .ite ((h.moveCart (pl := .queued) fun _ => nofun).moveCart fun _ => nofun) h
  · exact h

theorem PoolKeeps.fillAndRecall (h : PoolKeeps T s x) : PoolKeeps T s (fillAndRecall x) :=
  (h.foldl fun _ _ hy => hy.fillSlot).recallGroup.recallGroup

/-! ### Posts -/

/-- A post in its place makes its cart: nothing waits then, so it may be deferred. -/
theorem PoolKeeps.postCart {p : Nat} {ctl arg dly : Word} (h : PoolKeeps T s x) (hp : s.dsp.posts ≠ []) :
    PoolKeeps T s (postCart x p ctl arg dly) :=
  (h.makeCart fun e => absurd e hp).same rfl rfl rfl rfl

theorem PoolKeeps.setPosts {q : Tab (Option (Word × Word × Word))} (h : PoolKeeps T s x) (hp : s.dsp.posts ≠ []) :
    PoolKeeps T s { x with dsp := { x.dsp with posts := q } } :=
  ⟨h.tb, h.timers, h.work, h.length, fun e => absurd e hp, h.deferred⟩

theorem PoolKeeps.stalledPosts (h : PoolKeeps T s x) : PoolKeeps T s (stalledPosts x) := by
  by_cases hp : s.dsp.posts = []
  · have hnone : Machine.stalledPosts x = x := by rw [Machine.stalledPosts, h.posts hp, List.foldl_nil]
    rwa [hnone]
  · refine h.foldl fun y e hy => ?_
    split
    · exact .ite ((hy.setPosts hp).postCart hp) hy
    · exact hy

theorem PoolKeeps.cycleEnd {evs : List Nat} (h : PoolKeeps T s x) : PoolKeeps T s (cycleEnd x evs) :=
  h.stalledPosts.eventsStep.fillAndRecall

/-! ### Timers -/

theorem PoolKeeps.setTimer {h : Nat} {t : StepTimer} (hk : PoolKeeps T s x) (hT : ¬ T) : PoolKeeps T s (setTimer x h t) :=
  ⟨hk.tb, fun e => absurd e hT, hk.work, hk.length, hk.posts, hk.deferred⟩

theorem PoolKeeps.timerCart {r : Chip × Nat} {i : Nat} (h : PoolKeeps T s r.1) (hT : ¬ T) : PoolKeeps T s (timerCart r i).1 := by
  unfold Machine.timerCart
  dsimp only
  split
  · exact h.setTimer hT
  · split
    · exact (h.setTimer hT).makeCart fun _ _ => nofun
    · exact h.setTimer hT

theorem PoolKeeps.fireTimers {n : Nat} (h : PoolKeeps T s x) (hT : ¬ T) : PoolKeeps T s (fireTimers x n) :=
  .foldlFst h fun _ _ hy => hy.timerCart hT

end

end Sys2Proof.Machine
end

section
/-!
PROOFS of the dispatcher (12). Deferred carts, one timer in a cycle, and the commands that bring a cycle of timers.
-/

namespace Sys2Proof.Machine

/-! ### Deferred carts -/

/-- What becomes of a cart at phase 0: its work stays, and it is deferred only if it was and its tick is yet to come (12 R545). -/
def Requeued (tick : Nat) (c d : Cart) : Prop :=
  SameWork c d ∧ ∀ due, d.place = .deferred due → c.place = .deferred due ∧ 2 ^ 47 ≤ tickSince tick due

/-- One cart of the pool at phase 0 (12 R545). -/
def requeue (s : Chip) (acc : List Cart × Nat) (c : Cart) : List Cart × Nat :=
  match c.place with
  | .deferred due =>
    if tickSince s.tb.tick due < 2 ^ 47 then
      (acc.1 ++ [{ c with
        place := CartPlace.queued, cycle := s.dsp.cycles, ord := acc.2, rtick := s.tb.tick % 2 ^ 32, rphase := s.phaseRead }], acc.2 + 1)
    else (acc.1 ++ [c], acc.2)
  | _ => (acc.1 ++ [c], acc.2)

theorem requeue_requeued (s : Chip) (acc : List Cart × Nat) (c : Cart) :
    ∃ d n, requeue s acc c = (acc.1 ++ [d], n) ∧ Requeued s.tb.tick c d := by
  unfold requeue
  split
  · next due hplace =>
    split
    · exact ⟨_, _, rfl, ⟨rfl, rfl, rfl⟩, fun _ => nofun⟩
    · next hlate =>
      refine ⟨_, _, rfl, .refl c, fun due' h => ⟨h, ?_⟩⟩
      cases hplace.symm.trans h
      exact Nat.not_lt.1 hlate
  · next hplace => exact ⟨_, _, rfl, .refl c, fun due h => absurd h (hplace due)⟩

theorem requeue_foldl (s : Chip) (l : List Cart) (acc : List Cart × Nat) :
    ∃ l', (l.foldl (requeue s) acc).1 = acc.1 ++ l' ∧ List.Forall₂ (Requeued s.tb.tick) l l' := by
  induction l generalizing acc with
  | nil => exact ⟨[], by simp, .nil⟩
  | cons c l ih =>
    obtain ⟨d, n, hstep, hd⟩ := requeue_requeued s acc c
    obtain ⟨l', hl, hall⟩ := ih (acc.1 ++ [d], n)
    refine ⟨d :: l', ?_, .cons hd hall⟩
    rw [List.foldl_cons, hstep, hl]
    simp

theorem forall₂_mem_left {α β : Type} {R : α → β → Prop} {l : List α} {l' : List β} (h : List.Forall₂ R l l') {a : α} (ha : a ∈ l) :
    ∃ b ∈ l', R a b := by
  induction h with
  | nil => cases ha
  | cons hab _ ih =>
    rcases List.mem_cons.1 ha with rfl | ha
    · exact ⟨_, List.mem_cons_self, hab⟩
    · obtain ⟨b, hb, hr⟩ := ih ha
      exact ⟨b, List.mem_cons_of_mem _ hb, hr⟩

theorem deferredQueued_carts (s : Chip) :
    List.Forall₂ (Requeued s.tb.tick) s.dsp.carts (deferredQueued s).dsp.carts := by
  obtain ⟨l', hl, hall⟩ := requeue_foldl s s.dsp.carts ([], s.dsp.serial)
  have hcarts : (deferredQueued s).dsp.carts = l' := hl
  rwa [hcarts]

/-- A cart that is still deferred after phase 0 was so before, with its tick to come. -/
theorem deferredQueued_deferred {s : Chip} {d : Cart} (hd : d ∈ (deferredQueued s).dsp.carts) {due : Nat} (h : d.place = .deferred due) :
    2 ^ 47 ≤ tickSince s.tb.tick due ∧ ∃ c ∈ s.dsp.carts, c.place = .deferred due := by
  obtain ⟨c, hc, hr⟩ := forall₂_mem_left (deferredQueued_carts s).flip hd
  obtain ⟨-, hdue⟩ := hr
  obtain ⟨hplace, hlate⟩ := hdue due h
  exact ⟨hlate, c, hc, hplace⟩

theorem deferredQueued_keeps (s : Chip) : PoolKeeps True s (deferredQueued s) := by
  refine ⟨rfl, fun _ => rfl, fun c hc => ?_, (deferredQueued_carts s).length_eq.le, id, fun _ d hd due h => (deferredQueued_deferred hd h).2⟩
  obtain ⟨d, hd, hwork, -⟩ := forall₂_mem_left (deferredQueued_carts s) hc
  exact ⟨d, hd, hwork⟩

/-! ### One timer -/

theorem timerOf_setTimer (s : Chip) (h k : Nat) (t : StepTimer) : timerOf (setTimer s h t) k = if k = h then t else timerOf s k := by
  show Tab.get StepTimer.zero (Tab.set StepTimer.zero s.dsp.timers h t) k = _
  split
  · next e => rw [e, Tab.get_set_self]
  · next e => exact Tab.get_set_ne _ _ _ _ e

/-- The cart of a timer is in the pool, and the timer neither armed nor waits (12 R564). -/
def TimerMade (h : Nat) (t : StepTimer) (x : Chip) : Prop :=
  (∃ c ∈ x.dsp.carts, c.kind = 2 ∧ c.hitch = h ∧ c.level = t.level) ∧ (timerOf x h).armed = false ∧ (timerOf x h).wait = false

/-- What keeps the pool and the timers keeps a cart that was made. -/
theorem TimerMade.keeps {h : Nat} {t : StepTimer} {x y : Chip} (hm : TimerMade h t x) (hk : PoolKeeps True x y) : TimerMade h t y := by
  obtain ⟨⟨c, hc, hkind, hhitch, hlevel⟩, harmed, hwait⟩ := hm
  obtain ⟨d, hd, hk', hh', hl'⟩ := hk.work c hc
  have htimer : timerOf y h = timerOf x h := by unfold timerOf; rw [hk.timers trivial]
  exact ⟨⟨d, hd, hk'.trans hkind, hh'.trans hhitch, hl'.trans hlevel⟩, htimer ▸ harmed, htimer ▸ hwait⟩

/-- A timer whose hitch accepts carts, with room in the pool and in the cycle, makes its cart (12 R564). -/
theorem timerCart_makes {s : Chip} {h : Nat} (hen : hitchEn s h = true) (hsus : suspended s h = false) (hfree : 64 < freeCarts s) (n : Nat) :
    TimerMade h (timerOf s h) (timerCart (s, n + 1) h).1 := by
  let t' : StepTimer := { timerOf s h with armed := false, wait := false }
  have hmade : (timerCart (s, n + 1) h).1 = makeCart (setTimer s h t') 2 h (timerOf s h).level (timerOf s h).due 31 .queued := by
    simp [timerCart, hen, hsus, hfree, t']
  obtain ⟨c, hcarts, hkind, hhitch, hlevel, -⟩ := makeCart_carts (setTimer s h t') 2 h (timerOf s h).level (timerOf s h).due 31 .queued
  obtain ⟨-, htimers, -⟩ := makeCart_frame (setTimer s h t') 2 h (timerOf s h).level (timerOf s h).due 31 .queued
  have htimer : timerOf (timerCart (s, n + 1) h).1 h = t' := by
    rw [hmade, timerOf, htimers]
    exact (timerOf_setTimer s h h t').trans (if_pos rfl)
  rw [TimerMade, htimer, hmade, hcarts]
  exact ⟨⟨c, by simp, hkind, hhitch, hlevel⟩, rfl, rfl⟩

/-! ### A cycle -/

/-- The cycle of now runs the operations that wait, with the raises. -/
theorem dspCycle_eq {s : Chip} (h : dspRuns s = true) : dspCycle s [] = runCycle (cycleStart s) s.dsp.ops s.dsp.raises (zeroWaits s) := by
  unfold dspCycle
  split
  · next hz =>
    have hruns : dspRuns { s with dsp := { s.dsp with zeroAt := some s.tb.tick } } = true := h
    simp only [zeroCycle, dspCycleOf, hruns, if_true, List.append_nil, cycleStart, hz]
  · next hz =>
    have hz' : zeroWaits s = false := by simpa using hz
    simp [dspCycleOf, h, cycleStart, hz']

theorem runCycle_noOps (s : Chip) (evs : List Nat) (zero : Bool) : runCycle s [] evs zero = cycleEnd (cycleTimers s zero) evs := rfl

/-- A cycle with no operation (12 R552). -/
theorem dspCycle_noOps {s : Chip} (h : dspRuns s = true) (ho : s.dsp.ops = []) :
    dspCycle s [] = cycleEnd (cycleTimers (cycleStart s) (zeroWaits s)) s.dsp.raises := by
  rw [dspCycle_eq h, ho, runCycle_noOps]

theorem zeroWaits_iff (s : Chip) : zeroWaits s = true ↔ dspRuns s = true ∧ s.tb.phase = 0 ∧ s.dsp.zeroAt ≠ some s.tb.tick := by
  simp [zeroWaits, and_assoc]

theorem phaseZero_waits {s : Chip} (h : zeroWaits s = true) (ho : s.dsp.ops = []) :
    phaseZero s = cycleEnd (cycleTimers (cycleStart s) true) s.dsp.raises := by
  have hcycle := dspCycle_noOps ((zeroWaits_iff s).1 h).1 ho
  rw [h, dspCycle, if_pos h] at hcycle
  rw [phaseZero, if_pos h, hcycle]

theorem phaseZero_none {s : Chip} (h : ¬ zeroWaits s = true) : phaseZero s = s := if_neg h

/-- The start of a cycle leaves the timebase, the registers, the pool, the timers and the posts. -/
theorem cycleStart_frame (s : Chip) :
    (cycleStart s).tb = s.tb ∧ (cycleStart s).regs = s.regs ∧ (cycleStart s).dsp.carts = s.dsp.carts ∧
      (cycleStart s).dsp.timers = s.dsp.timers ∧ (cycleStart s).dsp.posts = s.dsp.posts := by
  unfold cycleStart
  split <;> exact ⟨rfl, rfl, rfl, rfl, rfl⟩

/-- The only timer, which waits, or which is armed and due in the cycle of phase 0, makes its cart (12 R564). -/
theorem cycleTimers_makes {s : Chip} {h : Nat} {t : StepTimer} (ht : s.dsp.timers = [(h, t)]) (hen : hitchEn s h = true)
    (hsus : suspended s h = false) (hfree : 64 < freeCarts s) (zero : Bool)
    (hdue : t.wait = true ∨ zero = true ∧ t.armed = true ∧ tickSince s.tb.tick t.due < 2 ^ 47) : TimerMade h t (cycleTimers s zero) := by
  have htimer : timerOf s h = t := by simp [timerOf, ht, Tab.get]
  have hmade : TimerMade h t (timerCart (s, 4) h).1 := htimer ▸ timerCart_makes hen hsus hfree 3
  cases zero with
  | false =>
    have hwait : t.wait = true := by simpa using hdue
    simpa [cycleTimers, waitingTimers, ht, hwait] using hmade
  | true =>
    have hgoes : (t.wait || (t.armed && decide (tickSince s.tb.tick t.due < 2 ^ 47))) = true := by
      rcases hdue with hw | ⟨-, ha, hd⟩
      · rw [hw, Bool.true_or]
      · rw [ha, decide_eq_true hd, Bool.and_self, Bool.or_true]
    have hfire : fireTimers s 4 = (timerCart (s, 4) h).1 := by simp only [fireTimers, ht, List.filter_cons, hgoes, if_true, List.filter_nil,
      List.map_cons, List.map_nil, List.foldl_cons, List.foldl_nil]
    show TimerMade h t (deferredQueued (fireTimers s 4))
    rw [hfire]
    exact hmade.keeps (deferredQueued_keeps _)

/-- The same in a whole cycle with no operation. -/
theorem cycle_makes {s : Chip} {h : Nat} {t : StepTimer} (ht : s.dsp.timers = [(h, t)]) (hen : hitchEn s h = true)
    (hsus : suspended s h = false) (hfree : 64 < freeCarts s) (zero : Bool)
    (hdue : t.wait = true ∨ zero = true ∧ t.armed = true ∧ tickSince s.tb.tick t.due < 2 ^ 47) (evs : List Nat) :
    TimerMade h t (cycleEnd (cycleTimers (cycleStart s) zero) evs) := by
  obtain ⟨htb, hregs, hcarts, htimers, -⟩ := cycleStart_frame s
  have hen' : hitchEn (cycleStart s) h = true := by rwa [hitchEn, Chip.rdBit, Chip.rd_congr hregs]
  have hsus' : suspended (cycleStart s) h = false := by
    rwa [suspended, Chip.stage, Chip.rdF, Chip.rdF, Chip.rd_congr hregs, Chip.rd_congr hregs]
  have hfree' : 64 < freeCarts (cycleStart s) := by rwa [freeCarts, hcarts]
  have hmade := cycleTimers_makes (htimers.trans ht) hen' hsus' hfree' zero (by rwa [htb])
  exact hmade.keeps (PoolKeeps.refl True _).cycleEnd

/-- In the cycle of phase 0 with no post waiting, what stays deferred is not due, and no cart is lost (12 R545). -/
theorem zeroCycle_deferred {s : Chip} (hp : s.dsp.posts = []) (evs : List Nat) :
    let x := cycleEnd (cycleTimers (cycleStart s) true) evs
    (∀ c ∈ x.dsp.carts, ∀ due, c.place = .deferred due → 2 ^ 47 ≤ tickSince s.tb.tick due) ∧ s.dsp.carts.length ≤ x.dsp.carts.length := by
  intro x
  have hfire : PoolKeeps False s (fireTimers (cycleStart s) 4) := by
    obtain ⟨htb, -, hcarts, htimers, hposts⟩ := cycleStart_frame s
    exact ((PoolKeeps.refl False s).same htb htimers hcarts hposts).fireTimers id
  generalize hy : fireTimers (cycleStart s) 4 = y at hfire
  have hx : x = cycleEnd (deferredQueued y) evs := by rw [← hy]; rfl
  have hqueued : PoolKeeps True y (deferredQueued y) := deferredQueued_keeps y
  have hend : PoolKeeps True (deferredQueued y) x := hx ▸ (PoolKeeps.refl True _).cycleEnd
  refine ⟨fun c hc due hplace => ?_, hfire.length.trans (hqueued.length.trans hend.length)⟩
  obtain ⟨d, hd, hplace'⟩ := hend.deferred (hqueued.posts (hfire.posts hp)) c hc due hplace
  rw [← hfire.tb]
  exact (deferredQueued_deferred hd hplace').1

/-! ### STEPCTL -/

/-- STEPCTL in its cycle arms or disarms the timer of the hitch that it names, and no other (12 R563). -/
theorem stepOp_timers (z : Chip) (p : Nat) (v : Word) :
    let h := fld v 9 0
    let y := stepOp z p v
    let due := (z.rd (Reg.dspPsteplo p)).toNat + z.rdF (Reg.dspPstephi p) 15 0 * 2 ^ 32
    y.regs = z.regs ∧ y.dsp.carts = z.dsp.carts ∧
      timerOf y h = (if bit v 16 then ⟨due, fld v 14 12, true, false⟩ else { timerOf z h with armed := false, wait := false }) ∧
      ∀ k, k ≠ h → timerOf y k = timerOf z k := by
  intro h y due
  exact ⟨rfl, rfl, (timerOf_setTimer ..).trans (if_pos rfl), fun k hk => (timerOf_setTimer ..).trans (if_neg hk)⟩

theorem placeOf_stepctl (p : Fin 10) :
    placeOf (Reg.dspPstepctl p.val) = some (.reg 12 0 (0x1048 + 0x100 * p.val) ⟨0x1048, 10, 256, 0, 0, 0, 0, 0, 0, 0, 0, 0, 0, 0⟩) := by
  revert p
  decide

theorem splitAddr_stepctl (p : Fin 10) : splitAddr (Reg.dspPstepctl p.val) = some (12, 0, 0x1048 + 0x100 * p.val) := by
  revert p
  decide

/-- A core reaches its own port. -/
theorem answers_stepctl {s : Chip} (p : Fin 10) (hcore : s.rst.inCore = false) : answers s p.val (Reg.dspPstepctl p.val) = true := by
  have hport : (0x1048 + 0x100 * p.val - 0x1000) / 0x100 = p.val := by omega
  simp [answers, splitAddr_stepctl, hcore, hport]

theorem regAuth_stepctl (s : Chip) (p : Fin 10) : regAuth s p.val (Reg.dspPstepctl p.val) = true := by
  have hcfg : holdsCfg s p.val = true := by simp [holdsCfg, srcIsCore, p.isLt]
  rw [← hcfg]
  fin_cases p <;> rfl

theorem portWrite_stepctl {s : Chip} (p : Nat) (v : Word) (more : Bool) (hruns : dspRuns s = true) :
    portWrite s p 0x48 v more = portOp s p 0x48 v more := by
  show stepCtl s p v more = _
  simp [stepCtl, hruns]

theorem actingWrite_stepctl {s : Chip} (src a : Nat) (p : Fin 10) (v : Word) (more : Bool) (hruns : dspRuns s = true) :
    actingWrite s src a 12 0 (0x1048 + 0x100 * p.val) v more = some (portOp s p.val 0x48 v more) := by
  have hin : 0x1000 ≤ 0x1048 + 0x100 * p.val ∧ 0x1048 + 0x100 * p.val < 0x1A00 := by omega
  have hport : (0x1048 + 0x100 * p.val - 0x1000) / 0x100 = p.val := by omega
  have hreg : (0x1048 + 0x100 * p.val) % 0x100 = 0x48 := by omega
  show (if 0x1000 ≤ 0x1048 + 0x100 * p.val ∧ 0x1048 + 0x100 * p.val < 0x1A00 then
    some (portWrite s ((0x1048 + 0x100 * p.val - 0x1000) / 0x100) ((0x1048 + 0x100 * p.val) % 0x100) v more) else none) = _
  rw [if_pos hin, hport, hreg, portWrite_stepctl p.val v more hruns]

/-- No field of a port's register has a range (12 R545). -/
theorem rangeCode_stepctl (s : Chip) (a : Nat) (p : Fin 10) (v : Word) : rangeCode s 12 0 (0x1048 + 0x100 * p.val) a v = 0 := by
  have hout : ¬ (0x4000 ≤ 0x1048 + 0x100 * p.val ∧ 0x1048 + 0x100 * p.val < 0x5000) := by omega
  have hfield : fieldRangeOk 12 (0x1048 + 0x100 * p.val) v = true := rfl
  unfold rangeCode
  rw [hfield]
  exact if_neg hout

/-- A core's write of STEPCTL takes its place in its cycle (12 R552, R563). -/
theorem portCmd_stepctl {s : Chip} (p : Fin 10) (v : Word) (more : Bool) (hcore : s.rst.inCore = false) (hruns : dspRuns s = true) :
    portCmd s p.val (Reg.dspPstepctl p.val) v more = portOp s p.val 0x48 v more := by
  have hrow : (placeWrite s p.val (Reg.dspPstepctl p.val) v more
      (.reg 12 0 (0x1048 + 0x100 * p.val) ⟨0x1048, 10, 256, 0, 0, 0, 0, 0, 0, 0, 0, 0, 0, 0⟩)) = (portOp s p.val 0x48 v more, .done) := by
    have hcs : ((v ^^^ s.rd (Reg.dspPstepctl p.val)) &&& wn 0) = 0 := BitVec.and_zero
    simp [placeWrite, writeRow, hcs, rangeCode_stepctl, actingWrite_stepctl _ _ p v more hruns, refusalOf, refusalReg]
  have hwrite : regWrite s p.val (Reg.dspPstepctl p.val) v more = (portOp s p.val 0x48 v more, .done) := by
    simp [regWrite, placeOf_stepctl, hcore, answers_stepctl p hcore, regAuth_stepctl, hrow]
  rw [portCmd, hwrite, answerWrite]

/-- A cycle of one STEPCTL that begins now (12 R552, R564). -/
theorem portOp_stepctl {s : Chip} (p : Nat) (v : Word) (hruns : dspRuns s = true) (ho : s.dsp.ops = []) :
    portOp s p 0x48 v false = cycleEnd (cycleTimers (stepOp (cycleStart s) p v) (zeroWaits s)) s.dsp.raises := by
  let s' : Chip := { s with dsp := { s.dsp with ops := [⟨p, 0x48, v⟩] } }
  have hstart : cycleStart s' = cycleStart s := by
    have hzero : zeroWaits s' = zeroWaits s := rfl
    rw [cycleStart, cycleStart, hzero]
    split <;> rfl
  have hcycle : portOp s p 0x48 v false = dspCycle s' [] := by
    rw [portOp, ho]
    rfl
  have hrun : dspCycle s' [] = runCycle (cycleStart s') s'.dsp.ops s'.dsp.raises (zeroWaits s') := dspCycle_eq hruns
  rw [hcycle, hrun, hstart]
  rfl
theorem exec_stepctl (p : Fin 10) (v : Word) (more : Bool) (st : State) :
    exec (.stepctl p v more) st = finish st (fun s => portCmd s p.val (Reg.dspPstepctl p.val) v more) := rfl

theorem exec_stepTimerFire (st : State) : exec .stepTimerFire st = finish st phaseZero := rfl

theorem exec_deferredDue (st : State) : exec .deferredDue st = finish st phaseZero := rfl

theorem exec_stepWaitCart (st : State) :
    exec .stepWaitCart st = finish st (fun s => if s.dsp.timers.any (fun e => e.2.wait) then dspCycle s [] else s) := rfl

/-- Settles O39: a timer that makes its cart makes it in its cycle's fourth step (`cycle_makes`), and what follows in the cycle keeps the
pool and the timers (`PoolKeeps`); at phase 0 the deferred carts are queued between the two. -/
theorem stepTimersAndDeferredCarts : Obligations.StepTimersAndDeferredCarts := by
  unfold Obligations.StepTimersAndDeferredCarts
  refine ⟨fun z p v => stepOp_timers z p.val v, fun s => ?_⟩
  intro zero
  have hzero : zeroWaits s.chip = true ↔ zero := zeroWaits_iff s.chip
  refine ⟨fun p v more hcore hruns => ?_, fun h t ht hen hsus hfree ho => ?_, fun hz hp ho => ?_, fun hs hz => ?_, fun hs hw => ?_⟩
  · refine ⟨_, (exec_stepctl ..).trans (finish_eq ..), portCmd_stepctl p v more hcore hruns, fun hm ho => ?_⟩
    rw [portCmd_stepctl p v more hcore hruns, hm, portOp_stepctl p.val v hruns ho]
  · intro made
    refine ⟨fun hz harmed hdue => ⟨_, (exec_stepTimerFire s).trans (finish_eq ..), ?_⟩,
      fun hruns hwait => ⟨_, (exec_stepWaitCart s).trans (finish_eq ..), ?_⟩⟩
    · rw [phaseZero_waits (hzero.2 hz) ho]
      exact cycle_makes ht hen hsus hfree true (.inr ⟨rfl, harmed, hdue⟩) _
    · rw [if_pos (by simp [ht, hwait]), dspCycle_noOps hruns ho]
      exact cycle_makes ht hen hsus hfree _ (.inl hwait) _
  · refine ⟨_, (exec_deferredDue s).trans (finish_eq ..), ?_⟩
    rw [phaseZero_waits (hzero.2 hz) ho]
    exact zeroCycle_deferred hp _
  · rw [exec_stepTimerFire, exec_deferredDue, finish_eq, phaseZero_none (mt hzero.1 hz), settle_still hs]
    exact ⟨rfl, rfl⟩
  · rw [exec_stepWaitCart, finish_eq, if_neg (by simp [hw]), settle_still hs]

end Sys2Proof.Machine
end

section
/-!
PROOFS of the store (02). What a flag, a counted refusal, a clamp and an accepted write change, and the write procedure of R95 by case.
-/

namespace Sys2Proof.Machine

/-- A flag sets its bit, and leaves its event when that is enabled. -/
theorem Chip.flag_eq (s : Chip) (evt en b e : Nat) :
    s.flag evt en b e = { s with
      regs := (s.wrBit evt b true).regs
      notes := s.notes ++ if s.rdBit en b then [.event e] else [] } := by
  cases h : s.rdBit en b
  · rw [Chip.flag_off s e h]
    simp [Chip.wrBit, Chip.wr]
  · rw [Chip.flag_on s e h]
    rfl

theorem Chip.rdBit_flag_self (s : Chip) {evt en b : Nat} (e : Nat) (h : b ≤ 31) : (s.flag evt en b e).rdBit evt b = true := by
  rw [Chip.rdBit, Chip.rd_congr (Chip.flag_regs ..)]
  exact s.rdBit_wrBit_self evt true h

theorem Chip.rdBit_flag_bit (s : Chip) {evt en b c : Nat} (e : Nat) (h : b ≤ 31) (hc : c ≠ b) :
    (s.flag evt en b e).rdBit evt c = s.rdBit evt c := by
  rw [Chip.rdBit, Chip.rd_congr (Chip.flag_regs ..)]
  exact s.rdBit_wrBit_bit evt true h hc

theorem Chip.sigFlag_rd_ne (s : Chip) (b : Nat) {a : Nat} (h : a ≠ Reg.sigEvt) : (s.sigFlag b).rd a = s.rd a :=
  s.flag_rd_ne _ _ _ h

/-! The four counts of R84, R97, R99 and R106 -/

theorem countProd_keepsRegs (s : Chip) (sid src : Nat) : KeepsRegsBut [Reg.sigProderr, Reg.sigProdlast, Reg.sigEvt] s (countProd s sid src) := by
  intro a ha
  simp only [List.mem_cons, List.not_mem_nil, or_false, not_or] at ha
  obtain ⟨hcount, hlast, hevt⟩ := ha
  rw [countProd, Chip.sigFlag_rd_ne _ _ hevt, Chip.rd_wr_ne _ _ hlast, Chip.rd_bump_ne _ hcount]

theorem countGate_keepsRegs (s : Chip) (sid src : Nat) : KeepsRegsBut [Reg.sigGateref, Reg.sigGatelast, Reg.sigEvt] s (countGate s sid src) := by
  intro a ha
  simp only [List.mem_cons, List.not_mem_nil, or_false, not_or] at ha
  obtain ⟨hcount, hlast, hevt⟩ := ha
  rw [countGate, Chip.sigFlag_rd_ne _ _ hevt, Chip.rd_wr_ne _ _ hlast, Chip.rd_bump_ne _ hcount]

theorem countForce_keepsRegs (s : Chip) : KeepsRegsBut [Reg.sigForceref, Reg.sigEvt] s (countForce s) := by
  intro a ha
  simp only [List.mem_cons, List.not_mem_nil, or_false, not_or] at ha
  obtain ⟨hcount, hevt⟩ := ha
  rw [countForce, Chip.sigFlag_rd_ne _ _ hevt, Chip.rd_bump_ne _ hcount]

theorem countClamp_keepsRegs (s : Chip) : KeepsRegsBut [Reg.sigClampcnt, Reg.sigEvt, Reg.odoEvt] s (countClamp s) := by
  intro a ha
  simp only [List.mem_cons, List.not_mem_nil, or_false, not_or] at ha
  obtain ⟨hcount, hevt, hodo⟩ := ha
  rw [countClamp, Chip.odoInc_rd_ne _ _ _ hodo, Chip.sigFlag_rd_ne _ _ hevt, Chip.rd_bump_ne _ hcount]

theorem countClamp_counts (s : Chip) : (countClamp s).rd Reg.sigClampcnt = s.rd Reg.sigClampcnt + 1 := by
  rw [countClamp, Chip.odoInc_rd_ne _ _ _ (by decide), Chip.sigFlag_rd_ne _ _ (by decide), Chip.rd_bump]

theorem countClamp_flags (s : Chip) : (countClamp s).rdBit Reg.sigEvt 3 = true := by
  rw [countClamp, Chip.rdBit, Chip.odoInc_rd_ne _ _ _ (by decide)]
  exact Chip.rdBit_flag_self _ _ (by decide)

theorem countGate_counts (s : Chip) (sid src : Nat) : (countGate s sid src).rd Reg.sigGateref = s.rd Reg.sigGateref + 1 := by
  rw [countGate, Chip.sigFlag_rd_ne _ _ (by decide), Chip.rd_wr_ne _ _ (by decide), Chip.rd_bump]

theorem countGate_last (s : Chip) (sid src : Nat) : (countGate s sid src).rd Reg.sigGatelast = wn (src * 2 ^ 27 + sid % 2 ^ 18) := by
  rw [countGate, Chip.sigFlag_rd_ne _ _ (by decide), Chip.rd_wr_self]

theorem countGate_flags (s : Chip) (sid src : Nat) : (countGate s sid src).rdBit Reg.sigEvt 1 = true :=
  Chip.rdBit_flag_self _ _ (by decide)

theorem countGate_flags_alone (s : Chip) (sid src : Nat) {b : Nat} (h : b ≠ 1) :
    (countGate s sid src).rdBit Reg.sigEvt b = s.rdBit Reg.sigEvt b := by
  rw [countGate, Chip.sigFlag, Chip.rdBit_flag_bit _ _ (by decide) h, Chip.rdBit, Chip.rd_wr_ne _ _ (by decide), Chip.rd_bump_ne _ (by decide),
    Chip.rdBit]

/-- Beside its registers, a claim refusal leaves EVT70 alone, under its enable (R106). -/
theorem countGate_frame (s : Chip) (sid src : Nat) :
    countGate s sid src = { s with
      regs := (countGate s sid src).regs
      notes := s.notes ++ if s.rdBit Reg.sigEvten 1 then [.event 70] else [] } := by
  have hen : ((s.bump Reg.sigGateref).wr Reg.sigGatelast (wn (src * 2 ^ 27 + sid % 2 ^ 18))).rdBit Reg.sigEvten 1 = s.rdBit Reg.sigEvten 1 := by
    rw [Chip.rdBit, Chip.rd_wr_ne _ _ (by decide), Chip.rd_bump_ne _ (by decide), Chip.rdBit]
  rw [countGate, Chip.sigFlag, Chip.flag_eq, hen]
  rfl

theorem exec_bar2JournalWrite (st : State) : exec .bar2JournalWrite st = finish st journalWrite := rfl

/-- Settles O16: with H0 up the write is the claim refusal `countGate` of SID 0 by SRC 10. -/
theorem journalPartOfBar2IsAClaimRefusal : Obligations.JournalPartOfBar2IsAClaimRefusal := by
  intro s hup
  refine ⟨countGate s.chip 0 10, ?_, countGate_counts .., countGate_last .., countGate_flags ..,
    fun b hb => countGate_flags_alone _ _ _ hb, countGate_keepsRegs _ _ _, countGate_frame ..⟩
  rw [exec_bar2JournalWrite, finish_eq, journalWrite, if_pos hup]

/-! The write procedure of R95 -/

/-- The entry that an accepted write leaves (R95). -/
def writtenEntry (s : Chip) (sid : Nat) (d : SidDecl) (r : WriteReq) (src : Nat) : Entry :=
  acceptedEntry (s.entryOf sid d) (if d.isOut then r.value.map (gateClamp d) else r.value) (storedCarried d r src) src s.tb.tick

/-- The Poermun after an accepted write: its clamp counted, the entry replaced (R95, R97). -/
def acceptWrite (s : Chip) (sid : Nat) (d : SidDecl) (r : WriteReq) (src : Nat) : Chip :=
  touchEntry ((if writeClamps d r then countClamp s else s).setEntry sid (writtenEntry s sid d r src)) sid r

/-- What the recorder sees of an accepted write (R92). -/
def acceptNote (s : Chip) (sid : Nat) (d : SidDecl) (r : WriteReq) (src : Nat) : TxnWrite :=
  ⟨sid, (writtenEntry s sid d r src).value, (storedCarried d r src).bits, b2n (writeClamps d r),
    ((acceptWrite s sid d r src).storeRead sid).status⟩

theorem storeWrite_undeclared {s : Chip} {sid : Nat} {r : WriteReq} {w : Writer} (hd : Tab.get? s.store.decls sid = none) :
    storeWrite s sid r w = (countProd s sid w.src, ⟨sid, r.value.getD 0, r.carried.bits, 2, 0⟩) := by
  simp [storeWrite, hd]

section Declared
variable {s : Chip} {sid : Nat} {r : WriteReq} {w : Writer} {d : SidDecl}

theorem storeWrite_notProducer (hd : Tab.get? s.store.decls sid = some d) (hp : producerOk d w = false) :
    storeWrite s sid r w = (countProd s sid w.src, ⟨sid, r.value.getD (s.entryOf sid d).value, r.carried.bits, 2, 0⟩) := by
  simp [storeWrite, hd, hp]

theorem storeWrite_notHolder (hd : Tab.get? s.store.decls sid = some d) (hp : producerOk d w = true)
    (hg : (d.guard && srcIsHost w.src && !isHolder s w) = true) :
    storeWrite s sid r w = (countGate s sid w.src, ⟨sid, r.value.getD (s.entryOf sid d).value, r.carried.bits, 3, 0⟩) := by
  simp only [storeWrite, hd, hp, hg]
  rfl

theorem storeWrite_forced (hd : Tab.get? s.store.decls sid = some d) (hp : producerOk d w = true)
    (hg : (d.guard && srcIsHost w.src && !isHolder s w) = false) (hf : (d.isOut && s.forced d.fgrp) = true) :
    storeWrite s sid r w = (countForce s, ⟨sid, r.value.getD (s.entryOf sid d).value, r.carried.bits, 4, 0⟩) := by
  simp only [storeWrite, hd, hp, hg, hf]
  rfl

theorem storeWrite_accepted (hd : Tab.get? s.store.decls sid = some d) (hp : producerOk d w = true)
    (hg : (d.guard && srcIsHost w.src && !isHolder s w) = false) (hf : (d.isOut && s.forced d.fgrp) = false) :
    storeWrite s sid r w = (acceptWrite s sid d r w.src, acceptNote s sid d r w.src) := by
  simp only [storeWrite, hd, hp, hg, hf]
  rfl

end Declared

/-- A write is clamped when it brings a value beyond the limits of an OUT SID (R97). -/
theorem writeClamps_iff (d : SidDecl) (r : WriteReq) :
    writeClamps d r = true ↔ d.isOut = true ∧ ∃ v, r.value = some v ∧ (v < d.lo ∨ d.hi < v) := by
  unfold writeClamps
  cases r.value <;> simp

theorem touchEntry_store (s : Chip) (sid : Nat) (r : WriteReq) : (touchEntry s sid r).store = s.store := by
  unfold touchEntry
  split <;> rfl

theorem touchEntry_regs (s : Chip) (sid : Nat) (r : WriteReq) : (touchEntry s sid r).regs = s.regs := by
  unfold touchEntry
  split <;> rfl

theorem countClamp_store (s : Chip) : (countClamp s).store = s.store := by
  simp [countClamp, Chip.sigFlag]

theorem acceptWrite_entries (s : Chip) (sid : Nat) (d : SidDecl) (r : WriteReq) (src : Nat) :
    (acceptWrite s sid d r src).store.entries = Tab.ins (Tab.erase s.store.entries sid) sid (writtenEntry s sid d r src) := by
  rw [acceptWrite, touchEntry_store]
  split
  · exact congrArg (fun x : Store => Tab.ins (Tab.erase x.entries sid) sid _) (countClamp_store s)
  · rfl

theorem acceptWrite_rd (s : Chip) (sid : Nat) (d : SidDecl) (r : WriteReq) (src a : Nat) :
    (acceptWrite s sid d r src).rd a = (if writeClamps d r then countClamp s else s).rd a :=
  Chip.rd_congr (touchEntry_regs ..) a

/-- Settles O13: the case split of R95 is that of `storeWrite`; each case is its equation, and the accepted one says what `acceptWrite` leaves. -/
theorem storeWriteDecidesInOrder : Obligations.StoreWriteDecidesInOrder := by
  intro s sid r w
  refine ⟨fun hd => by simp [storeWrite_undeclared hd], fun d hd => ?_⟩
  intro guarded e
  refine ⟨fun hp => by simp [storeWrite_notProducer hd hp], fun hp hg => by simp [storeWrite_notHolder hd hp hg],
    fun hp hg ho hf => by simp [storeWrite_forced hd hp hg (by simp [ho, hf])], fun hp hg hf => ?_⟩
  have hforced : (d.isOut && s.forced d.fgrp) = false := by
    cases ho : d.isOut
    · rfl
    · exact hf ho
  rw [storeWrite_accepted hd hp hg hforced]
  intro t clamps
  have hclamps : writeClamps d r = true ↔ clamps := writeClamps_iff d r
  refine ⟨?_, fun k hk => ?_, ?_, fun hc => ?_, ?_⟩
  · have hentry : Tab.get? t.store.entries sid = some (writtenEntry s sid d r w.src) := by
      rw [acceptWrite_entries]
      exact Tab.get?_ins_erase ..
    have hsat : writeClamps d r = decide clamps := by
      rw [Bool.eq_iff_iff, hclamps, decide_eq_true_iff]
    rw [hentry, ← hsat]
    unfold writtenEntry acceptedEntry
    cases r.value <;> cases d.isOut <;> rfl
  · rw [acceptWrite_entries, Tab.get?_ins_ne _ _ hk, Tab.get?_erase_ne _ hk]
  · rw [acceptWrite_rd]
    by_cases hc : clamps
    · rw [if_pos (hclamps.2 hc), if_pos hc, countClamp_counts]
    · rw [if_neg (mt hclamps.1 hc), if_neg hc]
  · rw [Chip.rdBit, acceptWrite_rd, if_pos (hclamps.2 hc)]
    exact countClamp_flags s
  · by_cases hc : clamps
    · rw [if_pos hc, acceptNote, hclamps.2 hc]
      rfl
    · rw [if_neg hc, acceptNote, Bool.eq_false_iff.2 (mt hclamps.1 hc)]
      rfl

end Sys2Proof.Machine
end

section
/-!
PROOFS of the store (02). The composed read of R96.
-/

namespace Sys2Proof.Machine

/-- STATUS as eight bits put together (R77): each reads back, and nothing stands beyond them. -/
theorem statusByte_bits : ∀ b0 b1 b2 b3 b4 b5 b6 b7 : Bool,
    let st := b2n b0 + 2 * b2n b1 + 4 * b2n b2 + 8 * b2n b3 + 16 * b2n b4 + 32 * b2n b5 + 64 * b2n b6 + 128 * b2n b7
    st < 256 ∧ natBit st 0 = b0 ∧ natBit st 1 = b1 ∧ natBit st 2 = b2 ∧ natBit st 3 = b3 ∧ natBit st 4 = b4 ∧ natBit st 5 = b5 ∧
      natBit st 6 = b6 ∧ natBit st 7 = b7 := by
  decide

theorem storeRead_declared {s : Chip} {sid : Nat} {d : SidDecl} {e : Entry} (hd : Tab.get? s.store.decls sid = some d)
    (he : Tab.get? s.store.entries sid = some e) : s.storeRead sid = composeRead s d e s.tb.tick := by
  simp [Chip.storeRead, hd, he]

theorem storeRead_undeclared {s : Chip} {sid : Nat} (hd : Tab.get? s.store.decls sid = none) : s.storeRead sid = undeclaredRead := by
  simp [Chip.storeRead, hd]

/-- Settles O14: VALUE, WSEQ and AGE are those of `composeRead`, and its STATUS is put together of the eight bits named. -/
theorem storeReadComposes : Obligations.StoreReadComposes := by
  refine ⟨fun s sid d e hd he => ?_, fun s sid q w hd => ?_⟩
  · rw [storeRead_declared hd he]
    exact ⟨rfl, rfl, rfl, statusByte_bits ..⟩
  · exact ⟨storeRead_undeclared hd, by rw [storeWrite_undeclared hd]⟩

end Sys2Proof.Machine
end

section
/-!
PROOFS of the store (02). The P3 queues (R88, R89), and the arbiter's transaction with its frame (R90, R116).
-/

namespace Sys2Proof.Machine

/-! A write enters its agent's queue -/

/-- Of the store, the head of a host port's queue depends on whether a posted write of H0 waits; one that waits holds H0's commands back. -/
theorem headUnknown_posted {s : Chip} {x : Store} (p : HostPort) (hq : h0Posted s = true → h0Posted { s with store := x } = true)
    (h : headUnknown s p = none) : headUnknown { s with store := x } p = none := by
  by_cases hx : h0Posted { s with store := x } = true
  · cases p
    case h0 =>
      have hready : h0Ready { s with store := x } = false := by simp [h0Ready, hx]
      simp [headUnknown, hready]
    all_goals exact h
  · have hp : h0Posted { s with store := x } = h0Posted s := by
      rw [Bool.eq_false_iff.2 hx, Bool.eq_false_iff.2 (mt hq hx)]
    have hready : h0Ready { s with store := x } = h0Ready s := by
      unfold h0Ready
      rw [hp]
      rfl
    unfold headUnknown at h ⊢
    rw [hready]
    exact h

/-- A store that keeps H0's posted writes waiting leaves nothing behind. -/
theorem Still.setStore {s : Chip} {x : Store} (h : Still s) (hq : h0Posted s = true → h0Posted { s with store := x } = true) :
    Still { s with store := x } := by
  obtain ⟨hn, hb, hc, hh, ht⟩ := h
  exact ⟨hn, hb, hc, headUnknown_posted _ hq hh, headUnknown_posted _ hq ht⟩

theorem Still.dropCapture {s : Chip} (h : Still s) (reader : Nat) : Still (dropCapture s reader) := h.setStore id

/-- The Poermun with the write at the end of what waits of its agent. -/
theorem p3Enqueue_eq {s : Chip} {w : P3Write} (h : w.form ≠ .counters) :
    p3Enqueue s w = { s with store := { s.store with
      p3q := Tab.set [] s.store.p3q (p3Agent w.src) (Tab.get [] s.store.p3q (p3Agent w.src) ++ [w]) } } := if_neg h

theorem p3Enqueue_counters {s : Chip} {w : P3Write} (h : w.form = .counters) : p3Enqueue s w = s := if_pos h

theorem p3Enqueue_agent {s : Chip} {w : P3Write} (h : w.form ≠ .counters) :
    Tab.get [] (p3Enqueue s w).store.p3q (p3Agent w.src) = Tab.get [] s.store.p3q (p3Agent w.src) ++ [w] := by
  rw [p3Enqueue_eq h, Tab.get_set_self]

theorem p3Enqueue_other {s : Chip} {w : P3Write} {b : Nat} (h : b ≠ p3Agent w.src) :
    Tab.get [] (p3Enqueue s w).store.p3q b = Tab.get [] s.store.p3q b := by
  unfold p3Enqueue
  dsimp only
  split
  · rfl
  · exact Tab.get_set_ne _ _ _ _ h

/-- A write that joins the P3 queues leaves none of H0's posted writes out. -/
theorem Still.p3Enqueue {s : Chip} (h : Still s) (w : P3Write) : Still (p3Enqueue s w) := by
  by_cases hw : w.form = .counters
  · rwa [p3Enqueue_counters hw]
  · rw [p3Enqueue_eq hw]
    refine h.setStore fun hp => ?_
    by_cases ha : 10 = p3Agent w.src
    · simp only [h0Posted, ← ha, Tab.get_set_self, List.any_append] at hp ⊢
      simp [hp]
    · simpa only [h0Posted, Tab.get_set_ne _ _ _ _ ha] using hp

/-- With room in the agent's queue, the write is its last and none is held. -/
theorem p3Queue_room {s t : Chip} {a : Nat} {w : P3Write} (h : Tab.get [] t.store.p3q a = Tab.get [] s.store.p3q a ++ [w])
    (hroom : (p3Queue s a).length < 4) : p3Queue t a = p3Queue s a ++ [w] ∧ p3Held t a = [] := by
  have hlen : (Tab.get [] s.store.p3q a).length < 4 := by
    rw [p3Queue, List.length_take] at hroom
    omega
  rw [p3Queue, p3Queue, p3Held, h]
  exact ⟨by rw [List.take_of_length_le (by simpa using hlen), List.take_of_length_le hlen.le],
    List.drop_of_length_le (by simpa using hlen)⟩

/-- With four in the agent's queue, the write is held behind it with its writer. -/
theorem p3Queue_full {s t : Chip} {a : Nat} {w : P3Write} (h : Tab.get [] t.store.p3q a = Tab.get [] s.store.p3q a ++ [w])
    (hfull : (p3Queue s a).length = 4) : p3Queue t a = p3Queue s a ∧ p3Held t a = p3Held s a ++ [w] ∧ stalled t a = true := by
  have hlen : 4 ≤ (Tab.get [] s.store.p3q a).length := by
    rw [p3Queue, List.length_take] at hfull
    omega
  have hheld : p3Held t a = p3Held s a ++ [w] := by
    rw [p3Held, p3Held, h, List.drop_append_of_le_length hlen]
  exact ⟨by rw [p3Queue, p3Queue, h, List.take_append_of_le_length hlen], hheld, by simp [stalled, hheld]⟩

theorem exec_p3QueueWrite (who : Agent) (mac : BitVec 48) (sid : Sid) (form : P3Form) (st : State) :
    exec (.p3QueueWrite who mac sid form) st = finish st (fun s => p3Write s who mac.toNat sid.toNat form) := rfl

/-- A write that reaches the store ends in its place in the queue, and nothing follows from it. -/
theorem exec_p3QueueWrite_reaches {s : State} {who : Agent} (mac : BitVec 48) (sid : Sid) (form : P3Form) (hs : Still s.chip)
    (hr : reachesStore s.chip who = true) :
    exec (.p3QueueWrite who mac sid form) s = .next { s with
      chip := p3Enqueue (dropCapture s.chip (agentSrc who)) ⟨agentSrc who, p3Sup s.chip who mac.toNat, sid.toNat, form, false⟩ } := by
  have hwrite : p3Write s.chip who mac.toNat sid.toNat form =
      p3Enqueue (dropCapture s.chip (agentSrc who)) ⟨agentSrc who, p3Sup s.chip who mac.toNat, sid.toNat, form, false⟩ := if_pos hr
  rw [exec_p3QueueWrite, finish_eq, hwrite, settle_still ((hs.dropCapture _).p3Enqueue _)]

/-! What a store write and a transaction leave alone -/

/-- The Poermun with other views kept (01 R47, R50). -/
def withViews (s : Chip) (frozen : Tab StoreRead) (froze : Bool) (cut : Option (Tab Entry)) : Chip :=
  { s with store := { s.store with
    frozen := frozen
    froze := froze
    cutView := cut } }

theorem keepViews_eq (s : Chip) : ∃ f b c, keepViews s = withViews s f b c := by
  unfold keepViews freezeStore
  dsimp only
  (repeat' split) <;> exact ⟨_, _, _, rfl⟩

section Views
variable (s : Chip) (f : Tab StoreRead) (b : Bool) (c : Option (Tab Entry))

theorem flag_withViews (evt en k e : Nat) : (withViews s f b c).flag evt en k e = withViews (s.flag evt en k e) f b c := by
  rw [Chip.flag_eq, Chip.flag_eq]
  rfl

theorem wr_withViews (a : Nat) (v : Word) : (withViews s f b c).wr a v = withViews (s.wr a v) f b c := rfl

theorem bump_withViews (a : Nat) : (withViews s f b c).bump a = withViews (s.bump a) f b c := rfl

theorem countProd_withViews (sid src : Nat) : countProd (withViews s f b c) sid src = withViews (countProd s sid src) f b c := by
  rw [countProd, bump_withViews, wr_withViews, Chip.sigFlag, flag_withViews, countProd, Chip.sigFlag]

theorem countGate_withViews (sid src : Nat) : countGate (withViews s f b c) sid src = withViews (countGate s sid src) f b c := by
  rw [countGate, bump_withViews, wr_withViews, Chip.sigFlag, flag_withViews, countGate, Chip.sigFlag]

theorem countForce_withViews : countForce (withViews s f b c) = withViews (countForce s) f b c := by
  rw [countForce, bump_withViews, Chip.sigFlag, flag_withViews, countForce, Chip.sigFlag]

theorem odoInc_withViews (k n : Nat) : (withViews s f b c).odoInc k n = withViews (s.odoInc k n) f b c := by
  unfold Chip.odoInc
  dsimp only
  rw [apply_ite (withViews · f b c), ← flag_withViews]
  rfl

theorem countClamp_withViews : countClamp (withViews s f b c) = withViews (countClamp s) f b c := by
  rw [countClamp, bump_withViews, Chip.sigFlag, flag_withViews, odoInc_withViews, countClamp, Chip.sigFlag]

theorem acceptWrite_withViews (sid : Nat) (d : SidDecl) (r : WriteReq) (src : Nat) :
    acceptWrite (withViews s f b c) sid d r src = withViews (acceptWrite s sid d r src) f b c := by
  unfold acceptWrite touchEntry
  rw [countClamp_withViews]
  split <;> split <;> rfl

theorem acceptNote_withViews (sid : Nat) (d : SidDecl) (r : WriteReq) (src : Nat) :
    acceptNote (withViews s f b c) sid d r src = acceptNote s sid d r src := by
  unfold acceptNote
  rw [acceptWrite_withViews]
  rfl

end Views

/-- Every case of R95: a refusal counted by its check, or the write accepted. -/
theorem storeWrite_branches (s : Chip) (sid : Nat) (w : Writer) :
    Tab.get? s.store.decls sid = none ∨ ∃ d, Tab.get? s.store.decls sid = some d ∧
      (producerOk d w = false ∨ producerOk d w = true ∧
        ((d.guard && srcIsHost w.src && !isHolder s w) = true ∨ (d.guard && srcIsHost w.src && !isHolder s w) = false ∧
          ((d.isOut && s.forced d.fgrp) = true ∨ (d.isOut && s.forced d.fgrp) = false))) := by
  cases Tab.get? s.store.decls sid with
  | none => exact .inl rfl
  | some d =>
    refine .inr ⟨d, rfl, ?_⟩
    cases producerOk d w
    · exact .inl rfl
    · refine .inr ⟨rfl, ?_⟩
      cases d.guard && srcIsHost w.src && !isHolder s w
      · exact .inr ⟨rfl, (Bool.eq_false_or_eq_true _)⟩
      · exact .inl rfl

/-- The views kept do not enter R95. -/
theorem storeWrite_withViews (s : Chip) (f : Tab StoreRead) (b : Bool) (c : Option (Tab Entry)) (sid : Nat) (r : WriteReq) (w : Writer) :
    storeWrite (withViews s f b c) sid r w = (withViews (storeWrite s sid r w).1 f b c, (storeWrite s sid r w).2) := by
  rcases storeWrite_branches s sid w with hd | ⟨d, hd, hp | ⟨hp, hg | ⟨hg, hf | hf⟩⟩⟩
  · rw [storeWrite_undeclared (s := withViews s f b c) hd, storeWrite_undeclared hd, countProd_withViews]
  · rw [storeWrite_notProducer (s := withViews s f b c) hd hp, storeWrite_notProducer hd hp, countProd_withViews]
    rfl
  · rw [storeWrite_notHolder (s := withViews s f b c) hd hp hg, storeWrite_notHolder hd hp hg, countGate_withViews]
    rfl
  · rw [storeWrite_forced (s := withViews s f b c) hd hp hg hf, storeWrite_forced hd hp hg hf, countForce_withViews]
    rfl
  · rw [storeWrite_accepted (s := withViews s f b c) hd hp hg hf, storeWrite_accepted hd hp hg hf, acceptWrite_withViews,
      acceptNote_withViews]

/-- What the four counts, a replaced entry and the marks of its bytes leave alone, a store write leaves alone. -/
theorem storeWrite_keeps {β : Type} (π : Chip → β) (hprod : ∀ s sid src, π (countProd s sid src) = π s)
    (hgate : ∀ s sid src, π (countGate s sid src) = π s) (hforce : ∀ s, π (countForce s) = π s) (hclamp : ∀ s, π (countClamp s) = π s)
    (hentry : ∀ s sid e, π (Chip.setEntry s sid e) = π s) (htouch : ∀ s a n, π (touchWords s a n) = π s)
    (s : Chip) (sid : Nat) (r : WriteReq) (w : Writer) : π (storeWrite s sid r w).1 = π s := by
  rcases storeWrite_branches s sid w with hd | ⟨d, hd, hp | ⟨hp, hg | ⟨hg, hf | hf⟩⟩⟩
  · rw [storeWrite_undeclared hd, hprod]
  · rw [storeWrite_notProducer hd hp, hprod]
  · rw [storeWrite_notHolder hd hp hg, hgate]
  · rw [storeWrite_forced hd hp hg hf, hforce]
  · have htouched : ∀ x, π (touchEntry x sid r) = π x := fun x => by
      unfold touchEntry
      split <;> exact htouch ..
    rw [storeWrite_accepted hd hp hg hf, acceptWrite, htouched, hentry, apply_ite π, hclamp, ite_self]

section Frame
variable (s : Chip) (sid : Nat) (r : WriteReq) (w : Writer)

@[simp] theorem storeWrite_tb : (storeWrite s sid r w).1.tb = s.tb :=
  storeWrite_keeps Chip.tb (by simp [countProd, Chip.sigFlag]) (by simp [countGate, Chip.sigFlag]) (by simp [countForce, Chip.sigFlag])
    (by simp [countClamp, Chip.sigFlag]) (by simp) (by simp) ..

@[simp] theorem storeWrite_hst : (storeWrite s sid r w).1.hst = s.hst :=
  storeWrite_keeps Chip.hst (by simp [countProd, Chip.sigFlag]) (by simp [countGate, Chip.sigFlag]) (by simp [countForce, Chip.sigFlag])
    (by simp [countClamp, Chip.sigFlag]) (by simp) (by simp) ..

@[simp] theorem storeWrite_p3q : (storeWrite s sid r w).1.store.p3q = s.store.p3q :=
  storeWrite_keeps (·.store.p3q) (by simp [countProd, Chip.sigFlag]) (by simp [countGate, Chip.sigFlag])
    (by simp [countForce, Chip.sigFlag]) (by simp [countClamp_store]) (fun _ _ _ => rfl) (by simp) ..

@[simp] theorem storeWrite_p3next : (storeWrite s sid r w).1.store.p3next = s.store.p3next :=
  storeWrite_keeps (·.store.p3next) (by simp [countProd, Chip.sigFlag]) (by simp [countGate, Chip.sigFlag])
    (by simp [countForce, Chip.sigFlag]) (by simp [countClamp_store]) (fun _ _ _ => rfl) (by simp) ..

/-- A store write counts no transaction of a port (R116). -/
theorem storeWrite_pcnt : (storeWrite s sid r w).1.rd (Reg.sigPcnt 3) = s.rd (Reg.sigPcnt 3) :=
  storeWrite_keeps (·.rd (Reg.sigPcnt 3)) (fun s sid src => countProd_keepsRegs s sid src _ (by decide))
    (fun s sid src => countGate_keepsRegs s sid src _ (by decide)) (fun s => countForce_keepsRegs s _ (by decide))
    (fun s => countClamp_keepsRegs s _ (by decide)) (fun _ _ _ => rfl) (fun _ _ _ => rfl) ..

end Frame

/-! A transaction of one write, and the port that it is counted for -/

/-- The port's count goes up by one; beside it only the port's peak and its count of this tick change (R116, R117). -/
theorem countPort_eq (s : Chip) (p : Nat) :
    ∃ regs n, countPort s p = { s with
      regs := regs
      store := { s.store with portTick := n } } := by
  unfold countPort
  dsimp only
  split <;> exact ⟨_, _, rfl⟩

theorem countPort_counts (s : Chip) : (countPort s 3).rd (Reg.sigPcnt 3) = s.rd (Reg.sigPcnt 3) + 1 := by
  have hbump : ∀ x : Store, { s.bump (Reg.sigPcnt 3) with store := x }.rd (Reg.sigPcnt 3) = s.rd (Reg.sigPcnt 3) + 1 := fun _ => s.rd_bump _
  unfold countPort
  dsimp only
  split
  · rw [Chip.wrF, Chip.rd_wr_ne _ _ (by decide), hbump]
  · exact hbump _

/-- A transaction of one write: the write under R95, whatever views it keeps, the port's count, and what the recorder is shown (R85, R92). -/
theorem transaction_single (s : Chip) (port : Nat) (w : Writer) (tag sid : Nat) (r : WriteReq) (body : List Byte) :
    ∃ f b c, transaction s port w tag [(sid, r)] body =
      let y := countPort (withViews (storeWrite s sid r w).1 f b c) port
      { y with notes := y.notes ++ [.txn ⟨port, w.src, tag, y.tb.tick, y.phaseRead, [(storeWrite s sid r w).2], body⟩] } := by
  obtain ⟨f, b, c, hviews⟩ := keepViews_eq s
  refine ⟨f, b, c, ?_⟩
  simp only [transaction, storeWrites, hviews, List.foldl_cons, List.foldl_nil, storeWrite_withViews, List.nil_append]

/-! The arbiter takes a write -/

theorem p3Pick_none {q : Tab (List P3Write)} (start : Nat) (h : ∀ a, a < 11 → Tab.get [] q a = []) : p3Pick q start = none := by
  simp only [p3Pick, List.find?_eq_none, List.mem_map]
  rintro _ ⟨i, -, rfl⟩
  simp [h _ (Nat.mod_lt _ (by decide))]

/-- The first agent from `start` on that has a write (R88). -/
theorem p3Pick_first {q : Tab (List P3Write)} {start i : Nat} (hi : i < 11) (hnone : ∀ j, j < i → Tab.get [] q ((start + j) % 11) = [])
    (hsome : Tab.get [] q ((start + i) % 11) ≠ []) : p3Pick q start = some ((start + i) % 11) := by
  have hfind : (List.range 11).find? ((fun a => Tab.get [] q a != []) ∘ fun i => (start + i) % 11) = some i := by
    rw [List.find?_range_eq_some]
    refine ⟨by simpa using hsome, List.mem_range.2 hi, fun j hj => by simp [hnone j hj]⟩
  rw [p3Pick, List.find?_map, hfind, Option.map_some]

/-- With no WRSIG running on the port of the write's source, no pair is noted. -/
theorem notePair_none {s : Chip} {w : P3Write} {out : Nat} (h : wrsigRuns s w.src = false) : notePair s w out = s := by
  have hnone : Tab.get .none s.hst.wrsig w.src = none := by simpa [wrsigRuns] using h
  unfold notePair
  rw [hnone]
  split
  · contradiction
  · rfl

theorem wrsigEnd_none {s : Chip} {src : Nat} (h : wrsigRuns s src = false) : wrsigEnd s src = s := by
  have hnone : Tab.get .none s.hst.wrsig src = none := by simpa [wrsigRuns] using h
  unfold wrsigEnd
  rw [hnone]

/-- With no WRSIG running none is answered. -/
theorem wrsigEnds_none {s : Chip} (h : ∀ src, wrsigRuns s src = false) : [10, 11, 12, 16].foldl wrsigEnd s = s := by
  simp only [List.foldl_cons, List.foldl_nil, wrsigEnd_none (h _)]

/-- The gate instant of this tick is past or not yet due. -/
theorem gateDue_none {s : Chip} (h : s.tb.phase < 9500 ∨ s.store.gateDone = true) : gateDue s = s := by
  refine if_neg ?_
  rcases h with h | h
  · simp [Nat.not_le.2 h]
  · simp [h]

theorem p3Take_none {s : Chip} (h : p3Pick s.store.p3q s.store.p3next = none) : p3Take s = s := by
  simp only [p3Take, h]

/-- The Poermun with agent `a`'s first write taken out of its queue, and the next look behind the agent (R88). -/
def p3Taken (s : Chip) (a : Nat) (rest : List P3Write) : Chip :=
  { s with store := { s.store with
    p3q := Tab.set [] s.store.p3q a rest
    p3next := (a + 1) % 11 } }

/-- The writer of a waiting write, as the gate sees it (R83, R90). -/
abbrev P3Write.writer (w : P3Write) : Writer := ⟨w.src, .p3 false false false, w.sup⟩

/-- The transaction of the write taken from agent `a` (R90). -/
def p3Stamped (s : Chip) (a : Nat) (w : P3Write) (rest : List P3Write) (r : WriteReq) : Chip :=
  transaction (p3Taken s a rest) 3 w.writer (w.src % 32 + 32 * (p3Tag w.form).1) [(w.sid, r)] (p3Tag w.form).2

/-- The transaction makes the write under R95 on what the queue leaves, counts it for port 3 and presents it with the stamp of now (R90, R92,
R116); no host's command moves by it. -/
theorem p3Stamped_spec (s : Chip) (a : Nat) (w : P3Write) (rest : List P3Write) (r : WriteReq) :
    let x := p3Stamped s a w rest r
    let o := storeWrite (p3Taken s a rest) w.sid r w.writer
    x.hst = s.hst ∧ x.store.p3q = (p3Taken s a rest).store.p3q ∧ x.store.p3next = (p3Taken s a rest).store.p3next ∧
      x.store.entries = o.1.store.entries ∧ x.rd (Reg.sigPcnt 3) = s.rd (Reg.sigPcnt 3) + 1 ∧
      x.notes = o.1.notes ++ [.txn ⟨3, w.src, w.src % 32 + 32 * (p3Tag w.form).1, s.tb.tick, x.phaseRead, [o.2], (p3Tag w.form).2⟩] := by
  intro x o
  obtain ⟨f, b, c, htxn⟩ := transaction_single (p3Taken s a rest) 3 w.writer (w.src % 32 + 32 * (p3Tag w.form).1) w.sid r (p3Tag w.form).2
  let y := countPort (withViews o.1 f b c) 3
  have hx : x = { y with notes := y.notes ++
      [.txn ⟨3, w.src, w.src % 32 + 32 * (p3Tag w.form).1, y.tb.tick, y.phaseRead, [o.2], (p3Tag w.form).2⟩] } := htxn
  have hcount : x.rd (Reg.sigPcnt 3) = s.rd (Reg.sigPcnt 3) + 1 := by
    rw [hx]
    exact (countPort_counts _).trans (congrArg (· + 1) (storeWrite_pcnt (p3Taken s a rest) w.sid r w.writer))
  obtain ⟨regs, n, hport⟩ := countPort_eq (withViews o.1 f b c) 3
  have hy : y = { withViews o.1 f b c with
      regs := regs
      store := { (withViews o.1 f b c).store with portTick := n } } := hport
  have htick : y.tb.tick = s.tb.tick := by
    rw [hy]
    exact congrArg TimeBase.tick (storeWrite_tb (p3Taken s a rest) ..)
  have hnotes : y.notes = o.1.notes := by
    rw [hy]
    rfl
  have hphase : x.phaseRead = y.phaseRead := by
    rw [hx]
    rfl
  refine ⟨?_, ?_, ?_, ?_, hcount, ?_⟩
  · rw [hx, hy]
    exact storeWrite_hst (p3Taken s a rest) ..
  · rw [hx, hy]
    exact storeWrite_p3q ..
  · rw [hx, hy]
    exact storeWrite_p3next ..
  · rw [hx, hy]
    rfl
  · rw [hphase, ← htick, hx]
    exact congrArg (· ++ _) hnotes

theorem p3Stamped_hst (s : Chip) (a : Nat) (w : P3Write) (rest : List P3Write) (r : WriteReq) : (p3Stamped s a w rest r).hst = s.hst :=
  (p3Stamped_spec s a w rest r).1

theorem p3Take_first {s : Chip} {a : Nat} {w : P3Write} {rest : List P3Write} {r : WriteReq} (hrun : ∀ src, wrsigRuns s src = false)
    (hpick : p3Pick s.store.p3q s.store.p3next = some a) (hq : Tab.get [] s.store.p3q a = w :: rest) (hr : p3Request w.form = some r) :
    p3Take s = p3Stamped s a w rest r := by
  have hnote : wrsigRuns (p3Stamped s a w rest r) w.src = false := by
    rw [wrsigRuns, p3Stamped_hst]
    exact hrun _
  simp only [p3Take, hpick, hq, hr]
  exact notePair_none hnote

theorem exec_p3ArbiterTake (st : State) : exec .p3ArbiterTake st = finish st p3Arbiter := rfl

/-- Settles O15: a write's place is the end of what waits of its agent, split at four (`p3Queue_room`, `p3Queue_full`); the arbiter's take is the
transaction of the first write found (`p3Pick_first`), whose write is that of R95 on the state the queue leaves (`transaction_single`). -/
theorem p3QueuesAndArbiter : Obligations.P3QueuesAndArbiter := by
  refine ⟨fun s who mac sid form hs hr => ?_, fun s hgate hrun => ?_⟩
  · intro a forget
    refine ⟨fun hform => ?_, fun hform => ?_⟩
    · let w : P3Write := ⟨agentSrc who, p3Sup s.chip who mac.toNat, sid.toNat, form, false⟩
      have hagent := p3Enqueue_agent (s := dropCapture s.chip (agentSrc who)) (w := w) hform
      refine ⟨_, exec_p3QueueWrite_reaches mac sid form hs hr, hagent, ⟨fun h => p3Queue_room hagent h.2, fun h => p3Queue_full hagent h⟩,
        fun b hb => p3Enqueue_other (w := w) hb, ?_⟩
      rw [p3Enqueue_eq (w := w) hform]
      rfl
    · rw [exec_p3QueueWrite_reaches mac sid form hs hr, p3Enqueue_counters hform]
      rfl
  · have htake : p3Arbiter s.chip = [10, 11, 12, 16].foldl wrsigEnd (p3Take s.chip) := by rw [p3Arbiter, gateDue_none hgate]
    refine ⟨fun hs hnone => ?_, fun i w rest r hi hnone hq hr => ?_⟩
    · rw [exec_p3ArbiterTake, finish_eq, htake, p3Take_none (p3Pick_none _ hnone), wrsigEnds_none hrun, settle_still hs]
    · have hpick := p3Pick_first hi hnone (by rw [hq]; exact List.cons_ne_nil _ _)
      have heff : p3Arbiter s.chip = p3Stamped s.chip ((s.chip.store.p3next + i) % 11) w rest r := by
        rw [htake, p3Take_first hrun hpick hq hr]
        exact wrsigEnds_none fun src => by rw [wrsigRuns, p3Stamped_hst]; exact hrun src
      obtain ⟨-, hspec⟩ := p3Stamped_spec s.chip ((s.chip.store.p3next + i) % 11) w rest r
      exact ⟨_, by rw [exec_p3ArbiterTake, finish_eq, heff], hspec⟩

end Sys2Proof.Machine
end

section
/-!
PROOFS of slot record writes (03). A write of a record word by its class, and the commands of a tile while its shadow queue has room.
-/

namespace Sys2Proof.Machine

/-! ### Where a record word stands -/

/-- The LID of a slot of a tile (03 R128). -/
abbrev lidOf (t : Fin 16) (slot : BitVec 8) : Nat := 256 * t.val + slot.toNat

theorem slotAddr_window (t : Fin 16) (slot : BitVec 8) (w : Fin 32) :
    slotAddr t.val slot.toNat w.val = 0x18000000 + 0x100000 * t.val + (128 * slot.toNat + 4 * w.val) ∧ 128 * slot.toNat + 4 * w.val < 0x8000 := by
  have hs := slot.isLt
  have hw := w.isLt
  unfold slotAddr
  omega

theorem placeOf_slotAddr (t : Fin 16) (slot : BitVec 8) (w : Fin 32) :
    placeOf (slotAddr t.val slot.toNat w.val) = some (.slotRec (lidOf t slot) w.val) := by
  have ht := t.isLt
  have hs := slot.isLt
  have hw := w.isLt
  obtain ⟨ha, ho⟩ := slotAddr_window t slot w
  generalize slotAddr t.val slot.toNat w.val = a at ha ⊢
  have hoff : (a - 0x18000000) % 0x100000 = 128 * slot.toNat + 4 * w.val := by omega
  have htile : (a - 0x18000000) / 0x100000 = t.val := by omega
  have hsplit : splitAddr a = none := by
    unfold splitAddr
    rw [if_neg (by omega), if_pos (by omega)]
    simp only [hoff]
    rw [if_neg (by omega)]
  have hslot : (128 * slot.toNat + 4 * w.val) / 128 = slot.toNat := by omega
  have hword : (128 * slot.toNat + 4 * w.val) % 128 / 4 = w.val := by omega
  unfold placeOf
  rw [if_neg (by omega), hsplit]
  simp only
  rw [if_pos (by omega), hoff, htile, tilePlace, if_pos ho, hslot, hword]

theorem lid_div (t : Fin 16) (slot : BitVec 8) : lidOf t slot / 256 = t.val := by
  have := slot.isLt
  unfold lidOf
  omega

theorem lid_mod (t : Fin 16) (slot : BitVec 8) : lidOf t slot % 256 = slot.toNat := by
  have := slot.isLt
  unfold lidOf
  omega

/-- A write of an agent that may write the record word is judged and made, or waits (03 R135–R140). -/
theorem regCmd_slot {s : Chip} {who : Agent} {t : Fin 16} {slot : BitVec 8} {w : Fin 32} (hm : MayWrite s who (slotAddr t.val slot.toNat w.val))
    (hd : tileDue s = s) (v : Word) :
    regCmd s who (slotAddr t.val slot.toNat w.val) v = answerWrite (agentSrc who) (slotAddr t.val slot.toNat w.val) v
      (slotStore s (lidOf t slot) w.val v) := by
  obtain ⟨hcore, hans, hauth⟩ := hm
  unfold regCmd regWrite
  simp only [placeOf_slotAddr, hcore, hans, hauth, Bool.and_false, Bool.not_true, Bool.false_eq_true, if_false, placeWrite, hd]

/-! ### The judgement -/

section
variable {s : Chip} {lid w : Nat} {v : Word}

theorem slotEnabling_ctl (h : w ≠ 0) : slotEnabling s lid w v = false := by
  simp [slotEnabling, h]

/-- A write that passes the CS rule, RANGE, PRODUCER and, where it enables the slot, the checks of an enable is not refused (03 R139, R140). -/
theorem slotJudge_passes (hcs : (slotRunning s lid && ((v ^^^ recWord s lid w) &&& wn (wordCs w)) != 0) = false)
    (hrange : wordRangeOk w v = true) (hprod : wordProducerOk s lid w v = true)
    (henable : slotEnabling s lid w v = true → enableCheck (slotApply s lid w v true) lid = 0) : slotJudge s lid w v = 0 := by
  unfold slotJudge
  simp only [hcs, hrange, hprod, Bool.not_true, Bool.false_eq_true, if_false]
  split
  · next h => exact henable h
  · rfl

/-- A word without CS bits meets no CS rule. -/
theorem csRule_none (h : wordCs w = 0) : (slotRunning s lid && ((v ^^^ recWord s lid w) &&& wn (wordCs w)) != 0) = false := by
  rw [h]
  simp [wn]

theorem slotCode_room (h : slotWaits s lid w v = false) : slotCode s lid w v = slotJudge s lid w v := by
  simp [slotCode, h]

theorem slotCode_noEnable (h : slotEnabling s lid w v = false) : slotCode s lid w v = slotJudge s lid w v := by
  simp [slotCode, h]

/-- A write that is not refused and need not wait takes effect. -/
theorem slotStore_done (hw : w < 30) (hwait : slotWaits s lid w v = false) (hcode : slotJudge s lid w v = 0) :
    slotStore s lid w v = (slotApply s lid w v (slotEnabling s lid w v), .done) := by
  simp only [slotStore, slotWrite, slotCode_room hwait, hwait, hcode, if_neg (Nat.not_le.2 hw), ne_eq, not_true_eq_false, if_false,
    Bool.false_eq_true]

theorem slotStore_waits (hw : w < 30) (hwait : slotWaits s lid w v = true) (hcode : slotCode s lid w v = 0) :
    slotStore s lid w v = (s, .waits) := by
  simp only [slotStore, slotWrite, hwait, hcode, if_neg (Nat.not_le.2 hw), ne_eq, not_true_eq_false, if_false, if_true]

theorem slotStore_running (hw : w < 30) (hwait : slotWaits s lid w v = false) (hcode : slotJudge s lid w v = 1) :
    slotStore s lid w v = (slotRefuse s lid w 1, .busy) := by
  simp [slotStore, slotCode_room hwait, hcode, Nat.not_le.2 hw]

/-- A word without SH bits never waits (03 R137). -/
theorem slotWaits_noSh (h : wordSh w = 0) : slotWaits s lid w v = false := by
  simp [slotWaits, slotQueues, h]

theorem slotWaits_room (h : (shq s (lid / 256)).length < 256) : slotWaits s lid w v = false := by
  simp [slotWaits, h]

/-! ### What a write by its class leaves -/

/-- An SH word of a powered tile enters the tile's shadow queue (03 R137). -/
theorem slotApply_queued {enabling : Bool} (hd : wordCs w + wordLv w = 0) (hs : wordSh w ≠ 0) (hp : tilePowered s (lid / 256) = true) :
    slotApply s lid w v enabling = setShq s (lid / 256) (shq s (lid / 256) ++ [.word (lid % 256) w v (wordSh w)]) := by
  simp only [slotApply, hd, hs, hp, if_true, if_false]

/-- A word without SH bits takes its bits at once (03 R138, R139). -/
theorem slotApply_atOnce {enabling : Bool} (hd : wordCs w + wordLv w ≠ 0) (hs : wordSh w = 0) :
    slotApply s lid w v enabling = setRecWord s lid w (merge (recWord s lid w) v (wordCs w + wordLv w)) := by
  simp only [slotApply, hd, hs, if_true, if_false]

/-- CTL of a powered tile's slot takes its CS and LV bits at once, and its SH bits through the queue (03 R137–R139). -/
theorem slotApply_ctl {enabling : Bool} (hp : tilePowered s (lid / 256) = true) :
    slotApply s lid 0 v enabling = setShq (setRecWord s lid 0 (merge (recWord s lid 0) v (ctlCs + ctlLv))) (lid / 256)
      (shq s (lid / 256) ++ [.word (lid % 256) 0 v ctlSh]) := by
  simp only [slotApply, hp]
  rfl

/-- Taking every bit of a word is taking the word. -/
theorem merge_all (old v : Word) : merge old v 0xFFFFFFFF = v := by
  have hones : wn 0xFFFFFFFF = BitVec.allOnes 32 := by decide
  rw [merge, hones, BitVec.not_allOnes, BitVec.and_zero, BitVec.zero_or, BitVec.and_allOnes]

end

theorem Still.setRecWord {s : Chip} (h : Still s) (lid w : Nat) (v : Word) : Still (setRecWord s lid w v) :=
  h.congr rfl rfl rfl rfl rfl rfl fun _ _ => rfl

theorem Still.setShq {s : Chip} (h : Still s) (t : Nat) (q : List ShCmd) : Still (setShq s t q) := h.setEng _

/-- A refusal names its code, the word and the slot in LTt_CFGERR, sets CFGERR in LTt_EVT, and leaves the loop engine alone (03 R140, R172). -/
theorem slotRefuse_names (s : Chip) (lid w code : Nat) :
    (slotRefuse s lid w code).eng = s.eng ∧
      (slotRefuse s lid w code).rd (Reg.ltCfgerr (lid / 256)) = wn (code * 2 ^ 28 + w * 256 + lid % 256) ∧
      (slotRefuse s lid w code).rdBit (Reg.ltEvt (lid / 256)) 0 = true := by
  have hne : Reg.ltCfgerr (lid / 256) ≠ Reg.ltEvt (lid / 256) := by
    unfold Reg.ltCfgerr Reg.ltEvt
    omega
  refine ⟨Chip.flag_eng .., ?_, ?_⟩
  · exact (Chip.flag_rd_ne _ _ _ _ hne).trans (Chip.rd_wr_self ..)
  · rw [slotRefuse, Chip.tileFlag, Chip.rdBit, Chip.rd_congr (Chip.flag_regs ..)]
    exact Chip.rdBit_wrBit_self _ _ _ (by decide)

/-! ### The commands -/

theorem exec_slotShWrite (who : Agent) (t : Fin 16) (slot : BitVec 8) (w : Fin 32) (v : Word) (st : State) :
    exec (.slotShWrite who t slot w v) st =
      finish st (fun s => if wordSh w.val = 0 then s else regCmd s who (slotAddr t.val slot.toNat w.val) v) := rfl

theorem exec_slotLvWrite (who : Agent) (t : Fin 16) (slot : BitVec 8) (w : Fin 32) (v : Word) (st : State) :
    exec (.slotLvWrite who t slot w v) st =
      finish st (fun s => if wordLv w.val = 0 then s else regCmd s who (slotAddr t.val slot.toNat w.val) v) := rfl

theorem exec_slotCsWrite (who : Agent) (t : Fin 16) (slot : BitVec 8) (w : Fin 32) (v : Word) (st : State) :
    exec (.slotCsWrite who t slot w v) st =
      finish st (fun s => if wordCs w.val = 0 then s else regCmd s who (slotAddr t.val slot.toNat w.val) v) := rfl

theorem exec_slotEnable (who : Agent) (t : Fin 16) (slot : BitVec 8) (v : Word) (st : State) :
    exec (.slotEnable who t slot v) st = finish st (fun s => if bit v 0 then regCmd s who (slotAddr t.val slot.toNat 0) v else s) := rfl

theorem exec_slotDisable (who : Agent) (t : Fin 16) (slot : BitVec 8) (v : Word) (st : State) :
    exec (.slotDisable who t slot v) st = finish st (fun s => if bit v 0 then s else regCmd s who (slotAddr t.val slot.toNat 0) v) := rfl

/-- Words 8 to 29 are SH throughout (03 R133). -/
theorem wordSh_class {w : Nat} (hlo : 8 ≤ w) (hhi : w ≤ 29) : wordSh w = 0xFFFFFFFF ∧ wordCs w = 0 ∧ wordLv w = 0 := by
  refine ⟨?_, ?_, ?_⟩
  · rw [wordSh, if_neg (by omega), if_pos ⟨hlo, hhi⟩]
  · rw [wordCs, if_neg (by omega), if_neg (by omega), if_neg (by omega), if_neg (by omega)]
  · rw [wordLv, if_neg (by omega), if_neg (by omega)]

/-- Words 1 to 6 have CS bits alone (03 R133, R135). -/
theorem wordCs_class {w : Nat} (hlo : 1 ≤ w) (hhi : w ≤ 6) : wordCs w ≠ 0 ∧ wordSh w = 0 ∧ wordLv w = 0 := by
  interval_cases w <;> decide

/-- The words behind OUTSID and INNER are in every range and have no producer (03 R140). -/
theorem word_unchecked {s : Chip} {lid w : Nat} {v : Word} (h : 7 ≤ w) : wordRangeOk w v = true ∧ wordProducerOk s lid w v = true := by
  refine ⟨?_, ?_⟩
  · rw [wordRangeOk, if_neg (by omega), if_neg (by omega)]
  · rw [wordProducerOk, if_neg (by omega), if_neg (by omega)]

section
variable {s : Chip} {who : Agent} {t : Fin 16} {slot : BitVec 8} {v : Word}

/-- A write of a record word that takes effect leaves what `slotApply` makes of it. -/
theorem regCmd_slotDone {w : Fin 32} (hm : MayWrite s who (slotAddr t.val slot.toNat w.val)) (hd : tileDue s = s) (hw : w.val < 30)
    (hwait : slotWaits s (lidOf t slot) w.val v = false) (hcode : slotJudge s (lidOf t slot) w.val v = 0) :
    regCmd s who (slotAddr t.val slot.toNat w.val) v =
      slotApply s (lidOf t slot) w.val v (slotEnabling s (lidOf t slot) w.val v) := by
  rw [regCmd_slot hm hd, slotStore_done hw hwait hcode]
  rfl

/-- A word without CS bits that RANGE and PRODUCER pass over is never refused. -/
theorem slotJudge_unchecked {lid w : Nat} (hw : 7 ≤ w) (hcs : wordCs w = 0) : slotJudge s lid w v = 0 := by
  obtain ⟨hrange, hprod⟩ := word_unchecked (s := s) (lid := lid) (v := v) hw
  refine slotJudge_passes (csRule_none hcs) hrange hprod fun h => ?_
  rw [slotEnabling_ctl (by omega)] at h
  cases h

/-- An SH word of a powered tile with room in its queue (03 R137). -/
theorem regCmd_shRoom {w : Fin 32} (hm : MayWrite s who (slotAddr t.val slot.toNat w.val)) (hd : tileDue s = s) (hlo : 8 ≤ w.val) (hhi : w.val ≤ 29)
    (hp : tilePowered s t.val = true) (hq : (shq s t.val).length < 256) :
    regCmd s who (slotAddr t.val slot.toNat w.val) v = setShq s t.val (shq s t.val ++ [.word slot.toNat w.val v 0xFFFFFFFF]) := by
  obtain ⟨hsh, hcs, hlv⟩ := wordSh_class hlo hhi
  have hroom : slotWaits s (lidOf t slot) w.val v = false := slotWaits_room (by rwa [lid_div])
  rw [regCmd_slotDone hm hd (by omega) hroom (slotJudge_unchecked (by omega) hcs),
    slotApply_queued (by omega) (by omega) (by rwa [lid_div]), lid_div, lid_mod, hsh]

/-- An SH word of a powered tile whose queue is full waits with its writer (03 R137). -/
theorem regCmd_shFull {w : Fin 32} (hm : MayWrite s who (slotAddr t.val slot.toNat w.val)) (hd : tileDue s = s) (hlo : 8 ≤ w.val) (hhi : w.val ≤ 29)
    (hp : tilePowered s t.val = true) (hq : 256 ≤ (shq s t.val).length) :
    regCmd s who (slotAddr t.val slot.toNat w.val) v = waitOn s (.record (agentSrc who) (lidOf t slot) w.val v) := by
  obtain ⟨hsh, hcs, hlv⟩ := wordSh_class hlo hhi
  have hwait : slotWaits s (lidOf t slot) w.val v = true := by
    simp [slotWaits, slotQueues, hsh, lid_div, hp, hq]
  have hcode : slotCode s (lidOf t slot) w.val v = 0 := by
    rw [slotCode_noEnable (slotEnabling_ctl (by omega)), slotJudge_unchecked (by omega) hcs]
  rw [regCmd_slot hm hd, slotStore_waits (by omega) hwait hcode]
  simp only [answerWrite, holdWrite, placeOf_slotAddr]
  rfl

/-- MANVAL takes its value at once (03 R138). -/
theorem regCmd_lv (hm : MayWrite s who (slotAddr t.val slot.toNat 7)) (hd : tileDue s = s) :
    regCmd s who (slotAddr t.val slot.toNat 7) v = setRecWord s (lidOf t slot) 7 v := by
  have hdone := regCmd_slotDone (w := 7) (v := v) hm hd (by decide) (slotWaits_noSh rfl) (slotJudge_unchecked (Nat.le_refl 7) rfl)
  refine hdone.trans ((slotApply_atOnce (by decide) rfl).trans ?_)
  exact congrArg _ (merge_all _ v)

/-- A CS word of a slot that does not run takes its bits at once (03 R139). -/
theorem regCmd_cs {w : Fin 32} (hm : MayWrite s who (slotAddr t.val slot.toNat w.val)) (hd : tileDue s = s) (hlo : 1 ≤ w.val) (hhi : w.val ≤ 6)
    (hrun : slotRunning s (lidOf t slot) = false) (hrange : wordRangeOk w.val v = true)
    (hprod : wordProducerOk s (lidOf t slot) w.val v = true) :
    regCmd s who (slotAddr t.val slot.toNat w.val) v = setRecWord s (lidOf t slot) w.val
      (merge (recWord s (lidOf t slot) w.val) v (wordCs w.val)) := by
  obtain ⟨hcs, hsh, hlv⟩ := wordCs_class hlo hhi
  have hcode : slotJudge s (lidOf t slot) w.val v = 0 := by
    refine slotJudge_passes (by rw [hrun, Bool.false_and]) hrange hprod fun h => ?_
    rw [slotEnabling_ctl (by omega)] at h
    cases h
  rw [regCmd_slotDone hm hd (by omega) (slotWaits_noSh hsh) hcode, slotApply_atOnce (by omega) hsh, hlv, Nat.add_zero]

/-- A CS word of a running slot that would change is refused (03 R139). -/
theorem regCmd_csRunning {w : Fin 32} (hm : MayWrite s who (slotAddr t.val slot.toNat w.val)) (hd : tileDue s = s) (hlo : 1 ≤ w.val)
    (hhi : w.val ≤ 6) (hrun : slotRunning s (lidOf t slot) = true)
    (hcs : (v ^^^ recWord s (lidOf t slot) w.val) &&& wn (wordCs w.val) ≠ 0) :
    regCmd s who (slotAddr t.val slot.toNat w.val) v = slotRefuse s (lidOf t slot) w.val 1 := by
  obtain ⟨-, hsh, -⟩ := wordCs_class hlo hhi
  have hcode : slotJudge s (lidOf t slot) w.val v = 1 := by
    rw [slotJudge, if_pos]
    rw [hrun, Bool.true_and, bne_iff_ne]
    exact hcs
  rw [regCmd_slot hm hd, slotStore_running (by omega) (slotWaits_noSh hsh) hcode]
  rfl

/-- The state after CTL of a powered tile's slot is taken: CS and LV bits in the record, the SH bits at the end of the queue (03 R146, R147). -/
def ctlTaken (s : Chip) (t : Fin 16) (slot : BitVec 8) (v : Word) : Chip :=
  setShq (setRecWord s (lidOf t slot) 0 (merge (recWord s (lidOf t slot) 0) v (ctlCs + ctlLv))) t.val
    (shq s t.val ++ [.word slot.toNat 0 v ctlSh])

/-- CTL within range, with room in the queue of a powered tile, is taken where the CS rule and the checks of an enable let it pass. -/
theorem regCmd_ctl (hm : MayWrite s who (slotAddr t.val slot.toNat 0)) (hd : tileDue s = s) (hp : tilePowered s t.val = true)
    (hq : (shq s t.val).length < 256) (hrange : ctlRangeOk v = true)
    (hcs : (slotRunning s (lidOf t slot) && ((v ^^^ recWord s (lidOf t slot) 0) &&& wn ctlCs) != 0) = false)
    (henable : bit v 0 = true → enableCheck (ctlTaken s t slot v) (lidOf t slot) = 0) :
    regCmd s who (slotAddr t.val slot.toNat 0) v = ctlTaken s t slot v := by
  have htaken : ∀ b, slotApply s (lidOf t slot) 0 v b = ctlTaken s t slot v := fun b => by
    rw [slotApply_ctl (by rwa [lid_div]), lid_div, lid_mod]
    rfl
  have hcode : slotJudge s (lidOf t slot) 0 v = 0 := by
    refine slotJudge_passes hcs hrange rfl fun h => ?_
    rw [htaken]
    simp only [slotEnabling, Bool.and_eq_true] at h
    exact henable h.1.2
  exact (regCmd_slotDone (w := 0) hm hd (by decide) (slotWaits_room (by rwa [lid_div])) hcode).trans (htaken _)

/-- A command of one bit finds room in its tile's queue. -/
theorem tuneWaits_room {o : Nat} (h : (shq s t.val).length < 256) (hv : v = 1 ∨ v = 2) : tuneWaits s 32 t.val o v = false := by
  have hone : b2n (bit v 0) + b2n (bit v 1) = 1 := by
    rcases hv with rfl | rfl <;> decide
  have hroom : ¬ (shq s t.val).length + b2n (bit v 0) + b2n (bit v 1) > 256 := by omega
  simp only [tuneWaits, hroom, decide_false, Bool.and_false]

/-- INJCMD and CAPCMD act through the shadow queue, and are never refused (05 R223, R240). -/
theorem writeRow_tune (src a : Nat) :
    writeRow s src a 32 t.val 0x5C (commandRow 0x5C) v false = (tuneCommand s t.val .injStart .injStop v, .done) ∧
      writeRow s src a 32 t.val 0x88 (commandRow 0x88) v false = (tuneCommand s t.val .capArm .capStop v, .done) := by
  have hcs : ∀ o, ((v ^^^ s.rd a) &&& wn (commandRow o).cs) = 0 := fun o => by
    show (v ^^^ s.rd a) &&& 0#32 = 0
    exact BitVec.and_zero
  unfold writeRow
  simp only [hcs, bne_self_eq_false, Bool.and_false, Bool.false_eq_true, if_false]
  exact ⟨rfl, rfl⟩

/-- A command of one bit enters a queue with room at its end (05 R223, R231, R240). -/
theorem tuneCommand_room {go stop : ShCmd} (h : (shq s t.val).length < 256) :
    tuneCommand s t.val go stop 1 = setShq s t.val (shq s t.val ++ [go]) ∧
      tuneCommand s t.val go stop 2 = setShq s t.val (shq s t.val ++ [stop]) := by
  have hqueue : ∀ c, tileQueue s t.val c = setShq s t.val (shq s t.val ++ [c]) := fun c => if_neg (by omega)
  have hgo : bit 1 0 = true ∧ bit 1 1 = false := by decide
  have hstop : bit 2 0 = false ∧ bit 2 1 = true := by decide
  simp only [tuneCommand, hqueue, hgo, hstop, if_true, Bool.false_eq_true, if_false, and_self]

/-- START or STOP, while the queue has room. -/
theorem regCmd_inj (hm : MayWrite s who (Reg.ltInjcmd t.val)) (hd : tileDue s = s) (hq : (shq s t.val).length < 256) :
    regCmd s who (Reg.ltInjcmd t.val) 1 = setShq s t.val (shq s t.val ++ [.injStart]) ∧
      regCmd s who (Reg.ltInjcmd t.val) 2 = setShq s t.val (shq s t.val ++ [.injStop]) := by
  obtain ⟨hplace, -, -⟩ := placeOf_tileCommands t
  obtain ⟨hgo, hstop⟩ := tuneCommand_room (go := .injStart) (stop := .injStop) hq
  rw [regCmd_tile hplace hm hd, regCmd_tile hplace hm hd, tuneWaits_room hq (.inl rfl), tuneWaits_room hq (.inr rfl), (writeRow_tune _ _).1,
    (writeRow_tune _ _).1, hgo, hstop]
  exact ⟨rfl, rfl⟩

/-- ARM or STOP of the capture, while the queue has room. -/
theorem regCmd_cap (hm : MayWrite s who (Reg.ltCapcmd t.val)) (hd : tileDue s = s) (hq : (shq s t.val).length < 256) :
    regCmd s who (Reg.ltCapcmd t.val) 1 = setShq s t.val (shq s t.val ++ [.capArm]) ∧
      regCmd s who (Reg.ltCapcmd t.val) 2 = setShq s t.val (shq s t.val ++ [.capStop]) := by
  obtain ⟨-, hplace, -⟩ := placeOf_tileCommands t
  obtain ⟨hgo, hstop⟩ := tuneCommand_room (go := .capArm) (stop := .capStop) hq
  rw [regCmd_tile hplace hm hd, regCmd_tile hplace hm hd, tuneWaits_room hq (.inl rfl), tuneWaits_room hq (.inr rfl), (writeRow_tune _ _).2,
    (writeRow_tune _ _).2, hgo, hstop]
  exact ⟨rfl, rfl⟩

/-- FLAGCLR marks the flags that the slot clears before its next evaluation (04 R201). -/
theorem regCmd_flagclr (hm : MayWrite s who (Reg.ltFlagclr t.val)) (hd : tileDue s = s) :
    regCmd s who (Reg.ltFlagclr t.val) v = flagClear s (256 * t.val + fld v 7 0) (fld v 19 8) := by
  obtain ⟨-, -, hplace⟩ := placeOf_tileCommands t
  have hnow : ¬ tuneWaits s 32 t.val 0x1C v = true := by simp [tuneWaits]
  rw [regCmd_tile hplace hm hd, if_neg hnow, writeRow_flagclr]
  rfl

end

/-- A command whose effect leaves nothing behind ends in it. -/
theorem finish_takes {st : State} {f : Chip → Chip} {x : Chip} (hf : f st.chip = x) (hx : Still x) : finish st f = .next { st with chip := x } := by
  subst hf
  exact finish_still hx

/-- Settles O19: a write of a record word is judged (`slotJudge`) and taken (`slotApply`), or waits, by the class of its word; CTL is taken as
`ctlTaken`; a tuning command enters the queue, and FLAGCLR marks the flags. -/
theorem slotRecordWritesByClass : Obligations.SlotRecordWritesByClass := by
  unfold Obligations.SlotRecordWritesByClass
  refine ⟨fun s who t slot v hs hphase => ?_, fun s who t hs hphase => ?_⟩
  · have hd : tileDue s.chip = s.chip := tileDue_none hphase
    intro lid q
    refine ⟨fun w hlo hhi hp hm => ?_, fun hm => ?_, fun w hlo hhi hm => ?_, fun hp hq hm hrange => ?_⟩
    · have hsh : wordSh w.val ≠ 0 := by rw [(wordSh_class hlo hhi).1]; decide
      rw [exec_slotShWrite]
      exact ⟨fun hq => finish_takes ((if_neg hsh).trans (regCmd_shRoom hm hd hlo hhi hp hq)) (hs.setShq ..),
        fun hq => finish_takes ((if_neg hsh).trans (regCmd_shFull hm hd hlo hhi hp hq)) (hs.setEng _)⟩
    · rw [exec_slotLvWrite]
      exact finish_takes ((if_neg (by decide)).trans (regCmd_lv hm hd)) (hs.setRecWord ..)
    · have hword := (wordCs_class hlo hhi).1
      rw [exec_slotCsWrite]
      refine ⟨fun hrun hrange hprod => finish_takes ((if_neg hword).trans (regCmd_cs hm hd hlo hhi hrun hrange hprod)) (hs.setRecWord ..),
        fun hrun hcs => ?_⟩
      obtain ⟨heng, hcode, hflag⟩ := slotRefuse_names s.chip lid w.val 1
      rw [lid_div] at hcode hflag
      rw [lid_mod, Nat.one_mul] at hcode
      refine ⟨slotRefuse s.chip lid w.val 1, ?_, heng, hcode, hflag⟩
      rw [exec_slotCsWrite, finish_eq, if_neg hword, regCmd_csRunning hm hd hlo hhi hrun hcs]
    · intro next
      have hstill : Still next := (hs.setRecWord ..).setShq ..
      refine ⟨fun hen hrun hcheck => ?_, fun hen hcs => ?_⟩
      · rw [exec_slotEnable]
        exact finish_takes ((if_pos hen).trans (regCmd_ctl hm hd hp hq hrange (by rw [hrun, Bool.false_and]) fun _ => hcheck)) hstill
      · have hsame : (slotRunning s.chip lid && ((v ^^^ recWord s.chip lid 0) &&& wn ctlCs) != 0) = false := by
          rw [bne_eq_false_iff_eq.2 hcs, Bool.and_false]
        have hoff : ¬ bit v 0 = true := by rw [hen]; exact Bool.false_ne_true
        rw [exec_slotDisable]
        exact finish_takes ((if_neg hoff).trans (regCmd_ctl hm hd hp hq hrange hsame fun h => absurd h hoff)) hstill
  · have hd : tileDue s.chip = s.chip := tileDue_none hphase
    intro q
    refine ⟨fun v hm => ?_, fun hm hq => ?_, fun hm hq => ?_⟩
    · intro lid x
      have hclear : flagClear s.chip lid (fld v 19 8) = x := by
        have hmask : fld v 19 8 % 4096 = fld v 19 8 := Nat.mod_eq_of_lt (fld_lt v 19 8)
        rw [flagClear, hmask]
      rw [exec_flagclr]
      exact finish_takes ((regCmd_flagclr hm hd).trans hclear) (hs.setEng _)
    · obtain ⟨hgo, hstop⟩ := regCmd_inj hm hd hq
      rw [exec_injStart, exec_injStop]
      exact ⟨finish_takes hgo (hs.setShq ..), finish_takes hstop (hs.setShq ..)⟩
    · obtain ⟨hgo, hstop⟩ := regCmd_cap hm hd hq
      rw [exec_capArm, exec_capStop]
      exact ⟨finish_takes hgo (hs.setShq ..), finish_takes hstop (hs.setShq ..)⟩

end Sys2Proof.Machine
end

section
/-!
PROOFS of how a command ends (00). The recorder, the vectors, the dispatcher and the answers to unknown commands leave the timebase, the store
and the loop engine alone, so a command's end does too, but for a cold reset. For each function `f` of the model, `EndKeeps.f` says that `f`
leaves them alone, from the lemmas of the functions it calls.
-/

namespace Sys2Proof.Machine

/-- From `s` on, `x` has kept the timebase, the store and the loop engine, which no end of a command acts on but a cold reset. -/
structure EndKeeps (s x : Chip) : Prop where
  tb : x.tb = s.tb
  store : x.store = s.store
  eng : x.eng = s.eng

variable {s x : Chip}

theorem EndKeeps.refl (s : Chip) : EndKeeps s s := ⟨rfl, rfl, rfl⟩

/-- An update that leaves the three alone. -/
theorem EndKeeps.frame {v0 v1 v3 v6 v7 v8 v9 v10 v11 v12 v13 v14 v15 v16 v17 v18 v19 v20 v21 v22 v23 v24 v25 v26 v27} (h : EndKeeps s x) :
    EndKeeps s ⟨v0, v1, x.tb, v3, x.store, x.eng, v6, v7, v8, v9, v10, v11, v12, v13, v14, v15, v16, v17, v18, v19, v20, v21, v22, v23, v24,
      v25, v26, v27⟩ :=
  ⟨h.tb, h.store, h.eng⟩

theorem EndKeeps.ite {a b : Chip} {c : Prop} {_ : Decidable c} (ha : EndKeeps s a) (hb : EndKeeps s b) : EndKeeps s (if c then a else b) := by
  split <;> assumption

theorem EndKeeps.iteFst {α : Type} {a b : Chip × α} {c : Prop} {_ : Decidable c} (ha : EndKeeps s a.1) (hb : EndKeeps s b.1) :
    EndKeeps s (if c then a else b).1 := by
  split <;> assumption

theorem EndKeeps.foldl {α : Type} {f : Chip → α → Chip} {l : List α} (h : EndKeeps s x) (hf : ∀ y a, EndKeeps s y → EndKeeps s (f y a)) :
    EndKeeps s (l.foldl f x) :=
  List.foldlRecOn (motive := EndKeeps s) _ _ h fun y hy a _ => hf y a hy

theorem EndKeeps.foldlFst {α β : Type} {f : Chip × β → α → Chip × β} {l : List α} {p : Chip × β} (h : EndKeeps s p.1)
    (hf : ∀ y a, EndKeeps s y.1 → EndKeeps s (f y a).1) : EndKeeps s (l.foldl f p).1 :=
  List.foldlRecOn (motive := fun y => EndKeeps s y.1) _ _ h fun y hy a _ => hf y a hy

/-! ### Registers and books -/

theorem EndKeeps.wr {a : Nat} {w : Word} (h : EndKeeps s x) : EndKeeps s (x.wr a w) := h.frame

theorem EndKeeps.wrF {a hi lo v : Nat} (h : EndKeeps s x) : EndKeeps s (x.wrF a hi lo v) := h.frame

theorem EndKeeps.wrBit {a b : Nat} {v : Bool} (h : EndKeeps s x) : EndKeeps s (x.wrBit a b v) := h.frame

theorem EndKeeps.bump {a : Nat} (h : EndKeeps s x) : EndKeeps s (x.bump a) := h.frame

theorem EndKeeps.bumpBy {a n : Nat} (h : EndKeeps s x) : EndKeeps s (x.bumpBy a n) := h.frame

theorem EndKeeps.raise {n : Nat} (h : EndKeeps s x) : EndKeeps s (x.raise n) := h.frame

theorem EndKeeps.led {l j n : Nat} (h : EndKeeps s x) : EndKeeps s (x.led l j n) := h.frame

theorem EndKeeps.flag {evt en b e : Nat} (h : EndKeeps s x) : EndKeeps s (x.flag evt en b e) := .ite h.wrBit.raise h.wrBit

theorem EndKeeps.odoInc {slot n : Nat} (h : EndKeeps s x) : EndKeeps s (x.odoInc slot n) := .ite h.frame (h.frame.flag)

theorem EndKeeps.signal {v : Nat} (h : EndKeeps s x) : EndKeeps s (x.signal v) := h.frame

/-! ### Memory -/

theorem EndKeeps.memFlag {e : Nat} (h : EndKeeps s x) : EndKeeps s (x.memFlag e) := h.flag

theorem EndKeeps.noteRead {cls addr src memk : Nat} (h : EndKeeps s x) : EndKeeps s (noteRead x cls addr src memk) := by
  unfold Machine.noteRead
  extract_lets s1 s2 s3
  have hs3 : EndKeeps s s3 := h.bump.wr.wr.memFlag
  exact .ite h (.ite hs3.odoInc (.ite hs3 hs3.odoInc))

theorem EndKeeps.clearFlips {a n : Nat} (h : EndKeeps s x) : EndKeeps s (clearFlips x a n) := h.frame

theorem EndKeeps.putBytes {a : Nat} {bs : List Byte} (h : EndKeeps s x) : EndKeeps s (x.putBytes a bs) := h.frame

theorem EndKeeps.writeBytes {a : Nat} {bs : List Byte} (h : EndKeeps s x) : EndKeeps s (x.writeBytes a bs) := h.frame

theorem EndKeeps.setTrack {t : List TrackEntry} (h : EndKeeps s x) : EndKeeps s (setTrack x t) := h.frame

theorem EndKeeps.rewriteWord {word : Nat} {xs : List Nat} (h : EndKeeps s x) : EndKeeps s (rewriteWord x word xs) := by
  unfold Machine.rewriteWord
  extract_lets s0 s1 s2
  have hs1 : EndKeeps s s1 := .clearFlips (.ite h.putBytes h)
  exact .ite (.ite hs1.clearFlips hs1.clearFlips.putBytes) (.foldl hs1 fun _ _ hy => .ite hy hy.frame)

theorem EndKeeps.hardWord {word : Nat} {xs : List Nat} (h : EndKeeps s x) : EndKeeps s (hardWord x word xs) := by
  unfold Machine.hardWord
  split
  · exact h.bump.memFlag.odoInc
  · exact .ite h.memFlag h.setTrack.rewriteWord.frame.bump.bump.memFlag.odoInc

theorem EndKeeps.trackCe {word : Nat} {xs : List Nat} (h : EndKeeps s x) : EndKeeps s (trackCe x word xs) := by
  unfold Machine.trackCe
  extract_lets thr reach
  have hreach : ∀ {y n}, EndKeeps s y → EndKeeps s (reach y n) := fun hy => .ite hy.wr.memFlag hy
  split
  · extract_lets _ _ s2
    have hs2 : EndKeeps s s2 := .ite h.frame (hreach h.frame)
    exact .ite hs2.hardWord hs2
  · refine .ite (hreach h.frame) ?_
    split
    · exact h
    · exact hreach (EndKeeps.bump h.frame)

theorem EndKeeps.readOne {src lo hi word : Nat} {r : SpanRead} (h : EndKeeps s r.chip) : EndKeeps s (readOne src lo hi r word).chip :=
  .ite (.trackCe (.ite h h.noteRead)) (.ite h h.noteRead)

theorem EndKeeps.readSpan {src a n : Nat} (h : EndKeeps s x) : EndKeeps s (readSpan x src a n).chip :=
  List.foldlRecOn (motive := fun r : SpanRead => EndKeeps s r.chip) _ _ h fun _ hr _ _ => hr.readOne

theorem EndKeeps.readBytes {src p n : Nat} (h : EndKeeps s x) : EndKeeps s (readBytes x src p n).1 := h.readSpan

theorem EndKeeps.clearChecks {a n : Nat} (h : EndKeeps s x) : EndKeeps s (clearChecks x a n) := .ite h.clearFlips h

theorem EndKeeps.fillWords {a n pat : Nat} (h : EndKeeps s x) : EndKeeps s (fillWords x a n pat) := .bumpBy (.clearChecks h.frame)

theorem EndKeeps.advanceFill (h : EndKeeps s x) : EndKeeps s (advanceFill x) := by
  unfold Machine.advanceFill
  split
  · exact h
  · exact .ite h h.fillWords.frame

theorem EndKeeps.dramPart {a : Nat} {bs : List Byte} (h : EndKeeps s x) : EndKeeps s (dramPart x a bs).1 :=
  .iteFst h (.iteFst h.readBytes.bump h.readBytes.clearFlips.writeBytes)

theorem EndKeeps.memWrite {a : Nat} {bs : List Byte} (h : EndKeeps s x) : EndKeeps s (memWrite x a bs).1 := by
  unfold Machine.memWrite
  refine .iteFst ?_ ?_
  · exact h.advanceFill.writeBytes
  · exact .dramPart (.clearChecks (.ite h.advanceFill.dramPart h.advanceFill.dramPart.writeBytes))

/-! ### The recorder's regions and streams -/

theorem EndKeeps.setFlag {i e : Nat} (h : EndKeeps s x) : EndKeeps s (x.setFlag i e) := .ite h.wrBit.raise h.wrBit

theorem EndKeeps.setRec {i : Nat} {r : RecSet} (h : EndKeeps s x) : EndKeeps s (setRec x i r) := h.frame

theorem EndKeeps.setHalf {i k n : Nat} (h : EndKeeps s x) : EndKeeps s (setHalf x i k n) := h.frame

theorem EndKeeps.writePos {i : Nat} {w : Word × Word} (h : EndKeeps s x) : EndKeeps s (writePos x i w) := h.frame

theorem EndKeeps.pushBuf {b : BufRec} (h : EndKeeps s x) : EndKeeps s (pushBuf x b) := h.frame

theorem EndKeeps.putRegion {i : Nat} {bs : List Byte} (h : EndKeeps s x) : EndKeeps s (putRegion x i bs) :=
  .led (.bump (.ite h.frame.pushBuf.setRec.wr h.frame.pushBuf.setRec))

theorem EndKeeps.syncPos {i : Nat} (h : EndKeeps s x) : EndKeeps s (syncPos x i) := .ite h.writePos h.pushBuf

theorem EndKeeps.landRec {b : BufRec} (h : EndKeeps s x) : EndKeeps s (landRec x b) :=
  .writePos (.ite h (.led (.bump (.ite h.memWrite h.memWrite.memWrite))))

theorem EndKeeps.drainRecs {now t : Nat} {l : List BufRec} (h : EndKeeps s x) : EndKeeps s (drainRecs now t x l) := by
  induction l generalizing x t with
  | nil => exact h.frame
  | cons b l ih => exact .ite (ih h.landRec) h.frame

theorem EndKeeps.drainBuffer (h : EndKeeps s x) : EndKeeps s (drainBuffer x) := .ite h h.drainRecs

theorem EndKeeps.putStream {i : Nat} {bs : List Byte} (h : EndKeeps s x) : EndKeeps s (putStream x i bs) := h.frame

theorem EndKeeps.leadRegion {i tick phase : Nat} (h : EndKeeps s x) : EndKeeps s (leadRegion x i tick phase) := by
  unfold Machine.leadRegion
  refine .ite ?_ ?_
  · exact (h.foldl fun _ _ hy => hy.putRegion).setRec.setFlag
  · exact (h.foldl fun _ _ hy => hy.putRegion).setRec

theorem EndKeeps.leadStream {i tick phase : Nat} (h : EndKeeps s x) : EndKeeps s (leadStream x i tick phase) := by
  unfold Machine.leadStream
  refine .ite ?_ ?_
  · exact (h.foldl fun _ _ hy => hy.putStream).setRec.setFlag
  · exact (h.foldl fun _ _ hy => hy.putStream).setRec

theorem EndKeeps.shedRegion {i cause tick : Nat} (h : EndKeeps s x) : EndKeeps s (shedRegion x i cause tick) :=
  .setFlag (.odoInc (.led (.led (.bump (.bump (.bump (.ite h h.setRec)))))))

theorem EndKeeps.shedStream {i cause tick : Nat} (h : EndKeeps s x) : EndKeeps s (shedStream x i cause tick) :=
  .setFlag (.odoInc (.led (.led (.bump (.bump (.bump (.ite h.setRec.wrBit h.setRec)))))))

theorem EndKeeps.enterDone {i cause : Nat} (h : EndKeeps s x) : EndKeeps s (enterDone x i cause) :=
  .ite h.setHalf.wrF.setFlag.wrF.setHalf.setRec.syncPos h.setHalf.wrF.setFlag

theorem EndKeeps.recordRegion {i tick phase : Nat} {data : Bool} {bs : List Byte} (h : EndKeeps s x) :
    EndKeeps s (recordRegion x i tick phase data bs) := by
  unfold Machine.recordRegion
  extract_lets _ s2 _ _ s3
  have hs2 : EndKeeps s s2 := h.leadRegion.putRegion
  have hs3 : EndKeeps s s3 := .ite hs2.setRec hs2
  exact .ite hs3.enterDone hs3

theorem EndKeeps.owedRegion {i tick phase : Nat} {raw : Option Nat} {data : Bool} {bs : List Byte} (h : EndKeeps s x) :
    EndKeeps s (owedRegion x i tick phase raw data bs) := by
  unfold Machine.owedRegion
  extract_lets _ _ s1
  have hs1 : EndKeeps s s1 := .ite h.enterDone h
  split
  · exact h.shedRegion
  · exact .ite hs1.recordRegion hs1.shedRegion

theorem EndKeeps.owedStream {i tick phase : Nat} {raw : Option Nat} {bs : List Byte} (h : EndKeeps s x) :
    EndKeeps s (owedStream x i tick phase raw bs) :=
  .ite h.shedStream (.ite h.shedStream h.leadStream.putStream)

theorem EndKeeps.owed {i tick phase : Nat} {raw : Option Nat} {data : Bool} {bs : List Byte} (h : EndKeeps s x) :
    EndKeeps s (owed x i tick phase raw data bs) := by
  unfold Machine.owed
  extract_lets _ s1
  have hs1 : EndKeeps s s1 := .ite h.owedRegion h
  exact .ite hs1 (.ite hs1.shedStream hs1.owedStream)

/-! ### The recorder's notes -/

theorem EndKeeps.shedChange {i idx : Nat} (h : EndKeeps s x) : EndKeeps s (shedChange x i idx) :=
  .setFlag (.odoInc h.frame)

theorem EndKeeps.changeWrite {t : Txn} {i : Nat} {w : TxnWrite} (h : EndKeeps s x) : EndKeeps s (changeWrite t i x w) :=
  .ite h (.ite h.shedChange (.owed h.frame))

theorem EndKeeps.setRaw {t : Txn} {later i : Nat} (h : EndKeeps s x) : EndKeeps s (setRaw t later x i) := .ite h.owed h

theorem EndKeeps.setKept {t : Txn} {i : Nat} (h : EndKeeps s x) : EndKeeps s (setKept t x i) := by
  unfold Machine.setKept
  extract_lets _ _ s1
  have hs1 : EndKeeps s s1 := .ite (h.foldl fun _ _ hy => hy.changeWrite) h
  exact .ite (.ite (hs1.foldl fun _ _ hy => hy.frame) hs1) h

theorem EndKeeps.discardTxn {t : Txn} {i : Nat} (h : EndKeeps s x) : EndKeeps s (discardTxn t x i) := .ite h.frame h

theorem EndKeeps.captureRecord {i : Nat} {bs : List Byte} (h : EndKeeps s x) : EndKeeps s (captureRecord x i bs) :=
  .ite h.owed h.bump.odoInc

theorem EndKeeps.setTrg {u : Nat} {v : TrigUnit} (h : EndKeeps s x) : EndKeeps s (setTrg x u v) := h.frame

theorem EndKeeps.condWrite {w : TxnWrite} {u : Nat} (h : EndKeeps s x) : EndKeeps s (condWrite w x u) :=
  .ite (.ite h.wrBit.setTrg h.wrBit) h

theorem EndKeeps.condTxn {t : Txn} (h : EndKeeps s x) : EndKeeps s (condTxn x t) :=
  h.foldl fun _ _ hy => hy.foldl fun _ _ hz => hz.condWrite

theorem EndKeeps.condEvent {n : Nat} (h : EndKeeps s x) : EndKeeps s (condEvent x n) := h.foldl fun _ _ hy => .ite hy.wrBit hy

theorem EndKeeps.putTrig {i unit tick phase : Nat} (h : EndKeeps s x) : EndKeeps s (putTrig x i unit tick phase) := by
  unfold Machine.putTrig
  split
  · exact h.shedRegion
  · exact h.wr.leadRegion.putRegion

theorem EndKeeps.fireRegion {i unit tick phase : Nat} (h : EndKeeps s x) : EndKeeps s (fireRegion x i unit tick phase).1 := by
  unfold Machine.fireRegion
  extract_lets _ _ _ _ _ s5
  have hs5 : EndKeeps s s5 := .setHalf (.setRec (.putTrig (.ite h.wr h.wr.wrBit)))
  exact .iteFst h (.iteFst h.putTrig (.iteFst h (.ite hs5.enterDone hs5)))

theorem EndKeeps.fireStream {i unit tick phase pre : Nat} (h : EndKeeps s x) : EndKeeps s (fireStream x i unit tick phase pre).1 :=
  .iteFst h.owedStream h

theorem EndKeeps.fireSet {i unit tick phase : Nat} (h : EndKeeps s x) : EndKeeps s (fireSet x i unit tick phase).1 :=
  .iteFst h.bump.fireRegion.fireStream.bump h.bump.fireRegion.fireStream.bump.wr.setFlag

theorem EndKeeps.fireUnit {u tick phase : Nat} (h : EndKeeps s x) : EndKeeps s (fireUnit x u tick phase) := by
  unfold Machine.fireUnit
  refine .ite h (.foldl (.setTrg (.wrBit (.ite ?_ (.bump ?_)))) fun _ _ hy => .ite hy.wrBit hy) <;>
    exact .foldlFst h.bump.wr.wr.raise fun _ _ hy => hy.fireSet

theorem EndKeeps.fireUnits {tick phase : Nat} (h : EndKeeps s x) : EndKeeps s (fireUnits x tick phase) :=
  .foldl (.foldl h fun _ _ hy => .ite hy.fireUnit hy) fun _ _ hy => hy.setTrg

theorem EndKeeps.recKept {n : Note} (h : EndKeeps s x) : EndKeeps s (recKept x n) := by
  cases n with
  | event e => exact h
  | txn t => exact .ite (h.foldl fun _ _ hy => hy.setKept) h
  | capture i bs => exact .ite h.captureRecord h

theorem EndKeeps.recOne {n : Note} {later : Nat} (h : EndKeeps s x) : EndKeeps s (recOne x n later) := by
  cases n with
  | event e => exact .ite h.condEvent h
  | txn t =>
    exact .ite (h.recKept.foldl fun _ _ hy => hy.setRaw).condTxn (h.foldl fun _ _ hy => hy.discardTxn)
  | capture i bs => exact h.recKept (n := .capture i bs)

theorem EndKeeps.takeNotes {later : Nat} {l : List Note} (h : EndKeeps s x) : EndKeeps s (takeNotes later x l) := by
  induction l generalizing x later with
  | nil => exact h
  | cons n l ih => exact ih (.ite h.recOne.fireUnits h.recOne)

theorem EndKeeps.recAll {n : Nat} (h : EndKeeps s x) : EndKeeps s (recAll x n).1 := by
  induction n generalizing x with
  | zero => exact h.frame
  | succ n ih => exact .iteFst h (ih (.takeNotes h.frame))

/-! ### The dispatcher -/

theorem EndKeeps.moveCart {c : Cart} {pl : CartPlace} (h : EndKeeps s x) : EndKeeps s (moveCart x c pl) := h.frame

theorem EndKeeps.makeCart {kind hitch level arg src : Nat} {pl : CartPlace} (h : EndKeeps s x) :
    EndKeeps s (makeCart x kind hitch level arg src pl) :=
  .ite (.flag h.frame) h.frame

theorem EndKeeps.dropCart {c : Cart} {exit : Nat} (h : EndKeeps s x) : EndKeeps s (dropCart x c exit) := h.frame

theorem EndKeeps.fillSlot {p : Nat} (h : EndKeeps s x) : EndKeeps s (fillSlot x p) := by
  unfold Machine.fillSlot
  refine .ite ?_ h
  split
  · exact h.moveCart
  · exact h

theorem EndKeeps.recallGroup {g : Nat} (h : EndKeeps s x) : EndKeeps s (recallGroup x g) := by
  unfold Machine.recallGroup
  extract_lets
  split
  · exact .ite h.moveCart.moveCart h
  · exact h

theorem EndKeeps.fillAndRecall (h : EndKeeps s x) : EndKeeps s (fillAndRecall x) :=
  (h.foldl fun _ _ hy => hy.fillSlot).recallGroup.recallGroup

theorem EndKeeps.portErr {p code : Nat} (h : EndKeeps s x) : EndKeeps s (portErr x p code) := h.wrF.bump.flag

theorem EndKeeps.setPend {i n : Nat} (h : EndKeeps s x) : EndKeeps s (setPend x i n) := h.frame

theorem EndKeeps.eventCart {i count : Nat} (h : EndKeeps s x) : EndKeeps s (eventCart x i count) := h.makeCart.frame

theorem EndKeeps.joinPending {i : Nat} (h : EndKeeps s x) : EndKeeps s (joinPending x i) := .ite h.bump.wr.flag h.setPend

theorem EndKeeps.raiseOne {acc : Chip × Nat} {i : Nat} (h : EndKeeps s acc.1) : EndKeeps s (raiseOne acc i).1 := by
  unfold Machine.raiseOne
  refine .iteFst h.bump ?_
  split
  · exact h.frame
  · exact .iteFst h.eventCart h.joinPending

theorem EndKeeps.servePending {acc : Chip × Nat} {i : Nat} (h : EndKeeps s acc.1) : EndKeeps s (servePending acc i).1 :=
  .iteFst h (.iteFst h.setPend.eventCart h.setPend.eventCart)

theorem EndKeeps.eventsStep {evs : List Nat} (h : EndKeeps s x) : EndKeeps s (eventsStep x evs) := by
  unfold Machine.eventsStep
  exact .foldlFst (.foldlFst h fun _ _ hy => hy.servePending.servePending) fun _ _ hy => hy.raiseOne

theorem EndKeeps.setTimer {k : Nat} {t : StepTimer} (h : EndKeeps s x) : EndKeeps s (setTimer x k t) := h.frame

theorem EndKeeps.timerCart {acc : Chip × Nat} {k : Nat} (h : EndKeeps s acc.1) : EndKeeps s (timerCart acc k).1 :=
  .iteFst h.setTimer (.iteFst h.setTimer.makeCart h.setTimer)

theorem EndKeeps.postCart {p : Nat} {ctl arg dly : Word} (h : EndKeeps s x) : EndKeeps s (postCart x p ctl arg dly) := h.makeCart.wr

theorem EndKeeps.stalledPosts (h : EndKeeps s x) : EndKeeps s (stalledPosts x) := by
  refine h.foldl fun _ _ hy => ?_
  split
  · exact .ite (.postCart hy.frame) hy
  · exact hy

theorem EndKeeps.takeOp {p : Nat} (h : EndKeeps s x) : EndKeeps s (takeOp x p) := by
  unfold Machine.takeOp
  extract_lets empty
  have hempty : EndKeeps s empty := h.frame
  refine .ite hempty.portErr ?_
  split
  · exact hempty
  · exact h.frame

theorem EndKeeps.doneOp {p : Nat} {v : Word} (h : EndKeeps s x) : EndKeeps s (doneOp x p v) := by
  unfold Machine.doneOp
  split
  · exact .ite (.ite h.frame h.dropCart) h.portErr
  · exact h.portErr

theorem EndKeeps.cancelOp {p : Nat} {v : Word} (h : EndKeeps s x) : EndKeeps s (cancelOp x p v) := by
  unfold Machine.cancelOp
  split
  · exact h.wr
  · split
    · exact h.wr
    · exact h.dropCart.wr

theorem EndKeeps.postOp {p : Nat} {v : Word} (h : EndKeeps s x) : EndKeeps s (postOp x p v) := .ite h.wr (.ite h.wr h.frame)

theorem EndKeeps.commitServe (h : EndKeeps s x) : EndKeeps s (commitServe x) := by
  unfold Machine.commitServe
  split
  · exact h
  · split
    · exact h.readBytes.writeBytes.frame
    · exact h

theorem EndKeeps.commitOp {p : Nat} {v : Word} (h : EndKeeps s x) : EndKeeps s (commitOp x p v) :=
  .ite h.portErr (.ite h.readBytes.portErr h.readBytes.frame.wr.commitServe)

theorem EndKeeps.runOp {o : PortOp} (h : EndKeeps s x) : EndKeeps s (runOp x o) := by
  unfold Machine.runOp
  split
  · exact h.commitOp
  · exact h.doneOp
  · exact h.takeOp
  · exact h.cancelOp
  · exact h.setTimer
  · exact h.postOp
  · exact h

theorem EndKeeps.deferredQueued (h : EndKeeps s x) : EndKeeps s (deferredQueued x) := h.frame

theorem EndKeeps.fireTimers {n : Nat} (h : EndKeeps s x) : EndKeeps s (fireTimers x n) := .foldlFst h fun _ _ hy => hy.timerCart

theorem EndKeeps.waitingTimers {n : Nat} (h : EndKeeps s x) : EndKeeps s (waitingTimers x n) := .foldlFst h fun _ _ hy => hy.timerCart

theorem EndKeeps.cycleTimers {zero : Bool} (h : EndKeeps s x) : EndKeeps s (cycleTimers x zero) :=
  .ite h.fireTimers.deferredQueued h.waitingTimers

theorem EndKeeps.cycleEnd {evs : List Nat} (h : EndKeeps s x) : EndKeeps s (cycleEnd x evs) := h.stalledPosts.eventsStep.fillAndRecall

theorem EndKeeps.runCycle {ops : List PortOp} {evs : List Nat} {zero : Bool} (h : EndKeeps s x) : EndKeeps s (runCycle x ops evs zero) :=
  ((h.foldl fun _ _ hy => hy.runOp).cycleTimers.foldl fun _ _ hy => hy.runOp).cycleEnd

theorem EndKeeps.nextCycle (h : EndKeeps s x) : EndKeeps s (nextCycle x) := h.frame

theorem EndKeeps.dspCycleOf {evs : List Nat} {zero : Bool} (h : EndKeeps s x) : EndKeeps s (dspCycleOf x evs zero) :=
  .ite h.nextCycle.runCycle (.ite h.bumpBy h)

theorem EndKeeps.dspCycle {evs : List Nat} (h : EndKeeps s x) : EndKeeps s (dspCycle x evs) := .ite (.dspCycleOf h.frame) h.dspCycleOf

theorem EndKeeps.arriveRaises {evs : List Nat} (h : EndKeeps s x) : EndKeeps s (arriveRaises x evs) := .ite h.frame h.dspCycle

/-! ### The end of a command -/

theorem EndKeeps.eventVectors {e : Nat} (h : EndKeeps s x) : EndKeeps s (eventVectors x e) :=
  .foldl (.ite h.signal h) fun _ _ hy => .ite hy.signal hy

theorem EndKeeps.react (h : EndKeeps s x) : EndKeeps s (react x) :=
  .ite h.recAll (h.recAll.foldl fun _ _ hy => hy.eventVectors).arriveRaises

theorem EndKeeps.reactAll {n : Nat} (h : EndKeeps s x) : EndKeeps s (reactAll x n) := by
  induction n generalizing x with
  | zero => exact h
  | succ n ih => exact .ite h (ih h.react)

theorem EndKeeps.takeFrom {p : HostPort} (h : EndKeeps s x) : EndKeeps s (takeFrom x p) := by
  cases p <;> exact h.frame

theorem EndKeeps.respond {k : HostHdr} {op : Nat} {r : Rsp} (h : EndKeeps s x) : EndKeeps s (respond x k op r) :=
  .ite h (.ite (.ite h.frame h) (.ite h.bump (.ite h.frame h.frame)))

theorem EndKeeps.answerUnknown {p : HostPort} {n : Nat} (h : EndKeeps s x) : EndKeeps s (answerUnknown p n x) := by
  induction n generalizing x with
  | zero => exact h
  | succ n ih =>
    unfold Machine.answerUnknown
    split
    · exact ih (.respond h.takeFrom.frame)
    · exact h

/-- What follows a command short of a cold reset leaves the three alone. -/
theorem EndKeeps.reacted (s : Chip) : EndKeeps s (Machine.reactAll (Machine.drainBuffer (unknownDone s)) 8) :=
  (EndKeeps.refl s).answerUnknown.answerUnknown.drainBuffer.reactAll

/-- The end of a command leaves the timebase, the store and the loop engine alone, or is a cold reset (17 R773). -/
theorem settle_keeps_or_cold (s : Chip) : EndKeeps s (settle s) ∨ ∃ x, settle s = coldState x := by
  unfold settle
  extract_lets s1
  split
  · exact .inl (.reacted s)
  · next c hc =>
    refine .inr ?_
    unfold coldAction
    rw [hc]
    exact ⟨_, rfl⟩

end Sys2Proof.Machine
end

section
/-!
PROOFS of the commit (03, 04). An evaluation that misreads its record's OUTSID holds a result for another SID, and that is the one committed.
-/

namespace Sys2Proof.Machine

/-- SID 5, of slot 1 of tile 0. -/
def slotSid : SidDecl := ⟨.slot 1, false, false, 0, 0, 0, 0, 0, false, 0⟩

/-- Slot 1 of tile 0, enabled and due, with OUTSID 5. Two bits of the OUTSID word have flipped, an error that the code cannot correct (13 R588,
R590): the word reads 6. -/
def misreadSlot : Chip :=
  { Chip.reset.wrBit Reg.sysStat 0 true with
    boot := { Boot.zero with on := true }
    store := { Store.zero with
      decls := [(5, slotSid)]
      entries := [(5, initEntry slotSid)] }
    eng := { Engine.zero with
      recs := [(32, 1), (37, 5)]
      due := [(0, [1])]
      dueN := [(0, 1)] }
    memu := { Chip.reset.memu with flips := [(recordAt 1 + 20, 3)] } }

/-- What the evaluation of that slot leaves. -/
@[irreducible] def strayState : Chip := settle (evalNext misreadSlot (0 : Fin 16).val)

/-- The result that it leaves: of SID 6 (13 R591). -/
def strayResult : Held := ⟨1, 6, 0, false, false, ⟨0, 0, 0, 0, 0, 0, 0, 512⟩, 0, false, false, false, 0, 0, 512⟩

theorem exec_slotEvaluation (t : Fin 16) (st : State) :
    exec (.slotEvaluation t) st = finish st (fun s => if before s 8999 then evalNext s t.val else s) := rfl

theorem exec_resultCommit (st : State) : exec .resultCommit st = finish st resultCommit := rfl

/-- Before its last window has passed SLOT_EVALUATION takes the next due slot. -/
theorem exec_slotEvaluation_before (t : Fin 16) {s : Chip} (q : List Instr) (h : before s 8999 = true) :
    exec (.slotEvaluation t) ⟨s, q⟩ = .next ⟨settle (evalNext s t.val), q⟩ := by
  rw [exec_slotEvaluation, finish_eq, if_pos h]

theorem exec_slotEvaluation_misread : exec (.slotEvaluation 0) ⟨misreadSlot, []⟩ = .next ⟨strayState, []⟩ := by
  have hbefore : before misreadSlot 8999 = true := by decide +kernel
  delta strayState
  exact exec_slotEvaluation_before 0 [] hbefore

/-- The state meets what the statement asks before a commit: one result held, no slot due, and SID 0 for every output of PWM. -/
theorem strayState_meets : strayState.tb.phase ≤ 9000 ∧ strayState.eng.commitDone = false ∧ strayState.eng.held = [strayResult] ∧
    (∀ t, t < 16 → Tab.get [] strayState.eng.due t = []) ∧ (∀ n, n < 32 → strayState.rdF (Reg.adcPwmsid (n / 4) (n % 4)) 17 0 = 0) ∧
    Tab.get? strayState.store.entries 0 = none ∧ wordErr strayState 0x400000 0x02000000 0x02000008 = (List.replicate 8 0, 0) := by
  decide +kernel

/-- The entry of SID 0 is undamaged. -/
theorem strayState_undamaged : Undamaged strayState (entryAt 0) 8 := by
  obtain ⟨-, -, -, -, -, -, hword⟩ := strayState_meets
  intro w hlo hhi
  have hw : w = 0x400000 := by
    unfold entryAt at hlo hhi
    omega
  rw [hw]
  exact hword

/-- The commit writes SID 6, which slot 1 may not; the entry of SID 5 stays as it was, where a write of the OUTSID in force would change it. -/
theorem strayState_commit : (settle (resultCommit strayState)).store.entries ≠ [] ∧
    (settle (resultCommit strayState)).store.entries ≠ (storeWrite strayState (slotCfg strayState strayResult.lid).outsid
      ⟨some strayResult.out, ⟨true, false, strayResult.sat, strayResult.fault⟩⟩ ⟨14, .slot strayResult.lid, none⟩).1.store.entries := by
  decide +kernel

/-- A commit that completes at a state with these entries ends with them, or in a cold reset without any. -/
theorem Completes.resultCommit_entries {s : State} {P : Chip → Prop} {l : Tab Entry} (h : Completes .resultCommit s P)
    (hl : ∀ x, P x → x.store.entries = l) :
    (settle (resultCommit s.chip)).store.entries = l ∨ (settle (resultCommit s.chip)).store.entries = [] := by
  obtain ⟨x, hexec, hx⟩ := h
  rw [exec_resultCommit, finish_eq] at hexec
  have hend : settle (resultCommit s.chip) = settle x := congrArg State.chip (Host.Outcome.next.inj hexec)
  rw [hend]
  rcases settle_keeps_or_cold x with hkeep | ⟨y, hcold⟩
  · exact .inl ((congrArg Store.entries hkeep.store).trans (hl x hx))
  · exact .inr (congrArg (fun z => z.store.entries) hcold)

/-- Refutes O18: the commit writes the OUTSID that the evaluation read (`Held.outsid`), not that of the record in force; the two differ where the
record was read with an uncorrectable error. Nothing that ends the command can make up for it (`settle_keeps_or_cold`). -/
theorem not_evaluationsHoldTheirResults : ¬ Obligations.EvaluationsHoldTheirResults := by
  unfold Obligations.EvaluationsHoldTheirResults
  rintro ⟨-, hcommit⟩
  obtain ⟨hphase, hdone, hheld, hdue, hpwm, hnone, -⟩ := strayState_meets
  obtain ⟨hsome, hother⟩ := strayState_commit
  have hmade := (hcommit ⟨strayState, []⟩).1 hphase hdone
  refine (hmade.resultCommit_entries fun x ⟨_, _, _, _, hwrites⟩ => hwrites strayResult hheld hdue fun n hn => ?_).elim hother hsome
  rw [hpwm n hn]
  exact ⟨strayState_undamaged, fun e he => absurd (hnone.symm.trans he) (Option.some_ne_none e).symm⟩

end Sys2Proof.Machine
end

section
/-!
PROOFS of the landing (06, 07). Which copy of a compartment lands, what one that is missed leaves, and what a landing leaves of the timebase and
the store.
-/

namespace Sys2Proof.Machine

/-! ### The copies of one compartment -/

/-- A copy that came has its cause and its bytes, one that did not has cause 1 (06 R277). -/
theorem landCopy_eq (s : Chip) (c : Coach) (comp : Nat) (cfg : CompCfg) (ring : Nat) :
    let x := Tab.get? s.ewn.retPrev (2 * comp + ring)
    landCopy s c comp cfg ring = ((x.map (copyCause comp c.tick c.ttver cfg.owner)).getD 1, x.getD []) := by
  intro x
  unfold landCopy
  cases hx : Tab.get? s.ewn.retPrev (2 * comp + ring) <;> simp [x, hx]

/-- With no swap done a coach of the timetable in force lands (18 R830). -/
theorem landBarred_inForce {s : Chip} {c : Coach} (hs : s.rst.swapped = false) (ht : c.ttver = (s.rd Reg.ewnTtver).toNat) :
    landBarred s c = false := by
  simp [landBarred, hs, ht]

section Copies
variable {s : Chip} {c : Coach} {comp : Nat} {cfg : CompCfg}

theorem landComp_ringA (hb : landBarred s c = false) (ha : (landCopy s c comp cfg 0).1 = 0) :
    landComp s c comp cfg = landOne (noteDivergence s c comp cfg) c comp cfg 0 (landCopy s c comp cfg 0).2 := by
  have hpick : landPick s c comp cfg = some (0, (landCopy s c comp cfg 0).2) := by simp [landPick, hb, ha]
  rw [landComp, hpick]

theorem landComp_ringB (hb : landBarred s c = false) (ha : (landCopy s c comp cfg 0).1 ≠ 0) (hv : (landCopy s c comp cfg 1).1 = 0) :
    landComp s c comp cfg = landOne (noteDivergence s c comp cfg) c comp cfg 1 (landCopy s c comp cfg 1).2 := by
  have hpick : landPick s c comp cfg = some (1, (landCopy s c comp cfg 1).2) := by simp [landPick, hb, ha, hv]
  rw [landComp, hpick]

theorem landComp_missed (ha : (landCopy s c comp cfg 0).1 ≠ 0) (hv : (landCopy s c comp cfg 1).1 ≠ 0) :
    landComp s c comp cfg = missOne s comp (missCause s c comp cfg) := by
  have hpick : landPick s c comp cfg = none := by simp [landPick, ha, hv]
  rw [landComp, hpick]

theorem noteDivergence_same
    (h : (landCopy s c comp cfg 0).1 ≠ 0 ∨ (landCopy s c comp cfg 1).1 ≠ 0 ∨
      (landCopy s c comp cfg 0).2.take 60 = (landCopy s c comp cfg 1).2.take 60) :
    noteDivergence s c comp cfg = s := by
  refine if_neg ?_
  rintro ⟨ha, hb, hne⟩
  rcases h with h | h | h
  exacts [h ha, h hb, hne h]

theorem noteDivergence_differ (ha : (landCopy s c comp cfg 0).1 = 0) (hb : (landCopy s c comp cfg 1).1 = 0)
    (hne : (landCopy s c comp cfg 0).2.take 60 ≠ (landCopy s c comp cfg 1).2.take 60) :
    noteDivergence s c comp cfg = (((s.bump Reg.ewnDivcnt).wr Reg.ewnDivlast (wn comp)).ewnFlag2 2).odoInc 17 1 :=
  if_pos ⟨ha, hb, hne⟩

/-- NOCOPY in break operation, else the highest cause of the two copies (06 R277, 07 R338). -/
theorem missCause_inForce (hb : landBarred s c = false) :
    let a := landCopy s c comp cfg 0
    let b := landCopy s c comp cfg 1
    missCause s c comp cfg =
      if s.rdBit Reg.ewnSurvstat 2 = true ∧ (a.1 = 1 ∧ (b.1 = 3 ∧ leAt b.2 56 1 = 0) ∨ b.1 = 1 ∧ (a.1 = 3 ∧ leAt a.2 56 1 = 0)) then 1
      else max a.1 b.1 := by
  simp only [missCause, hb, unwritten, Bool.false_eq_true, if_false, Bool.and_eq_true, Bool.or_eq_true, beq_iff_eq]

end Copies

/-- A missed compartment is counted and flagged, and its cause shown; the store stays (06 R277). -/
theorem missOne_spec (s : Chip) (comp cause : Nat) :
    let t := missOne s comp cause
    t.store = s.store ∧ t.rd Reg.ewnMisscnt = s.rd Reg.ewnMisscnt + 1 ∧ t.rd Reg.ewnMisslast = wn (cause * 2 ^ 28 + comp) ∧
      t.rdBit Reg.ewnEvt 0 = true := by
  unfold missOne
  refine ⟨by simp [Chip.ewnFlag], ?_, ?_, ?_⟩
  · rw [Chip.odoInc_rd_ne _ _ _ (by decide), Chip.ewnFlag, Chip.flag_rd_ne _ _ _ _ (by decide), Chip.rd_wr_ne _ _ (by decide), Chip.rd_bump]
  · rw [Chip.odoInc_rd_ne _ _ _ (by decide), Chip.ewnFlag, Chip.flag_rd_ne _ _ _ _ (by decide), Chip.rd_wr_self]
  · rw [Chip.rdBit, Chip.odoInc_rd_ne _ _ _ (by decide)]
    exact Chip.rdBit_flag_self _ _ (by decide)

theorem missOne_tb (s : Chip) (comp cause : Nat) : (missOne s comp cause).tb = s.tb := by simp [missOne, Chip.ewnFlag]

theorem noteDivergence_tb (s : Chip) (c : Coach) (comp : Nat) (cfg : CompCfg) : (noteDivergence s c comp cfg).tb = s.tb := by
  unfold noteDivergence
  dsimp only
  split
  · simp [Chip.ewnFlag2]
  · rfl

/-! ### The phase of a landing -/

theorem storeWrites_tb (s : Chip) (ws : List (Nat × WriteReq)) (w : Writer) : (storeWrites s ws w).1.tb = s.tb :=
  List.foldlRecOn (motive := fun r : Chip × List TxnWrite => r.1.tb = s.tb) _ _ rfl fun _ hr _ _ => (storeWrite_tb ..).trans hr

theorem keepViews_tb (s : Chip) : (keepViews s).tb = s.tb := by
  obtain ⟨f, b, c, h⟩ := keepViews_eq s
  rw [h]
  rfl

theorem countPort_tb (s : Chip) (p : Nat) : (countPort s p).tb = s.tb := by
  obtain ⟨regs, n, h⟩ := countPort_eq s p
  rw [h]

theorem transaction_tb (s : Chip) (port : Nat) (w : Writer) (tag : Nat) (ws : List (Nat × WriteReq)) (body : List Byte) :
    (transaction s port w tag ws body).tb = s.tb :=
  (countPort_tb _ _).trans ((storeWrites_tb ..).trans (keepViews_tb s))

/-- A compartment lands at its own phase (01 R49). -/
theorem landOne_tb (s : Chip) (c : Coach) (comp : Nat) (cfg : CompCfg) (ring : Nat) (p : List Byte) :
    (landOne s c comp cfg ring p).tb = (s.atPhase (5000 + Config.landOffset comp % 801)).tb := by
  let s0 := (s.atPhase (5000 + Config.landOffset comp % 801)).bump Reg.ewnLandcnt
  have hwrites := transaction_tb s0 0 ⟨13, .seat, .none⟩ (comp + 512 * ring) (landedWrites s comp c.tick p) (p.take 60)
  unfold landOne
  dsimp only
  split <;> exact hwrites

/-- Phase stands where compartments land (01 R49). -/
def InLanding (s : Chip) : Prop := 5000 ≤ s.tb.phase ∧ s.tb.phase ≤ 5800

theorem InLanding.congr {s t : Chip} (h : InLanding s) (ht : t.tb = s.tb) : InLanding t := by
  unfold InLanding
  rw [ht]
  exact h

theorem atPhase_inLanding {s : Chip} (h : s.tb.phase ≤ 5800) {p : Nat} (hlo : 5000 ≤ p) (hhi : p ≤ 5800) : InLanding (s.atPhase p) := by
  unfold InLanding
  rw [Chip.atPhase_phase, Chip.lastPhase]
  split <;> omega

theorem landComp_inLanding {s : Chip} (h : InLanding s) (c : Coach) (comp : Nat) (cfg : CompCfg) : InLanding (landComp s c comp cfg) := by
  unfold landComp
  split
  · refine (atPhase_inLanding ?_ ?_ ?_).congr (landOne_tb ..)
    · rw [noteDivergence_tb]
      exact h.2
    · omega
    · omega
  · exact h.congr (missOne_tb ..)

/-! ### What follows the landing of the compartments -/

section Frame
variable {s x : Chip}

theorem EndKeeps.setNodeSt {d : Nat} {n : NodeSt} (h : EndKeeps s x) : EndKeeps s (setNodeSt x d n) := h.frame

theorem EndKeeps.logEvent {k c i : Nat} (h : EndKeeps s x) : EndKeeps s (x.logEvent k c i) :=
  .ite (EndKeeps.bump h.frame) (.ite (EndKeeps.bump (EndKeeps.wr h.frame)) (EndKeeps.wr h.frame))

theorem EndKeeps.syncHead (h : EndKeeps s x) : EndKeeps s (syncHead x) := by
  unfold Machine.syncHead
  dsimp only
  split <;> exact h.wr

theorem EndKeeps.loseMail {d : Nat} (h : EndKeeps s x) : EndKeeps s (loseMail x d) := by
  unfold Machine.loseMail
  dsimp only
  split
  · exact h
  · exact (EndKeeps.led (EndKeeps.wr (EndKeeps.bumpBy h.frame))).flag.syncHead

theorem EndKeeps.noteDeparture {d cause : Nat} (h : EndKeeps s x) : EndKeeps s (noteDeparture x d cause) := by
  have hnote : EndKeeps s
      (((({ x with ewn := { x.ewn with leftSeat := d :: x.ewn.leftSeat } }.wrF (Reg.ewnNstat d) 31 28 cause).ewnFlag2 3).odoInc 16 1).logEvent
        7 d cause) := (EndKeeps.flag (EndKeeps.wrF h.frame)).odoInc.logEvent
  exact .ite hnote.setNodeSt hnote

theorem EndKeeps.applyCauses {d : Nat} {cs : List Nat} (h : EndKeeps s x) : EndKeeps s (applyCauses x d cs) := by
  unfold Machine.applyCauses
  split
  · exact h
  · next c _ =>
    extract_lets gone fail s1 s2 s3
    have hs1 : EndKeeps s s1 := .ite h.noteDeparture h
    have hs2 : EndKeeps s s2 := .ite (.ite hs1.led hs1) hs1
    have hs3 : EndKeeps s s3 := .ite hs2.wrF (.ite hs2.wrF (.ite hs2.wrF hs2))
    exact EndKeeps.wrF (.ite hs3.loseMail hs3)

theorem EndKeeps.departAfterLanding {before : Chip} {c : Coach} {d : Nat} (h : EndKeeps s x) :
    EndKeeps s (departAfterLanding before c x d) :=
  .ite h h.setNodeSt.applyCauses

end Frame

/-- A landed frame is judged in the island's own part and registers (15 R682). -/
theorem judgeFrame_frame (p : List Byte) (s : Chip) (k : Nat) :
    (judgeFrame p s k).tb = s.tb ∧ (judgeFrame p s k).store = s.store ∧ (judgeFrame p s k).ewn = s.ewn := by
  have htimeout : ∀ x : Chip, (nodeTimeout x k).tb = x.tb ∧ (nodeTimeout x k).store = x.store ∧ (nodeTimeout x k).ewn = x.ewn := by
    intro x
    unfold nodeTimeout
    split <;> simp [Chip.safFlag]
  unfold judgeFrame
  dsimp only
  split
  · exact ⟨rfl, rfl, rfl⟩
  · split
    · exact htimeout _
    · exact ⟨rfl, rfl, rfl⟩

/-- The island takes landed frames without a change of the timebase, the store or the rings (15 R682). -/
theorem islLand_frame (s : Chip) : (islLand s).tb = s.tb ∧ (islLand s).store = s.store ∧ (islLand s).ewn = s.ewn := by
  have hfold : ∀ {β : Type} (π : Chip → β), (∀ p x k, π (judgeFrame p x k) = π x) → π (islLand s) = π s := by
    intro β π h
    unfold islLand
    split
    · rfl
    · refine foldl_keeps π (fun x e => ?_) _ s
      exact foldl_keeps π (f := judgeFrame e.2) (h e.2) _ x
  exact ⟨hfold Chip.tb fun p x k => (judgeFrame_frame p x k).1, hfold Chip.store fun p x k => (judgeFrame_frame p x k).2.1,
    hfold Chip.ewn fun p x k => (judgeFrame_frame p x k).2.2⟩

/-! ### The command -/

theorem exec_landing (st : State) : exec .landing st = finish st (fun s => if before s 5800 then islLand (landCoach s) else s) := rfl

/-- The Poermun as the landing of a coach starts: at phase 5,000, with no frame for the island (01 R49). -/
def landingStart (s : Chip) : Chip := { s.atPhase 5000 with ewn := { s.ewn with safeU := [] } }

/-- Every IN and SAFE-U compartment of a coach landed, in the order of the timetable (06 R276). -/
def landedComps (s : Chip) (c : Coach) : Chip :=
  s.ewn.comps.foldl (fun y e => if e.2.kind = 2 ∨ e.2.kind = 4 then landComp y c e.1 e.2 else y) (landingStart s)

theorem landedComps_inLanding {s : Chip} (h : s.tb.phase ≤ 5800) (c : Coach) : InLanding (landedComps s c) := by
  have hstart : InLanding (landingStart s) := (atPhase_inLanding h (Nat.le_refl _) (by decide)).congr rfl
  refine List.foldlRecOn (motive := InLanding) _ _ hstart fun y hy e _ => ?_
  split
  · exact landComp_inLanding hy ..
  · exact hy

/-- After the compartments the nodes' departures follow, and no copy is held any more (06 R276, 07 R326). -/
theorem landCoach_some {s : Chip} {c : Coach} (h : s.ewn.prev = some c) :
    let y := nodeNums.foldl (departAfterLanding (landingStart s) c) (landedComps s c)
    landCoach s = { y with ewn := { y.ewn with retPrev := [] } } := by
  unfold landCoach
  dsimp only
  split
  · next hnone => exact absurd (h.symm.trans hnone) (Option.some_ne_none c)
  · next c' hsome =>
    obtain rfl : c = c' := Option.some.inj (h.symm.trans hsome)
    rfl

/-- The landing leaves phase and the store as its compartments leave them, and no copy held. -/
theorem islLand_landCoach {s : Chip} {c : Coach} (h : s.ewn.prev = some c) :
    let x := islLand (landCoach s)
    x.tb = (landedComps s c).tb ∧ x.store = (landedComps s c).store ∧ x.ewn.retPrev = [] := by
  intro x
  obtain ⟨htb, hstore, hewn⟩ := islLand_frame (landCoach s)
  have hdepart : EndKeeps (landedComps s c) (nodeNums.foldl (departAfterLanding (landingStart s) c) (landedComps s c)) :=
    (EndKeeps.refl _).foldl fun _ _ hy => hy.departAfterLanding
  refine ⟨htb.trans ?_, hstore.trans ?_, (congrArg Ewene.retPrev hewn).trans ?_⟩
  all_goals rw [landCoach_some h]
  exacts [hdepart.tb, hdepart.store]

/-- Settles O22: the copies' causes decide which of `landComp`'s cases holds; a landing is the fold of `landComp`, and what follows it leaves phase
and the store alone (`EndKeeps.departAfterLanding`, `islLand_frame`). -/
theorem landingPrefersRingA : Obligations.LandingPrefersRingA := by
  unfold Obligations.LandingPrefersRingA
  refine ⟨fun s c comp cfg hswap htt => ?_, fun s => ⟨fun c hp hc => ?_, fun hs hp => ?_⟩⟩
  · intro a b cause t
    have hbar := landBarred_inForce hswap htt
    have hA : landCopy s c comp cfg 0 = (cause a, a.getD []) := landCopy_eq s c comp cfg 0
    have hB : landCopy s c comp cfg 1 = (cause b, b.getD []) := landCopy_eq s c comp cfg 1
    refine ⟨fun p hap ha hsame => ?_, fun p q hap hbq ha hb hne => ?_, fun q hbq ha hb => ?_, fun ha hb => ?_⟩
    · refine (landComp_ringA hbar (by rw [hA]; exact ha)).trans ?_
      rw [noteDivergence_same, hA, hap]
      · rfl
      · rw [hA, hB, hap]
        exact .inr (hsame.imp_right Eq.symm)
    · refine (landComp_ringA hbar (by rw [hA]; exact ha)).trans ?_
      rw [noteDivergence_differ, hA, hap]
      · rfl
      · rw [hA]; exact ha
      · rw [hB]; exact hb
      · rw [hA, hB, hap, hbq]; exact hne.symm
    · refine (landComp_ringB hbar (by rw [hA]; exact ha) (by rw [hB]; exact hb)).trans ?_
      rw [noteDivergence_same (.inl (by rw [hA]; exact ha)), hB, hbq]
      rfl
    · intro bare
      have ht : t = missOne s comp (missCause s c comp cfg) := landComp_missed (by rw [hA]; exact ha) (by rw [hB]; exact hb)
      have hcause := missCause_inForce (comp := comp) (cfg := cfg) hbar
      rw [hA, hB] at hcause
      rw [ht, hcause]
      exact missOne_spec ..
  · obtain ⟨htb, hstore, hret⟩ := islLand_landCoach hc
    obtain ⟨hlo, hhi⟩ := (landedComps_inLanding hp c).congr htb
    refine ⟨islLand (landCoach s.chip), ?_, hret, hlo, hhi, congrArg Store.entries hstore⟩
    rw [exec_landing, finish_eq, if_pos (before_of_le hp)]
  · have hlate : before s.chip 5800 = false := decide_eq_false (Nat.not_le.2 hp)
    rw [exec_landing, finish_eq, hlate, if_neg Bool.false_ne_true, settle_still hs]

end Sys2Proof.Machine
end

section
/-!
PROOFS of mail (06). The registers that the shared operations of mail write, and what of a node and of the rings they leave alone.
-/

namespace Sys2Proof.Machine

/-! ### Registers left alone -/

section Regs
variable {l : List Nat} {s x : Chip}

theorem KeepsRegsBut.refl (l : List Nat) (s : Chip) : KeepsRegsBut l s s := fun _ _ => rfl

/-- An update that leaves the register file alone. -/
theorem KeepsRegsBut.same {y : Chip} (h : KeepsRegsBut l s x) (hr : y.regs = x.regs) : KeepsRegsBut l s y :=
  fun a ha => (Chip.rd_congr hr a).trans (h a ha)

/-- An update after another, with registers of its own. -/
theorem KeepsRegsBut.trans {k : List Nat} {y : Chip} (h : KeepsRegsBut l s x) (h' : KeepsRegsBut k x y) (hk : k ⊆ l) : KeepsRegsBut l s y :=
  fun a ha => (h' a fun hm => ha (hk hm)).trans (h a ha)

theorem KeepsRegsBut.ite {a b : Chip} {c : Prop} {_ : Decidable c} (ha : KeepsRegsBut l s a) (hb : KeepsRegsBut l s b) :
    KeepsRegsBut l s (if c then a else b) := by
  split <;> assumption

theorem KeepsRegsBut.wr {a : Nat} {w : Word} (h : KeepsRegsBut l s x) (ha : a ∈ l) : KeepsRegsBut l s (x.wr a w) :=
  fun b hb => (x.rd_wr_ne w (ne_of_mem_of_not_mem ha hb).symm).trans (h b hb)

theorem KeepsRegsBut.flag {evt en b e : Nat} (h : KeepsRegsBut l s x) (ha : evt ∈ l) : KeepsRegsBut l s (x.flag evt en b e) :=
  (h.wr ha).same (x.flag_regs ..)

theorem KeepsRegsBut.odoInc {k n : Nat} (h : KeepsRegsBut l s x) (ha : Reg.odoEvt ∈ l) : KeepsRegsBut l s (x.odoInc k n) :=
  fun b hb => (x.odoInc_rd_ne k n (ne_of_mem_of_not_mem ha hb).symm).trans (h b hb)

theorem KeepsRegsBut.logEvent {k c i : Nat} (h : KeepsRegsBut l s x) (ha : [Reg.ldgLogskip, Reg.ldgLogseq, Reg.ldgLogshed] ⊆ l) :
    KeepsRegsBut l s (x.logEvent k c i) :=
  fun b hb => (x.logEvent_rd_ne k c i (fun hmem => hb (ha hmem))).trans (h b hb)

end Regs

/-! ### The answers that a staged consist waits for -/

/-- The registers of the nodes whose SEATACK a staged consist waits for (18 R828, R839). -/
def seatPendRegs : List Nat := [Reg.cstSeatpendlo, Reg.cstSeatpendhi, Reg.cstStat, Reg.cstEvt]

theorem syncSeatPend_keepsRegs (s : Chip) : KeepsRegsBut seatPendRegs s (syncSeatPend s) := by
  unfold syncSeatPend
  extract_lets map s1 ok
  have hs1 : KeepsRegsBut seatPendRegs s s1 := ((KeepsRegsBut.refl _ s).wr (by decide)).wr (by decide)
  exact .ite ((hs1.wr (by decide)).flag (by decide)) (hs1.wr (by decide))

theorem syncSeatPend_ewn (s : Chip) : (syncSeatPend s).ewn = s.ewn := by
  unfold syncSeatPend
  extract_lets map s1 ok
  split <;> simp [s1]

theorem syncSeatPend_tb (s : Chip) : (syncSeatPend s).tb = s.tb := by
  unfold syncSeatPend
  extract_lets map s1 ok
  split <;> simp [s1]

/-! ### The head of the core queue -/

theorem syncHead_keepsRegs (s : Chip) : KeepsRegsBut [Reg.ewnMtxhead] s (syncHead s) := by
  unfold syncHead
  dsimp only
  split <;> exact (KeepsRegsBut.refl _ s).wr (by decide)

theorem syncHead_ewn (s : Chip) : (syncHead s).ewn = s.ewn := by
  unfold syncHead
  dsimp only
  split <;> rfl

end Sys2Proof.Machine
end

section
/-!
PROOFS of uplink mail and of the core's transmit queue (06). A returned carrier by what its copies are, and a write of EWN_MTXTAIL by the entries
that lie before it.
-/

namespace Sys2Proof.Machine

/-! ### What an accepted frame leaves alone -/

/-- From `s` on, `x` has kept the carriers granted, the last MSEQ accepted from node `d` and the count of frames accepted. -/
structure UplinkKeeps (d : Nat) (s x : Chip) : Prop where
  carriers : x.ewn.carriers = s.ewn.carriers
  rxSeq : (nodeSt x d).rxSeq = (nodeSt s d).rxSeq
  mrxcnt : x.rd Reg.ewnMrxcnt = s.rd Reg.ewnMrxcnt

section Uplink
variable {d : Nat} {s x : Chip}

theorem UplinkKeeps.refl (d : Nat) (s : Chip) : UplinkKeeps d s s := ⟨rfl, rfl, rfl⟩

theorem UplinkKeeps.trans {y : Chip} (h : UplinkKeeps d s x) (h' : UplinkKeeps d x y) : UplinkKeeps d s y :=
  ⟨h'.carriers.trans h.carriers, h'.rxSeq.trans h.rxSeq, h'.mrxcnt.trans h.mrxcnt⟩

theorem UplinkKeeps.ite {a b : Chip} {c : Prop} {_ : Decidable c} (ha : UplinkKeeps d s a) (hb : UplinkKeeps d s b) :
    UplinkKeeps d s (if c then a else b) := by
  split <;> assumption

/-- An update that leaves the nodes, the carriers and EWN_MRXCNT alone. -/
theorem UplinkKeeps.same {y : Chip} (h : UplinkKeeps d s x) (hn : y.ewn.nodes = x.ewn.nodes) (hc : y.ewn.carriers = x.ewn.carriers)
    (hr : y.rd Reg.ewnMrxcnt = x.rd Reg.ewnMrxcnt) : UplinkKeeps d s y :=
  h.trans ⟨hc, by rw [nodeSt, hn, nodeSt], hr⟩

theorem UplinkKeeps.wr {a : Nat} {w : Word} (h : UplinkKeeps d s x) (ha : Reg.ewnMrxcnt ≠ a) : UplinkKeeps d s (x.wr a w) :=
  h.same rfl rfl (x.rd_wr_ne w ha)

theorem UplinkKeeps.flag {evt en b e : Nat} (h : UplinkKeeps d s x) (ha : Reg.ewnMrxcnt ≠ evt) : UplinkKeeps d s (x.flag evt en b e) :=
  h.same (by rw [Chip.flag_ewn]) (by rw [Chip.flag_ewn]) (x.flag_rd_ne _ _ _ ha)

theorem UplinkKeeps.setNodeSt {n : NodeSt} (h : UplinkKeeps d s x) (hn : n.rxSeq = (nodeSt x d).rxSeq) :
    UplinkKeeps d s (setNodeSt x d n) :=
  h.trans ⟨rfl, (congrArg NodeSt.rxSeq (Tab.get_set_self ..)).trans hn, rfl⟩

theorem UplinkKeeps.syncHead (h : UplinkKeeps d s x) : UplinkKeeps d s (syncHead x) :=
  h.same (by rw [syncHead_ewn]) (by rw [syncHead_ewn]) (syncHead_keepsRegs x _ (by decide))

theorem ewnMrxcnt_ne_nmail (d : Nat) : Reg.ewnMrxcnt ≠ Reg.ewnNmail d := by
  unfold Reg.ewnMrxcnt Reg.ewnNmail
  omega

theorem UplinkKeeps.syncCred (h : UplinkKeeps d s x) : UplinkKeeps d s (syncCred x d) := h.wr (ewnMrxcnt_ne_nmail d)

theorem UplinkKeeps.takeAck {ack : Nat} (h : UplinkKeeps d s x) : UplinkKeeps d s (takeAck x d ack) := by
  unfold Machine.takeAck
  extract_lets n step covered done s1
  have hs1 : UplinkKeeps d s s1 := h.setNodeSt rfl
  exact .ite h (UplinkKeeps.syncHead (hs1.same rfl rfl rfl))

theorem UplinkKeeps.takeFreed {freed : Nat} (h : UplinkKeeps d s x) : UplinkKeeps d s (takeFreed x d freed) :=
  .ite (UplinkKeeps.syncCred (h.setNodeSt rfl)) (UplinkKeeps.syncCred ((h.wr (by decide)).flag (by decide)))

theorem UplinkKeeps.noteSeatAck {ttver status : Nat} (h : UplinkKeeps d s x) : UplinkKeeps d s (noteSeatAck x d ttver status) := by
  unfold Machine.noteSeatAck
  extract_lets n others s1
  have hs1 : UplinkKeeps d s s1 := h.setNodeSt rfl
  exact .ite hs1 (hs1.same rfl rfl rfl)

theorem UplinkKeeps.noteUplink {type : Nat} {body : List Byte} (h : UplinkKeeps d s x) : UplinkKeeps d s (noteUplink x d type body) :=
  .ite (h.setNodeSt rfl) (.ite h.noteSeatAck h)

theorem UplinkKeeps.clearFlips {a n : Nat} (h : UplinkKeeps d s x) : UplinkKeeps d s (clearFlips x a n) := h.same rfl rfl rfl

theorem UplinkKeeps.putRx {bytes : List Byte} (h : UplinkKeeps d s x) : UplinkKeeps d s (putRx x bytes) := by
  unfold Machine.putRx
  extract_lets t k m e s1
  have hs1 : UplinkKeeps d s s1 :=
    List.foldlRecOn (motive := UplinkKeeps d s) _ _ (h.same rfl rfl rfl) fun _ hy _ _ => hy.clearFlips
  exact hs1.wr (by decide)

/-- A delivered frame is counted, and leaves the carriers and the last accepted MSEQ alone (06 R288). -/
theorem deliverUplink_keeps (s : Chip) (d cap : Nat) (frame : List Byte) : UplinkKeeps d (s.bump Reg.ewnMrxcnt) (deliverUplink s d cap frame) := by
  unfold deliverUplink
  extract_lets len entry s1
  have hs1 : UplinkKeeps d (s.bump Reg.ewnMrxcnt) s1 := (UplinkKeeps.refl ..).noteUplink
  exact .ite (hs1.same rfl rfl rfl) (hs1.putRx.flag (by decide))

end Uplink

/-! ### A filled carrier -/

/-- A frame whose MSEQ follows is accepted and counted; its MSEQ is the last accepted (06 R281, R282). -/
theorem uplinkFrom_follows {s : Chip} {d : Nat} {b : List Byte} (h : leAt b 6 2 = ((nodeSt s d).rxSeq + 1) % 65536) (cap : Nat) :
    let x := uplinkFrom s d cap b
    x.ewn.carriers = s.ewn.carriers ∧ (nodeSt x d).rxSeq = leAt b 6 2 ∧ x.rd Reg.ewnMrxcnt = s.rd Reg.ewnMrxcnt + 1 := by
  intro x
  let s0 := setNodeSt s d { nodeSt s d with rxSeq := leAt b 6 2 }
  let s1 := takeFreed (takeAck s0 d (leAt b 8 2)) d (leAt b 10 2)
  have hx : x = deliverUplink s1 d cap b := if_pos h
  have hs1 : UplinkKeeps d s0 s1 := (UplinkKeeps.refl ..).takeAck.takeFreed
  have hend := deliverUplink_keeps s1 d cap b
  rw [hx]
  refine ⟨hend.carriers.trans hs1.carriers, ?_, ?_⟩
  · exact (hend.rxSeq.trans hs1.rxSeq).trans (congrArg NodeSt.rxSeq (Tab.get_set_self ..))
  · rw [hend.mrxcnt, Chip.rd_bump, hs1.mrxcnt]
    rfl

/-- A frame with a body that comes again is counted alone (06 R282). -/
theorem uplinkFrom_again {s : Chip} {d : Nat} {b : List Byte} (h : leAt b 6 2 ≠ ((nodeSt s d).rxSeq + 1) % 65536) (hlen : leAt b 4 2 > 0)
    (cap : Nat) : uplinkFrom s d cap b = s.bump Reg.ewnMdup := by
  unfold uplinkFrom
  dsimp only
  rw [if_neg h, if_pos hlen]

/-! ### A returned carrier -/

theorem uplinkFrame_noCarrier {s : Chip} {d : Nat} (h : carrierOf s d = none) (a b : List Byte) (own : OwnPorts) :
    uplinkFrame s d a b own = s := by
  simp only [uplinkFrame, h]

/-- The Poermun with a carrier's reservation ended, and the ports noted on which its copies came back (06 R285, 07 R337). -/
def carrierBack (s : Chip) (c : Nat × Nat) (a b : List Byte) (own : OwnPorts) : Chip := noteWraps (dropCarrier s c) a b own

/-- A carrier copy of a ring is back intact and filled by node `n`, where 0 is no node (06 R280, R282). -/
def backFrom (n cap ring : Nat) (z : List Byte) : Prop := carrierOk cap ring z = true ∧ leAt z 1 1 = n

theorem backFrom_iff (n cap ring : Nat) (z : List Byte) : (carrierOk cap ring z && filledBy n z) = true ↔ backFrom n cap ring z := by
  simp [backFrom, filledBy]

section Carrier
variable {s : Chip} {d : Nat} {c : Nat × Nat} {a b : List Byte}

/-- The copy that the node filled is judged, ring A's if both are (06 R282). -/
theorem uplinkFrame_filled (hc : carrierOf s d = some c) {f : List Byte}
    (hf : backFrom d c.2 0 a ∧ f = a ∨ ¬ backFrom d c.2 0 a ∧ backFrom d c.2 1 b ∧ f = b) (own : OwnPorts) :
    uplinkFrame s d a b own = uplinkFrom (carrierBack s c a b own) d c.2 f := by
  simp only [uplinkFrame, hc, carrierBack]
  rcases hf with ⟨ha, rfl⟩ | ⟨ha, hb, rfl⟩
  · rw [if_pos ((backFrom_iff ..).2 ha)]
  · rw [if_neg (mt (backFrom_iff ..).1 ha), if_pos ((backFrom_iff ..).2 hb)]

/-- With no copy filled and one back as it left, the carrier is counted unused (06 R282). -/
theorem uplinkFrame_unused (hc : carrierOf s d = some c) (ha : ¬ backFrom d c.2 0 a) (hb : ¬ backFrom d c.2 1 b)
    (hbare : backFrom 0 c.2 0 a ∨ backFrom 0 c.2 1 b) (own : OwnPorts) :
    uplinkFrame s d a b own = (carrierBack s c a b own).bump Reg.ewnCarrunused := by
  have hbare' : ((carrierOk c.2 0 a && filledBy 0 a) || (carrierOk c.2 1 b && filledBy 0 b)) = true := by
    rw [Bool.or_eq_true, backFrom_iff, backFrom_iff]
    exact hbare
  simp only [uplinkFrame, hc, carrierBack]
  rw [if_neg (mt (backFrom_iff ..).1 ha), if_neg (mt (backFrom_iff ..).1 hb), if_pos hbare']

end Carrier

theorem exec_uplinkFrame (d : Fin 64) (a b : List Byte) (own : OwnPorts) (st : State) :
    exec (.uplinkFrame d a b own) st = finish st (fun s => if 1 ≤ d.val ∧ d.val ≤ 62 then
      pruneMail (syncSeatPend (uplinkFrame s d.val (heard s 0 own.a a) (heard s 1 own.b b) own)) else s) := rfl

theorem pruneMail_carriers (s : Chip) : (pruneMail s).ewn.carriers = s.ewn.carriers := rfl

theorem pruneMail_nodes (s : Chip) : (pruneMail s).ewn.nodes = s.ewn.nodes := rfl

/-- The command's last acts leave the nodes, the carriers and the counters of mail alone. -/
theorem completes_uplinkFrame {s : State} {d : Fin 64} {a b : List Byte} {own : OwnPorts} (hd : 1 ≤ d.val ∧ d.val ≤ 62) {P : Chip → Prop}
    (hP : ∀ x, x.ewn.carriers = (uplinkFrame s.chip d.val (heard s.chip 0 own.a a) (heard s.chip 1 own.b b) own).ewn.carriers →
      x.ewn.nodes = (uplinkFrame s.chip d.val (heard s.chip 0 own.a a) (heard s.chip 1 own.b b) own).ewn.nodes →
      KeepsRegsBut seatPendRegs (uplinkFrame s.chip d.val (heard s.chip 0 own.a a) (heard s.chip 1 own.b b) own) x → P x) :
    Completes (.uplinkFrame d a b own) s P := by
  refine ⟨pruneMail (syncSeatPend (uplinkFrame s.chip d.val (heard s.chip 0 own.a a) (heard s.chip 1 own.b b) own)),
    by rw [exec_uplinkFrame, finish_eq, if_pos hd], hP _ ?_ ?_ ((syncSeatPend_keepsRegs _).same rfl)⟩
  · exact (pruneMail_carriers _).trans (congrArg Ewene.carriers (syncSeatPend_ewn _))
  · exact (pruneMail_nodes _).trans (congrArg Ewene.nodes (syncSeatPend_ewn _))

/-! ### The core's transmit queue -/

theorem placeOf_mtxtail :
    placeOf Reg.ewnMtxtail = some (.reg 6 0 0x44 ⟨0x44, 1, 4, 0, 0xFFFF, 0, 0, 0, 0, 0, 0xFFFF, 0, 0, 0⟩) := by decide

/-- A write of EWN_MTXTAIL by an agent that may write it acts (06 R299). -/
theorem regCmd_mtxtail {s : Chip} {who : Agent} (hm : MayWrite s who Reg.ewnMtxtail) (v : Word) :
    regCmd s who Reg.ewnMtxtail v = writeMtxtail s (fld v 15 0) := by
  obtain ⟨hcore, hans, hauth⟩ := hm
  have hcs : ((v ^^^ s.rd Reg.ewnMtxtail) &&& wn 0) = 0 := BitVec.and_zero
  have hrow : ∀ r : RegRow, r.cs = 0 → writeRow s (agentSrc who) Reg.ewnMtxtail 6 0 0x44 r v false = (writeMtxtail s (fld v 15 0), .done) := by
    intro r hr
    unfold writeRow
    rw [hr]
    simp only [hcs, bne_self_eq_false, Bool.and_false, Bool.false_eq_true, if_false]
    rfl
  unfold regCmd regWrite
  simp only [placeOf_mtxtail, hcore, hans, hauth, Bool.and_false, Bool.not_true, Bool.false_eq_true, if_false, placeWrite]
  rw [if_neg (by decide), hrow _ rfl]
  rfl

/-- The bytes from the end of the core queue up to the tail (06 R290). -/
def tailRoom (s : Chip) : Nat := (s.rdF Reg.ewnMtxtail 15 0 + 65536 - s.ewn.coreEnd % 65536) % 65536

/-- The bytes of the entry that starts where the core queue ends (06 R290). -/
def nextSize (s : Chip) : Nat := 16 + pad16 (coreEntry s s.ewn.coreEnd).body.length

/-- The Poermun with that entry in the core queue (06 R290, 19 R844). -/
def entryTaken (s : Chip) : Chip :=
  { s with ewn := { s.ewn with
    coreQ := s.ewn.coreQ ++ [coreEntry s s.ewn.coreEnd]
    coreEnd := (s.ewn.coreEnd + nextSize s) % 65536 } }.led 1 0 1

/-- An entry that does not lie whole before the tail stays out (06 R290). -/
theorem takeEntries_short {s : Chip} (h : tailRoom s < nextSize s) (n : Nat) : takeEntries s n = s := by
  cases n with
  | zero => rfl
  | succ n => exact if_neg (Nat.not_le.2 h)

theorem takeEntries_fits {s : Chip} (h : nextSize s ≤ tailRoom s) (n : Nat) : takeEntries s (n + 1) = takeEntries (entryTaken s) n :=
  if_pos h

/-- When the entry ends at the tail, no byte is left before it. -/
theorem tailRoom_entryTaken {s : Chip} (h : tailRoom s = nextSize s) : tailRoom (entryTaken s) = 0 := by
  have hroom : tailRoom (entryTaken s) = (s.rdF Reg.ewnMtxtail 15 0 + 65536 - (s.ewn.coreEnd + nextSize s) % 65536 % 65536) % 65536 := rfl
  have htail : s.rdF Reg.ewnMtxtail 15 0 < 65536 := fld_lt ..
  unfold tailRoom at h
  omega

/-- An entry that ends at the tail joins the core queue, and no other (06 R290). -/
theorem takeEntries_one {s : Chip} (h : tailRoom s = nextSize s) (n : Nat) : takeEntries s (n + 1) = entryTaken s := by
  rw [takeEntries_fits h.ge, takeEntries_short]
  rw [tailRoom_entryTaken h, nextSize]
  omega

theorem exec_mtxtailWrite (who : Agent) (v : Word) (st : State) :
    exec (.mtxtailWrite who v) st = finish st (fun s => regCmd s who Reg.ewnMtxtail v) := rfl

/-- The Poermun with EWN_MTXTAIL written: bits 15:0 of the word (06 R299). -/
def tailWritten (s : Chip) (v : Word) : Chip := s.wr Reg.ewnMtxtail (wn (v.toNat % 65536))

theorem tailRoom_tailWritten (s : Chip) (v : Word) :
    tailRoom (tailWritten s v) = (v.toNat % 65536 + 65536 - s.ewn.coreEnd % 65536) % 65536 := by
  have htail : (tailWritten s v).rdF Reg.ewnMtxtail 15 0 = v.toNat % 65536 := by
    rw [Chip.rdF, tailWritten, Chip.rd_wr_self]
    simp [fld, wn]
  rw [tailRoom, htail]
  rfl

/-- The command ends in the entries that it hands over, which leave the tail as written. -/
theorem completes_mtxtailWrite {s : State} {who : Agent} (hm : MayWrite s.chip who Reg.ewnMtxtail) {v : Word} {y : Chip}
    (hy : takeEntries (tailWritten s.chip v) 4096 = y) (htail : y.rd Reg.ewnMtxtail = (tailWritten s.chip v).rd Reg.ewnMtxtail)
    {P : Ewene → Prop} (hP : P y.ewn) :
    Completes (.mtxtailWrite who v) s (fun x => x.rd Reg.ewnMtxtail = wn (v.toNat % 65536) ∧ P x.ewn) := by
  have hv : fld v 15 0 % 65536 = v.toNat % 65536 := by simp [fld]
  have heff : regCmd s.chip who Reg.ewnMtxtail v = syncHead y := by
    rw [regCmd_mtxtail hm, writeMtxtail, hv, ← hy]
    rfl
  refine ⟨syncHead y, by rw [exec_mtxtailWrite, finish_eq, heff], ?_, ?_⟩
  · rw [syncHead_keepsRegs y _ (by decide), htail]
    exact Chip.rd_wr_self ..
  · rw [syncHead_ewn]
    exact hP

/-- Settles O24: what the copies of a returned carrier are decides its case (`uplinkFrame_filled`, `uplinkFrame_unused`), and the filled copy's MSEQ
what becomes of its frame; a written tail hands over one entry (`takeEntries_one`) or none (`takeEntries_short`). -/
theorem uplinkAndTransmitQueue : Obligations.UplinkAndTransmitQueue := by
  unfold Obligations.UplinkAndTransmitQueue
  intro s
  refine ⟨fun d a b own hlo hhi => ⟨fun hnone => ?_, fun c hc => ?_⟩, fun who v hm => ?_⟩
  · refine completes_uplinkFrame ⟨hlo, hhi⟩ ?_
    rw [uplinkFrame_noCarrier hnone]
    exact fun x hcar hnodes hregs => ⟨hcar, hnodes, hregs _ (by decide)⟩
  · intro p q full bare
    refine ⟨fun ha hb hbare => ?_, fun f hf => ⟨fun hseq => ?_, fun hseq hlen => ?_⟩⟩
    · refine completes_uplinkFrame ⟨hlo, hhi⟩ ?_
      rw [uplinkFrame_unused hc ha hb hbare]
      exact fun x hcar hnodes hregs => ⟨hcar, (hregs _ (by decide)).trans (Chip.rd_bump ..), hnodes⟩
    · refine completes_uplinkFrame ⟨hlo, hhi⟩ ?_
      rw [uplinkFrame_filled hc hf]
      obtain ⟨hcar', hrx, hcnt⟩ := uplinkFrom_follows (s := carrierBack s.chip c p q own) hseq c.2
      refine fun x hcar hnodes hregs => ⟨hcar.trans hcar', ?_, (hregs _ (by decide)).trans hcnt⟩
      rw [nodeSt, hnodes]
      exact hrx
    · refine completes_uplinkFrame ⟨hlo, hhi⟩ ?_
      rw [uplinkFrame_filled hc hf, uplinkFrom_again (s := carrierBack s.chip c p q own) hseq hlen]
      exact fun x hcar hnodes hregs => ⟨hcar, (hregs _ (by decide)).trans (Chip.rd_bump ..), hnodes⟩
  · intro o f size room
    have hroom : tailRoom (tailWritten s.chip v) = room := tailRoom_tailWritten ..
    have hsize : nextSize (tailWritten s.chip v) = size := rfl
    refine ⟨fun heq => ?_, fun hlt => ?_⟩
    · exact completes_mtxtailWrite hm (takeEntries_one (by rw [hroom, hsize, heq]) 4095) rfl (P := fun e =>
        e.coreQ = s.chip.ewn.coreQ ++ [f] ∧ e.coreEnd = (o + size) % 65536) ⟨rfl, rfl⟩
    · exact completes_mtxtailWrite hm (takeEntries_short (by rw [hroom, hsize]; exact hlt) 4096) rfl (P := fun e =>
        e.coreQ = s.chip.ewn.coreQ ∧ e.coreEnd = o) ⟨rfl, rfl⟩

end Sys2Proof.Machine
end

section
/-!
PROOFS of the mail window (06). What each stage of it leaves: the survey packet, the carriers, the frames sent again, the new frames; and what a
node whose mail has failed loses.
-/

namespace Sys2Proof.Machine

/-! ### The survey packet -/

/-- A survey packet that still has to leave changes the line and the survey's own books alone (07 R311, R312). -/
theorem sendEnum_eq (s : Chip) : ∃ sseq sent line wire, sendEnum s = { s with ewn := { s.ewn with
    sseq := sseq
    sent := sent
    linePos := line
    wire := wire } } := by
  unfold sendEnum
  split <;> exact ⟨_, _, _, _, rfl⟩

theorem sendEnum_regs (s : Chip) : (sendEnum s).regs = s.regs := by
  obtain ⟨_, _, _, _, h⟩ := sendEnum_eq s
  rw [h]

theorem sendEnum_tb (s : Chip) : (sendEnum s).tb = s.tb := by
  obtain ⟨_, _, _, _, h⟩ := sendEnum_eq s
  rw [h]

theorem sendEnum_coach (s : Chip) : (sendEnum s).ewn.now = s.ewn.now := by
  obtain ⟨_, _, _, _, h⟩ := sendEnum_eq s
  rw [h]

theorem sendEnum_carriers (s : Chip) : (sendEnum s).ewn.carriers = s.ewn.carriers ∧ (sendEnum s).ewn.carSent = s.ewn.carSent := by
  obtain ⟨_, _, _, _, h⟩ := sendEnum_eq s
  rw [h]
  exact ⟨rfl, rfl⟩

theorem sendEnum_queues (s : Chip) : (sendEnum s).ewn.coreQ = s.ewn.coreQ ∧ (sendEnum s).ewn.engQ = s.ewn.engQ ∧
    (sendEnum s).ewn.unacked = s.ewn.unacked := by
  obtain ⟨_, _, _, _, h⟩ := sendEnum_eq s
  rw [h]
  exact ⟨rfl, rfl, rfl⟩

theorem carrierNext_sendEnum (s : Chip) (done : List Nat) : carrierNext (sendEnum s) done = carrierNext s done := by
  obtain ⟨_, _, _, _, h⟩ := sendEnum_eq s
  rw [h]
  rfl

/-- Which frames are overdue depends on those not acknowledged, the tick and the configuration (06 R284). -/
theorem overdueFrames_congr {s t : Chip} (hu : t.ewn.unacked = s.ewn.unacked) (ht : t.tb = s.tb) (hr : t.regs = s.regs) :
    overdueFrames t = overdueFrames s := by
  have hcfg : t.rdF Reg.ewnMailcfg 15 8 = s.rdF Reg.ewnMailcfg 15 8 := by rw [Chip.rdF, Chip.rd_congr hr, Chip.rdF]
  have hover : overdue t = overdue s := by
    funext f
    unfold overdue
    rw [ht, hcfg]
  rw [overdueFrames, overdueFrames, hu, hover]

theorem overdueFrames_sendEnum (s : Chip) : overdueFrames (sendEnum s) = overdueFrames s :=
  overdueFrames_congr (sendEnum_queues s).2.2 (sendEnum_tb s) (sendEnum_regs s)

/-! ### The line -/

/-- A frame that fits ends, with its idle block, a block behind the limit at the latest (06 R286). -/
theorem useLine_le {s : Chip} {n : Nat} (h : fitsWindow s n = true) : (useLine s n).ewn.linePos ≤ mailLimit + 8 := by
  have hline : (useLine s n).ewn.linePos = lineNow s + (packetLine (20 + n) + 8) := rfl
  have hfit : lineNow s + packetLine (20 + n) ≤ mailLimit := of_decide_eq_true h
  omega

/-! ### Carriers -/

/-- A node that a carrier may go to is in mail (06 R287). -/
theorem inMail_of_carrierNext {s : Chip} {done : List Nat} {d : Nat} (h : carrierNext s done = some d) : inMail s d = true := by
  have hmem := List.mem_of_mem_head? (Option.mem_def.2 h)
  simp only [List.mem_flatMap, List.mem_filter, Bool.and_eq_true] at hmem
  obtain ⟨g, -, ⟨-, hin, -⟩, -⟩ := hmem
  exact hin

/-- The Poermun with carriers granted beside those it had. -/
def withGrants (s : Chip) (wire : List (Nat × Nat × List Byte)) (line rot : Nat) (l : List (Nat × Nat)) : Chip :=
  { s with ewn := { s.ewn with
    wire := wire
    linePos := line
    rot := rot
    carriers := s.ewn.carriers ++ l
    carSent := s.ewn.carSent + l.length } }

/-- `x` is `s` with the carriers `l` granted, each to a node in mail with the room of CAP, within the window (06 R285, R286). -/
structure Grants (s : Chip) (l : List (Nat × Nat)) (x : Chip) : Prop where
  frame : ∃ wire line rot, x = withGrants s wire line rot l
  line : x.ewn.linePos ≤ max s.ewn.linePos (mailLimit + 8)
  each : ∀ c ∈ l, inMail s c.1 = true ∧ c.2 = carrierCap s

theorem Grants.none (s : Chip) : Grants s [] s :=
  ⟨⟨s.ewn.wire, s.ewn.linePos, s.ewn.rot, by simp [withGrants]⟩, Nat.le_max_left .., fun _ h => (List.not_mem_nil h).elim⟩

theorem grantCarrier_eq (s : Chip) (d : Nat) :
    ∃ wire, grantCarrier s d = withGrants s wire (useLine s (carrierCap s)).ewn.linePos d [(d, carrierCap s)] := ⟨_, rfl⟩

/-- A carrier granted, and those granted after it. -/
theorem Grants.cons {s x : Chip} {d : Nat} {l : List (Nat × Nat)} (hd : inMail s d = true) (hfit : carrierFits s = true)
    (h : Grants (grantCarrier s d) l x) : Grants s ((d, carrierCap s) :: l) x := by
  obtain ⟨⟨wire, line, rot, hx⟩, hline, heach⟩ := h
  obtain ⟨wire', hg⟩ := grantCarrier_eq s d
  have hused : (useLine s (carrierCap s)).ewn.linePos ≤ mailLimit + 8 := useLine_le (Bool.and_eq_true_iff.1 hfit).2
  rw [hg] at hx hline heach
  refine ⟨⟨wire, line, rot, ?_⟩, hline.trans ?_, fun c hc => ?_⟩
  · rw [hx]
    simp [withGrants, Nat.add_comm, Nat.add_left_comm]
  · exact max_le (le_max_of_le_right hused) (Nat.le_max_right ..)
  · rcases List.mem_cons.1 hc with rfl | hc
    · exact ⟨hd, rfl⟩
    · exact heach c hc

/-- With a node to go to and room, a carrier is granted, and the rest after it; else none is. -/
theorem grantCarriers_succ (s : Chip) (done : List Nat) (n : Nat) :
    grantCarriers s done (n + 1) = s ∨ ∃ d done', carrierNext s done' = some d ∧ carrierFits s = true ∧
      grantCarriers s done (n + 1) = grantCarriers (grantCarrier s d) (d :: done') n := by
  cases hnext : carrierNext s (if (carrierNext s done).isNone then [] else done) with
  | none => exact .inl (by simp only [grantCarriers, hnext])
  | some d =>
    by_cases hfit : carrierFits s = true
    · exact .inr ⟨d, _, hnext, hfit, by simp only [grantCarriers, hnext, hfit, if_true]⟩
    · exact .inl (by simp only [grantCarriers, hnext, hfit, Bool.false_eq_true, if_false])

theorem grantCarriers_grants (s : Chip) (done : List Nat) (n : Nat) : ∃ l, Grants s l (grantCarriers s done n) ∧ l.length ≤ n := by
  induction n generalizing s done with
  | zero => exact ⟨[], .none s, Nat.le_refl _⟩
  | succ n ih =>
    rcases grantCarriers_succ s done n with h | ⟨d, done', hd, hfit, h⟩
    · rw [h]
      exact ⟨[], .none s, Nat.zero_le _⟩
    · obtain ⟨l, hl, hlen⟩ := ih (grantCarrier s d) (d :: done')
      rw [h]
      exact ⟨_, .cons (inMail_of_carrierNext hd) hfit hl, Nat.succ_le_succ hlen⟩

/-- The first carrier of a window goes to the node that R287 names, when it fits. -/
theorem grantCarriers_first {s : Chip} {d : Nat} (hd : carrierNext s [] = some d) (hfit : carrierFits s = true) (n : Nat) :
    grantCarriers s [] (n + 1) = grantCarriers (grantCarrier s d) [d] n := by
  simp [grantCarriers, hd, hfit]

theorem grantCarriers_noneFirst {s : Chip} (h : carrierNext s [] = none ∨ carrierFits s = false) (n : Nat) : grantCarriers s [] n = s := by
  cases n with
  | zero => rfl
  | succ n =>
    unfold grantCarriers
    simp only [ite_self]
    split
    · rfl
    · next d hd =>
      rcases h with h | h
      · exact absurd (h.symm.trans hd) (Option.some_ne_none d).symm
      · rw [h, if_neg Bool.false_ne_true]

/-- The carriers of a tick: at most as many as the tick still has, the first by R287, one at least when it can be (06 R285 to R287). -/
theorem sendCarriers_grants (s : Chip) :
    let n := min (s.rdF Reg.ewnMailcfg 3 0) 8
    ∃ l, Grants s l (sendCarriers s) ∧ l.length ≤ n - s.ewn.carSent ∧ (∀ c r, l = c :: r → carrierNext s [] = some c.1) ∧
      (s.ewn.carSent < n → carrierFits s = true → carrierNext s [] ≠ none → l ≠ []) := by
  intro n
  have hsend : sendCarriers s = grantCarriers s [] (n - s.ewn.carSent) := rfl
  rw [hsend]
  by_cases hfirst : carrierNext s [] = none ∨ carrierFits s = false
  · rw [grantCarriers_noneFirst hfirst]
    refine ⟨[], .none s, Nat.zero_le _, fun c r h => (List.cons_ne_nil c r h.symm).elim, fun _ hfit hnext => ?_⟩
    rcases hfirst with h | h
    · exact absurd h hnext
    · exact absurd (h.symm.trans hfit) Bool.false_ne_true
  · obtain ⟨hnext, hfit⟩ := not_or.1 hfirst
    obtain ⟨d, hd⟩ := Option.ne_none_iff_exists'.1 hnext
    have hfit' : carrierFits s = true := by simpa using hfit
    cases hn : n - s.ewn.carSent with
    | zero => exact ⟨[], .none s, Nat.le_refl _, fun c r h => (List.cons_ne_nil c r h.symm).elim, fun hlt => by omega⟩
    | succ m =>
      obtain ⟨l, hl, hlen⟩ := grantCarriers_grants (grantCarrier s d) [d] m
      rw [grantCarriers_first hd hfit']
      refine ⟨_, .cons (inMail_of_carrierNext hd) hfit' hl, Nat.succ_le_succ hlen, fun c r h => ?_, fun _ _ _ => List.cons_ne_nil _ _⟩
      rw [hd, ← (List.cons.inj h).1]

/-! ### Mail that fails -/

/-- The frames to node `d` that are queued or not acknowledged (06 R284). -/
def mailTo (s : Chip) (d : Nat) : List MailFrame := (s.ewn.unacked ++ s.ewn.coreQ ++ s.ewn.engQ).filter (fun f => f.dst == d)

/-- The rings' books without the frames to node `d`. -/
def withoutMail (e : Ewene) (d : Nat) : Ewene :=
  { e with
    unacked := e.unacked.filter (fun f => f.dst != d)
    coreQ := e.coreQ.filter (fun f => f.dst != d)
    engQ := e.engQ.filter (fun f => f.dst != d) }

theorem loseMail_nothing {s : Chip} {d : Nat} (h : mailTo s d = []) : loseMail s d = s := by
  unfold loseMail
  extract_lets gone keep
  have hgone : gone.getLast? = none := List.getLast?_eq_none_iff.2 h
  rw [hgone]

/-- The Poermun with its frames to node `d` retired LOST, the last of them `last` (06 R284, 19 R844). -/
def mailLost (s : Chip) (d : Nat) (last : MailFrame) : Chip :=
  (((({ s with
    hst := { s.hst with lost := s.hst.lost ++ ((mailTo s d).filter (fun (f : MailFrame) => f.own == 1)).map (fun (f : MailFrame) => f.corr) }
    ewn := withoutMail s.ewn d }.bumpBy Reg.ewnMlost (mailTo s d).length).wr Reg.ewnMlostlast (wn (d * 65536 + last.mseq))).led 1 2
      (mailTo s d).length).ewnFlag 2)

theorem loseMail_some {s : Chip} {d : Nat} (h : mailTo s d ≠ []) : ∃ last, loseMail s d = syncHead (mailLost s d last) := by
  refine ⟨(mailTo s d).getLast h, ?_⟩
  unfold loseMail
  extract_lets gone keep
  have hgone : gone.getLast? = some ((mailTo s d).getLast h) := List.getLast?_eq_some_getLast h
  rw [hgone]
  rfl

/-- Without a frame to node `d`, taking out the frames to it changes nothing. -/
theorem withoutMail_nothing {s : Chip} {d : Nat} (h : mailTo s d = []) : withoutMail s.ewn d = s.ewn := by
  have hkeep : ∀ l : List MailFrame, l.filter (fun f => f.dst == d) = [] → l.filter (fun f => f.dst != d) = l := by
    intro l hl
    rw [List.filter_eq_nil_iff] at hl
    exact List.filter_eq_self.2 fun f hf => by simpa using hl f hf
  rw [mailTo, List.filter_append, List.filter_append, List.append_eq_nil_iff, List.append_eq_nil_iff] at h
  obtain ⟨⟨hu, hc⟩, he⟩ := h
  rw [withoutMail, hkeep _ hu, hkeep _ hc, hkeep _ he]

theorem loseMail_ewn (s : Chip) (d : Nat) : (loseMail s d).ewn = withoutMail s.ewn d := by
  by_cases h : mailTo s d = []
  · rw [loseMail_nothing h, withoutMail_nothing h]
  · obtain ⟨last, hlost⟩ := loseMail_some h
    rw [hlost, syncHead_ewn, mailLost, Chip.ewnFlag, Chip.flag_ewn]
    rfl

/-- The registers that lost mail may write. -/
def lostRegs : List Nat := [Reg.ewnMlost, Reg.ewnMlostlast, Reg.ewnEvt, Reg.ewnMtxhead]

theorem loseMail_keepsRegs (s : Chip) (d : Nat) : KeepsRegsBut lostRegs s (loseMail s d) := by
  by_cases h : mailTo s d = []
  · rw [loseMail_nothing h]
    exact KeepsRegsBut.refl _ _
  · obtain ⟨last, hlost⟩ := loseMail_some h
    have hmade : KeepsRegsBut lostRegs s (mailLost s d last) :=
      KeepsRegsBut.flag (((((KeepsRegsBut.refl _ s).same rfl).wr (by decide)).wr (by decide)).same rfl) (by decide)
    rw [hlost]
    exact hmade.trans (syncHead_keepsRegs _) (by decide)

/-- EWN_MLOST counts the frames lost (06 R284). -/
theorem loseMail_counts (s : Chip) (d : Nat) : (loseMail s d).rd Reg.ewnMlost = s.rd Reg.ewnMlost + wn (mailTo s d).length := by
  by_cases h : mailTo s d = []
  · rw [loseMail_nothing h, h]
    exact (BitVec.add_zero _).symm
  · obtain ⟨last, hlost⟩ := loseMail_some h
    rw [hlost, syncHead_keepsRegs _ _ (by decide), mailLost, Chip.ewnFlag, Chip.flag_rd_ne _ _ _ _ (by decide), Chip.rd_congr (Chip.led_regs ..),
      Chip.rd_wr_ne _ _ (by decide)]
    exact Chip.rd_wr_self ..

/-- MAILLOST is set when a frame is lost (06 R284). -/
theorem loseMail_flags {s : Chip} {d : Nat} (h : mailTo s d ≠ []) : (loseMail s d).rdBit Reg.ewnEvt 2 = true := by
  obtain ⟨last, hlost⟩ := loseMail_some h
  rw [hlost, Chip.rdBit, syncHead_keepsRegs _ _ (by decide)]
  exact Chip.rdBit_flag_self _ _ (by decide)

/-- The registers that a departure of node `d` from SEAT may write (07 R326). -/
def departRegs (d : Nat) : List Nat := [Reg.ewnNstat d, Reg.ewnEvt2, Reg.odoEvt, Reg.ldgLogskip, Reg.ldgLogseq, Reg.ldgLogshed]

/-- The Poermun with a departure of node `d` from SEAT recorded (07 R326, 19 R858). -/
def seatLeft (s : Chip) (d cause : Nat) : Chip :=
  (((({ s with ewn := { s.ewn with leftSeat := d :: s.ewn.leftSeat } }.wrF (Reg.ewnNstat d) 31 28 cause).ewnFlag2 3).odoInc 16 1).logEvent
    7 d cause)

/-- A departure for another cause than SAFEV bars nothing (07 R325). -/
theorem noteDeparture_eq (s : Chip) (d : Nat) {cause : Nat} (h : cause ≠ 3) : noteDeparture s d cause = seatLeft s d cause := if_neg h

theorem KeepsRegsBut.ewnFlag2 {l : List Nat} {s x : Chip} {b : Nat} (h : KeepsRegsBut l s x) (ha : Reg.ewnEvt2 ∈ l) :
    KeepsRegsBut l s (x.ewnFlag2 b) := h.flag ha

theorem seatLeft_keepsRegs (s : Chip) (d cause : Nat) : KeepsRegsBut (departRegs d) s (seatLeft s d cause) := by
  let x := { s with ewn := { s.ewn with leftSeat := d :: s.ewn.leftSeat } }.wrF (Reg.ewnNstat d) 31 28 cause
  have hx : KeepsRegsBut (departRegs d) s x := ((KeepsRegsBut.refl _ s).same rfl).wr (List.mem_cons_self ..)
  have hodo : KeepsRegsBut (departRegs d) s ((x.ewnFlag2 3).odoInc 16 1) :=
    (hx.ewnFlag2 (by simp [departRegs])).odoInc (by simp [departRegs])
  have hlog : [Reg.ldgLogskip, Reg.ldgLogseq, Reg.ldgLogshed] ⊆ departRegs d := by simp [departRegs]
  exact KeepsRegsBut.logEvent hodo hlog

theorem seatLeft_ewn (s : Chip) (d cause : Nat) : (seatLeft s d cause).ewn = { s.ewn with leftSeat := d :: s.ewn.leftSeat } := by
  rw [seatLeft, Chip.logEvent_ewn, Chip.odoInc_ewn, Chip.ewnFlag2, Chip.flag_ewn]
  rfl

/-- The Poermun with node `d` out of SEAT, if it was there, and its credits withdrawn, for mail that has failed (07 R326, 19 R845). -/
def failedOut (s : Chip) (d : Nat) : Chip := withdraw (if nodeState s d = 3 then seatLeft s d 5 else s) d

theorem withdraw_regs (s : Chip) (d : Nat) : (withdraw s d).regs = s.regs := by
  unfold withdraw
  split <;> rfl

theorem withdraw_ewn (s : Chip) (d : Nat) : (withdraw s d).ewn = s.ewn := by
  unfold withdraw
  split <;> rfl

theorem failedOut_keepsRegs (s : Chip) (d : Nat) : KeepsRegsBut (departRegs d) s (failedOut s d) :=
  (KeepsRegsBut.ite (seatLeft_keepsRegs _ _ _) (KeepsRegsBut.refl _ _)).same (withdraw_regs ..)

theorem failedOut_ewn (s : Chip) (d : Nat) : ∃ left, (failedOut s d).ewn = { s.ewn with leftSeat := left } := by
  unfold failedOut
  rw [withdraw_ewn]
  split
  · exact ⟨_, seatLeft_ewn s d 5⟩
  · exact ⟨_, rfl⟩

/-- A node whose mail has failed ends in FOUND (07 R326, R327). -/
theorem applyCauses_mailFail (s : Chip) (d : Nat) : applyCauses s d [5] = syncCred (setNodeState (failedOut s d) d 1) d := rfl

theorem failMail_eq (s : Chip) (d : Nat) :
    failMail s d = syncCred (setNodeState (failedOut (loseMail (s.wrBit (Reg.ewnNmail d) 16 true) d) d) d 1) d := applyCauses_mailFail ..

/-- Failed mail takes the node's frames out of the queues and nothing else of the rings but its seat (06 R284). -/
theorem failMail_ewn (s : Chip) (d : Nat) : ∃ left, (failMail s d).ewn = { withoutMail s.ewn d with leftSeat := left } := by
  obtain ⟨left, hout⟩ := failedOut_ewn (loseMail (s.wrBit (Reg.ewnNmail d) 16 true) d) d
  refine ⟨left, ?_⟩
  rw [failMail_eq]
  refine Eq.trans hout ?_
  rw [loseMail_ewn]
  rfl

/-- The registers of node `d`, and those that its failed mail writes. -/
def failRegs (d : Nat) : List Nat := Reg.ewnNmail d :: departRegs d ++ lostRegs

section Failed
variable {s : Chip} {d : Nat}

/-- The registers of a node stand apart from all that its failed mail writes beside them. -/
theorem nodeRegs_apart (hhi : d ≤ 62) :
    Reg.ewnNmail d ∉ departRegs d ∧ Reg.ewnNmail d ∉ lostRegs ∧ Reg.ewnNstat d ≠ Reg.ewnNmail d ∧
      Reg.ewnMlost ∉ Reg.ewnNmail d :: departRegs d ∧ Reg.ewnEvt ∉ Reg.ewnNmail d :: departRegs d := by
  simp only [departRegs, lostRegs, List.mem_cons, List.not_mem_nil, or_false, Reg.ewnNmail, Reg.ewnNstat, Reg.ewnEvt2, Reg.odoEvt, Reg.ldgLogskip,
    Reg.ldgLogseq, Reg.ldgLogshed, Reg.ewnMlost, Reg.ewnMlostlast, Reg.ewnEvt, Reg.ewnMtxhead]
  omega

/-- The node's own registers and its departure's are all that failed mail writes after the loss. -/
theorem failMail_afterLoss (s : Chip) (d : Nat) :
    KeepsRegsBut (Reg.ewnNmail d :: departRegs d) (loseMail (s.wrBit (Reg.ewnNmail d) 16 true) d) (failMail s d) := by
  have hout := failedOut_keepsRegs (loseMail (s.wrBit (Reg.ewnNmail d) 16 true) d) d
  have hwide := (KeepsRegsBut.refl (Reg.ewnNmail d :: departRegs d) _).trans hout (List.subset_cons_self ..)
  exact (hwide.wr (List.mem_cons_of_mem _ (List.mem_cons_self ..))).wr (List.mem_cons_self ..)

/-- FAILED is set (06 R284). -/
theorem failMail_failed (hhi : d ≤ 62) : (failMail s d).rdBit (Reg.ewnNmail d) 16 = true := by
  obtain ⟨hdepart, hlost, hstat, -, -⟩ := nodeRegs_apart hhi
  have hset : ((setNodeState (failedOut (loseMail (s.wrBit (Reg.ewnNmail d) 16 true) d) d) d 1)).rdBit (Reg.ewnNmail d) 16 = true := by
    rw [Chip.rdBit, setNodeState, Chip.wrF, Chip.rd_wr_ne _ _ hstat.symm, failedOut_keepsRegs _ _ _ hdepart, loseMail_keepsRegs _ _ _ hlost]
    exact s.rdBit_wrBit_self _ _ (by decide)
  rw [failMail_eq, syncCred, Chip.rdBit, Chip.wrF, Chip.rd_wr_self, bit_setFld _ _ _ (by decide) (by decide), if_neg (by decide)]
  exact hset

/-- The node is in FOUND (07 R326). -/
theorem failMail_found (hhi : d ≤ 62) : nodeState (failMail s d) d = 1 := by
  obtain ⟨-, -, hstat, -, -⟩ := nodeRegs_apart hhi
  rw [failMail_eq, nodeState, syncCred, Chip.rdF_wrF_ne _ _ _ _ _ _ hstat, setNodeState, Chip.rdF_wrF_self _ _ _ (by decide) (by decide)]
  rfl

theorem failMail_counts (hhi : d ≤ 62) : (failMail s d).rd Reg.ewnMlost = s.rd Reg.ewnMlost + wn (mailTo s d).length := by
  obtain ⟨-, -, -, hmlost, -⟩ := nodeRegs_apart hhi
  have hne : Reg.ewnMlost ≠ Reg.ewnNmail d := fun h => hmlost (h ▸ List.mem_cons_self ..)
  rw [failMail_afterLoss s d _ hmlost, loseMail_counts, Chip.wrBit, Chip.rd_wr_ne _ _ hne]
  rfl

theorem failMail_flags (hhi : d ≤ 62) (h : mailTo s d ≠ []) : (failMail s d).rdBit Reg.ewnEvt 2 = true := by
  obtain ⟨-, -, -, -, hevt⟩ := nodeRegs_apart hhi
  rw [Chip.rdBit, failMail_afterLoss s d _ hevt]
  exact loseMail_flags h

end Failed

/-! ### Frames sent again -/

/-- From `s` on, `x` has kept the carriers, and has used the line no further than the limit, the last idle block aside, unless `s` had (06 R286). -/
structure LineKeeps (s x : Chip) : Prop where
  carriers : x.ewn.carriers = s.ewn.carriers
  carSent : x.ewn.carSent = s.ewn.carSent
  line : x.ewn.linePos ≤ max s.ewn.linePos (mailLimit + 8)

theorem LineKeeps.refl (s : Chip) : LineKeeps s s := ⟨rfl, rfl, Nat.le_max_left ..⟩

theorem LineKeeps.trans {s x y : Chip} (h : LineKeeps s x) (h' : LineKeeps x y) : LineKeeps s y :=
  ⟨h'.carriers.trans h.carriers, h'.carSent.trans h.carSent, h'.line.trans (max_le h.line (Nat.le_max_right ..))⟩

theorem failMail_line (s : Chip) (d : Nat) : LineKeeps s (failMail s d) := by
  obtain ⟨left, h⟩ := failMail_ewn s d
  exact ⟨by rw [h]; rfl, by rw [h]; rfl, by rw [h]; exact Nat.le_max_left ..⟩

/-- The Poermun with frame `f` sent once more: its time and its count move (06 R284). -/
def resent (s : Chip) (f : MailFrame) : Chip :=
  let s1 := (sendBoth (useLine s f.body.length) 0xE6 (mailBytes s f)).bump Reg.ewnMretx
  { s1 with ewn := { s1.ewn with unacked := s1.ewn.unacked.map (fun z => if z = f then { f with
    sent := s.tb.tick
    tries := f.tries + 1 } else z) } }

theorem resent_queues (s : Chip) (f : MailFrame) : (resent s f).ewn.coreQ = s.ewn.coreQ ∧ (resent s f).ewn.engQ = s.ewn.engQ := ⟨rfl, rfl⟩

theorem resent_line {s : Chip} {f : MailFrame} (h : fitsWindow s f.body.length = true) : LineKeeps s (resent s f) :=
  ⟨rfl, rfl, le_max_of_le_right (useLine_le h)⟩

section Resend
variable {s : Chip} {f : MailFrame} {held : List Nat}

theorem resendFrame_gone (h : ¬ s.ewn.unacked.contains f = true) : resendFrame (s, held) f = (s, held) := by
  simp only [resendFrame, h, Bool.not_false, if_true]

theorem resendFrame_fails (hmem : s.ewn.unacked.contains f = true) (h : max (s.rdF Reg.ewnMailcfg 23 16) 1 ≤ f.tries) :
    resendFrame (s, held) f = (failMail s f.dst, held) := by
  simp only [resendFrame, hmem, Bool.not_true, Bool.false_eq_true, if_false, ge_iff_le, h, if_true]

theorem resendFrame_held (hmem : s.ewn.unacked.contains f = true) (h : f.tries < max (s.rdF Reg.ewnMailcfg 23 16) 1)
    (hq : held.contains f.own = true) : resendFrame (s, held) f = (s, held) := by
  simp only [resendFrame, hmem, Bool.not_true, Bool.false_eq_true, if_false, ge_iff_le, Nat.not_le.2 h, hq, if_true]

theorem resendFrame_fits (hmem : s.ewn.unacked.contains f = true) (h : f.tries < max (s.rdF Reg.ewnMailcfg 23 16) 1)
    (hq : ¬ held.contains f.own = true) (hfit : fitsWindow s f.body.length = true) : resendFrame (s, held) f = (resent s f, held) := by
  simp only [resendFrame, hmem, Bool.not_true, Bool.false_eq_true, if_false, ge_iff_le, Nat.not_le.2 h, hq, hfit, if_true]
  rfl

theorem resendFrame_unfit (hmem : s.ewn.unacked.contains f = true) (h : f.tries < max (s.rdF Reg.ewnMailcfg 23 16) 1)
    (hq : ¬ held.contains f.own = true) (hfit : ¬ fitsWindow s f.body.length = true) :
    resendFrame (s, held) f = (s, f.own :: held) := by
  simp only [resendFrame, hmem, Bool.not_true, Bool.false_eq_true, if_false, ge_iff_le, Nat.not_le.2 h, hq, hfit]

theorem resendFrame_line (s : Chip) (f : MailFrame) (held : List Nat) : LineKeeps s (resendFrame (s, held) f).1 := by
  by_cases hmem : s.ewn.unacked.contains f = true
  · rcases Nat.lt_or_ge f.tries (max (s.rdF Reg.ewnMailcfg 23 16) 1) with h | h
    · by_cases hq : held.contains f.own = true
      · rw [resendFrame_held hmem h hq]
        exact .refl s
      · by_cases hfit : fitsWindow s f.body.length = true
        · rw [resendFrame_fits hmem h hq hfit]
          exact resent_line hfit
        · rw [resendFrame_unfit hmem h hq hfit]
          exact .refl s
    · rw [resendFrame_fails hmem h]
      exact failMail_line ..
  · rw [resendFrame_gone hmem]
    exact .refl s

end Resend

theorem resendAll_line (s : Chip) : LineKeeps s (resendAll s).1 :=
  List.foldlRecOn (motive := fun r : Chip × List Nat => LineKeeps s r.1) _ _ (.refl s) fun r hr f _ => hr.trans (resendFrame_line r.1 f r.2)

theorem resendAll_none {s : Chip} (h : overdueFrames s = []) : resendAll s = (s, []) := by
  rw [resendAll, h, List.foldl_nil]

/-! ### New frames -/

/-- The Poermun with the first frame of the core's queue, or of the engine's, sent for the first time (06 R286). -/
def coreSent (s : Chip) (f : MailFrame) (r : List MailFrame) : Chip :=
  firstSend { s with ewn := { s.ewn with
    coreQ := r
    engTurn := true } } f

def engineSent (s : Chip) (f : MailFrame) (r : List MailFrame) : Chip :=
  firstSend { s with ewn := { s.ewn with
    engQ := r
    engTurn := false } } f

/-- A frame at the head of a queue that may start fits into the window (06 R283, R286). -/
theorem fits_of_mayStart {s : Chip} {held : List Nat} {f : MailFrame} {r : List MailFrame} (h : mayStart s held (f :: r) = true) :
    fitsWindow s f.body.length = true := (Bool.and_eq_true_iff.1 h).2

theorem firstSend_line {s : Chip} {f : MailFrame} (h : fitsWindow s f.body.length = true) : LineKeeps s (firstSend s f) :=
  ⟨rfl, rfl, le_max_of_le_right (useLine_le (s := setNodeSt s f.dst _) h)⟩

/-- One choice of the window: neither head may start, or the head of a queue that may is sent (06 R286). -/
theorem sendNew_step (s : Chip) (held : List Nat) (fuel : Nat) :
    (mayStart s held s.ewn.coreQ = false ∧ mayStart s held s.ewn.engQ = false ∧ sendNew s held (fuel + 1) = s) ∨
      (∃ f r, s.ewn.coreQ = f :: r ∧ fitsWindow s f.body.length = true ∧ sendNew s held (fuel + 1) = sendNew (coreSent s f r) held fuel) ∨
      (∃ f r, s.ewn.engQ = f :: r ∧ fitsWindow s f.body.length = true ∧ sendNew s held (fuel + 1) = sendNew (engineSent s f r) held fuel) := by
  have hempty : mayStart s held [] = false := rfl
  by_cases hturn : (mayStart s held s.ewn.engQ && s.ewn.engTurn || mayStart s held s.ewn.engQ && !mayStart s held s.ewn.coreQ) = true
  · have hstart : mayStart s held s.ewn.engQ = true := by
      cases h : mayStart s held s.ewn.engQ
      · simp [h] at hturn
      · rfl
    cases hq : s.ewn.engQ with
    | nil => simp [hq, hempty] at hstart
    | cons f r =>
      refine .inr (.inr ⟨f, r, rfl, fits_of_mayStart (hq ▸ hstart), ?_⟩)
      rw [hq] at hturn
      simp only [sendNew, hq, hturn, if_true]
      rfl
  · cases hcore : mayStart s held s.ewn.coreQ with
    | true =>
      cases hq : s.ewn.coreQ with
      | nil => simp [hq, hempty] at hcore
      | cons f r =>
        refine .inr (.inl ⟨f, r, rfl, fits_of_mayStart (hq ▸ hcore), ?_⟩)
        rw [hq] at hturn hcore
        simp only [sendNew, hq]
        rw [if_neg hturn, if_pos hcore]
        rfl
    | false =>
      have heng : mayStart s held s.ewn.engQ = false := by
        cases h : mayStart s held s.ewn.engQ
        · rfl
        · simp [h, hcore] at hturn
      exact .inl ⟨rfl, heng, by simp [sendNew, hcore, heng]⟩

/-- `x` is `s` with the frames `ca` and `cb` sent from the front of the two queues (06 R286). -/
structure Sends (s : Chip) (ca cb : List MailFrame) (x : Chip) : Prop where
  coreQ : s.ewn.coreQ = ca ++ x.ewn.coreQ
  engQ : s.ewn.engQ = cb ++ x.ewn.engQ
  unacked : ∃ g, x.ewn.unacked = s.ewn.unacked ++ g ∧ g.length = ca.length + cb.length
  mtxcnt : x.rd Reg.ewnMtxcnt = s.rd Reg.ewnMtxcnt + wn (ca.length + cb.length)

theorem Sends.none (s : Chip) : Sends s [] [] s := ⟨rfl, rfl, ⟨[], (List.append_nil _).symm, rfl⟩, (BitVec.add_zero _).symm⟩

/-- A frame sent for the first time waits for its acknowledgement and is counted (06 R283). -/
theorem firstSend_spec (s : Chip) (f : MailFrame) : ∃ g, (firstSend s f).ewn.coreQ = s.ewn.coreQ ∧ (firstSend s f).ewn.engQ = s.ewn.engQ ∧
    (firstSend s f).ewn.unacked = s.ewn.unacked ++ [g] ∧ (firstSend s f).rd Reg.ewnMtxcnt = s.rd Reg.ewnMtxcnt + 1 :=
  ⟨_, rfl, rfl, rfl, Chip.rd_bump ..⟩

theorem wn_succ (n : Nat) : 1 + wn n = wn (n + 1) := by
  rw [BitVec.add_comm]
  exact (BitVec.ofNat_add ..).symm

/-- One more unacknowledged frame before those that follow, one more counted. -/
theorem Sends.more {s y x : Chip} {ca cb ca' cb' : List MailFrame} {g : MailFrame} (h : Sends y ca cb x)
    (hu : y.ewn.unacked = s.ewn.unacked ++ [g]) (hn : y.rd Reg.ewnMtxcnt = s.rd Reg.ewnMtxcnt + 1)
    (hlen : ca'.length + cb'.length = ca.length + cb.length + 1) (hc : s.ewn.coreQ = ca' ++ x.ewn.coreQ) (he : s.ewn.engQ = cb' ++ x.ewn.engQ) :
    Sends s ca' cb' x := by
  obtain ⟨-, -, ⟨g', hx, hg⟩, hcnt⟩ := h
  refine ⟨hc, he, ⟨g :: g', by rw [hx, hu, List.append_assoc, List.singleton_append], by rw [List.length_cons, hg, hlen]⟩, ?_⟩
  rw [hcnt, hn, BitVec.add_assoc, wn_succ, hlen]

theorem Sends.core {s x : Chip} {f : MailFrame} {r ca cb : List MailFrame} (hq : s.ewn.coreQ = f :: r) (h : Sends (coreSent s f r) ca cb x) :
    Sends s (f :: ca) cb x := by
  obtain ⟨g, -, -, hu, hn⟩ := firstSend_spec { s with ewn := { s.ewn with
    coreQ := r
    engTurn := true } } f
  have hr : r = ca ++ x.ewn.coreQ := h.coreQ
  exact h.more hu hn (by rw [List.length_cons]; omega) (by rw [hq, hr, List.cons_append]) h.engQ

theorem Sends.engine {s x : Chip} {f : MailFrame} {r ca cb : List MailFrame} (hq : s.ewn.engQ = f :: r) (h : Sends (engineSent s f r) ca cb x) :
    Sends s ca (f :: cb) x := by
  obtain ⟨g, -, -, hu, hn⟩ := firstSend_spec { s with ewn := { s.ewn with
    engQ := r
    engTurn := false } } f
  have hr : r = cb ++ x.ewn.engQ := h.engQ
  exact h.more hu hn (by rw [List.length_cons]; omega) h.coreQ (by rw [hq, hr, List.cons_append])

/-- The new frames of a window leave from the front of their queues, within the window (06 R286). -/
theorem sendNew_sends (s : Chip) (held : List Nat) (fuel : Nat) :
    LineKeeps s (sendNew s held fuel) ∧ ∃ ca cb, Sends s ca cb (sendNew s held fuel) := by
  induction fuel generalizing s with
  | zero => exact ⟨.refl s, [], [], .none s⟩
  | succ fuel ih =>
    rcases sendNew_step s held fuel with ⟨-, -, h⟩ | ⟨f, r, hq, hfit, h⟩ | ⟨f, r, hq, hfit, h⟩
    · rw [h]
      exact ⟨.refl s, [], [], .none s⟩
    · obtain ⟨hline, ca, cb, hs⟩ := ih (coreSent s f r)
      have hfirst : LineKeeps s (coreSent s f r) := by
        obtain ⟨hc, hn, hp⟩ := firstSend_line (s := { s with ewn := { s.ewn with
          coreQ := r
          engTurn := true } }) hfit
        exact ⟨hc, hn, hp⟩
      rw [h]
      exact ⟨hfirst.trans hline, f :: ca, cb, hs.core hq⟩
    · obtain ⟨hline, ca, cb, hs⟩ := ih (engineSent s f r)
      have hfirst : LineKeeps s (engineSent s f r) := by
        obtain ⟨hc, hn, hp⟩ := firstSend_line (s := { s with ewn := { s.ewn with
          engQ := r
          engTurn := false } }) hfit
        exact ⟨hc, hn, hp⟩
      rw [h]
      exact ⟨hfirst.trans hline, ca, f :: cb, hs.engine hq⟩

/-- With fuel for every queued frame, the window ends where neither head may start (06 R286). -/
theorem sendNew_ends (s : Chip) (held : List Nat) (fuel : Nat) (hfuel : s.ewn.coreQ.length + s.ewn.engQ.length ≤ fuel) :
    let x := sendNew s held fuel
    mayStart x held x.ewn.coreQ = false ∧ mayStart x held x.ewn.engQ = false := by
  induction fuel generalizing s with
  | zero =>
    have hcore : s.ewn.coreQ = [] := List.length_eq_zero_iff.1 (by omega)
    have heng : s.ewn.engQ = [] := List.length_eq_zero_iff.1 (by omega)
    simp only [sendNew, hcore, heng]
    exact ⟨rfl, rfl⟩
  | succ fuel ih =>
    rcases sendNew_step s held fuel with ⟨hcore, heng, h⟩ | ⟨f, r, hq, -, h⟩ | ⟨f, r, hq, -, h⟩
    · rw [h]
      exact ⟨hcore, heng⟩
    · rw [h]
      refine ih (coreSent s f r) ?_
      have hlen : r.length + s.ewn.engQ.length ≤ fuel := by
        rw [hq, List.length_cons] at hfuel
        omega
      exact hlen
    · rw [h]
      refine ih (engineSent s f r) ?_
      have hlen : s.ewn.coreQ.length + r.length ≤ fuel := by
        rw [hq, List.length_cons] at hfuel
        omega
      exact hlen

/-! ### The commands -/

theorem exec_mailWindow (st : State) : exec .mailWindow st = finish st (fun s => syncSeatPend (mailWindow (sendEnum s))) := rfl

theorem exec_mailRetransmit (st : State) : exec .mailRetransmit st = finish st (fun s => syncSeatPend (resendOldest (sendEnum s))) := rfl

theorem completes_mailWindow {s : State} {P : Chip → Prop} (h : P (syncSeatPend (mailWindow (sendEnum s.chip)))) : Completes .mailWindow s P :=
  ⟨_, by rw [exec_mailWindow, finish_eq], h⟩

theorem completes_mailRetransmit {s : State} {P : Chip → Prop} (h : P (syncSeatPend (resendOldest (sendEnum s.chip)))) :
    Completes .mailRetransmit s P :=
  ⟨_, by rw [exec_mailRetransmit, finish_eq], h⟩

theorem mailWindow_noCoach {s : Chip} (h : s.ewn.now = none) : mailWindow s = s := if_pos (by rw [h]; rfl)

theorem mailWindow_coach {s : Chip} (h : s.ewn.now ≠ none) :
    mailWindow s = sendNew (resendAll (sendCarriers s)).1 (resendAll (sendCarriers s)).2 (s.ewn.coreQ.length + s.ewn.engQ.length) := by
  refine if_neg ?_
  rwa [Option.isNone_iff_eq_none]

/-- The registers of a node are none of those that a staged consist writes. -/
theorem nodeRegs_notSeatPend (d : Nat) : Reg.ewnNmail d ∉ seatPendRegs ∧ Reg.ewnNstat d ∉ seatPendRegs := by
  simp only [seatPendRegs, List.mem_cons, List.not_mem_nil, or_false, Reg.ewnNmail, Reg.ewnNstat, Reg.cstSeatpendlo, Reg.cstSeatpendhi, Reg.cstStat,
    Reg.cstEvt]
  omega

/-- Whether a head may start depends on the rings, the time and the node's credit (06 R283, R286). -/
theorem mayStart_syncSeatPend (s : Chip) (held : List Nat) (q : List MailFrame) : mayStart (syncSeatPend s) held q = mayStart s held q := by
  cases q with
  | nil => rfl
  | cons f r =>
    have hcred : (syncSeatPend s).rdF (Reg.ewnNmail f.dst) 4 0 = s.rdF (Reg.ewnNmail f.dst) 4 0 := by
      rw [Chip.rdF, syncSeatPend_keepsRegs s _ (nodeRegs_notSeatPend _).1, Chip.rdF]
    have hfit : fitsWindow (syncSeatPend s) f.body.length = fitsWindow s f.body.length := by
      rw [fitsWindow, lineNow, syncSeatPend_ewn, syncSeatPend_tb, fitsWindow, lineNow]
    rw [mayStart, hcred, hfit, mayStart]

/-- What the window grants (06 R285 to R287), and how far it uses the line (06 R286). -/
theorem mailWindow_grants {s : Chip} (h : s.ewn.now ≠ none) :
    let n := min (s.rdF Reg.ewnMailcfg 3 0) 8
    let x := mailWindow s
    (∃ l : List (Nat × Nat), x.ewn.carriers = s.ewn.carriers ++ l ∧ l.length ≤ n - s.ewn.carSent ∧
      x.ewn.carSent = s.ewn.carSent + l.length ∧ (∀ c r, l = c :: r → carrierNext s [] = some c.1) ∧
      (s.ewn.carSent < n → carrierFits s = true → carrierNext s [] ≠ none → l ≠ []) ∧
      ∀ c ∈ l, inMail s c.1 = true ∧ c.2 = carrierCap s) ∧ x.ewn.linePos ≤ max s.ewn.linePos (mailLimit + 8) := by
  intro n x
  obtain ⟨l, ⟨⟨wire, line, rot, hframe⟩, hpos, heach⟩, hlen, hfirst, hsome⟩ := sendCarriers_grants s
  have hline : LineKeeps (sendCarriers s) x := by
    rw [show x = _ from mailWindow_coach h]
    exact (resendAll_line _).trans (sendNew_sends ..).1
  refine ⟨⟨l, hline.carriers.trans ?_, hlen, hline.carSent.trans ?_, hfirst, hsome, heach⟩,
    hline.line.trans (max_le hpos (Nat.le_max_right ..))⟩
  · rw [hframe]
    rfl
  · rw [hframe]
    rfl

/-- With no frame overdue, the window sends new frames until neither head may start (06 R286). -/
theorem mailWindow_new {s : Chip} (h : s.ewn.now ≠ none) (ho : overdueFrames s = []) :
    let x := mailWindow s
    mayStart x [] x.ewn.coreQ = false ∧ mayStart x [] x.ewn.engQ = false ∧ ∃ ca cb, Sends s ca cb x := by
  intro x
  obtain ⟨l, ⟨⟨wire, line, rot, hframe⟩, -, -⟩, -⟩ := sendCarriers_grants s
  have hnone : overdueFrames (sendCarriers s) = [] := by
    rw [hframe]
    exact ho
  have hx : x = sendNew (sendCarriers s) [] (s.ewn.coreQ.length + s.ewn.engQ.length) := by
    rw [show x = _ from mailWindow_coach h, resendAll_none hnone]
  have hqueues : (sendCarriers s).ewn.coreQ = s.ewn.coreQ ∧ (sendCarriers s).ewn.engQ = s.ewn.engQ ∧
      (sendCarriers s).ewn.unacked = s.ewn.unacked ∧ (sendCarriers s).rd Reg.ewnMtxcnt = s.rd Reg.ewnMtxcnt := by
    rw [hframe]
    exact ⟨rfl, rfl, rfl, rfl⟩
  obtain ⟨hcore, heng, hun, hcnt⟩ := hqueues
  obtain ⟨hstop, hstop'⟩ := sendNew_ends (sendCarriers s) [] (s.ewn.coreQ.length + s.ewn.engQ.length) (by rw [hcore, heng])
  obtain ⟨-, ca, cb, hc, he, hu, hn⟩ := sendNew_sends (sendCarriers s) [] (s.ewn.coreQ.length + s.ewn.engQ.length)
  rw [← hx] at hstop hstop' hc he hu hn
  rw [hcore] at hc
  rw [heng] at he
  rw [hun] at hu
  rw [hcnt] at hn
  exact ⟨hstop, hstop', ca, cb, hc, he, hu, hn⟩

theorem rdF_sendEnum (s : Chip) (a hi lo : Nat) : (sendEnum s).rdF a hi lo = s.rdF a hi lo := by
  rw [Chip.rdF, Chip.rd_congr (sendEnum_regs s), Chip.rdF]

theorem inMail_sendEnum (s : Chip) (d : Nat) : inMail (sendEnum s) d = inMail s d := by
  rw [inMail, nodeState, rdF_sendEnum, inMail, nodeState]

theorem carrierCap_sendEnum (s : Chip) : carrierCap (sendEnum s) = carrierCap s := by
  rw [carrierCap, rdF_sendEnum, carrierCap]

theorem mailTo_sendEnum (s : Chip) (d : Nat) : mailTo (sendEnum s) d = mailTo s d := by
  obtain ⟨hcore, heng, hun⟩ := sendEnum_queues s
  rw [mailTo, hcore, heng, hun, mailTo]

theorem resendOldest_none {s : Chip} (h : overdueFrames s = []) : resendOldest s = s := by
  simp only [resendOldest, h]

section Oldest
variable {s : Chip} {f : MailFrame} {r : List MailFrame}

theorem resendOldest_first (h : overdueFrames s = f :: r) : resendOldest s = (resendFrame (s, []) f).1 := by
  simp only [resendOldest, h]

/-- An overdue frame is not acknowledged. -/
theorem unacked_of_overdue (h : overdueFrames s = f :: r) : s.ewn.unacked.contains f = true :=
  List.contains_iff_mem.2 (List.mem_of_mem_filter (h ▸ List.mem_cons_self : f ∈ overdueFrames s))

theorem resendOldest_unfit (h : overdueFrames s = f :: r) (ht : f.tries < max (s.rdF Reg.ewnMailcfg 23 16) 1)
    (hfit : fitsWindow s f.body.length = false) : resendOldest s = s := by
  rw [resendOldest_first h, resendFrame_unfit (unacked_of_overdue h) ht (by simp) (by simp [hfit])]

theorem resendOldest_fits (h : overdueFrames s = f :: r) (ht : f.tries < max (s.rdF Reg.ewnMailcfg 23 16) 1)
    (hfit : fitsWindow s f.body.length = true) : resendOldest s = resent s f := by
  rw [resendOldest_first h, resendFrame_fits (unacked_of_overdue h) ht (by simp) hfit]

theorem resendOldest_fails (h : overdueFrames s = f :: r) (ht : max (s.rdF Reg.ewnMailcfg 23 16) 1 ≤ f.tries) :
    resendOldest s = failMail s f.dst := by
  rw [resendOldest_first h, resendFrame_fails (unacked_of_overdue h) ht]

/-- The node of an overdue frame has mail to lose. -/
theorem mailTo_of_overdue (h : overdueFrames s = f :: r) : mailTo s f.dst ≠ [] := by
  have hmem : f ∈ s.ewn.unacked := List.contains_iff_mem.1 (unacked_of_overdue h)
  refine List.ne_nil_of_mem (a := f) ?_
  simp [mailTo, hmem]

end Oldest

/-- Settles O23: the window is its carriers (`Grants`), then the frames sent again and the new ones, which keep the carriers and the line's bound
(`LineKeeps`) and take frames from the front of their queues (`Sends`); of the oldest overdue frame, its tries and the line decide. -/
theorem mailLeavesByCreditAndTime : Obligations.MailLeavesByCreditAndTime := by
  unfold Obligations.MailLeavesByCreditAndTime
  intro s y
  have hover : overdueFrames y = overdueFrames s.chip := overdueFrames_sendEnum s.chip
  obtain ⟨hcore, heng, hun⟩ : y.ewn.coreQ = s.chip.ewn.coreQ ∧ y.ewn.engQ = s.chip.ewn.engQ ∧ y.ewn.unacked = s.chip.ewn.unacked :=
    sendEnum_queues s.chip
  have hrd : ∀ a, y.rd a = s.chip.rd a := Chip.rd_congr (sendEnum_regs s.chip)
  have htries : y.rdF Reg.ewnMailcfg 23 16 = s.chip.rdF Reg.ewnMailcfg 23 16 := rdF_sendEnum ..
  refine ⟨fun hnow => ?_, fun hnow => ?_, fun ho => ?_, fun f r ho => ⟨fun ht => ⟨fun hfit => ?_, fun hfit => ?_⟩, fun ht hlo hhi => ?_⟩⟩
  · refine completes_mailWindow ?_
    rw [mailWindow_noCoach ((sendEnum_coach s.chip).trans hnow)]
  · have hnow' : y.ewn.now ≠ none := fun h => hnow ((sendEnum_coach s.chip).symm.trans h)
    refine completes_mailWindow ?_
    rw [syncSeatPend_ewn]
    obtain ⟨⟨l, hcar, hlen, hsent, hfirst, hsome, heach⟩, hline⟩ := mailWindow_grants hnow'
    obtain ⟨hcar0, hsent0⟩ : y.ewn.carriers = s.chip.ewn.carriers ∧ y.ewn.carSent = s.chip.ewn.carSent := sendEnum_carriers s.chip
    have hcfg : y.rdF Reg.ewnMailcfg 3 0 = s.chip.rdF Reg.ewnMailcfg 3 0 := rdF_sendEnum ..
    have hnext : carrierNext y [] = carrierNext s.chip [] := carrierNext_sendEnum ..
    rw [hcar0] at hcar
    rw [hcfg, hsent0] at hlen hsome
    rw [hsent0] at hsent
    rw [hnext] at hfirst hsome
    refine ⟨⟨l, hcar, hlen, hsent, hfirst, hsome, fun c hc => ?_⟩, hline, fun ho => ?_⟩
    · obtain ⟨hin, hcap⟩ := heach c hc
      exact ⟨(inMail_sendEnum ..).symm.trans hin, hcap.trans (carrierCap_sendEnum ..)⟩
    · obtain ⟨hstop, hstop', ca, cb, hc, he, ⟨g, hu, hg⟩, hn⟩ := mailWindow_new hnow' (hover.trans ho)
      rw [hcore] at hc
      rw [heng] at he
      rw [hun] at hu
      rw [hrd] at hn
      refine ⟨(mayStart_syncSeatPend ..).trans hstop, (mayStart_syncSeatPend ..).trans hstop', ca, cb, hc, he, ?_, ?_, ?_⟩
      · exact (congrArg (List.take _) hu).trans List.take_left
      · exact (congrArg List.length hu).trans (by rw [List.length_append, hg, Nat.add_assoc])
      · exact (syncSeatPend_keepsRegs _ _ (by decide)).trans hn
  · refine completes_mailRetransmit ?_
    rw [resendOldest_none (hover.trans ho)]
  · refine completes_mailRetransmit ?_
    rw [resendOldest_unfit (hover.trans ho) (htries ▸ ht) hfit]
  · refine completes_mailRetransmit ?_
    rw [resendOldest_fits (hover.trans ho) (htries ▸ ht) hfit, syncSeatPend_ewn]
    obtain ⟨hcore', heng'⟩ := resent_queues y f
    refine ⟨?_, ?_, hcore'.trans hcore, heng'.trans heng⟩
    · rw [syncSeatPend_keepsRegs _ _ (by decide), ← hrd]
      exact Chip.rd_bump ..
    · rw [← hun, ← sendEnum_tb s.chip]
      rfl
  · refine completes_mailRetransmit ?_
    have ho' : overdueFrames y = f :: r := hover.trans ho
    obtain ⟨hmail, hstat⟩ := nodeRegs_notSeatPend f.dst
    obtain ⟨left, hewn⟩ := failMail_ewn y f.dst
    rw [resendOldest_fails ho' (htries ▸ ht), syncSeatPend_ewn]
    refine ⟨?_, ?_, ?_, ?_, ?_, ?_, ?_⟩
    · rw [Chip.rdBit, syncSeatPend_keepsRegs _ _ hmail]
      exact failMail_failed hhi
    · rw [nodeState, Chip.rdF, syncSeatPend_keepsRegs _ _ hstat]
      exact failMail_found hhi
    · rw [hewn, ← hun]
      rfl
    · rw [hewn, ← hcore]
      rfl
    · rw [hewn, ← heng]
      rfl
    · rw [syncSeatPend_keepsRegs _ _ (by decide), failMail_counts hhi, mailTo_sendEnum, ← hrd]
      rfl
    · rw [Chip.rdBit, syncSeatPend_keepsRegs _ _ (by decide)]
      exact failMail_flags hhi (mailTo_of_overdue ho')

end Sys2Proof.Machine
end

section
/-!
PROOFS of the survey (07). What a returned ENUM and a DELAY round make of one node, and what they leave of the others, of the round trips and of the
delays; the rounds are folds of these over the nodes.
-/

namespace Sys2Proof.Machine

/-! ### Nodes -/

theorem mem_nodeNums {d : Nat} : d ∈ nodeNums ↔ 1 ≤ d ∧ d ≤ 62 := by
  simp only [nodeNums, List.mem_map, List.mem_range]
  constructor
  · rintro ⟨k, hk, rfl⟩
    omega
  · rintro ⟨hlo, hhi⟩
    exact ⟨d - 1, by omega, by omega⟩

theorem nodeNums_nodup : nodeNums.Nodup := List.nodup_range.map Nat.succ_injective

/-- What each step of a fold over the members of a list leaves alone, the fold leaves alone. -/
theorem foldl_keeps_mem {α β : Type} (π : Chip → β) {f : Chip → α → Chip} {l : List α} (h : ∀ x, ∀ a ∈ l, π (f x a) = π x)
    (s : Chip) : π (l.foldl f s) = π s :=
  List.foldlRecOn (motive := fun x => π x = π s) _ _ rfl fun x hx a ha => (h x a ha).trans hx

/-- A fold over nodes leaves of node `d` what the step of that node makes of it, when no other step changes it. -/
theorem foldl_node {β : Type} (π : Chip → β) {f : Chip → Nat → Chip} {l : List Nat} {d : Nat} (hl : l.Nodup) (hd : d ∈ l)
    (hf : ∀ x, ∀ e ∈ l, e ≠ d → π (f x e) = π x) (s : Chip) : ∃ y, π y = π s ∧ π (l.foldl f s) = π (f y d) := by
  obtain ⟨l₁, l₂, rfl⟩ := List.append_of_mem hd
  obtain ⟨hout, -⟩ := List.nodup_cons.1 (List.nodup_middle.1 hl)
  have hskip : ∀ k : List Nat, (∀ e ∈ k, e ∈ l₁ ++ l₂) → ∀ x, π (k.foldl f x) = π x := fun k hk x =>
    foldl_keeps_mem π (fun y e he => hf y e
      (by
        rcases List.mem_append.1 (hk e he) with h | h
        · exact List.mem_append_left _ h
        · exact List.mem_append_right _ (List.mem_cons_of_mem _ h))
      (fun heq => hout (heq ▸ hk e he))) x
  refine ⟨l₁.foldl f s, hskip l₁ (fun e => List.mem_append_left l₂) s, ?_⟩
  rw [List.foldl_append, List.foldl_cons]
  exact hskip l₂ (fun e => List.mem_append_right l₁) _

theorem setNodeSt_regs (s : Chip) (d : Nat) (n : NodeSt) : (setNodeSt s d n).regs = s.regs := rfl

theorem nodeSt_setNodeSt_self (s : Chip) (d : Nat) (n : NodeSt) : nodeSt (setNodeSt s d n) d = n := Tab.get_set_self ..

theorem nodeSt_setNodeSt_ne (s : Chip) {d e : Nat} (n : NodeSt) (h : e ≠ d) : nodeSt (setNodeSt s d n) e = nodeSt s e :=
  Tab.get_set_ne _ _ _ n h

theorem nodeSt_congr {s x : Chip} (h : x.ewn.nodes = s.ewn.nodes) (d : Nat) : nodeSt x d = nodeSt s d := by
  rw [nodeSt, h, nodeSt]

theorem nodeState_congr {s x : Chip} {d : Nat} (h : x.rd (Reg.ewnNstat d) = s.rd (Reg.ewnNstat d)) : nodeState x d = nodeState s d := by
  rw [nodeState, Chip.rdF, h, nodeState, Chip.rdF]

theorem nodeState_setNodeState (s : Chip) (d : Nat) {v : Nat} (h : v < 4) : nodeState (setNodeState s d v) d = v :=
  (Chip.rdF_wrF_self _ _ _ (by decide) (by decide)).trans (Nat.mod_eq_of_lt h)

/-- The registers that the survey reads or answers in stand apart from those that another node's mail and departure write. -/
theorem surveyRegs_apart {d e : Nat} (hd : d ≤ 62) (he : e ≤ 62) :
    (e ≠ d → Reg.ewnNstat e ∉ failRegs d) ∧ Reg.ewnNctl e ∉ failRegs d ∧ Reg.ewnRta ∉ failRegs d ∧ Reg.ewnRtb ∉ failRegs d ∧
      Reg.ewnSurvstat ∉ failRegs d := by
  simp only [failRegs, departRegs, lostRegs, List.cons_append, List.nil_append, List.mem_cons, List.not_mem_nil, or_false, Reg.ewnNmail,
    Reg.ewnNstat, Reg.ewnNctl, Reg.ewnRta, Reg.ewnRtb, Reg.ewnSurvstat, Reg.ewnEvt2, Reg.odoEvt, Reg.ldgLogskip, Reg.ldgLogseq, Reg.ldgLogshed,
    Reg.ewnMlost, Reg.ewnMlostlast, Reg.ewnEvt, Reg.ewnMtxhead]
  omega

theorem nstat_ne_nmail (d : Nat) : Reg.ewnNstat d ≠ Reg.ewnNmail d := by
  unfold Reg.ewnNstat Reg.ewnNmail
  omega

theorem nstat_not_lost (d : Nat) : Reg.ewnNstat d ∉ lostRegs := by
  simp only [lostRegs, List.mem_cons, List.not_mem_nil, or_false, Reg.ewnNstat, Reg.ewnMlost, Reg.ewnMlostlast, Reg.ewnEvt, Reg.ewnMtxhead]
  omega

theorem departRegs_subset (d : Nat) : departRegs d ⊆ failRegs d := fun _ h => List.mem_append_left _ (List.mem_cons_of_mem _ h)

theorem nstat_mem (d : Nat) : Reg.ewnNstat d ∈ failRegs d := departRegs_subset d (List.mem_cons_self ..)

theorem nmail_mem (d : Nat) : Reg.ewnNmail d ∈ failRegs d := List.mem_cons_self ..

/-! ### What one node's change leaves of the rest -/

/-- From `s` on, `x` has written the registers of node `d` and of its mail alone, and kept the nodes' records of the consist. -/
structure NodeOnly (d : Nat) (s x : Chip) : Prop where
  regs : KeepsRegsBut (failRegs d) s x
  cfg : x.ewn.nodeCfg = s.ewn.nodeCfg

section NodeOnly
variable {d : Nat} {s x : Chip}

theorem NodeOnly.refl (d : Nat) (s : Chip) : NodeOnly d s s := ⟨.refl _ _, rfl⟩

theorem NodeOnly.trans {y : Chip} (h : NodeOnly d s x) (h' : NodeOnly d x y) : NodeOnly d s y :=
  ⟨h.regs.trans h'.regs (List.Subset.refl _), h'.cfg.trans h.cfg⟩

theorem NodeOnly.ite {a b : Chip} {c : Prop} {_ : Decidable c} (ha : NodeOnly d s a) (hb : NodeOnly d s b) : NodeOnly d s (if c then a else b) := by
  split <;> assumption

theorem NodeOnly.setNodeSt {n : NodeSt} (h : NodeOnly d s x) : NodeOnly d s (setNodeSt x d n) := ⟨h.regs.same rfl, h.cfg⟩

theorem NodeOnly.wr {r : Nat} {w : Word} (h : NodeOnly d s x) (hr : r ∈ failRegs d) : NodeOnly d s (x.wr r w) := ⟨h.regs.wr hr, h.cfg⟩

theorem NodeOnly.led {l j n : Nat} (h : NodeOnly d s x) : NodeOnly d s (x.led l j n) := ⟨h.regs.same (x.led_regs ..), h.cfg⟩

theorem NodeOnly.setNodeState {v : Nat} (h : NodeOnly d s x) : NodeOnly d s (setNodeState x d v) := h.wr (nstat_mem d)

theorem NodeOnly.ewnFlag2 {b : Nat} (h : NodeOnly d s x) : NodeOnly d s (x.ewnFlag2 b) :=
  ⟨h.regs.ewnFlag2 (departRegs_subset d (by simp [departRegs])), (congrArg Ewene.nodeCfg (Chip.flag_ewn ..)).trans h.cfg⟩

/-- The credits of a node that enters mail (06 R283, R284). -/
theorem NodeOnly.admitMail (h : NodeOnly d s x) : NodeOnly d s (admitMail x d) := by
  unfold Machine.admitMail
  extract_lets n s1 rb s2
  have hs1 : NodeOnly d s s1 := h.setNodeSt
  have hs2 : NodeOnly d s s2 := (hs1.setNodeState.wr (nmail_mem d)).wr (nmail_mem d)
  exact hs2.led.wr (nmail_mem d)

end NodeOnly

/-- From `s` on, `x` has changed node `d` as a departure does: the delays of all nodes and the lock of node `d` stand. -/
structure Departs (d : Nat) (s x : Chip) : Prop extends NodeOnly d s x where
  delays : ∀ e, (nodeSt x e).hisA = (nodeSt s e).hisA ∧ (nodeSt x e).hisB = (nodeSt s e).hisB
  lock : x.rdBit (Reg.ewnNstat d) 7 = s.rdBit (Reg.ewnNstat d) 7

/-- A recorded departure bars the node's seat at most (07 R325). -/
theorem noteDeparture_cases (s : Chip) (d cause : Nat) : noteDeparture s d cause = seatLeft s d cause ∨
    noteDeparture s d cause = setNodeSt (seatLeft s d cause) d { nodeSt (seatLeft s d cause) d with barred := true } := by
  by_cases h : cause = 3
  · exact .inr (if_pos h)
  · exact .inl (if_neg h)

/-- A recorded departure puts its cause into the node's register and changes nothing else there (07 R326). -/
theorem noteDeparture_stat (s : Chip) {d : Nat} (hd : d ≤ 62) (cause : Nat) :
    (noteDeparture s d cause).rd (Reg.ewnNstat d) = setFld (s.rd (Reg.ewnNstat d)) 31 28 cause := by
  have hlog : Reg.ewnNstat d ∉ [Reg.ldgLogskip, Reg.ldgLogseq, Reg.ldgLogshed] := by
    simp only [List.mem_cons, List.not_mem_nil, or_false, Reg.ewnNstat, Reg.ldgLogskip, Reg.ldgLogseq, Reg.ldgLogshed]
    omega
  have hflag : Reg.ewnNstat d ≠ Reg.ewnEvt2 ∧ Reg.ewnNstat d ≠ Reg.odoEvt := by
    simp only [Reg.ewnNstat, Reg.ewnEvt2, Reg.odoEvt]
    omega
  have hleft : (seatLeft s d cause).rd (Reg.ewnNstat d) = setFld (s.rd (Reg.ewnNstat d)) 31 28 cause := by
    rw [seatLeft, Chip.logEvent_rd_ne _ _ _ _ hlog, Chip.odoInc_rd_ne _ _ _ hflag.2, Chip.ewnFlag2, Chip.flag_rd_ne _ _ _ _ hflag.1]
    exact Chip.rd_wr_self ..
  rcases noteDeparture_cases s d cause with h | h
  · rw [h, hleft]
  · rw [h, Chip.rd_congr (setNodeSt_regs ..), hleft]

theorem noteDeparture_state (s : Chip) {d : Nat} (hd : d ≤ 62) (cause : Nat) : nodeState (noteDeparture s d cause) d = nodeState s d := by
  rw [nodeState, Chip.rdF, noteDeparture_stat s hd, fld_setFld_disj _ _ (by decide) (by decide) (by decide), nodeState, Chip.rdF]

/-- Unchanged nodes keep their delays. -/
theorem delays_congr {s x : Chip} (h : x.ewn.nodes = s.ewn.nodes) (e : Nat) :
    (nodeSt x e).hisA = (nodeSt s e).hisA ∧ (nodeSt x e).hisB = (nodeSt s e).hisB := by
  rw [nodeSt_congr h]
  exact ⟨rfl, rfl⟩

section Departs
variable {d : Nat} {s x : Chip}

theorem Departs.refl (d : Nat) (s : Chip) : Departs d s s := ⟨.refl d s, fun _ => ⟨rfl, rfl⟩, rfl⟩

theorem Departs.trans {y : Chip} (h : Departs d s x) (h' : Departs d x y) : Departs d s y :=
  ⟨h.toNodeOnly.trans h'.toNodeOnly, fun e => ⟨(h'.delays e).1.trans (h.delays e).1, (h'.delays e).2.trans (h.delays e).2⟩,
    h'.lock.trans h.lock⟩

theorem Departs.ite {a b : Chip} {c : Prop} {_ : Decidable c} (ha : Departs d s a) (hb : Departs d s b) : Departs d s (if c then a else b) := by
  split <;> assumption

theorem Departs.noteDeparture {cause : Nat} (hd : d ≤ 62) (h : Departs d s x) : Departs d s (noteDeparture x d cause) := by
  have hlock : (Machine.noteDeparture x d cause).rdBit (Reg.ewnNstat d) 7 = x.rdBit (Reg.ewnNstat d) 7 := by
    rw [Chip.rdBit, noteDeparture_stat x hd, bit_setFld _ _ _ (by decide) (by decide), if_neg (by decide), Chip.rdBit]
  have hleft : NodeOnly d x (seatLeft x d cause) :=
    ⟨(KeepsRegsBut.refl _ x).trans (seatLeft_keepsRegs x d cause) (departRegs_subset d), by rw [seatLeft_ewn]⟩
  have hnodes : ∀ e, nodeSt (seatLeft x d cause) e = nodeSt x e := nodeSt_congr (by rw [seatLeft_ewn])
  refine h.trans ?_
  rcases noteDeparture_cases x d cause with hcase | hcase
  · rw [hcase] at hlock ⊢
    exact ⟨hleft, delays_congr (by rw [seatLeft_ewn]), hlock⟩
  · rw [hcase] at hlock ⊢
    refine ⟨hleft.setNodeSt, fun e => ?_, hlock⟩
    by_cases he : e = d
    · rw [he, nodeSt_setNodeSt_self, hnodes]
      exact ⟨rfl, rfl⟩
    · rw [nodeSt_setNodeSt_ne _ _ he, hnodes]
      exact ⟨rfl, rfl⟩

theorem Departs.withdraw (h : Departs d s x) : Departs d s (withdraw x d) :=
  h.trans ⟨⟨(KeepsRegsBut.refl _ x).same (withdraw_regs x d), by rw [withdraw_ewn]⟩, delays_congr (by rw [withdraw_ewn]), by
    rw [Chip.rdBit, Chip.rd_congr (withdraw_regs x d), Chip.rdBit]⟩

theorem Departs.setNodeState {v : Nat} (h : Departs d s x) : Departs d s (setNodeState x d v) :=
  h.trans ⟨(NodeOnly.refl d x).setNodeState, fun _ => ⟨rfl, rfl⟩, by
    rw [Chip.rdBit, Machine.setNodeState, Chip.wrF, Chip.rd_wr_self, bit_setFld _ _ _ (by decide) (by decide), if_neg (by decide), Chip.rdBit]⟩

theorem Departs.loseMail (h : Departs d s x) : Departs d s (loseMail x d) :=
  h.trans ⟨⟨(KeepsRegsBut.refl _ x).trans (loseMail_keepsRegs x d) (List.subset_append_right ..), by rw [loseMail_ewn]; rfl⟩,
    delays_congr (by rw [loseMail_ewn]; rfl), by rw [Chip.rdBit, loseMail_keepsRegs x d _ (nstat_not_lost d), Chip.rdBit]⟩

theorem Departs.syncCred (h : Departs d s x) : Departs d s (syncCred x d) :=
  h.trans ⟨⟨(KeepsRegsBut.refl _ x).wr (nmail_mem d), rfl⟩, fun _ => ⟨rfl, rfl⟩, by
    rw [Chip.rdBit, Machine.syncCred, Chip.wrF, Chip.rd_wr_ne _ _ (nstat_ne_nmail d), Chip.rdBit]⟩

/-- Whatever causes are found for a node, it departs (07 R326, R327, R896). -/
theorem Departs.applyCauses {cs : List Nat} (hd : d ≤ 62) (h : Departs d s x) : Departs d s (applyCauses x d cs) := by
  unfold Machine.applyCauses
  split
  · exact h
  · extract_lets gone fail s1 s2 s3
    have hs1 : Departs d s s1 := .ite (h.noteDeparture hd) h
    have hs2 : Departs d s s2 := .ite hs1.withdraw hs1
    have hs3 : Departs d s s3 := .ite hs2.setNodeState (.ite hs2.setNodeState (.ite hs2.setNodeState hs2))
    exact .syncCred (.ite hs3.loseMail hs3)

theorem Departs.delayDepart (hd : d ≤ 62) (h : Departs d s x) : Departs d s (delayDepart x d) := .ite (h.applyCauses hd) h

end Departs

/-! ### The ENUM packet -/

theorem exec_surveyRoundStart (st : State) :
    exec .surveyRoundStart st = finish st (fun s => if s.ewn.stage = 1 ∧ !s.ewn.sent then sendAgain (sendEnum s) else s) := rfl

theorem surveyPacket_length (s : Chip) (ring apply : Nat) (entries : List Byte) :
    (surveyPacket s ring apply entries).length = entries.length + 20 := by
  simp only [surveyPacket, surveyHeader, List.length_append, leBytes_length, List.length_cons, List.length_nil]
  omega

/-- With no timetable refused, none goes again (18 R828). -/
theorem sendAgain_none {s : Chip} (h : s.hst.resend = []) : sendAgain s = s := by
  unfold sendAgain
  rw [h]
  exact if_pos (.inr rfl)

/-- The ENUM packet leaves on both rings with SSEQ advanced (07 R308, R312). -/
theorem sendEnum_leaves {s : Chip} (hstage : s.ewn.stage = 1) (hsent : s.ewn.sent = false) (hnow : s.ewn.now ≠ none) :
    (sendEnum s).ewn.sent = true ∧ (sendEnum s).ewn.sseq = (s.ewn.sseq + 1) % 65536 ∧
      ∃ a b, (sendEnum s).ewn.wire = s.ewn.wire ++ [(0, 0xE8, a), (1, 0xE8, b)] ∧ a.length = 1012 ∧ b.length = 1012 := by
  have hdue : s.ewn.stage = 1 ∧ !s.ewn.sent ∧ s.ewn.now.isSome :=
    ⟨hstage, by rw [hsent]; rfl, Option.isSome_iff_ne_none.2 hnow⟩
  rw [sendEnum, if_pos hdue]
  have hlen : ∀ (x : Chip) (ring : Nat), (surveyPacket x ring 0 (bytesOf 992 0)).length = 1012 := fun x ring => by
    rw [surveyPacket_length, bytesOf, List.length_replicate]
  exact ⟨rfl, rfl, _, _, rfl, hlen _ _, hlen _ _⟩

/-- In the first tick of a round the command's effect is the packet alone (07 R312). -/
theorem exec_surveyRoundStart_due {s : State} (hstill : Still s.chip) (hresend : s.chip.hst.resend = []) (hstage : s.chip.ewn.stage = 1)
    (hsent : s.chip.ewn.sent = false) : exec .surveyRoundStart s = .next { s with chip := sendEnum s.chip } := by
  obtain ⟨sseq, sent, line, wire, heq⟩ := sendEnum_eq s.chip
  have hleft : Still (sendEnum s.chip) := heq ▸ hstill.setEwn _
  have hnone : (sendEnum s.chip).hst.resend = [] := by
    rw [heq]
    exact hresend
  rw [exec_surveyRoundStart, finish_eq, if_pos ⟨hstage, by rw [hsent]; rfl⟩, sendAgain_none hnone, settle_still hleft]

/-! ### The ENUM returns -/

theorem exec_enumReturn (a b : List Byte) (own : OwnPorts) (st : State) : exec (.enumReturn a b own) st =
    finish st (fun s => syncSeatPend (sendToEntrants s (enumReturn s (heard s 0 own.a a) (heard s 1 own.b b) own))) := rfl

/-- Two valid copies are needed to find any node (07 R314). -/
theorem isFound_of_bad {a b : List Byte} (h : surveyOk 0 992 a = false ∨ surveyOk 1 992 b = false) (d : Nat) : isFound a b d = false := by
  rcases h with h | h <;> simp [isFound, h]

theorem identified_congr {s x : Chip} (h : x.ewn.nodeCfg = s.ewn.nodeCfg) (a b : List Byte) (d : Nat) :
    identified x a b d = identified s a b d := by
  rw [identified, h, identified]

/-- A node that is admitted to mail is in MAIL (07 R324). -/
theorem admitMail_state (s : Chip) (d : Nat) : nodeState (admitMail s d) d = 2 := by
  have hmail : ∀ (x : Chip) (w : Word), nodeState (x.wr (Reg.ewnNmail d) w) d = nodeState x d := fun x w =>
    nodeState_congr (x.rd_wr_ne w (nstat_ne_nmail d))
  unfold admitMail
  extract_lets n s1 rb s2
  calc nodeState (syncCred (s2.led 2 0 _) d) d
      = nodeState s2 d := (hmail ..).trans (nodeState_congr (Chip.rd_congr (Chip.led_regs ..) _))
    _ = nodeState (setNodeState s1 d 2) d := (hmail ..).trans (hmail ..)
    _ = 2 := nodeState_setNodeState _ _ (by decide)

/-- The Poermun with what the ENUM's copies tell of a found node's identity noted (07 R314). -/
def identNoted (s : Chip) (a b : List Byte) (d : Nat) : Chip :=
  let s0 := setNodeSt s d { nodeSt s d with ident := identified s a b d }
  if identified s a b d then s0 else s0.ewnFlag2 4

section Node
variable {s : Chip} {a b : List Byte} {d : Nat}

theorem enumNode_found (h : isFound a b d = true) :
    let y := identNoted s a b d
    enumNode a b s d = if nodeState y d ≥ 2 then y
      else if identified s a b d ∧ !y.rdBit (Reg.ewnNctl d) 1 then admitMail y d else setNodeState y d 1 := if_pos h

theorem enumNode_absent (h : ¬ isFound a b d = true) : enumNode a b s d =
    if nodeState s d = 0 then s else forgetNode (setNodeState (applyCauses s d [6]) d 0) d := if_neg h

theorem enumNode_only (hd : d ≤ 62) : NodeOnly d s (enumNode a b s d) := by
  by_cases hfound : isFound a b d = true
  · have hy : NodeOnly d s (identNoted s a b d) := .ite (NodeOnly.refl d s).setNodeSt (NodeOnly.refl d s).setNodeSt.ewnFlag2
    rw [enumNode_found hfound]
    exact .ite hy (.ite hy.admitMail hy.setNodeState)
  · rw [enumNode_absent hfound]
    exact .ite (.refl d s) ((Departs.refl d s).applyCauses hd).toNodeOnly.setNodeState.setNodeSt

theorem identNoted_rd {r : Nat} (hr : r ≠ Reg.ewnEvt2) : (identNoted s a b d).rd r = s.rd r := by
  unfold identNoted
  extract_lets s0
  split
  · rfl
  · exact Chip.flag_rd_ne _ _ _ _ hr

theorem forgetNode_regs (s : Chip) (d : Nat) : (forgetNode s d).regs = s.regs := rfl

/-- The state that an ENUM's return gives a node (07 R314, R324, R326, R327). -/
def enumState (s : Chip) (a b : List Byte) (d : Nat) : Nat :=
  if isFound a b d = false then 0
  else if nodeState s d ≥ 2 then nodeState s d
  else if identified s a b d = true ∧ s.rdBit (Reg.ewnNctl d) 1 = false then 2 else 1

theorem enumNode_state : nodeState (enumNode a b s d) d = enumState s a b d := by
  unfold enumState
  by_cases hfound : isFound a b d = true
  · have hstate : nodeState (identNoted s a b d) d = nodeState s d :=
      nodeState_congr (identNoted_rd (by unfold Reg.ewnNstat Reg.ewnEvt2; omega))
    have hctl : (identNoted s a b d).rdBit (Reg.ewnNctl d) 1 = s.rdBit (Reg.ewnNctl d) 1 := by
      rw [Chip.rdBit, identNoted_rd (by unfold Reg.ewnNctl Reg.ewnEvt2; omega), Chip.rdBit]
    have hnot : ¬ isFound a b d = false := by
      rw [hfound]
      decide
    rw [enumNode_found hfound, if_neg hnot]
    simp only [hstate, hctl, Bool.not_eq_true']
    split
    · exact hstate
    · split
      · exact admitMail_state ..
      · exact nodeState_setNodeState _ _ (by decide)
  · rw [enumNode_absent hfound, if_pos (Bool.eq_false_of_not_eq_true hfound)]
    split
    · assumption
    · rw [nodeState_congr (Chip.rd_congr (forgetNode_regs ..) _), nodeState_setNodeState _ _ (by decide)]

end Node

/-- The Poermun with every node judged by the ENUM's copies (07 R314). -/
def nodesJudged (s : Chip) (a b : List Byte) (own : OwnPorts) : Chip := nodeNums.foldl (enumNode a b) (noteWraps s a b own)

theorem enumReturn_inRound {s : Chip} (h : s.ewn.stage ≠ 0) (a b : List Byte) (own : OwnPorts) :
    enumReturn s a b own = { nodesJudged s a b own with ewn := { (nodesJudged s a b own).ewn with found := nodeNums.filter (isFound a b) } } :=
  if_neg h

/-- What a node's judgement reads of the node: its state, its control register and the records of the consist. -/
def enumView (d : Nat) (x : Chip) : Nat × Bool × Tab NodeCfg := (nodeState x d, x.rdBit (Reg.ewnNctl d) 1, x.ewn.nodeCfg)

theorem enumState_congr {s x : Chip} {d : Nat} (h : enumView d x = enumView d s) (a b : List Byte) : enumState x a b d = enumState s a b d := by
  simp only [enumView, Prod.mk.injEq] at h
  obtain ⟨hstate, hctl, hcfg⟩ := h
  rw [enumState, hstate, hctl, identified_congr hcfg, enumState]

theorem NodeOnly.enumView {d e : Nat} {s x : Chip} (h : NodeOnly e s x) (he : e ≤ 62) (hd : d ≤ 62) (hne : d ≠ e) :
    enumView d x = enumView d s := by
  obtain ⟨hstat, hctl, -⟩ := surveyRegs_apart he hd
  rw [Machine.enumView, nodeState_congr (h.regs _ (hstat hne)), Chip.rdBit, h.regs _ hctl, h.cfg, Machine.enumView, Chip.rdBit]

theorem nodesJudged_state (s : Chip) (a b : List Byte) (own : OwnPorts) {d : Nat} (hlo : 1 ≤ d) (hhi : d ≤ 62) :
    nodeState (nodesJudged s a b own) d = enumState s a b d := by
  obtain ⟨y, hy, hend⟩ := foldl_node (enumView d) nodeNums_nodup (mem_nodeNums.2 ⟨hlo, hhi⟩)
    (fun x e he hne => (enumNode_only (mem_nodeNums.1 he).2).enumView (mem_nodeNums.1 he).2 hhi hne.symm) (noteWraps s a b own)
  have hwraps : enumView d (noteWraps s a b own) = enumView d s := rfl
  calc nodeState (nodesJudged s a b own) d
      = nodeState (enumNode a b y d) d := congrArg Prod.fst hend
    _ = enumState y a b d := enumNode_state ..
    _ = enumState s a b d := enumState_congr (hy.trans hwraps) a b

theorem enumReturn_found {s : Chip} (h : s.ewn.stage ≠ 0) (a b : List Byte) (own : OwnPorts) :
    (enumReturn s a b own).ewn.found = nodeNums.filter (isFound a b) := by
  rw [enumReturn_inRound h]

theorem enumReturn_state {s : Chip} (h : s.ewn.stage ≠ 0) (a b : List Byte) (own : OwnPorts) {d : Nat} (hlo : 1 ≤ d) (hhi : d ≤ 62) :
    nodeState (enumReturn s a b own) d = enumState s a b d := by
  have hregs : (enumReturn s a b own).regs = (nodesJudged s a b own).regs := by rw [enumReturn_inRound h]
  rw [nodeState_congr (Chip.rd_congr hregs _), nodesJudged_state s a b own hlo hhi]

/-- A timetable sent to a node goes into the engine's queue (18 R828). -/
theorem sendTimetable_keeps (c : Cst) (s : Chip) (d : Nat) :
    (sendTimetable c s d).regs = s.regs ∧ (sendTimetable c s d).ewn.found = s.ewn.found := by
  unfold sendTimetable
  extract_lets ds ttj commit one
  exact ⟨foldl_keeps (f := one) Chip.regs (fun _ _ => rfl) _ s, foldl_keeps (f := one) (fun x => x.ewn.found) (fun _ _ => rfl) _ s⟩

theorem sendToEntrants_keeps (before s : Chip) :
    (sendToEntrants before s).regs = s.regs ∧ (sendToEntrants before s).ewn.found = s.ewn.found := by
  unfold sendToEntrants
  extract_lets news
  split
  · exact ⟨rfl, rfl⟩
  · split
    · exact ⟨rfl, rfl⟩
    · exact ⟨foldl_keeps Chip.regs (fun x d => (sendTimetable_keeps _ x d).1) _ s,
        foldl_keeps (fun x => x.ewn.found) (fun x d => (sendTimetable_keeps _ x d).2) _ s⟩

theorem syncSeatPend_state (s : Chip) (d : Nat) : nodeState (syncSeatPend s) d = nodeState s d :=
  nodeState_congr (syncSeatPend_keepsRegs s _ (nodeRegs_notSeatPend d).2)

/-- The command's last acts leave the found nodes and the nodes' states as the return has set them. -/
theorem completes_enumReturn {s : State} {a b : List Byte} {own : OwnPorts} {P : Chip → Prop}
    (hP : ∀ x, x.ewn.found = (enumReturn s.chip (heard s.chip 0 own.a a) (heard s.chip 1 own.b b) own).ewn.found →
      (∀ d, nodeState x d = nodeState (enumReturn s.chip (heard s.chip 0 own.a a) (heard s.chip 1 own.b b) own) d) → P x) :
    Completes (.enumReturn a b own) s P := by
  obtain ⟨hregs, hfound⟩ := sendToEntrants_keeps s.chip (enumReturn s.chip (heard s.chip 0 own.a a) (heard s.chip 1 own.b b) own)
  refine ⟨_, by rw [exec_enumReturn, finish_eq], hP _ ?_ fun d => ?_⟩
  · rw [syncSeatPend_ewn, hfound]
  · rw [syncSeatPend_state, nodeState_congr (Chip.rd_congr hregs _)]

/-! ### The round trips -/

/-- The registers that a DELAY round's later steps leave alone: the round trips, RTLONG and the state of node `d`. -/
def roundView (d : Nat) (x : Chip) : Word × Word × Bool × Nat :=
  (x.rd Reg.ewnRta, x.rd Reg.ewnRtb, x.rdBit Reg.ewnSurvstat 4, nodeState x d)

/-- A register of none of these changes none of them. -/
theorem roundView_wr (d : Nat) (x : Chip) {r : Nat} (w : Word) (ha : Reg.ewnRta ≠ r) (hb : Reg.ewnRtb ≠ r) (hs : Reg.ewnSurvstat ≠ r)
    (hn : Reg.ewnNstat d ≠ r) : roundView d (x.wr r w) = roundView d x := by
  rw [roundView, x.rd_wr_ne w ha, x.rd_wr_ne w hb, Chip.rdBit, x.rd_wr_ne w hs, nodeState_congr (x.rd_wr_ne w hn), roundView, Chip.rdBit]

/-- Nor does another bit of EWN_SURVSTAT. -/
theorem roundView_survstat (d : Nat) (x : Chip) {b : Nat} (v : Bool) (hb : b ≤ 31) (hne : 4 ≠ b) :
    roundView d (x.wrBit Reg.ewnSurvstat b v) = roundView d x := by
  have hn : Reg.ewnNstat d ≠ Reg.ewnSurvstat := by
    unfold Reg.ewnNstat Reg.ewnSurvstat
    omega
  have hrd : ∀ r, r ≠ Reg.ewnSurvstat → (x.wrBit Reg.ewnSurvstat b v).rd r = x.rd r := fun r hr => x.rd_wr_ne _ hr
  rw [roundView, hrd _ (by decide), hrd _ (by decide), x.rdBit_wrBit_bit _ _ hb hne, nodeState_congr (hrd _ hn), roundView]

theorem roundView_congr {s x : Chip} (h : x.regs = s.regs) (d : Nat) : roundView d x = roundView d s := by
  rw [roundView, Chip.rd_congr h, Chip.rd_congr h, Chip.rdBit, Chip.rd_congr h, nodeState_congr (Chip.rd_congr h _), roundView, Chip.rdBit]

/-- The averages of the last eight round trips, with the one of this round (07 R313). -/
def tripA (s : Chip) (rtA : Nat) : Nat := avgNat ((rtA :: s.ewn.hisRtA).take 8)
def tripB (s : Chip) (rtB : Nat) : Nat := avgNat ((rtB :: s.ewn.hisRtB).take 8)

/-- The round trips are taken into their registers, and their history into the rings' books (07 R313). -/
theorem takeRoundTrips_eq (s : Chip) (rtA rtB : Nat) : ∃ e, takeRoundTrips s rtA rtB =
    (({ s with ewn := e }.wr Reg.ewnRta (wn (tripA s rtA % 65536))).wr Reg.ewnRtb (wn (tripB s rtB % 65536))).wrBit Reg.ewnSurvstat 4
      (decide (tripA s rtA > 48000) || decide (tripB s rtB > 48000)) := ⟨_, rfl⟩

theorem takeRoundTrips_view (s : Chip) (rtA rtB d : Nat) : roundView d (takeRoundTrips s rtA rtB) =
    (wn (tripA s rtA % 65536), wn (tripB s rtB % 65536), decide (tripA s rtA > 48000) || decide (tripB s rtB > 48000), nodeState s d) := by
  have hn : Reg.ewnNstat d ≠ Reg.ewnSurvstat ∧ Reg.ewnNstat d ≠ Reg.ewnRtb ∧ Reg.ewnNstat d ≠ Reg.ewnRta := by
    unfold Reg.ewnNstat Reg.ewnSurvstat Reg.ewnRtb Reg.ewnRta
    omega
  obtain ⟨hsurv, hrtb, hrta⟩ := hn
  obtain ⟨e, he⟩ := takeRoundTrips_eq s rtA rtB
  have hstate : nodeState (takeRoundTrips s rtA rtB) d = nodeState s d := by
    rw [he]
    exact nodeState_congr ((Chip.rd_wr_ne _ _ hsurv).trans ((Chip.rd_wr_ne _ _ hrtb).trans (Chip.rd_wr_ne _ _ hrta)))
  rw [roundView, hstate, he, Chip.rdBit_wrBit_self _ _ _ (by decide), Chip.wrBit, Chip.rd_wr_ne _ _ (by decide), Chip.rd_wr_ne _ _ (by decide),
    Chip.rd_wr_self, Chip.rd_wr_ne _ _ (by decide), Chip.rd_wr_self]

/-! ### Locks, delays and the margin -/

/-- LOCK is one bit of the node's register (07 R349). -/
theorem takeLock_view (a b : List Byte) (okA okB : Bool) (x : Chip) (e d : Nat) :
    roundView d (takeLock a b okA okB x e) = roundView d x := by
  have hstate : ∀ v, nodeState (x.wrBit (Reg.ewnNstat e) 7 v) d = nodeState x d := fun v => by
    by_cases h : Reg.ewnNstat d = Reg.ewnNstat e
    · rw [nodeState, Chip.rdF, h, Chip.wrBit, Chip.rd_wr_self, fld_setBit _ _ (by decide) (by decide), nodeState, Chip.rdF, h]
    · exact nodeState_congr (x.rd_wr_ne _ h)
  have hne : Reg.ewnRta ≠ Reg.ewnNstat e ∧ Reg.ewnRtb ≠ Reg.ewnNstat e ∧ Reg.ewnSurvstat ≠ Reg.ewnNstat e := by
    unfold Reg.ewnNstat Reg.ewnSurvstat Reg.ewnRtb Reg.ewnRta
    omega
  have hrd : ∀ r, r ≠ Reg.ewnNstat e → ∀ v, (x.wrBit (Reg.ewnNstat e) 7 v).rd r = x.rd r := fun r hr v => x.rd_wr_ne _ hr
  unfold takeLock
  extract_lets ea eb wa wb
  split
  · rw [roundView, hrd _ hne.1, hrd _ hne.2.1, Chip.rdBit, hrd _ hne.2.2, hstate, roundView, Chip.rdBit]
  · rfl

theorem takeLock_ewn (a b : List Byte) (okA okB : Bool) (x : Chip) (e : Nat) : (takeLock a b okA okB x e).ewn = x.ewn := by
  unfold takeLock
  extract_lets
  split <;> rfl

theorem checkSymmetry_view (x : Chip) (a b : List Byte) (d : Nat) : roundView d (checkSymmetry x a b) = roundView d x := by
  have hn : Reg.ewnNstat d ≠ Reg.ewnEvt2 := by
    unfold Reg.ewnNstat Reg.ewnEvt2
    omega
  unfold checkSymmetry
  extract_lets
  split
  · exact ((roundView_congr (Chip.flag_regs ..) d).trans (roundView_wr d _ _ (by decide) (by decide) (by decide) hn)).trans
      (roundView_survstat d x _ (by decide) (by decide))
  · rfl

theorem checkSymmetry_ewn (x : Chip) (a b : List Byte) : (checkSymmetry x a b).ewn = x.ewn := by
  unfold checkSymmetry
  extract_lets
  split
  · exact Chip.flag_ewn ..
  · rfl

theorem takeMargin_view (x : Chip) (d : Nat) : roundView d (takeMargin x) = roundView d x := by
  have hn : Reg.ewnNstat d ≠ Reg.ewnBrkmargin := by
    unfold Reg.ewnNstat Reg.ewnBrkmargin
    omega
  unfold takeMargin
  split
  · exact (roundView_survstat d _ _ (by decide) (by decide)).trans (roundView_wr d x _ (by decide) (by decide) (by decide) hn)
  · rfl

theorem takeMargin_ewn (x : Chip) : (takeMargin x).ewn = x.ewn := by
  unfold takeMargin
  split <;> rfl

/-- Each node of a list without repetition takes its two delays of the round once (07 R315, R316). -/
theorem foldl_takeDelays (a b : List Byte) (rtA depA depB : Nat) (s : Chip) (hl : s.ewn.found.Nodup) {d : Nat} (hd : d ∈ s.ewn.found) :
    let n := nodeDelays a b s.ewn.found rtA depA depB d
    let x := s.ewn.found.foldl (takeDelays a b rtA depA depB) s
    (nodeSt x d).hisA = (n.1 :: (nodeSt s d).hisA).take 8 ∧ (nodeSt x d).hisB = (n.2 :: (nodeSt s d).hisB).take 8 := by
  intro n x
  obtain ⟨y, hy, hend⟩ := foldl_node (fun x => (nodeSt x d, x.ewn.found)) (f := takeDelays a b rtA depA depB) hl hd
    (fun z e _ hne => Prod.ext (nodeSt_setNodeSt_ne z _ hne.symm) rfl) s
  obtain ⟨hnode, hfound⟩ := Prod.mk.inj hy
  have hx : nodeSt x d = nodeSt (takeDelays a b rtA depA depB y d) d := congrArg Prod.fst hend
  rw [hx, takeDelays]
  dsimp only
  rw [nodeSt_setNodeSt_self, hnode, hfound]
  exact ⟨rfl, rfl⟩

/-- The Poermun with the round trips of a DELAY round and the nodes' locks taken (07 R313, R349). -/
def locksTaken (s : Chip) (a b : List Byte) (own : OwnPorts) (rtA rtB : Nat) : Chip :=
  nodeNums.foldl (takeLock a b (surveyOk 0 496 a) (surveyOk 1 496 b)) (takeRoundTrips (noteWraps s a b own) rtA rtB)

/-- Both DELAY copies are valid and written by every found node (07 R315). -/
def delaysWritten (s : Chip) (a b : List Byte) : Bool :=
  surveyOk 0 496 a && surveyOk 1 496 b && s.ewn.found.all (fun d => (delayEntry a d).written && (delayEntry b d).written)

/-- The Poermun with all that a DELAY round measures taken, before any node departs (07 R313, R315, R316, R339, R349). -/
def measured (s : Chip) (a b : List Byte) (own : OwnPorts) (depA depB rtA rtB : Nat) : Chip :=
  let y := locksTaken s a b own rtA rtB
  takeMargin (if delaysWritten y a b then checkSymmetry (y.ewn.found.foldl (takeDelays a b rtA depA depB) y) a b else y)

/-- The Poermun after the departures that a DELAY round finds (07 R326). -/
def departed (s : Chip) : Chip := nodeNums.foldl delayDepart s

theorem delayReturn_inRound {s : Chip} (h : s.ewn.stage = 2 ∨ s.ewn.stage = 3) (a b : List Byte) (own : OwnPorts) (depA depB rtA rtB : Nat) :
    delayReturn s a b own depA depB rtA rtB = departed (measured s a b own depA depB rtA rtB) :=
  if_neg (by omega)

theorem locksTaken_ewn (s : Chip) (a b : List Byte) (own : OwnPorts) (rtA rtB : Nat) :
    (locksTaken s a b own rtA rtB).ewn = (takeRoundTrips (noteWraps s a b own) rtA rtB).ewn :=
  foldl_keeps Chip.ewn (takeLock_ewn a b _ _) _ _

theorem measured_view (s : Chip) (a b : List Byte) (own : OwnPorts) (depA depB rtA rtB d : Nat) :
    roundView d (measured s a b own depA depB rtA rtB) =
      (wn (tripA s rtA % 65536), wn (tripB s rtB % 65536), decide (tripA s rtA > 48000) || decide (tripB s rtB > 48000), nodeState s d) := by
  have hlocks : roundView d (locksTaken s a b own rtA rtB) = roundView d (takeRoundTrips (noteWraps s a b own) rtA rtB) :=
    foldl_keeps (roundView d) (fun x e => takeLock_view a b _ _ x e d) _ _
  unfold measured
  extract_lets y
  rw [takeMargin_view]
  refine Eq.trans ?_ (hlocks.trans (takeRoundTrips_view ..))
  split
  · exact (checkSymmetry_view ..).trans (foldl_keeps (roundView d) (f := takeDelays a b rtA depA depB) (fun _ _ => rfl) _ _)
  · rfl

theorem measured_delays {s : Chip} {a b : List Byte} (hall : delaysWritten s a b = true) (hl : s.ewn.found.Nodup) {d : Nat}
    (hd : d ∈ s.ewn.found) (own : OwnPorts) (depA depB rtA rtB : Nat) :
    let n := nodeDelays a b s.ewn.found rtA depA depB d
    let x := measured s a b own depA depB rtA rtB
    (nodeSt x d).hisA = (n.1 :: (nodeSt s d).hisA).take 8 ∧ (nodeSt x d).hisB = (n.2 :: (nodeSt s d).hisB).take 8 := by
  intro n x
  have hewn := locksTaken_ewn s a b own rtA rtB
  have hfound : (locksTaken s a b own rtA rtB).ewn.found = s.ewn.found := (congrArg Ewene.found hewn :)
  have hnodes : nodeSt (locksTaken s a b own rtA rtB) d = nodeSt s d := nodeSt_congr (congrArg Ewene.nodes hewn :) d
  have hx : nodeSt x d = nodeSt (s.ewn.found.foldl (takeDelays a b rtA depA depB) (locksTaken s a b own rtA rtB)) d := by
    refine nodeSt_congr ?_ d
    unfold x measured
    extract_lets y
    have hyfound : y.ewn.found = s.ewn.found := hfound
    have hyall : delaysWritten y a b = true := by rw [delaysWritten, hyfound]; exact hall
    rw [takeMargin_ewn, if_pos hyall, checkSymmetry_ewn, hyfound]
  have htaken := foldl_takeDelays a b rtA depA depB (locksTaken s a b own rtA rtB) (hfound.symm ▸ hl) (hfound.symm ▸ hd)
  rw [hfound, hnodes] at htaken
  rw [hx]
  exact htaken

/-! ### Departures -/

theorem delayCauses_congr {s x : Chip} {d : Nat} (hcfg : x.ewn.nodeCfg = s.ewn.nodeCfg)
    (hdelays : (nodeSt x d).hisA = (nodeSt s d).hisA ∧ (nodeSt x d).hisB = (nodeSt s d).hisB)
    (hlock : x.rdBit (Reg.ewnNstat d) 7 = s.rdBit (Reg.ewnNstat d) 7) (hlong : x.rdBit Reg.ewnSurvstat 4 = s.rdBit Reg.ewnSurvstat 4) :
    delayCauses x d = delayCauses s d := by
  have hbounds : delayInBounds x d = delayInBounds s d := by
    rw [delayInBounds, hcfg, hdelays.1, hdelays.2, delayInBounds]
  rw [delayCauses, hbounds, hdelays.1, hlock, hlong, delayCauses]

/-- A DELAY round finds no other causes than DELAY, LOCK and RTLONG (07 R326). -/
theorem mem_delayCauses {s : Chip} {d c : Nat} (h : c ∈ delayCauses s d) : c = 1 ∨ c = 4 ∨ c = 8 := by
  simp only [delayCauses, List.mem_append, List.mem_ite_nil_right, List.mem_singleton] at h
  omega

theorem firstCause_delayCauses {s : Chip} {d : Nat} (h : delayCauses s d ≠ []) : ∃ c, firstCause (delayCauses s d) = some c := by
  obtain ⟨c, hc⟩ := List.exists_mem_of_ne_nil _ h
  have horder : c ∈ [3, 6, 5, 1, 4, 8, 2, 7] := by
    rcases mem_delayCauses hc with rfl | rfl | rfl <;> decide
  exact Option.isSome_iff_exists.1 (List.find?_isSome.2 ⟨c, horder, List.contains_iff_mem.2 hc⟩)

/-- A node in SEAT for which causes are found, but neither GONE nor MAILFAIL, is in MAIL (07 R326, R327). -/
theorem applyCauses_seat {s : Chip} {d c : Nat} {cs : List Nat} (hd : d ≤ 62) (hseat : nodeState s d = 3) (hc : firstCause cs = some c)
    (hgone : 6 ∉ cs) (hfail : 5 ∉ cs) : nodeState (applyCauses s d cs) d = 2 := by
  have hg : cs.contains 6 = false := by simpa using hgone
  have hf : cs.contains 5 = false := by simpa using hfail
  have hleft : nodeState (noteDeparture s d c) d = 3 := (noteDeparture_state s hd c).trans hseat
  have heq : applyCauses s d cs = syncCred (setNodeState (noteDeparture s d c) d 2) d := by
    simp only [applyCauses, hc, hg, hf, hseat, hleft, Bool.or_self, Bool.false_eq_true, if_true, if_false]
  rw [heq, syncCred, Chip.wrF, nodeState_congr (Chip.rd_wr_ne _ _ (nstat_ne_nmail d)), nodeState_setNodeState _ _ (by decide)]

/-- The state in which a DELAY round leaves a node (07 R326, R327). -/
def departState (s : Chip) (d : Nat) : Nat := if nodeState s d = 3 ∧ delayCauses s d ≠ [] then 2 else nodeState s d

theorem delayDepart_state (s : Chip) {d : Nat} (hd : d ≤ 62) : nodeState (delayDepart s d) d = departState s d := by
  unfold delayDepart departState
  by_cases hseat : nodeState s d = 3
  · rw [if_pos hseat]
    by_cases hnone : delayCauses s d = []
    · rw [hnone, if_neg (fun h => h.2 rfl)]
      rfl
    · obtain ⟨c, hc⟩ := firstCause_delayCauses hnone
      have hkind : ∀ k, k ≠ 1 → k ≠ 4 → k ≠ 8 → k ∉ delayCauses s d := fun k h1 h4 h8 hk => by
        have := mem_delayCauses hk
        omega
      rw [if_pos ⟨hseat, hnone⟩]
      exact applyCauses_seat hd hseat hc (hkind 6 (by decide) (by decide) (by decide)) (hkind 5 (by decide) (by decide) (by decide))
  · rw [if_neg hseat, if_neg (fun h => hseat h.1)]

/-- A node's departure leaves the causes found for every node. -/
theorem Departs.causes {d e : Nat} {s x : Chip} (h : Departs e s x) (he : e ≤ 62) (hd : d ≤ 62) : delayCauses x d = delayCauses s d := by
  obtain ⟨hstat, -, -, -, hsurv⟩ := surveyRegs_apart he hd
  have hlock : x.rdBit (Reg.ewnNstat d) 7 = s.rdBit (Reg.ewnNstat d) 7 := by
    by_cases hde : d = e
    · rw [hde]
      exact h.lock
    · rw [Chip.rdBit, h.regs _ (hstat hde), Chip.rdBit]
  exact delayCauses_congr h.cfg (h.delays d) hlock (by rw [Chip.rdBit, h.regs _ hsurv, Chip.rdBit])

theorem delayDepart_departs (s : Chip) {e : Nat} (he : e ∈ nodeNums) : e ≤ 62 ∧ Departs e s (delayDepart s e) :=
  ⟨(mem_nodeNums.1 he).2, (Departs.refl e s).delayDepart (mem_nodeNums.1 he).2⟩

theorem departed_causes (s : Chip) {d : Nat} (hd : d ≤ 62) : delayCauses (departed s) d = delayCauses s d :=
  foldl_keeps_mem (fun x => delayCauses x d) (fun x _ he => (delayDepart_departs x he).2.causes (delayDepart_departs x he).1 hd) s

theorem departed_delays (s : Chip) (d : Nat) :
    (nodeSt (departed s) d).hisA = (nodeSt s d).hisA ∧ (nodeSt (departed s) d).hisB = (nodeSt s d).hisB :=
  ⟨foldl_keeps_mem (fun x => (nodeSt x d).hisA) (fun x _ he => ((delayDepart_departs x he).2.delays d).1) s,
    foldl_keeps_mem (fun x => (nodeSt x d).hisB) (fun x _ he => ((delayDepart_departs x he).2.delays d).2) s⟩

/-- The departures leave the round trips and RTLONG. -/
theorem departed_trips (s : Chip) {r : Nat} (hr : r ∈ [Reg.ewnRta, Reg.ewnRtb, Reg.ewnSurvstat]) : (departed s).rd r = s.rd r := by
  refine foldl_keeps_mem (fun x => x.rd r) (fun x e he => (delayDepart_departs x he).2.regs r ?_) s
  obtain ⟨-, -, ha, hb, hs⟩ := surveyRegs_apart (mem_nodeNums.1 he).2 (mem_nodeNums.1 he).2
  simp only [List.mem_cons, List.not_mem_nil, or_false] at hr
  rcases hr with rfl | rfl | rfl <;> assumption

theorem departed_state (s : Chip) {d : Nat} (hlo : 1 ≤ d) (hhi : d ≤ 62) : nodeState (departed s) d = departState s d := by
  obtain ⟨y, hy, hend⟩ := foldl_node (fun x => (nodeState x d, delayCauses x d)) (f := delayDepart) nodeNums_nodup (mem_nodeNums.2 ⟨hlo, hhi⟩)
    (fun x e he hne => Prod.ext
      (nodeState_congr ((delayDepart_departs x he).2.regs _ ((surveyRegs_apart (mem_nodeNums.1 he).2 hhi).1 hne.symm)))
      ((delayDepart_departs x he).2.causes (mem_nodeNums.1 he).2 hhi)) s
  obtain ⟨hstate, hcauses⟩ := Prod.mk.inj hy
  have hfold : nodeState (departed s) d = nodeState (delayDepart y d) d := congrArg Prod.fst hend
  rw [hfold, delayDepart_state y hhi, departState, hstate, hcauses, departState]

/-! ### The DELAY returns -/

theorem exec_delayReturn (a b : List Byte) (own : OwnPorts) (depA depB rtA rtB : Word) (st : State) :
    exec (.delayReturn a b own depA depB rtA rtB) st = finish st (fun s => syncSeatPend
      (delayReturn s (heard s 0 own.a a) (heard s 1 own.b b) own depA.toNat depB.toNat rtA.toNat rtB.toNat)) := rfl

/-- The Poermun as a DELAY round leaves it that has measured `s`: the nodes have departed, and the nodes waited for are told (07 R326, 18 R828). -/
def roundEnd (s : Chip) : Chip := syncSeatPend (departed s)

theorem completes_delayReturn {s : State} {a b : List Byte} {own : OwnPorts} {depA depB rtA rtB : Word}
    (h : s.chip.ewn.stage = 2 ∨ s.chip.ewn.stage = 3) {P : Chip → Prop}
    (hP : P (roundEnd (measured s.chip (heard s.chip 0 own.a a) (heard s.chip 1 own.b b) own depA.toNat depB.toNat rtA.toNat rtB.toNat))) :
    Completes (.delayReturn a b own depA depB rtA rtB) s P :=
  ⟨_, by rw [exec_delayReturn, finish_eq, delayReturn_inRound h, roundEnd], hP⟩

theorem roundEnd_trips (s : Chip) {r : Nat} (hr : r ∈ [Reg.ewnRta, Reg.ewnRtb, Reg.ewnSurvstat]) : (roundEnd s).rd r = s.rd r :=
  (syncSeatPend_keepsRegs _ r (by revert r; decide)).trans (departed_trips s hr)

theorem roundEnd_delays (s : Chip) (d : Nat) :
    (nodeSt (roundEnd s) d).hisA = (nodeSt s d).hisA ∧ (nodeSt (roundEnd s) d).hisB = (nodeSt s d).hisB := by
  have hnode : nodeSt (roundEnd s) d = nodeSt (departed s) d := nodeSt_congr (by rw [roundEnd, syncSeatPend_ewn]) d
  rw [hnode]
  exact departed_delays s d

/-- The causes for which nodes have departed still stand at the round's end. -/
theorem roundEnd_causes (s : Chip) {d : Nat} (hd : d ≤ 62) : delayCauses (roundEnd s) d = delayCauses s d := by
  refine Eq.trans (delayCauses_congr (by rw [roundEnd, syncSeatPend_ewn]) (delays_congr (by rw [roundEnd, syncSeatPend_ewn]) d) ?_ ?_)
    (departed_causes s hd)
  · rw [Chip.rdBit, roundEnd, syncSeatPend_keepsRegs _ _ (nodeRegs_notSeatPend d).2, Chip.rdBit]
  · rw [Chip.rdBit, roundEnd, syncSeatPend_keepsRegs _ _ (by decide), Chip.rdBit]

theorem roundEnd_state (s : Chip) {d : Nat} (hlo : 1 ≤ d) (hhi : d ≤ 62) :
    nodeState (roundEnd s) d = if nodeState s d = 3 ∧ delayCauses (roundEnd s) d ≠ [] then 2 else nodeState s d := by
  rw [roundEnd_causes s hhi, roundEnd, syncSeatPend_state, departed_state s hlo hhi, departState]

/-- Settles O25: an ENUM's return is a fold that gives each node the state `enumState` of its own (`enumNode_state`); a DELAY's return measures
first, which no departure touches (`Departs`), and then each node departs for the causes that still stand at the end (`roundEnd_causes`). -/
theorem surveyRoundFindsAndMeasures : Obligations.SurveyRoundFindsAndMeasures := by
  unfold Obligations.SurveyRoundFindsAndMeasures
  intro s
  refine ⟨fun hstill hresend => ⟨fun hstage hsent hnow => ?_, fun hno => ?_⟩, fun a b own hstage => ?_,
    fun a b own depA depB rtA rtB hstage _ hnodup => ?_⟩
  · obtain ⟨sseq, sent, line, wire, heq⟩ := sendEnum_eq s.chip
    refine ⟨_, exec_surveyRoundStart_due hstill hresend hstage hsent, by rw [heq], sendEnum_leaves hstage hsent hnow⟩
  · rw [exec_surveyRoundStart, finish_eq, if_neg (by rcases hno with h | h <;> simp [h]), settle_still hstill]
  · intro a' b'
    refine completes_enumReturn fun x hfound hstate => ?_
    rw [enumReturn_found hstage] at hfound
    refine ⟨hfound, fun hbad => hfound.trans (List.filter_eq_nil_iff.2 fun d _ => ?_), fun d hlo hhi => ?_⟩
    · rw [isFound_of_bad hbad]
      decide
    · exact (hstate d).trans (enumReturn_state hstage a' b' own hlo hhi)
  · refine completes_delayReturn hstage ?_
    intro a' b' ra rb
    have hview := measured_view s.chip a' b' own depA.toNat depB.toNat rtA.toNat rtB.toNat
    simp only [roundView, Prod.mk.injEq] at hview
    obtain ⟨hrta, hrtb, hlong, -⟩ := hview 0
    refine ⟨(roundEnd_trips _ (by simp)).trans hrta, (roundEnd_trips _ (by simp)).trans hrtb, ?_, fun hA hB hw d hd => ?_, fun d hlo hhi => ?_⟩
    · rw [Chip.rdBit, roundEnd_trips _ (by simp)]
      exact hlong
    · have hall : delaysWritten s.chip a' b' = true := by simpa [delaysWritten, hA, hB] using hw
      obtain ⟨hda, hdb⟩ := measured_delays hall hnodup hd own depA.toNat depB.toNat rtA.toNat rtB.toNat
      obtain ⟨hea, heb⟩ := roundEnd_delays (measured s.chip a' b' own depA.toNat depB.toNat rtA.toNat rtB.toNat) d
      exact ⟨hea.trans hda, heb.trans hdb⟩
    · obtain ⟨-, -, -, hstate⟩ := hview d
      exact hstate ▸ roundEnd_state _ hlo hhi

end Sys2Proof.Machine
end

section
/-!
PROOFS of the CAN channels (08). A channel's window by offset: where its registers stand, and what each shared operation of a channel leaves of
the window and of the channel's further state.
-/

namespace Sys2Proof.Machine

/-! ### Words of a window -/

/-- The registers of a channel stand in its window (R383). -/
theorem canRegs_at (n : Nat) :
    (Reg.canTdc n = canBase n + 0x0C ∧ Reg.canStat n = canBase n + 0x10 ∧ Reg.canCfgerr n = canBase n + 0x14 ∧
      Reg.canTxpend0 n = canBase n + 0x28 ∧ Reg.canTxpend1 n = canBase n + 0x2C ∧ Reg.canRxhead n = canBase n + 0x30 ∧
      Reg.canRxtail n = canBase n + 0x34 ∧ Reg.canSchcfg n = canBase n + 0x38) ∧
    (Reg.canRxcnt n = canBase n + 0x40 ∧ Reg.canRxlost n = canBase n + 0x44 ∧ Reg.canRxnomatch n = canBase n + 0x48 ∧
      Reg.canShortcnt n = canBase n + 0x4C ∧ Reg.canTxsent n = canBase n + 0x50 ∧ Reg.canTxlate n = canBase n + 0x54 ∧
      Reg.canTxskip n = canBase n + 0x58 ∧ Reg.canNarrow n = canBase n + 0x5C ∧ Reg.canBuserr n = canBase n + 0x60 ∧
      Reg.canBoffcnt n = canBase n + 0x64) ∧
    (Reg.canEvt n = canBase n + 0x70 ∧ Reg.canEvten n = canBase n + 0x74) := by
  unfold canBase Reg.canTdc Reg.canStat Reg.canCfgerr Reg.canTxpend0 Reg.canTxpend1 Reg.canRxhead Reg.canRxtail Reg.canSchcfg Reg.canRxcnt
    Reg.canRxlost Reg.canRxnomatch Reg.canShortcnt Reg.canTxsent Reg.canTxlate Reg.canTxskip Reg.canNarrow Reg.canBuserr Reg.canBoffcnt
    Reg.canEvt Reg.canEvten
  omega

section Words
variable (s : Chip) (n : Nat)

/-- A word of the window read by its address. -/
theorem rd_canBase (o : Nat) : s.rd (canBase n + o) = canWord s n o := rfl

/-- CANn_CTL is the first word. -/
theorem rd_canCtl : s.rd (Reg.canCtl n) = canWord s n 0 := rfl

theorem canWord_congr {s x : Chip} (h : x.regs = s.regs) (n o : Nat) : canWord x n o = canWord s n o := Chip.rd_congr h _

theorem canWord_wr (o p : Nat) (w : Word) : canWord (s.wr (canBase n + p) w) n o = if o = p then w else canWord s n o := by
  simp only [canWord, Chip.rd_wr, Nat.add_right_inj]

theorem canWord_wrF (hi lo o p v : Nat) :
    canWord (s.wrF (canBase n + p) hi lo v) n o = if o = p then setFld (canWord s n p) hi lo v else canWord s n o := canWord_wr ..

theorem canWord_wrBit (b o p : Nat) (v : Bool) :
    canWord (s.wrBit (canBase n + p) b v) n o = if o = p then setBit (canWord s n p) b v else canWord s n o := canWord_wr ..

theorem canWord_bump (o p : Nat) : canWord (s.bump (canBase n + p)) n o = if o = p then canWord s n p + 1 else canWord s n o := canWord_wr ..

theorem canWord_bumpBy (o p k : Nat) :
    canWord (s.bumpBy (canBase n + p) k) n o = if o = p then canWord s n p + wn k else canWord s n o := canWord_wr ..

@[simp] theorem canWord_setCan (m o : Nat) (c : CanChan) : canWord (setCan s m c) n o = canWord s n o := rfl
@[simp] theorem canWord_ledCan (ch j k o : Nat) : canWord (s.ledCan ch j k) n o = canWord s n o := rfl
@[simp] theorem canWord_clearFlips (a k o : Nat) : canWord (clearFlips s a k) n o = canWord s n o := rfl

@[simp] theorem canWord_odoInc (k j o : Nat) : canWord (s.odoInc k j) n o = canWord s n o :=
  s.odoInc_rd_ne k j (by
    have hodo : Reg.odoEvt < 0x11200000 := by decide
    unfold canBase
    omega)

@[simp] theorem canWord_canFlag (e o : Nat) :
    canWord (s.canFlag n e) n o = if o = 0x70 then setBit (canWord s n 0x70) e true else canWord s n o := by
  rw [Chip.canFlag, canWord_congr (Chip.flag_regs ..), (canRegs_at n).2.2.1, canWord_wrBit]

@[simp] theorem canWord_canRefuse (code off o : Nat) : canWord (canRefuse s n code off) n o =
    if o = 0x70 then setBit (canWord s n 0x70) 9 true else if o = 0x14 then wn (code * 2 ^ 28 + off) else canWord s n o := by
  simp [canRefuse, canRegs_at, canWord_wr]

/-- Showing the state writes CANn_STAT alone. -/
theorem canWord_syncCanStat {o : Nat} (h : o ≠ 0x10) : canWord (syncCanStat s n) n o = canWord s n o := by
  simp [syncCanStat, canRegs_at, canWord_wrF, canWord_wrBit, h]

/-- LEC stays as it is when the state is shown (R387). -/
theorem lec_syncCanStat : fld (canWord (syncCanStat s n) n 0x10) 29 27 = fld (canWord s n 0x10) 29 27 := by
  simp [syncCanStat, canRegs_at, canWord_wrF, canWord_wrBit, fld_setFld_disj, fld_setBit]

theorem canWord_syncCanPend {o : Nat} (h0 : o ≠ 0x28) (h1 : o ≠ 0x2C) : canWord (syncCanPend s n) n o = canWord s n o := by
  simp [syncCanPend, canRegs_at, canWord_wr, h0, h1]

end Words

/-! ### A channel's further state -/

section Channel
variable (s : Chip) (n : Nat)

theorem canSt_congr {s x : Chip} (h : x.can = s.can) (n : Nat) : canSt x n = canSt s n := by
  rw [canSt, canSt, h]

@[simp] theorem canSt_setCan (c : CanChan) : canSt (setCan s n c) n = c := Tab.get_set_self ..

@[simp] theorem canSt_wr (a : Nat) (w : Word) : canSt (s.wr a w) n = canSt s n := rfl
@[simp] theorem canSt_atPhase (p : Nat) : canSt (s.atPhase p) n = canSt s n := rfl
@[simp] theorem canSt_ledCan (ch j k : Nat) : canSt (s.ledCan ch j k) n = canSt s n := rfl
@[simp] theorem canSt_syncCanStat (m : Nat) : canSt (syncCanStat s m) n = canSt s n := rfl
@[simp] theorem canSt_syncCanPend (m : Nat) : canSt (syncCanPend s m) n = canSt s n := rfl
@[simp] theorem canSt_odoInc (k j : Nat) : canSt (s.odoInc k j) n = canSt s n := canSt_congr (by simp) n
@[simp] theorem canSt_canFlag (m e : Nat) : canSt (s.canFlag m e) n = canSt s n := canSt_congr (by simp [Chip.canFlag]) n
@[simp] theorem canSt_canRefuse (m code off : Nat) : canSt (canRefuse s m code off) n = canSt s n := by simp [canRefuse]

/-- The state on the bus follows from CANn_CTL and the channel's further state (R387). -/
theorem canBusState_congr {s x : Chip} {n : Nat} (hw : canWord x n 0 = canWord s n 0) (hc : canSt x n = canSt s n) :
    canBusState x n = canBusState s n := by
  rw [canBusState, canBusState, Chip.rdBit, Chip.rdBit, rd_canCtl, rd_canCtl, hw, hc]

/-- A channel in a running state has not counted up to bus-off, and has joined (R376, R381). -/
theorem canBusState_active {s : Chip} {n : Nat} (h : canBusState s n = 1 ∨ canBusState s n = 2) : (canSt s n).tec ≤ 255 := by
  unfold canBusState at h
  dsimp only at h
  split at h
  · simp at h
  · split at h
    · simp at h
    · omega

end Channel

/-! ### The end of a transmission -/

/-- Where RESULT of a buffer stands in the window (R364, R368). -/
abbrev resultAt (b : Nat) : Nat := 0x2000 + 0x80 * b + 76

section Retire
variable (s : Chip) (n : Nat) (p : CanPend)

/-- The word that RESULT takes (R368): the low bits are the code. -/
theorem fld_result (stamp : Nat) {code : Nat} (h : code < 65536) : fld (wn (stamp % 65536 * 65536 + code)) 15 0 = code := by
  have hlt : stamp % 65536 < 65536 := Nat.mod_lt _ (by decide)
  unfold fld wn
  rw [BitVec.toNat_ofNat]
  omega

theorem resultAt_eq (n b : Nat) : canBase n + 0x2000 + 0x80 * b + 76 = canBase n + resultAt b := by
  unfold resultAt
  omega

/-- RESULT's word (R368): the tick of the last start of frame, a free value where there was none, and the code. -/
def resultWord (code : Nat) : Word := wn ((match p.sof with
  | some t => t
  | none => Config.freeNat s.draws) % 65536 * 65536 + code)

/-- The part that every result has: RESULT, and the exit of the ledger (R368). -/
def retired (code : Nat) : Chip :=
  ((if p.sof.isSome then s else s.draw).wr (canBase n + resultAt p.buf) (resultWord s p code)).ledCan n (canExit code) 1

/-- Beside what every result has, SENT and LATE are counted and flagged. -/
theorem canRetire_eq (code : Nat) : canRetire s n p code =
    if code = 1 then ((retired s n p code).bump (Reg.canTxsent n)).canFlag n 2
    else if code = 2 then ((retired s n p code).bump (Reg.canTxlate n)).canFlag n 3
    else retired s n p code := by
  unfold canRetire retired resultWord
  rw [resultAt_eq]
  cases p.sof <;> rfl

variable {s n p}

theorem canWord_retired (code o : Nat) :
    canWord (retired s n p code) n o = if o = resultAt p.buf then resultWord s p code else canWord s n o := by
  unfold retired
  rw [canWord_ledCan, canWord_wr]
  split
  · rfl
  · split <;> rfl

/-- RESULT holds the code (R368). -/
theorem canRetire_result {code : Nat} (h : code < 65536) : fld (canWord (canRetire s n p code) n (resultAt p.buf)) 15 0 = code := by
  have hapart : resultAt p.buf ≠ 0x50 ∧ resultAt p.buf ≠ 0x54 ∧ resultAt p.buf ≠ 0x70 := by
    unfold resultAt
    omega
  obtain ⟨h1, h2, h3⟩ := hapart
  have hword : canWord (canRetire s n p code) n (resultAt p.buf) = resultWord s p code := by
    rw [canRetire_eq]
    split
    · simp only [canRegs_at, canWord_canFlag, canWord_bump, h1, h3, if_false, canWord_retired, if_true]
    · split
      · simp only [canRegs_at, canWord_canFlag, canWord_bump, h2, h3, if_false, canWord_retired, if_true]
      · simp only [canWord_retired, if_true]
  rw [hword]
  exact fld_result _ h

/-- A retirement writes RESULT, and for SENT and LATE a counter and CANn_EVT. -/
theorem canWord_canRetire {code o : Nat} (hr : o ≠ resultAt p.buf) (hc : code = 1 ∨ code = 2 → o ≠ 0x50 ∧ o ≠ 0x54 ∧ o ≠ 0x70) :
    canWord (canRetire s n p code) n o = canWord s n o := by
  have hbase : canWord (retired s n p code) n o = canWord s n o := by
    rw [canWord_retired, if_neg hr]
  rw [canRetire_eq]
  split
  · next h =>
    obtain ⟨h1, -, h3⟩ := hc (.inl h)
    simpa [canRegs_at, canWord_bump, h1, h3] using hbase
  · split
    · next h =>
      obtain ⟨-, h2, h3⟩ := hc (.inr h)
      simpa [canRegs_at, canWord_bump, h2, h3] using hbase
    · exact hbase

/-- SENT is counted and flagged (R368, R392, R393). -/
theorem canRetire_sent : canWord (canRetire s n p 1) n 0x50 = canWord s n 0x50 + 1 ∧ bit (canWord (canRetire s n p 1) n 0x70) 2 = true := by
  have hne : 0x50 ≠ resultAt p.buf := by
    unfold resultAt
    omega
  rw [canRetire_eq, if_pos rfl]
  refine ⟨?_, ?_⟩
  · simp [canRegs_at, canWord_bump, canWord_retired, hne]
  · simp [bit_setBit_self]

/-- LATE is counted (R373, R392). -/
theorem canRetire_late : canWord (canRetire s n p 2) n 0x54 = canWord s n 0x54 + 1 := by
  have hne : 0x54 ≠ resultAt p.buf := by
    unfold resultAt
    omega
  rw [canRetire_eq, if_neg (by decide), if_pos rfl]
  simp [canRegs_at, canWord_bump, canWord_retired, hne]

theorem retired_can (code : Nat) : (retired s n p code).can = s.can := by
  unfold retired
  split <;> rfl

theorem canRetire_can (code : Nat) : (canRetire s n p code).can = s.can := by
  rw [canRetire_eq]
  split
  · simp [Chip.canFlag, retired_can]
  · split <;> simp [Chip.canFlag, retired_can]

@[simp] theorem canSt_canRetire (code m : Nat) : canSt (canRetire s n p code) m = canSt s m := canSt_congr (canRetire_can code) m

end Retire
end Sys2Proof.Machine
end

section
/-!
PROOFS of the CAN channels (08). Requests and aborts of transmissions, and a register of a channel written by an agent.
-/

namespace Sys2Proof.Machine

/-! ### A register written -/

/-- A write by an agent that may write a register outside the tiles is the write of its row. -/
theorem regCmd_row {s : Chip} {who : Agent} {a b u o : Nat} {r : RegRow} (hp : placeOf a = some (.reg b u o r)) (hb : b ≠ 32)
    (hm : MayWrite s who a) (v : Word) :
    regCmd s who a v = answerWrite (agentSrc who) a v (writeRow s (agentSrc who) a b u o r v false) := by
  obtain ⟨hcore, hans, hauth⟩ := hm
  unfold regCmd regWrite
  simp only [hp, hcore, hans, hauth, Bool.and_false, Bool.not_true, Bool.false_eq_true, if_false, placeWrite, if_neg hb]

/-- A register of a channel whose bits are set by writing 1, and that acts. -/
def oneRow (o : Nat) : RegRow := ⟨o, 1, 4, 0, 0, 0, 0xFFFFFFFF, 0, 0, 0, 0, 0, 0, 0⟩

theorem placeOf_canTx (n : Fin 8) :
    placeOf (Reg.canTxreq0 n.val) = some (.reg 18 n.val 0x18 (oneRow 0x18)) ∧
      placeOf (Reg.canTxreq1 n.val) = some (.reg 18 n.val 0x1C (oneRow 0x1C)) ∧
      placeOf (Reg.canTxabort0 n.val) = some (.reg 18 n.val 0x20 (oneRow 0x20)) ∧
      placeOf (Reg.canTxabort1 n.val) = some (.reg 18 n.val 0x24 (oneRow 0x24)) := by
  revert n
  decide

/-- Such a register has no CS bits and no range, so its write acts, whether the channel names a refusal or not. -/
theorem regCmd_acts {s : Chip} {who : Agent} {a n o : Nat} (hp : placeOf a = some (.reg 18 n o (oneRow o))) (hm : MayWrite s who a) (v : Word)
    (hr : rangeCode s 18 n o a v = 0) {x : Chip} (hx : actingWrite s (agentSrc who) a 18 n o v false = some x) : regCmd s who a v = x := by
  have hcs : ((v ^^^ s.rd a) &&& wn (oneRow o).cs) = 0 := by
    show (v ^^^ s.rd a) &&& 0#32 = 0
    exact BitVec.and_zero
  rw [regCmd_row hp (by decide) hm, writeRow]
  simp only [hcs, bne_self_eq_false, Bool.and_false, Bool.false_eq_true, if_false, hr, ne_eq, not_true_eq_false, hx]
  split <;> rfl

theorem regCmd_canTxreq {s : Chip} {who : Agent} {n : Fin 8} {hi : Bool} {mask : Word}
    (hm : MayWrite s who (if hi then Reg.canTxreq1 n.val else Reg.canTxreq0 n.val)) :
    regCmd s who (if hi then Reg.canTxreq1 n.val else Reg.canTxreq0 n.val) mask = canTxreq s n.val hi mask := by
  obtain ⟨hreq0, hreq1, -, -⟩ := placeOf_canTx n
  cases hi
  · exact regCmd_acts hreq0 hm mask rfl rfl
  · exact regCmd_acts hreq1 hm mask rfl rfl

theorem regCmd_canTxabort {s : Chip} {who : Agent} {n : Fin 8} {hi : Bool} {mask : Word}
    (hm : MayWrite s who (if hi then Reg.canTxabort1 n.val else Reg.canTxabort0 n.val)) :
    regCmd s who (if hi then Reg.canTxabort1 n.val else Reg.canTxabort0 n.val) mask = canTxabort s n.val hi mask := by
  obtain ⟨-, -, habort0, habort1⟩ := placeOf_canTx n
  cases hi
  · exact regCmd_acts habort0 hm mask rfl rfl
  · exact regCmd_acts habort1 hm mask rfl rfl

/-- The buffers that a mask of TXREQ or TXABORT names, in rising order (R389). -/
def namedBufs (hi : Bool) (mask : Word) : List Nat := ((List.range 32).filter (fun j => bit mask j)).map (fun j => j + 32 * b2n hi)

theorem mem_namedBufs {hi : Bool} {mask : Word} {b : Nat} : b ∈ namedBufs hi mask ↔ b / 32 = b2n hi ∧ bit mask (b % 32) = true := by
  simp only [namedBufs, List.mem_map, List.mem_filter, List.mem_range]
  constructor
  · rintro ⟨j, ⟨hj, hbit⟩, rfl⟩
    have hdiv : (j + 32 * b2n hi) / 32 = b2n hi := by omega
    have hmod : (j + 32 * b2n hi) % 32 = j := by omega
    exact ⟨hdiv, hmod.symm ▸ hbit⟩
  · rintro ⟨hdiv, hbit⟩
    exact ⟨b % 32, ⟨Nat.mod_lt _ (by decide), hbit⟩, by omega⟩

theorem namedBufs_nodup (hi : Bool) (mask : Word) : (namedBufs hi mask).Nodup :=
  (List.nodup_range.filter _).map fun _ _ h => Nat.add_right_cancel h

/-- What is done for each bit of the mask is done for each buffer named. -/
theorem foldl_namedBufs (f : Chip → Nat → Chip) (hi : Bool) (mask : Word) (s : Chip) :
    (List.range 32).foldl (fun x j => if bit mask j then f x (j + 32 * b2n hi) else x) s = (namedBufs hi mask).foldl f s := by
  rw [namedBufs, List.foldl_map, List.foldl_filter]

/-! ### Requests -/

/-- A buffer that a request makes pending (R366, R369). -/
def requestable (s : Chip) (n b : Nat) : Bool := canOn s n && !s.rdBit (Reg.canCtl n) 3 && !bufSched s n b && !bufBusy s n b

/-- A requested transmission: the buffer's words are copied (R365). -/
def requested (s : Chip) (n b : Nat) : CanPend := ⟨b, false, 0, 0, bufWords s n b, none, false⟩

theorem canRequest_eq (s : Chip) (n b : Nat) : canRequest s n b =
    if requestable s n b then makePending s n b false 0 0 else canRefuse s n 3 (if b < 32 then 0x18 else 0x1C) := by
  unfold canRequest requestable
  cases canOn s n <;> cases s.rdBit (Reg.canCtl n) 3 <;> cases bufSched s n b <;> cases bufBusy s n b <;> rfl

section Request
variable {s : Chip} {n b : Nat}

theorem canWord_makePending {sched : Bool} {rel win o : Nat} (h0 : o ≠ 0x28) (h1 : o ≠ 0x2C) :
    canWord (makePending s n b sched rel win) n o = canWord s n o := by
  rw [makePending, canWord_syncCanPend _ _ h0 h1]
  rfl

theorem canSt_makePending (sched : Bool) (rel win : Nat) : canSt (makePending s n b sched rel win) n =
    { canSt s n with pend := (canSt s n).pend ++ [⟨b, sched, rel, win, bufWords s n b, none, false⟩] } := by
  simp [makePending]

/-- A request writes CANn_CFGERR, CANn_EVT and the pending registers at most. -/
theorem canWord_canRequest {o : Nat} (h : o ∉ [0x14, 0x28, 0x2C, 0x70]) : canWord (canRequest s n b) n o = canWord s n o := by
  simp only [List.mem_cons, List.not_mem_nil, or_false, not_or] at h
  obtain ⟨herr, h0, h1, hevt⟩ := h
  rw [canRequest_eq]
  split
  · exact canWord_makePending h0 h1
  · simp [herr, hevt]

theorem canSt_canRequest : canSt (canRequest s n b) n =
    { canSt s n with pend := (canSt s n).pend ++ if requestable s n b then [requested s n b] else [] } := by
  rw [canRequest_eq]
  split
  · exact canSt_makePending ..
  · simp

/-- The words of a buffer are read from the window alone. -/
theorem bufWords_congr {x : Chip} (h : ∀ o, 0x2000 + 0x80 * b ≤ o → o < 0x2000 + 0x80 * b + 72 → canWord x n o = canWord s n o) :
    bufWords x n b = bufWords s n b :=
  List.map_congr_left fun i hi => by
    have hlt : i < 18 := List.mem_range.1 hi
    exact h _ (by omega) (by omega)

/-- A request of one buffer leaves another as requestable as it was, and its words. -/
theorem requestable_canRequest {b' : Nat} (h : b' ≠ b) :
    requestable (canRequest s n b) n b' = requestable s n b' ∧ requested (canRequest s n b) n b' = requested s n b' := by
  have hword : ∀ o, o = 0 ∨ 0x2000 ≤ o → canWord (canRequest s n b) n o = canWord s n o := fun o ho =>
    canWord_canRequest (by simp only [List.mem_cons, List.not_mem_nil, or_false]; omega)
  have hbusy : bufBusy (canRequest s n b) n b' = bufBusy s n b' := by
    rw [bufBusy, bufBusy, canSt_canRequest]
    have hne : (b == b') = false := beq_false_of_ne h.symm
    split <;> simp [requested, hne]
  have hwords : bufWords (canRequest s n b) n b' = bufWords s n b' := bufWords_congr fun o ho _ => hword o (by omega)
  refine ⟨?_, by rw [requested, requested, hwords]⟩
  rw [requestable, requestable, canOn, canOn, bufSched, bufSched, Chip.rdBit, Chip.rdBit, Chip.rdBit, Chip.rdBit, rd_canCtl, rd_canCtl,
    hword _ (.inl rfl),    hword _ (.inr (by omega)), hbusy, canSt_canRequest]

end Request

/-- Requests append the requestable buffers in their order, and leave the bus (R366). -/
theorem canSt_requests {n : Nat} {l : List Nat} (hl : l.Nodup) (s : Chip) : canSt (l.foldl (canRequest · n) s) n =
    { canSt s n with pend := (canSt s n).pend ++ (l.filter (requestable s n)).map (requested s n) } := by
  induction l generalizing s with
  | nil => simp
  | cons b l ih =>
    obtain ⟨hb, hl⟩ := List.nodup_cons.1 hl
    have hsame : ∀ b' ∈ l,
        requestable (canRequest s n b) n b' = requestable s n b' ∧ requested (canRequest s n b) n b' = requested s n b' :=
      fun b' hb' => requestable_canRequest (ne_of_mem_of_not_mem hb' hb)
    have hfilter : l.filter (requestable (canRequest s n b) n) = l.filter (requestable s n) :=
      List.filter_congr fun b' hb' => (hsame b' hb').1
    have hmap : (l.filter (requestable s n)).map (requested (canRequest s n b) n) = (l.filter (requestable s n)).map (requested s n) :=
      List.map_congr_left fun b' hb' => (hsame b' (List.mem_of_mem_filter hb')).2
    rw [List.foldl_cons, ih hl, canSt_canRequest, hfilter, hmap, List.filter_cons]
    split <;> simp

/-- CANn_CFGERR names a request that was refused BUSY, and its flag stands (R366, R388, R393). -/
def NamesBusy (n off : Nat) (x : Chip) : Prop := canWord x n 0x14 = wn (3 * 2 ^ 28 + off) ∧ bit (canWord x n 0x70) 9 = true

/-- A buffer that is not requestable leaves its refusal, which stands through the requests after it. -/
theorem requests_nameBusy {n off : Nat} {l : List Nat} (hoff : ∀ b ∈ l, (if b < 32 then 0x18 else 0x1C) = off) (hl : l.Nodup) (s : Chip)
    (h : NamesBusy n off s ∨ ∃ b ∈ l, requestable s n b = false) : NamesBusy n off (l.foldl (canRequest · n) s) := by
  induction l generalizing s with
  | nil => simpa using h
  | cons b l ih =>
    obtain ⟨hb, hl⟩ := List.nodup_cons.1 hl
    have hoffb : (if b < 32 then 0x18 else 0x1C) = off := hoff b (List.mem_cons_self ..)
    refine ih (fun b' hb' => hoff b' (List.mem_cons_of_mem _ hb')) hl _ ?_
    have hrefused : requestable s n b = false → NamesBusy n off (canRequest s n b) := fun hno => by
      rw [canRequest_eq, if_neg (by simp [hno]), hoffb]
      simp [NamesBusy, bit_setBit_self]
    rcases h with ⟨herr, hevt⟩ | ⟨b', hmem, hno⟩
    · cases hok : requestable s n b
      · exact .inl (hrefused hok)
      · change NamesBusy n off (canRequest s n b) ∨ _
        rw [canRequest_eq, if_pos hok]
        exact .inl ⟨(canWord_makePending (by decide) (by decide)).trans herr, by rw [canWord_makePending (by decide) (by decide), hevt]⟩
    · rcases List.mem_cons.1 hmem with rfl | hmem
      · exact .inl (hrefused hno)
      · exact .inr ⟨b', hmem, (requestable_canRequest (ne_of_mem_of_not_mem hmem hb)).1.trans hno⟩

theorem canTxreq_eq (s : Chip) (n : Nat) (hi : Bool) (mask : Word) : canTxreq s n hi mask = (namedBufs hi mask).foldl (canRequest · n) s :=
  foldl_namedBufs (canRequest · n) hi mask s

theorem exec_canTxreq (who : Agent) (n : Fin 8) (hi : Bool) (mask : Word) (st : State) : exec (.canTxreq who n hi mask) st =
    finish st (fun s => regCmd s who (if hi then Reg.canTxreq1 n.val else Reg.canTxreq0 n.val) mask) := rfl

/-- A request that its agent may make (R366, R388). -/
theorem completes_canTxreq {s : State} {who : Agent} {n : Fin 8} {hi : Bool} {mask : Word}
    (hm : MayWrite s.chip who (if hi then Reg.canTxreq1 n.val else Reg.canTxreq0 n.val)) : Completes (.canTxreq who n hi mask) s (fun x =>
      canSt x n.val = { canSt s.chip n.val with
        pend := (canSt s.chip n.val).pend ++ ((namedBufs hi mask).filter (requestable s.chip n.val)).map (requested s.chip n.val) } ∧
      ((∃ b ∈ namedBufs hi mask, requestable s.chip n.val b = false) → NamesBusy n.val (if hi then 0x1C else 0x18) x)) := by
  refine ⟨canTxreq s.chip n.val hi mask, ?_, ?_, fun hno => ?_⟩
  · rw [exec_canTxreq, finish_eq, regCmd_canTxreq hm]
  · rw [canTxreq_eq, canSt_requests (namedBufs_nodup hi mask)]
  · rw [canTxreq_eq]
    refine requests_nameBusy (fun b hb => ?_) (namedBufs_nodup hi mask) _ (.inr hno)
    obtain ⟨hdiv, -⟩ := mem_namedBufs.1 hb
    cases hi
    · exact if_pos (by change b / 32 = 0 at hdiv; omega)
    · exact if_neg (by change b / 32 = 1 at hdiv; omega)

end Sys2Proof.Machine
end

section
/-!
PROOFS of the CAN channels (08). Transmissions withdrawn: aborts, and windows that close.
-/

namespace Sys2Proof.Machine

/-- The buffer waits for the bus. -/
def waitsIn (l : List CanPend) (b : Nat) : Bool := l.any (fun p => p.buf == b)

/-- A frame on the bus that an abort of the buffers of `l` reaches is not retransmitted; one that also waits is withdrawn where it waits
(R367). -/
def quitIf (l : List Nat) (pend : List CanPend) (p : CanPend) : CanPend :=
  if decide (p.buf ∈ l) && !waitsIn pend p.buf then { p with quit := true } else p

theorem waitsIn_filter (l : List CanPend) {b b' : Nat} (h : b' ≠ b) : waitsIn (l.filter (fun q => q.buf != b)) b' = waitsIn l b' := by
  rw [waitsIn, waitsIn, List.any_filter]
  refine List.any_congr rfl fun p => ?_
  by_cases hp : p.buf = b'
  · simp [hp, h]
  · simp [hp]

theorem find?_waitsIn {l : List CanPend} {b : Nat} (h : waitsIn l b = true) : ∃ p, l.find? (fun q => q.buf == b) = some p ∧ p.buf = b := by
  obtain ⟨p, hp⟩ := Option.isSome_iff_exists.1 (List.find?_isSome.2 (List.any_eq_true.1 h))
  exact ⟨p, hp, by simpa using List.find?_some hp⟩

section Abort
variable {s : Chip} {n b : Nat}

theorem canAbort_waiting {p : CanPend} (h : (canSt s n).pend.find? (fun q => q.buf == b) = some p) : canAbort s n b =
    syncCanPend (canRetire (setCan s n { canSt s n with pend := (canSt s n).pend.filter (fun q => q.buf != b) }) n p 3) n := by
  unfold canAbort
  simp only [h]

/-- An abort takes the buffer out where it waits, and marks it on the bus where it does not (R367). -/
theorem canSt_canAbort : canSt (canAbort s n b) n = { canSt s n with
    pend := (canSt s n).pend.filter (fun q => q.buf != b)
    bus := (canSt s n).bus.map (quitIf [b] (canSt s n).pend) } := by
  cases hw : waitsIn (canSt s n).pend b
  · have hnone : (canSt s n).pend.find? (fun q => q.buf == b) = none := List.find?_eq_none.2 (by simpa [waitsIn] using hw)
    have hfilter : (canSt s n).pend.filter (fun q => q.buf != b) = (canSt s n).pend :=
      List.filter_eq_self.2 (by simpa [waitsIn] using hw)
    unfold canAbort
    simp only [hnone, hfilter]
    cases hbus : (canSt s n).bus with
    | none => exact congrArg (fun o => { canSt s n with bus := o }) hbus
    | some p =>
      by_cases hp : p.buf = b
      · simp [hp, quitIf, hw]
      · have hquit : some (quitIf [b] (canSt s n).pend p) = (canSt s n).bus := by simp [quitIf, hp, hbus]
        simp only [hp, if_false, Option.map_some, hquit]
  · obtain ⟨p, hfind, -⟩ := find?_waitsIn hw
    have hbus : (canSt s n).bus.map (quitIf [b] (canSt s n).pend) = (canSt s n).bus := by
      cases (canSt s n).bus with
      | none => rfl
      | some q =>
        have hq : (decide (q.buf ∈ [b]) && !waitsIn (canSt s n).pend q.buf) = false := by
          by_cases hq : q.buf = b <;> simp [hq, hw]
        rw [Option.map_some, quitIf, if_neg (by rw [hq]; exact Bool.false_ne_true)]
    rw [hbus, canAbort_waiting hfind, canSt_syncCanPend, canSt_canRetire, canSt_setCan]

/-- An abort writes RESULT of its own buffer, and the pending registers. -/
theorem canWord_canAbort {b' : Nat} (h : b' ≠ b) : canWord (canAbort s n b) n (resultAt b') = canWord s n (resultAt b') := by
  cases hw : waitsIn (canSt s n).pend b
  · have hnone : (canSt s n).pend.find? (fun q => q.buf == b) = none := List.find?_eq_none.2 (by simpa [waitsIn] using hw)
    unfold canAbort
    simp only [hnone]
    split
    · split <;> simp
    · rfl
  · obtain ⟨p, hfind, hp⟩ := find?_waitsIn hw
    have hne : resultAt b' ≠ resultAt p.buf ∧ resultAt b' ≠ 0x28 ∧ resultAt b' ≠ 0x2C := by
      unfold resultAt
      omega
    obtain ⟨hres, h0, h1⟩ := hne
    rw [canAbort_waiting hfind, canWord_syncCanPend _ _ h0 h1, canWord_canRetire hres (by omega), canWord_setCan]

/-- A buffer withdrawn where it waits has RESULT ABORTED (R367, R368). -/
theorem canAbort_result (hw : waitsIn (canSt s n).pend b = true) : fld (canWord (canAbort s n b) n (resultAt b)) 15 0 = 3 := by
  obtain ⟨p, hfind, rfl⟩ := find?_waitsIn hw
  have hne : resultAt p.buf ≠ 0x28 ∧ resultAt p.buf ≠ 0x2C := by
    unfold resultAt
    omega
  rw [canAbort_waiting hfind, canWord_syncCanPend _ _ hne.1 hne.2, canRetire_result (by decide)]

end Abort

/-- Aborts take their buffers out of those that wait, and mark the one on the bus (R367). -/
theorem canSt_aborts {n : Nat} {l : List Nat} (hl : l.Nodup) (s : Chip) : canSt (l.foldl (canAbort · n) s) n = { canSt s n with
    pend := (canSt s n).pend.filter (fun p => !decide (p.buf ∈ l))
    bus := (canSt s n).bus.map (quitIf l (canSt s n).pend) } := by
  induction l generalizing s with
  | nil =>
    have hid : quitIf [] (canSt s n).pend = id := funext fun p => by simp [quitIf]
    simp [hid]
  | cons b l ih =>
    obtain ⟨hb, hl⟩ := List.nodup_cons.1 hl
    have hquit : ∀ p, quitIf l ((canSt s n).pend.filter (fun q => q.buf != b)) (quitIf [b] (canSt s n).pend p) =
        quitIf (b :: l) (canSt s n).pend p := fun p => by
      by_cases hp : p.buf = b
      · have hself : (quitIf [b] (canSt s n).pend p).buf = b := by
          unfold quitIf
          split <;> exact hp
        have hsecond : ∀ r, quitIf l r (quitIf [b] (canSt s n).pend p) = quitIf [b] (canSt s n).pend p := fun r => by
          rw [quitIf, hself, decide_eq_false hb, Bool.false_and, if_neg Bool.false_ne_true]
        rw [hsecond]
        simp [quitIf, hp]
      · have hfirst : quitIf [b] (canSt s n).pend p = p := by simp [quitIf, hp]
        rw [hfirst]
        simp [quitIf, hp, waitsIn_filter _ hp]
    have hpend : (canSt s n).pend.filter (fun p => !decide (p.buf ∈ l) && p.buf != b) =
        (canSt s n).pend.filter (fun p => !decide (p.buf ∈ b :: l)) :=
      List.filter_congr fun p _ => by by_cases hp : p.buf = b <;> simp [hp]
    have hbus : quitIf l ((canSt s n).pend.filter (fun q => q.buf != b)) ∘ quitIf [b] (canSt s n).pend = quitIf (b :: l) (canSt s n).pend :=
      funext hquit
    rw [List.foldl_cons, ih hl, canSt_canAbort]
    simp only [List.filter_filter, Option.map_map, hpend, hbus]

theorem canWord_aborts {n b : Nat} {l : List Nat} (hb : b ∉ l) (s : Chip) :
    canWord (l.foldl (canAbort · n) s) n (resultAt b) = canWord s n (resultAt b) :=
  List.foldlRecOn (motive := fun x => canWord x n (resultAt b) = canWord s n (resultAt b)) _ _ rfl fun _ hx _ ha =>
    (canWord_canAbort (ne_of_mem_of_not_mem ha hb).symm).trans hx

/-- Every buffer withdrawn where it waits has RESULT ABORTED at the end. -/
theorem aborts_result {n b : Nat} {l : List Nat} (hl : l.Nodup) (hb : b ∈ l) (s : Chip) (hw : waitsIn (canSt s n).pend b = true) :
    fld (canWord (l.foldl (canAbort · n) s) n (resultAt b)) 15 0 = 3 := by
  induction l generalizing s with
  | nil => cases hb
  | cons b' l ih =>
    obtain ⟨hb', hl⟩ := List.nodup_cons.1 hl
    rw [List.foldl_cons]
    rcases List.mem_cons.1 hb with rfl | hmem
    · rw [canWord_aborts hb', canAbort_result hw]
    · refine ih hl hmem _ ?_
      rw [canSt_canAbort, waitsIn_filter _ (ne_of_mem_of_not_mem hmem hb'), hw]

theorem canTxabort_eq (s : Chip) (n : Nat) (hi : Bool) (mask : Word) : canTxabort s n hi mask = (namedBufs hi mask).foldl (canAbort · n) s :=
  foldl_namedBufs (canAbort · n) hi mask s

theorem exec_canTxabort (who : Agent) (n : Fin 8) (hi : Bool) (mask : Word) (st : State) : exec (.canTxabort who n hi mask) st =
    finish st (fun s => regCmd s who (if hi then Reg.canTxabort1 n.val else Reg.canTxabort0 n.val) mask) := rfl

/-- An abort that its agent may make (R367). -/
theorem completes_canTxabort {s : State} {who : Agent} {n : Fin 8} {hi : Bool} {mask : Word}
    (hm : MayWrite s.chip who (if hi then Reg.canTxabort1 n.val else Reg.canTxabort0 n.val)) :
    Completes (.canTxabort who n hi mask) s (fun x =>
      canSt x n.val = { canSt s.chip n.val with
        pend := (canSt s.chip n.val).pend.filter (fun p => !decide (p.buf ∈ namedBufs hi mask))
        bus := (canSt s.chip n.val).bus.map (quitIf (namedBufs hi mask) (canSt s.chip n.val).pend) } ∧
      ∀ b ∈ namedBufs hi mask, waitsIn (canSt s.chip n.val).pend b = true → fld (canWord x n.val (resultAt b)) 15 0 = 3) := by
  refine ⟨canTxabort s.chip n.val hi mask, ?_, ?_, fun b hb hw => ?_⟩
  · rw [exec_canTxabort, finish_eq, regCmd_canTxabort hm]
  · rw [canTxabort_eq, canSt_aborts (namedBufs_nodup hi mask)]
  · rw [canTxabort_eq, aborts_result (namedBufs_nodup hi mask) hb _ hw]

/-! ### Windows that close -/

theorem exec_canWindowExpiry (n : Fin 8) (b : Fin 64) (ph : Phase) (st : State) :
    exec (.canWindowExpiry n b ph) st = finish st (fun s => canExpire s n.val b.val ph.val) := rfl

/-- The first transmission of a buffer is found as released with a closed window, if that is what it is. -/
theorem canExpire_closed {s : Chip} {n b ph : Nat} {p : CanPend} (hp : (canSt s n).pend.find? (fun q => q.buf == b) = some p)
    (hs : p.sched = true) (hwin : p.rel + 1000 * p.win ≤ (s.atPhase ph).nowNs) : canExpire s n b ph =
    syncCanPend (canRetire (setCan (s.atPhase ph) n { canSt s n with pend := (canSt s n).pend.filter (fun q => q.buf != b) }) n p 2) n := by
  have hfind : (canSt s n).pend.find? (fun q => q.buf == b && q.sched && decide ((s.atPhase ph).nowNs ≥ q.rel + 1000 * q.win)) = some p := by
    obtain ⟨hb, as, bs, hl, has⟩ := List.find?_eq_some_iff_append.1 hp
    refine List.find?_eq_some_iff_append.2 ⟨by simp [hb, hs, hwin], as, bs, hl, fun q hq => ?_⟩
    have hother : (q.buf == b) = false := by simpa using has q hq
    simp [hother]
  unfold canExpire
  simp only [canSt_atPhase, hfind]

/-- A released buffer whose window has closed is withdrawn LATE (R373). -/
theorem completes_canWindowExpiry {s : State} {n : Fin 8} {b : Fin 64} {ph : Phase} {p : CanPend}
    (hp : (canSt s.chip n.val).pend.find? (fun q => q.buf == b.val) = some p) (hs : p.sched = true)
    (hwin : p.rel + 1000 * p.win ≤ (s.chip.atPhase ph.val).nowNs) : Completes (.canWindowExpiry n b ph) s (fun x =>
      (canSt x n.val).pend = (canSt s.chip n.val).pend.filter (fun q => q.buf != b.val) ∧
      canWord x n.val 0x54 = canWord s.chip n.val 0x54 + 1 ∧ fld (canWord x n.val (resultAt b.val)) 15 0 = 2) := by
  have hbuf : p.buf = b.val := by simpa using List.find?_some hp
  have hne : resultAt p.buf ≠ 0x28 ∧ resultAt p.buf ≠ 0x2C := by
    unfold resultAt
    omega
  refine ⟨canExpire s.chip n.val b.val ph.val, by rw [exec_canWindowExpiry, finish_eq], ?_⟩
  rw [canExpire_closed hp hs hwin]
  refine ⟨by simp, ?_, ?_⟩
  · rw [canWord_syncCanPend _ _ (by decide) (by decide), canRetire_late]
    rfl
  · rw [← hbuf, canWord_syncCanPend _ _ hne.1 hne.2, canRetire_result (by decide)]

end Sys2Proof.Machine
end

section
/-!
PROOFS of the CAN channels (08). What a transaction, a read of the store and the commit of phase 9,000 leave alone of the channels. For each
function `f` of the model, `ChannelKeeps.f` says that `f` leaves this alone, from the lemmas of the functions it calls.
-/

namespace Sys2Proof.Machine

/-- From `s` on, `x` has kept the channels, with the words of their windows and their ledgers, the timebase, and whether CORE is held. -/
structure ChannelKeeps (s x : Chip) : Prop where
  can : x.can = s.can
  tb : x.tb = s.tb
  inCore : x.rst.inCore = s.rst.inCore
  led : ∀ k, 128 ≤ k → Tab.get 0 x.books.led k = Tab.get 0 s.books.led k
  words : ∀ a, 0x11200000 ≤ a → a < 0x11280000 → x.rd a = s.rd a

/-- The register stands in no channel's window (08 R383). -/
abbrev NoCan (a : Nat) : Prop := a < 0x11200000 ∨ 0x11280000 ≤ a

variable {s x : Chip}

theorem ChannelKeeps.refl (s : Chip) : ChannelKeeps s s := ⟨rfl, rfl, rfl, fun _ _ => rfl, fun _ _ _ => rfl⟩

theorem ChannelKeeps.trans {y : Chip} (h : ChannelKeeps s x) (hy : ChannelKeeps x y) : ChannelKeeps s y :=
  ⟨hy.can.trans h.can, hy.tb.trans h.tb, hy.inCore.trans h.inCore, fun k hk => (hy.led k hk).trans (h.led k hk),
    fun a h1 h2 => (hy.words a h1 h2).trans (h.words a h1 h2)⟩

theorem ChannelKeeps.ite {a b : Chip} {c : Prop} {_ : Decidable c} (ha : ChannelKeeps s a) (hb : ChannelKeeps s b) :
    ChannelKeeps s (if c then a else b) := by
  split <;> assumption

theorem ChannelKeeps.foldl {α : Type} {f : Chip → α → Chip} {l : List α} (h : ChannelKeeps s x)
    (hf : ∀ y, ∀ a ∈ l, ChannelKeeps s y → ChannelKeeps s (f y a)) : ChannelKeeps s (l.foldl f x) :=
  List.foldlRecOn (motive := ChannelKeeps s) _ _ h fun y hy a ha => hf y a ha hy

/-- An update that leaves the registers, the timebase, the channels, the books and the restart unit alone. -/
theorem ChannelKeeps.frame {v1 v3 v4 v5 v6 v8 v9 v10 v11 v12 v13 v14 v15 v16 v17 v18 v19 v21 v23 v24 v25 v26} (h : ChannelKeeps s x) :
    ChannelKeeps s ⟨x.regs, v1, x.tb, v3, v4, v5, v6, x.can, v8, v9, v10, v11, v12, v13, v14, v15, v16, v17, v18, v19, v21, x.books, v23,
      x.rst, v24, v25, v26, x.draws⟩ :=
  ⟨h.can, h.tb, h.inCore, h.led, h.words⟩

theorem ChannelKeeps.congr {y : Chip} (h : ChannelKeeps s x) (hregs : y.regs = x.regs) (hcan : y.can = x.can) (htb : y.tb = x.tb)
    (hcore : y.rst.inCore = x.rst.inCore) (hled : y.books.led = x.books.led) : ChannelKeeps s y :=
  h.trans ⟨hcan, htb, hcore, fun _ _ => by rw [hled], fun a _ _ => Chip.rd_congr hregs a⟩

/-! ### Registers and books -/

theorem ChannelKeeps.wr {a : Nat} {w : Word} (h : ChannelKeeps s x) (ha : NoCan a) : ChannelKeeps s (x.wr a w) :=
  ⟨h.can, h.tb, h.inCore, h.led, fun b h1 h2 => (x.rd_wr_ne w (by omega)).trans (h.words b h1 h2)⟩

theorem ChannelKeeps.wrF {a hi lo v : Nat} (h : ChannelKeeps s x) (ha : NoCan a) : ChannelKeeps s (x.wrF a hi lo v) := h.wr ha

theorem ChannelKeeps.wrBit {a b : Nat} {v : Bool} (h : ChannelKeeps s x) (ha : NoCan a) : ChannelKeeps s (x.wrBit a b v) := h.wr ha

theorem ChannelKeeps.bump {a : Nat} (h : ChannelKeeps s x) (ha : NoCan a) : ChannelKeeps s (x.bump a) := h.wr ha

theorem ChannelKeeps.flag {evt en b e : Nat} (h : ChannelKeeps s x) (ha : NoCan evt) : ChannelKeeps s (x.flag evt en b e) :=
  .ite (h.wrBit ha).frame (h.wrBit ha)

/-- A counter of the ledgers 0 to 7, which are no channel's (19 R848, R849). -/
theorem ChannelKeeps.ledLow {l j n : Nat} (h : ChannelKeeps s x) (hl : 16 * l + j < 128) : ChannelKeeps s (x.led l j n) :=
  ⟨h.can, h.tb, h.inCore, fun k hk => (Tab.get_set_ne _ _ _ _ (by omega)).trans (h.led k hk), h.words⟩

theorem ChannelKeeps.odoInc {slot n : Nat} (h : ChannelKeeps s x) : ChannelKeeps s (x.odoInc slot n) := by
  unfold Chip.odoInc
  extract_lets old new lost _ s1 s2
  have hs1 : ChannelKeeps s s1 := h.frame
  have hs2 : ChannelKeeps s s2 := hs1.ledLow (by decide)
  exact .ite hs2 ((hs2.ledLow (by decide)).flag (by decide))

/-! ### Faults -/

theorem ChannelKeeps.alarm {code sev data : Nat} (h : ChannelKeeps s x) : ChannelKeeps s (x.alarm code sev data) := by
  have hlog : (x.logEvent 1 code sev).books.led = x.books.led := by
    unfold Chip.logEvent
    dsimp only
    split
    · rfl
    · split <;> rfl
  have hdirty : ∀ y k v, (alarmDirty y k v).books.led = y.books.led := fun y k v => by
    have hsignal : ((y.wrBit (Reg.hpcAlmdirty (k / 32)) (k % 32) true).signal v).books.led = y.books.led := by
      simp only [Chip.signal]
      split <;> rfl
    unfold alarmDirty
    dsimp only
    split <;> split <;> exact hsignal
  have hset : ∀ y k e, (setAlarm y k e).books.led = y.books.led := fun _ _ _ => rfl
  have hled : (x.alarm code sev data).books.led = x.books.led := by
    unfold Chip.alarm
    dsimp only
    (repeat' split) <;> simp [hlog, hdirty, hset]
  refine h.trans ⟨by simp, by simp, by simp, fun k _ => by rw [hled], fun a hlo hhi => Chip.alarm_rd_ne _ _ _ _ fun ha => ?_⟩
  have hout : ∀ b ∈ alarmRegs, NoCan b := by decide
  have := hout a ha
  omega

theorem ChannelKeeps.enterFault {code item : Nat} {acted : Bool} (h : ChannelKeeps s x) : ChannelKeeps s (enterFault x code item acted) := by
  unfold Machine.enterFault
  extract_lets cls s1 _ s2
  have hs1 : ChannelKeeps s s1 := (h.flag (by decide)).odoInc
  have hs2 : ChannelKeeps s s2 := .ite (hs1.congr rfl rfl rfl rfl rfl) ((hs1.bump (by decide)).flag (by decide))
  exact hs2.alarm

theorem ChannelKeeps.coldFault {code item : Nat} (h : ChannelKeeps s x) : ChannelKeeps s (coldFault x code item) := by
  unfold Machine.coldFault
  extract_lets s1
  have hs1 : ChannelKeeps s s1 := h.enterFault
  clear_value s1
  exact hs1.congr rfl rfl rfl rfl rfl

theorem ChannelKeeps.fault {code item : Nat} (h : ChannelKeeps s x) : ChannelKeeps s (x.fault code item) := by
  have hrestart : ChannelKeeps s (restartFault x code item) := by
    unfold restartFault
    extract_lets s1
    have hs1 : ChannelKeeps s s1 := h.enterFault
    clear_value s1
    exact .ite h.enterFault (.ite h.coldFault (.ite (hs1.congr rfl rfl rfl rfl rfl)
      (hs1.congr rfl rfl rfl rfl rfl)))
  exact .ite hrestart (.ite h.coldFault h.enterFault)

/-! ### Memory and the store -/

theorem ChannelKeeps.memFlag {e : Nat} (h : ChannelKeeps s x) : ChannelKeeps s (x.memFlag e) := h.flag (by decide)

theorem ChannelKeeps.noteRead {cls addr src memk : Nat} (h : ChannelKeeps s x) : ChannelKeeps s (noteRead x cls addr src memk) := by
  unfold Machine.noteRead
  extract_lets s1 s2 s3
  have hs3 : ChannelKeeps s s3 := (((ChannelKeeps.bump h (by split <;> decide)).wr (by decide)).wr (by decide)).memFlag
  exact .ite h (.ite hs3.odoInc (.ite hs3 hs3.odoInc))

theorem ChannelKeeps.clearFlips {a n : Nat} (h : ChannelKeeps s x) : ChannelKeeps s (clearFlips x a n) := h.frame

theorem ChannelKeeps.putBytes {a : Nat} {bs : List Byte} (h : ChannelKeeps s x) : ChannelKeeps s (x.putBytes a bs) := h.frame

theorem ChannelKeeps.rewriteWord {word : Nat} {xs : List Nat} (h : ChannelKeeps s x) : ChannelKeeps s (rewriteWord x word xs) := by
  unfold Machine.rewriteWord
  extract_lets s0 s1 s2
  have hs1 : ChannelKeeps s s1 := .clearFlips (.ite h.putBytes h)
  exact .ite (.ite hs1.clearFlips hs1.clearFlips.putBytes) (.foldl hs1 fun _ _ _ hy => .ite hy hy.frame)

theorem ChannelKeeps.hardWord {word : Nat} {xs : List Nat} (h : ChannelKeeps s x) : ChannelKeeps s (hardWord x word xs) := by
  unfold Machine.hardWord
  split
  · exact (h.bump (by decide)).memFlag.odoInc
  · next a ha =>
    have hspare : NoCan (Reg.memSpare a) := by
      have := arrayAt_lt ha
      unfold Reg.memSpare
      omega
    exact .ite h.memFlag (((ChannelKeeps.frame (ChannelKeeps.rewriteWord h.frame)).bump (by decide)).bump hspare).memFlag.odoInc

theorem ChannelKeeps.trackCe {word : Nat} {xs : List Nat} (h : ChannelKeeps s x) : ChannelKeeps s (trackCe x word xs) := by
  unfold Machine.trackCe
  extract_lets thr reach
  have hreach : ∀ {y n}, ChannelKeeps s y → ChannelKeeps s (reach y n) := fun hy => .ite (hy.wr (by decide)).memFlag hy
  split
  · extract_lets _ _ s2
    have hs2 : ChannelKeeps s s2 := .ite h.frame (hreach h.frame)
    exact .ite hs2.hardWord hs2
  · refine .ite (hreach h.frame) ?_
    split
    · exact h
    · exact hreach (ChannelKeeps.bump h.frame (by decide))

theorem ChannelKeeps.readOne {src lo hi word : Nat} {r : SpanRead} (h : ChannelKeeps s r.chip) :
    ChannelKeeps s (readOne src lo hi r word).chip :=
  .ite (.trackCe (.ite h h.noteRead)) (.ite h h.noteRead)

theorem ChannelKeeps.readSpan {src a n : Nat} (h : ChannelKeeps s x) : ChannelKeeps s (readSpan x src a n).chip :=
  List.foldlRecOn (motive := fun r : SpanRead => ChannelKeeps s r.chip) _ _ h fun _ hr _ _ => hr.readOne

theorem ChannelKeeps.lookEntry {src sid : Nat} (h : ChannelKeeps s x) : ChannelKeeps s (lookEntry x src sid).1 := by
  unfold Machine.lookEntry lookBytes seeBytes
  split
  · exact h
  · exact .ite ((ChannelKeeps.bump h.readSpan.frame (by decide)).flag (by decide)) h.readSpan

theorem ChannelKeeps.storeWrite {sid : Nat} {r : WriteReq} {w : Writer} (h : ChannelKeeps s x) : ChannelKeeps s (storeWrite x sid r w).1 := by
  have hcount : ∀ {y a b}, ChannelKeeps s y → NoCan a → ChannelKeeps s ((y.bump a).sigFlag b) := fun hy ha =>
    (hy.bump ha).flag (by decide)
  rcases storeWrite_branches x sid w with hd | ⟨d, hd, hp | ⟨hp, hg | ⟨hg, hf | hf⟩⟩⟩
  · rw [storeWrite_undeclared hd]
    exact ((h.bump (by decide)).wr (by decide)).flag (by decide)
  · rw [storeWrite_notProducer hd hp]
    exact ((h.bump (by decide)).wr (by decide)).flag (by decide)
  · rw [storeWrite_notHolder hd hp hg]
    exact ((h.bump (by decide)).wr (by decide)).flag (by decide)
  · rw [storeWrite_forced hd hp hg hf]
    exact hcount h (by decide)
  · rw [storeWrite_accepted hd hp hg hf]
    have hclamp : ChannelKeeps s (if writeClamps d r then countClamp x else x) := .ite (hcount h (by decide)).odoInc h
    exact .ite hclamp.frame hclamp.frame

theorem ChannelKeeps.countPort {p : Nat} (h : ChannelKeeps s x) (hp : p < 4) : ChannelKeeps s (countPort x p) := by
  have hcnt : NoCan (Reg.sigPcnt p) ∧ NoCan (Reg.sigPpeak p) := by
    unfold Reg.sigPcnt Reg.sigPpeak
    omega
  unfold Machine.countPort
  exact .ite (ChannelKeeps.wrF (ChannelKeeps.frame (h.bump hcnt.1)) hcnt.2) (ChannelKeeps.frame (h.bump hcnt.1))

theorem ChannelKeeps.transaction {port : Nat} {w : Writer} {tag : Nat} {ws : List (Nat × WriteReq)} {body : List Byte} (h : ChannelKeeps s x)
    (hp : port < 4) : ChannelKeeps s (transaction x port w tag ws body) := by
  have hviews : ChannelKeeps s (keepViews x) := by
    obtain ⟨f, b, c, hv⟩ := keepViews_eq x
    rw [hv]
    exact h.frame
  have hwrites : ChannelKeeps s (storeWrites (keepViews x) ws w).1 :=
    List.foldlRecOn (motive := fun r : Chip × List TxnWrite => ChannelKeeps s r.1) _ _ hviews fun _ hr _ _ => hr.storeWrite
  exact (hwrites.countPort hp).frame

/-! ### Injections and captures of the tiles -/

/-- A tile's register stands in no channel's window (05 R225). -/
theorem noCan_tile {a : Nat} (h : 0x11280000 ≤ a) (t : Nat) : NoCan (a + 0x100000 * t) := by omega

theorem ChannelKeeps.tileFlag {t e : Nat} (h : ChannelKeeps s x) : ChannelKeeps s (x.tileFlag t e) := h.flag (noCan_tile (by decide) t)

theorem ChannelKeeps.setTune {t : Nat} {u : TuneUnit} (h : ChannelKeeps s x) : ChannelKeeps s (x.setTune t u) := h.frame

theorem ChannelKeeps.wrCapstat {t hi lo v : Nat} (h : ChannelKeeps s x) : ChannelKeeps s (x.wrF (Reg.ltCapstat t) hi lo v) :=
  h.wrF (noCan_tile (by decide) t)

theorem ChannelKeeps.endCapture {t cause : Nat} (h : ChannelKeeps s x) : ChannelKeeps s (endCapture x t cause) :=
  .ite h.wrCapstat.wrCapstat.setTune.tileFlag (.ite h.wrCapstat h)

theorem ChannelKeeps.captureInjEnd {t : Nat} (h : ChannelKeeps s x) : ChannelKeeps s (captureInjEnd x t) := .ite h.endCapture h

theorem ChannelKeeps.captureMissed {l : List Nat} {t : Nat} (h : ChannelKeeps s x) : ChannelKeeps s (captureMissed x l t) :=
  .ite h.endCapture h

theorem ChannelKeeps.newMoment {t : Nat} (h : ChannelKeeps s x) : ChannelKeeps s (newMoment x t) := .ite h.setTune h

theorem ChannelKeeps.putCapture {t : Nat} {w0 w1 w2 w3 : Word} (h : ChannelKeeps s x) : ChannelKeeps s (putCapture x t w0 w1 w2 w3) := by
  unfold Machine.putCapture
  extract_lets p b m _ s1 s2
  have hs1 : ChannelKeeps s s1 := h.frame
  have hs2 : ChannelKeeps s s2 := .ite (hs1.wrBit (noCan_tile (by decide) t)) hs1
  exact (hs2.wr (noCan_tile (by decide) t)).bump (noCan_tile (by decide) t)

theorem ChannelKeeps.streamCapture {t lid kind cnt w : Nat} {ws : List Word} (h : ChannelKeeps s x) :
    ChannelKeeps s (streamCapture x t lid kind cnt w ws) := .ite h.frame h

theorem ChannelKeeps.captureHeld {r : Held} (h : ChannelKeeps s x) : ChannelKeeps s (captureHeld x r) := by
  unfold Machine.captureHeld
  extract_lets t st u s1 take further post s2 cnt ws fw s3 full s4
  have hs2 : ChannelKeeps s s2 := .setTune (.ite (h.wrCapstat.wr (noCan_tile (by decide) t)) h)
  have hs3 : ChannelKeeps s s3 := .ite hs2.putCapture.streamCapture hs2
  have hs4 : ChannelKeeps s s4 := .ite hs3.endCapture hs3
  exact .ite h (.ite h (.ite hs4.endCapture hs4))

/-! ### The commit -/

theorem ChannelKeeps.setMirrorBit {lid b : Nat} {v : Bool} (h : ChannelKeeps s x) : ChannelKeeps s (setMirrorBit x lid b v) := h.frame

theorem ChannelKeeps.publishJournal {r : Held} (h : ChannelKeeps s x) : ChannelKeeps s (publishJournal x r) := by
  unfold Machine.publishJournal
  extract_lets sel k _ s1
  have hs1 : ChannelKeeps s s1 := h.frame
  exact hs1.setMirrorBit.setMirrorBit

theorem ChannelKeeps.commitHeld {r : Held} (h : ChannelKeeps s x) : ChannelKeeps s (commitHeld x r) := by
  unfold Machine.commitHeld
  extract_lets body s1 s2 _ s3
  have hs1 : ChannelKeeps s s1 := h.transaction (by decide)
  have hs2 : ChannelKeeps s s2 := .ite hs1.odoInc hs1
  have hs3 : ChannelKeeps s s3 := hs2.frame
  exact (hs3.publishJournal.bump (noCan_tile (by decide) _)).captureHeld

theorem ChannelKeeps.commitAll (h : ChannelKeeps s x) : ChannelKeeps s (commitAll x) := by
  unfold Machine.commitAll
  extract_lets hs s1 s2
  have hs1 : ChannelKeeps s s1 := .foldl (.foldl h fun _ _ _ hy => hy.newMoment) fun _ _ _ hy => hy.commitHeld
  have hs2 : ChannelKeeps s s2 := hs1.foldl fun _ _ _ hy => hy.captureInjEnd.captureMissed
  exact hs2.frame

theorem ChannelKeeps.noteOverrun {t : Nat} (h : ChannelKeeps s x) : ChannelKeeps s (noteOverrun x t) :=
  (h.bump (by decide)).tileFlag.odoInc.fault.frame

theorem ChannelKeeps.loadDuty {n : Nat} (h : ChannelKeeps s x) : ChannelKeeps s (loadDuty x n) := by
  have hout : ∀ k j, NoCan (Reg.adcPwmduty k j) ∧ NoCan (Reg.adcPwmnarrow k j) ∧ NoCan (Reg.adcEvt k) := fun k j => by
    unfold Reg.adcPwmduty Reg.adcPwmnarrow Reg.adcEvt
    omega
  obtain ⟨hduty, hnarrow, hevt⟩ := hout (n / 4) (n % 4)
  exact .ite h (.ite (h.lookEntry.wr hduty) (((h.lookEntry.wr hduty).bump hnarrow).flag hevt).odoInc)

theorem ChannelKeeps.loadDuties (h : ChannelKeeps s x) : ChannelKeeps s (loadDuties x) := .ite (h.foldl fun _ _ _ hy => hy.loadDuty) h

/-- The commit of phase 9,000 leaves the channels alone, and of the timebase all but the phase (01 R51). -/
theorem commitDue_keeps (s : Chip) : ChannelKeeps s { commitDue s with tb := s.tb } ∧ (commitDue s).tb.tick = s.tb.tick := by
  have hnow : ChannelKeeps s { commitNow s with tb := s.tb } ∧ (commitNow s).tb.tick = s.tb.tick := by
    unfold commitNow
    split
    · exact ⟨.refl s, rfl⟩
    · extract_lets _ _ s1 s2
      have hs1 : ChannelKeeps s1 s2 := .loadDuties (.commitAll ((ChannelKeeps.refl s1).foldl fun _ _ _ hy => hy.noteOverrun))
      have htick : s2.tb.tick = s1.tb.tick := congrArg TimeBase.tick hs1.tb
      clear_value s2
      exact ⟨⟨hs1.can, rfl, hs1.inCore, hs1.led, hs1.words⟩, htick⟩
  unfold commitDue
  split
  · exact hnow
  · exact ⟨.refl s, rfl⟩

end Sys2Proof.Machine
end

section
/-!
PROOFS of the CAN channels (08). A release of the transmit matrix: what packing leaves alone, and each way in which a release ends.
-/

namespace Sys2Proof.Machine

/-! ### Packing -/

/-- From `s` on, `x` has kept what packing a buffer of channel `n` leaves alone: the channels' further state, their ledgers, the timebase and
CANn_CTL. -/
structure PackKeeps (n : Nat) (s x : Chip) : Prop where
  can : x.can = s.can
  tb : x.tb = s.tb
  led : ∀ k, 128 ≤ k → Tab.get 0 x.books.led k = Tab.get 0 s.books.led k
  ctl : canWord x n 0 = canWord s n 0

section Pack
variable {s x : Chip} {n b : Nat}

theorem PackKeeps.refl : PackKeeps n s s := ⟨rfl, rfl, fun _ _ => rfl, rfl⟩

/-- What leaves the channels alone is no more than packing does. -/
theorem PackKeeps.channels {y : Chip} (h : PackKeeps n s x) (hy : ChannelKeeps x y) (hn : n < 8) : PackKeeps n s y :=
  ⟨hy.can.trans h.can, hy.tb.trans h.tb, fun k hk => (hy.led k hk).trans (h.led k hk),
    (hy.words _ (by unfold canBase; omega) (by unfold canBase; omega)).trans h.ctl⟩

/-- A word of the window behind CANn_CTL. -/
theorem PackKeeps.wr {o : Nat} {w : Word} (h : PackKeeps n s x) (ho : 0 < o) : PackKeeps n s (x.wr (canBase n + o) w) :=
  ⟨h.can, h.tb, h.led, by rw [canWord_wr, if_neg (by omega), h.ctl]⟩

theorem PackKeeps.setBufByte {o : Nat} {v : Byte} (h : PackKeeps n s x) : PackKeeps n s (setBufByte x n b o v) := by
  have hflips : PackKeeps n s (clearFlips x (canBase n + 0x2000 + 0x80 * b + 8 + o / 4 * 4 + o % 4) 1) := ⟨h.can, h.tb, h.led, h.ctl⟩
  have hat : canBase n + 0x2000 + 0x80 * b + 8 + o / 4 * 4 = canBase n + (0x2000 + 0x80 * b + 8 + o / 4 * 4) := by omega
  unfold Machine.setBufByte Chip.wrF
  dsimp only
  rw [hat] at hflips ⊢
  exact hflips.wr (by omega)

theorem PackKeeps.packField {i : Nat} (h : PackKeeps n s x) (hn : n < 8) : PackKeeps n s (packField n b x i) := by
  unfold Machine.packField
  extract_lets e off w k
  have hlook : PackKeeps n s (lookEntry x 15 (fld e 17 0)).1 := h.channels (ChannelKeeps.refl x).lookEntry hn
  generalize lookEntry x 15 (fld e 17 0) = seen at hlook ⊢
  obtain ⟨s0, r⟩ := seen
  dsimp -zeta only
  extract_lets v s1 num bytes
  have hnarrow : PackKeeps n s (s0.bump (Reg.canNarrow n)) := by
    obtain ⟨-, ⟨-, -, -, -, -, -, -, hat, -⟩, -⟩ := canRegs_at n
    rw [hat]
    exact hlook.wr (by decide)
  have hs1 : PackKeeps n s s1 := by
    dsimp only [s1]
    split
    · exact hnarrow.channels (ChannelKeeps.refl _).odoInc hn
    · exact hlook
  exact List.foldlRecOn (motive := PackKeeps n s) _ _ hs1 fun _ hy _ _ => hy.setBufByte

theorem packBuffer_keeps (s : Chip) {n : Nat} (hn : n < 8) (b : Nat) : PackKeeps n s (packBuffer s n b) :=
  List.foldlRecOn (motive := PackKeeps n s) _ _ .refl fun _ hy _ _ => hy.packField hn

end Pack

/-! ### The ledgers of a channel -/

section Ledger
variable (s : Chip) (n : Nat)

theorem canExit_bounds (code : Nat) : 0 < canExit code ∧ canExit code < 16 := by
  unfold canExit
  split <;> decide

/-- A counter of a channel's ledger when one of them is advanced (19 R848, R849). -/
theorem ledGet_ledCan {i j : Nat} (hi : i < 16) (hj : j < 16) (k : Nat) :
    (s.ledCan n j k).ledGet (8 + n) i = if i = j then (s.ledGet (8 + n) i + k) % 2 ^ 64 else s.ledGet (8 + n) i := by
  have hfive : 16 * (8 + n) + i ≠ 16 * 5 + j := by omega
  unfold Chip.ledCan Chip.ledGet Chip.led
  rw [Tab.get_set_ne _ _ _ _ hfive]
  split
  · next h => rw [h, Tab.get_set_self]
  · next h => rw [Tab.get_set_ne _ _ _ _ (by omega)]

theorem canRetire_led (p : CanPend) (code : Nat) :
    (canRetire s n p code).books.led = (s.ledCan n (canExit code) 1).books.led := by
  have hbase : (retired s n p code).books.led = (s.ledCan n (canExit code) 1).books.led := by
    unfold retired
    split <;> rfl
  rw [canRetire_eq]
  split
  · simpa [Chip.canFlag] using hbase
  · split
    · simpa [Chip.canFlag] using hbase
    · exact hbase

end Ledger

/-! ### A release -/

/-- A transmission that a release retires at once: it never started (R377). -/
def goneAt (b : Nat) : CanPend := ⟨b, true, 0, 0, [], none, false⟩

/-- Buffer `b` is retired at its release with a result: what waits stays, and the unit is counted issued and retired (R374, R377, 19 R862). -/
def RetiredAt (n b code : Nat) (z x : Chip) : Prop :=
  (canSt x n).pend = (canSt z n).pend ∧ fld (canWord x n (resultAt b)) 15 0 = code ∧
    x.ledGet (8 + n) 0 = (z.ledGet (8 + n) 0 + 1) % 2 ^ 64 ∧
    x.ledGet (8 + n) (canExit code) = (z.ledGet (8 + n) (canExit code) + 1) % 2 ^ 64

section Release
variable {s z y : Chip} {n i b code : Nat}

/-- Packed or not, a buffer is retired with the count that `z` shows. -/
theorem retiredAt (hcan : y.can = z.can) (hled : ∀ k, 128 ≤ k → Tab.get 0 y.books.led k = Tab.get 0 z.books.led k)
    (hcode : code < 65536) :
    RetiredAt n b code z (canRetire (y.ledCan n 0 1) n (goneAt b) code) := by
  obtain ⟨hpos, hlt⟩ := canExit_bounds code
  have hget : ∀ j, y.ledGet (8 + n) j = z.ledGet (8 + n) j := fun j => hled _ (by omega)
  have hled : ∀ j, (canRetire (y.ledCan n 0 1) n (goneAt b) code).ledGet (8 + n) j =
      ((y.ledCan n 0 1).ledCan n (canExit code) 1).ledGet (8 + n) j := fun j => by rw [Chip.ledGet, canRetire_led, Chip.ledGet]
  refine ⟨?_, canRetire_result hcode, ?_, ?_⟩
  · rw [canSt_canRetire, canSt_ledCan, canSt_congr hcan]
  · rw [hled, ledGet_ledCan _ _ (by decide) hlt, if_neg (by omega), ledGet_ledCan _ _ (by decide) (by decide), if_pos rfl, hget]
  · rw [hled, ledGet_ledCan _ _ hlt hlt, if_pos rfl, ledGet_ledCan _ _ hlt (by decide), if_neg (by omega), hget]

/-- The words of a buffer stay as its result is written. -/
theorem bufWords_retire (hcode : ¬ (code = 1 ∨ code = 2)) : bufWords (canRetire (y.ledCan n 0 1) n (goneAt b) code) n b = bufWords y n b :=
  bufWords_congr fun o _ ho => by
    have hne : o ≠ resultAt (goneAt b).buf := by
      show o ≠ 0x2000 + 0x80 * b + 76
      omega
    rw [canWord_canRetire hne fun h => absurd h hcode, canWord_ledCan]

theorem releaseDue_iff : releaseDue s n i = true ↔ canOn s n = true ∧ i < s.rdF (Reg.canSchcfg n) 16 8 ∧
    canColumn s n = fld (canWord s n (0x6000 + 8 * i)) 9 0 ∧ s.rst.inCore = false := by
  simp [releaseDue, and_assoc]

/-- A release is due by the words of the window, the channel's state, the tick and the hold of CORE. -/
theorem releaseDue_congr (hcan : z.can = s.can) (hcore : z.rst.inCore = s.rst.inCore) (htick : z.tb.tick = s.tb.tick)
    (hw : ∀ o, o < 0x8000 → canWord z n o = canWord s n o) (hi : i < 256) : releaseDue z n i = releaseDue s n i := by
  obtain ⟨⟨-, -, -, -, -, -, -, hsch⟩, -⟩ := canRegs_at n
  simp only [releaseDue, canOn, canColumn, Chip.rdBit, Chip.rdF, rd_canCtl, hsch, rd_canBase, canSt_congr hcan, hcore, htick,
    hw _ (show 0 < 0x8000 by decide), hw _ (show 0x38 < 0x8000 by decide), hw (0x6000 + 8 * i) (by omega)]

end Release

section Branches
variable {z : Chip} {n i : Nat}

/-- The buffer that a matrix entry names (R370). -/
def releaseBuf (s : Chip) (n i : Nat) : Nat := fld (canWord s n (0x6000 + 8 * i)) 21 16

/-- Under LISTEN nothing is packed, and the buffer retires OFF (R374). -/
theorem canRelease_listen (hdue : releaseDue z n i = true) (hl : z.rdBit (Reg.canCtl n) 3 = true) : canRelease z n i =
    canRetire ((z.atPhase (releasePhase z n i)).ledCan n 0 1) n (goneAt (releaseBuf z n i)) 7 := by
  unfold canRelease
  rw [hdue]
  exact if_pos hl

/-- A buffer that is still pending or on the bus is skipped (R371). -/
theorem canRelease_busy (hdue : releaseDue z n i = true) (hl : z.rdBit (Reg.canCtl n) 3 = false) (hb : bufBusy z n (releaseBuf z n i) = true) :
    canRelease z n i = (z.atPhase (releasePhase z n i)).bump (Reg.canTxskip n) := by
  unfold canRelease
  rw [hdue]
  exact (if_neg (ne_true_of_eq_false hl)).trans (if_pos hb)

/-- A buffer that is free is packed; in bus-off it then retires BUSOFF, otherwise it waits for the bus (R371, R377). -/
theorem canRelease_packed (hdue : releaseDue z n i = true) (hl : z.rdBit (Reg.canCtl n) 3 = false)
    (hb : bufBusy z n (releaseBuf z n i) = false) :
    let s1 := packBuffer (z.atPhase (releasePhase z n i)) n (releaseBuf z n i)
    canRelease z n i = if canBusState s1 n = 3 then canRetire (s1.ledCan n 0 1) n (goneAt (releaseBuf z n i)) 4
      else makePending s1 n (releaseBuf z n i) true s1.nowNs (fld (canWord z n (0x6000 + 8 * i + 4)) 27 16) := by
  unfold canRelease
  rw [hdue]
  exact (if_neg (ne_true_of_eq_false hl)).trans (if_neg (ne_true_of_eq_false hb))

end Branches

theorem exec_canRelease (n : Fin 8) (j : Fin 256) (st : State) : exec (.canRelease n j) st = finish st (fun s =>
    if releaseDue s n.val j.val then canRelease (commitDue (s.atPhase (releasePhase s n.val j.val))) n.val j.val else s) := rfl

/-- What a release that is due begins from: its phase is reached, and the commit of phase 9,000 made where it stands by then (01 R51). -/
def releaseFrom (s : Chip) (n i : Nat) : Chip := commitDue (s.atPhase (releasePhase s n i))

/-- The commit leaves the release as it is: due, of the same buffer, at the same phase, with the same window. -/
theorem releaseFrom_keeps {s : Chip} {n i : Nat} (hn : n < 8) (hi : i < 256) : releaseDue (releaseFrom s n i) n i = releaseDue s n i ∧
    releaseBuf (releaseFrom s n i) n i = releaseBuf s n i ∧
    canWord (releaseFrom s n i) n (0x6000 + 8 * i + 4) = canWord s n (0x6000 + 8 * i + 4) := by
  obtain ⟨hkeep, htick⟩ := commitDue_keeps (s.atPhase (releasePhase s n i))
  have hw : ∀ o, o < 0x8000 → canWord (releaseFrom s n i) n o = canWord s n o := fun o ho =>
    hkeep.words _ (by unfold canBase; omega) (by unfold canBase; omega)
  exact ⟨releaseDue_congr hkeep.can hkeep.inCore htick hw hi, by rw [releaseBuf, releaseBuf, hw _ (by omega)], hw _ (by omega)⟩

section Completes
variable {s : State} {n : Fin 8} {j : Fin 256}

theorem completes_canRelease {P : Chip → Prop} (hdue : releaseDue s.chip n.val j.val = true)
    (hP : P (canRelease (releaseFrom s.chip n.val j.val) n.val j.val)) : Completes (.canRelease n j) s P :=
  ⟨_, by rw [exec_canRelease, finish_eq, if_pos hdue]; rfl, hP⟩

theorem releasePhase_releaseFrom : releasePhase (releaseFrom s.chip n.val j.val) n.val j.val = releasePhase s.chip n.val j.val := by
  rw [releasePhase, releasePhase, (releaseFrom_keeps n.isLt j.isLt).2.2]

/-- A release under LISTEN (R374). -/
theorem completes_canRelease_listen (hdue : releaseDue s.chip n.val j.val = true)
    (hl : (releaseFrom s.chip n.val j.val).rdBit (Reg.canCtl n.val) 3 = true) : Completes (.canRelease n j) s (fun x =>
      RetiredAt n.val (releaseBuf s.chip n.val j.val) 7 (releaseFrom s.chip n.val j.val) x ∧
      bufWords x n.val (releaseBuf s.chip n.val j.val) = bufWords (releaseFrom s.chip n.val j.val) n.val (releaseBuf s.chip n.val j.val)) := by
  obtain ⟨hz, hbuf, -⟩ := releaseFrom_keeps (s := s.chip) n.isLt j.isLt
  refine completes_canRelease hdue ?_
  rw [canRelease_listen (hz.trans hdue) hl, hbuf]
  exact ⟨retiredAt rfl (fun _ _ => rfl) (by decide), bufWords_retire (by decide)⟩

/-- A release of a buffer still busy (R371). -/
theorem completes_canRelease_busy (hdue : releaseDue s.chip n.val j.val = true)
    (hl : (releaseFrom s.chip n.val j.val).rdBit (Reg.canCtl n.val) 3 = false)
    (hb : bufBusy (releaseFrom s.chip n.val j.val) n.val (releaseBuf s.chip n.val j.val) = true) : Completes (.canRelease n j) s (fun x =>
      x.can = (releaseFrom s.chip n.val j.val).can ∧
      x.rd (Reg.canTxskip n.val) = (releaseFrom s.chip n.val j.val).rd (Reg.canTxskip n.val) + 1) := by
  obtain ⟨hz, hbuf, -⟩ := releaseFrom_keeps (s := s.chip) n.isLt j.isLt
  refine completes_canRelease hdue ?_
  rw [canRelease_busy (hz.trans hdue) hl (hbuf ▸ hb)]
  exact ⟨rfl, Chip.rd_bump ..⟩

/-- A release of a free buffer, packed, and what then becomes of it (R371, R377). -/
theorem completes_canRelease_packed (hdue : releaseDue s.chip n.val j.val = true)
    (hl : (releaseFrom s.chip n.val j.val).rdBit (Reg.canCtl n.val) 3 = false)
    (hb : bufBusy (releaseFrom s.chip n.val j.val) n.val (releaseBuf s.chip n.val j.val) = false) :
    let z := releaseFrom s.chip n.val j.val
    let b := releaseBuf s.chip n.val j.val
    let s0 := z.atPhase (releasePhase s.chip n.val j.val)
    (canBusState z n.val = 3 → Completes (.canRelease n j) s (fun x => RetiredAt n.val b 4 z x ∧
      bufWords x n.val b = bufWords (packBuffer s0 n.val b) n.val b)) ∧
    (canBusState z n.val ≠ 3 → Completes (.canRelease n j) s (fun x => (canSt x n.val).bus = (canSt z n.val).bus ∧
      (canSt x n.val).pend = (canSt z n.val).pend ++ [⟨b, true, s0.nowNs, fld (canWord s.chip n.val (0x6000 + 8 * j.val + 4)) 27 16,
        bufWords (packBuffer s0 n.val b) n.val b, none, false⟩])) := by
  intro z b s0
  obtain ⟨hz, hbuf, hw1⟩ := releaseFrom_keeps (s := s.chip) n.isLt j.isLt
  let s1 := packBuffer s0 n.val b
  have hpack : PackKeeps n.val s0 s1 := packBuffer_keeps s0 n.isLt b
  have hstate : canBusState s1 n.val = canBusState z n.val := canBusState_congr hpack.ctl (canSt_congr hpack.can _)
  have hrelease : canRelease z n.val j.val = if canBusState z n.val = 3 then canRetire (s1.ledCan n.val 0 1) n.val (goneAt b) 4
      else makePending s1 n.val b true s1.nowNs (fld (canWord s.chip n.val (0x6000 + 8 * j.val + 4)) 27 16) := by
    rw [canRelease_packed (hz.trans hdue) hl (hbuf ▸ hb), hbuf, hw1, releasePhase_releaseFrom]
    exact hstate ▸ rfl
  refine ⟨fun hoff => completes_canRelease hdue ?_, fun hon => completes_canRelease hdue ?_⟩
  · show _ ∧ _
    rw [hrelease, if_pos hoff]
    exact ⟨retiredAt hpack.can hpack.led (by decide), bufWords_retire (by decide)⟩
  · have hnow : s1.nowNs = s0.nowNs := by rw [Chip.nowNs, Chip.nowNs, hpack.tb]
    have hst : canSt s1 n.val = canSt z n.val := canSt_congr hpack.can _
    show _ ∧ _
    rw [hrelease, if_neg hon, canSt_makePending, hst, hnow]
    exact ⟨rfl, rfl⟩

/-- An entry of another column, or of a channel that is off (notes/assumptions/4.md). -/
theorem exec_canRelease_notDue (hs : Still s.chip) (hdue : releaseDue s.chip n.val j.val = false) : exec (.canRelease n j) s = .next s := by
  rw [exec_canRelease, finish_eq, hdue]
  exact congrArg (fun x => Host.Outcome.next { s with chip := x }) (settle_still hs)

end Completes

/-- RESULT as the statement reads it (R364, R368). -/
theorem rdF_result (x : Chip) (n b : Nat) : x.rdF (canBase n + 0x2000 + 0x80 * b + 76) 15 0 = fld (canWord x n (resultAt b)) 15 0 := by
  rw [Chip.rdF, resultAt_eq, rd_canBase]

/-- Settles O27: requests and aborts by induction over the buffers named; a release by its branches, of which the commit before it and the
packing leave the channel alone. -/
theorem canRequestsAbortsAndReleases : Obligations.CanRequestsAbortsAndReleases := by
  unfold Obligations.CanRequestsAbortsAndReleases
  intro s n c
  obtain ⟨⟨-, -, herr, -⟩, ⟨-, -, -, -, -, hlate, -⟩, hevt, -⟩ := canRegs_at n.val
  refine ⟨?_, ?_, ?_, ?_⟩
  · intro who hi mask hm named ok
    obtain ⟨x, hx, hst, hbusy⟩ := completes_canTxreq hm
    refine ⟨x, hx, by rw [hst], by rw [hst]; rfl, fun hno => ?_⟩
    obtain ⟨herrw, hevtw⟩ := hbusy hno
    rw [Chip.rdBit, herr, hevt]
    exact ⟨herrw, hevtw⟩
  · intro who hi mask hm named waits
    obtain ⟨x, hx, hst, hres⟩ := completes_canTxabort hm
    have hnamed : ∀ b, decide (b ∈ namedBufs hi mask) = named b := fun b => by
      rw [Bool.eq_iff_iff]
      simp [named, mem_namedBufs]
    refine ⟨x, hx, ?_, ?_, fun b hb hw => ?_⟩
    · rw [hst]
      simp only [hnamed]
      rfl
    · rw [hst]
      refine congrArg (Option.map · _) (funext fun p => ?_)
      rw [quitIf, hnamed]
      rfl
    · rw [rdF_result]
      exact hres b (of_decide_eq_true ((hnamed b).trans hb)) hw
  · intro j w0 w1 b due z s0 retired
    have hdue : due ↔ releaseDue s.chip n.val j.val = true := releaseDue_iff.symm
    simp only [retired, rdF_result]
    refine ⟨fun hd hl => completes_canRelease_listen (hdue.1 hd) hl, fun hd hl => ⟨fun hb => completes_canRelease_busy (hdue.1 hd) hl hb,
      fun hb => (completes_canRelease_packed (hdue.1 hd) hl hb).1, fun hb => (completes_canRelease_packed (hdue.1 hd) hl hb).2⟩,
      fun hs hd => exec_canRelease_notDue hs (eq_false_of_ne_true (mt hdue.2 hd))⟩
  · intro b ph p hp hs hwin
    obtain ⟨x, hx, hpend, hcount, hres⟩ := completes_canWindowExpiry hp hs hwin
    refine ⟨x, hx, hpend, ?_, ?_⟩
    · rw [hlate]
      exact hcount
    · rw [rdF_result, hres]

end Sys2Proof.Machine
end

section
/-!
PROOFS of the CAN channels (08). Frames received: the receive FIFO, extraction, and the ways in which a frame is answered.
-/

namespace Sys2Proof.Machine

/-! ### The receive FIFO -/

/-- Words written one behind the other: each stands in its place, and no other changes. -/
theorem rd_foldl_wr (a m : Nat) (v : Nat → Word) (s : Chip) (b : Nat) :
    ((List.range m).foldl (fun x i => x.wr (a + 4 * i) (v i)) s).rd b = if ∃ i < m, b = a + 4 * i then v ((b - a) / 4) else s.rd b := by
  induction m with
  | zero => simp
  | succ m ih =>
    rw [List.range_succ, List.foldl_append, List.foldl_cons, List.foldl_nil, Chip.rd_wr, ih]
    by_cases hb : b = a + 4 * m
    · have hm : (b - a) / 4 = m := by omega
      rw [if_pos hb, if_pos ⟨m, m.lt_succ_self, hb⟩, hm]
    · have hex : (∃ i < m + 1, b = a + 4 * i) ↔ ∃ i < m, b = a + 4 * i :=
        ⟨fun ⟨i, hi, he⟩ => ⟨i, (Nat.lt_succ_iff_lt_or_eq.1 hi).resolve_right fun h => hb (h ▸ he), he⟩, fun ⟨i, hi, he⟩ => ⟨i, by omega, he⟩⟩
      simp only [if_neg hb, hex]

theorem foldl_wr_store (a m : Nat) (v : Nat → Word) (s : Chip) :
    ((List.range m).foldl (fun x i => x.wr (a + 4 * i) (v i)) s).store = s.store :=
  List.foldlRecOn (motive := fun x : Chip => x.store = s.store) _ _ rfl fun _ hx _ _ => hx

section Fifo
variable {s : Chip} {n i : Nat} {f : CanFrame}

/-- Where the entry at the tail stands in the window (R360). -/
def entryOffset (s : Chip) (n : Nat) : Nat := 0x4000 + 80 * (s.rdF (Reg.canRxtail n) 6 0 % 64)

/-- Fullness goes by the two pointers (R390). -/
theorem fifoFull_congr {x : Chip} (hh : canWord x n 0x30 = canWord s n 0x30) (ht : canWord x n 0x34 = canWord s n 0x34) :
    fifoFull x n = fifoFull s n := by
  obtain ⟨⟨-, -, -, -, -, hhead, htail, -⟩, -, -⟩ := canRegs_at n
  simp only [fifoFull, Chip.rdF, Chip.rdBit, hhead, htail, rd_canBase, hh, ht]

/-- A full FIFO counts the frame lost (R361). -/
theorem fifoEnter_full (h : fifoFull s n = true) :
    let x := fifoEnter s n i f
    canWord x n 0x44 = canWord s n 0x44 + 1 ∧ bit (canWord x n 0x70) 1 = true ∧ ∀ o, o ≠ 0x44 → o ≠ 0x70 → canWord x n o = canWord s n o := by
  obtain ⟨-, ⟨-, hlost, -⟩, -⟩ := canRegs_at n
  have hfull : fifoEnter s n i f = (s.bump (canBase n + 0x44)).canFlag n 1 := hlost ▸ if_pos h
  simp only [hfull, canWord_canFlag, canWord_bump]
  exact ⟨rfl, bit_setBit_self _ _ (by decide), fun o ho he => by rw [if_neg he, if_neg ho]⟩

/-- An FIFO with room takes the frame into the entry at its tail (R360, R390). -/
theorem fifoEnter_room (h : fifoFull s n = false) :
    let x := fifoEnter s n i f
    fld (canWord x n 0x34) 6 0 = (s.rdF (Reg.canRxtail n) 6 0 + 1) % 128 ∧ canWord x n (entryOffset s n) = wn f.sofTick.toNat ∧
      canWord x n (entryOffset s n + 8) = f.id ∧
      (∀ k < 16, canWord x n (entryOffset s n + 16 + 4 * k) = wn (leAt (f.data.take 64) (4 * k) 4)) ∧
      ∀ o, o < 0x4000 → o ≠ 0x34 → o ≠ 0x70 → canWord x n o = canWord s n o := by
  obtain ⟨⟨-, -, -, -, -, -, htail, -⟩, -, -⟩ := canRegs_at n
  have hbase : canBase n + 0x4000 + 80 * (s.rdF (Reg.canRxtail n) 6 0 % 64) = canBase n + entryOffset s n := by
    unfold entryOffset
    omega
  unfold fifoEnter
  rw [if_neg (by simp [h])]
  extract_lets tail a len w3 s1 s2
  have ha : a = canBase n + entryOffset s n := hbase
  have hs1 : ∀ o, canWord s1 n o = if o = entryOffset s n + 12 then wn w3 else if o = entryOffset s n + 8 then f.id
      else if o = entryOffset s n + 4 then wn (f.sofTick.toNat / 2 ^ 32 + 65536 * (s.seenPhase f.sofPhase % 16384))
      else if o = entryOffset s n then wn f.sofTick.toNat else canWord s n o := fun o => by
    simp only [s1, ha, Nat.add_assoc, canWord_wr, canWord_clearFlips]
  have hs2 : ∀ o, canWord s2 n o = if ∃ k < 16, o = entryOffset s n + 16 + 4 * k
      then wn (leAt (f.data.take 64) (4 * ((o - (entryOffset s n + 16)) / 4)) 4) else canWord s1 n o := fun o => by
    have hplace : ∀ k, canBase n + o = a + 16 + 4 * k ↔ o = entryOffset s n + 16 + 4 * k := fun k => by
      rw [ha]
      omega
    have hoff : canBase n + o - (a + 16) = o - (entryOffset s n + 16) := by
      rw [ha]
      omega
    refine (rd_foldl_wr (a + 16) 16 (fun k => wn (leAt (f.data.take 64) (4 * k) 4)) s1 (canBase n + o)).trans ?_
    simp only [hplace, hoff]
    rfl
  have hx : ∀ o, canWord ((s2.wrF (Reg.canRxtail n) 6 0 ((tail + 1) % 128)).canFlag n 0) n o =
      if o = 0x70 then setBit (canWord s2 n 0x70) 0 true else if o = 0x34 then setFld (canWord s2 n 0x34) 6 0 ((tail + 1) % 128)
      else canWord s2 n o := fun o => by
    rw [canWord_canFlag, htail]
    simp only [canWord_wrF]
    rfl
  have hlow : 0x4000 ≤ entryOffset s n := by
    unfold entryOffset
    omega
  have hdata : ∀ k < 16, ∃ j < 16, entryOffset s n + 16 + 4 * k = entryOffset s n + 16 + 4 * j := fun k hk => ⟨k, hk, rfl⟩
  have hno : ∀ o, o < entryOffset s n + 16 → ¬ ∃ j < 16, o = entryOffset s n + 16 + 4 * j := fun o ho ⟨j, _, hj⟩ => by omega
  refine ⟨?_, ?_, ?_, fun k hk => ?_, fun o ho ht he => ?_⟩
  · rw [hx, if_neg (by decide), if_pos rfl, fld_setFld_self _ _ (by decide) (by decide)]
    exact Nat.mod_eq_of_lt (Nat.mod_lt _ (by decide))
  · rw [hx, if_neg (by omega), if_neg (by omega), hs2, if_neg (hno _ (by omega)), hs1, if_neg (by omega), if_neg (by omega), if_neg (by omega),
      if_pos rfl]
  · rw [hx, if_neg (by omega), if_neg (by omega), hs2, if_neg (hno _ (by omega)), hs1, if_neg (by omega), if_pos rfl]
  · have hk4 : (entryOffset s n + 16 + 4 * k - (entryOffset s n + 16)) / 4 = k := by omega
    rw [hx, if_neg (by omega), if_neg (by omega), hs2, if_pos (hdata k hk), hk4]
  · rw [hx, if_neg he, if_neg ht, hs2, if_neg (hno _ (by omega)), hs1, if_neg (by omega), if_neg (by omega), if_neg (by omega),
      if_neg (by omega)]

theorem fifoEnter_store : (fifoEnter s n i f).store = s.store := by
  unfold fifoEnter
  split
  · simp [Chip.canFlag]
  · extract_lets tail a len w3 s1 s2
    have hs2 : s2.store = s.store := foldl_wr_store (a + 16) 16 (fun k => wn (leAt (f.data.take 64) (4 * k) 4)) s1
    clear_value s2
    rw [Chip.canFlag, Chip.flag_store]
    exact hs2

end Fifo

/-! ### Extraction -/

section Extract
variable (s : Chip) {n : Nat} (f : CanFrame) (cfg : Word)

/-- An extraction counts short fields and flags them; of the window it writes nothing else (R363). -/
theorem canWord_canExtract (hn : n < 8) {o : Nat} (ho : o < 0x8000) (hs : o ≠ 0x4C) : canWord (canExtract s n f cfg) n o = canWord s n o ∨
    o = 0x70 ∧ canWord (canExtract s n f cfg) n o = setBit (canWord s n o) 8 true := by
  unfold canExtract
  extract_lets fields short writes s1 fd tag
  have hkeep : canWord (transaction s1 2 ⟨15, .chan 0 n, .none⟩ tag writes (leBytes 4 (fld f.id 28 0) ++ padTo 56 (f.data.take 64))) n o =
      canWord s1 n o :=
    ((ChannelKeeps.refl s1).transaction (by decide)).words _ (by unfold canBase; omega) (by unfold canBase; omega)
  rw [hkeep]
  dsimp only [s1]
  split
  · exact .inl rfl
  · by_cases h : o = 0x70
    · subst h
      exact .inr ⟨rfl, by simp [canRegs_at, canWord_bumpBy]⟩
    · exact .inl (by simp [canRegs_at, canWord_bumpBy, h, hs])

end Extract

/-- The extraction leaves the other flags (R393). -/
theorem flag_canExtract (s : Chip) {n : Nat} (f : CanFrame) (cfg : Word) (hn : n < 8) {b : Nat} (hb : b ≠ 8) :
    bit (canWord (canExtract s n f cfg) n 0x70) b = bit (canWord s n 0x70) b := by
  rcases canWord_canExtract s f cfg hn (o := 0x70) (by decide) (by decide) with h | ⟨-, h⟩
  · rw [h]
  · rw [h, bit_setBit_ne _ _ (by decide) hb]

/-! ### A frame taken -/

section Take
variable {s : Chip} {n i : Nat} {f : CanFrame}

/-- The filters stand in the window (R358). -/
theorem takingFilter_congr {x : Chip} (h : ∀ o, 0x1000 ≤ o → o < 0x1800 → canWord x n o = canWord s n o) (id : Word) :
    takingFilter x n id = takingFilter s n id := by
  have hfilter : ∀ j ∈ List.range 128, filterTakes x n id j = filterTakes s n id j := fun j hj => by
    have hlt : j < 128 := List.mem_range.1 hj
    simp only [filterTakes, h _ (show 0x1000 ≤ 0x1000 + 16 * j by omega) (by omega), h _ (show 0x1000 ≤ 0x1004 + 16 * j by omega) (by omega),
      h _ (show 0x1000 ≤ 0x1008 + 16 * j by omega) (by omega)]
  unfold takingFilter
  generalize List.range 128 = l at hfilter ⊢
  induction l with
  | nil => rfl
  | cons j l ih =>
    rw [List.find?_cons, List.find?_cons, hfilter j (List.mem_cons_self ..), ih fun k hk => hfilter k (List.mem_cons_of_mem _ hk)]

/-- The filter that takes a frame is the lowest that does (R359). -/
theorem takingFilter_lowest {id : Word} (h : takingFilter s n id = some i) : i < 128 ∧ ∀ j < i, filterTakes s n id j = false := by
  obtain ⟨-, hi, hlow⟩ := List.find?_range_eq_some.1 h
  exact ⟨List.mem_range.1 hi, fun j hj => by simpa using hlow j hj⟩

/-- A filter's action (R358). -/
def filterAct (s : Chip) (n i : Nat) : Nat := fld (canWord s n (0x1008 + 16 * i)) 5 4

/-- The frame counted, and entered where the filter's action is FIFO or both (R360). -/
def countedIn (s : Chip) (n i : Nat) (f : CanFrame) : Chip :=
  if filterAct s n i = 1 ∨ filterAct s n i = 3 then fifoEnter (s.bump (Reg.canRxcnt n)) n i f else s.bump (Reg.canRxcnt n)

theorem takeFrame_none (h : takingFilter s n f.id = none) : takeFrame s n f = s.bump (Reg.canRxnomatch n) := by
  unfold takeFrame
  rw [h]

theorem takeFrame_some (h : takingFilter s n f.id = some i) : takeFrame s n f =
    if filterAct s n i ≥ 2 then canExtract (countedIn s n i f) n f (canWord s n (0x1008 + 16 * i)) else countedIn s n i f := by
  unfold takeFrame
  rw [h]
  rfl

/-- An extraction after the count changes of the window but SHORTCNT and CANn_EVT, where it flags the short fields. -/
theorem canWord_takeFrame (hn : n < 8) (h : takingFilter s n f.id = some i) {o : Nat} (ho : o < 0x8000) (hs : o ≠ 0x4C) (he : o ≠ 0x70) :
    canWord (takeFrame s n f) n o = canWord (countedIn s n i f) n o := by
  rw [takeFrame_some h]
  split
  · exact (canWord_canExtract _ f _ hn ho hs).resolve_right fun h => he h.1
  · rfl

theorem flag_takeFrame (hn : n < 8) (h : takingFilter s n f.id = some i) {b : Nat} (hb : b ≠ 8) :
    bit (canWord (takeFrame s n f) n 0x70) b = bit (canWord (countedIn s n i f) n 0x70) b := by
  rw [takeFrame_some h]
  split
  · exact flag_canExtract _ f _ hn hb
  · rfl

/-- The count leaves the two pointers, by which the FIFO is full or not. -/
theorem fifoFull_bump : fifoFull (s.bump (Reg.canRxcnt n)) n = fifoFull s n := by
  obtain ⟨-, ⟨hcnt, -⟩, -⟩ := canRegs_at n
  exact fifoFull_congr (by rw [hcnt, canWord_bump]; rfl) (by rw [hcnt, canWord_bump]; rfl)

/-- What a taken frame leaves (R359–R361), in the words of the window. -/
structure TakenAt (n i : Nat) (f : CanFrame) (s x : Chip) : Prop where
  count : canWord x n 0x40 = canWord s n 0x40 + 1
  entered : filterAct s n i = 1 ∨ filterAct s n i = 3 → fifoFull s n = false →
    fld (canWord x n 0x34) 6 0 = (s.rdF (Reg.canRxtail n) 6 0 + 1) % 128 ∧ canWord x n (entryOffset s n + 8) = f.id ∧
      canWord x n (entryOffset s n) = wn f.sofTick.toNat ∧
      ∀ k < 16, canWord x n (entryOffset s n + 16 + 4 * k) = wn (leAt (f.data.take 64) (4 * k) 4)
  lost : filterAct s n i = 1 ∨ filterAct s n i = 3 → fifoFull s n = true →
    canWord x n 0x34 = canWord s n 0x34 ∧ canWord x n 0x44 = canWord s n 0x44 + 1 ∧ bit (canWord x n 0x70) 1 = true
  store : filterAct s n i = 0 ∨ filterAct s n i = 1 → x.store = s.store

theorem takeFrame_taken (hn : n < 8) (h : takingFilter s n f.id = some i) : TakenAt n i f s (takeFrame s n f) := by
  obtain ⟨-, ⟨hcnt, -⟩, -⟩ := canRegs_at n
  have hbump : ∀ o, o ≠ 0x40 → canWord (s.bump (Reg.canRxcnt n)) n o = canWord s n o := fun o ho => by rw [hcnt, canWord_bump, if_neg ho]
  have htail : (s.bump (Reg.canRxcnt n)).rdF (Reg.canRxtail n) 6 0 = s.rdF (Reg.canRxtail n) 6 0 := by
    obtain ⟨⟨-, -, -, -, -, -, hat, -⟩, -, -⟩ := canRegs_at n
    rw [Chip.rdF, Chip.rdF, hat, rd_canBase, rd_canBase, hbump _ (by decide)]
  have hoff : entryOffset (s.bump (Reg.canRxcnt n)) n = entryOffset s n := by rw [entryOffset, entryOffset, htail]
  have hspan : 0x4000 ≤ entryOffset s n ∧ entryOffset s n < 0x53B1 := by
    unfold entryOffset
    omega
  constructor
  case count =>
    rw [canWord_takeFrame hn h (by decide) (by decide) (by decide), countedIn]
    have hone : canWord (s.bump (Reg.canRxcnt n)) n 0x40 = canWord s n 0x40 + 1 := by rw [hcnt, canWord_bump, if_pos rfl]
    split
    · cases hfull : fifoFull (s.bump (Reg.canRxcnt n)) n
      · obtain ⟨-, -, -, -, hother⟩ := fifoEnter_room (i := i) (f := f) hfull
        rw [hother _ (by decide) (by decide) (by decide), hone]
      · obtain ⟨-, -, hother⟩ := fifoEnter_full (i := i) (f := f) hfull
        rw [hother _ (by decide) (by decide), hone]
    · exact hone
  case entered =>
    intro hact hfull
    obtain ⟨htl, hsof, hid, hdata, -⟩ := fifoEnter_room (i := i) (f := f) (fifoFull_bump.trans hfull)
    rw [hoff] at hsof hid hdata
    have hword : ∀ o, o < 0x8000 → o ≠ 0x4C → o ≠ 0x70 →
        canWord (takeFrame s n f) n o = canWord (fifoEnter (s.bump (Reg.canRxcnt n)) n i f) n o := fun o ho hs he => by
      rw [canWord_takeFrame hn h ho hs he, countedIn, if_pos hact]
    refine ⟨?_, ?_, ?_, fun k hk => ?_⟩
    · rw [hword _ (by decide) (by decide) (by decide), htl, htail]
    · rw [hword _ (by omega) (by omega) (by omega), hid]
    · rw [hword _ (by omega) (by omega) (by omega), hsof]
    · rw [hword _ (by omega) (by omega) (by omega), hdata k hk]
  case lost =>
    intro hact hfull
    obtain ⟨hcount, hflag, hother⟩ := fifoEnter_full (i := i) (f := f) (fifoFull_bump.trans hfull)
    have hin : countedIn s n i f = fifoEnter (s.bump (Reg.canRxcnt n)) n i f := if_pos hact
    refine ⟨?_, ?_, ?_⟩
    · rw [canWord_takeFrame hn h (by decide) (by decide) (by decide), hin, hother _ (by decide) (by decide), hbump _ (by decide)]
    · rw [canWord_takeFrame hn h (by decide) (by decide) (by decide), hin, hcount, hbump _ (by decide)]
    · rw [flag_takeFrame hn h (by decide), hin, hflag]
  case store =>
    intro hact
    rw [takeFrame_some h, if_neg (by omega), countedIn]
    split
    · exact fifoEnter_store
    · rfl

end Take

end Sys2Proof.Machine
end

section
/-!
PROOFS of the CAN channels (08). How a channel answers a received frame, which pending frame it offers, and how its own frame ends.
-/

namespace Sys2Proof.Machine

/-! ### A received frame -/

/-- The channel hears frames: it runs, and has none of its own on the bus (R354, R376). -/
def Hears (s : Chip) (n : Nat) : Prop := (canBusState s n = 1 ∨ canBusState s n = 2) ∧ (canSt s n).bus = none

section Receive
variable {s : Chip} {n ph : Nat} {f : CanFrame}

theorem canReceive_deaf (h : ¬ Hears s n) : canReceive s n ph f = s := by
  refine if_pos ?_
  rw [Hears] at h
  rcases hb : (canSt s n).bus with _ | p
  · exact .inl ⟨fun h1 => h ⟨.inl h1, hb⟩, fun h2 => h ⟨.inr h2, hb⟩⟩
  · exact .inr rfl

theorem not_deaf (h : Hears s n) : ¬ ((canBusState s n ≠ 1 ∧ canBusState s n ≠ 2) ∨ (canSt s n).bus.isSome) := by
  obtain ⟨hst, hbus⟩ := h
  rw [hbus]
  rintro (⟨h1, h2⟩ | h)
  · exact hst.elim h1 h2
  · cases h

/-- The state in which a frame without error is taken: REC has gone down, and is shown (R376). -/
def heardIn (s : Chip) (n ph : Nat) : Chip :=
  syncCanStat (setCan (s.atPhase ph) n { canSt s n with recv := recvOk (canSt s n).recv }) n

theorem canReceive_good (h : Hears s n) (hfd : bit f.id 30 = true → s.rdBit (Reg.canCtl n) 2 = true ∧ f.res = false) :
    canReceive s n ph f = takeFrame (heardIn s n ph) n f := by
  unfold canReceive
  rw [if_neg (not_deaf h)]
  cases hf : bit f.id 30
  · rfl
  · obtain ⟨hen, hres⟩ := hfd hf
    rw [hen, hres]
    rfl

theorem canReceive_form (h : Hears s n) (hf : bit f.id 30 = true)
    (hbad : ¬ s.rdBit (Reg.canCtl n) 2 = true ∨ (f.res = true ∧ ¬ s.rdBit (Reg.canCtl n) 6 = true)) :
    canReceive s n ph f = canBusError s n ph 2 (.frame false false) none := by
  unfold canReceive
  rw [if_neg (not_deaf h), hf]
  cases hen : s.rdBit (Reg.canCtl n) 2
  · rfl
  · obtain ⟨hres, hno⟩ := hbad.resolve_left (not_not.2 hen)
    rw [hres, eq_false_of_ne_true hno]
    rfl

theorem canReceive_exception (h : Hears s n) (hf : bit f.id 30 = true) (hen : s.rdBit (Reg.canCtl n) 2 = true) (hres : f.res = true)
    (hpx : s.rdBit (Reg.canCtl n) 6 = true) :
    canReceive s n ph f = syncCanStat (setCan (s.atPhase ph) n { canSt s n with joined := false }) n := by
  unfold canReceive
  rw [if_neg (not_deaf h), hf, hen, hres, hpx]
  rfl

/-- A channel that has not joined is off the bus (R381, R387). -/
theorem canBusState_notJoined {x : Chip} (h : (canSt x n).joined = false) : canBusState x n = 0 := by
  simp [canBusState, h]

/-! ### A form error -/

theorem canLeave_regs (x : Chip) : (canLeave x n).regs = x.regs ∧ (canLeave x n).store = x.store := by
  unfold canLeave
  dsimp only
  split <;> exact ⟨rfl, rfl⟩

/-- Short of bus-off an error's end writes CANn_STAT, where LEC stays, the flags and the pending registers; the store stays. -/
theorem canErrorState_below {x : Chip} {before : Nat} (h : (canSt x n).tec ≤ 255) :
    (∀ o, o ∉ [0x10, 0x28, 0x2C, 0x70] → canWord (canErrorState x n before) n o = canWord x n o) ∧
      fld (canWord (canErrorState x n before) n 0x10) 29 27 = fld (canWord x n 0x10) 29 27 ∧ (canErrorState x n before).store = x.store := by
  unfold canErrorState
  rw [if_neg (by omega)]
  extract_lets s1 s2
  have hword : ∀ o, o ≠ 0x70 → canWord s2 n o = canWord x n o := fun o ho => by
    dsimp only [s2]
    split
    · simp [s1, ho]
    · rfl
  have hstore : s2.store = x.store := by
    dsimp only [s2]
    split
    · simp [s1, Chip.canFlag]
    · rfl
  have hleave : ∀ o, canWord (canLeave s2 n) n o = canWord s2 n o := fun o => canWord_congr (canLeave_regs s2).1 n o
  refine ⟨fun o ho => ?_, ?_, ?_⟩
  · simp only [List.mem_cons, List.not_mem_nil, or_false, not_or] at ho
    obtain ⟨hstat, h0, h1, hevt⟩ := ho
    rw [canWord_syncCanPend _ _ h0 h1, canWord_syncCanStat _ _ hstat, hleave, hword o hevt]
  · rw [canWord_syncCanPend _ _ (by decide) (by decide), lec_syncCanStat, hleave, hword _ (by decide)]
  · exact (canLeave_regs s2).2.trans hstore

/-- An error counted writes CANn_BUSERR, LEC and its flag (R376, R387, R393). -/
theorem canWord_noteBusError (x : Chip) (n code : Nat) {o : Nat} (ho : o ≠ 0x70) : canWord (noteBusError x n code) n o =
    if o = 0x10 then setFld (canWord x n 0x10) 29 27 code else if o = 0x60 then canWord x n 0x60 + 1 else canWord x n o := by
  simp [noteBusError, canRegs_at, canWord_wrF, canWord_bump, ho]

theorem noteBusError_store (x : Chip) (n code : Nat) : (noteBusError x n code).store = x.store := by
  simp only [noteBusError, Chip.canFlag, Chip.odoInc_store, Chip.flag_store]
  rfl

/-- A form error of a received frame is counted, its code stands in LEC, and the receive counts and the store stay (R376, R384). -/
theorem formError_noted (h : Hears s n) : let x := canBusError s n ph 2 (.frame false false) none
    canWord x n 0x60 = canWord s n 0x60 + 1 ∧ fld (canWord x n 0x10) 29 27 = 2 ∧ canWord x n 0x40 = canWord s n 0x40 ∧ x.store = s.store := by
  obtain ⟨hst, hbus⟩ := h
  let y := setCan (noteBusError (s.atPhase ph) n 2) n { canCount (canSt s n) 2 (.frame false false) with bus := none, flagTx := false }
  have hx : canBusError s n ph 2 (.frame false false) none = canErrorState y n (canBusState s n) := by
    unfold canBusError
    rw [if_neg (by omega)]
    simp only [hbus]
    rfl
  have htec : (canSt y n).tec ≤ 255 := by
    have hcount : (canCount (canSt s n) 2 (.frame false false)).tec = (canSt s n).tec := by
      simp [canCount, hbus]
    rw [canSt_setCan]
    exact hcount.trans_le (canBusState_active hst)
  have hword : ∀ o, o ≠ 0x70 → canWord y n o =
      if o = 0x10 then setFld (canWord s n 0x10) 29 27 2 else if o = 0x60 then canWord s n 0x60 + 1 else canWord s n o :=
    fun o ho => (canWord_setCan ..).trans (canWord_noteBusError _ _ _ ho)
  obtain ⟨hother, hlec, hstore⟩ := canErrorState_below (before := canBusState s n) htec
  rw [hx]
  refine ⟨?_, ?_, ?_, ?_⟩
  · rw [hother _ (by decide), hword _ (by decide)]
    rfl
  · rw [hlec, hword _ (by decide)]
    exact fld_setFld_self _ _ (by decide) (by decide)
  · rw [hother _ (by decide), hword _ (by decide)]
    rfl
  · exact hstore.trans (noteBusError_store ..)

/-! ### A good frame -/

/-- Hearing a frame shows REC in CANn_STAT, and leaves the rest of the window, and the store. -/
theorem canWord_heardIn {o : Nat} (h : o ≠ 0x10) : canWord (heardIn s n ph) n o = canWord s n o := canWord_syncCanStat _ _ h

theorem takingFilter_heardIn (id : Word) : takingFilter (heardIn s n ph) n id = takingFilter s n id :=
  takingFilter_congr (fun _ h1 _ => canWord_heardIn (by omega)) id

/-- What a taken frame leaves does not depend on whether REC is shown before it. -/
theorem TakenAt.ofHeardIn {i : Nat} {x : Chip} (h : TakenAt n i f (heardIn s n ph) x) : TakenAt n i f s x := by
  obtain ⟨⟨-, -, -, -, -, -, htail, -⟩, -, -⟩ := canRegs_at n
  have hact : filterAct (heardIn s n ph) n i = filterAct s n i := by rw [filterAct, filterAct, canWord_heardIn (by omega)]
  have hfull : fifoFull (heardIn s n ph) n = fifoFull s n := fifoFull_congr (canWord_heardIn (by decide)) (canWord_heardIn (by decide))
  have hptr : (heardIn s n ph).rdF (Reg.canRxtail n) 6 0 = s.rdF (Reg.canRxtail n) 6 0 := by
    rw [Chip.rdF, Chip.rdF, htail, rd_canBase, rd_canBase, canWord_heardIn (by decide)]
  have hoff : entryOffset (heardIn s n ph) n = entryOffset s n := by rw [entryOffset, entryOffset, hptr]
  obtain ⟨hcount, hentered, hlost, hstore⟩ := h
  rw [hact] at hentered hlost hstore
  rw [hfull] at hentered hlost
  rw [hptr, hoff] at hentered
  rw [canWord_heardIn (by decide)] at hcount hlost
  rw [canWord_heardIn (by decide)] at hlost
  exact ⟨hcount, hentered, hlost, hstore⟩

end Receive

theorem exec_canFrameValid (n : Fin 8) (ph : Phase) (f : CanFrame) (st : State) :
    exec (.canFrameValid n ph f) st = finish st (fun s => canReceive s n.val ph.val f) := rfl

section Valid
variable {s : State} {n : Fin 8} {ph : Phase} {f : CanFrame}

/-- A frame that no filter takes (R361). -/
theorem completes_canFrameValid_unmatched (h : Hears s.chip n.val)
    (hfd : bit f.id 30 = true → s.chip.rdBit (Reg.canCtl n.val) 2 = true ∧ f.res = false) (hno : takingFilter s.chip n.val f.id = none) :
    Completes (.canFrameValid n ph f) s (fun x => canWord x n.val 0x48 = canWord s.chip n.val 0x48 + 1 ∧
      canWord x n.val 0x34 = canWord s.chip n.val 0x34 ∧ x.store = s.chip.store) := by
  obtain ⟨-, ⟨-, -, hcnt, -⟩, -⟩ := canRegs_at n.val
  refine ⟨(heardIn s.chip n.val ph.val).bump (canBase n.val + 0x48), ?_, ?_, ?_, rfl⟩
  · rw [exec_canFrameValid, finish_eq, canReceive_good h hfd, takeFrame_none ((takingFilter_heardIn _).trans hno), hcnt]
  · rw [canWord_bump, if_pos rfl, canWord_heardIn (by decide)]
  · rw [canWord_bump, if_neg (by decide), canWord_heardIn (by decide)]

/-- A frame that a filter takes (R359, R360). -/
theorem completes_canFrameValid_taken {i : Nat} (h : Hears s.chip n.val)
    (hfd : bit f.id 30 = true → s.chip.rdBit (Reg.canCtl n.val) 2 = true ∧ f.res = false) (hi : takingFilter s.chip n.val f.id = some i) :
    Completes (.canFrameValid n ph f) s (TakenAt n.val i f s.chip) :=
  ⟨_, by rw [exec_canFrameValid, finish_eq, canReceive_good h hfd], (takeFrame_taken n.isLt ((takingFilter_heardIn _).trans hi)).ofHeardIn⟩

/-- Showing the state writes CANn_STAT alone. -/
theorem syncCanStat_keepsRegs (x : Chip) (n : Nat) : KeepsRegsBut [Reg.canStat n] x (syncCanStat x n) :=
  ((((KeepsRegsBut.refl _ x).wr (List.mem_singleton_self _)).wr (List.mem_singleton_self _)).wr (List.mem_singleton_self _)).wr
    (List.mem_singleton_self _)

/-- A recessive res bit under PXHD: the channel waits for the bus to be idle (ISO 11898-1). -/
theorem completes_canFrameValid_exception (h : Hears s.chip n.val) (hf : bit f.id 30 = true)
    (hen : s.chip.rdBit (Reg.canCtl n.val) 2 = true) (hres : f.res = true) (hpx : s.chip.rdBit (Reg.canCtl n.val) 6 = true) :
    Completes (.canFrameValid n ph f) s (fun x => canSt x n.val = { canSt s.chip n.val with joined := false } ∧ canBusState x n.val = 0 ∧
      KeepsRegsBut [Reg.canStat n.val] s.chip x ∧ x.store = s.chip.store) := by
  let y := setCan (s.chip.atPhase ph.val) n.val { canSt s.chip n.val with joined := false }
  have hst : canSt (syncCanStat y n.val) n.val = { canSt s.chip n.val with joined := false } := canSt_setCan ..
  refine ⟨syncCanStat y n.val, ?_, hst, canBusState_notJoined (by rw [hst]), ?_, rfl⟩
  · rw [exec_canFrameValid, finish_eq, canReceive_exception h hf hen hres hpx]
  · exact syncCanStat_keepsRegs y n.val

end Valid

/-! ### The frame that a channel offers -/

/-- The transmission precedes another in arbitration, or is the other (R366). -/
def Precedes (p q : CanPend) : Prop :=
  arbKey (p.words.headD 0) < arbKey (q.words.headD 0) ∨ (arbKey (p.words.headD 0) = arbKey (q.words.headD 0) ∧ p.buf ≤ q.buf)

theorem Precedes.trans {p q r : CanPend} (h : Precedes p q) (h' : Precedes q r) : Precedes p r := by
  unfold Precedes at *
  omega

/-- The better of two transmissions, of which the second is the newer: the step of `canOffer`. -/
def offerStep (best : Option CanPend) (p : CanPend) : Option CanPend :=
  match best with
  | none => some p
  | some q => if arbKey (p.words.headD 0) < arbKey (q.words.headD 0) ∨
      (arbKey (p.words.headD 0) = arbKey (q.words.headD 0) ∧ p.buf < q.buf) then some p else some q

theorem canOffer_eq (s : Chip) (n : Nat) : canOffer s n = ((canSt s n).pend.filter (mayArbitrate s n)).foldl offerStep none := rfl

theorem foldl_offerStep (l : List CanPend) (q : CanPend) :
    ∃ p ∈ q :: l, l.foldl offerStep (some q) = some p ∧ ∀ r ∈ q :: l, Precedes p r := by
  induction l generalizing q with
  | nil => exact ⟨q, List.mem_singleton_self q, rfl, fun r hr => List.mem_singleton.1 hr ▸ .inr ⟨rfl, Nat.le_refl _⟩⟩
  | cons a l ih =>
    have hstep : ∃ b ∈ [q, a], offerStep (some q) a = some b ∧ Precedes b q ∧ Precedes b a := by
      unfold offerStep
      dsimp only
      split
      · exact ⟨a, by simp, rfl, by unfold Precedes; omega, by unfold Precedes; omega⟩
      · exact ⟨q, by simp, rfl, by unfold Precedes; omega, by unfold Precedes; omega⟩
    obtain ⟨b, hb, hstep, hbq, hba⟩ := hstep
    obtain ⟨p, hp, hfold, hbest⟩ := ih b
    have hpb : Precedes p b := hbest b (List.mem_cons_self ..)
    refine ⟨p, ?_, by rw [List.foldl_cons, hstep, hfold], fun r hr => ?_⟩
    · rcases List.mem_cons.1 hp with rfl | hl
      · simp only [List.mem_cons, List.not_mem_nil, or_false] at hb ⊢
        tauto
      · exact List.mem_cons_of_mem _ (List.mem_cons_of_mem _ hl)
    · rcases List.mem_cons.1 hr with rfl | hr
      · exact hpb.trans hbq
      · rcases List.mem_cons.1 hr with rfl | hl
        · exact hpb.trans hba
        · exact hbest r (List.mem_cons_of_mem _ hl)

/-- The channel offers one of those that may arbitrate, and the first of them in arbitration. -/
theorem canOffer_first {s : Chip} {n : Nat} (h : (canSt s n).pend.filter (mayArbitrate s n) ≠ []) :
    ∃ p ∈ (canSt s n).pend.filter (mayArbitrate s n), canOffer s n = some p ∧
      ∀ q ∈ (canSt s n).pend.filter (mayArbitrate s n), Precedes p q := by
  rw [canOffer_eq]
  cases hl : (canSt s n).pend.filter (mayArbitrate s n) with
  | nil => exact absurd hl h
  | cons q l => exact foldl_offerStep l q

/-- A start of frame that is won puts the transmission offered on the bus (R366). -/
theorem canSt_canStartFrame {s : Chip} {n ph : Nat} {p : CanPend} (hmay : mayTransmit (s.atPhase ph) n = true)
    (hoffer : canOffer (s.atPhase ph) n = some p) : canSt (canStartFrame s n ph true) n = { canSt s n with
      pend := (canSt s n).pend.filter (fun q => q.buf != p.buf)
      bus := some { p with sof := some s.tb.tick } } := by
  unfold canStartFrame
  simp only [hmay, hoffer, Bool.not_true, Bool.false_eq_true, if_false, if_true, canSt_syncCanPend, canSt_setCan, canSt_atPhase]
  rfl

theorem exec_canStartOfFrame (n : Fin 8) (ph : Phase) (won : Bool) (st : State) :
    exec (.canStartOfFrame n ph won) st = finish st (fun s => canStartFrame s n.val ph.val won) := rfl

section Start
variable {s : State} {n : Fin 8} {ph : Phase}

/-- A start of frame that is won (R366). -/
theorem completes_canStartOfFrame (hmay : mayTransmit (s.chip.atPhase ph.val) n.val = true)
    (hready : (canSt s.chip n.val).pend.filter (mayArbitrate (s.chip.atPhase ph.val) n.val) ≠ []) :
    Completes (.canStartOfFrame n ph true) s (fun x => ∃ p ∈ (canSt s.chip n.val).pend.filter (mayArbitrate (s.chip.atPhase ph.val) n.val),
      (canSt x n.val).bus = some { p with sof := some s.chip.tb.tick } ∧
      (canSt x n.val).pend = (canSt s.chip n.val).pend.filter (fun q => q.buf != p.buf) ∧
      ∀ q ∈ (canSt s.chip n.val).pend.filter (mayArbitrate (s.chip.atPhase ph.val) n.val), Precedes p q) := by
  obtain ⟨p, hp, hoffer, hbest⟩ := canOffer_first (s := s.chip.atPhase ph.val) (n := n.val) hready
  refine ⟨canStartFrame s.chip n.val ph.val true, by rw [exec_canStartOfFrame, finish_eq], p, hp, ?_, ?_, hbest⟩
  · rw [canSt_canStartFrame hmay hoffer]
  · rw [canSt_canStartFrame hmay hoffer]

/-- A channel that may not transmit, or has nothing to send (notes/assumptions/4.md). -/
theorem exec_canStartOfFrame_idle (hs : Still s.chip) (h : mayTransmit (s.chip.atPhase ph.val) n.val = false ∨
    (canSt s.chip n.val).pend.filter (mayArbitrate (s.chip.atPhase ph.val) n.val) = []) (won : Bool) :
    exec (.canStartOfFrame n ph won) s = .next s := by
  have hsame : canStartFrame s.chip n.val ph.val won = s.chip := by
    rcases h with h | h
    · unfold canStartFrame
      simp only [h]
      rfl
    · have hnone : canOffer (s.chip.atPhase ph.val) n.val = none := by
        rw [canOffer_eq, canSt_atPhase, h]
        rfl
      unfold canStartFrame
      simp only [hnone, ite_self]
  rw [exec_canStartOfFrame, finish_eq, hsame, settle_still hs]

end Start

/-! ### The end of a frame of the channel's own -/

theorem exec_canFrameEnd (n : Fin 8) (ph : Phase) (tdcv : BitVec 8) (st : State) :
    exec (.canFrameEnd n ph tdcv) st = finish st (fun s => canFrameEnd s n.val ph.val tdcv.toNat) := rfl

section FrameEnd
variable {x : Chip} {n : Nat} {p : CanPend} {tdcv : Nat}

theorem canWord_takeTdcv {o : Nat} (ho : o ≠ 0x0C) : canWord (takeTdcv x n p tdcv) n o = canWord x n o := by
  unfold takeTdcv
  split
  · rw [(canRegs_at n).1.1, canWord_wrF, if_neg ho]
  · rfl

theorem canSt_takeTdcv : canSt (takeTdcv x n p tdcv) n = canSt x n := by
  unfold takeTdcv
  split <;> rfl

/-- A channel that goes off the bus keeps its frames and its counters. -/
theorem canSt_canLeave : (canSt (canLeave x n) n).pend = (canSt x n).pend ∧ (canSt (canLeave x n) n).bus = (canSt x n).bus ∧
    (canSt (canLeave x n) n).tec = (canSt x n).tec := by
  unfold canLeave
  dsimp only
  split
  · rw [canSt_setCan]
    exact ⟨rfl, rfl, rfl⟩
  · exact ⟨rfl, rfl, rfl⟩

end FrameEnd

/-- A frame of the channel's own that ends without error (R368, R376). -/
theorem completes_canFrameEnd {s : State} {n : Fin 8} (ph : Phase) {p : CanPend} (tdcv : BitVec 8) (hbus : (canSt s.chip n.val).bus = some p) :
    Completes (.canFrameEnd n ph tdcv) s (fun x => (canSt x n.val).bus = none ∧ (canSt x n.val).pend = (canSt s.chip n.val).pend ∧
      (canSt x n.val).tec = (canSt s.chip n.val).tec - 1 ∧ fld (canWord x n.val (resultAt p.buf)) 15 0 = 1 ∧
      canWord x n.val 0x50 = canWord s.chip n.val 0x50 + 1 ∧ bit (canWord x n.val 0x70) 2 = true) := by
  let s1 := setCan (s.chip.atPhase ph.val) n.val { canSt s.chip n.val with bus := none, tec := (canSt s.chip n.val).tec - 1 }
  let s2 := takeTdcv (canRetire s1 n.val p 1) n.val p tdcv.toNat
  have hst : canSt s2 n.val = { canSt s.chip n.val with bus := none, tec := (canSt s.chip n.val).tec - 1 } := by
    rw [canSt_takeTdcv, canSt_canRetire, canSt_setCan]
  have hend : canFrameEnd s.chip n.val ph.val tdcv.toNat = syncCanPend (syncCanStat (canLeave s2 n.val) n.val) n.val := by
    unfold canFrameEnd
    simp only [hbus]
    rfl
  have hword : ∀ o, o ∉ [0x0C, 0x10, 0x28, 0x2C] →
      canWord (syncCanPend (syncCanStat (canLeave s2 n.val) n.val) n.val) n.val o = canWord (canRetire s1 n.val p 1) n.val o := fun o ho => by
    simp only [List.mem_cons, List.not_mem_nil, or_false, not_or] at ho
    obtain ⟨htdc, hstat, h0, h1⟩ := ho
    rw [canWord_syncCanPend _ _ h0 h1, canWord_syncCanStat _ _ hstat, canWord_congr (canLeave_regs s2).1, canWord_takeTdcv htdc]
  obtain ⟨hpend, hfree, htec⟩ := canSt_canLeave (x := s2) (n := n.val)
  obtain ⟨hcount, hflag⟩ := canRetire_sent (s := s1) (n := n.val) (p := p)
  refine ⟨_, by rw [exec_canFrameEnd, finish_eq, hend], ?_, ?_, ?_, ?_, ?_, ?_⟩
  · rw [canSt_syncCanPend, canSt_syncCanStat, hfree, hst]
  · rw [canSt_syncCanPend, canSt_syncCanStat, hpend, hst]
  · rw [canSt_syncCanPend, canSt_syncCanStat, htec, hst]
  · rw [hword _ (by simp only [List.mem_cons, List.not_mem_nil, or_false, resultAt]; omega), canRetire_result (by decide)]
  · rw [hword _ (by decide), hcount]
    rfl
  · rw [hword _ (by decide), hflag]

/-- With nothing of its own on the bus (notes/assumptions/4.md). -/
theorem exec_canFrameEnd_idle {s : State} {n : Fin 8} {ph : Phase} (hs : Still s.chip) (hbus : (canSt s.chip n.val).bus = none)
    (tdcv : BitVec 8) : exec (.canFrameEnd n ph tdcv) s = .next s := by
  have hsame : canFrameEnd s.chip n.val ph.val tdcv.toNat = s.chip := by
    unfold canFrameEnd
    simp only [hbus]
  rw [exec_canFrameEnd, finish_eq, hsame, settle_still hs]

/-- A word of the window by its address, however that is written. -/
theorem rd_window (x : Chip) {n a o : Nat} (h : a = canBase n + o) : x.rd a = canWord x n o := by rw [h, rd_canBase]

/-- Settles O28: a frame by the ways in which a channel answers it; the frame offered by induction over those that wait. -/
theorem canFiltersAndArbitration : Obligations.CanFiltersAndArbitration := by
  unfold Obligations.CanFiltersAndArbitration
  refine ⟨?_, ?_⟩
  · intro s n ph f a hears fden pxhd open_
    obtain ⟨⟨-, hstat, -, -, -, -, htail, -⟩, ⟨hrxcnt, hlost, hnomatch, -, -, -, -, -, hbuserr, -⟩, hevt, -⟩ := canRegs_at n.val
    refine ⟨fun ho hno => ?_, fun ho i hi => ?_, fun hh hf hbad => ?_, fun hh hf hen hres hpx => ?_, fun hs hno => ?_⟩
    · simp only [hnomatch, htail, rd_canBase]
      exact completes_canFrameValid_unmatched ho.1 ho.2 hno
    · obtain ⟨x, hx, hcount, hentered, hlostw, hstore⟩ := completes_canFrameValid_taken (ph := ph) ho.1 ho.2 hi
      refine ⟨(takingFilter_lowest hi).2, x, hx, (rd_window x hrxcnt).trans (hcount.trans ?_), fun hact hroom => ?_,
        fun hact hfull => ?_, hstore⟩
      · rw [rd_window s.chip hrxcnt]
      · obtain ⟨hptr, hid, hsof, hdata⟩ := hentered hact hroom
        have hentry : ∀ k, a + 0x4000 + 80 * (s.chip.rdF (Reg.canRxtail n.val) 6 0 % 64) + k =
            canBase n.val + (entryOffset s.chip n.val + k) := fun k => by
          unfold entryOffset
          omega
        exact ⟨by rw [Chip.rdF, rd_window x htail, hptr], (rd_window x (hentry 8)).trans hid, (rd_window x (hentry 0)).trans hsof,
          fun k hk => (rd_window x ((Nat.add_assoc ..).trans ((hentry _).trans (by omega)))).trans (hdata k hk)⟩
      · obtain ⟨hptr, hcnt, hflag⟩ := hlostw hact hfull
        rw [Chip.rdBit]
        simp only [rd_window _ htail, rd_window _ hlost, rd_window _ hevt]
        exact ⟨hptr, hcnt, hflag⟩
    · simp only [Chip.rdF, hbuserr, hstat, hrxcnt, rd_canBase]
      exact ⟨_, by rw [exec_canFrameValid, finish_eq, canReceive_form hh hf hbad], formError_noted hh⟩
    · exact completes_canFrameValid_exception hh hf hen hres hpx
    · rw [exec_canFrameValid, finish_eq, canReceive_deaf hno, settle_still hs]
  · intro s n ph s0 c ready
    obtain ⟨-, ⟨-, -, -, -, hsent, -⟩, hevt, -⟩ := canRegs_at n.val
    simp only [rdF_result, Chip.rdBit, hsent, hevt, rd_canBase]
    exact ⟨completes_canStartOfFrame, exec_canStartOfFrame_idle, fun p tdcv hbus _ => completes_canFrameEnd ph tdcv hbus,
      exec_canFrameEnd_idle⟩

end Sys2Proof.Machine
end

section
/-!
PROOFS of how a command ends (00), for the units at the chip's edge. The recorder, the vectors, the dispatcher and the answers to unknown
commands leave the Ewene, CAN, feedback and converters alone. For each function `f` of the model that branches or repeats, `EndLeaves.f`
says so, from the lemmas of the functions it calls; of a function that only updates, `EndLeaves.frame` says it.
-/

namespace Sys2Proof.Machine

/-- From `s` on, `x` has kept the units at the chip's edge, which no end of a command acts on but a cold reset. -/
structure EndLeaves (s x : Chip) : Prop where
  ewn : x.ewn = s.ewn
  can : x.can = s.can
  fb : x.fb = s.fb
  adc : x.adc = s.adc

variable {s x : Chip}

theorem EndLeaves.refl (s : Chip) : EndLeaves s s := ⟨rfl, rfl, rfl, rfl⟩

/-- An update that leaves the four alone. -/
theorem EndLeaves.frame {v0 v1 v2 v3 v4 v5 v10 v11 v12 v13 v14 v15 v16 v17 v18 v19 v20 v21 v22 v23 v24 v25 v26 v27} (h : EndLeaves s x) :
    EndLeaves s ⟨v0, v1, v2, v3, v4, v5, x.ewn, x.can, x.fb, x.adc, v10, v11, v12, v13, v14, v15, v16, v17, v18, v19, v20, v21, v22, v23, v24,
      v25, v26, v27⟩ :=
  ⟨h.ewn, h.can, h.fb, h.adc⟩

theorem EndLeaves.ite {a b : Chip} {c : Prop} {_ : Decidable c} (ha : EndLeaves s a) (hb : EndLeaves s b) :
    EndLeaves s (if c then a else b) := by
  split <;> assumption

theorem EndLeaves.iteFst {α : Type} {a b : Chip × α} {c : Prop} {_ : Decidable c} (ha : EndLeaves s a.1) (hb : EndLeaves s b.1) :
    EndLeaves s (if c then a else b).1 := by
  split <;> assumption

theorem EndLeaves.foldl {α : Type} {f : Chip → α → Chip} {l : List α} (h : EndLeaves s x) (hf : ∀ y a, EndLeaves s y → EndLeaves s (f y a)) :
    EndLeaves s (l.foldl f x) :=
  List.foldlRecOn (motive := EndLeaves s) _ _ h fun y hy a _ => hf y a hy

theorem EndLeaves.foldlFst {α β : Type} {f : Chip × β → α → Chip × β} {l : List α} {p : Chip × β} (h : EndLeaves s p.1)
    (hf : ∀ y a, EndLeaves s y.1 → EndLeaves s (f y a).1) : EndLeaves s (l.foldl f p).1 :=
  List.foldlRecOn (motive := fun y => EndLeaves s y.1) _ _ h fun y hy a _ => hf y a hy

/-! ### Registers and books -/

theorem EndLeaves.flag {evt en b e : Nat} (h : EndLeaves s x) : EndLeaves s (x.flag evt en b e) := .ite h.frame h.frame

theorem EndLeaves.wr {a : Nat} {w : Word} (h : EndLeaves s x) : EndLeaves s (x.wr a w) := h.frame

theorem EndLeaves.wrBit {a b : Nat} {v : Bool} (h : EndLeaves s x) : EndLeaves s (x.wrBit a b v) := h.frame

theorem EndLeaves.bump {a : Nat} (h : EndLeaves s x) : EndLeaves s (x.bump a) := h.frame

theorem EndLeaves.led {l j n : Nat} (h : EndLeaves s x) : EndLeaves s (x.led l j n) := h.frame

theorem EndLeaves.odoInc {slot n : Nat} (h : EndLeaves s x) : EndLeaves s (x.odoInc slot n) := .ite h.frame h.frame.flag

/-! ### Memory -/

theorem EndLeaves.memFlag {e : Nat} (h : EndLeaves s x) : EndLeaves s (x.memFlag e) := h.flag

theorem EndLeaves.noteRead {cls addr src memk : Nat} (h : EndLeaves s x) : EndLeaves s (noteRead x cls addr src memk) := by
  unfold Machine.noteRead
  extract_lets s1 s2 s3
  have hs3 : EndLeaves s s3 := h.frame.memFlag
  exact .ite h (.ite hs3.odoInc (.ite hs3 hs3.odoInc))

theorem EndLeaves.writeBytes {a : Nat} {bs : List Byte} (h : EndLeaves s x) : EndLeaves s (x.writeBytes a bs) := h.frame

theorem EndLeaves.clearFlips {a n : Nat} (h : EndLeaves s x) : EndLeaves s (clearFlips x a n) := h.frame

theorem EndLeaves.putBytes {a : Nat} {bs : List Byte} (h : EndLeaves s x) : EndLeaves s (x.putBytes a bs) := h.frame

theorem EndLeaves.rewriteWord {word : Nat} {xs : List Nat} (h : EndLeaves s x) : EndLeaves s (rewriteWord x word xs) := by
  unfold Machine.rewriteWord
  extract_lets s0 s1 s2
  have hs1 : EndLeaves s s1 := .clearFlips (.ite h.putBytes h)
  exact .ite (.ite hs1.clearFlips hs1.clearFlips.putBytes) (.foldl hs1 fun _ _ hy => .ite hy hy.frame)

theorem EndLeaves.hardWord {word : Nat} {xs : List Nat} (h : EndLeaves s x) : EndLeaves s (hardWord x word xs) := by
  unfold Machine.hardWord
  split
  · exact h.frame.memFlag.odoInc
  · exact .ite h.memFlag h.frame.rewriteWord.frame.memFlag.odoInc

theorem EndLeaves.trackCe {word : Nat} {xs : List Nat} (h : EndLeaves s x) : EndLeaves s (trackCe x word xs) := by
  unfold Machine.trackCe
  extract_lets thr reach
  have hreach : ∀ {y n}, EndLeaves s y → EndLeaves s (reach y n) := fun hy => .ite hy.frame.memFlag hy
  split
  · extract_lets _ _ s2
    have hs2 : EndLeaves s s2 := .ite h.frame (hreach h.frame)
    exact .ite hs2.hardWord hs2
  · refine .ite (hreach h.frame) ?_
    split
    · exact h
    · exact hreach (EndLeaves.frame h.frame)

theorem EndLeaves.readOne {src lo hi word : Nat} {r : SpanRead} (h : EndLeaves s r.chip) : EndLeaves s (readOne src lo hi r word).chip :=
  .ite (.trackCe (.ite h h.noteRead)) (.ite h h.noteRead)

theorem EndLeaves.readSpan {src a n : Nat} (h : EndLeaves s x) : EndLeaves s (readSpan x src a n).chip :=
  List.foldlRecOn (motive := fun r : SpanRead => EndLeaves s r.chip) _ _ h fun _ hr _ _ => hr.readOne

theorem EndLeaves.readBytes {src p n : Nat} (h : EndLeaves s x) : EndLeaves s (readBytes x src p n).1 := h.readSpan

theorem EndLeaves.clearChecks {a n : Nat} (h : EndLeaves s x) : EndLeaves s (clearChecks x a n) := .ite h.frame h

theorem EndLeaves.fillWords {a n pat : Nat} (h : EndLeaves s x) : EndLeaves s (fillWords x a n pat) := .frame (.clearChecks h.frame)

theorem EndLeaves.advanceFill (h : EndLeaves s x) : EndLeaves s (advanceFill x) := by
  unfold Machine.advanceFill
  split
  · exact h
  · exact .ite h h.fillWords.frame

theorem EndLeaves.dramPart {a : Nat} {bs : List Byte} (h : EndLeaves s x) : EndLeaves s (dramPart x a bs).1 :=
  .iteFst h (.iteFst h.readBytes.bump h.readBytes.clearFlips.writeBytes)

theorem EndLeaves.memWrite {a : Nat} {bs : List Byte} (h : EndLeaves s x) : EndLeaves s (memWrite x a bs).1 := by
  unfold Machine.memWrite
  refine .iteFst ?_ ?_
  · exact h.advanceFill.writeBytes
  · exact .dramPart (.clearChecks (.ite h.advanceFill.dramPart h.advanceFill.dramPart.writeBytes))

/-! ### The recorder's regions and streams -/

theorem EndLeaves.setFlag {i e : Nat} (h : EndLeaves s x) : EndLeaves s (x.setFlag i e) := .ite h.frame h.frame

theorem EndLeaves.setRec {i : Nat} {r : RecSet} (h : EndLeaves s x) : EndLeaves s (setRec x i r) := h.frame

theorem EndLeaves.putRegion {i : Nat} {bs : List Byte} (h : EndLeaves s x) : EndLeaves s (putRegion x i bs) :=
  .led (.bump (.ite h.frame h.frame))

theorem EndLeaves.syncPos {i : Nat} (h : EndLeaves s x) : EndLeaves s (syncPos x i) := .ite h.frame h.frame

theorem EndLeaves.writePos {i : Nat} {w : Word × Word} (h : EndLeaves s x) : EndLeaves s (writePos x i w) := h.frame

theorem EndLeaves.landRec {b : BufRec} (h : EndLeaves s x) : EndLeaves s (landRec x b) :=
  .writePos (.ite h (.led (.bump (.ite h.memWrite h.memWrite.memWrite))))

theorem EndLeaves.drainRecs {now t : Nat} {l : List BufRec} (h : EndLeaves s x) : EndLeaves s (drainRecs now t x l) := by
  induction l generalizing x t with
  | nil => exact h.frame
  | cons b l ih => exact .ite (ih h.landRec) h.frame

theorem EndLeaves.drainBuffer (h : EndLeaves s x) : EndLeaves s (drainBuffer x) := .ite h h.drainRecs

theorem EndLeaves.leadRegion {i tick phase : Nat} (h : EndLeaves s x) : EndLeaves s (leadRegion x i tick phase) := by
  unfold Machine.leadRegion
  refine .ite ?_ ?_
  · exact (h.foldl fun _ _ hy => hy.putRegion).frame.setFlag
  · exact (h.foldl fun _ _ hy => hy.putRegion).frame

theorem EndLeaves.leadStream {i tick phase : Nat} (h : EndLeaves s x) : EndLeaves s (leadStream x i tick phase) := by
  unfold Machine.leadStream
  refine .ite ?_ ?_
  · exact (h.foldl fun _ _ hy => hy.frame).frame.setFlag
  · exact (h.foldl fun _ _ hy => hy.frame).frame

theorem EndLeaves.shedRegion {i cause tick : Nat} (h : EndLeaves s x) : EndLeaves s (shedRegion x i cause tick) :=
  .setFlag (.odoInc (.led (.led (.bump (.bump (.bump (.ite h h.frame)))))))

theorem EndLeaves.shedStream {i cause tick : Nat} (h : EndLeaves s x) : EndLeaves s (shedStream x i cause tick) :=
  .setFlag (.odoInc (.led (.led (.bump (.bump (.bump (.ite h.frame h.frame)))))))

theorem EndLeaves.enterDone {i cause : Nat} (h : EndLeaves s x) : EndLeaves s (enterDone x i cause) :=
  .ite h.frame.setFlag.frame.syncPos h.frame.setFlag

theorem EndLeaves.recordRegion {i tick phase : Nat} {data : Bool} {bs : List Byte} (h : EndLeaves s x) :
    EndLeaves s (recordRegion x i tick phase data bs) := by
  unfold Machine.recordRegion
  extract_lets _ s2 _ _ s3
  have hs2 : EndLeaves s s2 := h.leadRegion.putRegion
  have hs3 : EndLeaves s s3 := .ite hs2.frame hs2
  exact .ite hs3.enterDone hs3

theorem EndLeaves.owedRegion {i tick phase : Nat} {raw : Option Nat} {data : Bool} {bs : List Byte} (h : EndLeaves s x) :
    EndLeaves s (owedRegion x i tick phase raw data bs) := by
  unfold Machine.owedRegion
  extract_lets _ _ s1
  have hs1 : EndLeaves s s1 := .ite h.enterDone h
  split
  · exact h.shedRegion
  · exact .ite hs1.recordRegion hs1.shedRegion

theorem EndLeaves.owedStream {i tick phase : Nat} {raw : Option Nat} {bs : List Byte} (h : EndLeaves s x) :
    EndLeaves s (owedStream x i tick phase raw bs) :=
  .ite h.shedStream (.ite h.shedStream h.leadStream.frame)

theorem EndLeaves.owed {i tick phase : Nat} {raw : Option Nat} {data : Bool} {bs : List Byte} (h : EndLeaves s x) :
    EndLeaves s (owed x i tick phase raw data bs) := by
  unfold Machine.owed
  extract_lets _ s1
  have hs1 : EndLeaves s s1 := .ite h.owedRegion h
  exact .ite hs1 (.ite hs1.shedStream hs1.owedStream)

/-! ### The recorder's notes -/

theorem EndLeaves.shedChange {i idx : Nat} (h : EndLeaves s x) : EndLeaves s (shedChange x i idx) :=
  .setFlag (.odoInc h.frame)

theorem EndLeaves.changeWrite {t : Txn} {i : Nat} {w : TxnWrite} (h : EndLeaves s x) : EndLeaves s (changeWrite t i x w) :=
  .ite h (.ite h.shedChange (.owed h.frame))

theorem EndLeaves.setRaw {t : Txn} {later i : Nat} (h : EndLeaves s x) : EndLeaves s (setRaw t later x i) := .ite h.owed h

theorem EndLeaves.setKept {t : Txn} {i : Nat} (h : EndLeaves s x) : EndLeaves s (setKept t x i) := by
  unfold Machine.setKept
  extract_lets _ _ s1
  have hs1 : EndLeaves s s1 := .ite (h.foldl fun _ _ hy => hy.changeWrite) h
  exact .ite (.ite (hs1.foldl fun _ _ hy => hy.frame) hs1) h

theorem EndLeaves.discardTxn {t : Txn} {i : Nat} (h : EndLeaves s x) : EndLeaves s (discardTxn t x i) := .ite h.frame h

theorem EndLeaves.captureRecord {i : Nat} {bs : List Byte} (h : EndLeaves s x) : EndLeaves s (captureRecord x i bs) :=
  .ite h.owed h.frame.odoInc

theorem EndLeaves.setTrg {u : Nat} {v : TrigUnit} (h : EndLeaves s x) : EndLeaves s (setTrg x u v) := h.frame

theorem EndLeaves.condWrite {w : TxnWrite} {u : Nat} (h : EndLeaves s x) : EndLeaves s (condWrite w x u) :=
  .ite (.ite h.frame h.frame) h

theorem EndLeaves.condTxn {t : Txn} (h : EndLeaves s x) : EndLeaves s (condTxn x t) :=
  h.foldl fun _ _ hy => hy.foldl fun _ _ hz => hz.condWrite

theorem EndLeaves.condEvent {n : Nat} (h : EndLeaves s x) : EndLeaves s (condEvent x n) := h.foldl fun _ _ hy => .ite hy.frame hy

theorem EndLeaves.putTrig {i unit tick phase : Nat} (h : EndLeaves s x) : EndLeaves s (putTrig x i unit tick phase) := by
  unfold Machine.putTrig
  split
  · exact h.shedRegion
  · exact h.frame.leadRegion.putRegion

theorem EndLeaves.fireRegion {i unit tick phase : Nat} (h : EndLeaves s x) : EndLeaves s (fireRegion x i unit tick phase).1 := by
  unfold Machine.fireRegion
  extract_lets _ _ _ _ _ s5
  have hs5 : EndLeaves s s5 := .frame (.setRec (.putTrig (.ite h.frame h.frame)))
  exact .iteFst h (.iteFst h.putTrig (.iteFst h (.ite hs5.enterDone hs5)))

theorem EndLeaves.fireStream {i unit tick phase pre : Nat} (h : EndLeaves s x) : EndLeaves s (fireStream x i unit tick phase pre).1 :=
  .iteFst h.owedStream h

theorem EndLeaves.fireSet {i unit tick phase : Nat} (h : EndLeaves s x) : EndLeaves s (fireSet x i unit tick phase).1 :=
  .iteFst h.frame.fireRegion.fireStream.frame h.frame.fireRegion.fireStream.frame.setFlag

theorem EndLeaves.fireUnit {u tick phase : Nat} (h : EndLeaves s x) : EndLeaves s (fireUnit x u tick phase) := by
  unfold Machine.fireUnit
  refine .ite h (.foldl (.setTrg (.wrBit (.ite ?_ (.bump ?_)))) fun _ _ hy => .ite hy.frame hy) <;>
    exact .foldlFst h.frame fun _ _ hy => hy.fireSet

theorem EndLeaves.fireUnits {tick phase : Nat} (h : EndLeaves s x) : EndLeaves s (fireUnits x tick phase) :=
  .foldl (.foldl h fun _ _ hy => .ite hy.fireUnit hy) fun _ _ hy => hy.frame

theorem EndLeaves.recKept {n : Note} (h : EndLeaves s x) : EndLeaves s (recKept x n) := by
  cases n with
  | event e => exact h
  | txn t => exact .ite (h.foldl fun _ _ hy => hy.setKept) h
  | capture i bs => exact .ite h.captureRecord h

theorem EndLeaves.recOne {n : Note} {later : Nat} (h : EndLeaves s x) : EndLeaves s (recOne x n later) := by
  cases n with
  | event e => exact .ite h.condEvent h
  | txn t =>
    exact .ite (h.recKept.foldl fun _ _ hy => hy.setRaw).condTxn (h.foldl fun _ _ hy => hy.discardTxn)
  | capture i bs => exact h.recKept (n := .capture i bs)

theorem EndLeaves.takeNotes {later : Nat} {l : List Note} (h : EndLeaves s x) : EndLeaves s (takeNotes later x l) := by
  induction l generalizing x later with
  | nil => exact h
  | cons n l ih => exact ih (.ite h.recOne.fireUnits h.recOne)

theorem EndLeaves.recAll {n : Nat} (h : EndLeaves s x) : EndLeaves s (recAll x n).1 := by
  induction n generalizing x with
  | zero => exact h.frame
  | succ n ih => exact .iteFst h (ih (.takeNotes h.frame))

/-! ### The dispatcher -/

theorem EndLeaves.makeCart {kind hitch level arg src : Nat} {pl : CartPlace} (h : EndLeaves s x) :
    EndLeaves s (makeCart x kind hitch level arg src pl) :=
  .ite (.flag h.frame) h.frame

theorem EndLeaves.fillSlot {p : Nat} (h : EndLeaves s x) : EndLeaves s (fillSlot x p) := by
  unfold Machine.fillSlot
  refine .ite ?_ h
  split
  · exact h.frame
  · exact h

theorem EndLeaves.recallGroup {g : Nat} (h : EndLeaves s x) : EndLeaves s (recallGroup x g) := by
  unfold Machine.recallGroup
  extract_lets
  split
  · exact .ite h.frame h
  · exact h

theorem EndLeaves.fillAndRecall (h : EndLeaves s x) : EndLeaves s (fillAndRecall x) :=
  (h.foldl fun _ _ hy => hy.fillSlot).recallGroup.recallGroup

theorem EndLeaves.portErr {p code : Nat} (h : EndLeaves s x) : EndLeaves s (portErr x p code) := h.frame.flag

theorem EndLeaves.eventCart {i count : Nat} (h : EndLeaves s x) : EndLeaves s (eventCart x i count) := h.makeCart.frame

theorem EndLeaves.joinPending {i : Nat} (h : EndLeaves s x) : EndLeaves s (joinPending x i) := .ite h.frame.flag h.frame

theorem EndLeaves.raiseOne {acc : Chip × Nat} {i : Nat} (h : EndLeaves s acc.1) : EndLeaves s (raiseOne acc i).1 := by
  unfold Machine.raiseOne
  refine .iteFst h.frame ?_
  split
  · exact h.frame
  · exact .iteFst h.eventCart h.joinPending

theorem EndLeaves.servePending {acc : Chip × Nat} {i : Nat} (h : EndLeaves s acc.1) : EndLeaves s (servePending acc i).1 :=
  .iteFst h (.iteFst h.frame.eventCart h.frame.eventCart)

theorem EndLeaves.eventsStep {evs : List Nat} (h : EndLeaves s x) : EndLeaves s (eventsStep x evs) := by
  unfold Machine.eventsStep
  exact .foldlFst (.foldlFst h fun _ _ hy => hy.servePending.servePending) fun _ _ hy => hy.raiseOne

theorem EndLeaves.timerCart {acc : Chip × Nat} {k : Nat} (h : EndLeaves s acc.1) : EndLeaves s (timerCart acc k).1 :=
  .iteFst h.frame (.iteFst h.frame.makeCart h.frame)

theorem EndLeaves.postCart {p : Nat} {ctl arg dly : Word} (h : EndLeaves s x) : EndLeaves s (postCart x p ctl arg dly) := h.makeCart.frame

theorem EndLeaves.stalledPosts (h : EndLeaves s x) : EndLeaves s (stalledPosts x) := by
  refine h.foldl fun _ _ hy => ?_
  split
  · exact .ite (.postCart hy.frame) hy
  · exact hy

theorem EndLeaves.takeOp {p : Nat} (h : EndLeaves s x) : EndLeaves s (takeOp x p) := by
  unfold Machine.takeOp
  extract_lets empty
  have hempty : EndLeaves s empty := h.frame
  refine .ite hempty.portErr ?_
  split
  · exact hempty
  · exact h.frame

theorem EndLeaves.doneOp {p : Nat} {v : Word} (h : EndLeaves s x) : EndLeaves s (doneOp x p v) := by
  unfold Machine.doneOp
  split
  · exact .ite (.ite h.frame h.frame) h.portErr
  · exact h.portErr

theorem EndLeaves.cancelOp {p : Nat} {v : Word} (h : EndLeaves s x) : EndLeaves s (cancelOp x p v) := by
  unfold Machine.cancelOp
  split
  · exact h.frame
  · split
    · exact h.frame
    · exact h.frame

theorem EndLeaves.postOp {p : Nat} {v : Word} (h : EndLeaves s x) : EndLeaves s (postOp x p v) := .ite h.frame (.ite h.frame h.frame)

theorem EndLeaves.commitServe (h : EndLeaves s x) : EndLeaves s (commitServe x) := by
  unfold Machine.commitServe
  split
  · exact h
  · split
    · exact h.readBytes.writeBytes.frame
    · exact h

theorem EndLeaves.commitOp {p : Nat} {v : Word} (h : EndLeaves s x) : EndLeaves s (commitOp x p v) :=
  .ite h.portErr (.ite h.readBytes.portErr h.readBytes.frame.commitServe)

theorem EndLeaves.runOp {o : PortOp} (h : EndLeaves s x) : EndLeaves s (runOp x o) := by
  unfold Machine.runOp
  split
  · exact h.commitOp
  · exact h.doneOp
  · exact h.takeOp
  · exact h.cancelOp
  · exact h.frame
  · exact h.postOp
  · exact h

theorem EndLeaves.fireTimers {n : Nat} (h : EndLeaves s x) : EndLeaves s (fireTimers x n) := .foldlFst h fun _ _ hy => hy.timerCart

theorem EndLeaves.waitingTimers {n : Nat} (h : EndLeaves s x) : EndLeaves s (waitingTimers x n) := .foldlFst h fun _ _ hy => hy.timerCart

theorem EndLeaves.cycleTimers {zero : Bool} (h : EndLeaves s x) : EndLeaves s (cycleTimers x zero) :=
  .ite h.fireTimers.frame h.waitingTimers

theorem EndLeaves.cycleEnd {evs : List Nat} (h : EndLeaves s x) : EndLeaves s (cycleEnd x evs) := h.stalledPosts.eventsStep.fillAndRecall

theorem EndLeaves.runCycle {ops : List PortOp} {evs : List Nat} {zero : Bool} (h : EndLeaves s x) : EndLeaves s (runCycle x ops evs zero) :=
  ((h.foldl fun _ _ hy => hy.runOp).cycleTimers.foldl fun _ _ hy => hy.runOp).cycleEnd

theorem EndLeaves.dspCycleOf {evs : List Nat} {zero : Bool} (h : EndLeaves s x) : EndLeaves s (dspCycleOf x evs zero) :=
  .ite h.frame.runCycle (.ite h.frame h)

theorem EndLeaves.dspCycle {evs : List Nat} (h : EndLeaves s x) : EndLeaves s (dspCycle x evs) := .ite (.dspCycleOf h.frame) h.dspCycleOf

theorem EndLeaves.arriveRaises {evs : List Nat} (h : EndLeaves s x) : EndLeaves s (arriveRaises x evs) := .ite h.frame h.dspCycle

/-! ### The end of a command -/

theorem EndLeaves.eventVectors {e : Nat} (h : EndLeaves s x) : EndLeaves s (eventVectors x e) :=
  .foldl (.ite h.frame h) fun _ _ hy => .ite hy.frame hy

theorem EndLeaves.react (h : EndLeaves s x) : EndLeaves s (react x) :=
  .ite h.recAll (h.recAll.foldl fun _ _ hy => hy.eventVectors).arriveRaises

theorem EndLeaves.reactAll {n : Nat} (h : EndLeaves s x) : EndLeaves s (reactAll x n) := by
  induction n generalizing x with
  | zero => exact h
  | succ n ih => exact .ite h (ih h.react)

theorem EndLeaves.takeFrom {p : HostPort} (h : EndLeaves s x) : EndLeaves s (takeFrom x p) := by
  cases p <;> exact h.frame

theorem EndLeaves.respond {k : HostHdr} {op : Nat} {r : Rsp} (h : EndLeaves s x) : EndLeaves s (respond x k op r) :=
  .ite h (.ite (.ite h.frame h) (.ite h.frame (.ite h.frame h.frame)))

theorem EndLeaves.answerUnknown {p : HostPort} {n : Nat} (h : EndLeaves s x) : EndLeaves s (answerUnknown p n x) := by
  induction n generalizing x with
  | zero => exact h
  | succ n ih =>
    unfold Machine.answerUnknown
    split
    · exact ih (.respond h.takeFrom.frame)
    · exact h

/-- The end of a command leaves the channels alone, or is a cold reset, which leaves none (17 R773). -/
theorem settle_can_or_cold (s : Chip) : (settle s).can = s.can ∨ (settle s).can = [] := by
  have hend : EndLeaves s (Machine.reactAll (Machine.drainBuffer (unknownDone s)) 8) :=
    (EndLeaves.refl s).answerUnknown.answerUnknown.drainBuffer.reactAll
  unfold settle
  extract_lets s1
  split
  · exact .inl hend.can
  · next c hc =>
    refine .inr ?_
    unfold coldAction
    rw [hc]
    rfl

end Sys2Proof.Machine
end

section
/-!
PROOFS of the CAN channels (08). ON is written with the word of CANn_CTL as it stands; where that word holds bit 8, the write
is one of RECOVER too.
-/

namespace Sys2Proof.Machine

/-- Channel 0 is off, has joined, and its TEC stands above 255; the word of its CTL holds bit 8, which is RECOVER where it is written
(R384). -/
def offPastBusoff : Chip :=
  { Chip.reset.wr (Reg.canCtl 0) 0x100 with can := [(0, { CanChan.zero with joined := true, tec := 256 })] }

/-- What turning that channel on leaves: it is bus-off, and RECOVER has been written. -/
@[irreducible] def onRecovering : Chip := settle (onCmd offPastBusoff (.seq 0) (Reg.canCtl (0 : Fin 8).val) true)

theorem exec_canOnWrite (who : Agent) (n : Fin 8) (on : Bool) (st : State) :
    exec (.canOnWrite who n on) st = finish st (fun s => onCmd s who (Reg.canCtl n.val) on) := rfl

theorem exec_canOnWrite_offPastBusoff : exec (.canOnWrite (.seq 0) 0 true) ⟨offPastBusoff, []⟩ = .next ⟨onRecovering, []⟩ := by
  delta onRecovering
  rw [exec_canOnWrite, finish_eq]

/-- The sequencer may write CTL of the channel, which is off, and no stage sheds it. -/
theorem offPastBusoff_meets : MayWrite offPastBusoff (.seq 0) (Reg.canCtl 0) ∧ offPastBusoff.rdBit (Reg.canCtl 0) 0 = false ∧
    canStage offPastBusoff = false ∧ (canSt offPastBusoff 0).recovering = false := by
  decide +kernel

theorem onRecovering_recovers : (canSt onRecovering 0).recovering = true := by
  decide +kernel

/-- Refutes O29: turning a channel on is a write of its CTL word as it stands with ON set (`onCmd`). Where that word holds bit 8, the write
is one of RECOVER too (`writeOnWord`), and the channel, bus-off once it is on, is marked as recovering. No write stores bit 8, but the
statement is about every state. Nothing that ends the command undoes the mark (`settle_can_or_cold`). -/
theorem not_canErrorCountersAndBusOff : ¬ Obligations.CanErrorCountersAndBusOff := by
  unfold Obligations.CanErrorCountersAndBusOff
  intro h
  obtain ⟨-, -, -, -, hwrite, -⟩ := h ⟨offPastBusoff, []⟩ 0
  obtain ⟨hmay, hoff, hstage, hidle⟩ := offPastBusoff_meets
  obtain ⟨x, hexec, -, -, hst⟩ := (hwrite (.seq 0) hmay).2.1 hoff
  have hend : onRecovering = settle x :=
    congrArg State.chip (Host.Outcome.next.inj (exec_canOnWrite_offPastBusoff.symm.trans hexec))
  have hsame : canSt x 0 = canSt offPastBusoff 0 := hst fun hsheds => Bool.false_ne_true (hstage.symm.trans hsheds.1)
  have hquiet : (canSt (settle x) 0).recovering = false := by
    rcases settle_can_or_cold x with hkeep | hcold
    · rw [canSt_congr hkeep, hsame, hidle]
    · rw [canSt, hcold]
      rfl
  exact Bool.false_ne_true (hquiet.symm.trans (hend ▸ onRecovering_recovers))

end Sys2Proof.Machine
end

section
/-!
PROOFS of the store (02). What a transaction leaves alone, and what of the Poermun the entries it leaves depend on.
-/

namespace Sys2Proof.Machine

/-! ### What a transaction leaves alone -/

/-- What a store write, the views kept, the port's count and the recorder's note leave alone, a transaction leaves alone. -/
theorem transaction_keeps {β : Type} (π : Chip → β) {port : Nat} (hwrite : ∀ s sid r w, π (storeWrite s sid r w).1 = π s)
    (hviews : ∀ s f b c, π (withViews s f b c) = π s) (hport : ∀ s, π (countPort s port) = π s)
    (hnote : ∀ s l, π { s with notes := l } = π s)
    (s : Chip) (w : Writer) (tag : Nat) (ws : List (Nat × WriteReq)) (body : List Byte) :
    π (transaction s port w tag ws body) = π s := by
  have hwrites : ∀ x, π (storeWrites x ws w).1 = π x := fun x =>
    List.foldlRecOn (motive := fun r : Chip × List TxnWrite => π r.1 = π x) _ _ rfl fun _ hr _ _ => (hwrite ..).trans hr
  obtain ⟨f, b, c, hv⟩ := keepViews_eq s
  exact (hnote ..).trans ((hport _).trans ((hwrites _).trans (hv ▸ hviews s f b c)))

/-- A store write leaves the feedback channels alone. -/
theorem storeWrite_fb (s : Chip) (sid : Nat) (r : WriteReq) (w : Writer) : (storeWrite s sid r w).1.fb = s.fb :=
  storeWrite_keeps Chip.fb (by simp [countProd, Chip.sigFlag]) (by simp [countGate, Chip.sigFlag]) (by simp [countForce, Chip.sigFlag])
    (by simp [countClamp, Chip.sigFlag]) (by simp) (by simp) ..

theorem transaction_fb (s : Chip) (port : Nat) (w : Writer) (tag : Nat) (ws : List (Nat × WriteReq)) (body : List Byte) :
    (transaction s port w tag ws body).fb = s.fb := by
  refine transaction_keeps Chip.fb storeWrite_fb (fun _ _ _ _ => rfl) (fun x => ?_) (fun _ _ => rfl) ..
  obtain ⟨regs, n, h⟩ := countPort_eq x port
  rw [h]

/-- The registers that a store write counts and flags in (R84, R97, R99, R106). -/
def storeRegs : List Nat :=
  [Reg.sigProderr, Reg.sigProdlast, Reg.sigEvt, Reg.sigGateref, Reg.sigGatelast, Reg.sigForceref, Reg.sigClampcnt, Reg.odoEvt]

theorem storeWrite_rd {a : Nat} (ha : a ∉ storeRegs) (s : Chip) (sid : Nat) (r : WriteReq) (w : Writer) :
    (storeWrite s sid r w).1.rd a = s.rd a := by
  have hout : ∀ l : List Nat, l ⊆ storeRegs → a ∉ l := fun l hl h => ha (hl h)
  exact storeWrite_keeps (·.rd a) (fun s sid src => countProd_keepsRegs s sid src _ (hout _ (by decide)))
    (fun s sid src => countGate_keepsRegs s sid src _ (hout _ (by decide))) (fun s => countForce_keepsRegs s _ (hout _ (by decide)))
    (fun s => countClamp_keepsRegs s _ (hout _ (by decide))) (fun _ _ _ => rfl) (fun _ _ _ => rfl) ..

theorem countPort_rd {a p : Nat} (hc : a ≠ Reg.sigPcnt p) (hp : a ≠ Reg.sigPpeak p) (s : Chip) : (countPort s p).rd a = s.rd a := by
  unfold countPort
  dsimp only
  split
  · exact (Chip.rd_wr_ne _ _ hp).trans (s.rd_bump_ne hc)
  · exact s.rd_bump_ne hc

/-- A transaction leaves the registers of the feedback channels and of the blocks above them alone. -/
theorem transaction_rd {a : Nat} (ha : 0x11300000 ≤ a) (s : Chip) {port : Nat} (hp : port < 4) (w : Writer) (tag : Nat)
    (ws : List (Nat × WriteReq)) (body : List Byte) : (transaction s port w tag ws body).rd a = s.rd a := by
  have hstore : a ∉ storeRegs := fun h => absurd ha (Nat.not_le.2 ((by decide : ∀ b ∈ storeRegs, b < 0x11300000) a h))
  have hport : a ≠ Reg.sigPcnt port ∧ a ≠ Reg.sigPpeak port := by
    unfold Reg.sigPcnt Reg.sigPpeak
    omega
  exact transaction_keeps (·.rd a) (storeWrite_rd hstore) (fun _ _ _ _ => rfl) (countPort_rd hport.1 hport.2) (fun _ _ => rfl) ..

/-! ### What the entries depend on -/

/-- What R95 reads of the Poermun is the same in both: the declarations and entries, the holder at the gate, TICK and the force lines. -/
structure StoreAlike (s x : Chip) : Prop where
  decls : x.store.decls = s.store.decls
  entries : x.store.entries = s.store.entries
  holder : x.store.gateHolder = s.store.gateHolder
  tick : x.tb.tick = s.tb.tick
  force : x.rd Reg.sigForcestat = s.rd Reg.sigForcestat

section Alike
variable {s x : Chip}

theorem StoreAlike.keepViews (h : StoreAlike s x) : StoreAlike (keepViews s) (keepViews x) := by
  obtain ⟨f, b, c, hs⟩ := keepViews_eq s
  obtain ⟨g, d, e, hx⟩ := keepViews_eq x
  rw [hs, hx]
  exact ⟨h.decls, h.entries, h.holder, h.tick, h.force⟩

theorem countProd_store (s : Chip) (sid src : Nat) : (countProd s sid src).store = s.store := by simp [countProd, Chip.sigFlag]

theorem countGate_store (s : Chip) (sid src : Nat) : (countGate s sid src).store = s.store := by simp [countGate, Chip.sigFlag]

theorem countForce_store (s : Chip) : (countForce s).store = s.store := by simp [countForce, Chip.sigFlag]

/-- A store write changes no declaration and no holder. -/
theorem storeWrite_decls_holder (s : Chip) (sid : Nat) (r : WriteReq) (w : Writer) :
    (storeWrite s sid r w).1.store.decls = s.store.decls ∧ (storeWrite s sid r w).1.store.gateHolder = s.store.gateHolder :=
  Prod.mk.inj (storeWrite_keeps (fun x => (x.store.decls, x.store.gateHolder)) (by simp [countProd_store]) (by simp [countGate_store])
    (by simp [countForce_store]) (by simp [countClamp_store]) (fun _ _ _ => rfl) (fun _ _ _ => rfl) s sid r w)

theorem StoreAlike.writtenEntry (h : StoreAlike s x) (sid : Nat) (d : SidDecl) (r : WriteReq) (src : Nat) :
    writtenEntry x sid d r src = writtenEntry s sid d r src := by
  unfold Machine.writtenEntry Chip.entryOf
  rw [h.entries, h.tick]

/-- The entries that a store write leaves, refused or accepted (R95). -/
theorem StoreAlike.storeWrite_entries (h : StoreAlike s x) (sid : Nat) (r : WriteReq) (w : Writer) :
    (storeWrite x sid r w).1.store.entries = (storeWrite s sid r w).1.store.entries := by
  have hholder : isHolder x w = isHolder s w := by
    unfold isHolder
    rw [h.holder]
  have hforced : ∀ g, x.forced g = s.forced g := fun g => congrArg (bit · g) h.force
  rcases storeWrite_branches s sid w with hd | ⟨d, hd, hp | ⟨hp, hg | ⟨hg, hf | hf⟩⟩⟩
  · rw [storeWrite_undeclared hd, storeWrite_undeclared (h.decls ▸ hd), countProd_store, countProd_store, h.entries]
  · rw [storeWrite_notProducer hd hp, storeWrite_notProducer (h.decls ▸ hd) hp, countProd_store, countProd_store, h.entries]
  · rw [storeWrite_notHolder hd hp hg, storeWrite_notHolder (h.decls ▸ hd) hp (hholder ▸ hg), countGate_store, countGate_store, h.entries]
  · rw [storeWrite_forced hd hp hg hf, storeWrite_forced (h.decls ▸ hd) hp (hholder ▸ hg) (hforced _ ▸ hf), countForce_store,
      countForce_store, h.entries]
  · rw [storeWrite_accepted hd hp hg hf, storeWrite_accepted (h.decls ▸ hd) hp (hholder ▸ hg) (hforced _ ▸ hf), acceptWrite_entries,
      acceptWrite_entries, h.entries, h.writtenEntry]

theorem StoreAlike.storeWrite (h : StoreAlike s x) (sid : Nat) (r : WriteReq) (w : Writer) :
    StoreAlike (storeWrite s sid r w).1 (storeWrite x sid r w).1 := by
  obtain ⟨sdecls, sholder⟩ := storeWrite_decls_holder s sid r w
  obtain ⟨xdecls, xholder⟩ := storeWrite_decls_holder x sid r w
  have hforce : ∀ y : Chip, (Machine.storeWrite y sid r w).1.rd Reg.sigForcestat = y.rd Reg.sigForcestat := fun y =>
    storeWrite_rd (by decide) y sid r w
  refine ⟨?_, h.storeWrite_entries sid r w, ?_, ?_, ?_⟩
  · rw [xdecls, sdecls, h.decls]
  · rw [xholder, sholder, h.holder]
  · rw [storeWrite_tb, storeWrite_tb, h.tick]
  · rw [hforce, hforce, h.force]

theorem StoreAlike.storeWrites (h : StoreAlike s x) (ws : List (Nat × WriteReq)) (w : Writer) :
    StoreAlike (storeWrites s ws w).1 (storeWrites x ws w).1 :=
  List.foldl_rel (r := fun p q : Chip × List TxnWrite => StoreAlike p.1 q.1) h fun q _ _ _ hpq => hpq.storeWrite q.1 q.2 w

end Alike

/-- The entries that a transaction leaves are those of its writes under R95 (R85). -/
theorem transaction_entries (s : Chip) (port : Nat) (w : Writer) (tag : Nat) (ws : List (Nat × WriteReq)) (body : List Byte) :
    (transaction s port w tag ws body).store.entries = (storeWrites (keepViews s) ws w).1.store.entries := by
  obtain ⟨regs, n, hport⟩ := countPort_eq (storeWrites (keepViews s) ws w).1 port
  exact congrArg (·.store.entries) hport

theorem StoreAlike.transaction_entries {s x : Chip} (h : StoreAlike s x) (port : Nat) (w : Writer) (tag tag' : Nat)
    (ws : List (Nat × WriteReq)) (body body' : List Byte) :
    (transaction x port w tag ws body).store.entries = (transaction s port w tag' ws body').store.entries := by
  rw [Machine.transaction_entries, Machine.transaction_entries, (h.keepViews.storeWrites ws w).entries]

end Sys2Proof.Machine
end

section
/-!
PROOFS of the feedback channels (09). A channel's window by offset: where its registers stand, and what each shared operation of a channel leaves
of the window, of the store and of the channel's further state.
-/

namespace Sys2Proof.Machine

/-! ### Words of a window -/

/-- The base of a channel's window (R423). -/
def fbBase (n : Nat) : Nat := 0x11300000 + 0x8000 * n

/-- The word at an offset of a channel's window. -/
def fbWord (s : Chip) (n o : Nat) : Word := s.rd (fbBase n + o)

/-- The registers of a channel stand in its window (R423–R436). -/
theorem fbRegs_at (n : Nat) :
    (Reg.fbSer n = fbBase n + 0x04 ∧ Reg.fbSercrc n = fbBase n + 0x08 ∧ Reg.fbPossid n = fbBase n + 0x10 ∧
      Reg.fbSpdsid n = fbBase n + 0x14 ∧ Reg.fbCnt n = fbBase n + 0x20 ∧ Reg.fbLatch n = fbBase n + 0x24 ∧
      Reg.fbIdxcap n = fbBase n + 0x28 ∧ Reg.fbIdxdev n = fbBase n + 0x2C ∧ Reg.fbSpd n = fbBase n + 0x30) ∧
    (Reg.fbSerrawlo n = fbBase n + 0x34 ∧ Reg.fbSerrawhi n = fbBase n + 0x38 ∧ Reg.fbCfgerr n = fbBase n + 0x3C ∧
      Reg.fbStat n = fbBase n + 0x40 ∧ Reg.fbIllcnt n = fbBase n + 0x44 ∧ Reg.fbSererr n = fbBase n + 0x48 ∧ Reg.fbIdxcnt n = fbBase n + 0x4C ∧
      Reg.fbEvt n = fbBase n + 0x50) ∧
    ∀ u, Reg.fbCmpcfg n u = fbBase n + (0x100 + 32 * u) ∧ Reg.fbCmpval n u = fbBase n + (0x104 + 32 * u) ∧
      Reg.fbCmpts n u = fbBase n + (0x10C + 32 * u) ∧
      Reg.fbCmpst n u = fbBase n + (0x110 + 32 * u) ∧ Reg.fbCmpcnt n u = fbBase n + (0x114 + 32 * u) := by
  unfold fbBase Reg.fbSer Reg.fbSercrc Reg.fbPossid Reg.fbSpdsid Reg.fbCnt Reg.fbLatch Reg.fbIdxcap Reg.fbIdxdev Reg.fbSpd
    Reg.fbSerrawlo Reg.fbSerrawhi Reg.fbCfgerr Reg.fbStat Reg.fbIllcnt Reg.fbSererr Reg.fbIdxcnt Reg.fbEvt Reg.fbCmpcfg Reg.fbCmpval
    Reg.fbCmpts Reg.fbCmpst Reg.fbCmpcnt
  refine ⟨?_, ?_, fun u => ?_⟩ <;> omega

section Words
variable (s : Chip) (n : Nat)

/-- A word of the window read by its address. -/
theorem rd_fbBase (o : Nat) : s.rd (fbBase n + o) = fbWord s n o := rfl

/-- FBn_CTL is the first word. -/
theorem rd_fbCtl : s.rd (Reg.fbCtl n) = fbWord s n 0 := rfl

theorem fbWord_wr (o p : Nat) (w : Word) : fbWord (s.wr (fbBase n + p) w) n o = if o = p then w else fbWord s n o := by
  simp only [fbWord, Chip.rd_wr, Nat.add_right_inj]

theorem fbWord_bump (o p : Nat) : fbWord (s.bump (fbBase n + p)) n o = if o = p then fbWord s n p + 1 else fbWord s n o := fbWord_wr ..

theorem fbWord_wrBit (b o p : Nat) (v : Bool) :
    fbWord (s.wrBit (fbBase n + p) b v) n o = if o = p then setBit (fbWord s n p) b v else fbWord s n o := fbWord_wr ..

@[simp] theorem fbWord_setFb (m o : Nat) (c : FbChan) : fbWord (setFb s m c) n o = fbWord s n o := rfl
@[simp] theorem fbWord_setPins (p : Pins) (o : Nat) : fbWord { s with pins := p } n o = fbWord s n o := rfl

theorem fbWord_congr {s x : Chip} (h : x.regs = s.regs) (n o : Nat) : fbWord x n o = fbWord s n o := Chip.rd_congr h _

@[simp] theorem fbWord_fbFlag (e o : Nat) :
    fbWord (s.fbFlag n e) n o = if o = 0x50 then setBit (fbWord s n 0x50) e true else fbWord s n o := by
  rw [Chip.fbFlag, fbWord_congr (Chip.flag_regs ..)]
  simp only [fbRegs_at, fbWord_wrBit]

end Words

/-! ### A channel's further state -/

section Channel
variable (s : Chip) (n : Nat)

theorem fbSt_congr {s x : Chip} (h : x.fb = s.fb) (n : Nat) : fbSt x n = fbSt s n := by
  rw [fbSt, fbSt, h]

@[simp] theorem fbSt_setFb (c : FbChan) : fbSt (setFb s n c) n = c := Tab.get_set_self ..
@[simp] theorem fbSt_wr (a : Nat) (w : Word) : fbSt (s.wr a w) n = fbSt s n := rfl
@[simp] theorem fbSt_bump (a : Nat) : fbSt (s.bump a) n = fbSt s n := rfl
@[simp] theorem fbSt_wrBit (a b : Nat) (v : Bool) : fbSt (s.wrBit a b v) n = fbSt s n := rfl
@[simp] theorem fbSt_fbFlag (e : Nat) : fbSt (s.fbFlag n e) n = fbSt s n := fbSt_congr (by simp [Chip.fbFlag]) n

end Channel

/-! ### What a step leaves of the window and of the store -/

/-- Of the registers, only words of channel `n`'s window at the offsets `os` may have changed; the store and TICK have not. -/
structure FbWrites (n : Nat) (os : List Nat) (s x : Chip) : Prop where
  regs : ∀ a, (∀ o ∈ os, a ≠ fbBase n + o) → x.rd a = s.rd a
  store : x.store = s.store
  tick : x.tb.tick = s.tb.tick

section Writes
variable {n : Nat} {os : List Nat} {s x : Chip}

theorem FbWrites.refl (s : Chip) : FbWrites n os s s := ⟨fun _ _ => rfl, rfl, rfl⟩

theorem FbWrites.trans {y : Chip} (h : FbWrites n os s x) (hy : FbWrites n os x y) : FbWrites n os s y :=
  ⟨fun a ha => (hy.regs a ha).trans (h.regs a ha), hy.store.trans h.store, hy.tick.trans h.tick⟩

theorem FbWrites.mono {ps : List Nat} (h : FbWrites n os s x) (hp : os ⊆ ps) : FbWrites n ps s x :=
  ⟨fun a ha => h.regs a fun o ho => ha o (hp ho), h.store, h.tick⟩

/-- A word of the window at another offset stands. -/
theorem FbWrites.word {o : Nat} (h : FbWrites n os s x) (ho : o ∉ os) : fbWord x n o = fbWord s n o :=
  h.regs _ fun _ hp he => ho (Nat.add_left_cancel he ▸ hp)

theorem FbWrites.ite {a b : Chip} {c : Prop} {_ : Decidable c} (ha : FbWrites n os s a) (hb : FbWrites n os s b) :
    FbWrites n os s (if c then a else b) := by
  split <;> assumption

/-- An update that leaves the registers, the store and the timebase alone. -/
theorem FbWrites.frame {v1 v3 v5 v6 v7 v8 v9 v10 v11 v12 v13 v14 v15 v16 v17 v18 v19 v20 v21 v22 v23 v24 v25 v26 v27}
    (h : FbWrites n os s x) :
    FbWrites n os s ⟨x.regs, v1, x.tb, v3, x.store, v5, v6, v7, v8, v9, v10, v11, v12, v13, v14, v15, v16, v17, v18, v19, v20, v21, v22, v23,
      v24, v25, v26, v27⟩ :=
  ⟨h.regs, h.store, h.tick⟩

theorem FbWrites.wr {a : Nat} {w : Word} (h : FbWrites n os s x) (ha : ∃ o ∈ os, a = fbBase n + o) : FbWrites n os s (x.wr a w) := by
  obtain ⟨o, ho, rfl⟩ := ha
  exact ⟨fun a ha => (x.rd_wr_ne w (ha o ho)).trans (h.regs a ha), h.store, h.tick⟩

theorem FbWrites.wrBit {a b : Nat} {v : Bool} (h : FbWrites n os s x) (ha : ∃ o ∈ os, a = fbBase n + o) :
    FbWrites n os s (x.wrBit a b v) := h.wr ha

theorem FbWrites.bump {a : Nat} (h : FbWrites n os s x) (ha : ∃ o ∈ os, a = fbBase n + o) : FbWrites n os s (x.bump a) := h.wr ha

theorem FbWrites.setFb {c : FbChan} (h : FbWrites n os s x) : FbWrites n os s (setFb x n c) := h.frame

theorem FbWrites.fbFlag {e : Nat} (h : FbWrites n os s x) (ho : 0x50 ∈ os) : FbWrites n os s (x.fbFlag n e) := by
  have hset : FbWrites n os s (x.wrBit (Reg.fbEvt n) e true) := h.wrBit ⟨0x50, ho, by simp [fbRegs_at]⟩
  exact .ite hset.frame hset

theorem FbWrites.atPhase {p : Nat} (h : FbWrites n os s x) : FbWrites n os s (x.atPhase p) := ⟨h.regs, h.store, h.tick⟩

/-- The window lies above the store's registers, so R95 reads the same. -/
theorem FbWrites.storeAlike (h : FbWrites n os s x) : StoreAlike s x := by
  have hforce : x.rd Reg.sigForcestat = s.rd Reg.sigForcestat := h.regs _ fun o _ => by
    have hsig : Reg.sigForcestat < 0x11300000 := by decide
    unfold fbBase
    omega
  exact ⟨congrArg _ h.store, congrArg _ h.store, congrArg _ h.store, h.tick, hforce⟩

end Writes

/-! ### The transaction of a sample -/

section Sample
variable (s : Chip) (n : Nat) (pos v : Int) (satd fault : Bool)

theorem fbWrite_fb : (fbWrite s n pos v satd fault).fb = s.fb := transaction_fb ..

theorem fbSt_fbWrite : fbSt (fbWrite s n pos v satd fault) n = fbSt s n := fbSt_congr (fbWrite_fb ..) n

/-- A sample's transaction writes no register of the channels. -/
theorem fbWord_fbWrite (o : Nat) : fbWord (fbWrite s n pos v satd fault) n o = fbWord s n o :=
  transaction_rd (by unfold fbBase; omega) s (by decide) ..

variable {s n}

/-- The entries of a sample do not depend on what the channel's step has written, but for POSSID and SPDSID (R400). -/
theorem FbWrites.entries {os : List Nat} {x : Chip} (h : FbWrites n os s x) (hp : 0x10 ∉ os) (hv : 0x14 ∉ os) :
    (fbWrite x n pos v satd fault).store.entries = (fbWrite s n pos v satd fault).store.entries := by
  unfold fbWrite Chip.rdBit Chip.rdF
  simp only [fbRegs_at, rd_fbBase, h.word hp, h.word hv]
  exact h.storeAlike.transaction_entries ..

end Sample

end Sys2Proof.Machine
end

section
/-!
PROOFS of the feedback channels (09). One sample of the lines: the edges that move CNT, the compare units, the index; pulses that end, and compare
values.
-/

namespace Sys2Proof.Machine

/-! ### The compare units -/

section Compare
variable (s : Chip) (n : Nat)

/-- The words that a fire of unit `u` writes beside its count: FBn_EVT and the unit's own (R415, R434–R436). -/
def fireWords (u : Nat) : List Nat := [0x50, 0x100 + 32 * u, 0x104 + 32 * u, 0x10C + 32 * u, 0x110 + 32 * u]

/-- What follows when a fire has been counted. -/
theorem compareFire_writes (u : Nat) : FbWrites n (fireWords u) (s.bump (Reg.fbCmpcnt n u)) (compareFire n s u) := by
  unfold compareFire firePulse
  extract_lets _ rise s1 s2 s3 inc s4 mine start
  have hs2 : FbWrites n (fireWords u) (s.bump (Reg.fbCmpcnt n u)) s2 :=
    ((FbWrites.refl _).wr (by simp [fbRegs_at, fireWords])).wr (by simp [fbRegs_at, fireWords])
  have hs3 : FbWrites n (fireWords u) (s.bump (Reg.fbCmpcnt n u)) s3 := .ite (hs2.fbFlag (by simp [fireWords])) hs2
  have hs4 : FbWrites n (fireWords u) (s.bump (Reg.fbCmpcnt n u)) s4 :=
    .ite (hs3.wrBit (by simp [fbRegs_at, fireWords])) (hs3.wr (by simp [fbRegs_at, fireWords]))
  exact .ite hs4 hs4.frame

theorem compareFire_fb (u : Nat) : (compareFire n s u).fb = s.fb := by
  unfold compareFire firePulse
  dsimp only
  (repeat' split) <;> simp [Chip.fbFlag]

/-- A fire is counted in its own unit's CMPCNT (R415). -/
theorem fbWord_compareFire (u v : Nat) :
    fbWord (compareFire n s u) n (0x114 + 32 * v) = fbWord s n (0x114 + 32 * v) + if v = u then 1 else 0 := by
  have hout : 0x114 + 32 * v ∉ fireWords u := by
    simp [fireWords]
    omega
  rw [(compareFire_writes s n u).word hout]
  simp only [fbRegs_at, fbWord_bump]
  by_cases h : v = u
  · simp [h]
  · simp [h]

/-- The words that the compare units write (R434–R436). -/
def compareWords : List Nat := [0, 1, 2, 3].flatMap fun u => (0x114 + 32 * u) :: fireWords u

theorem compareUnits_writes (c : Word) (d : Int) : FbWrites n compareWords s (compareUnits s n c d) := by
  refine List.foldlRecOn (motive := FbWrites n compareWords s) _ _ (.refl s) fun x hx u hu => ?_
  have hmine : (0x114 + 32 * u) :: fireWords u ⊆ compareWords := fun _ ho => List.mem_flatMap.2 ⟨u, hu, ho⟩
  have hcount : FbWrites n compareWords s (x.bump (Reg.fbCmpcnt n u)) := hx.bump ⟨_, hmine List.mem_cons_self, by simp [fbRegs_at]⟩
  exact .ite (hcount.trans ((compareFire_writes x n u).mono fun _ ho => hmine (List.mem_cons_of_mem _ ho))) hx

theorem compareUnits_fb (c : Word) (d : Int) : (compareUnits s n c d).fb = s.fb :=
  foldl_keeps Chip.fb (fun x u => by
    split
    · exact compareFire_fb x n u
    · rfl) _ _

theorem fbSt_compareUnits (c : Word) (d : Int) : fbSt (compareUnits s n c d) n = fbSt s n := fbSt_congr (compareUnits_fb ..) n

/-- Each unit that the move reaches counts one, and no other does (R413, R414). -/
theorem fbWord_compareUnits (c : Word) (d : Int) {v : Nat} (hv : v < 4) :
    fbWord (compareUnits s n c d) n (0x114 + 32 * v) = fbWord s n (0x114 + 32 * v) + if compareReached s n c d v = true then 1 else 0 := by
  have hstep : ∀ x u, fbWord (if compareReached s n c d u = true then compareFire n x u else x) n (0x114 + 32 * v) =
      fbWord x n (0x114 + 32 * v) + if v = u ∧ compareReached s n c d u = true then 1 else 0 := fun x u => by
    by_cases h : compareReached s n c d u = true
    · simp [h, fbWord_compareFire]
    · simp [h]
  unfold compareUnits
  simp only [List.foldl_cons, List.foldl_nil, hstep]
  interval_cases v <;> simp

/-- What a unit waits for stands in its CMPCFG and CMPVAL (R413, R414). -/
theorem compareReached_congr {s x : Chip} {n u : Nat} (hcfg : fbWord x n (0x100 + 32 * u) = fbWord s n (0x100 + 32 * u))
    (hval : fbWord x n (0x104 + 32 * u) = fbWord s n (0x104 + 32 * u)) (c : Word) (d : Int) :
    compareReached x n c d u = compareReached s n c d u := by
  unfold compareReached
  simp only [fbRegs_at, rd_fbBase, hcfg, hval]

end Compare

/-! ### A move of CNT -/

section Count
variable (s : Chip) (n : Nat) (d : Int)

theorem countBy_writes : FbWrites n (0x20 :: compareWords) s (countBy s n d) := by
  unfold countBy
  extract_lets c _ s1
  have hs1 : FbWrites n (0x20 :: compareWords) s s1 := ((FbWrites.refl s).wr ⟨0x20, List.mem_cons_self, by simp [fbRegs_at]⟩).setFb
  exact hs1.trans ((compareUnits_writes s1 n c d).mono (List.subset_cons_self ..))

theorem fbSt_countBy : fbSt (countBy s n d) n = { fbSt s n with lastEdge := some (fbNow s) } := by
  simp [countBy, fbSt_compareUnits]

/-- CNT moves by `d` (R397). -/
theorem fbWord_countBy_cnt : fbWord (countBy s n d) n 0x20 = fbWord s n 0x20 + w32 d := by
  unfold countBy
  dsimp only
  rw [(compareUnits_writes ..).word (by decide)]
  simp [fbRegs_at, rd_fbBase, fbWord_wr]

theorem fbWord_countBy_cmpcnt {u : Nat} (hu : u < 4) : fbWord (countBy s n d) n (0x114 + 32 * u) =
    fbWord s n (0x114 + 32 * u) + if compareReached s n (fbWord s n 0x20) d u = true then 1 else 0 := by
  unfold countBy
  dsimp only
  have hword : ∀ o, o ≠ 0x20 → ∀ w c, fbWord (setFb (s.wr (Reg.fbCnt n) w) n c) n o = fbWord s n o := fun o ho w c => by
    simp [fbRegs_at, fbWord_wr, ho]
  rw [fbWord_compareUnits _ _ _ _ hu, hword _ (by omega), compareReached_congr (hword _ (by omega) ..) (hword _ (by omega) ..)]
  simp only [fbRegs_at, rd_fbBase]

end Count

/-! ### An illegal transition -/

section Illegal
variable (s : Chip) (n : Nat)

theorem illegalEdge_writes : FbWrites n [0x40, 0x44, 0x50] s (illegalEdge s n) :=
  ((((FbWrites.refl s).wrBit (by simp [fbRegs_at])).bump (by simp [fbRegs_at])).fbFlag (by decide)).setFb

theorem fbSt_illegalEdge : fbSt (illegalEdge s n) n = { fbSt s n with err := true } := by
  simp [illegalEdge]

/-- ILLCNT counts it (R398). -/
theorem fbWord_illegalEdge : fbWord (illegalEdge s n) n 0x44 = fbWord s n 0x44 + 1 := by
  simp [illegalEdge, fbRegs_at, fbWord_bump, fbWord_wrBit]

/-- ILLEGAL stands (R398). -/
theorem illegalEdge_illegal : bit (fbWord (illegalEdge s n) n 0x40) 2 = true := by
  simp [illegalEdge, fbRegs_at, fbWord_bump, fbWord_wrBit, bit_setBit_self]

end Illegal

/-! ### The decoder -/

section Decode
variable {s : Chip} {n : Nat} {a b a' b' : Bool}

theorem decodeEdge_same (hm : fbMode s n = 0) (ha : a = a') (hb : b = b') : decodeEdge s n a b a' b' = s := by
  simp [decodeEdge, hm, ha, hb]

theorem decodeEdge_both (hm : fbMode s n = 0) (ha : a ≠ a') (hb : b ≠ b') : decodeEdge s n a b a' b' = illegalEdge s n := by
  simp [decodeEdge, hm, ha, hb]

/-- A change of one line is one step of the Gray sequence (R397). -/
theorem decodeEdge_one (hm : fbMode s n = 0) (h : (a = a') ≠ (b = b')) :
    decodeEdge s n a b a' b' = countBy s n (dirSign s n (grayStep a b a' b')) := by
  by_cases ha : a = a' <;> by_cases hb : b = b' <;> simp [decodeEdge, hm, ha, hb] at h ⊢

end Decode

/-! ### What follows the decoder in a sample -/

/-- The accepted levels of a channel's lines (R395). -/
def fbLines (s : Chip) (n : Nat) : Bool × Bool × Bool := ((fbSt s n).a, (fbSt s n).b, (fbSt s n).z)

section Index
variable (s : Chip) (n : Nat)

theorem relatch_writes : FbWrites n [0x24] s (relatch s n) :=
  .ite ((FbWrites.refl s).wr (by simp [fbRegs_at])).setFb (.refl s)

theorem fbLines_relatch : fbLines (relatch s n) n = fbLines s n := by
  unfold relatch
  dsimp only
  split
  · simp [fbLines]
  · rfl

/-- The words that the index check writes (R410). -/
theorem indexCheck_writes : FbWrites n [0x2C, 0x40, 0x50] s (indexCheck s n) := by
  unfold indexCheck
  extract_lets c cap spacing tol
  refine .ite (.refl s) ?_
  split
  · exact (FbWrites.refl s).setFb
  · extract_lets d dev s1
    have hs1 : FbWrites n [0x2C, 0x40, 0x50] s s1 := ((FbWrites.refl s).wr (by simp [fbRegs_at])).setFb
    exact .ite (.refl s) (.ite ((hs1.wrBit (by simp [fbRegs_at])).fbFlag (by decide)) hs1)

theorem fbLines_indexCheck : fbLines (indexCheck s n) n = fbLines s n := by
  unfold indexCheck
  dsimp only
  (repeat' split) <;> simp [fbLines]

/-- Of FBn_STAT the index check sets IDXERR alone (R410, R431). -/
theorem indexCheck_stat {b : Nat} (hb : b ≠ 3) : bit (fbWord (indexCheck s n) n 0x40) b = bit (fbWord s n 0x40) b := by
  unfold indexCheck
  dsimp only
  (repeat' split) <;> simp [fbRegs_at, fbWord_wr, fbWord_wrBit, bit_setBit_ne, hb]

/-- The words that an index event writes (R408, R410). -/
theorem indexEvent_writes : FbWrites n [0x28, 0x2C, 0x40, 0x4C, 0x50] s (indexEvent s n) := by
  unfold indexEvent
  extract_lets s1
  have hs1 : FbWrites n [0x28, 0x2C, 0x40, 0x4C, 0x50] s s1 :=
    (((FbWrites.refl s).wr (by simp [fbRegs_at])).bump (by simp [fbRegs_at])).fbFlag (by decide)
  exact (hs1.wrBit (by simp [fbRegs_at])).trans ((indexCheck_writes ..).mono (by decide))

theorem fbLines_indexEvent : fbLines (indexEvent s n) n = fbLines s n := by
  unfold indexEvent
  dsimp only
  rw [fbLines_indexCheck]
  simp [fbLines]

theorem indexEvent_stat {b : Nat} (h1 : b ≠ 1) (h3 : b ≠ 3) : bit (fbWord (indexEvent s n) n 0x40) b = bit (fbWord s n 0x40) b := by
  unfold indexEvent
  dsimp only
  rw [indexCheck_stat _ _ h3]
  simp [fbRegs_at, fbWord_wr, fbWord_wrBit, fbWord_bump, bit_setBit_ne, h1]

/-- CNT is captured and the event counted (R408). -/
theorem indexEvent_captures :
    fbWord (indexEvent s n) n 0x28 = fbWord s n 0x20 ∧ fbWord (indexEvent s n) n 0x4C = fbWord s n 0x4C + 1 := by
  unfold indexEvent
  dsimp only
  rw [(indexCheck_writes ..).word (by decide), (indexCheck_writes ..).word (by decide)]
  simp [fbRegs_at, rd_fbBase, fbWord_wr, fbWord_wrBit, fbWord_bump]

/-- The index in one sample: its condition at the lines accepted, an event where it becomes true and is enabled, and the condition kept
(R408). -/
def indexStep (a b z was : Bool) : Chip :=
  let cond := indexCond s n a b z && fbMode s n != 2
  let s3 := if s.rdBit (Reg.fbCtl n) 10 && cond && !was then indexEvent s n else s
  setFb s3 n { fbSt s3 n with idxWas := cond }

variable {a b z was : Bool}

theorem indexStep_writes : FbWrites n [0x28, 0x2C, 0x40, 0x4C, 0x50] s (indexStep s n a b z was) := by
  unfold indexStep
  exact .setFb (.ite (indexEvent_writes s n) (.refl s))

theorem fbLines_indexStep : fbLines (indexStep s n a b z was) n = fbLines s n := by
  have hset : ∀ x v, fbLines (setFb x n { fbSt x n with idxWas := v }) n = fbLines x n := fun x v => by simp [fbLines]
  unfold indexStep
  dsimp only
  rw [hset]
  split
  · exact fbLines_indexEvent s n
  · rfl

theorem indexStep_stat {k : Nat} (h1 : k ≠ 1) (h3 : k ≠ 3) : bit (fbWord (indexStep s n a b z was) n 0x40) k = bit (fbWord s n 0x40) k := by
  unfold indexStep
  dsimp only
  rw [fbWord_setFb]
  split
  · exact indexEvent_stat s n h1 h3
  · rfl

variable {s n}

/-- In modes 0 and 1, an enabled index whose condition becomes true captures CNT and counts one; else it counts none (R408). -/
theorem indexStep_captures (hm : fbMode s n ≠ 2) :
    if bit (fbWord s n 0) 10 = true ∧ indexCond s n a b z = true ∧ was = false then
      fbWord (indexStep s n a b z was) n 0x28 = fbWord s n 0x20 ∧ fbWord (indexStep s n a b z was) n 0x4C = fbWord s n 0x4C + 1
    else fbWord (indexStep s n a b z was) n 0x4C = fbWord s n 0x4C := by
  have hcond : (s.rdBit (Reg.fbCtl n) 10 && (indexCond s n a b z && fbMode s n != 2) && !was) = true ↔
      bit (fbWord s n 0) 10 = true ∧ indexCond s n a b z = true ∧ was = false := by
    simp [Chip.rdBit, rd_fbCtl, hm, and_assoc]
  unfold indexStep
  simp only [fbWord_setFb, hcond]
  split
  · exact indexEvent_captures s n
  · rfl

end Index

/-! ### The decoder, then the index -/

section Decode
variable (s : Chip) (n : Nat) (a b a' b' z' was : Bool)

/-- The words that the decoder writes (R397, R398). -/
def decodeWords : List Nat := [0x20, 0x40, 0x44, 0x50] ++ compareWords

theorem decodeEdge_writes : FbWrites n decodeWords s (decodeEdge s n a b a' b') := by
  have hcount : ∀ d, FbWrites n decodeWords s (countBy s n d) := fun d => (countBy_writes s n d).mono (by decide)
  have hillegal : FbWrites n decodeWords s (illegalEdge s n) := (illegalEdge_writes s n).mono (by decide)
  unfold decodeEdge
  extract_lets mode
  exact .ite (.ite hillegal (.ite (hcount _) (.refl s))) (.ite (.ite (.ite hillegal (hcount _)) (.refl s)) (.refl s))

theorem fbLines_decodeEdge : fbLines (decodeEdge s n a b a' b') n = fbLines s n := by
  unfold decodeEdge
  dsimp only
  (repeat' split) <;> simp [fbLines, fbSt_countBy, fbSt_illegalEdge]

/-- A running channel's sample once its lines are accepted (R396, R408, R411). -/
def edgeStep : Chip := indexStep (relatch (decodeEdge s n a b a' b') n) n a' b' z' was

theorem fbLines_edgeStep : fbLines (edgeStep s n a b a' b' z' was) n = fbLines s n := by
  rw [edgeStep, fbLines_indexStep, fbLines_relatch, fbLines_decodeEdge]

/-- Behind the decoder, the latch and the index write their own words. -/
theorem edgeStep_writes :
    FbWrites n [0x24, 0x28, 0x2C, 0x40, 0x4C, 0x50] (decodeEdge s n a b a' b') (edgeStep s n a b a' b' z' was) :=
  ((relatch_writes ..).mono (by decide)).trans ((indexStep_writes ..).mono (by decide))

variable {s n a b a' b'}

/-- A change of one line moves CNT by its step, and each unit that the move reaches counts one (R397, R413). -/
theorem edgeStep_counts (hm : fbMode s n = 0) (h : ¬ (a' ≠ a ∧ b' ≠ b)) :
    let one := (a' ≠ a) ≠ (b' ≠ b)
    let move := if a' = a ∧ b' = b then 0 else dirSign s n (grayStep a b a' b')
    fbWord (edgeStep s n a b a' b' z' was) n 0x20 = fbWord s n 0x20 + w32 move ∧
      fbWord (edgeStep s n a b a' b' z' was) n 0x44 = fbWord s n 0x44 ∧
      ∀ u, u < 4 → fbWord (edgeStep s n a b a' b' z' was) n (0x114 + 32 * u) = fbWord s n (0x114 + 32 * u) +
        if one ∧ compareReached s n (fbWord s n 0x20) move u = true then 1 else 0 := by
  intro one move
  have hunit : ∀ u, 0x114 + 32 * u ∉ [0x24, 0x28, 0x2C, 0x40, 0x4C, 0x50] := fun u => by
    simp
    omega
  simp only [(edgeStep_writes ..).word (by decide : 0x20 ∉ _), (edgeStep_writes ..).word (by decide : 0x44 ∉ _),
    (edgeStep_writes ..).word (hunit _)]
  by_cases hsame : a' = a ∧ b' = b
  · have hone : ¬ one := by simp [one, hsame]
    have hmove : move = 0 := if_pos hsame
    rw [decodeEdge_same hm hsame.1.symm hsame.2.symm, hmove]
    simp [hone, w32]
  · have hone : one := by
      simp only [one, ne_eq, eq_iff_iff]
      tauto
    have hmove : move = dirSign s n (grayStep a b a' b') := if_neg hsame
    have hdecode : decodeEdge s n a b a' b' = countBy s n move := by
      rw [hmove]
      refine decodeEdge_one hm ?_
      simp only [one, ne_eq, eq_iff_iff] at hone ⊢
      rw [eq_comm (a := a), eq_comm (a := b)]
      tauto
    rw [hdecode]
    refine ⟨fbWord_countBy_cnt .., (countBy_writes ..).word (by decide), fun u hu => ?_⟩
    rw [fbWord_countBy_cmpcnt _ _ _ hu]
    simp [hone]

/-- A change of both is counted and flagged, and CNT stays (R398). -/
theorem edgeStep_illegal (hm : fbMode s n = 0) (ha : a' ≠ a) (hb : b' ≠ b) :
    fbWord (edgeStep s n a b a' b' z' was) n 0x20 = fbWord s n 0x20 ∧ bit (fbWord (edgeStep s n a b a' b' z' was) n 0x40) 2 = true ∧
      fbWord (edgeStep s n a b a' b' z' was) n 0x44 = fbWord s n 0x44 + 1 := by
  have hstat : bit (fbWord (edgeStep s n a b a' b' z' was) n 0x40) 2 = bit (fbWord (decodeEdge s n a b a' b') n 0x40) 2 := by
    rw [edgeStep, indexStep_stat _ _ (by decide) (by decide), (relatch_writes ..).word (by decide)]
  rw [hstat, (edgeStep_writes ..).word (by decide : 0x20 ∉ _), (edgeStep_writes ..).word (by decide : 0x44 ∉ _),
    decodeEdge_both hm ha.symm hb.symm]
  exact ⟨(illegalEdge_writes s n).word (by decide), illegalEdge_illegal s n, fbWord_illegalEdge s n⟩

/-- The index condition depends on FBn_CTL and the lines (R408). -/
theorem indexCond_congr {s x : Chip} {n : Nat} (h : fbWord x n 0 = fbWord s n 0) (a b z : Bool) : indexCond x n a b z = indexCond s n a b z := by
  unfold indexCond Chip.rdF Chip.rdBit
  simp only [rd_fbCtl, h]

theorem fbMode_congr {s x : Chip} {n : Nat} (h : fbWord x n 0 = fbWord s n 0) : fbMode x n = fbMode s n := by
  unfold fbMode Chip.rdF
  simp only [rd_fbCtl, h]

/-- An enabled index captures the CNT that the decoder leaves, and never changes it (R408, R409). -/
theorem edgeStep_captures (hm : fbMode s n ≠ 2) :
    if bit (fbWord s n 0) 10 = true ∧ indexCond s n a' b' z' = true ∧ was = false then
      fbWord (edgeStep s n a b a' b' z' was) n 0x28 = fbWord (edgeStep s n a b a' b' z' was) n 0x20 ∧
        fbWord (edgeStep s n a b a' b' z' was) n 0x4C = fbWord s n 0x4C + 1
    else fbWord (edgeStep s n a b a' b' z' was) n 0x4C = fbWord s n 0x4C := by
  have hbefore : FbWrites n (0x24 :: decodeWords) s (relatch (decodeEdge s n a b a' b') n) :=
    ((decodeEdge_writes ..).mono (by decide)).trans ((relatch_writes ..).mono (by decide))
  have hctl := hbefore.word (o := 0) (by decide)
  have hcaptures := indexStep_captures (a := a') (b := b') (z := z') (was := was) (fbMode_congr hctl ▸ hm)
  rw [hctl, indexCond_congr hctl, hbefore.word (by decide : 0x4C ∉ _)] at hcaptures
  unfold edgeStep
  rw [(indexStep_writes ..).word (by decide : 0x20 ∉ _)]
  exact hcaptures

end Decode

/-! ### One sample of the lines -/

/-- The lines of a sample accepted at these levels (R395). -/
def withLines (s : Chip) (n ph : Nat) (a b z : Bool) : Chip := setFb (s.atPhase ph) n { fbSt s n with a := a, b := b, z := z }

section Lines
variable (s : Chip) (n ph : Nat) (a b z : Bool)

theorem fbLines_withLines : fbLines (withLines s n ph a b z) n = (a, b, z) := by
  simp [fbLines, withLines]

theorem fbWord_withLines (o : Nat) : fbWord (withLines s n ph a b z) n o = fbWord s n o := rfl

/-- Whether the channel runs stands in FBn_STAT (R431), which accepting lines does not write. -/
theorem fbRuns_withLines : fbRuns (withLines s n ph a b z) n = fbRuns s n := rfl

/-- Accepting lines leaves nothing behind. -/
theorem Still.withLines {s : Chip} (h : Still s) : Still (withLines s n ph a b z) := h.congr rfl rfl rfl rfl rfl rfl fun _ _ => rfl

/-- What the decoder and the index leave of the lines accepted. -/
theorem edgeStep_lines (a0 b0 was : Bool) :
    let x := edgeStep (withLines s n ph a b z) n a0 b0 a b z was
    (fbSt x n).a = a ∧ (fbSt x n).b = b ∧ (fbSt x n).z = z := by
  intro x
  have hlines : fbLines x n = (a, b, z) := (fbLines_edgeStep ..).trans (fbLines_withLines ..)
  rwa [fbLines, Prod.mk.injEq, Prod.mk.injEq] at hlines

variable {s n a b}

/-- The index at the lines accepted, in the words of the channel before (R408). -/
theorem withLines_captures {a0 b0 : Bool} (was : Bool) (hm : fbMode s n ≠ 2) :
    let x := edgeStep (withLines s n ph a b z) n a0 b0 a b z was
    if bit (fbWord s n 0) 10 = true ∧ indexCond s n a b z = true ∧ was = false then
      fbWord x n 0x28 = fbWord x n 0x20 ∧ fbWord x n 0x4C = fbWord s n 0x4C + 1
    else fbWord x n 0x4C = fbWord s n 0x4C := by
  have hmode : fbMode (withLines s n ph a b z) n ≠ 2 := hm
  have hcaptures := edgeStep_captures (a := a0) (b := b0) (a' := a) (b' := b) z was hmode
  rwa [fbWord_withLines, fbWord_withLines, indexCond_congr (fbWord_withLines ..)] at hcaptures

end Lines

theorem exec_fbEdgeAccepted (n : Fin 32) (ph : Phase) (ra rb rz : RawLine) (st : State) :
    exec (.fbEdgeAccepted n ph ra rb rz) st = finish st (fun s => fbEdge s n.val ph.val ra rb rz) := rfl

section Edge
variable {s : Chip} {n : Nat} (ph : Nat) (ra rb rz : RawLine)

theorem fbEdge_stopped (h : fbRuns s n = false) : fbEdge s n ph ra rb rz =
    withLines s n ph (acceptLine (fbFilt s n) (fbSt s n).a ra) (acceptLine (fbFilt s n) (fbSt s n).b rb)
      (acceptLine (fbFilt s n) (fbSt s n).z rz) :=
  if_pos (by
    rw [Bool.not_eq_true']
    exact (fbRuns_withLines ..).trans h)

/-- On a running channel the decoder acts on the lines accepted, then the index (R396, R408). -/
theorem fbEdge_running (h : fbRuns s n = true) : fbEdge s n ph ra rb rz =
    let a := acceptLine (fbFilt s n) (fbSt s n).a ra
    let b := acceptLine (fbFilt s n) (fbSt s n).b rb
    let z := acceptLine (fbFilt s n) (fbSt s n).z rz
    edgeStep (withLines s n ph a b z) n (fbSt s n).a (fbSt s n).b a b z (fbSt s n).idxWas :=
  if_neg (by
    rw [Bool.not_eq_true', Bool.not_eq_false]
    exact (fbRuns_withLines ..).trans h)

end Edge

/-! ### Pulses and compare values -/

theorem exec_comparePulseEnd (pin : Fin 32) (ph : Phase) (st : State) :
    exec (.comparePulseEnd pin ph) st = finish st (fun s => pulseEnd s pin.val ph.val) := rfl

theorem exec_cmpvalWrite (who : Agent) (n : Fin 32) (u : Fin 4) (v : Word) (st : State) :
    exec (.cmpvalWrite who n u v) st = finish st (fun s => regCmd s who (Reg.fbCmpval n.val u.val) v) := rfl

/-- The pulses of a pin whose width has run out at phase `ph`. -/
def pulsePast (s : Chip) (pin ph : Nat) (p : CmpPulse) : Bool := p.pin == pin && decide (p.stop ≤ (s.atPhase ph).nowNs)

/-- Those pulses end (R416). -/
theorem pulseEnd_past {s : Chip} {pin ph : Nat} (h : s.pins.cmp.any (pulsePast s pin ph) = true) :
    pulseEnd s pin ph = { s.atPhase ph with pins := { s.pins with cmp := s.pins.cmp.filter fun p => !pulsePast s pin ph p } } := if_pos h

theorem pulseEnd_none {s : Chip} {pin ph : Nat} (h : s.pins.cmp.any (pulsePast s pin ph) = false) : pulseEnd s pin ph = s :=
  if_neg (Bool.eq_false_iff.1 h)

/-- The row of the compare values (R435). -/
def cmpvalRow : RegRow := ⟨0x104, 4, 32, 0, 0, 0, 0, 0, 0, 0xFFFFFFFF, 0, 0xFFFFFFFF, 0, 0xFFFFFFFF⟩

theorem placeOf_fbCmpval (n : Fin 32) (u : Fin 4) :
    placeOf (Reg.fbCmpval n.val u.val) = some (.reg 19 n.val (0x104 + 32 * u.val) cmpvalRow) := by
  revert n u
  decide +kernel

/-- A register without CS bits and out of no range, whose write acts, does what the act does. -/
theorem regCmd_acting {s : Chip} {who : Agent} {a b u o : Nat} {r : RegRow} (hp : placeOf a = some (.reg b u o r)) (hb : b ≠ 32)
    (hm : MayWrite s who a) {v : Word} (hcs : r.cs = 0) (hr : rangeCode s b u o a v = 0) {x : Chip}
    (hx : actingWrite s (agentSrc who) a b u o v false = some x) : regCmd s who a v = x := by
  have hkept : ((v ^^^ s.rd a) &&& wn r.cs) = 0 := by
    rw [hcs]
    exact BitVec.and_zero
  rw [regCmd_row hp hb hm, writeRow]
  simp only [hkept, bne_self_eq_false, Bool.and_false, Bool.false_eq_true, if_false, hr, ne_eq, not_true_eq_false, hx]
  split <;> rfl

theorem regCmd_fbCmpval {s : Chip} {who : Agent} {n : Fin 32} {u : Fin 4} (hm : MayWrite s who (Reg.fbCmpval n.val u.val)) (v : Word) :
    regCmd s who (Reg.fbCmpval n.val u.val) v = cmpvalWrite s n.val u.val v := by
  obtain ⟨hmod, hunit⟩ : (0x104 + 32 * u.val) % 32 = 4 ∧ (0x104 + 32 * u.val - 0x100) / 32 = u.val := by omega
  have hother : ∀ o, o < 0x100 → 0x104 + 32 * u.val ≠ o := fun o ho => by omega
  have hrange : rangeCode s 19 n.val (0x104 + 32 * u.val) (Reg.fbCmpval n.val u.val) v = 0 := by
    simp [rangeCode, fieldRangeOk, hmod, hother 0x04 (by decide), hother 0x0C (by decide), hother 0x10 (by decide), hother 0x14 (by decide)]
  refine regCmd_acting (placeOf_fbCmpval n u) (by decide) hm rfl hrange ?_
  simp only [actingWrite, hmod, hunit, and_true]
  exact if_pos (by omega)

/-- A compare value written leaves nothing behind. -/
theorem Still.cmpvalWrite {s : Chip} (h : Still s) (n : Fin 32) (u : Fin 4) (v : Word) : Still (cmpvalWrite s n.val u.val v) := by
  refine h.congr rfl rfl rfl rfl rfl rfl fun a ha => ?_
  have hlow : a < 0x11300000 := (by decide : ∀ b ∈ headRegs, b < 0x11300000) a ha
  have hval : a ≠ Reg.fbCmpval n.val u.val ∧ a ≠ Reg.fbCmpst n.val u.val := by
    unfold Reg.fbCmpval Reg.fbCmpst
    omega
  exact (Chip.rd_wr_ne _ _ hval.2).trans (Chip.rd_wr_ne _ _ hval.1)

/-- Settles O30: a sample accepts the lines (`withLines`), then on a running channel the decoder moves CNT, the compare units look, and the index
captures what the decoder left (`edgeStep_counts`, `edgeStep_illegal`, `withLines_captures`). -/
theorem feedbackCountsEdges : Obligations.FeedbackCountsEdges := by
  intro s n ph
  refine ⟨fun ra rb rz => ?_, ⟨fun hany => ?_, fun hs hnone => ?_⟩, fun who u v hs hm => ?_⟩
  · intro f level a b z
    have hstopped : fbRuns s.chip n.val = false → fbEdge s.chip n.val ph.val ra rb rz = withLines s.chip n.val ph.val a b z :=
      fbEdge_stopped ph.val ra rb rz
    have hrunning : fbRuns s.chip n.val = true → fbEdge s.chip n.val ph.val ra rb rz =
        edgeStep (withLines s.chip n.val ph.val a b z) n.val (fbSt s.chip n.val).a (fbSt s.chip n.val).b a b z (fbSt s.chip n.val).idxWas :=
      fbEdge_running ph.val ra rb rz
    clear_value a b z
    refine ⟨fun hs hstop => ?_, fun hrun hmode => ⟨_, by rw [exec_fbEdgeAccepted, finish_eq, hrunning hrun], ?_⟩⟩
    · rw [exec_fbEdgeAccepted, finish_eq, hstopped hstop, settle_still (hs.withLines ..)]
      rfl
    · have hm : fbMode (withLines s.chip n.val ph.val a b z) n.val = 0 := hmode
      obtain ⟨ha, hb, hz⟩ := edgeStep_lines s.chip n.val ph.val a b z (fbSt s.chip n.val).a (fbSt s.chip n.val).b (fbSt s.chip n.val).idxWas
      simp only [fbRegs_at, rd_fbBase, rd_fbCtl, Chip.rdBit]
      exact ⟨ha, hb, hz, edgeStep_counts _ _ hm, edgeStep_illegal _ _ hm, withLines_captures _ _ _ (ne_of_eq_of_ne hmode (by decide))⟩
  · refine ⟨_, by rw [exec_comparePulseEnd, finish_eq], ?_⟩
    rw [pulseEnd_past hany]
    exact ⟨rfl, rfl⟩
  · rw [exec_comparePulseEnd, finish_eq, pulseEnd_none hnone, settle_still hs]
  · rw [exec_cmpvalWrite, finish_eq, regCmd_fbCmpval hm, settle_still (hs.cmpvalWrite n u v)]
    rfl

end Sys2Proof.Machine
end

section
/-!
PROOFS of the feedback channels (09). The speeds measured, and the sample of the latched position.
-/

namespace Sys2Proof.Machine

/-! ### Speeds as FBn_SPD keeps them -/

/-- A word keeps the integer it holds. -/
theorem w32_s32 (w : Word) : w32 (s32 w) = w := BitVec.ofInt_toInt

/-- A word keeps a saturated integer. -/
theorem s32_w32_sat32 (x : Int) : s32 (w32 (sat32 x)) = sat32 x := by
  unfold sat32 clampI
  exact s32_w32 (by omega) (by omega)

theorem s32_bounds (w : Word) : -2147483648 ≤ s32 w ∧ s32 w < 2147483648 := ⟨BitVec.le_toInt w, BitVec.toInt_lt⟩

/-- A quotient of a number that is not negative is not negative. -/
theorem divNE_nonneg {x : Int} (hx : 0 ≤ x) (d : Nat) : 0 ≤ divNE x d := by
  have hq : 0 ≤ x / (d : Int) := Int.ediv_nonneg hx (Int.natCast_nonneg d)
  unfold divNE
  dsimp only
  (repeat' split) <;> omega

/-- The held speed of an unmoved window stays within the word that it is read from (R411). -/
theorem s32_w32_held (w : Word) {bound : Int} (hb : 0 ≤ bound) :
    s32 (w32 ((s32 w).sign * min ((s32 w).natAbs : Int) bound)) = (s32 w).sign * min ((s32 w).natAbs : Int) bound := by
  obtain ⟨hlo, hhi⟩ := s32_bounds w
  generalize s32 w = v at *
  rcases lt_trichotomy v 0 with h | rfl | h
  · rw [Int.sign_eq_neg_one_of_neg h]
    exact s32_w32 (by omega) (by omega)
  · rw [Int.sign_zero, zero_mul]
    exact s32_w32 (by omega) (by omega)
  · rw [Int.sign_eq_one_of_pos h]
    exact s32_w32 (by omega) (by omega)

section Speed
variable (s : Chip) (n : Nat)

/-- Every speed of modes 0 and 1 fits FBn_SPD (R411). -/
theorem s32_w32_edgeSpeed : s32 (w32 (edgeSpeed s n).1) = (edgeSpeed s n).1 := by
  have hfree : s32 (w32 (freeS32 s)) = freeS32 s := congrArg s32 (w32_s32 _)
  unfold edgeSpeed
  dsimp only
  split
  · split
    · exact hfree
    · split
      · split
        · exact hfree
        · exact s32_w32_held _ (divNE_nonneg (by decide) _)
      · split
        · exact s32_w32_sat32 _
        · exact hfree
  · rfl

theorem s32_w32_wordSpeed : s32 (w32 (wordSpeed s n).1) = (wordSpeed s n).1 := by
  unfold wordSpeed
  dsimp only
  split
  · exact s32_w32_sat32 _
  · exact congrArg s32 (w32_s32 _)

variable {s n}

/-- Before any edge the speed is 0 (R411). -/
theorem edgeSpeed_noEdge (h : ∀ c1 x1, (fbSt s n).hist.head? ≠ some (c1, some x1)) : (edgeSpeed s n).1 = 0 := by
  unfold edgeSpeed
  dsimp only
  split
  · next c1 x1 hhead => exact absurd hhead (h c1 x1)
  · rfl

/-- The speed of a window whose count moved, between the edges at its ends (R411). -/
theorem edgeSpeed_moved {c1 x1 c0 x0 : Nat} (h1 : (fbSt s n).hist.head? = some (c1, some x1))
    (h0 : (fbSt s n).hist[2 ^ fbSw s n]? = some (c0, some x0)) (hd : dist32 (wn c1) (wn c0) ≠ 0) :
    (edgeSpeed s n).1 = sat32 (divNE (dist32 (wn c1) (wn c0) * 2000 * 65536) (x1 - x0)) := by
  simp only [edgeSpeed, h1, h0, hd, if_false]

end Speed

/-! ### The sample -/

section Sample
variable (s : Chip) (n : Nat)

theorem FbWrites.draw {n : Nat} {os : List Nat} {s x : Chip} (h : FbWrites n os s x) : FbWrites n os s x.draw := h.frame

/-- The channel with its speed measured, before its sample goes to the store (R400, R401). -/
def sampled : Chip :=
  let q := edgeSpeed s n
  setFb ((if q.2.2 then s.atPhase 20 else (s.atPhase 20).draw).wr (Reg.fbSpd n) (w32 q.1)) n { fbSt s n with
    due := false
    err := false
    spdSat := q.2.1 }

theorem sampled_writes : FbWrites n [0x30] s (sampled s n) := by
  have hat : FbWrites n [0x30] s (s.atPhase 20) := (FbWrites.refl s).atPhase
  exact (FbWrites.wr (.ite hat hat.draw) (by simp [fbRegs_at])).setFb

theorem fbWord_sampled : fbWord (sampled s n) n 0x30 = w32 (edgeSpeed s n).1 := by
  simp [sampled, fbRegs_at, fbWord_wr]

theorem fbSt_sampled : fbSt (sampled s n) n = { fbSt s n with
    due := false
    err := false
    spdSat := (edgeSpeed s n).2.1 } := by
  simp [sampled]

variable {s n}

/-- A due sample of modes 0 and 1 is one transaction of the latched count and the speed (R400, R401). -/
theorem fbSample_due (hrun : fbRuns s n = true) (hmode : fbMode s n ≠ 2) (hdue : (fbSt s n).due = true) :
    fbSample s n = fbWrite (sampled s n) n (s32 (fbWord s n 0x24)) (edgeSpeed s n).1 (edgeSpeed s n).2.1 (fbSt s n).err := by
  have hsample : fbSample s n =
      fbWrite (sampled s n) n (s32 ((sampled s n).rd (Reg.fbLatch n))) (edgeSpeed s n).1 (edgeSpeed s n).2.1 (fbSt s n).err :=
    if_neg (by simp [hrun, hmode, hdue])
  rw [hsample]
  simp only [fbRegs_at, rd_fbBase, (sampled_writes s n).word (by decide : 0x24 ∉ _)]

/-- With no sample due nothing happens (R400). -/
theorem fbSample_idle (h : fbRuns s n = false ∨ fbMode s n = 2 ∨ (fbSt s n).due = false) : fbSample s n = s :=
  if_pos (by simpa using h)

theorem exec_fbSample (n : Fin 32) (st : State) : exec (.fbSample n) st = finish st (fun s => fbSample s n.val) := rfl

end Sample

end Sys2Proof.Machine
end

section
/-!
PROOFS of the feedback channels (09). Serial words: taken, in error, and good.
-/

namespace Sys2Proof.Machine

/-! ### A word taken -/

section Word
variable (s : Chip) (n : Nat)

/-- The length of a channel's words (R403). -/
def serLen : Nat := s.rdF (Reg.fbSer n) 13 8

/-- The bits of a word that hold the position (R403). -/
def serPos : Nat := s.rdF (Reg.fbSer n) 19 14

/-- The position that the word `w` carries (R403). -/
def wordPos (w : Nat) : Nat :=
  let raw := w / 2 ^ (serLen s n - serPos s n)
  if s.rdBit (Reg.fbSer n) 25 then grayToBin raw (serPos s n) else raw

/-- The channel with the word `w`, due at `t`, taken in: none is in progress, and its bits stand in SERRAWLO and SERRAWHI (R402, R403). -/
def wordTaken (t w : Nat) : Chip :=
  ((setFb (s.atPhase (t - s.tb.base)) n { fbSt s n with
    word := none
    noIdle := false }).wr (Reg.fbSerrawlo n) (wn w)).wr (Reg.fbSerrawhi n) (wn (w / 2 ^ 32))

variable (t w : Nat)

theorem wordTaken_writes : FbWrites n [0x34, 0x38] s (wordTaken s n t w) :=
  (((FbWrites.refl s).atPhase.setFb).wr (by simp [fbRegs_at])).wr (by simp [fbRegs_at])

theorem fbWord_wordTaken : fbWord (wordTaken s n t w) n 0x34 = wn w := by
  simp [wordTaken, fbRegs_at, fbWord_wr]

theorem fbSt_wordTaken : fbSt (wordTaken s n t w) n = { fbSt s n with
    word := none
    noIdle := false } := by
  simp [wordTaken]

/-- The errors of a word follow from SER and SERCRC (R404, R405). -/
theorem wordErrors_congr {s x : Chip} {n : Nat} (hser : fbWord x n 0x04 = fbWord s n 0x04) (hcrc : fbWord x n 0x08 = fbWord s n 0x08) (w : Nat) :
    wordErrors x n w = wordErrors s n w := by
  unfold wordErrors
  simp only [fbRegs_at, rd_fbBase, hser, hcrc]

theorem wordErrors_wordTaken : wordErrors (wordTaken s n t w) n w = wordErrors s n w :=
  wordErrors_congr ((wordTaken_writes s n t w).word (by decide)) ((wordTaken_writes s n t w).word (by decide)) w

variable {s n t} {word : Nat}

/-- A word whose last bit comes in a later tick waits (R402). -/
theorem serialWord_waits (hw : wordDue s n = some t) (ht : s.inTick t = false) : serialWord s n word = s := by
  simp [serialWord, hw, ht]

/-- A word that is in is taken, and is in error or good (R402–R406). -/
theorem serialWord_taken (hw : wordDue s n = some t) (hrun : fbRuns s n = true) (hmode : fbMode s n = 2) (ht : s.inTick t = true) :
    let w := word % 2 ^ serLen s n
    let err := wordErrors s n w
    serialWord s n word =
      if (fbSt s n).noIdle || err.1 || err.2 then badWord (wordTaken s n t w) n err.1 err.2
      else goodWord (wordTaken s n t w) n (wordPos s n w) := by
  intro w err
  have herr : wordErrors (wordTaken s n t w) n w = err := wordErrors_wordTaken ..
  have hgo : ¬ ((!fbRuns s n) = true ∨ fbMode s n ≠ 2 ∨ (!s.inTick t) = true) := by simp [hrun, hmode, ht]
  have htaken : serialWord s n word =
      let err := wordErrors (wordTaken s n t w) n w
      if (fbSt s n).noIdle || err.1 || err.2 then badWord (wordTaken s n t w) n err.1 err.2
      else goodWord (wordTaken s n t w) n (wordPos s n w) := by
    unfold serialWord
    simp only [hw]
    exact (if_neg hgo).trans rfl
  rw [htaken, herr]

end Word

/-! ### A word in error -/

section Bad
variable (s : Chip) (n : Nat) (crcErr encErr : Bool)

/-- The channel with a word in error flagged and counted (R405). -/
def badMarked : Chip :=
  let s1 := if crcErr then s.wrBit (Reg.fbStat n) 4 true else s
  let s2 := if encErr then s1.wrBit (Reg.fbStat n) 6 true else s1
  let s3 := if crcErr || encErr then (s2.bump (Reg.fbSererr n)).fbFlag n 3 else s2.bump (Reg.fbSererr n)
  setFb s3 n { fbSt s3 n with err := false }

/-- Its sample is the previous CNT and speed, with FAULT (R405). -/
theorem badWord_eq : badWord s n crcErr encErr = fbWrite (badMarked s n crcErr encErr) n (s32 ((badMarked s n crcErr encErr).rd (Reg.fbCnt n)))
    (s32 ((badMarked s n crcErr encErr).rd (Reg.fbSpd n))) (fbSt (badMarked s n crcErr encErr) n).spdSat true := rfl

theorem badMarked_writes : FbWrites n [0x40, 0x48, 0x50] s (badMarked s n crcErr encErr) := by
  unfold badMarked
  extract_lets s1 s2 s3
  have hs1 : FbWrites n [0x40, 0x48, 0x50] s s1 := .ite ((FbWrites.refl s).wrBit (by simp [fbRegs_at])) (.refl s)
  have hs2 : FbWrites n [0x40, 0x48, 0x50] s s2 := .ite (hs1.wrBit (by simp [fbRegs_at])) hs1
  have hcount : FbWrites n [0x40, 0x48, 0x50] s (s2.bump (Reg.fbSererr n)) := hs2.bump (by simp [fbRegs_at])
  exact .setFb (.ite (hcount.fbFlag (by decide)) hcount)

theorem fbSt_badMarked : fbSt (badMarked s n crcErr encErr) n = { fbSt s n with err := false } := by
  cases crcErr <;> cases encErr <;> simp [badMarked]

theorem fbWord_badMarked : fbWord (badMarked s n crcErr encErr) n 0x48 = fbWord s n 0x48 + 1 := by
  cases crcErr <;> cases encErr <;> simp [badMarked, fbRegs_at, fbWord_bump, fbWord_wrBit]

end Bad

/-! ### A good word -/

section Good
variable (s : Chip) (n u : Nat)

/-- CNT after a good word with the position `u` (R406). -/
def wordCnt : Word := takeWord (s.rd (Reg.fbCnt n)) (fbSt s n).firstWord (serPos s n) u

/-- The channel with CNT as a good word leaves it, and the compare units past (R406, R414). -/
def wordCounted : Chip :=
  let new := wordCnt s n u
  let d := dist32 new (s.rd (Reg.fbCnt n))
  compareUnits (setFb (s.wr (Reg.fbCnt n) new) n { fbSt s n with
    firstWord := false
    lastD := d
    words := (new.toNat :: (fbSt s n).words).take 257
    err := false }) n (s.rd (Reg.fbCnt n)) d

/-- The channel with its speed measured too (R412). -/
def wordMeasured : Chip :=
  let s2 := wordCounted s n u
  let q := wordSpeed s2 n
  let s3 := if q.2.2 then s2 else s2.draw
  setFb (s3.wr (Reg.fbSpd n) (w32 q.1)) n { fbSt s3 n with spdSat := q.2.1 }

/-- Its sample is the new CNT and the speed, with FAULT as owed (R401, R406). -/
theorem goodWord_eq : goodWord s n u = fbWrite (wordMeasured s n u) n (s32 (wordCnt s n u)) (wordSpeed (wordCounted s n u) n).1
    (wordSpeed (wordCounted s n u) n).2.1 (fbSt s n).err := rfl

theorem wordCounted_writes : FbWrites n (0x20 :: compareWords) s (wordCounted s n u) := by
  unfold wordCounted
  extract_lets new d
  have hcnt : FbWrites n (0x20 :: compareWords) s (s.wr (Reg.fbCnt n) new) := (FbWrites.refl s).wr ⟨0x20, List.mem_cons_self, by simp [fbRegs_at]⟩
  exact hcnt.setFb.trans ((compareUnits_writes ..).mono (List.subset_cons_self ..))

theorem fbWord_wordCounted : fbWord (wordCounted s n u) n 0x20 = wordCnt s n u := by
  unfold wordCounted
  dsimp only
  rw [(compareUnits_writes ..).word (by decide)]
  simp [fbRegs_at, fbWord_wr]

theorem fbSt_wordCounted : fbSt (wordCounted s n u) n = { fbSt s n with
    firstWord := false
    lastD := dist32 (wordCnt s n u) (s.rd (Reg.fbCnt n))
    words := ((wordCnt s n u).toNat :: (fbSt s n).words).take 257
    err := false } := by
  simp [wordCounted, fbSt_compareUnits]

/-- Behind CNT and the compare units, FBn_SPD is written (R412). -/
theorem wordMeasured_writes : FbWrites n [0x30] (wordCounted s n u) (wordMeasured s n u) := by
  unfold wordMeasured
  extract_lets s2 q s3
  have hs3 : FbWrites n [0x30] s2 s3 := .ite (.refl s2) (FbWrites.refl s2).draw
  exact (hs3.wr (by simp [fbRegs_at])).setFb

theorem fbWord_wordMeasured : fbWord (wordMeasured s n u) n 0x30 = w32 (wordSpeed (wordCounted s n u) n).1 := by
  simp [wordMeasured, fbRegs_at, fbWord_wr]

theorem fbSt_wordMeasured : fbSt (wordMeasured s n u) n = { fbSt (wordCounted s n u) n with
    spdSat := (wordSpeed (wordCounted s n u) n).2.1 } := by
  unfold wordMeasured
  dsimp only
  rw [fbSt_setFb]
  split <;> rfl

end Good

/-! ### What a word leaves -/

section Taken
variable (s : Chip) (n t w : Nat)

/-- A word in error keeps CNT, counts one in SERERR, and samples the previous CNT and speed with FAULT (R405). -/
theorem badWord_taken (crcErr encErr : Bool) :
    let x := badWord (wordTaken s n t w) n crcErr encErr
    (fbSt x n).word = none ∧ (fbSt x n).err = false ∧ fbWord x n 0x34 = wn w ∧ fbWord x n 0x20 = fbWord s n 0x20 ∧
      fbWord x n 0x48 = fbWord s n 0x48 + 1 ∧ x.store.entries =
        (fbWrite s n (s32 (fbWord s n 0x20)) (s32 (fbWord s n 0x30)) (fbSt s n).spdSat true).store.entries := by
  intro x
  have hmark := badMarked_writes (wordTaken s n t w) n crcErr encErr
  have htake := wordTaken_writes s n t w
  have hall : FbWrites n [0x34, 0x38, 0x40, 0x48, 0x50] s (badMarked (wordTaken s n t w) n crcErr encErr) :=
    (htake.mono (by decide)).trans (hmark.mono (by decide))
  have hst : fbSt (badMarked (wordTaken s n t w) n crcErr encErr) n = { fbSt s n with
      word := none
      noIdle := false
      err := false } := by rw [fbSt_badMarked, fbSt_wordTaken]
  have hx : x = fbWrite (badMarked (wordTaken s n t w) n crcErr encErr) n (s32 (fbWord s n 0x20)) (s32 (fbWord s n 0x30)) (fbSt s n).spdSat
      true := by
    rw [show x = badWord (wordTaken s n t w) n crcErr encErr from rfl, badWord_eq, hst]
    simp only [fbRegs_at, rd_fbBase, hall.word (by decide : 0x20 ∉ _), hall.word (by decide : 0x30 ∉ _)]
  rw [hx]
  simp only [fbSt_fbWrite, fbWord_fbWrite, hst, true_and]
  refine ⟨?_, hall.word (by decide), ?_, hall.entries _ _ _ _ (by decide) (by decide)⟩
  · rw [hmark.word (by decide), fbWord_wordTaken]
  · rw [fbWord_badMarked, htake.word (by decide)]

/-- A good word takes its position into CNT, and samples it with the speed, FAULT as owed (R401, R406, R412). -/
theorem goodWord_taken (u : Nat) :
    let x := goodWord (wordTaken s n t w) n u
    (fbSt x n).word = none ∧ (fbSt x n).err = false ∧ fbWord x n 0x34 = wn w ∧ fbWord x n 0x48 = fbWord s n 0x48 ∧
      fbWord x n 0x20 = takeWord (fbWord s n 0x20) (fbSt s n).firstWord (serPos s n) u ∧ x.store.entries =
        (fbWrite s n (s32 (fbWord x n 0x20)) (s32 (fbWord x n 0x30)) (fbSt x n).spdSat (fbSt s n).err).store.entries := by
  intro x
  let y := wordTaken s n t w
  have htake : FbWrites n [0x34, 0x38] s y := wordTaken_writes s n t w
  have hcounted : FbWrites n (0x20 :: 0x30 :: compareWords) y (wordMeasured y n u) :=
    ((wordCounted_writes y n u).mono (by decide)).trans ((wordMeasured_writes y n u).mono (by decide))
  have hall : FbWrites n (0x34 :: 0x38 :: 0x20 :: 0x30 :: compareWords) s (wordMeasured y n u) :=
    (htake.mono (by decide)).trans (hcounted.mono (by decide))
  have hcnt : wordCnt y n u = takeWord (fbWord s n 0x20) (fbSt s n).firstWord (serPos s n) u := by
    unfold wordCnt serPos Chip.rdF
    simp only [fbRegs_at, rd_fbBase, htake.word (by decide : 0x20 ∉ _), htake.word (by decide : 0x04 ∉ _)]
    rw [fbSt_wordTaken]
  have hx : x = fbWrite (wordMeasured y n u) n (s32 (wordCnt y n u)) (wordSpeed (wordCounted y n u) n).1
      (wordSpeed (wordCounted y n u) n).2.1 (fbSt s n).err := by
    show goodWord y n u = _
    rw [goodWord_eq, fbSt_wordTaken]
  rw [hx]
  simp only [fbSt_fbWrite, fbWord_fbWrite, fbSt_wordMeasured, fbSt_wordCounted, fbWord_wordMeasured, s32_w32_wordSpeed,
    (wordMeasured_writes y n u).word (by decide : 0x20 ∉ _), fbWord_wordCounted, fbSt_wordTaken, y, true_and]
  refine ⟨?_, hall.word (by decide), hcnt, hall.entries _ _ _ _ (by decide) (by decide)⟩
  · rw [hcounted.word (by decide), fbWord_wordTaken]

end Taken

theorem exec_serialWordDecode (n : Fin 32) (word : BitVec 64) (st : State) :
    exec (.serialWordDecode n word) st = finish st (fun s => serialWord s n.val word.toNat) := rfl

end Sys2Proof.Machine
end

section
/-!
PROOFS of the feedback channels (09). ON written: a channel that starts, one that is refused, one that stops.
-/

namespace Sys2Proof.Machine

/-! ### What ON does -/

section On
variable {s : Chip} {n : Nat}

theorem fbOnWrite_start (hoff : s.rdBit (Reg.fbCtl n) 0 = false) (hok : fbStartOk s n = true) :
    fbOnWrite s n true = fbStart (s.wrBit (Reg.fbCtl n) 0 true) n 0 true := by
  simp [fbOnWrite, hoff, hok]

theorem fbOnWrite_refused (hoff : s.rdBit (Reg.fbCtl n) 0 = false) (hok : fbStartOk s n = false) :
    fbOnWrite s n true = fbRefuse s n 2 0 := by
  simp [fbOnWrite, hoff, hok]

theorem fbOnWrite_stop (hon : s.rdBit (Reg.fbCtl n) 0 = true) :
    fbOnWrite s n false = fbStop (s.wrBit (Reg.fbCtl n) 0 false) n := by
  simp [fbOnWrite, hon]

variable (s n)

/-- A start writes CNT and FBn_STAT (R399, R408, R431). -/
theorem fbStart_writes (cnt : Word) (first : Bool) : FbWrites n [0x20, 0x40] s (fbStart s n cnt first) :=
  (((FbWrites.refl s).setFb.wr (by simp [fbRegs_at])).wrBit (by simp [fbRegs_at])).wrBit (by simp [fbRegs_at])

theorem fbWord_fbStart (cnt : Word) (first : Bool) : fbWord (fbStart s n cnt first) n 0x20 = cnt := by
  simp [fbStart, fbRegs_at, fbWord_wr, fbWord_wrBit]

theorem fbStart_runs (cnt : Word) (first : Bool) : fbRuns (fbStart s n cnt first) n = true := by
  simp [fbRuns, Chip.rdBit, fbStart, fbRegs_at, rd_fbBase, fbWord_wrBit, bit_setBit_ne, bit_setBit_self]

/-- No history, and the levels followed while the channel was off (R399, notes/assumptions/38.md). -/
theorem fbSt_fbStart (cnt : Word) (first : Bool) :
    (fbSt (fbStart s n cnt first) n).hist = [] ∧ (fbSt (fbStart s n cnt first) n).firstWord = first ∧
      (fbSt (fbStart s n cnt first) n).a = (fbSt s n).a ∧ (fbSt (fbStart s n cnt first) n).b = (fbSt s n).b := by
  simp [fbStart, FbChan.zero]

/-- A refusal writes CFGERR and FBn_EVT (R419, R430). -/
theorem fbRefuse_writes (code off : Nat) : FbWrites n [0x3C, 0x50] s (fbRefuse s n code off) :=
  ((FbWrites.refl s).wr (by simp [fbRegs_at])).fbFlag (by decide)

theorem fbWord_fbRefuse (code off : Nat) : fbWord (fbRefuse s n code off) n 0x3C = wn (code * 2 ^ 28 + off) := by
  simp [fbRefuse, fbRegs_at, fbWord_wr]

theorem fbRefuse_fb (code off : Nat) : (fbRefuse s n code off).fb = s.fb := by
  simp [fbRefuse, Chip.fbFlag]

/-- The CMPCFG of the units (R434). -/
def cmpcfgWords : List Nat := [0x100, 0x120, 0x140, 0x160]

/-- Every unit disarmed (R420). -/
def unitsDisarmed : Chip := [0, 1, 2, 3].foldl (fun x u => x.wrBit (Reg.fbCmpcfg n u) 0 false) s

theorem unitsDisarmed_writes : FbWrites n cmpcfgWords s (unitsDisarmed s n) :=
  List.foldlRecOn (motive := FbWrites n cmpcfgWords s) _ _ (.refl s) fun x hx u hu =>
    hx.wrBit ⟨0x100 + 32 * u, (by decide : ∀ u ∈ [0, 1, 2, 3], 0x100 + 32 * u ∈ cmpcfgWords) u hu, by simp [fbRegs_at]⟩

theorem unitsDisarmed_disarms {u : Nat} (hu : u < 4) : bit (fbWord (unitsDisarmed s n) n (0x100 + 32 * u)) 0 = false := by
  interval_cases u <;> simp [unitsDisarmed, fbRegs_at, fbWord_wrBit, bit_setBit_self]

theorem unitsDisarmed_pins : (unitsDisarmed s n).pins = s.pins :=
  foldl_keeps Chip.pins (f := fun x u => x.wrBit (Reg.fbCmpcfg n u) 0 false) (fun _ _ => rfl) _ _

/-- The channel as a stop leaves it, before its units are disarmed (R401, R420). -/
def fbResting : Chip :=
  setFb (s.wrBit (Reg.fbStat n) 0 false) n { fbSt s n with
    word := none
    noIdle := false
    due := false
    err := (fbSt s n).err || (fbSt s n).noIdle }

theorem fbResting_writes : FbWrites n [0x40] s (fbResting s n) := ((FbWrites.refl s).wrBit (by simp [fbRegs_at])).setFb

/-- A stop disarms the units, and ends the pulses on the channel's pin (R420). -/
theorem fbStop_eq : fbStop s n = { unitsDisarmed (fbResting s n) n with
    pins := { (unitsDisarmed (fbResting s n) n).pins with
      cmp := (unitsDisarmed (fbResting s n) n).pins.cmp.filter (fun p => p.pin != n) } } := rfl

theorem fbWord_fbStop (o : Nat) : fbWord (fbStop s n) n o = fbWord (unitsDisarmed (fbResting s n) n) n o := by
  rw [fbStop_eq]
  exact fbWord_setPins ..

theorem fbStop_writes : FbWrites n (0x40 :: cmpcfgWords) s (fbStop s n) := by
  rw [fbStop_eq]
  exact (((fbResting_writes s n).mono (by decide)).trans ((unitsDisarmed_writes ..).mono (List.subset_cons_self ..))).frame

theorem fbStop_stops : fbRuns (fbStop s n) n = false := by
  unfold fbRuns Chip.rdBit
  simp only [fbRegs_at, rd_fbBase]
  rw [fbWord_fbStop, (unitsDisarmed_writes ..).word (by decide)]
  simp [fbResting, fbRegs_at, fbWord_wrBit, bit_setBit_self]

theorem fbStop_disarms {u : Nat} (hu : u < 4) : bit (fbWord (fbStop s n) n (0x100 + 32 * u)) 0 = false := by
  rw [fbWord_fbStop]
  exact unitsDisarmed_disarms _ n hu

theorem fbStop_pulses : (fbStop s n).pins.cmp = s.pins.cmp.filter (fun p => p.pin != n) := by
  rw [fbStop_eq, unitsDisarmed_pins]
  rfl

/-- Whether a channel may start follows from its registers and the slots' records (R407), not from CFGERR. -/
theorem fbStartOk_congr {s x : Chip} (h : FbWrites n [0x3C] s x) (he : x.eng = s.eng) : fbStartOk x n = fbStartOk s n := by
  unfold fbStartOk fbTimely fbStamp2 feedsLocal recordLids Chip.rdBit Chip.rdF
  simp only [fbRegs_at, rd_fbBase, rd_fbCtl, h.word (by decide : 0x00 ∉ _), h.word (by decide : 0x04 ∉ _), h.word (by decide : 0x10 ∉ _),
    h.word (by decide : 0x14 ∉ _), he]

end On

/-! ### The word of FBn_CTL written -/

/-- The row of FBn_CTL (R423). -/
def fbCtlRow : RegRow := ⟨0, 1, 4, 0, 1, 0, 0, 0x3FFE, 0xF0000, 0, 0, 0xF3FFF, 0, 0xF3FFF⟩

theorem placeOf_fbCtl (n : Fin 32) : placeOf (Reg.fbCtl n.val) = some (.reg 19 n.val 0 fbCtlRow) := by
  revert n
  decide +kernel

/-- FBn_CTL written by its field types, but for ON, which acts by itself (00 R15). -/
def ctlTyped (s : Chip) (n : Nat) (v : Word) : Chip :=
  applyTypes s (Reg.fbCtl n) { fbCtlRow with rw := fbCtlRow.rw &&& 0xFFFFFFFE } v

/-- A bit written leaves what a mask without that bit shows. -/
theorem setBit_and (w : Word) (x : Bool) {m : Word} (hm : m.getLsbD 0 = false) : setBit w 0 x &&& m = w &&& m := by
  refine BitVec.eq_of_getLsbD_eq fun i _ => ?_
  rw [BitVec.getLsbD_and, BitVec.getLsbD_and]
  by_cases hi : i = 0
  · rw [hi, hm, Bool.and_false, Bool.and_false]
  · have hbit : (setBit w 0 x).getLsbD i = w.getLsbD i := by
      have := testBit_setFld w x.toNat i (Nat.le_refl 0) (by decide)
      rw [if_neg (by omega), if_neg (by omega)] at this
      exact this
    rw [hbit]

/-- A mask without that bit shows no change. -/
theorem setBit_changed (w : Word) (x : Bool) {m : Word} (hm : m.getLsbD 0 = false) : (setBit w 0 x ^^^ w) &&& m = 0 := by
  refine BitVec.eq_of_getLsbD_eq fun i _ => ?_
  rw [BitVec.getLsbD_and, BitVec.getLsbD_xor, Bool.and_xor_distrib_right, ← BitVec.getLsbD_and, ← BitVec.getLsbD_and, setBit_and w x hm,
    Bool.xor_self]
  exact BitVec.getLsbD_zero.symm

/-- A word is put together of the bits without a mask and those under it. -/
theorem and_not_or_and (w m : Word) : w &&& ~~~m ||| w &&& m = w := by
  refine BitVec.eq_of_getLsbD_eq fun i hi => ?_
  simp only [BitVec.getLsbD_or, BitVec.getLsbD_and, BitVec.getLsbD_not, hi, decide_true, Bool.true_and]
  cases w.getLsbD i <;> cases m.getLsbD i <;> rfl

section Typed
variable {s : Chip} {n : Nat} {v : Word}

/-- FBn_CTL written as it stands but for ON stands as it was: ON is not among the bits that the field types write. -/
theorem ctlTyped_writes {on : Bool} (hv : v = setBit (fbWord s n 0) 0 on) : FbWrites n [] s (ctlTyped s n v) := by
  have hkept : v &&& wn 0x3FFE = fbWord s n 0 &&& wn 0x3FFE := hv ▸ setBit_and _ on (by decide)
  have hword : (merge (s.rd (Reg.fbCtl n)) v 0x3FFE &&& ~~~ (v &&& wn 0)) ||| (v &&& wn 0) = fbWord s n 0 := by
    have hzero : v &&& wn 0 = 0 := BitVec.and_zero
    rw [hzero, merge, hkept, rd_fbCtl, and_not_or_and]
    exact (BitVec.or_zero).trans BitVec.and_allOnes
  have hregs : ∀ a, (ctlTyped s n v).rd a = s.rd a := fun a => by
    show (s.wr (Reg.fbCtl n) _).rd a = _
    rw [Chip.rd_wr]
    split
    · next ha =>
      rw [ha]
      exact hword
    · rfl
  exact ⟨fun a _ => hregs a, rfl, rfl⟩

end Typed

section OnWord
variable {s : Chip} {n : Nat} {v : Word} {on : Bool}

/-- What a write of the word does when no refusal stops it (R399, R407, R420). -/
def ctlActed (s : Chip) (n : Nat) (v : Word) (on : Bool) : Chip := fbOnWrite (ctlTyped s n v) n on

/-- The code that the write would leave in CFGERR (18 R823). -/
def ctlCode (s : Chip) (n : Nat) (v : Word) (on : Bool) : Nat :=
  (ctlActed (s.wrF (Reg.fbCfgerr n) 31 28 0) n v on).rdF (Reg.fbCfgerr n) 31 28

/-- The write is refused with the code where the act leaves one and ON is not as written; else it acts (18 R823, R895). -/
theorem writeOnWord_fbCtl (hv : v = setBit (fbWord s n 0) 0 on) : writeOnWord s 19 n 0 (Reg.fbCtl n) fbCtlRow v =
    if ctlCode s n v on ≠ 0 ∧ ((ctlActed s n v on).rdBit (Reg.fbCtl n) 0 != on) = true then (fbRefuse s n (ctlCode s n v on) 0, .range)
    else (ctlActed s n v on, .done) := by
  have hon : bit v 0 = on := hv ▸ bit_setBit_self _ on (by decide)
  subst hon
  rfl

end OnWord

/-! ### What a write of the word does -/

section Act
variable {s x : Chip} {n : Nat} {v : Word} {on : Bool}

theorem ctlTyped_eng : (ctlTyped s n v).eng = s.eng := rfl

/-- The word written, where CFGERR alone may have changed before. -/
theorem ctlTyped_keeps (h : FbWrites n [0x3C] s x) (hv : v = setBit (fbWord s n 0) 0 on) : FbWrites n [0x3C] s (ctlTyped x n v) :=
  h.trans ((ctlTyped_writes ((h.word (o := 0) (by decide)).symm ▸ hv)).mono (List.nil_subset _))

theorem ctlTyped_on (h : FbWrites n [0x3C] s x) (hv : v = setBit (fbWord s n 0) 0 on) :
    (ctlTyped x n v).rdBit (Reg.fbCtl n) 0 = bit (fbWord s n 0) 0 := by
  rw [Chip.rdBit, rd_fbCtl, (ctlTyped_keeps h hv).word (by decide)]

/-- A stopped channel that may start starts (R399). -/
theorem ctlActed_start (h : FbWrites n [0x3C] s x) (he : x.eng = s.eng) (hv : v = setBit (fbWord s n 0) 0 true)
    (hoff : bit (fbWord s n 0) 0 = false) (hok : fbStartOk s n = true) :
    ctlActed x n v true = fbStart ((ctlTyped x n v).wrBit (Reg.fbCtl n) 0 true) n 0 true :=
  fbOnWrite_start ((ctlTyped_on h hv).trans hoff) ((fbStartOk_congr n (ctlTyped_keeps h hv) (ctlTyped_eng.trans he)).trans hok)

/-- One that may not is refused (R407). -/
theorem ctlActed_refused (h : FbWrites n [0x3C] s x) (he : x.eng = s.eng) (hv : v = setBit (fbWord s n 0) 0 true)
    (hoff : bit (fbWord s n 0) 0 = false) (hok : fbStartOk s n = false) : ctlActed x n v true = fbRefuse (ctlTyped x n v) n 2 0 :=
  fbOnWrite_refused ((ctlTyped_on h hv).trans hoff) ((fbStartOk_congr n (ctlTyped_keeps h hv) (ctlTyped_eng.trans he)).trans hok)

/-- A running one stops (R420). -/
theorem ctlActed_stop (h : FbWrites n [0x3C] s x) (hv : v = setBit (fbWord s n 0) 0 false) (hon : bit (fbWord s n 0) 0 = true) :
    ctlActed x n v false = fbStop ((ctlTyped x n v).wrBit (Reg.fbCtl n) 0 false) n :=
  fbOnWrite_stop ((ctlTyped_on h hv).trans hon)

/-- CFGERR as the check of a write clears it (18 R823). -/
theorem cleared_writes : FbWrites n [0x3C] s (s.wrF (Reg.fbCfgerr n) 31 28 0) := (FbWrites.refl s).wr (by simp [fbRegs_at])

/-- An act that leaves CFGERR alone leaves no code there, so it is done. -/
theorem writeOnWord_acts (hv : v = setBit (fbWord s n 0) 0 on) {os : List Nat}
    (h : FbWrites n os (s.wrF (Reg.fbCfgerr n) 31 28 0) (ctlActed (s.wrF (Reg.fbCfgerr n) 31 28 0) n v on)) (hout : 0x3C ∉ os) :
    writeOnWord s 19 n 0 (Reg.fbCtl n) fbCtlRow v = (ctlActed s n v on, .done) := by
  have hcode : ctlCode s n v on = 0 := by
    unfold ctlCode Chip.rdF
    simp only [fbRegs_at, rd_fbBase] at h ⊢
    rw [h.word hout]
    exact Chip.rdF_wrF_self s _ 0 (by decide) (by decide)
  rw [writeOnWord_fbCtl hv, if_neg fun h => h.1 hcode]

/-- The word written, and ON set in it (R420). -/
theorem wrOn_writes (x : Chip) (hv : v = setBit (fbWord x n 0) 0 on) : FbWrites n [0x00] x ((ctlTyped x n v).wrBit (Reg.fbCtl n) 0 on) :=
  ((ctlTyped_writes hv).mono (List.nil_subset _)).wrBit ⟨0, by decide, rfl⟩

theorem writeOnWord_start (hv : v = setBit (fbWord s n 0) 0 true) (hoff : bit (fbWord s n 0) 0 = false) (hok : fbStartOk s n = true) :
    writeOnWord s 19 n 0 (Reg.fbCtl n) fbCtlRow v = (fbStart ((ctlTyped s n v).wrBit (Reg.fbCtl n) 0 true) n 0 true, .done) := by
  have hact : FbWrites n [0x00, 0x20, 0x40] (s.wrF (Reg.fbCfgerr n) 31 28 0) (ctlActed (s.wrF (Reg.fbCfgerr n) 31 28 0) n v true) := by
    rw [ctlActed_start cleared_writes rfl hv hoff hok]
    exact ((wrOn_writes _ ((cleared_writes.word (o := 0) (by decide)).symm ▸ hv)).mono (by decide)).trans ((fbStart_writes ..).mono (by decide))
  rw [writeOnWord_acts hv hact (by decide), ctlActed_start (.refl s) rfl hv hoff hok]

theorem writeOnWord_stop (hv : v = setBit (fbWord s n 0) 0 false) (hon : bit (fbWord s n 0) 0 = true) :
    writeOnWord s 19 n 0 (Reg.fbCtl n) fbCtlRow v = (fbStop ((ctlTyped s n v).wrBit (Reg.fbCtl n) 0 false) n, .done) := by
  have hact : FbWrites n (0x00 :: 0x40 :: cmpcfgWords) (s.wrF (Reg.fbCfgerr n) 31 28 0) (ctlActed (s.wrF (Reg.fbCfgerr n) 31 28 0) n v false) := by
    rw [ctlActed_stop cleared_writes hv hon]
    exact ((wrOn_writes _ ((cleared_writes.word (o := 0) (by decide)).symm ▸ hv)).mono (by decide)).trans ((fbStop_writes ..).mono (by decide))
  rw [writeOnWord_acts hv hact (by decide), ctlActed_stop (.refl s) hv hon]

/-- A refused start leaves ON as it was, so the write is refused with its code (18 R823, R895). -/
theorem writeOnWord_refused (hv : v = setBit (fbWord s n 0) 0 true) (hoff : bit (fbWord s n 0) 0 = false) (hok : fbStartOk s n = false) :
    writeOnWord s 19 n 0 (Reg.fbCtl n) fbCtlRow v = (fbRefuse s n 2 0, .range) := by
  have hcode : ctlCode s n v true = 2 := by
    rw [ctlCode, ctlActed_refused cleared_writes rfl hv hoff hok, Chip.rdF]
    simp only [fbRegs_at, rd_fbBase, fbWord_fbRefuse]
    decide
  have hstays : (ctlActed s n v true).rdBit (Reg.fbCtl n) 0 = false := by
    rw [ctlActed_refused (.refl s) rfl hv hoff hok, Chip.rdBit, rd_fbCtl, (fbRefuse_writes ..).word (by decide),
      (ctlTyped_keeps (.refl s) hv).word (by decide), hoff]
  rw [writeOnWord_fbCtl hv, hcode, hstays]
  rfl

end Act

/-- An agent's write of ON comes to the word's own check: no CS bit changes, and MODE is one that exists (R396, R423). -/
theorem onCmd_fbCtl {s : Chip} {who : Agent} {n : Fin 32} {on : Bool} {x : Chip} {r : WrRes} (hm : MayWrite s who (Reg.fbCtl n.val))
    (hmode : fbMode s n.val ≤ 2)
    (hw : writeOnWord s 19 n.val 0 (Reg.fbCtl n.val) fbCtlRow (setBit (s.rd (Reg.fbCtl n.val)) 0 on) = (x, r)) (hr : r = .done ∨ r = .range) :
    onCmd s who (Reg.fbCtl n.val) on = x := by
  have hcs : ((setBit (s.rd (Reg.fbCtl n.val)) 0 on ^^^ s.rd (Reg.fbCtl n.val)) &&& wn fbCtlRow.cs) = 0 := setBit_changed _ on (by decide)
  have hrange : rangeCode s 19 n.val 0 (Reg.fbCtl n.val) (setBit (s.rd (Reg.fbCtl n.val)) 0 on) = 0 := by
    have hfield : fld (setBit (s.rd (Reg.fbCtl n.val)) 0 on) 3 1 ≤ 2 := by
      rw [fld_setBit _ _ (by decide) (.inr (by decide))]
      exact hmode
    simp [rangeCode, fieldRangeOk, hfield]
  rw [onCmd, regCmd_row (placeOf_fbCtl n) (by decide) hm, writeRow]
  simp only [hcs, bne_self_eq_false, Bool.and_false, Bool.false_eq_true, if_false, hrange, ne_eq, not_true_eq_false]
  show answerWrite _ _ _ (writeOnWord s 19 n.val 0 (Reg.fbCtl n.val) fbCtlRow _) = x
  rw [hw]
  rcases hr with rfl | rfl <;> rfl

theorem exec_fbOnWrite (who : Agent) (n : Fin 32) (on : Bool) (st : State) :
    exec (.fbOnWrite who n on) st = finish st (fun s => onCmd s who (Reg.fbCtl n.val) on) := rfl

/-! ### The commands -/

section Commands
variable {s : State} {n : Fin 32}

/-- A sample due in mode 0 or 1 (R400, R401, R411). -/
theorem completes_fbSample (hrun : fbRuns s.chip n.val = true) (hmode : fbMode s.chip n.val ≠ 2) (hdue : (fbSt s.chip n.val).due = true) :
    Completes (.fbSample n) s (fun x =>
      fbSt x n.val = { fbSt s.chip n.val with
        due := false
        err := false
        spdSat := (fbSt x n.val).spdSat } ∧
      s32 (fbWord x n.val 0x30) = (edgeSpeed s.chip n.val).1 ∧
      x.store.entries = (fbWrite s.chip n.val (s32 (fbWord s.chip n.val 0x24)) (edgeSpeed s.chip n.val).1 (fbSt x n.val).spdSat
        (fbSt s.chip n.val).err).store.entries) := by
  refine ⟨_, by rw [exec_fbSample, finish_eq], ?_⟩
  rw [fbSample_due hrun hmode hdue]
  simp only [fbSt_fbWrite, fbSt_sampled, fbWord_fbWrite, fbWord_sampled, s32_w32_edgeSpeed, true_and]
  exact (sampled_writes s.chip n.val).entries _ _ _ _ (by decide) (by decide)

section On
variable {who : Agent} (hm : MayWrite s.chip who (Reg.fbCtl n.val)) (hmode : fbMode s.chip n.val ≤ 2)
include hm hmode

/-- ON written to a stopped channel that may start (R399). -/
theorem completes_fbOnWrite_start (hoff : s.chip.rdBit (Reg.fbCtl n.val) 0 = false) (hok : fbStartOk s.chip n.val = true) :
    Completes (.fbOnWrite who n true) s (fun x => x.rdBit (Reg.fbCtl n.val) 0 = true ∧ fbRuns x n.val = true ∧ fbWord x n.val 0x20 = 0 ∧
      (fbSt x n.val).hist = [] ∧ (fbSt x n.val).firstWord = true ∧ (fbSt x n.val).a = (fbSt s.chip n.val).a ∧
      (fbSt x n.val).b = (fbSt s.chip n.val).b) := by
  refine ⟨_, by rw [exec_fbOnWrite, finish_eq, onCmd_fbCtl hm hmode (writeOnWord_start rfl hoff hok) (.inl rfl)], ?_⟩
  refine ⟨?_, fbStart_runs .., fbWord_fbStart .., fbSt_fbStart ..⟩
  rw [Chip.rdBit, rd_fbCtl, (fbStart_writes ..).word (by decide)]
  exact Chip.rdBit_wrBit_self _ _ true (by decide)

/-- ON written to one that may not start (R407). -/
theorem completes_fbOnWrite_refused (hoff : s.chip.rdBit (Reg.fbCtl n.val) 0 = false) (hok : fbStartOk s.chip n.val = false) :
    Completes (.fbOnWrite who n true) s (fun x => x.rdBit (Reg.fbCtl n.val) 0 = false ∧ x.fb = s.chip.fb ∧
      fbWord x n.val 0x3C = wn (2 * 2 ^ 28)) := by
  refine ⟨_, by rw [exec_fbOnWrite, finish_eq, onCmd_fbCtl hm hmode (writeOnWord_refused rfl hoff hok) (.inr rfl)], ?_⟩
  refine ⟨?_, fbRefuse_fb .., fbWord_fbRefuse ..⟩
  rw [Chip.rdBit, rd_fbCtl, (fbRefuse_writes ..).word (by decide)]
  exact hoff

/-- ON of a running channel written to 0 (R420). -/
theorem completes_fbOnWrite_stop (hon : s.chip.rdBit (Reg.fbCtl n.val) 0 = true) :
    Completes (.fbOnWrite who n false) s (fun x => x.rdBit (Reg.fbCtl n.val) 0 = false ∧ fbRuns x n.val = false ∧
      (∀ u, u < 4 → bit (fbWord x n.val (0x100 + 32 * u)) 0 = false) ∧ x.pins.cmp = s.chip.pins.cmp.filter (fun p => p.pin != n.val)) := by
  refine ⟨_, by rw [exec_fbOnWrite, finish_eq, onCmd_fbCtl hm hmode (writeOnWord_stop rfl hon) (.inl rfl)], ?_⟩
  refine ⟨?_, fbStop_stops .., fun u hu => fbStop_disarms _ _ hu, fbStop_pulses ..⟩
  rw [Chip.rdBit, rd_fbCtl, (fbStop_writes ..).word (by decide)]
  exact Chip.rdBit_wrBit_self _ _ false (by decide)

end On
end Commands

/-- Settles O31: a due sample, a word in error, a good word and each act of ON end in what their lemmas say (`completes_fbSample`,
`badWord_taken`, `goodWord_taken`, `completes_fbOnWrite_start` and its fellows); a sample's entries depend on nothing that its step has written
before (`FbWrites.entries`). -/
theorem feedbackSamplesAndWords : Obligations.FeedbackSamplesAndWords := by
  intro s n
  refine ⟨fun hrun hmode hdue => ?_, fun hs hidle => ?_, fun word t hs hw ht => ?_, fun word t hrun hmode hw ht => ?_, fun who hm hmode =>
    ⟨fun hoff hok => ?_, fun hoff hok => ?_, fun hon => ?_⟩⟩
  · obtain ⟨x, hexec, hst, hspd, hentries⟩ := completes_fbSample hrun hmode hdue
    refine ⟨x, hexec, ?_⟩
    simp only [fbRegs_at, rd_fbBase, hspd]
    exact ⟨hst, edgeSpeed_noEdge, fun _ _ _ _ h1 h0 hd => edgeSpeed_moved h1 h0 hd, hentries⟩
  · rw [exec_fbSample, finish_eq, fbSample_idle hidle, settle_still hs]
  · rw [exec_serialWordDecode, finish_eq, serialWord_waits hw ht, settle_still hs]
  · intro ser w err raw pos
    have htaken : serialWord s.chip n.val word.toNat =
        if ((fbSt s.chip n.val).noIdle || err.1 || err.2) = true then badWord (wordTaken s.chip n.val t w) n.val err.1 err.2
        else goodWord (wordTaken s.chip n.val t w) n.val pos := serialWord_taken hw hrun hmode ht
    by_cases hbad : ((fbSt s.chip n.val).noIdle || err.1 || err.2) = true
    · obtain ⟨hword, herr, hraw, hcnt, hcount, hentries⟩ := badWord_taken s.chip n.val t w err.1 err.2
      refine ⟨_, by rw [exec_serialWordDecode, finish_eq, htaken, if_pos hbad], hword, herr, ?_⟩
      simp only [fbRegs_at, rd_fbBase]
      refine ⟨hraw, fun _ => ⟨hcnt, hcount, hentries⟩, fun hidle hnone => ?_⟩
      rw [hidle, hnone] at hbad
      cases hbad
    · obtain ⟨hword, herr, hraw, hcount, hcnt, hentries⟩ := goodWord_taken s.chip n.val t w pos
      refine ⟨_, by rw [exec_serialWordDecode, finish_eq, htaken, if_neg hbad], hword, herr, ?_⟩
      simp only [fbRegs_at, rd_fbBase]
      refine ⟨hraw, fun herror => absurd ?_ hbad, fun _ _ => ⟨hcount, hcnt, hentries⟩⟩
      simpa [or_assoc] using herror
  · simp only [fbRegs_at, rd_fbBase]
    exact completes_fbOnWrite_start hm hmode hoff hok
  · simp only [fbRegs_at, rd_fbBase]
    exact completes_fbOnWrite_refused hm hmode hoff hok
  · simp only [fbRegs_at, rd_fbBase, Chip.rdBit]
    exact completes_fbOnWrite_stop hm hmode hon

end Sys2Proof.Machine
end

section
/-!
PROOFS of the converters (10). A converter's sequencer: what its shared operations leave of the registers, and where it stands when it reaches
an entry, starts a pass and ends one.
-/

namespace Sys2Proof.Machine

/-! ### Registers left alone -/

section Regs
variable {l : List Nat} {s x : Chip} {k : Nat}

/-- A sequencer replaced writes ADCk_STAT alone (R461). -/
theorem KeepsRegsBut.setAdc {c : AdcSeq} (h : KeepsRegsBut l s x) (ha : Reg.adcStat k ∈ l) : KeepsRegsBut l s (setAdc x k c) :=
  ((h.same rfl).wr ha).wr ha

theorem KeepsRegsBut.adcFlag {e : Nat} (h : KeepsRegsBut l s x) (ha : Reg.adcEvt k ∈ l) : KeepsRegsBut l s (x.adcFlag k e) := h.flag ha

theorem KeepsRegsBut.adcRefuse {code off : Nat} (h : KeepsRegsBut l s x) (hc : Reg.adcCfgerr k ∈ l) (he : Reg.adcEvt k ∈ l) :
    KeepsRegsBut l s (adcRefuse x k code off) := (h.wr hc).adcFlag he

theorem KeepsRegsBut.startEntry {e t : Nat} (h : KeepsRegsBut l s x) (ha : Reg.adcStat k ∈ l) : KeepsRegsBut l s (startEntry x k e t) :=
  (h.wr ha).setAdc ha

/-- The registers that reaching an entry may write (R446, R461, R463, R464). -/
def reachRegs (k : Nat) : List Nat := [Reg.adcStat k, Reg.adcLatecnt k, Reg.adcEvt k]

theorem adcPasscnt_not_reached (k : Nat) : Reg.adcPasscnt k ∉ reachRegs k := by
  simp [reachRegs, Reg.adcPasscnt, Reg.adcStat, Reg.adcLatecnt, Reg.adcEvt]

theorem KeepsRegsBut.reachEntry {e t : Nat} (h : KeepsRegsBut l s x) (hl : reachRegs k ⊆ l) : KeepsRegsBut l s (reachEntry x k e t) := by
  obtain ⟨hstat, hlate, hevt⟩ : Reg.adcStat k ∈ l ∧ Reg.adcLatecnt k ∈ l ∧ Reg.adcEvt k ∈ l := by simpa [reachRegs] using hl
  exact .ite (h.startEntry hstat) (.ite (((h.wr hstat).setAdc hstat |>.wr hlate).adcFlag hevt) ((h.wr hstat).setAdc hstat))

theorem KeepsRegsBut.startPass {t : Nat} (h : KeepsRegsBut l s x) (hl : reachRegs k ⊆ l) : KeepsRegsBut l s (startPass x k t) :=
  (h.setAdc (hl (List.mem_cons_self ..))).reachEntry hl

end Regs

/-! ### Where the sequencer stands -/

section Sequencer
variable (s : Chip) (k : Nat)

theorem adcSt_congr {s x : Chip} (h : x.adc = s.adc) (k : Nat) : adcSt x k = adcSt s k := by
  rw [adcSt, adcSt, h]

@[simp] theorem adcSt_setAdc (c : AdcSeq) : adcSt (setAdc s k c) k = c := Tab.get_set_self ..
@[simp] theorem adcSt_wr (a : Nat) (w : Word) : adcSt (s.wr a w) k = adcSt s k := rfl
@[simp] theorem adcSt_wrF (a hi lo v : Nat) : adcSt (s.wrF a hi lo v) k = adcSt s k := rfl
@[simp] theorem adcSt_wrBit (a b : Nat) (v : Bool) : adcSt (s.wrBit a b v) k = adcSt s k := rfl
@[simp] theorem adcSt_bump (a : Nat) : adcSt (s.bump a) k = adcSt s k := rfl
@[simp] theorem adcSt_atPhase (p : Nat) : adcSt (s.atPhase p) k = adcSt s k := rfl
@[simp] theorem adcSt_adcFlag (e : Nat) : adcSt (s.adcFlag k e) k = adcSt s k := adcSt_congr (by simp [Chip.adcFlag]) k

/-- RUN and WAIT follow the sequencer (R461). -/
theorem setAdc_run_wait (c : AdcSeq) : (setAdc s k c).rdBit (Reg.adcStat k) 0 = (c.running.isSome || c.waiting.isSome) ∧
    (setAdc s k c).rdBit (Reg.adcStat k) 1 = c.waiting.isSome := by
  refine ⟨?_, Chip.rdBit_wrBit_self _ _ _ (by decide)⟩
  rw [setAdc, Chip.rdBit_wrBit_bit _ _ _ (by decide) (by decide), Chip.rdBit_wrBit_self _ _ _ (by decide)]

theorem adcEntry_congr {s x : Chip} {k : Nat} (h : x.rd (Reg.adcStat k) = s.rd (Reg.adcStat k)) : adcEntry x k = adcEntry s k := by
  rw [adcEntry, adcEntry, Chip.rdF, Chip.rdF, h]

@[simp] theorem adcEntry_setAdc (c : AdcSeq) : adcEntry (setAdc s k c) k = adcEntry s k := by
  simp only [adcEntry, setAdc, Chip.rdF, Chip.wrBit, Chip.rd_wr_self]
  rw [fld_setBit _ _ (by decide) (.inr (by decide)), fld_setBit _ _ (by decide) (.inr (by decide))]
  rfl

@[simp] theorem adcEntry_wrF (e : Nat) : adcEntry (s.wrF (Reg.adcStat k) 13 8 e) k = e % 64 := s.rdF_wrF_self _ e (by decide) (by decide)

@[simp] theorem adcEntry_late (e : Nat) : adcEntry ((s.bump (Reg.adcLatecnt k)).adcFlag k e) k = adcEntry s k :=
  adcEntry_congr ((((KeepsRegsBut.refl [Reg.adcLatecnt k, Reg.adcEvt k] s).wr (List.mem_cons_self ..)).adcFlag (by simp)) _
    (by simp [Reg.adcStat, Reg.adcLatecnt, Reg.adcEvt]))

/-- A word of the table stands where the sequencer alone has written (R441). -/
theorem adcWord_congr {x : Chip} {l : List Nat} (h : KeepsRegsBut l s x) (hl : ∀ a ∈ l, a < 0x11400400 + 0x20000 * k) (e hi : Nat) :
    adcWord x k e hi = adcWord s k e hi :=
  h _ fun ha => absurd (hl _ ha) (by omega)

/-! ### An entry reached -/

variable (e t : Nat)

/-- A SYNC entry reached elsewhere than at phase 0 waits for the next one; any other starts (R446). -/
theorem adcSt_reachEntry : adcSt (reachEntry s k e t) k = if entrySync s k e = true ∧ t ≠ s.tb.base then
    { adcSt s k with
      running := none
      waiting := some t }
    else { adcSt s k with
      running := some t
      waiting := none
      refSeen := s.rdBit (Reg.adcStat k) 2 } := by
  have hcond : (!entrySync s k e ∨ t = s.tb.base) ↔ ¬ (entrySync s k e = true ∧ t ≠ s.tb.base) := by
    simp [Bool.not_eq_true, imp_iff_not_or]
  unfold reachEntry
  by_cases hwait : entrySync s k e = true ∧ t ≠ s.tb.base
  · rw [if_neg (hcond.not.2 (not_not.2 hwait)), if_pos hwait]
    dsimp only
    split <;> simp
  · rw [if_pos (hcond.2 hwait), if_neg hwait]
    simp [startEntry]

theorem adcEntry_reachEntry : adcEntry (reachEntry s k e t) k = e % 64 := by
  unfold reachEntry startEntry
  dsimp only
  split
  · simp
  · split <;> simp

/-! ### A pass -/

/-- A pass starts at entry 0; what has not been written yet stays to be written (R448). -/
theorem adcSt_startPass :
    (adcSt (startPass s k t) k).running = (if entrySync s k 0 = true ∧ t ≠ s.tb.base then none else some t) ∧
      (adcSt (startPass s k t) k).waiting = (if entrySync s k 0 = true ∧ t ≠ s.tb.base then some t else none) ∧
      (adcSt (startPass s k t) k).result = (adcSt s k).result := by
  have hsync : ∀ c, entrySync (setAdc s k c) k 0 = entrySync s k 0 := fun c => congrArg (bit · 9)
    (adcWord_congr s k ((KeepsRegsBut.refl _ s).setAdc (List.mem_singleton_self _)) (by simp [Reg.adcStat]) 0 1)
  have hbase : ∀ c, (setAdc s k c).tb.base = s.tb.base := fun _ => rfl
  rw [startPass, adcSt_reachEntry, hsync, hbase, adcSt_setAdc]
  split <;> exact ⟨rfl, rfl, rfl⟩

theorem adcEntry_startPass : adcEntry (startPass s k t) k = 0 := adcEntry_reachEntry ..

/-- A pass that ends leaves its last result to be written (R445). -/
theorem passEnd_result : (adcSt (passEnd s k t) k).result = (adcSt s k).result := by
  unfold passEnd
  dsimp only
  split
  · obtain ⟨-, -, h⟩ := adcSt_startPass ((s.bump (Reg.adcPasscnt k)).adcFlag k 0) k t
    simpa using h
  · simp

/-- It is counted (R463). -/
theorem passEnd_passcnt : (passEnd s k t).rd (Reg.adcPasscnt k) = s.rd (Reg.adcPasscnt k) + 1 := by
  have hcount : KeepsRegsBut (reachRegs k) (s.bump (Reg.adcPasscnt k)) ((s.bump (Reg.adcPasscnt k)).adcFlag k 0) :=
    (KeepsRegsBut.refl _ _).adcFlag (by simp [reachRegs])
  have hend : KeepsRegsBut (reachRegs k) (s.bump (Reg.adcPasscnt k)) (passEnd s k t) :=
    .ite (hcount.startPass (List.Subset.refl _)) (hcount.setAdc (List.mem_cons_self ..))
  rw [hend _ (adcPasscnt_not_reached k), Chip.rd_bump]

end Sequencer

end Sys2Proof.Machine
end

section
/-!
PROOFS of the converters (10). The entries of a pass: one that waited starts, one ends, its result is written; and the reference.
-/

namespace Sys2Proof.Machine

/-! ### Entries -/

section Entries
variable {s : Chip} {k : Nat}

/-- What the sequencer has written alone does not keep a command from being still. -/
theorem Still.wrAdcStat (h : Still s) (b : Nat) (v : Bool) : Still (s.wrBit (Reg.adcStat k) b v) :=
  h.congr rfl rfl rfl rfl rfl rfl fun a ha => Chip.rd_wr_ne _ _ <| by
    have hlow : a < 0x11400000 := (by decide : ∀ b ∈ headRegs, b < 0x11400000) a ha
    unfold Reg.adcStat
    omega

/-- An entry that has waited since an earlier tick starts at phase 0 (R446). -/
theorem syncStart_waited {t : Nat} (hw : (adcSt s k).waiting = some t) (ht : t < s.tb.base) :
    syncStart s k = startEntry s k (adcEntry s k) s.tb.base := by
  simp only [syncStart, hw, if_neg (Nat.not_le.2 ht)]

theorem syncStart_idle (h : (adcSt s k).waiting = none ∨ ∃ t, (adcSt s k).waiting = some t ∧ s.tb.base ≤ t) : syncStart s k = s := by
  rcases h with hw | ⟨t, hw, ht⟩
  · simp only [syncStart, hw]
  · simp only [syncStart, hw, if_pos ht]

variable (s k)

/-- The result of the entry in progress where it ends at `stop` (R443, R444). -/
def entryOutcome (codes : List AdcSample) (stop : Nat) : AdcResult :=
  let w := adcWord s k (adcEntry s k) 1
  let v := entryResult ((codes.take (fld w 7 4 + 1)).map (fun p => p.code.toInt)) (bit w 8)
    (s32 (s.rd (Reg.adcOfs k (fld w 3 0)))) (s32 (s.rd (Reg.adcGain k (fld w 3 0))))
  ⟨adcEntry s k, sat32 v, sat32 v != v, (codes.take (fld w 7 4 + 1)).any adcOutside, (adcSt s k).refSeen || s.rdBit (Reg.adcStat k) 2, stop + 20⟩

/-- The converter at `stop`, with that result held to be written (R442). -/
def entryHeld (codes : List AdcSample) (stop : Nat) : Chip :=
  setAdc (s.atPhase (stop - s.tb.base)) k { adcSt s k with
    running := none
    result := some (entryOutcome s k codes stop) }

variable {s k} (codes : List AdcSample) {t0 : Nat}

theorem entryEnd_later (hr : (adcSt s k).running = some t0) (hout : s.tb.base + s.tb.tickLen ≤ t0 + entryTime s k (adcEntry s k)) :
    entryEnd s k codes = s := by
  have hnow : (!s.inTick (t0 + entryTime s k (adcEntry s k))) = true := by simpa [Chip.inTick] using hout
  simp only [entryEnd, hr, hnow, if_true]

section Ends
variable (hr : (adcSt s k).running = some t0) (hin : t0 + entryTime s k (adcEntry s k) < s.tb.base + s.tb.tickLen)
include hr hin

/-- An entry that ends in this tick leaves its result, then the pass ends or the sequencer reaches the next entry (R442, R445). -/
theorem entryEnd_ends :
    entryEnd s k codes =
      let stop := t0 + entryTime s k (adcEntry s k)
      if adcEntry s k + 1 ≥ adcNent s k then passEnd (entryHeld s k codes stop) k stop
      else reachEntry (entryHeld s k codes stop) k (adcEntry s k + 1) stop := by
  have hnow : (!s.inTick (t0 + entryTime s k (adcEntry s k))) = false := by simpa [Chip.inTick] using hin
  simp only [entryEnd, hr, hnow, Bool.false_eq_true, if_false]
  rfl

/-- The result is held whether the pass ends or goes on. -/
theorem entryEnd_result :
    (adcSt (entryEnd s k codes) k).result = some (entryOutcome s k codes (t0 + entryTime s k (adcEntry s k))) := by
  rw [entryEnd_ends codes hr hin]
  dsimp only
  split
  · rw [passEnd_result, entryHeld, adcSt_setAdc]
  · rw [adcSt_reachEntry, entryHeld, adcSt_setAdc]
    split <;> rfl

/-- ADCk_PASSCNT counts the ends of passes (R445, R463). -/
theorem entryEnd_passcnt :
    (entryEnd s k codes).rd (Reg.adcPasscnt k) = s.rd (Reg.adcPasscnt k) + (if adcEntry s k + 1 ≥ adcNent s k then 1 else 0) := by
  have hheld : ∀ stop, KeepsRegsBut (reachRegs k) s (entryHeld s k codes stop) := fun stop =>
    ((KeepsRegsBut.refl _ s).same rfl).setAdc (List.mem_cons_self ..)
  rw [entryEnd_ends codes hr hin]
  dsimp only
  split
  · rw [passEnd_passcnt, hheld _ _ (adcPasscnt_not_reached k)]
  · rw [(hheld _).reachEntry (List.Subset.refl _) _ (adcPasscnt_not_reached k)]
    exact (BitVec.add_zero _).symm

theorem entryEnd_next (hmore : adcEntry s k + 1 < adcNent s k) (he : adcEntry s k < 63) : adcEntry (entryEnd s k codes) k = adcEntry s k + 1 := by
  rw [entryEnd_ends codes hr hin]
  dsimp only
  rw [if_neg (Nat.not_le.2 hmore), adcEntry_reachEntry]
  omega

end Ends

end Entries

/-! ### Results -/

/-- A store write leaves the converters alone. -/
theorem storeWrite_adc (s : Chip) (sid : Nat) (r : WriteReq) (w : Writer) : (storeWrite s sid r w).1.adc = s.adc :=
  storeWrite_keeps Chip.adc (by simp [countProd, Chip.sigFlag]) (by simp [countGate, Chip.sigFlag]) (by simp [countForce, Chip.sigFlag])
    (by simp [countClamp, Chip.sigFlag]) (by simp) (by simp) ..

theorem transaction_adc (s : Chip) (port : Nat) (w : Writer) (tag : Nat) (ws : List (Nat × WriteReq)) (body : List Byte) :
    (transaction s port w tag ws body).adc = s.adc := by
  refine transaction_keeps Chip.adc storeWrite_adc (fun _ _ _ _ => rfl) (fun x => ?_) (fun _ _ => rfl) ..
  obtain ⟨regs, n, h⟩ := countPort_eq x port
  rw [h]

section Results
variable (s : Chip) (k : Nat) (r : AdcResult)

/-- The converter as a result leaves it to be written (R442). -/
def resultTaken : Chip := setAdc (s.atPhase (r.due - s.tb.base)) k { adcSt s k with result := none }

/-- The write that a result makes (R444). -/
def resultReq : WriteReq := ⟨some r.value, ⟨true, r.ovr, r.sat, r.fault⟩⟩

/-- The result written through P2 and counted (R444, R463). -/
def resultWritten : Chip :=
  (transaction (resultTaken s k r) 2 ⟨15, .chan 2 k, none⟩ (64 * k + r.entry) [(fld (adcWord s k r.entry 0) 17 0, resultReq r)] []).bump
    (Reg.adcEntcnt k)

variable {s k r}

/-- A due result of an entry that names a SID is written; one that carries OVR is counted as such too (R442, R444). -/
theorem entryWrite_writes (hr : (adcSt s k).result = some r) (hin : r.due < s.tb.base + s.tb.tickLen)
    (huse : bit (adcWord s k r.entry 0) 31 = true) :
    entryWrite s k = if r.ovr then ((resultWritten s k r).bump (Reg.adcOvrcnt k)).adcFlag k 1 else resultWritten s k r := by
  have hnow : (!s.inTick r.due) = false := by simpa [Chip.inTick] using hin
  simp only [entryWrite, hr, hnow, huse, Bool.false_eq_true, if_false, if_true]
  rfl

theorem entryWrite_none (h : (adcSt s k).result = none) : entryWrite s k = s := by
  simp only [entryWrite, h]

/-- No result is held afterwards. (The lemmas below rewrite by name: where `simp` leaves a step to the kernel, it unfolds the transaction.) -/
theorem adcSt_resultWritten : adcSt (resultWritten s k r) k = { adcSt s k with result := none } := by
  rw [resultWritten, adcSt_bump, adcSt_congr (transaction_adc ..), resultTaken, adcSt_setAdc]

/-- ADCk_ENTCNT counts it; the transaction writes no register of the converters (R463). -/
theorem resultWritten_entcnt : (resultWritten s k r).rd (Reg.adcEntcnt k) = s.rd (Reg.adcEntcnt k) + 1 := by
  have htaken : KeepsRegsBut [Reg.adcStat k] s (resultTaken s k r) :=
    ((KeepsRegsBut.refl _ s).same rfl).setAdc (List.mem_singleton_self _)
  rw [resultWritten, Chip.rd_bump, transaction_rd (by unfold Reg.adcEntcnt; omega) _ (by decide),
    htaken _ (by simp [Reg.adcEntcnt, Reg.adcStat])]

/-- The entries are those that R95 leaves of that write (R444). -/
theorem resultWritten_entries : (resultWritten s k r).store.entries =
    (storeWrite s (fld (adcWord s k r.entry 0) 17 0) (resultReq r) ⟨15, .chan 2 k, none⟩).1.store.entries := by
  have hforce : (resultTaken s k r).rd Reg.sigForcestat = s.rd Reg.sigForcestat :=
    ((KeepsRegsBut.refl [Reg.adcStat k] s).same rfl).setAdc (List.mem_singleton_self _) _ (by
      simp only [List.mem_singleton, Reg.sigForcestat, Reg.adcStat]
      omega)
  have htaken : StoreAlike s (resultTaken s k r) := ⟨rfl, rfl, rfl, rfl, hforce⟩
  obtain ⟨f, b, c, hviews⟩ := keepViews_eq s
  rw [resultWritten, Chip.bump_store, htaken.transaction_entries 2 _ _ 0 _ _ [], transaction_entries, hviews, storeWrites, List.foldl_cons,
    List.foldl_nil, storeWrite_withViews]
  rfl

section Due
variable (hr : (adcSt s k).result = some r) (hin : r.due < s.tb.base + s.tb.tickLen) (huse : bit (adcWord s k r.entry 0) 31 = true)
include hr hin huse

theorem entryWrite_result : (adcSt (entryWrite s k) k).result = none := by
  rw [entryWrite_writes hr hin huse]
  split
  · rw [adcSt_adcFlag, adcSt_bump, adcSt_resultWritten]
  · rw [adcSt_resultWritten]

theorem entryWrite_entcnt : (entryWrite s k).rd (Reg.adcEntcnt k) = s.rd (Reg.adcEntcnt k) + 1 := by
  have hout : Reg.adcEntcnt k ∉ [Reg.adcOvrcnt k, Reg.adcEvt k] := by simp [Reg.adcEntcnt, Reg.adcOvrcnt, Reg.adcEvt]
  have hkeeps : KeepsRegsBut [Reg.adcOvrcnt k, Reg.adcEvt k] (resultWritten s k r) (entryWrite s k) := by
    rw [entryWrite_writes hr hin huse]
    exact .ite (((KeepsRegsBut.refl _ _).wr (List.mem_cons_self ..)).adcFlag (by simp)) (.refl _ _)
  rw [hkeeps _ hout, resultWritten_entcnt]

theorem entryWrite_entries : (entryWrite s k).store.entries =
    (storeWrite s (fld (adcWord s k r.entry 0) 17 0) (resultReq r) ⟨15, .chan 2 k, none⟩).1.store.entries := by
  rw [entryWrite_writes hr hin huse, ← resultWritten_entries]
  split
  · rw [Chip.adcFlag, Chip.flag_store, Chip.bump_store]
  · rfl

end Due

end Results

/-! ### The commands -/

section Commands
variable (k : Fin 8) (st : State)

theorem exec_syncEntryStart : exec (.syncEntryStart k) st = finish st (fun s => syncStart s k.val) := rfl
theorem exec_adcEntryEnd (codes : List AdcSample) : exec (.adcEntryEnd k codes) st = finish st (fun s => entryEnd s k.val codes) := rfl
theorem exec_adcEntryResult : exec (.adcEntryResult k) st = finish st (fun s => entryWrite s k.val) := rfl
theorem exec_refbad : exec (.refbad k) st = finish st (fun s => refBad s k.val) := rfl
theorem exec_refbadClear : exec (.refbadClear k) st = finish st (fun s => refClear s k.val) := rfl

end Commands

section Completes
variable {s : State} {k : Fin 8}

/-- An entry that has waited since an earlier tick (R446). -/
theorem completes_syncEntryStart {t : Nat} (hw : (adcSt s.chip k.val).waiting = some t) (ht : t < s.chip.tb.base) :
    Completes (.syncEntryStart k) s (fun x => (adcSt x k.val).running = some s.chip.tb.base ∧ (adcSt x k.val).waiting = none ∧
      adcEntry x k.val = adcEntry s.chip k.val ∧ x.rdBit (Reg.adcStat k.val) 0 = true ∧ x.rdBit (Reg.adcStat k.val) 1 = false) := by
  refine ⟨_, by rw [exec_syncEntryStart, finish_eq, syncStart_waited hw ht], ?_⟩
  simp only [startEntry, adcSt_setAdc, adcEntry_setAdc, adcEntry_wrF, setAdc_run_wait, true_and]
  exact ⟨Nat.mod_eq_of_lt (fld_lt ..), rfl, rfl⟩

/-- The reference leaves its tolerance (R440, R444). -/
theorem completes_refbad (h : s.chip.rdBit (Reg.adcStat k.val) 2 = false) :
    Completes (.refbad k) s (fun x => x.rdBit (Reg.adcStat k.val) 2 = true ∧ x.rdBit (Reg.adcEvt k.val) 3 = true ∧
      (adcSt x k.val).refSeen = (adcSt s.chip k.val).running.isSome) := by
  refine ⟨_, by rw [exec_refbad, finish_eq, refBad, if_neg (by simp [h])], ?_, ?_, ?_⟩
  · exact (congrArg (bit · 2) ((KeepsRegsBut.refl _ _).adcFlag (List.mem_singleton_self _) _ (by simp [Reg.adcStat, Reg.adcEvt]))).trans
      (Chip.rdBit_wrBit_self _ _ true (by decide))
  · exact Chip.rdBit_flag_self _ _ (by decide)
  · refine (congrArg AdcSeq.refSeen (Tab.get_set_self ..)).trans ?_
    rw [adcSt_adcFlag, adcSt_wrBit]

end Completes

/-- Settles O32: each command ends in what its lemma says of the sequencer (`completes_syncEntryStart`, `entryEnd_result`,
`entryWrite_entcnt`, `completes_refbad`); a result is held from the entry's end on whichever way the pass goes, and its entries do not
depend on what the sequencer has written (`resultWritten_entries`). -/
theorem converterEntries : Obligations.ConverterEntries := by
  intro s k hs c e
  refine ⟨fun t hw ht => completes_syncEntryStart hw ht, fun hidle => ?_, fun codes t0 hr => ⟨fun hin => ?_, fun hout => ?_⟩,
    fun r hr hin huse => ⟨_, by rw [exec_adcEntryResult, finish_eq], entryWrite_result hr hin huse, entryWrite_entcnt hr hin huse,
      entryWrite_entries hr hin huse⟩, fun hnone => ?_, completes_refbad, fun hbad => ?_, ?_⟩
  · rw [exec_syncEntryStart, finish_eq, syncStart_idle hidle, settle_still hs]
  · refine ⟨_, by rw [exec_adcEntryEnd, finish_eq], ⟨_, entryEnd_result codes hr hin, rfl, rfl, ?_, rfl, rfl, rfl⟩,
      entryEnd_passcnt codes hr hin, entryEnd_next codes hr hin⟩
    exact bne_iff_ne
  · rw [exec_adcEntryEnd, finish_eq, entryEnd_later codes hr hout, settle_still hs]
  · rw [exec_adcEntryResult, finish_eq, entryWrite_none hnone, settle_still hs]
  · rw [exec_refbad, finish_eq, refBad, if_pos hbad, settle_still hs]
  · rw [exec_refbadClear, finish_eq, refClear, settle_still (hs.wrAdcStat 2 false)]

end Sys2Proof.Machine
end

section
/-!
PROOFS of the converters and PWM outputs (10). ON and GO of a converter: a pass that starts, one that is refused, a converter that stops.
-/

namespace Sys2Proof.Machine

/-! ### A word with an ON bit written -/

/-- A row whose only bits beside ON are CS: a write that keeps them writes nothing but ON (R459, R466). -/
structure OnRow (r : RegRow) : Prop where
  plain : r.w1c = 0 ∧ r.w1s = 0 ∧ r.sh = 0
  cs : (wn r.cs).getLsbD 0 = false
  mask : (wn ((r.rw &&& 0xFFFFFFFE) ||| r.cs ||| r.lv)).getLsbD 0 = false

/-- Written as it stands but for ON, a word stands as it was: ON acts by itself (00 R15). -/
theorem OnRow.applyTypes_eq {r : RegRow} (h : OnRow r) {s : Chip} {a : Nat} {w : Word} (hw : s.rd a = w) (on : Bool) :
    applyTypes s a { r with rw := r.rw &&& 0xFFFFFFFE } (setBit w 0 on) = s.wr a w := by
  obtain ⟨hw1c, hw1s, hsh⟩ := h.plain
  have hzero : setBit w 0 on &&& wn 0 = 0 := BitVec.and_zero
  have hword : (merge w (setBit w 0 on) ((r.rw &&& 0xFFFFFFFE) ||| r.cs ||| r.lv) &&& ~~~ (setBit w 0 on &&& wn 0)) |||
      (setBit w 0 on &&& wn 0) = w := by
    rw [hzero, merge, setBit_and _ on h.mask, and_not_or_and]
    exact BitVec.or_zero.trans BitVec.and_allOnes
  simp only [applyTypes, hw, hw1c, hw1s, hsh, if_true]
  rw [hword]

/-- The word at `a` holds an ON bit in the window of converter k, at offset `o`, with the row `r`; `f` is what ON does, and the word as it
stands is within its range. -/
structure OnWord (s : Chip) (k o a : Nat) (r : RegRow) (on : Bool) (f : Chip → Chip) : Prop where
  place : placeOf a = some (.reg 20 k o r)
  row : OnRow r
  beside : a ≠ Reg.adcCfgerr k ∧ o ≠ 4
  isOn : isOnWord 20 o = true
  range : rangeCode s 20 k o a (setBit (s.rd a) 0 on) = 0
  act : ∀ x, onWrite x 20 k o on = f x

section OnWord
variable {s : Chip} {who : Agent} {k o a : Nat} {r : RegRow} {on : Bool} {f : Chip → Chip}

/-- The word at `a` written back as it stands. -/
def rewritten (s : Chip) (a : Nat) : Chip := s.wr a (s.rd a)

/-- The same, where CFGERR has been cleared to tell a refusal (18 R823). -/
def cfgCleared (s : Chip) (k a : Nat) : Chip := (s.wrF (Reg.adcCfgerr k) 31 28 0).wr a (s.rd a)

/-- The code that ON leaves in CFGERR: 0 when it refuses nothing (18 R823). -/
def onCode (s : Chip) (k a : Nat) (f : Chip → Chip) : Nat := (f (cfgCleared s k a)).rdF (Reg.adcCfgerr k) 31 28

theorem cfgCleared_keepsRegs (s : Chip) (k a : Nat) : KeepsRegsBut [Reg.adcCfgerr k] s (cfgCleared s k a) := fun b hb => by
  have hclear : ∀ c, c ≠ Reg.adcCfgerr k → (s.wrF (Reg.adcCfgerr k) 31 28 0).rd c = s.rd c := fun c hc => Chip.rd_wr_ne _ _ hc
  rw [cfgCleared, Chip.rd_wr, hclear b (by simpa using hb)]
  split
  · next h => rw [h]
  · rfl

theorem rd_rewritten (s : Chip) (a b : Nat) : (rewritten s a).rd b = s.rd b := by
  rw [rewritten, Chip.rd_wr]
  split
  · next h => rw [h]
  · rfl

/-- A word written back leaves every register as it stood. -/
theorem rewritten_keepsRegs (s : Chip) (k a : Nat) : KeepsRegsBut [Reg.adcCfgerr k] s (rewritten s a) := fun b _ => rd_rewritten s a b

variable (h : OnWord s k o a r on f) (hm : MayWrite s who a)
include h hm

/-- An agent's write of ON in a converter's window does what ON does, or is refused whole with the code that ON leaves (18 R823, R895). -/
theorem OnWord.onCmd_eq : onCmd s who a on =
      if onCode s k a f ≠ 0 ∧ ((f (rewritten s a)).rdBit a 0 != on) = true then
        adcRefuse s k (onCode s k a f) o
      else f (rewritten s a) := by
  obtain ⟨hp, hrow, ⟨ha, ho⟩, hon, hrange, hf⟩ := h
  have hcs : ((setBit (s.rd a) 0 on ^^^ s.rd a) &&& wn r.cs) = 0 := setBit_changed _ on hrow.cs
  have hact : actingWrite s (agentSrc who) a 20 k o (setBit (s.rd a) 0 on) false = none := if_neg ho
  have hbit : bit (setBit (s.rd a) 0 on) 0 = on := bit_setBit_self _ on (by decide)
  have hclear : (s.wrF (Reg.adcCfgerr k) 31 28 0).rd a = s.rd a := Chip.rd_wr_ne _ _ ha
  have hword : writeOnWord s 20 k o a r (setBit (s.rd a) 0 on) =
      if onCode s k a f ≠ 0 ∧ ((f (rewritten s a)).rdBit a 0 != on) = true then
        (adcRefuse s k (onCode s k a f) o, .range)
      else (f (rewritten s a), .done) := by
    simp only [writeOnWord, refusalOf, refusalReg, hbit, hf, hrow.applyTypes_eq rfl, hrow.applyTypes_eq hclear]
    rfl
  rw [onCmd, regCmd_row hp (by decide) hm, writeRow]
  simp only [hcs, bne_self_eq_false, Bool.and_false, Bool.false_eq_true, if_false, hrange, ne_eq, not_true_eq_false, hact, hon, if_true, hword]
  split <;> rfl

/-- An act that leaves CFGERR alone is done. -/
theorem OnWord.onCmd_acts {l : List Nat} (hl : Reg.adcCfgerr k ∉ l) (hkeeps : KeepsRegsBut l (cfgCleared s k a) (f (cfgCleared s k a))) :
    onCmd s who a on = f (rewritten s a) := by
  have hcode : onCode s k a f = 0 := by
    rw [onCode, Chip.rdF, hkeeps _ hl, cfgCleared, Chip.rd_wr_ne _ _ h.beside.1.symm]
    exact Chip.rdF_wrF_self s _ 0 (by decide) (by decide)
  rw [h.onCmd_eq hm, if_neg fun hrefused => hrefused.1 hcode]

/-- One that leaves a code there and ON as it was is refused with that code. -/
theorem OnWord.onCmd_refused {code : Nat} (hc : code ≠ 0) (hcode : onCode s k a f = code)
    (hstays : (f (rewritten s a)).rdBit a 0 = !on) : onCmd s who a on = adcRefuse s k code o := by
  rw [h.onCmd_eq hm, hcode, hstays, if_pos ⟨hc, by cases on <;> rfl⟩]

end OnWord

/-! ### Refusals -/

section Refusal
variable (s : Chip) (k : Nat) {code off : Nat}

theorem adcRefuse_adc : (adcRefuse s k code off).adc = s.adc := by simp [adcRefuse, Chip.adcFlag]

theorem adcRefuse_pins : (adcRefuse s k code off).pins = s.pins := by simp [adcRefuse, Chip.adcFlag]

/-- A refusal writes ADCk_CFGERR and ADCk_EVT (R449). -/
theorem adcRefuse_keepsRegs : KeepsRegsBut [Reg.adcCfgerr k, Reg.adcEvt k] s (adcRefuse s k code off) :=
  (KeepsRegsBut.refl _ s).adcRefuse (by simp) (by simp)

theorem rd_adcRefuse : (adcRefuse s k code off).rd (Reg.adcCfgerr k) = wn (code * 2 ^ 28 + off) :=
  ((KeepsRegsBut.refl [Reg.adcEvt k] _).adcFlag (List.mem_singleton_self _) _ (by simp [Reg.adcCfgerr, Reg.adcEvt])).trans
    (Chip.rd_wr_self ..)

/-- CODE of a refusal (R462). -/
theorem rdF_adcRefuse (hc : code < 16) (ho : off < 2 ^ 28) : (adcRefuse s k code off).rdF (Reg.adcCfgerr k) 31 28 = code := by
  rw [Chip.rdF, rd_adcRefuse, fld, wn, BitVec.toNat_ofNat, Nat.shiftRight_eq_div_pow]
  omega

end Refusal

/-! ### ON and GO of a converter -/

/-- The row of ADCk_CTL (R459). -/
def adcCtlRow : RegRow := ⟨0x0, 1, 4, 0x0, 0x1, 0x0, 0x0, 0x7F02, 0x0, 0x0, 0x0, 0x7F03, 0x0, 0x7F03⟩

/-- The row of ADCk_CMD (R460). -/
def adcCmdRow : RegRow := ⟨0x4, 1, 4, 0x0, 0x0, 0x0, 0x0, 0x0, 0x0, 0x0, 0x0, 0x0, 0x0, 0x0⟩

theorem placeOf_adc (k : Fin 8) : placeOf (Reg.adcCtl k.val) = some (.reg 20 k.val 0 adcCtlRow) ∧
    placeOf (Reg.adcCmd k.val) = some (.reg 20 k.val 4 adcCmdRow) := by
  revert k
  decide +kernel

theorem adcCtlRow_on : OnRow adcCtlRow := ⟨by decide, by decide, by decide⟩

section Table
variable {s x : Chip} {k : Nat}

/-- Whether a table may run follows from ADCk_CTL, its words and the slots' records, not from CFGERR (R447). -/
theorem adcTableOk_congr (h : KeepsRegsBut [Reg.adcCfgerr k] s x) (he : x.eng = s.eng) :
    adcTableOk x k = adcTableOk s k ∧ adcNent x k = adcNent s k := by
  have hctl : x.rd (Reg.adcCtl k) = s.rd (Reg.adcCtl k) := h _ (by simp [Reg.adcCtl, Reg.adcCfgerr])
  have hword : adcWord x k = adcWord s k := funext₂ (adcWord_congr s k h (by simp [Reg.adcCfgerr]))
  have hnent : adcNent x k = adcNent s k := by rw [adcNent, Chip.rdF, hctl, adcNent, Chip.rdF]
  have hsync : entrySync x k = entrySync s k := by unfold entrySync; rw [hword]
  have htime : entryTime x k = entryTime s k := by unfold entryTime; rw [hword]
  have hrun : syncRun x k = syncRun s k := funext fun fuel => by
    induction fuel with
    | zero => rfl
    | succ fuel ih =>
      funext e
      rw [syncRun, syncRun, hnent, hsync, Chip.rdBit, Chip.rdBit, hctl, ih]
  have hfeeds : feedsLocal x = feedsLocal s := by unfold feedsLocal recordLids; rw [he]
  refine ⟨?_, hnent⟩
  simp only [adcTableOk, adcRunsOk, entryTimely, syncEntries, runEnds, runFrom, hnent, hsync, htime, hword, hfeeds, hrun]

end Table

section Act
variable {s x : Chip} {k : Nat}

/-- What ON does where CFGERR alone may have changed since: a converter that may run starts a pass (R448). -/
theorem adcOnWrite_start (h : KeepsRegsBut [Reg.adcCfgerr k] s x) (he : x.eng = s.eng) (hoff : s.rdBit (Reg.adcCtl k) 0 = false)
    (hok : adcTableOk s k = true ∧ 1 ≤ adcNent s k ∧ adcNent s k ≤ 64) :
    adcOnWrite x k true = startPass (x.wrBit (Reg.adcCtl k) 0 true) k x.nowNs := by
  obtain ⟨htable, hnent⟩ := adcTableOk_congr h he
  have hoff' : x.rdBit (Reg.adcCtl k) 0 = false := (congrArg (bit · 0) (h _ (by simp [Reg.adcCtl, Reg.adcCfgerr]))).trans hoff
  simp [adcOnWrite, hoff', htable, hnent, hok]

/-- One that may not is refused (R447). -/
theorem adcOnWrite_refused (h : KeepsRegsBut [Reg.adcCfgerr k] s x) (he : x.eng = s.eng) (hoff : s.rdBit (Reg.adcCtl k) 0 = false)
    (hok : ¬ (adcTableOk s k = true ∧ 1 ≤ adcNent s k ∧ adcNent s k ≤ 64)) : adcOnWrite x k true = adcRefuse x k 2 0 := by
  obtain ⟨htable, hnent⟩ := adcTableOk_congr h he
  have hoff' : x.rdBit (Reg.adcCtl k) 0 = false := (congrArg (bit · 0) (h _ (by simp [Reg.adcCtl, Reg.adcCfgerr]))).trans hoff
  have hrefused : (adcTableOk s k && decide (1 ≤ adcNent s k) && decide (adcNent s k ≤ 64)) = false :=
    Bool.eq_false_iff.2 fun htrue => hok (by simpa [and_assoc] using htrue)
  simp only [adcOnWrite, hoff', htable, hnent, hrefused, Bool.false_beq, Bool.not_true, Bool.false_eq_true, if_false, if_true]

/-- One that is on stops (R448). -/
theorem adcOnWrite_stop (h : KeepsRegsBut [Reg.adcCfgerr k] s x) (hon : s.rdBit (Reg.adcCtl k) 0 = true) :
    adcOnWrite x k false = adcStop (x.wrBit (Reg.adcCtl k) 0 false) k := by
  have hon' : x.rdBit (Reg.adcCtl k) 0 = true := (congrArg (bit · 0) (h _ (by simp [Reg.adcCtl, Reg.adcCfgerr]))).trans hon
  simp [adcOnWrite, hon']

/-- GO while ON is 0 is refused (R448). -/
theorem adcGo_off (hoff : s.rdBit (Reg.adcCtl k) 0 = false) : adcGo s k = adcRefuse s k 6 4 := by
  simp [adcGo, hoff]

/-- GO while an entry is in progress, be it that only its result is to be written, is refused (R448, notes/assumptions/39.md). -/
theorem adcGo_busy (hon : s.rdBit (Reg.adcCtl k) 0 = true)
    (hbusy : ¬ ((adcSt s k).running = none ∧ (adcSt s k).waiting = none ∧ (adcSt s k).result = none)) : adcGo s k = adcRefuse s k 3 4 := by
  have hsome : ((adcSt s k).running.isSome || (adcSt s k).waiting.isSome || (adcSt s k).result.isSome) = true :=
    Bool.of_not_eq_false fun hnone => hbusy (by simpa [and_assoc] using hnone)
  simp only [adcGo, hon, hsome, Bool.not_true, Bool.false_eq_true, if_false, if_true]

theorem adcGo_start (hon : s.rdBit (Reg.adcCtl k) 0 = true)
    (hidle : (adcSt s k).running = none ∧ (adcSt s k).waiting = none ∧ (adcSt s k).result = none) : adcGo s k = startPass s k s.nowNs := by
  simp [adcGo, hon, hidle]

end Act

/-! ### An agent's write of ON and of GO -/

/-- A pass stands at entry 0 of a converter that is on: the entry runs from the moment of `s`, or waits for phase 0 (R446, R448). -/
def PassStarted (s : Chip) (k : Nat) (x : Chip) : Prop :=
  x.rdBit (Reg.adcCtl k) 0 = true ∧ adcEntry x k = 0 ∧
    (adcSt x k).running = (if entrySync s k 0 = true ∧ s.nowNs ≠ s.tb.base then none else some s.nowNs) ∧
    (adcSt x k).waiting = (if entrySync s k 0 = true ∧ s.nowNs ≠ s.tb.base then some s.nowNs else none)

theorem startPass_started {s x : Chip} {k : Nat} (hon : x.rdBit (Reg.adcCtl k) 0 = true) (hsync : entrySync x k 0 = entrySync s k 0)
    (hbase : x.tb = s.tb) : PassStarted s k (startPass x k s.nowNs) := by
  obtain ⟨hrun, hwait, -⟩ := adcSt_startPass x k s.nowNs
  have hctl : (startPass x k s.nowNs).rd (Reg.adcCtl k) = x.rd (Reg.adcCtl k) :=
    (KeepsRegsBut.refl (reachRegs k) x).startPass (List.Subset.refl _) _ (by simp [reachRegs, Reg.adcCtl, Reg.adcStat, Reg.adcLatecnt, Reg.adcEvt])
  rw [hsync, hbase] at hrun hwait
  exact ⟨(congrArg (bit · 0) hctl).trans hon, adcEntry_startPass .., hrun, hwait⟩

section Agent
variable {s : Chip} {who : Agent} {k : Fin 8} {on : Bool}

/-- ADCk_CTL is such a word (R459). -/
theorem adcCtl_onWord (s : Chip) (k : Fin 8) (on : Bool) :
    OnWord s k.val 0 (Reg.adcCtl k.val) adcCtlRow on (fun x => adcOnWrite x k.val on) := by
  have hkept : fld (setBit (s.rd (Reg.adcCtl k.val)) 0 on) 14 8 = s.rdF (Reg.adcCtl k.val) 14 8 :=
    fld_setBit _ _ (by decide) (.inr (by decide))
  have hrange : rangeCode s 20 k.val 0 (Reg.adcCtl k.val) (setBit (s.rd (Reg.adcCtl k.val)) 0 on) = 0 := by
    simp [rangeCode, fieldRangeOk, hkept]
  exact ⟨(placeOf_adc k).1, adcCtlRow_on, ⟨by simp [Reg.adcCtl, Reg.adcCfgerr], by decide⟩, rfl, hrange, fun _ => rfl⟩

section On
variable (hm : MayWrite s who (Reg.adcCtl k.val))
include hm

/-- ON of a converter that is off and may run (R448). -/
theorem onCmd_adcCtl_start (hoff : s.rdBit (Reg.adcCtl k.val) 0 = false)
    (hok : adcTableOk s k.val = true ∧ 1 ≤ adcNent s k.val ∧ adcNent s k.val ≤ 64) :
    onCmd s who (Reg.adcCtl k.val) true =
      startPass ((rewritten s (Reg.adcCtl k.val)).wrBit (Reg.adcCtl k.val) 0 true) k.val s.nowNs := by
  have hkeeps : KeepsRegsBut (Reg.adcCtl k.val :: reachRegs k.val) (cfgCleared s k.val (Reg.adcCtl k.val))
      (adcOnWrite (cfgCleared s k.val (Reg.adcCtl k.val)) k.val true) := by
    rw [adcOnWrite_start (cfgCleared_keepsRegs _ _ _) rfl hoff hok]
    exact ((KeepsRegsBut.refl _ _).wr (List.mem_cons_self ..)).startPass (List.subset_cons_self ..)
  rw [(adcCtl_onWord s k _).onCmd_acts hm (by simp [reachRegs, Reg.adcCtl, Reg.adcCfgerr, Reg.adcStat, Reg.adcLatecnt, Reg.adcEvt]) hkeeps,
    adcOnWrite_start (rewritten_keepsRegs _ _ _) rfl hoff hok]
  rfl

/-- ON of one that may not run (R447). -/
theorem onCmd_adcCtl_refused (hoff : s.rdBit (Reg.adcCtl k.val) 0 = false)
    (hok : ¬ (adcTableOk s k.val = true ∧ 1 ≤ adcNent s k.val ∧ adcNent s k.val ≤ 64)) :
    onCmd s who (Reg.adcCtl k.val) true = adcRefuse s k.val 2 0 := by
  have hout : Reg.adcCtl k.val ∉ [Reg.adcCfgerr k.val, Reg.adcEvt k.val] := by simp [Reg.adcCtl, Reg.adcCfgerr, Reg.adcEvt]
  refine (adcCtl_onWord s k _).onCmd_refused hm (by decide) ?_ ?_
  · rw [onCode, adcOnWrite_refused (cfgCleared_keepsRegs _ _ _) rfl hoff hok]
    exact rdF_adcRefuse _ _ (by decide) (by decide)
  · rw [adcOnWrite_refused (rewritten_keepsRegs _ _ _) rfl hoff hok, Chip.rdBit, adcRefuse_keepsRegs _ _ _ hout, rd_rewritten]
    exact hoff

/-- ON of one that is on written to 0 (R448). -/
theorem onCmd_adcCtl_stop (hon : s.rdBit (Reg.adcCtl k.val) 0 = true) :
    onCmd s who (Reg.adcCtl k.val) false =
      adcStop ((rewritten s (Reg.adcCtl k.val)).wrBit (Reg.adcCtl k.val) 0 false) k.val := by
  have hkeeps : KeepsRegsBut [Reg.adcCtl k.val, Reg.adcStat k.val] (cfgCleared s k.val (Reg.adcCtl k.val))
      (adcOnWrite (cfgCleared s k.val (Reg.adcCtl k.val)) k.val false) := by
    rw [adcOnWrite_stop (cfgCleared_keepsRegs _ _ _) hon]
    exact ((KeepsRegsBut.refl _ _).wr (List.mem_cons_self ..)).setAdc (by simp)
  rw [(adcCtl_onWord s k _).onCmd_acts hm (by simp [Reg.adcCtl, Reg.adcCfgerr, Reg.adcStat]) hkeeps, adcOnWrite_stop (rewritten_keepsRegs _ _ _) hon]

end On

/-- A write of 1 to GO is the act of GO (R448, R460). -/
theorem regCmd_adcCmd (hm : MayWrite s who (Reg.adcCmd k.val)) : regCmd s who (Reg.adcCmd k.val) 1 = adcGo s k.val :=
  regCmd_acting (placeOf_adc k).2 (by decide) hm rfl rfl rfl

end Agent

end Sys2Proof.Machine
end

section
/-!
PROOFS of the converters and PWM outputs (10). The active interval of a PWM period, and ON of an output.
-/

namespace Sys2Proof.Machine

/-! ### A period -/

/-- A rounded quotient is at most `q` when the number is below `q` times the divisor. -/
theorem divNE_le {x q : Int} {d : Nat} (hd : 0 < d) (h : x < q * d) : divNE x d ≤ q := by
  have hq : x / (d : Int) < q := Int.ediv_lt_of_lt_mul (by omega) h
  unfold divNE
  dsimp only
  (repeat' split) <;> omega

/-- The high time does not exceed the period (R455). -/
theorem pwmHigh_le {d p : Nat} (hd : d < 2 ^ 16) : pwmHigh d p ≤ p := by
  rcases Nat.eq_zero_or_pos p with rfl | hp
  · simp [pwmHigh, roundNE, divNE]
  · have hlt : (d : Int) * p < p * (2 ^ 16 : Nat) := by
      rw [mul_comm]
      exact mul_lt_mul_of_pos_left (by exact_mod_cast hd) (by exact_mod_cast hp)
    have := divNE_le (by decide) hlt
    unfold pwmHigh roundNE
    omega

theorem pwmDuty_lt (s : Chip) (n : Nat) : pwmDuty s n < 2 ^ 16 := fld_lt ..

section Interval
variable {start p h stop : Nat} (centre : Bool)

/-- The active interval ends no earlier than it begins in a period that ends no earlier than it begins (R455, R456). -/
theorem pwmInterval_le (hs : start ≤ stop) : (pwmInterval start p h stop centre).1 ≤ (pwmInterval start p h stop centre).2 := by
  unfold pwmInterval
  dsimp only
  split
  · exact hs
  · exact min_le_min_right _ (Nat.le_add_right ..)

/-- With H = P the output is active throughout (R455). -/
theorem pwmInterval_full : pwmInterval start p p stop centre = (start, stop) := if_pos rfl

theorem pwmInterval_end_le : (pwmInterval start p h stop centre).2 ≤ stop := by
  unfold pwmInterval
  dsimp only
  split
  · exact le_refl _
  · exact min_le_right ..

/-- In a period of full length the active interval lies within it and is as long as the high time (R455). -/
theorem pwmInterval_within (hh : h ≤ p) : start ≤ (pwmInterval start p h (start + p) centre).1 ∧
    (pwmInterval start p h (start + p) centre).2 = (pwmInterval start p h (start + p) centre).1 + h ∧
    (pwmInterval start p h (start + p) centre).2 ≤ start + p := by
  have hplace : start ≤ (if centre then start + (p - h) / 2 else start) ∧ (if centre then start + (p - h) / 2 else start) + h ≤ start + p := by
    cases centre <;> simp only [Bool.false_eq_true, if_true, if_false] <;> omega
  unfold pwmInterval
  dsimp only
  split
  · next heq =>
    subst heq
    exact ⟨le_refl _, rfl, le_refl _⟩
  · dsimp only
    omega

end Interval

section Period
variable {s : Chip} {n j : Nat}

/-- The end of period j: that of the tick for the last one (R456). -/
def periodStop (s : Chip) (n j : Nat) : Nat :=
  let rate := s.rdF (pwmCtl n) 22 16
  if j + 1 = rate then s.tb.tickLen else j * (10000 / rate) + 10000 / rate

/-- The output with period j begun: PWM_HIGH and the pin's interval (R455, R456, R468). -/
def periodBegun (s : Chip) (n j : Nat) : Chip :=
  let p := 10000 / s.rdF (pwmCtl n) 22 16
  let h := pwmHigh (pwmDuty s n) p
  let iv := pwmInterval (j * p) p h (periodStop s n j) (bit (s.rd (pwmCtl n)) 2)
  let s1 := (s.atPhase (j * p)).wr (Reg.adcPwmhigh (n / 4) (n % 4)) (wn h)
  { s1 with pins := { s1.pins with pwm := Tab.set none s1.pins.pwm n (some ⟨j * p, iv.1, iv.2⟩) } }

theorem pwmPeriod_on (hon : s.rdBit (pwmCtl n) 0 = true) (hrate : s.rdF (pwmCtl n) 22 16 ∈ pwmRates) (hj : j < s.rdF (pwmCtl n) 22 16) :
    pwmPeriod s n j = periodBegun s n j := by
  unfold Chip.rdBit at hon
  unfold Chip.rdF at hrate hj
  have hruns : ¬ ((!bit (s.rd (pwmCtl n)) 0) = true ∨ (!pwmRates.contains (fld (s.rd (pwmCtl n)) 22 16)) = true ∨
      j ≥ fld (s.rd (pwmCtl n)) 22 16) := by
    simp [hon, hrate, hj]
  unfold pwmPeriod
  rw [if_neg hruns]
  rfl

theorem pwmPeriod_off (h : s.rdBit (pwmCtl n) 0 = false) : pwmPeriod s n j = s :=
  if_pos (.inl (by simpa [Chip.rdBit] using h))

/-- The periods of an allowed rate fill 10,000 ns, and none is shorter than 100 ns (R453). -/
theorem rate_mul_period : ∀ rate ∈ pwmRates, rate * (10000 / rate) = 10000 ∧ 100 ≤ 10000 / rate := by decide

/-- A period begins before its end, but for the last one of a tick that is too short (R453, R456). -/
theorem periodStop_ge (hrate : s.rdF (pwmCtl n) 22 16 ∈ pwmRates)
    (h : j + 1 < s.rdF (pwmCtl n) 22 16 ∨ 9999 ≤ s.tb.tickLen) : j * (10000 / s.rdF (pwmCtl n) 22 16) ≤ periodStop s n j := by
  unfold periodStop
  dsimp only
  obtain ⟨hfill, hlong⟩ := rate_mul_period _ hrate
  generalize s.rdF (pwmCtl n) 22 16 = rate at *
  generalize 10000 / rate = p at *
  split
  · next hlast =>
    have hsum : j * p + p = 10000 := by rw [← hfill, ← hlast, Nat.succ_mul]
    omega
  · omega

end Period

/-! ### ON of an output -/

/-- The row of PWMn_CTL (R466). -/
def pwmCtlRow : RegRow := ⟨0x1000, 4, 64, 0x0, 0x1, 0x0, 0x0, 0x7F0006, 0x0, 0x0, 0x7F0007, 0x0, 0x0, 0x7F0007⟩

theorem placeOf_pwmCtl (n : Fin 32) : placeOf (pwmCtl n.val) = some (.reg 20 (n.val / 4) (0x1000 + 0x40 * (n.val % 4)) pwmCtlRow) := by
  revert n
  decide +kernel

theorem pwmCtl_ne_cfgerr (n : Nat) : pwmCtl n ≠ Reg.adcCfgerr (n / 4) := by
  unfold pwmCtl Reg.adcPwmctl Reg.adcCfgerr
  omega

/-- A refusal leaves PWMn_CTL alone. -/
theorem pwmCtl_not_refusal (n : Nat) : pwmCtl n ∉ [Reg.adcCfgerr (n / 4), Reg.adcEvt (n / 4)] := by
  simp only [List.mem_cons, List.not_mem_nil, or_false, pwmCtl, Reg.adcPwmctl, Reg.adcCfgerr, Reg.adcEvt]
  omega

/-- PWMn_CTL is a word with an ON bit (R466). -/
theorem pwmCtl_onWord (s : Chip) (n : Fin 32) (on : Bool) :
    OnWord s (n.val / 4) (0x1000 + 0x40 * (n.val % 4)) (pwmCtl n.val) pwmCtlRow on (fun x => pwmOnWrite x n.val on) := by
  have hkept : fld (setBit (s.rd (pwmCtl n.val)) 0 on) 22 16 = s.rdF (pwmCtl n.val) 22 16 := fld_setBit _ _ (by decide) (.inr (by decide))
  obtain ⟨hfirst, hmod, hindex⟩ : 0x1000 + 0x40 * (n.val % 4) ≠ 0 ∧ (0x1000 + 0x40 * (n.val % 4)) % 64 = 0 ∧
      4 * (n.val / 4) + (0x1000 + 0x40 * (n.val % 4) - 0x1000) / 64 = n.val := by omega
  have hrange : rangeCode s 20 (n.val / 4) (0x1000 + 0x40 * (n.val % 4)) (pwmCtl n.val) (setBit (s.rd (pwmCtl n.val)) 0 on) = 0 := by
    simp [rangeCode, fieldRangeOk, hkept, hmod]
  have hact : ∀ x, onWrite x 20 (n.val / 4) (0x1000 + 0x40 * (n.val % 4)) on = pwmOnWrite x n.val on := fun x => by
    simp only [onWrite, if_neg hfirst, hindex]
  exact ⟨placeOf_pwmCtl n, ⟨by decide, by decide, by decide⟩, ⟨pwmCtl_ne_cfgerr _, by omega⟩, by simp [isOnWord, hmod], hrange, hact⟩

section On
variable {s x : Chip} {n : Nat}

/-- Whether an output may start follows from its registers and the declarations, not from CFGERR (R458). -/
theorem pwmStart_congr (h : KeepsRegsBut [Reg.adcCfgerr (n / 4)] s x) (hs : x.store = s.store) :
    x.rdF (pwmCtl n) 22 16 = s.rdF (pwmCtl n) 22 16 ∧
      pwmSidOk x (x.rdF (Reg.adcPwmsid (n / 4) (n % 4)) 17 0) = pwmSidOk s (s.rdF (Reg.adcPwmsid (n / 4) (n % 4)) 17 0) := by
  have hsid : Reg.adcPwmsid (n / 4) (n % 4) ∉ [Reg.adcCfgerr (n / 4)] := by
    simp only [List.mem_singleton, Reg.adcPwmsid, Reg.adcCfgerr]
    omega
  refine ⟨congrArg (fld · 22 16) (h _ (by simpa using pwmCtl_ne_cfgerr n)), ?_⟩
  rw [Chip.rdF, h _ hsid, pwmSidOk, hs]
  rfl

/-- An output with an allowed rate and an OUT SID starts (R458). -/
theorem pwmOnWrite_start (h : KeepsRegsBut [Reg.adcCfgerr (n / 4)] s x) (hs : x.store = s.store)
    (hok : (pwmRates.contains (s.rdF (pwmCtl n) 22 16) && pwmSidOk s (s.rdF (Reg.adcPwmsid (n / 4) (n % 4)) 17 0)) = true) :
    pwmOnWrite x n true = x.wrBit (pwmCtl n) 0 true := by
  obtain ⟨hrate, hsid⟩ := pwmStart_congr h hs
  obtain ⟨hrateOk, hsidOk⟩ := Bool.and_eq_true_iff.1 hok
  simp only [pwmOnWrite, hrate, hsid, hrateOk, hsidOk, Bool.not_true, Bool.false_eq_true, if_false]

/-- The code that refuses the start of any other: RANGE, or else CLASS (R458). -/
def pwmStartCode (s : Chip) (n : Nat) : Nat := if pwmRates.contains (s.rdF (pwmCtl n) 22 16) then 5 else 2

theorem pwmStartCode_lt (s : Chip) (n : Nat) : pwmStartCode s n < 16 := by
  unfold pwmStartCode
  split <;> decide

theorem pwmOnWrite_refused (h : KeepsRegsBut [Reg.adcCfgerr (n / 4)] s x) (hs : x.store = s.store)
    (hok : (pwmRates.contains (s.rdF (pwmCtl n) 22 16) && pwmSidOk s (s.rdF (Reg.adcPwmsid (n / 4) (n % 4)) 17 0)) = false) :
    pwmOnWrite x n true = adcRefuse x (n / 4) (pwmStartCode s n) (0x1000 + 0x40 * (n % 4)) := by
  obtain ⟨hrate, hsid⟩ := pwmStart_congr h hs
  cases hr : pwmRates.contains (s.rdF (pwmCtl n) 22 16) with
  | false => simp only [pwmOnWrite, pwmStartCode, hrate, hr, Bool.not_true, Bool.not_false, Bool.false_eq_true, if_false, if_true]
  | true =>
    rw [hr, Bool.true_and] at hok
    simp only [pwmOnWrite, pwmStartCode, hrate, hr, hsid, hok, Bool.not_true, Bool.not_false, Bool.false_eq_true, if_false, if_true]

/-- An output turned off is inactive (R458). -/
def outputOff (s : Chip) (n : Nat) : Chip :=
  { s.wrBit (pwmCtl n) 0 false with pins := { s.pins with pwm := Tab.set none s.pins.pwm n none } }

theorem pwmOnWrite_stop (s : Chip) (n : Nat) : pwmOnWrite s n false = outputOff s n := rfl

end On

section Agent
variable {s : Chip} {who : Agent} {n : Fin 32} (hm : MayWrite s who (pwmCtl n.val))
include hm

theorem onCmd_pwmCtl_start (hok : (pwmRates.contains (s.rdF (pwmCtl n.val) 22 16) &&
      pwmSidOk s (s.rdF (Reg.adcPwmsid (n.val / 4) (n.val % 4)) 17 0)) = true) :
    onCmd s who (pwmCtl n.val) true = (rewritten s (pwmCtl n.val)).wrBit (pwmCtl n.val) 0 true := by
  have hkeeps : KeepsRegsBut [pwmCtl n.val] (cfgCleared s (n.val / 4) (pwmCtl n.val))
      (pwmOnWrite (cfgCleared s (n.val / 4) (pwmCtl n.val)) n.val true) := by
    rw [pwmOnWrite_start (cfgCleared_keepsRegs _ _ _) rfl hok]
    exact (KeepsRegsBut.refl _ _).wr (List.mem_singleton_self _)
  rw [(pwmCtl_onWord s n _).onCmd_acts hm (by simpa using (pwmCtl_ne_cfgerr n.val).symm) hkeeps,
    pwmOnWrite_start (rewritten_keepsRegs _ _ _) rfl hok]

theorem onCmd_pwmCtl_refused (hoff : s.rdBit (pwmCtl n.val) 0 = false) (hok : (pwmRates.contains (s.rdF (pwmCtl n.val) 22 16) &&
      pwmSidOk s (s.rdF (Reg.adcPwmsid (n.val / 4) (n.val % 4)) 17 0)) = false) :
    onCmd s who (pwmCtl n.val) true = adcRefuse s (n.val / 4) (pwmStartCode s n.val) (0x1000 + 0x40 * (n.val % 4)) := by
  refine (pwmCtl_onWord s n _).onCmd_refused hm ?_ ?_ ?_
  · unfold pwmStartCode
    split <;> decide
  · rw [onCode, pwmOnWrite_refused (cfgCleared_keepsRegs _ _ _) rfl hok]
    exact rdF_adcRefuse _ _ (pwmStartCode_lt ..) (by omega)
  · rw [pwmOnWrite_refused (rewritten_keepsRegs _ _ _) rfl hok, Chip.rdBit, adcRefuse_keepsRegs _ _ _ (pwmCtl_not_refusal n.val), rd_rewritten]
    exact hoff

theorem onCmd_pwmCtl_stop : onCmd s who (pwmCtl n.val) false = outputOff (rewritten s (pwmCtl n.val)) n.val :=
  (pwmCtl_onWord s n _).onCmd_acts hm (l := [pwmCtl n.val]) (by simpa using (pwmCtl_ne_cfgerr n.val).symm)
    (((KeepsRegsBut.refl _ _).wr (List.mem_singleton_self _)).same rfl)

end Agent

/-! ### The commands -/

section Commands
variable (who : Agent) (st : State)

theorem exec_adcOnWrite (k : Fin 8) (on : Bool) : exec (.adcOnWrite who k on) st = finish st (fun s => onCmd s who (Reg.adcCtl k.val) on) := rfl
theorem exec_adcGo (k : Fin 8) : exec (.adcGo who k) st = finish st (fun s => regCmd s who (Reg.adcCmd k.val) 1) := rfl
theorem exec_pwmPeriodStart (n : Fin 32) (j : Nat) : exec (.pwmPeriodStart n j) st = finish st (fun s => pwmPeriod s n.val j) := rfl
theorem exec_pwmOnWrite (n : Fin 32) (on : Bool) : exec (.pwmOnWrite who n on) st = finish st (fun s => onCmd s who (pwmCtl n.val) on) := rfl

end Commands

section Converter
variable {s : State} {who : Agent} {k : Fin 8}

/-- ON written to a converter that is off and may run (R448). -/
theorem completes_adcOnWrite_start (hm : MayWrite s.chip who (Reg.adcCtl k.val)) (hoff : s.chip.rdBit (Reg.adcCtl k.val) 0 = false)
    (hok : adcTableOk s.chip k.val = true ∧ 1 ≤ adcNent s.chip k.val ∧ adcNent s.chip k.val ≤ 64) :
    Completes (.adcOnWrite who k true) s (PassStarted s.chip k.val) := by
  refine ⟨_, by rw [exec_adcOnWrite, finish_eq, onCmd_adcCtl_start hm hoff hok], ?_⟩
  refine startPass_started ?_ ?_ rfl
  · exact Chip.rdBit_wrBit_self _ _ true (by decide)
  · have hword : KeepsRegsBut [Reg.adcCtl k.val] s.chip
        ((rewritten s.chip (Reg.adcCtl k.val)).wrBit (Reg.adcCtl k.val) 0 true) :=
      ((KeepsRegsBut.refl _ _).wr (List.mem_singleton_self _)).wr (List.mem_singleton_self _)
    exact congrArg (bit · 9) (adcWord_congr _ _ hword (by simp [Reg.adcCtl]) 0 1)

/-- ON written to one that may not run (R447). -/
theorem completes_adcOnWrite_refused (hm : MayWrite s.chip who (Reg.adcCtl k.val)) (hoff : s.chip.rdBit (Reg.adcCtl k.val) 0 = false)
    (hok : ¬ (adcTableOk s.chip k.val = true ∧ 1 ≤ adcNent s.chip k.val ∧ adcNent s.chip k.val ≤ 64)) :
    Completes (.adcOnWrite who k true) s (fun x => x.rdBit (Reg.adcCtl k.val) 0 = false ∧ x.adc = s.chip.adc ∧
      x.rd (Reg.adcCfgerr k.val) = wn (2 * 2 ^ 28)) := by
  refine ⟨_, by rw [exec_adcOnWrite, finish_eq, onCmd_adcCtl_refused hm hoff hok], ?_, adcRefuse_adc .., rd_adcRefuse _ _ (code := 2) (off := 0)⟩
  exact (congrArg (bit · 0) (adcRefuse_keepsRegs _ _ _ (by simp [Reg.adcCtl, Reg.adcCfgerr, Reg.adcEvt]))).trans hoff

/-- ON of one that is on written to 0 (R448). -/
theorem completes_adcOnWrite_stop (hm : MayWrite s.chip who (Reg.adcCtl k.val)) (hon : s.chip.rdBit (Reg.adcCtl k.val) 0 = true) :
    Completes (.adcOnWrite who k false) s (fun x => x.rdBit (Reg.adcCtl k.val) 0 = false ∧ adcSt x k.val = AdcSeq.zero ∧
      x.store = s.chip.store) := by
  refine ⟨_, by rw [exec_adcOnWrite, finish_eq, onCmd_adcCtl_stop hm hon], ?_⟩
  refine ⟨?_, adcSt_setAdc .., rfl⟩
  exact (congrArg (bit · 0) ((KeepsRegsBut.refl _ _).setAdc (List.mem_singleton_self _) _ (by simp [Reg.adcCtl, Reg.adcStat]))).trans
    (Chip.rdBit_wrBit_self _ _ false (by decide))

end Converter

section Output
variable {s : State} {n : Fin 32}

/-- Period j of an output that is on with an allowed rate begins (R455, R456). -/
theorem completes_pwmPeriodStart {j : Nat} (hon : s.chip.rdBit (pwmCtl n.val) 0 = true) (hrate : s.chip.rdF (pwmCtl n.val) 22 16 ∈ pwmRates)
    (hj : j < s.chip.rdF (pwmCtl n.val) 22 16) :
    let rate := s.chip.rdF (pwmCtl n.val) 22 16
    let p := 10000 / rate
    let h := pwmHigh (pwmDuty s.chip n.val) p
    Completes (.pwmPeriodStart n j) s (fun x => x.rd (Reg.adcPwmhigh (n.val / 4) (n.val % 4)) = wn h ∧
      ∃ on off, Tab.get none x.pins.pwm n.val = some ⟨j * p, on, off⟩ ∧
        (j + 1 < rate ∨ 9999 ≤ s.chip.tb.tickLen → on ≤ off) ∧ (h = p → on = j * p) ∧
        (j + 1 < rate → j * p ≤ on ∧ off = on + h ∧ off ≤ j * p + p) ∧ (j + 1 = rate → off ≤ s.chip.tb.tickLen)) := by
  intro rate p h
  have hlen : h ≤ p := pwmHigh_le (pwmDuty_lt ..)
  refine ⟨_, by rw [exec_pwmPeriodStart, finish_eq, pwmPeriod_on hon hrate hj], ?_⟩
  refine ⟨Chip.rd_wr_self .., _, _, Tab.get_set_self .., fun hends => pwmInterval_le _ (periodStop_ge hrate hends), fun hfull => ?_,
    fun hinner => ?_, fun hlast => ?_⟩
  · show (pwmInterval (j * p) p h (periodStop s.chip n.val j) _).1 = j * p
    rw [hfull, pwmInterval_full]
  · have hstop : periodStop s.chip n.val j = j * p + p := if_neg (Nat.ne_of_lt hinner)
    rw [hstop]
    exact pwmInterval_within _ hlen
  · have hstop : periodStop s.chip n.val j = s.chip.tb.tickLen := if_pos hlast
    rw [← hstop]
    exact pwmInterval_end_le _

end Output

/-- Settles O33: an agent's write of an ON bit does what ON does or is refused whole with its code (`OnWord.onCmd_eq`), so each clause is what
ON, GO or a period's begin leaves: a pass at entry 0 (`startPass_started`), CFGERR (`rd_adcRefuse`, `rdF_adcRefuse`), or the pin's interval, whose
length is at most the period's (`pwmHigh_le`). -/
theorem convertersAndPwmStartAndStop : Obligations.ConvertersAndPwmStartAndStop := by
  intro s who
  refine ⟨fun k => ?_, fun n j => ?_⟩
  · intro started
    refine ⟨fun hm => ⟨completes_adcOnWrite_start hm, completes_adcOnWrite_refused hm, completes_adcOnWrite_stop hm⟩,
      fun hm => ⟨fun hoff => ?_, fun hon hbusy => ?_, fun hon hidle => ?_⟩⟩
    · exact ⟨_, by rw [exec_adcGo, finish_eq, regCmd_adcCmd hm, adcGo_off hoff], adcRefuse_adc .., rd_adcRefuse ..⟩
    · exact ⟨_, by rw [exec_adcGo, finish_eq, regCmd_adcCmd hm, adcGo_busy hon hbusy], adcRefuse_adc .., rd_adcRefuse ..⟩
    · exact ⟨_, by rw [exec_adcGo, finish_eq, regCmd_adcCmd hm, adcGo_start hon hidle], startPass_started hon rfl rfl⟩
  · intro rate p h
    refine ⟨completes_pwmPeriodStart, fun hs hoff => ?_, fun hm => ⟨fun hoff hok => ?_, fun hoff hok => ?_, ?_⟩⟩
    · rw [exec_pwmPeriodStart, finish_eq, pwmPeriod_off hoff, settle_still hs]
    · refine ⟨_, by rw [exec_pwmOnWrite, finish_eq, onCmd_pwmCtl_start hm hok], ?_⟩
      refine ⟨Chip.rdBit_wrBit_self _ _ true (by decide), ?_, rfl⟩
      exact ((KeepsRegsBut.refl _ _).wr (List.mem_singleton_self _)).wr (List.mem_singleton_self _)
    · refine ⟨_, by rw [exec_pwmOnWrite, finish_eq, onCmd_pwmCtl_refused hm hoff hok], ?_⟩
      refine ⟨(congrArg (bit · 0) (adcRefuse_keepsRegs _ _ _ (pwmCtl_not_refusal n.val))).trans hoff, adcRefuse_pins .., ?_⟩
      rw [rdF_adcRefuse _ _ (pwmStartCode_lt ..) (by omega), pwmStartCode]
      split
      · exact .inr rfl
      · exact .inl rfl
    · refine ⟨_, by rw [exec_pwmOnWrite, finish_eq, onCmd_pwmCtl_stop hm], ?_⟩
      exact ⟨Chip.rdBit_wrBit_self _ _ false (by decide), Tab.get_set_self .., fun m hne => Tab.get_set_ne _ _ _ _ hne⟩

end Sys2Proof.Machine
end

section
/-!
PROOFS of the recorder (11). The state of a set: its further state, the halves of its region, and the registers its records write.
-/

namespace Sys2Proof.Machine

/-! ### The further state of a set -/

section Sets
variable {s x : Chip} {i k : Nat}

theorem recSt_congr (h : x.recd.sets = s.recd.sets) (k : Nat) : recSt x k = recSt s k := by
  rw [recSt, h]
  rfl

@[simp] theorem recSt_setRec (s : Chip) (i : Nat) (r : RecSet) : recSt (setRec s i r) i = r := Tab.get_set_self ..

theorem recSt_setRec_ne (s : Chip) (r : RecSet) (h : k ≠ i) : recSt (setRec s i r) k = recSt s k := Tab.get_set_ne _ _ _ _ h

@[simp] theorem recSt_wrBit (a b : Nat) (v : Bool) : recSt (s.wrBit a b v) k = recSt s k := rfl

theorem Chip.setFlag_recd (s : Chip) (i e : Nat) : (s.setFlag i e).recd = s.recd := by
  unfold Chip.setFlag
  dsimp only
  split <;> rfl

@[simp] theorem recSt_setFlag (e : Nat) : recSt (s.setFlag i e) k = recSt s k := recSt_congr (by rw [Chip.setFlag_recd]) k

@[simp] theorem recSt_syncPos : recSt (syncPos s i) k = recSt s k := by
  unfold syncPos
  dsimp only
  split <;> rfl

end Sets

/-! ### The halves of a region (R523) -/

section Halves
variable {s x : Chip} {i h k : Nat}

/-- A field below bit 6 is read from those bits alone. -/
theorem fld_congr_low {w v : Word} (hlow : fld w 5 0 = fld v 5 0) {hi : Nat} (hhi : hi ≤ 5) (lo : Nat) : fld w hi lo = fld v hi lo := by
  refine Nat.eq_of_testBit_eq fun n => ?_
  have hbit := congrArg (Nat.testBit · (n + lo)) hlow
  simp only [testBit_fld, Nat.add_zero] at hbit
  rw [testBit_fld, testBit_fld]
  by_cases hn : n < hi + 1 - lo
  · have hlt : n + lo < 5 + 1 - 0 := by omega
    simpa [hlt, hn] using hbit
  · simp [hn]

/-- The bits of SETSTAT that hold the halves' states, CUR and the loss of a pre-trigger. -/
def halfBits (s : Chip) (i : Nat) : Nat := s.rdF (Reg.recSetstat i) 5 0

theorem halfState_congr (hb : halfBits x i = halfBits s i) (hk : k < 2) : halfState x i k = halfState s i k :=
  fld_congr_low hb (by omega) _

theorem curHalf_congr (hb : halfBits x i = halfBits s i) : curHalf x i = curHalf s i := fld_congr_low hb (by decide) _

theorem wrapBit_congr (hb : halfBits x i = halfBits s i) : x.rdBit (Reg.recSetstat i) 5 = s.rdBit (Reg.recSetstat i) 5 := by
  rw [Chip.rdBit, bit, fld_congr_low hb (Nat.le_refl 5)]
  rfl

theorem curHalf_lt (s : Chip) (i : Nat) : curHalf s i < 2 := fld_lt _ 4 4

theorem halfState_setHalf_self (s : Chip) (i : Nat) (v : Nat) (hh : h < 2) : halfState (setHalf s i h v) i h = v % 4 := by
  have hwidth : 2 * h + 1 + 1 - 2 * h = 2 := by omega
  have := s.rdF_wrF_self (Reg.recSetstat i) (hi := 2 * h + 1) (lo := 2 * h) v (by omega) (by omega)
  rwa [hwidth] at this

theorem halfState_setHalf_ne (s : Chip) (i : Nat) (v : Nat) (hh : h < 2) (hne : k ≠ h) : halfState (setHalf s i h v) i k = halfState s i k := by
  rw [halfState, setHalf, Chip.rdF, Chip.wrF, Chip.rd_wr_self, fld_setFld_disj _ _ (by omega) (by omega) (by omega)]
  rfl

/-- A field of SETSTAT that does not meet a half's state. -/
theorem rdF_setHalf (s : Chip) (i : Nat) {v hi lo : Nat} (hh : h < 2) (hd : hi < 2 * h ∨ 2 * h + 1 < lo) :
    (setHalf s i h v).rdF (Reg.recSetstat i) hi lo = s.rdF (Reg.recSetstat i) hi lo := by
  rw [setHalf, Chip.rdF, Chip.wrF, Chip.rd_wr_self, fld_setFld_disj _ _ (by omega) (by omega) hd]
  rfl

@[simp] theorem curHalf_setHalf (s : Chip) (i : Nat) {v : Nat} (hh : h < 2) : curHalf (setHalf s i h v) i = curHalf s i :=
  rdF_setHalf s i hh (.inr (by omega))

theorem curHalf_wrF (s : Chip) (i v : Nat) : curHalf (s.wrF (Reg.recSetstat i) 4 4 v) i = v % 2 :=
  s.rdF_wrF_self _ v (Nat.le_refl _) (by decide)

theorem halfState_wrF (s : Chip) (i v : Nat) (hk : k < 2) : halfState (s.wrF (Reg.recSetstat i) 4 4 v) i k = halfState s i k := by
  rw [halfState, Chip.rdF, Chip.wrF, Chip.rd_wr_self, fld_setFld_disj _ _ (by decide) (by decide) (.inl (by omega))]
  rfl

/-- The halves stand where a field of SETSTAT above them is written. -/
theorem halfBits_wrF (s : Chip) (i : Nat) {hi lo v : Nat} (h5 : 5 < lo) (hle : lo ≤ hi) (h31 : hi ≤ 31) :
    halfBits (s.wrF (Reg.recSetstat i) hi lo v) i = halfBits s i := by
  rw [halfBits, Chip.rdF, Chip.wrF, Chip.rd_wr_self, fld_setFld_disj _ _ hle h31 (.inl h5)]
  rfl

theorem halfBits_wr (s : Chip) {a : Nat} (w : Word) (ha : Reg.recSetstat i ≠ a) : halfBits (s.wr a w) i = halfBits s i := by
  rw [halfBits, Chip.rdF, Chip.rd_wr_ne _ _ ha]
  rfl

theorem rd_setFlag_ne (s : Chip) {e a : Nat} (ha : a ≠ Reg.recSetstat i) : (s.setFlag i e).rd a = s.rd a := by
  have hwr : (s.wrBit (Reg.recSetstat i) (16 + e) true).rd a = s.rd a := Chip.rd_wr_ne _ _ ha
  unfold Chip.setFlag
  dsimp only
  split <;> exact hwr

/-- A flag of a set writes the word of SETSTAT alone. -/
theorem rd_setFlag_stat (s : Chip) (i e : Nat) :
    (s.setFlag i e).rd (Reg.recSetstat i) = (s.wrBit (Reg.recSetstat i) (16 + e) true).rd (Reg.recSetstat i) := by
  unfold Chip.setFlag
  dsimp only
  split <;> rfl

theorem halfBits_setFlag (s : Chip) (i : Nat) {e : Nat} (he : e < 16) : halfBits (s.setFlag i e) i = halfBits s i := by
  rw [halfBits, Chip.rdF, rd_setFlag_stat]
  exact halfBits_wrF s i (by omega) (Nat.le_refl _) (by omega)

theorem halfBits_syncPos (s : Chip) (i : Nat) : halfBits (syncPos s i) i = halfBits s i := by
  unfold syncPos
  dsimp only
  split
  · exact (halfBits_wr _ _ (by simp [Reg.recSetstat, Reg.recSetold])).trans (halfBits_wr _ _ (by simp [Reg.recSetstat, Reg.recSetpos]))
  · rfl

end Halves

/-! ### The records of a set -/

/-- The registers that the records of a set may write beside its state: its places and counts, and those of the whole recorder. -/
def countRegs (i : Nat) : List Nat :=
  [Reg.recSetpos i, Reg.recSetold i, Reg.recSettpos i, Reg.recSetprec i, Reg.recLissued i, Reg.recLregshed i, Reg.recLstrwr i,
    Reg.recLstrshed i, Reg.recStrprod i, Reg.recStrstat i, Reg.recTickpeak, shedReg 0, shedReg 1, shedReg 2, shedReg 3, Reg.odoEvt]

/-- The registers that the records of a set may write. -/
def recordRegs (i : Nat) : List Nat := Reg.recSetstat i :: countRegs i

theorem setstat_not_count {i : Nat} (hi : i < 64) : Reg.recSetstat i ∉ countRegs i := by
  simp [countRegs, shedReg, Reg.recSetstat, Reg.recSetpos, Reg.recSetold, Reg.recSettpos, Reg.recSetprec, Reg.recLissued, Reg.recLregshed,
    Reg.recLstrwr, Reg.recLstrshed, Reg.recStrprod, Reg.recStrstat, Reg.recTickpeak, Reg.recShedfrozen, Reg.odoEvt]
  omega

/-- What no record of a set changes of its further state: POST as taken, and the reduction windows. -/
def SetStands (r r' : RecSet) : Prop := r'.goal = r.goal ∧ r'.window = r.window ∧ r'.partW = r.partW ∧ r'.out = r.out

/-- From `s` on, `x` has records of set `i` written, lost or shed; `p` says that its halves have kept their states too. -/
structure Records (p : Prop) (i : Nat) (s x : Chip) : Prop where
  isSet : i < 64
  regs : KeepsRegsBut (recordRegs i) s x
  halves : p → halfBits x i = halfBits s i
  sets : ∀ k, k ≠ i → recSt x k = recSt s k
  stands : SetStands (recSt s i) (recSt x i)
  red : x.recd.red = s.recd.red
  notes : s.notes <+: x.notes

section Records
variable {p : Prop} {s x y : Chip} {i : Nat}

theorem SetStands.refl (r : RecSet) : SetStands r r := ⟨rfl, rfl, rfl, rfl⟩

theorem SetStands.trans {r r' r'' : RecSet} (h : SetStands r r') (h' : SetStands r' r'') : SetStands r r'' := by
  obtain ⟨hg, hw, hp, ho⟩ := h
  obtain ⟨hg', hw', hp', ho'⟩ := h'
  exact ⟨hg'.trans hg, hw'.trans hw, hp'.trans hp, ho'.trans ho⟩

theorem Records.refl (p : Prop) (s : Chip) (hi : i < 64) : Records p i s s :=
  ⟨hi, .refl _ _, fun _ => rfl, fun _ _ => rfl, .refl _, rfl, List.prefix_refl _⟩

theorem Records.trans (h : Records p i s x) (h' : Records p i x y) : Records p i s y :=
  ⟨h.isSet, h.regs.trans h'.regs (List.Subset.refl _), fun hp => (h'.halves hp).trans (h.halves hp), fun k hk => (h'.sets k hk).trans (h.sets k hk),
    h.stands.trans h'.stands, h'.red.trans h.red, h.notes.trans h'.notes⟩

/-- An update that leaves alone what records may change. -/
theorem Records.same (h : Records p i s x) (hr : y.regs = x.regs) (hs : y.recd.sets = x.recd.sets) (hd : y.recd.red = x.recd.red)
    (hn : y.notes = x.notes) : Records p i s y :=
  ⟨h.isSet, h.regs.same hr, fun hp => (congrArg (fld · 5 0) (Chip.rd_congr hr _)).trans (h.halves hp),
    fun k hk => (recSt_congr hs k).trans (h.sets k hk),
    recSt_congr hs i ▸ h.stands, hd.trans h.red, hn ▸ h.notes⟩

theorem Records.ite {a b : Chip} {c : Prop} {_ : Decidable c} (ha : Records p i s a) (hb : Records p i s b) :
    Records p i s (if c then a else b) := by
  split <;> assumption

theorem Records.iteFst {α : Type} {a b : Chip × α} {c : Prop} {_ : Decidable c} (ha : Records p i s a.1) (hb : Records p i s b.1) :
    Records p i s (if c then a else b).1 := by
  split <;> assumption

theorem Records.foldl {α : Type} {f : Chip → α → Chip} {l : List α} (h : Records p i s x)
    (hf : ∀ z a, Records p i s z → Records p i s (f z a)) :
    Records p i s (l.foldl f x) :=
  List.foldlRecOn (motive := Records p i s) _ _ h fun z hz a _ => hf z a hz

/-! Registers and books -/

theorem Records.wr {a : Nat} {w : Word} (h : Records p i s x) (ha : a ∈ countRegs i) : Records p i s (x.wr a w) :=
  { h with
    regs := h.regs.wr (List.mem_cons_of_mem _ ha)
    halves := fun hs => (halfBits_wr x w (ne_of_mem_of_not_mem ha (setstat_not_count h.isSet)).symm).trans (h.halves hs) }

theorem Records.bump {a : Nat} (h : Records p i s x) (ha : a ∈ countRegs i) : Records p i s (x.bump a) := h.wr ha

theorem Records.led {l j n : Nat} (h : Records p i s x) : Records p i s (x.led l j n) := h.same rfl rfl rfl rfl

theorem Records.wrStat {hi lo v : Nat} (h : Records p i s x) (h5 : p → 5 < lo) (hle : lo ≤ hi) (h31 : hi ≤ 31) :
    Records p i s (x.wrF (Reg.recSetstat i) hi lo v) :=
  { h with
    regs := h.regs.wr (List.mem_cons_self ..)
    halves := fun hs => (halfBits_wrF x i (h5 hs) hle h31).trans (h.halves hs) }

theorem Records.raise {n : Nat} (h : Records p i s x) : Records p i s (x.raise n) :=
  { h with notes := h.notes.trans (List.prefix_append ..) }

theorem Records.setFlag {e : Nat} (h : Records p i s x) (he : e < 16) : Records p i s (x.setFlag i e) := by
  have hbit : Records p i s (x.wrBit (Reg.recSetstat i) (16 + e) true) := h.wrStat (fun _ => by omega) (Nat.le_refl _) (by omega)
  exact .ite hbit.raise hbit

/-- A flag and its event under the enable add to the notes at most. -/
theorem Chip.flag_notes_prefix (s : Chip) (evt en b n : Nat) : s.notes <+: (s.flag evt en b n).notes := by
  unfold Chip.flag
  extract_lets s1
  split
  · exact List.prefix_append ..
  · exact List.prefix_refl _

theorem Chip.odoInc_notes_prefix (s : Chip) (k n : Nat) : s.notes <+: (s.odoInc k n).notes := by
  unfold Chip.odoInc
  extract_lets old new lost odo s1 s2
  split
  · exact List.prefix_refl _
  · exact (s2.led 4 3 lost).flag_notes_prefix ..

theorem Records.odoInc {k n : Nat} (h : Records p i s x) : Records p i s (x.odoInc k n) where
  isSet := h.isSet
  regs := h.regs.odoInc (by simp [recordRegs, countRegs])
  halves hs :=
    have hne : Reg.odoEvt ≠ Reg.recSetstat i := ne_of_mem_of_not_mem (by simp [countRegs]) (setstat_not_count h.isSet)
    (congrArg (fld · 5 0) (x.odoInc_rd_ne k n hne.symm)).trans (h.halves hs)
  sets j hj := (recSt_congr (by simp) j).trans (h.sets j hj)
  stands := recSt_congr (x := x.odoInc k n) (s := x) (by simp) i ▸ h.stands
  red := by simpa using h.red
  notes := h.notes.trans (x.odoInc_notes_prefix k n)

theorem Records.setRec {r : RecSet} (h : Records p i s x) (hr : SetStands (recSt x i) r) : Records p i s (setRec x i r) :=
  { h with
    regs := h.regs.same rfl
    halves := h.halves
    sets := fun k hk => (recSt_setRec_ne x r hk).trans (h.sets k hk)
    stands := by rw [recSt_setRec]; exact h.stands.trans hr }

/-! ### What is written to the region -/

theorem Records.pushBuf {b : BufRec} (h : Records p i s x) : Records p i s (pushBuf x b) := h.same rfl rfl rfl rfl

theorem Records.putRegion {bs : List Byte} (h : Records p i s x) : Records p i s (putRegion x i bs) := by
  unfold Machine.putRegion
  extract_lets r r' b s1 s2
  have hs1 : Records p i s s1 := .setRec (.pushBuf (h.same rfl rfl rfl rfl)) ⟨rfl, rfl, rfl, rfl⟩
  have hs2 : Records p i s s2 := .ite (hs1.wr (by simp [countRegs])) hs1
  exact .led (hs2.bump (by simp [countRegs]))

theorem Records.writePos {w : Word × Word} (h : Records p i s x) : Records p i s (writePos x i w) :=
  (h.wr (by simp [countRegs])).wr (by simp [countRegs])

theorem Records.syncPos (h : Records p i s x) : Records p i s (syncPos x i) := .ite h.writePos h.pushBuf

theorem Records.leadRegion {tick phase : Nat} (h : Records p i s x) : Records p i s (leadRegion x i tick phase) := by
  unfold Machine.leadRegion
  extract_lets g s1 r s2
  have hs2 : Records p i s s2 := (h.foldl fun _ _ hy => hy.putRegion).setRec ⟨rfl, rfl, rfl, rfl⟩
  exact .ite (hs2.setFlag (by decide)) hs2

theorem regionShed_lt {raw : Option Nat} {n c : Nat} (hc : regionShed s i raw n = some c) : c < 4 := by
  unfold regionShed at hc
  split_ifs at hc <;> cases hc <;> decide

theorem shedReg_mem {c : Nat} (hc : c < 4) (i : Nat) : shedReg c ∈ countRegs i := by
  interval_cases c <;> simp [countRegs]

theorem Records.shedRegion {c tick : Nat} (h : Records p i s x) (hc : c < 4) : Records p i s (shedRegion x i c tick) := by
  have hset : Records p i s (if c = 0 then x else Machine.setRec x i { recSt x i with gapR := addGap (recSt x i).gapR (c + 1) 1 tick }) :=
    .ite h (h.setRec ⟨rfl, rfl, rfl, rfl⟩)
  exact .setFlag (.odoInc (.led (.led (.bump (.bump (.bump hset (by simp [countRegs])) (by simp [countRegs])) (shedReg_mem hc i))))) (by decide)

theorem Records.putTrig {unit tick phase : Nat} (h : Records p i s x) : Records p i s (putTrig x i unit tick phase) := by
  unfold Machine.putTrig
  split
  · next hc => exact h.shedRegion (regionShed_lt hc)
  · exact ((h.wr (by simp [countRegs])).leadRegion).putRegion

/-! ### What is written to the stream -/

theorem Records.putStream {bs : List Byte} (h : Records p i s x) : Records p i s (putStream x i bs) := by
  unfold Machine.putStream
  extract_lets r base m s1 s2
  have hs1 : Records p i s s1 := .setRec (h.same rfl rfl rfl rfl) ⟨rfl, rfl, rfl, rfl⟩
  have hs2 : Records p i s s2 := (hs1.wr (by simp [countRegs])).wr (by simp [countRegs])
  exact ((hs2.bump (by simp [countRegs])).bump (by simp [countRegs])).led.led

theorem Records.leadStream {tick phase : Nat} (h : Records p i s x) : Records p i s (leadStream x i tick phase) := by
  unfold Machine.leadStream
  extract_lets g s1 r s2
  have hs2 : Records p i s s2 := (h.foldl fun _ _ hy => hy.putStream).setRec ⟨rfl, rfl, rfl, rfl⟩
  exact .ite (hs2.setFlag (by decide)) hs2

theorem Records.shedStream {c tick : Nat} (h : Records p i s x) (hc : c < 4) : Records p i s (shedStream x i c tick) := by
  unfold Machine.shedStream
  extract_lets r s1 s2
  have hs1 : Records p i s s1 := h.setRec ⟨rfl, rfl, rfl, rfl⟩
  have hs2 : Records p i s s2 := .ite (hs1.wr (by simp [countRegs])) hs1
  exact .setFlag (.odoInc (.led (.led (.bump (.bump (.bump hs2 (by simp [countRegs])) (by simp [countRegs])) (shedReg_mem hc i))))) (by decide)

theorem Records.owedStream {tick phase : Nat} {raw : Option Nat} {bs : List Byte} (h : Records p i s x) :
    Records p i s (owedStream x i tick phase raw bs) :=
  .ite (h.shedStream (by decide)) (.ite (h.shedStream (by decide)) h.leadStream.putStream)

theorem Records.fireStream {unit tick phase pre : Nat} (h : Records p i s x) : Records p i s (fireStream x i unit tick phase pre).1 :=
  .iteFst h.owedStream h

/-! ### What moves the halves -/

theorem Records.setHalf {h v : Nat} (hx : Records False i s x) (hh : h < 2) : Records False i s (setHalf x i h v) :=
  hx.wrStat False.elim (by omega) (by omega)

theorem Records.enterDone {cause : Nat} (h : Records False i s x) : Records False i s (enterDone x i cause) := by
  unfold Machine.enterDone
  extract_lets k s1 s2 r
  have hs1 : Records False i s s1 := ((h.setHalf (curHalf_lt x i)).wrStat False.elim (by decide) (by decide)).setFlag (by decide)
  have hk : k < 2 := curHalf_lt x i
  have hs2 : Records False i s s2 := (hs1.wrStat False.elim (Nat.le_refl 4) (by decide)).setHalf (by omega)
  exact .ite (.syncPos (.setRec hs2 ⟨rfl, rfl, rfl, rfl⟩)) hs1

theorem Records.recordRegion {tick phase : Nat} {data : Bool} {bs : List Byte} (h : Records False i s x) :
    Records False i s (recordRegion x i tick phase data bs) := by
  unfold Machine.recordRegion
  extract_lets _ s2 r _ s3
  have hs2 : Records False i s s2 := h.leadRegion.putRegion
  have hs3 : Records False i s s3 := .ite (hs2.setRec ⟨rfl, rfl, rfl, rfl⟩) hs2
  exact .ite hs3.enterDone hs3

theorem Records.owedRegion {tick phase : Nat} {raw : Option Nat} {data : Bool} {bs : List Byte} (h : Records False i s x) :
    Records False i s (owedRegion x i tick phase raw data bs) := by
  unfold Machine.owedRegion
  extract_lets _ _ s1
  have hs1 : Records False i s s1 := .ite h.enterDone h
  split
  · next hc => exact h.shedRegion (regionShed_lt hc)
  · exact .ite hs1.recordRegion (hs1.shedRegion (by decide))

theorem Records.owed {tick phase : Nat} {raw : Option Nat} {data : Bool} {bs : List Byte} (h : Records False i s x) :
    Records False i s (owed x i tick phase raw data bs) := by
  unfold Machine.owed
  extract_lets _ s1
  have hs1 : Records False i s s1 := .ite h.owedRegion h
  exact .ite hs1 (.ite (hs1.shedStream (by decide)) hs1.owedStream)

/-- A half in FILL takes the trigger: what it holds before, its marker, POST (R498, R501). -/
theorem Records.fireRegion {unit tick phase : Nat} (h : Records False i s x) : Records False i s (fireRegion x i unit tick phase).1 := by
  unfold Machine.fireRegion
  extract_lets _ s2 s3 s4 r s5
  have hs2 : Records False i s s2 := h.wr (by simp [countRegs])
  have hs3 : Records False i s s3 := .ite hs2 (hs2.wrStat False.elim (Nat.le_refl _) (by decide))
  have hs5 : Records False i s s5 := .setHalf (.setRec hs3.putTrig ⟨rfl, rfl, rfl, rfl⟩) (curHalf_lt x i)
  exact .iteFst h (.iteFst h.putTrig (.iteFst h (.ite hs5.enterDone hs5)))

end Records

/-- Registers that no record of a set writes: those of the blocks before the recorder, the ceilings, a set's configuration and commands, the
trigger units, and the counts of triggers. -/
def BesideRecords (a : Nat) : Prop :=
  (0x10B01000 ≤ a ∧ a < 0x10B02000 ∧ a % 64 < 0x2C) ∨ (0x10B02000 ≤ a ∧ a < 0x10B03000) ∨ a < 0x10B0000C ∨
    (0x10B04000 ≤ a ∧ a < 0x10B04800 ∧ a % 32 = 0x1C) ∨ 0x11100000 ≤ a

theorem BesideRecords.not_mem {i a : Nat} (h : BesideRecords a) (hi : i < 64) : a ∉ recordRegs i := by
  unfold BesideRecords at h
  simp only [recordRegs, countRegs, shedReg, List.mem_cons, List.not_mem_nil, or_false, Reg.recSetstat, Reg.recSetpos, Reg.recSetold,
    Reg.recSettpos, Reg.recSetprec, Reg.recLissued, Reg.recLregshed, Reg.recLstrwr, Reg.recLstrshed, Reg.recStrprod, Reg.recStrstat,
    Reg.recTickpeak, Reg.recShedfrozen, Reg.odoEvt]
  omega

theorem Records.rd {p : Prop} {i a : Nat} {s x : Chip} (h : Records p i s x) (ha : BesideRecords a) : x.rd a = s.rd a :=
  h.regs a (ha.not_mem h.isSet)

end Sys2Proof.Machine
end

section
/-!
PROOFS of the recorder (11). The end of a reduction window: the finished bank is written and cleared over the next window.
-/

namespace Sys2Proof.Machine

/-- From `s` on, `x` has records of set `i` written, lost or shed, and no accumulator has begun. -/
structure Clears (i : Nat) (s x : Chip) : Prop where
  isSet : i < 64
  regs : KeepsRegsBut (recordRegs i) s x
  stands : SetStands (recSt s i) (recSt x i)
  clear : ∀ k, Tab.get none s.recd.red k = none → Tab.get none x.recd.red k = none

section Windows
variable {s x : Chip} {i : Nat}

theorem Clears.refl (s : Chip) (hi : i < 64) : Clears i s s := ⟨hi, .refl _ _, .refl _, fun _ hk => hk⟩

theorem Clears.trans {y : Chip} (h : Clears i s x) (h' : Clears i x y) : Clears i s y :=
  ⟨h.isSet, h.regs.trans h'.regs (List.Subset.refl _), h.stands.trans h'.stands, fun k hk => h'.clear k (h.clear k hk)⟩

theorem Records.clears {p : Prop} (h : Records p i s x) : Clears i s x :=
  ⟨h.isSet, h.regs, h.stands, fun k hk => by rw [h.red]; exact hk⟩

/-- The words that place a set's accumulators stand (R485). -/
theorem redIndex_congr (h : KeepsRegsBut (recordRegs i) s x) (hi : i < 64) (sid win : Nat) : redIndex x i sid win = redIndex s i sid win := by
  have hred : x.rd (Reg.recSetred i) = s.rd (Reg.recSetred i) := h _ (BesideRecords.not_mem (by unfold BesideRecords Reg.recSetred; omega) hi)
  have hslo : x.rd (Reg.recSetslo i) = s.rd (Reg.recSetslo i) := h _ (BesideRecords.not_mem (by unfold BesideRecords Reg.recSetslo; omega) hi)
  simp only [redIndex, Chip.rdF, hred, hslo]

/-- An accumulator is written and cleared, or was clear and is not written (R487). -/
theorem writeAcc_clears (s : Chip) (hi : i < 64) (win : Nat) (part : Bool) (sid : Nat) :
    Clears i s (writeAcc i win part s sid) ∧ Tab.get none (writeAcc i win part s sid).recd.red (redIndex s i sid win) = none := by
  unfold writeAcc
  extract_lets k a tick r s1
  have hs1 : Clears i s s1 := ⟨hi, .refl _ _, .refl _, fun j hj => by
    by_cases hjk : j = k
    · exact hjk ▸ Tab.get_set_self ..
    · exact (Tab.get_set_ne _ _ _ _ hjk).trans hj⟩
  have howed : ∀ bs, Records False i s1 (owed s1 i tick 9999 none true bs) := fun bs => (Records.refl _ s1 hi).owed
  split
  · next hclear =>
    have hnone : a = none := by simpa using (Bool.and_eq_true_iff.1 hclear).1
    exact ⟨.refl s hi, hnone⟩
  · exact ⟨hs1.trans (howed _).clears, (congrArg (Tab.get none · k) (howed _).red).trans (Tab.get_set_self ..)⟩

/-- All that are named are clear after (R487). -/
theorem writeAccs_clear (s : Chip) (hi : i < 64) (win : Nat) (part : Bool) (sids : List Nat) :
    Clears i s (sids.foldl (writeAcc i win part) s) ∧
      ∀ sid ∈ sids, Tab.get none (sids.foldl (writeAcc i win part) s).recd.red (redIndex s i sid win) = none := by
  induction sids generalizing s with
  | nil => exact ⟨.refl s hi, by simp⟩
  | cons sid sids ih =>
    obtain ⟨hone, hcleared⟩ := writeAcc_clears s hi win part sid
    obtain ⟨hrest, hall⟩ := ih (writeAcc i win part s sid)
    refine ⟨hone.trans hrest, fun k hk => ?_⟩
    rcases List.mem_cons.1 hk with rfl | hk
    · exact hrest.clear _ hcleared
    · exact redIndex_congr hone.regs hi k win ▸ hall k hk

/-- The set with its finished window waiting to be written (R487). -/
def windowSwapped (s : Chip) (i now : Nat) : Chip :=
  setRec s i { recSt s i with window := now, partW := false, out := some ⟨lastWindow s i now, 0, (recSt s i).partW⟩ }

/-- The accumulators of a finished window that are due by the end of this tick, written (R487). -/
def shareWritten (s : Chip) (i : Nat) (o : RedOut) : Chip :=
  ((List.range (redDue s i (rangeSize s i) - o.next)).map (s.rdF (Reg.recSetslo i) 17 0 + o.next + ·)).foldl (writeAcc i o.win o.part) s

theorem writeShare_some {o : RedOut} (h : (recSt s i).out = some o) :
    writeShare s i = setRec (shareWritten s i o) i { recSt (shareWritten s i o) i with
      out := if redDue s i (rangeSize s i) = rangeSize s i then none else some { o with next := redDue s i (rangeSize s i) } } := by
  unfold writeShare
  rw [h]
  rfl

/-- What the end of a window leaves: the accumulators due by the end of this tick are clear, and the rest wait (R487). -/
theorem writeShare_windowSwapped (s : Chip) (hi : i < 64) (now : Nat) :
    let n := rangeSize s i
    let upto := redDue s i n
    let last := lastWindow s i now
    let x := writeShare (windowSwapped s i now) i
    (recSt x i).window = now ∧ (recSt x i).partW = false ∧
      (recSt x i).out = (if upto = n then none else some ⟨last, upto, (recSt s i).partW⟩) ∧
      ∀ k < upto, Tab.get none x.recd.red (redIndex s i (s.rdF (Reg.recSetslo i) 17 0 + k) last) = none := by
  intro n upto last x
  have hout : (recSt (windowSwapped s i now) i).out = some ⟨last, 0, (recSt s i).partW⟩ := by rw [windowSwapped, recSt_setRec]
  obtain ⟨hrun, hall⟩ := writeAccs_clear (windowSwapped s i now) hi last (recSt s i).partW
    ((List.range (upto - 0)).map (s.rdF (Reg.recSetslo i) 17 0 + 0 + ·))
  obtain ⟨-, hwindow, hpart, -⟩ := hrun.stands
  rw [windowSwapped, recSt_setRec] at hwindow hpart
  have hx : x = _ := writeShare_some hout
  rw [hx, recSt_setRec]
  exact ⟨hwindow, hpart, rfl, fun k hk => hall _ (List.mem_map.2 ⟨k, List.mem_range.2 hk, rfl⟩)⟩

/-- When the command ends a window (R486, R488). -/
def WindowEnds (s : Chip) (i : Nat) : Prop :=
  recRuns s = true ∧ bit (setCfg s i) 0 = true ∧ bit (setCfg s i) 5 = true ∧ bit (setCfg s i) 2 = false ∧
    (recSt s i).window ≠ s.tb.tick / redWindow s i

theorem windowEnd_ends (h : WindowEnds s i) : windowEnd s i = writeShare (windowSwapped s i (s.tb.tick / redWindow s i)) i := by
  obtain ⟨hrun, hon, hred, hcap, hpast⟩ := h
  exact if_neg (by simp [hrun, hon, hred, hcap, Ne.symm hpast])

theorem windowEnd_stands (h : ¬ WindowEnds s i) : windowEnd s i = s := by
  refine if_pos (Classical.byContradiction fun hno => h ?_)
  obtain ⟨hrun, hon, hred, hcap, hpast⟩ : recRuns s = true ∧ bit (setCfg s i) 0 = true ∧ bit (setCfg s i) 5 = true ∧
      bit (setCfg s i) 2 = false ∧ s.tb.tick / redWindow s i ≠ (recSt s i).window := by simpa [not_or] using hno
  exact ⟨hrun, hon, hred, hcap, hpast.symm⟩

end Windows

theorem exec_reductionWindowEnd (j : Fin 64) (st : State) : exec (.reductionWindowEnd j) st = finish st (fun s => windowEnd s j.val) := rfl

end Sys2Proof.Machine
end

section
/-!
PROOFS of the recorder (11). ARM, RELEASE and STOP of a recording set.
-/

namespace Sys2Proof.Machine

/-! ### A half begins -/

section Fill
variable {s : Chip} {i h k : Nat}

/-- A set whose half begins anew (R497, R500). -/
theorem recSt_startFill (s : Chip) (i h : Nat) : recSt (startFill s i h) i =
    { recSt s i with pos := 0, lens := [], mark := 0, pre := 0, postN := 0, wrapped := false } := by
  unfold startFill
  extract_lets s1 r
  rw [recSt_syncPos, recSt_setRec]
  rfl

theorem halfBits_startFill (s : Chip) (i h : Nat) :
    halfBits (startFill s i h) i = halfBits (setHalf (s.wrF (Reg.recSetstat i) 4 4 h) i h 1) i := halfBits_syncPos ..

theorem curHalf_startFill (s : Chip) (i : Nat) (hh : h < 2) : curHalf (startFill s i h) i = h := by
  rw [curHalf_congr (halfBits_startFill s i h), curHalf_setHalf _ _ hh, curHalf_wrF]
  omega

theorem halfState_startFill (s : Chip) (i : Nat) (hh : h < 2) : halfState (startFill s i h) i h = 1 := by
  rw [halfState_congr (halfBits_startFill s i h) hh, halfState_setHalf_self _ _ _ hh]

theorem halfState_startFill_ne (s : Chip) (i : Nat) (hh : h < 2) (hk : k < 2) (hne : k ≠ h) :
    halfState (startFill s i h) i k = halfState s i k := by
  rw [halfState_congr (halfBits_startFill s i h) hk, halfState_setHalf_ne _ _ _ hh hne, halfState_wrF _ _ _ hk]

/-- The place of a half's begin is written in two words (R503). -/
theorem syncPos_keepsRegs (s : Chip) (i : Nat) : KeepsRegsBut [Reg.recSetpos i, Reg.recSetold i] s (syncPos s i) :=
  .ite (((KeepsRegsBut.refl _ s).wr (by simp)).wr (by simp)) ((KeepsRegsBut.refl _ s).same rfl)

theorem startFill_keepsRegs (s : Chip) (i h : Nat) :
    KeepsRegsBut [Reg.recSetstat i, Reg.recSetpos i, Reg.recSetold i] s (startFill s i h) := by
  unfold startFill
  extract_lets s1 r
  have hs1 : KeepsRegsBut [Reg.recSetstat i, Reg.recSetpos i, Reg.recSetold i] s s1 := ((KeepsRegsBut.refl _ s).wr (by simp)).wr (by simp)
  exact (hs1.same rfl).trans (syncPos_keepsRegs _ i) (List.subset_cons_self ..)

theorem Records.startFill {x : Chip} (hx : Records False i s x) (hh : h < 2) : Records False i s (startFill x i h) := by
  unfold Machine.startFill
  extract_lets s1 r
  have hs1 : Records False i s s1 := (hx.wrStat False.elim (Nat.le_refl 4) (by decide)).setHalf hh
  exact .syncPos (.setRec hs1 ⟨rfl, rfl, rfl, rfl⟩)

end Fill

/-! ### What waits for DRAM -/

section Waiting
variable {s x : Chip} {i : Nat}

/-- The records in the write buffer, without the marks of places that follow them (R490, R503). -/
def waiting (s : Chip) : List (List Byte) := (s.recd.buf.filter (fun b => !b.bytes.isEmpty)).map (·.bytes)

theorem waiting_congr (h : x.recd.buf = s.recd.buf) : waiting x = waiting s := by
  rw [waiting, h]
  rfl

theorem waiting_pushBuf (s : Chip) (b : BufRec) : waiting (pushBuf s b) = waiting s ++ if b.bytes.isEmpty then [] else [b.bytes] := by
  show ((s.recd.buf ++ [b]).filter _).map _ = _
  rw [List.filter_append, List.map_append, waiting]
  cases hb : b.bytes.isEmpty <;> simp [hb]

theorem putRegion_buf (s : Chip) (i : Nat) (bs : List Byte) : (putRegion s i bs).recd.buf =
    s.recd.buf ++ [bufRec s i bs (recSt s i) (recAdvance s i bs.length (recSt s i))] := by
  unfold putRegion
  extract_lets r r' b s1 s2
  have hs2 : s2.recd = s1.recd := by
    show (if _ then _ else _ : Chip).recd = _
    split <;> rfl
  show s2.recd.buf = _
  rw [hs2]
  rfl

theorem waiting_putRegion (s : Chip) (i : Nat) {bs : List Byte} (h : bs.length = 16) : waiting (putRegion s i bs) = waiting s ++ [bs] := by
  have hbs : bs.isEmpty = false := by cases bs <;> simp_all
  rw [waiting, putRegion_buf, List.filter_append, List.map_append, waiting]
  simp [bufRec, hbs]

theorem waiting_syncPos (s : Chip) (i : Nat) : waiting (syncPos s i) = waiting s := by
  unfold syncPos
  dsimp only
  split
  · rfl
  · rw [waiting_pushBuf]
    exact List.append_nil _

theorem syncPos_bytes (s : Chip) (i : Nat) : (syncPos s i).recd.bytes = s.recd.bytes := by
  unfold syncPos
  dsimp only
  split <;> rfl

theorem rd_putRegion_issued (s : Chip) (i : Nat) (bs : List Byte) :
    (putRegion s i bs).rd (Reg.recLissued i) = s.rd (Reg.recLissued i) + 1 := by
  unfold putRegion
  extract_lets r r' b s1 s2
  have hs2 : s2.rd (Reg.recLissued i) = s.rd (Reg.recLissued i) := by
    show (if _ then _ else _ : Chip).rd _ = _
    split
    · exact Chip.rd_wr_ne _ _ (by simp [Reg.recLissued, Reg.recTickpeak]; omega)
    · rfl
  exact (Chip.rd_bump ..).trans (congrArg (· + 1) hs2)

theorem recSt_putRegion (s : Chip) (i : Nat) (bs : List Byte) :
    recSt (putRegion s i bs) i = recAdvance s i bs.length (recSt s i) := by
  unfold putRegion
  extract_lets r r' b s1 s2
  have hs2 : recSt s2 i = r' := by
    show recSt (if _ then _ else _ : Chip) i = _
    split <;> exact recSt_setRec ..
  exact hs2

/-- Records of 16 bytes admitted one after the other: each is counted as issued and waits behind those before it. -/
theorem putRegions (s : Chip) (i : Nat) {l : List (List Byte)} (h : ∀ bs ∈ l, bs.length = 16) :
    (l.foldl (fun x b => putRegion x i b) s).rd (Reg.recLissued i) = s.rd (Reg.recLissued i) + wn l.length ∧
      waiting (l.foldl (fun x b => putRegion x i b) s) = waiting s ++ l := by
  induction l generalizing s with
  | nil => exact ⟨(BitVec.add_zero _).symm, (List.append_nil _).symm⟩
  | cons b l ih =>
    obtain ⟨hcount, hwait⟩ := ih (putRegion s i b) fun bs hbs => h bs (List.mem_cons_of_mem _ hbs)
    have hsum : wn (b :: l).length = 1 + wn l.length := by
      rw [List.length_cons, Nat.add_comm]
      exact BitVec.ofNat_add ..
    refine ⟨hcount.trans ?_, hwait.trans ?_⟩
    · rw [rd_putRegion_issued, hsum, BitVec.add_assoc]
    · rw [waiting_putRegion s i (h b (List.mem_cons_self ..)), List.append_assoc]
      rfl

theorem rd_led (s : Chip) (l j n a : Nat) : (s.led l j n).rd a = s.rd a := rfl

/-- A record shed is counted as issued and as shed (R499, R513). -/
theorem shedRegion_counts (s : Chip) (hi : i < 64) {c : Nat} (hc : c < 4) (tick : Nat) :
    (shedRegion s i c tick).rd (Reg.recLissued i) = s.rd (Reg.recLissued i) + 1 ∧
      (shedRegion s i c tick).rd (Reg.recLregshed i) = s.rd (Reg.recLregshed i) + 1 := by
  unfold shedRegion
  extract_lets r s1
  have hs1 : s1.regs = s.regs := by
    show (if _ then _ else _ : Chip).regs = _
    split <;> rfl
  have hne : Reg.recLissued i ≠ Reg.recLregshed i := by simp [Reg.recLissued, Reg.recLregshed]
  obtain ⟨hstat, hodo, hshed⟩ : Reg.recLissued i ≠ Reg.recSetstat i ∧ Reg.recLissued i ≠ Reg.odoEvt ∧ Reg.recLissued i ≠ shedReg c := by
    simp only [Reg.recLissued, Reg.recSetstat, Reg.odoEvt, shedReg, Reg.recShedfrozen]
    omega
  obtain ⟨hstat', hodo', hshed'⟩ : Reg.recLregshed i ≠ Reg.recSetstat i ∧ Reg.recLregshed i ≠ Reg.odoEvt ∧
      Reg.recLregshed i ≠ shedReg c := by
    simp only [Reg.recLregshed, Reg.recSetstat, Reg.odoEvt, shedReg, Reg.recShedfrozen]
    omega
  refine ⟨?_, ?_⟩
  · rw [rd_setFlag_ne _ hstat, Chip.odoInc_rd_ne _ _ _ hodo, rd_led, rd_led, Chip.rd_bump_ne _ hshed, Chip.rd_bump_ne _ hne, Chip.rd_bump,
      Chip.rd_congr hs1]
  · rw [rd_setFlag_ne _ hstat', Chip.odoInc_rd_ne _ _ _ hodo', rd_led, rd_led, Chip.rd_bump_ne _ hshed', Chip.rd_bump, Chip.rd_bump_ne _ hne.symm,
      Chip.rd_congr hs1]

theorem shedRegion_recd (s : Chip) (i c tick : Nat) :
    (shedRegion s i c tick).recd = (if c = 0 then s else setRec s i { recSt s i with gapR := addGap (recSt s i).gapR (c + 1) 1 tick }).recd := by
  unfold shedRegion
  extract_lets r s1
  rw [Chip.setFlag_recd, Chip.odoInc_recd]
  rfl

theorem waiting_shedRegion (s : Chip) (i c tick : Nat) : waiting (shedRegion s i c tick) = waiting s := by
  refine waiting_congr ?_
  rw [shedRegion_recd]
  split <;> rfl

/-- Of the set, a record shed from the region changes the gap alone. -/
theorem recSt_shedRegion (s : Chip) (i c tick : Nat) :
    recSt (shedRegion s i c tick) i = { recSt s i with gapR := (recSt (shedRegion s i c tick) i).gapR } := by
  rw [recSt_congr (congrArg Recorder.sets (shedRegion_recd s i c tick)) i]
  split
  · rfl
  · rw [recSt_setRec]

end Waiting

/-! ### ARM -/

section Arm
variable {s x y : Chip} {i : Nat}

/-- The current half of a set at its begin, with POST taken (R497, R521). -/
def armFresh (s : Chip) (i : Nat) : Chip :=
  let s1 := startFill (s.wrBit (Reg.recSetstat i) 5 false) i (curHalf s i)
  setRec s1 i { recSt s1 i with goal := (s1.rd (Reg.recSetpost i)).toNat }

/-- What goes before the ARM marker: a GAP record that is due with its TIME records, or a TIME record (R479, R480). -/
def armLead (s : Chip) (i : Nat) : List (List Byte) :=
  if (readyGap (recSt s i).gapR).isSome then regionLead s i s.tb.tick s.phaseRead else timeBefore s i s.tb.tick s.phaseRead

/-- The ARM marker and its TIME record (R497). -/
def armMarks (s : Chip) : List (List Byte) := [shortRecord s.tb.tick 4 0 s.phaseRead 0 1 0 0, timeRecord s.tb.tick s.phaseRead]

/-- A set armed, its marker and what goes with it admitted. -/
def armAdmitted (s : Chip) (i : Nat) : Chip :=
  let s3 := (armLead s i ++ armMarks s).foldl (fun x b => putRegion x i b) (armFresh s i)
  let s4 := setRec s3 i { recSt s3 i with timeR := some (s.tb.tick / 2 ^ 24), gapR := gapAfter (recSt s i).gapR }
  if (readyGap (recSt s i).gapR).isSome then s4.setFlag i 3 else s4

/-- A set armed, its marker and TIME record shed for a cause. -/
def armShed (s : Chip) (i c : Nat) : Chip :=
  let s3 := (armMarks s).foldl (fun x _ => shedRegion x i c s.tb.tick) (armFresh s i)
  setRec s3 i { recSt s3 i with timeR := none }

/-- What ARM finds of a set that it may arm (R497). -/
structure MayArm (s : Chip) (i : Nat) : Prop where
  on : bit (setCfg s i) 0 = true
  capture : capMode s i = true
  region : bit (setCfg s i) 14 = true
  post : (s.rd (Reg.recSetpost i)).toNat ≤ nrec s i - 1
  idle : halfState s i (curHalf s i) = 0

theorem recSt_armFresh (s : Chip) (hi : i < 64) : recSt (armFresh s i) i = { recSt s i with
    pos := 0, lens := [], mark := 0, pre := 0, postN := 0, wrapped := false, goal := (s.rd (Reg.recSetpost i)).toNat } := by
  have hpost : (startFill (s.wrBit (Reg.recSetstat i) 5 false) i (curHalf s i)).rd (Reg.recSetpost i) = s.rd (Reg.recSetpost i) :=
    (Records.startFill ((Records.refl False s hi).wrStat False.elim (Nat.le_refl 5) (by decide)) (curHalf_lt s i)).rd
      (by unfold BesideRecords Reg.recSetpost; omega)
  simp only [armFresh, recSt_setRec, hpost, recSt_startFill, recSt_wrBit]

theorem armLead_fresh (s : Chip) (hi : i < 64) :
    (if (readyGap (recSt (armFresh s i) i).gapR).isSome then regionLead (armFresh s i) i s.tb.tick s.phaseRead
      else timeBefore (armFresh s i) i s.tb.tick s.phaseRead) = armLead s i := by
  simp only [regionLead, timeBefore, recSt_armFresh s hi]
  rfl

theorem shortRecord_length (tick kind fl phase port tag w2 w3 : Nat) : (shortRecord tick kind fl phase port tag w2 w3).length = 16 := by
  simp [shortRecord, recHeader, leBytes_length]

theorem leadRecords_length (tick phase : Nat) (time : Option Nat) (gap : Option RecGap) :
    ∀ bs ∈ leadRecords tick phase time gap, bs.length = 16 := by
  intro bs hbs
  rcases List.mem_append.1 hbs with h | h
  · split at h
    · exact List.mem_singleton.1 h ▸ shortRecord_length ..
    · cases h
  · cases gap with
    | none => cases h
    | some g =>
      rcases List.mem_cons.1 h with rfl | h
      · exact shortRecord_length ..
      · exact List.mem_singleton.1 h ▸ shortRecord_length ..

theorem timeBefore_length (s : Chip) (i tick phase : Nat) : ∀ bs ∈ timeBefore s i tick phase, bs.length = 16 := by
  intro bs hbs
  unfold timeBefore at hbs
  split at hbs
  · split at hbs
    · cases hbs
    · exact List.mem_singleton.1 hbs ▸ shortRecord_length ..
  · cases hbs

/-- ARM writes records of 16 bytes (R479). -/
theorem armRecords_length (s : Chip) (i : Nat) : ∀ bs ∈ armLead s i ++ armMarks s, bs.length = 16 := by
  intro bs hbs
  rcases List.mem_append.1 hbs with h | h
  · unfold armLead at h
    split at h
    · exact leadRecords_length _ _ _ _ bs h
    · exact timeBefore_length _ _ _ _ bs h
  · rcases List.mem_cons.1 h with rfl | h
    · exact shortRecord_length ..
    · exact List.mem_singleton.1 h ▸ shortRecord_length ..

theorem bytes_sum {l : List (List Byte)} (h : ∀ bs ∈ l, bs.length = 16) (n : Nat) : l.foldl (fun n b => n + b.length) n = n + 16 * l.length := by
  induction l generalizing n with
  | nil => rfl
  | cons b l ih =>
    rw [List.foldl_cons, ih (fun bs hbs => h bs (List.mem_cons_of_mem _ hbs)), h b (List.mem_cons_self ..), List.length_cons]
    omega

/-- What ARM leaves of its set and of the others. -/
structure Armed (i : Nat) (s x : Chip) : Prop where
  regs : KeepsRegsBut (recordRegs i) s x
  sets : ∀ k, k ≠ i → recSt x k = recSt s k
  cur : curHalf x i = curHalf s i
  fill : halfState x i (curHalf s i) = 1
  whole : x.rdBit (Reg.recSetstat i) 5 = false
  goal : (recSt x i).goal = (s.rd (Reg.recSetpost i)).toNat
  pre : (recSt x i).pre = 0
  partW : (recSt x i).partW = (recSt s i).partW
  timeS : (recSt x i).timeS = (recSt s i).timeS

/-- Records in the region, which change neither the count before a trigger nor what is due in the stream. -/
theorem Armed.records (h : Armed i s x) (hr : Records True i x y) (hpre : (recSt y i).pre = (recSt x i).pre)
    (htime : (recSt y i).timeS = (recSt x i).timeS) : Armed i s y := by
  obtain ⟨hgoal, -, hpart, -⟩ := hr.stands
  have hhalves := hr.halves trivial
  exact ⟨h.regs.trans hr.regs (List.Subset.refl _), fun k hk => (hr.sets k hk).trans (h.sets k hk), (curHalf_congr hhalves).trans h.cur,
    (halfState_congr hhalves (curHalf_lt s i)).trans h.fill, (wrapBit_congr hhalves).trans h.whole, hgoal.trans h.goal, hpre.trans h.pre,
    hpart.trans h.partW, htime.trans h.timeS⟩

theorem armFresh_armed (s : Chip) (hi : i < 64) : Armed i s (armFresh s i) := by
  have hfill : Records False i s (startFill (s.wrBit (Reg.recSetstat i) 5 false) i (curHalf s i)) :=
    .startFill ((Records.refl False s hi).wrStat False.elim (Nat.le_refl 5) (by decide)) (curHalf_lt s i)
  have hwhole : (setHalf ((s.wrBit (Reg.recSetstat i) 5 false).wrF (Reg.recSetstat i) 4 4 (curHalf s i)) i (curHalf s i) 1).rdBit
      (Reg.recSetstat i) 5 = false := by
    have hk := curHalf_lt s i
    rw [Chip.rdBit, setHalf, Chip.wrF, Chip.rd_wr_self, bit_setFld _ _ _ (by omega) (by omega), if_neg (by omega), Chip.wrF, Chip.rd_wr_self,
      bit_setFld _ _ _ (by decide) (by decide), if_neg (by decide)]
    exact Chip.rdBit_wrBit_self _ _ false (by decide)
  refine ⟨hfill.regs.same rfl, fun k hk => ?_, curHalf_startFill _ _ (curHalf_lt s i), halfState_startFill _ _ (curHalf_lt s i),
    ?_, ?_, ?_, ?_, ?_⟩
  · exact (recSt_setRec_ne _ _ hk).trans (hfill.sets k hk)
  · exact (wrapBit_congr (halfBits_startFill ..)).trans hwhole
  all_goals rw [recSt_armFresh s hi]

theorem regionShed_fresh (s : Chip) (hi : i < 64) (n : Nat) : regionShed (armFresh s i) i none n =
    if 4 ≤ s.stage then some 2 else if 240000 < s.recd.bytes + n then some 3 else none := by
  have harmed := armFresh_armed s hi
  have hstage : (armFresh s i).stage = s.stage := by
    rw [Chip.stage, Chip.rdF, harmed.regs _ (BesideRecords.not_mem (by unfold BesideRecords Reg.pwrStat; omega) hi)]
    rfl
  have htakes : halfTakes (armFresh s i) i = true := by simp [halfTakes, harmed.cur, harmed.fill]
  have hbytes : (armFresh s i).recd.bytes = s.recd.bytes := syncPos_bytes ..
  simp [regionShed, hstage, htakes, hbytes]

theorem armSet_eq (hi : i < 64) (h : MayArm s i) : armSet s i =
    match regionShed (armFresh s i) i none (16 * ((armLead s i).length + 2)) with
    | some c => armShed s i c
    | none => armAdmitted s i := by
  obtain ⟨hon, hcap, hreg, hpost, hidle⟩ := h
  have hsum : (armLead s i ++ armMarks s).foldl (fun n b => n + b.length) 0 = 16 * ((armLead s i).length + 2) := by
    rw [bytes_sum (armRecords_length s i), List.length_append]
    exact Nat.zero_add _
  have hgap : (recSt (armFresh s i) i).gapR = (recSt s i).gapR := by rw [recSt_armFresh s hi]
  rw [← hsum, armAdmitted, ← hgap, ← armLead_fresh s hi]
  unfold armSet
  simp only [hon, hcap, hreg, Nat.not_lt.2 hpost, hidle, Bool.not_true, Bool.or_self, Bool.false_eq_true, if_false, ne_eq, not_true_eq_false]
  rfl

/-- ARM below stage 4 and within the tick's bytes (R497, R493). -/
theorem armSet_admitted (hi : i < 64) (h : MayArm s i) (hstage : s.stage < 4)
    (hbytes : s.recd.bytes + 16 * ((armLead s i).length + 2) ≤ 240000) : armSet s i = armAdmitted s i := by
  rw [armSet_eq hi h, regionShed_fresh s hi, if_neg (Nat.not_le.2 hstage), if_neg (Nat.not_lt.2 hbytes)]

/-- ARM from stage 4 on, or beyond the tick's bytes (R493, R513). -/
theorem armSet_shed (hi : i < 64) (h : MayArm s i)
    (hshed : 4 ≤ s.stage ∨ 240000 < s.recd.bytes + 16 * ((armLead s i).length + 2)) : ∃ c < 4, armSet s i = armShed s i c := by
  rw [armSet_eq hi h, regionShed_fresh s hi]
  by_cases hstage : 4 ≤ s.stage
  · exact ⟨2, by decide, by rw [if_pos hstage]⟩
  · exact ⟨3, by decide, by rw [if_neg hstage, if_pos (hshed.resolve_left hstage)]⟩

theorem armAdmitted_armed (s : Chip) (hi : i < 64) : Armed i s (armAdmitted s i) := by
  unfold armAdmitted
  extract_lets s3 r s4
  have hput : Records True i (armFresh s i) s3 := (Records.refl _ _ hi).foldl fun _ _ hy => hy.putRegion
  have hs4 : Records True i (armFresh s i) s4 := .setRec hput ⟨rfl, rfl, rfl, rfl⟩
  have hkept : (recSt s3 i).pre = (recSt (armFresh s i) i).pre ∧ (recSt s3 i).timeS = (recSt (armFresh s i) i).timeS :=
    ⟨foldl_keeps (fun z => (recSt z i).pre) (fun z b => by rw [recSt_putRegion]; rfl) _ _,
      foldl_keeps (fun z => (recSt z i).timeS) (fun z b => by rw [recSt_putRegion]; rfl) _ _⟩
  have hset : (recSt s4 i).pre = (recSt s3 i).pre ∧ (recSt s4 i).timeS = (recSt s3 i).timeS := by
    rw [show recSt s4 i = _ from recSt_setRec ..]
    exact ⟨rfl, rfl⟩
  have hs4' : Armed i s s4 := (armFresh_armed s hi).records hs4 (hset.1.trans hkept.1) (hset.2.trans hkept.2)
  split
  · exact hs4'.records ((Records.refl _ _ hi).setFlag (by decide)) (by rw [recSt_setFlag]) (by rw [recSt_setFlag])
  · exact hs4'

theorem armShed_armed (s : Chip) (hi : i < 64) {c : Nat} (hc : c < 4) : Armed i s (armShed s i c) := by
  unfold armShed
  extract_lets s3
  have hshed : Records True i (armFresh s i) s3 := (Records.refl _ _ hi).foldl fun _ _ hy => hy.shedRegion hc
  have hkept : (recSt s3 i).pre = (recSt (armFresh s i) i).pre ∧ (recSt s3 i).timeS = (recSt (armFresh s i) i).timeS :=
    ⟨foldl_keeps (fun z => (recSt z i).pre) (fun z b => by rw [recSt_shedRegion]) _ _,
      foldl_keeps (fun z => (recSt z i).timeS) (fun z b => by rw [recSt_shedRegion]) _ _⟩
  refine (armFresh_armed s hi).records (.setRec hshed ⟨rfl, rfl, rfl, rfl⟩) ?_ ?_
  · exact (congrArg RecSet.pre (recSt_setRec ..)).trans hkept.1
  · exact (congrArg RecSet.timeS (recSt_setRec ..)).trans hkept.2

theorem armSet_armed (hi : i < 64) (h : MayArm s i) : Armed i s (armSet s i) := by
  by_cases hshed : 4 ≤ s.stage ∨ 240000 < s.recd.bytes + 16 * ((armLead s i).length + 2)
  · obtain ⟨c, hc, heq⟩ := armSet_shed hi h hshed
    exact heq ▸ armShed_armed s hi hc
  · rw [armSet_admitted hi h (by omega) (by omega)]
    exact armAdmitted_armed s hi

theorem armFresh_counts (s : Chip) (hi : i < 64) : (armFresh s i).rd (Reg.recLissued i) = s.rd (Reg.recLissued i) ∧
    (armFresh s i).rd (Reg.recLregshed i) = s.rd (Reg.recLregshed i) ∧ waiting (armFresh s i) = waiting s := by
  have hkept : ∀ a, a ∉ [Reg.recSetstat i, Reg.recSetpos i, Reg.recSetold i] → (armFresh s i).rd a = s.rd a :=
    ((KeepsRegsBut.refl _ s).wr (by simp)).trans ((startFill_keepsRegs _ i _).same rfl) (List.Subset.refl _)
  refine ⟨hkept _ ?_, hkept _ ?_, waiting_syncPos ..⟩
  · simp only [List.mem_cons, List.not_mem_nil, or_false, Reg.recSetstat, Reg.recSetpos, Reg.recSetold, Reg.recLissued]
    omega
  · simp only [List.mem_cons, List.not_mem_nil, or_false, Reg.recSetstat, Reg.recSetpos, Reg.recSetold, Reg.recLregshed]
    omega

/-- What ARM admits is counted as issued and waits for DRAM in this order (R490, R497). -/
theorem armAdmitted_counts (s : Chip) (hi : i < 64) :
    (armAdmitted s i).rd (Reg.recLissued i) = s.rd (Reg.recLissued i) + wn ((armLead s i).length + 2) ∧
      waiting (armAdmitted s i) = waiting s ++ (armLead s i ++ armMarks s) := by
  obtain ⟨hissued, -, hwait⟩ := armFresh_counts s hi
  obtain ⟨hcount, hbuf⟩ := putRegions (armFresh s i) i (armRecords_length s i)
  have hlen : (armLead s i ++ armMarks s).length = (armLead s i).length + 2 := List.length_append
  rw [hissued, hlen] at hcount
  rw [hwait] at hbuf
  unfold armAdmitted
  extract_lets s3 s4
  split
  · refine ⟨(rd_setFlag_ne _ ?_).trans hcount, (waiting_congr ?_).trans hbuf⟩
    · simp only [Reg.recLissued, Reg.recSetstat]
      omega
    · rw [Chip.setFlag_recd]
      rfl
  · exact ⟨hcount, hbuf⟩

/-- What ARM sheds is counted as issued and as shed (R499, R513). -/
theorem armShed_counts (s : Chip) (hi : i < 64) {c : Nat} (hc : c < 4) :
    (armShed s i c).rd (Reg.recLissued i) = s.rd (Reg.recLissued i) + 2 ∧
      (armShed s i c).rd (Reg.recLregshed i) = s.rd (Reg.recLregshed i) + 2 ∧ waiting (armShed s i c) = waiting s := by
  obtain ⟨hissued, hcnt, hwait⟩ := armFresh_counts s hi
  have htwo : ∀ w : Word, w + 1 + 1 = w + 2 := fun w => BitVec.add_assoc ..
  obtain ⟨h1, h1'⟩ := shedRegion_counts (armFresh s i) hi hc s.tb.tick
  obtain ⟨h2, h2'⟩ := shedRegion_counts (shedRegion (armFresh s i) i c s.tb.tick) hi hc s.tb.tick
  refine ⟨h2.trans ?_, h2'.trans ?_, (waiting_shedRegion ..).trans ((waiting_shedRegion ..).trans hwait)⟩
  · rw [h1, hissued, htwo]
  · rw [h1', hcnt, htwo]

end Arm
end Sys2Proof.Machine
end

section
/-!
PROOFS of the recorder (11). The command register of a recording set.
-/

namespace Sys2Proof.Machine

/-! ### The registers that act -/

/-- The rows of REC_SETCFGs and REC_SETCMDs (R520, R522). -/
def setcfgRow : RegRow := ⟨0x1000, 64, 64, 0x0, 0x3C0001, 0x0, 0x0, 0x7C0FFFE, 0x0, 0x0, 0x0, 0x7FCFFFF, 0x0, 0x7FCFFFF⟩
def setcmdRow : RegRow := ⟨0x1028, 64, 64, 0x0, 0x0, 0x0, 0x0, 0x0, 0x0, 0x0, 0x0, 0x0, 0x0, 0x0⟩

/-- The row of TRGu_CMD (R528). -/
def trgcmdRow : RegRow := ⟨0x2020, 32, 64, 0x0, 0x0, 0x0, 0x0, 0x0, 0x0, 0x0, 0x0, 0x0, 0x0, 0x0⟩

theorem placeOf_set (j : Fin 64) : placeOf (Reg.recSetcfg j.val) = some (.reg 11 0 (0x1000 + 0x40 * j.val) setcfgRow) ∧
    placeOf (Reg.recSetcmd j.val) = some (.reg 11 0 (0x1028 + 0x40 * j.val) setcmdRow) := by
  revert j
  decide +kernel

theorem placeOf_trgcmd (u : Fin 32) : placeOf (Reg.recTrgcmd u.val) = some (.reg 11 0 (0x2020 + 0x40 * u.val) trgcmdRow) := by
  revert u
  decide +kernel

section Commands
variable {s : Chip} {who : Agent}

/-- A write to REC_SETCMDs gives its commands (R522). -/
theorem regCmd_setCmd {j : Fin 64} (hm : MayWrite s who (Reg.recSetcmd j.val)) (v : Word) :
    regCmd s who (Reg.recSetcmd j.val) v = setCommand s j.val v := by
  obtain ⟨hlo, hhi, hmod, hset⟩ : 0x1000 ≤ 0x1028 + 0x40 * j.val ∧ 0x1028 + 0x40 * j.val < 0x2000 ∧ (0x1028 + 0x40 * j.val) % 64 = 0x28 ∧
      (0x1028 + 0x40 * j.val - 0x1000) / 64 = j.val := by omega
  have hrange : rangeCode s 11 0 (0x1028 + 0x40 * j.val) (Reg.recSetcmd j.val) v = 0 := by
    simp [rangeCode, fieldRangeOk, hlo, hhi, hmod]
  refine regCmd_acting (placeOf_set j).2 (by decide) hm rfl hrange ?_
  simp only [actingWrite, hlo, hhi, hmod, hset, and_self, if_true]

/-- A write to TRGu_CMD gives its commands (R528). -/
theorem regCmd_trgCmd {u : Fin 32} (hm : MayWrite s who (Reg.recTrgcmd u.val)) (v : Word) :
    regCmd s who (Reg.recTrgcmd u.val) v = trgCommand s u.val v := by
  obtain ⟨hlo, hhi, hmod, hunit⟩ : 0x2000 ≤ 0x2020 + 0x40 * u.val ∧ 0x2020 + 0x40 * u.val < 0x3000 ∧ (0x2020 + 0x40 * u.val) % 64 = 0x20 ∧
      (0x2020 + 0x40 * u.val - 0x2000) / 64 = u.val := by omega
  have hset : ¬ 0x2020 + 0x40 * u.val < 0x2000 := by omega
  have hrange : rangeCode s 11 0 (0x2020 + 0x40 * u.val) (Reg.recTrgcmd u.val) v = 0 := by
    simp [rangeCode, fieldRangeOk, hset, hlo, hhi, hmod]
  refine regCmd_acting (placeOf_trgcmd u) (by decide) hm rfl hrange ?_
  simp only [actingWrite, hset, hlo, hhi, hmod, hunit, and_false, false_and, and_self, if_true, if_false]

variable (who) (st : State)

theorem exec_setArm (j : Fin 64) : exec (.setArm who j) st = finish st (fun s => regCmd s who (Reg.recSetcmd j.val) 1) := rfl
theorem exec_setRelease (j : Fin 64) : exec (.setRelease who j) st = finish st (fun s => regCmd s who (Reg.recSetcmd j.val) 2) := rfl
theorem exec_setStop (j : Fin 64) : exec (.setStop who j) st = finish st (fun s => regCmd s who (Reg.recSetcmd j.val) 4) := rfl
theorem exec_setTrig (j : Fin 64) : exec (.setTrig who j) st = finish st (fun s => regCmd s who (Reg.recSetcmd j.val) 8) := rfl

variable {who} {st} {j : Fin 64} (hm : MayWrite st.chip who (Reg.recSetcmd j.val))
include hm

/-- Each command of a set does what its bit says (R522). -/
theorem exec_setCommands :
    exec (.setArm who j) st = .next { st with chip := settle (armSet st.chip j.val) } ∧
      exec (.setRelease who j) st = .next { st with chip := settle (releaseSet st.chip j.val) } ∧
      exec (.setStop who j) st = .next { st with chip := settle (stopSet st.chip j.val) } ∧
      exec (.setTrig who j) st = .next { st with chip := settle (softTrigger st.chip j.val) } := by
  rw [exec_setArm, exec_setRelease, exec_setStop, exec_setTrig, finish_eq, finish_eq, finish_eq, finish_eq, regCmd_setCmd hm, regCmd_setCmd hm,
    regCmd_setCmd hm, regCmd_setCmd hm]
  exact ⟨rfl, rfl, rfl, rfl⟩

end Commands

/-! ### ARM refused -/

section Refused
variable {s : Chip} {i : Nat}

theorem Still.wrRec {a : Nat} {w : Word} (h : Still s) (ha : 0x10B00000 ≤ a) : Still (s.wr a w) :=
  h.congr rfl rfl rfl rfl rfl rfl fun b hb =>
    have hlow : b < 0x10B00000 := (by decide : ∀ b ∈ headRegs, b < 0x10B00000) b hb
    Chip.rd_wr_ne _ _ (by omega)

theorem setRefuse_still (h : Still s) (code : Nat) : Still (setRefuse s i code) :=
  (h.wrRec (by unfold Reg.recSetstat; omega)).wrRec (by decide)

theorem armSet_off (h : bit (setCfg s i) 0 = false) : armSet s i = setRefuse s i 1 := by simp [armSet, h]

theorem armSet_noRegion (hon : bit (setCfg s i) 0 = true) (h : capMode s i = false ∨ bit (setCfg s i) 14 = false) : armSet s i = s := by
  have hno : (!capMode s i || !bit (setCfg s i) 14) = true := by rcases h with h | h <;> simp [h]
  simp only [armSet, hon, hno, Bool.not_true, Bool.false_eq_true, if_false, if_true]

section Capture
variable (hon : bit (setCfg s i) 0 = true) (hcap : capMode s i = true) (hreg : bit (setCfg s i) 14 = true)
include hon hcap hreg

theorem armSet_big (h : (s.rd (Reg.recSetpost i)).toNat > nrec s i - 1) : armSet s i = setRefuse s i 3 := by
  simp only [armSet, hon, hcap, hreg, h, Bool.not_true, Bool.or_self, Bool.false_eq_true, if_false, if_true]

theorem armSet_busy (hpost : (s.rd (Reg.recSetpost i)).toNat ≤ nrec s i - 1) (h : halfState s i (curHalf s i) ≠ 0) :
    armSet s i = setRefuse s i 7 := by
  simp only [armSet, hon, hcap, hreg, Nat.not_lt.2 hpost, h, Bool.not_true, Bool.or_self, Bool.false_eq_true, if_false, ne_eq,
    not_false_eq_true, if_true]

end Capture
end Refused

/-! ### RELEASE and STOP -/

section Release
variable {s : Chip} {i : Nat}

theorem releaseSet_single (hcap : capMode s i = true) (hone : pingpong s i = false) (hdone : halfState s i 0 = 3) :
    releaseSet s i = startFill s i 0 := by
  simp [releaseSet, hcap, hone, hdone]

section TwoHalves
variable (htwo : pingpong s i = true)
include htwo

theorem pingpong_capture : capMode s i = true := (Bool.and_eq_true_iff.1 htwo).1

theorem releaseSet_both (hother : halfState s i (1 - curHalf s i) = 3) (hcur : halfState s i (curHalf s i) = 3) :
    releaseSet s i = startFill s i (1 - curHalf s i) := by
  simp [releaseSet, pingpong_capture htwo, htwo, hother, hcur]

theorem releaseSet_other (hother : halfState s i (1 - curHalf s i) = 3) (hcur : halfState s i (curHalf s i) ≠ 3) :
    releaseSet s i = setHalf s i (1 - curHalf s i) 0 := by
  simp [releaseSet, pingpong_capture htwo, htwo, hother, hcur]

theorem releaseSet_current (hother : halfState s i (1 - curHalf s i) ≠ 3) (hcur : halfState s i (curHalf s i) = 3) :
    releaseSet s i = setHalf s i (curHalf s i) 0 := by
  simp [releaseSet, pingpong_capture htwo, htwo, hother, hcur]

end TwoHalves

/-- STOP leaves both halves IDLE, with cause 3 of a capture that ran (R500). -/
theorem stopSet_halves (s : Chip) (i : Nat) : halfState (stopSet s i) i 0 = 0 ∧ halfState (stopSet s i) i 1 = 0 ∧
    (stopSet s i).rdF (Reg.recSetstat i) 27 24 =
      (if halfState s i 0 ∈ [1, 2] ∨ halfState s i 1 ∈ [1, 2] then 3 else s.rdF (Reg.recSetstat i) 27 24) := by
  unfold stopSet
  extract_lets busy s1
  have hbusy : (busy 0 || busy 1) = true ↔ halfState s i 0 ∈ [1, 2] ∨ halfState s i 1 ∈ [1, 2] := by simp [busy]
  have hcause : s1.rdF (Reg.recSetstat i) 27 24 =
      if halfState s i 0 ∈ [1, 2] ∨ halfState s i 1 ∈ [1, 2] then 3 else s.rdF (Reg.recSetstat i) 27 24 := by
    show (if _ then _ else _ : Chip).rdF _ _ _ = _
    simp only [hbusy]
    split
    · exact Chip.rdF_wrF_self s _ 3 (by decide) (by decide)
    · rfl
  refine ⟨?_, halfState_setHalf_self _ _ _ (by decide), ?_⟩
  · rw [halfState_setHalf_ne _ _ _ (by decide) (by decide), halfState_setHalf_self _ _ _ (by decide)]
  · rw [rdF_setHalf _ _ (by decide) (.inr (by decide)), rdF_setHalf _ _ (by decide) (.inr (by decide)), hcause]

end Release
end Sys2Proof.Machine
end

section
/-!
PROOFS of the recorder (11). Triggers: a fire at a set, and the trigger units.
-/

namespace Sys2Proof.Machine

/-! ### A fire at a set -/

section Fire
variable {s : Chip} {i : Nat}

/-- The half that enters DONE is in DONE, whichever half is current after (R499, R500). -/
theorem halfState_enterDone (s : Chip) (i cause : Nat) : halfState (enterDone s i cause) i (curHalf s i) = 3 := by
  have hk := curHalf_lt s i
  unfold enterDone
  extract_lets h s1 s2 r
  have hs1 : halfState s1 i h = 3 := by
    have hbits : halfBits s1 i = halfBits (setHalf s i h 3) i :=
      (halfBits_setFlag _ _ (by decide)).trans (halfBits_wrF _ _ (by decide) (by decide) (by decide))
    rw [halfState_congr hbits hk, halfState_setHalf_self _ _ _ hk]
  have hs2 : halfState s2 i h = 3 := by
    rw [halfState_setHalf_ne _ _ _ (by omega) (by omega), halfState_wrF _ _ _ hk, hs1]
  split
  · exact (halfState_congr (halfBits_syncPos ..) hk).trans hs2
  · exact hs1

/-- A half in FILL with its trigger marked, in POST (R498, R501). -/
def triggered (s : Chip) (i unit tick phase : Nat) : Chip :=
  let s2 := s.wr (Reg.recSetprec i) (wn (recSt s i).pre)
  let s3 := if (recSt s i).wrapped then s2 else s2.wrBit (Reg.recSetstat i) 5 true
  let s4 := putTrig s3 i unit tick phase
  setHalf (setRec s4 i { recSt s4 i with mark := 16, postN := 0 }) i (curHalf s i) 2

theorem fireRegion_fills (hon : bit (setCfg s i) 0 = true) (hreg : bit (setCfg s i) 14 = true) (hstage : s.stage < 4)
    (hcap : capMode s i = true) (hfill : halfState s i (curHalf s i) = 1) (unit tick phase : Nat) :
    fireRegion s i unit tick phase =
      (if (recSt s i).goal = 0 then enterDone (triggered s i unit tick phase) i 1 else triggered s i unit tick phase, true) := by
  unfold fireRegion
  simp only [hon, hreg, Nat.not_le.2 hstage, hcap, hfill, Bool.not_true, Bool.or_self, decide_false, Bool.false_eq_true, if_false,
    ne_eq, not_true_eq_false]
  rfl

theorem triggered_halves (s : Chip) (hi : i < 64) (unit tick phase : Nat) :
    halfState (triggered s i unit tick phase) i (curHalf s i) = 2 ∧ curHalf (triggered s i unit tick phase) i = curHalf s i := by
  have hk := curHalf_lt s i
  unfold triggered
  extract_lets s2 s3 s4 r
  have hcur3 : curHalf s3 i = curHalf s i := by
    have hs2 : curHalf s2 i = curHalf s i := curHalf_congr (halfBits_wr _ _ (by simp [Reg.recSetstat, Reg.recSetprec]))
    show curHalf (if _ then _ else _) i = _
    split
    · exact hs2
    · refine Eq.trans ?_ hs2
      rw [curHalf, Chip.rdF, Chip.wrBit, Chip.rd_wr_self, fld_setBit _ _ (by decide) (.inl (by decide))]
      rfl
  have hcur4 : curHalf s4 i = curHalf s3 i := curHalf_congr ((Records.refl True s3 hi).putTrig.halves trivial)
  exact ⟨halfState_setHalf_self _ _ _ hk, (curHalf_setHalf _ _ hk).trans (hcur4.trans hcur3)⟩

/-- A fire at a half in FILL leaves it in POST, or in DONE where POST is 0 (R501). -/
theorem fireRegion_half (hi : i < 64) (hon : bit (setCfg s i) 0 = true) (hreg : bit (setCfg s i) 14 = true) (hstage : s.stage < 4)
    (hcap : capMode s i = true) (hfill : halfState s i (curHalf s i) = 1) (unit tick phase : Nat) :
    (fireRegion s i unit tick phase).2 = true ∧
      halfState (fireRegion s i unit tick phase).1 i (curHalf s i) = if (recSt s i).goal = 0 then 3 else 2 := by
  obtain ⟨hpost, hcur⟩ := triggered_halves s hi unit tick phase
  rw [fireRegion_fills hon hreg hstage hcap hfill]
  refine ⟨rfl, ?_⟩
  dsimp only
  split
  · rw [← hcur]
    exact halfState_enterDone ..
  · exact hpost

/-- A fire as the region and the stream of the set have met it (R509). -/
def fireMet (s : Chip) (i unit tick phase : Nat) : Chip × Bool :=
  let r := fireRegion (s.bump (Reg.ldgTrgin i)) i unit tick phase
  let q := fireStream r.1 i unit tick phase (recSt (s.bump (Reg.ldgTrgin i)) i).pre
  (q.1, r.2 || q.2)

/-- A fire that acted is counted as acted, another as missed (R509, 19 R847). -/
theorem fireSet_eq (s : Chip) (i unit tick phase : Nat) : fireSet s i unit tick phase =
    if (fireMet s i unit tick phase).2 then ((fireMet s i unit tick phase).1.bump (Reg.ldgTrgact i), true)
    else ((((fireMet s i unit tick phase).1.bump (Reg.recLmisstrg i)).wr Reg.recMtrglast
      (wn (i * 2 ^ 24 + unit % 32 * 2 ^ 16 + tick % 65536))).setFlag i 1, false) := rfl

theorem fireMet_records (s : Chip) (hi : i < 64) (unit tick phase : Nat) :
    Records False i (s.bump (Reg.ldgTrgin i)) (fireMet s i unit tick phase).1 :=
  (Records.refl _ _ hi).fireRegion.fireStream

/-- Each fire at a set is counted once, and once more as acted or as missed (19 R847). -/
theorem fireSet_counts (s : Chip) (hi : i < 64) (unit tick phase : Nat) :
    (fireSet s i unit tick phase).1.rd (Reg.ldgTrgin i) = s.rd (Reg.ldgTrgin i) + 1 ∧
      (fireSet s i unit tick phase).1.rd (Reg.ldgTrgact i) = (if (fireMet s i unit tick phase).2 then s.rd (Reg.ldgTrgact i) + 1
        else s.rd (Reg.ldgTrgact i)) ∧
      (fireSet s i unit tick phase).1.rd (Reg.recLmisstrg i) = (if (fireMet s i unit tick phase).2 then s.rd (Reg.recLmisstrg i)
        else s.rd (Reg.recLmisstrg i) + 1) := by
  have hmet := fireMet_records s hi unit tick phase
  have hin : (fireMet s i unit tick phase).1.rd (Reg.ldgTrgin i) = s.rd (Reg.ldgTrgin i) + 1 :=
    (hmet.rd (by unfold BesideRecords Reg.ldgTrgin; omega)).trans (Chip.rd_bump ..)
  have hact : (fireMet s i unit tick phase).1.rd (Reg.ldgTrgact i) = s.rd (Reg.ldgTrgact i) :=
    (hmet.rd (by unfold BesideRecords Reg.ldgTrgact; omega)).trans (Chip.rd_bump_ne _ (by unfold Reg.ldgTrgact Reg.ldgTrgin; omega))
  have hmiss : (fireMet s i unit tick phase).1.rd (Reg.recLmisstrg i) = s.rd (Reg.recLmisstrg i) :=
    (hmet.rd (by unfold BesideRecords Reg.recLmisstrg; omega)).trans (Chip.rd_bump_ne _ (by unfold Reg.recLmisstrg Reg.ldgTrgin; omega))
  rw [fireSet_eq]
  split
  · refine ⟨(Chip.rd_bump_ne _ ?_).trans hin, (Chip.rd_bump ..).trans (congrArg (· + 1) hact), (Chip.rd_bump_ne _ ?_).trans hmiss⟩
    · unfold Reg.ldgTrgact Reg.ldgTrgin
      omega
    · unfold Reg.ldgTrgact Reg.recLmisstrg
      omega
  · have hkept : ∀ a, 0x10B03000 ≤ a → ∀ (z : Chip) (w : Word), ((z.wr Reg.recMtrglast w).setFlag i 1).rd a = z.rd a := fun a ha z w =>
      (rd_setFlag_ne _ (by unfold Reg.recSetstat; omega)).trans (Chip.rd_wr_ne _ _ (by unfold Reg.recMtrglast; omega))
    obtain ⟨hinmiss, hactmiss⟩ : Reg.ldgTrgin i ≠ Reg.recLmisstrg i ∧ Reg.ldgTrgact i ≠ Reg.recLmisstrg i := by
      simp only [Reg.ldgTrgin, Reg.ldgTrgact, Reg.recLmisstrg]
      omega
    refine ⟨?_, ?_, ?_⟩
    · rw [hkept _ (by unfold Reg.ldgTrgin; omega), Chip.rd_bump_ne _ hinmiss, hin]
    · rw [hkept _ (by unfold Reg.ldgTrgact; omega), Chip.rd_bump_ne _ hactmiss, hact]
    · rw [hkept _ (by unfold Reg.recLmisstrg; omega), Chip.rd_bump, hmiss]

/-- A software trigger of a set whose half is in FILL acts (R501, R509). -/
theorem fireSet_fills (hi : i < 64) (hon : bit (setCfg s i) 0 = true) (hreg : bit (setCfg s i) 14 = true) (hstage : s.stage < 4)
    (hcap : capMode s i = true) (hfill : halfState s i (curHalf s i) = 1) (unit tick phase : Nat) :
    (fireSet s i unit tick phase).1.rd (Reg.ldgTrgact i) = s.rd (Reg.ldgTrgact i) + 1 ∧
      halfState (fireSet s i unit tick phase).1 i (curHalf s i) = if (recSt s i).goal = 0 then 3 else 2 := by
  have hword : ∀ a, a < 0x11100000 → (s.bump (Reg.ldgTrgin i)).rd a = s.rd a := fun a ha =>
    Chip.rd_bump_ne _ (by unfold Reg.ldgTrgin; omega)
  have hcfg : setCfg (s.bump (Reg.ldgTrgin i)) i = setCfg s i := hword _ (by unfold Reg.recSetcfg; omega)
  have hstat : (s.bump (Reg.ldgTrgin i)).rd (Reg.recSetstat i) = s.rd (Reg.recSetstat i) := hword _ (by unfold Reg.recSetstat; omega)
  have hstage' : (s.bump (Reg.ldgTrgin i)).stage < 4 := by rwa [Chip.stage, Chip.rdF, hword _ (by decide)]
  have hcap' : capMode (s.bump (Reg.ldgTrgin i)) i = true := by rwa [capMode, Chip.rdF, hword _ (by unfold Reg.recSetrs; omega)]
  have hcur : curHalf (s.bump (Reg.ldgTrgin i)) i = curHalf s i := by rw [curHalf, Chip.rdF, hstat, curHalf, Chip.rdF]
  have hfill' : halfState (s.bump (Reg.ldgTrgin i)) i (curHalf (s.bump (Reg.ldgTrgin i)) i) = 1 := by
    rwa [hcur, halfState, Chip.rdF, hstat]
  obtain ⟨hacts, hhalf⟩ := fireRegion_half hi (hcfg ▸ hon) (hcfg ▸ hreg) hstage' hcap' hfill' unit tick phase
  have hmet : (fireMet s i unit tick phase).2 = true := Bool.or_eq_true_iff.2 (.inl hacts)
  refine ⟨by rw [(fireSet_counts s hi unit tick phase).2.1, if_pos hmet], ?_⟩
  have hstream : halfState (fireMet s i unit tick phase).1 i (curHalf s i) = if (recSt s i).goal = 0 then 3 else 2 :=
    (halfState_congr ((Records.refl True _ hi).fireStream.halves trivial) (curHalf_lt s i)).trans (hcur ▸ hhalf)
  rw [fireSet_eq, if_pos hmet, ← hstream]
  exact halfState_congr (halfBits_wr _ _ (by unfold Reg.recSetstat Reg.ldgTrgact; omega)) (curHalf_lt s i)

end Fire

/-! ### What a fire leaves of the units -/

/-- From `s` on, `x` has kept the words of the trigger units, and the notes it had. -/
structure UnitsKept (s x : Chip) : Prop where
  words : ∀ a, 0x10B02000 ≤ a → a < 0x10B03000 → x.rd a = s.rd a
  notes : s.notes <+: x.notes

theorem UnitsKept.trans {s x y : Chip} (h : UnitsKept s x) (h' : UnitsKept x y) : UnitsKept s y :=
  ⟨fun a hlo hhi => (h'.words a hlo hhi).trans (h.words a hlo hhi), h.notes.trans h'.notes⟩

theorem UnitsKept.refl (s : Chip) : UnitsKept s s := ⟨fun _ _ _ => rfl, List.prefix_refl _⟩

/-- A word of the sets or of the ledger is written. -/
theorem UnitsKept.wr (s : Chip) {a : Nat} (w : Word) (ha : a < 0x10B02000 ∨ 0x10B03000 ≤ a) : UnitsKept s (s.wr a w) :=
  ⟨fun _ _ _ => Chip.rd_wr_ne _ _ (by omega), List.prefix_refl _⟩

theorem Records.unitsKept {p : Prop} {i : Nat} {s x : Chip} (h : Records p i s x) : UnitsKept s x :=
  ⟨fun _ hlo hhi => h.rd (.inr (.inl ⟨hlo, hhi⟩)), h.notes⟩

theorem fireSet_unitsKept (s : Chip) {i : Nat} (hi : i < 64) (unit tick phase : Nat) : UnitsKept s (fireSet s i unit tick phase).1 := by
  have hmet : UnitsKept s (fireMet s i unit tick phase).1 :=
    (UnitsKept.wr s _ (.inr (by unfold Reg.ldgTrgin; omega))).trans (fireMet_records s hi unit tick phase).unitsKept
  rw [fireSet_eq]
  split
  · exact hmet.trans (.wr _ _ (.inr (by unfold Reg.ldgTrgact; omega)))
  · exact ((hmet.trans (.wr _ _ (.inr (by unfold Reg.recLmisstrg; omega)))).trans (.wr _ _ (.inl (by decide)))).trans
      ((Records.refl True _ hi).setFlag (by decide)).unitsKept

/-! ### A unit fires -/

section Unit
variable {s x : Chip} {u : Nat}

/-- The fires of a unit at its targets, and whether one acted (R508, R527). -/
def shots (s : Chip) (u tick phase : Nat) (targets : List Nat) : Chip × Bool :=
  targets.foldl (fun acc i => ((fireSet acc.1 i u tick phase).1, acc.2 || (fireSet acc.1 i u tick phase).2)) (s, false)

theorem shots_unitsKept (s : Chip) (u tick phase : Nat) {targets : List Nat} (h : ∀ i ∈ targets, i < 64) :
    UnitsKept s (shots s u tick phase targets).1 :=
  List.foldlRecOn (motive := fun acc : Chip × Bool => UnitsKept s acc.1) _ _ (.refl s) fun acc hacc i hi =>
    hacc.trans (fireSet_unitsKept acc.1 (h i hi) u tick phase)

/-- A unit's fire counted and stamped, and its event raised (R508). -/
def unitStamped (s : Chip) (u tick phase : Nat) : Chip :=
  (((s.bump (Reg.recTrgfirecnt u)).wr (Reg.recTrglastt u) (wn tick)).wr (Reg.recTrglastp u) (wn phase)).raise (448 + u)

/-- The units whose QUALU is `u` have seen it fire (R505). -/
def qualified (s : Chip) (u : Nat) : Chip :=
  allUnits.foldl (fun y v => if y.rdF (Reg.recTrgcfg v) 28 24 = u then y.wrBit (Reg.recTrgstat v) 2 true else y) s

/-- A unit that has fired at its targets: counted as unused where none acted (R508). -/
def unitShot (s : Chip) (u tick phase : Nat) : Chip :=
  let r := shots (unitStamped s u tick phase) u tick phase (trgTargets s u)
  if r.2 then r.1 else r.1.bump (Reg.recTrgunused u)

/-- A fired unit's further state: fired in this tick, with a re-arm to come under REPEAT (R508). -/
def unitAfter (s x : Chip) (u tick phase : Nat) : TrigUnit :=
  { trgSt s u with
    fired := some tick
    rearm := if x.rdBit (Reg.recTrgcfg u) 21 then some (rearmAt tick phase (x.rdF (Reg.recTrghold u) 15 0)) else none }

theorem trgTargets_congr (hlo : x.rd (Reg.recTrgtgtlo u) = s.rd (Reg.recTrgtgtlo u)) (hhi : x.rd (Reg.recTrgtgthi u) = s.rd (Reg.recTrgtgthi u)) :
    trgTargets x u = trgTargets s u := by
  simp only [trgTargets, Chip.rdBit, hlo, hhi]

theorem trgTargets_lt {i : Nat} (h : i ∈ trgTargets s u) : i < 64 := List.mem_range.1 (List.mem_filter.1 h).1

/-- The words that a fire stamps (R529). -/
theorem unitStamped_rd (s : Chip) (u tick phase : Nat) {a : Nat} (h : a % 64 < 0x28 ∨ 0x31 ≤ a % 64) :
    (unitStamped s u tick phase).rd a = s.rd a := by
  have hne : a ≠ Reg.recTrgfirecnt u ∧ a ≠ Reg.recTrglastt u ∧ a ≠ Reg.recTrglastp u := by
    unfold Reg.recTrgfirecnt Reg.recTrglastt Reg.recTrglastp
    omega
  exact (Chip.rd_wr_ne _ _ hne.2.2).trans ((Chip.rd_wr_ne _ _ hne.2.1).trans (Chip.rd_bump_ne _ hne.1))

theorem fireUnit_eq {tick phase : Nat} (h : (trgSt s u).fired ≠ some tick) : fireUnit s u tick phase =
    qualified (setTrg ((unitShot s u tick phase).wrBit (Reg.recTrgstat u) 0 false) u
      (unitAfter s (unitShot s u tick phase) u tick phase)) u := by
  have htargets : trgTargets (unitStamped s u tick phase) u = trgTargets s u :=
    trgTargets_congr (unitStamped_rd _ _ _ _ (by unfold Reg.recTrgtgtlo; omega)) (unitStamped_rd _ _ _ _ (by unfold Reg.recTrgtgthi; omega))
  unfold fireUnit unitShot
  rw [if_neg h, ← htargets]
  rfl

/-- A unit's qualification writes TRG_STAT words alone, and there QUALU's bit (R505, R529). -/
theorem qualified_rd (s : Chip) (u : Nat) {a : Nat} (h : a % 64 ≠ 0x24) : (qualified s u).rd a = s.rd a :=
  foldl_keeps (fun z => z.rd a) (fun z v => by
    have hne : a ≠ Reg.recTrgstat v := by
      unfold Reg.recTrgstat
      omega
    split
    · exact Chip.rd_wr_ne _ _ hne
    · rfl) _ _

theorem qualified_armed (s : Chip) (u v : Nat) : (qualified s u).rdBit (Reg.recTrgstat v) 0 = s.rdBit (Reg.recTrgstat v) 0 :=
  foldl_keeps (fun z => z.rdBit (Reg.recTrgstat v) 0) (fun z w => by
    split
    · by_cases hw : Reg.recTrgstat v = Reg.recTrgstat w
      · rw [hw]
        exact Chip.rdBit_wrBit_bit _ _ true (by decide) (by decide)
      · exact Chip.rdBit_wrBit_ne _ _ _ true hw
    · rfl) _ _

theorem qualified_rest (s : Chip) (u : Nat) : (qualified s u).recd = s.recd ∧ (qualified s u).notes = s.notes :=
  ⟨foldl_keeps Chip.recd (fun _ _ => by split <;> rfl) _ _, foldl_keeps Chip.notes (fun _ _ => by split <;> rfl) _ _⟩

/-- Its fires leave a unit's words as it has stamped them, but for UNUSED. -/
theorem unitShot_rd (s : Chip) (u tick phase : Nat) {a : Nat} (hlo : 0x10B02000 ≤ a) (hhi : a < 0x10B03000) (h : a % 64 ≠ 0x34) :
    (unitShot s u tick phase).rd a = (unitStamped s u tick phase).rd a := by
  have hkept := (shots_unitsKept (unitStamped s u tick phase) u tick phase fun i => trgTargets_lt (s := s) (u := u)).words a hlo hhi
  unfold unitShot
  extract_lets r
  split
  · exact hkept
  · refine (Chip.rd_bump_ne _ ?_).trans hkept
    unfold Reg.recTrgunused
    omega

theorem fireUnit_rd {tick phase : Nat} (hf : (trgSt s u).fired ≠ some tick) {a : Nat} (hlo : 0x10B02000 ≤ a) (hhi : a < 0x10B03000)
    (h : a % 64 ≠ 0x24 ∧ a % 64 ≠ 0x34) : (fireUnit s u tick phase).rd a = (unitStamped s u tick phase).rd a := by
  have hne : a ≠ Reg.recTrgstat u := by
    unfold Reg.recTrgstat
    omega
  rw [fireUnit_eq hf, qualified_rd _ _ h.1, ← unitShot_rd s u tick phase hlo hhi h.2]
  exact Chip.rd_wr_ne _ _ hne

/-- A unit is not armed after its fire (R508). -/
theorem fireUnit_disarmed {tick phase : Nat} (hf : (trgSt s u).fired ≠ some tick) :
    (fireUnit s u tick phase).rdBit (Reg.recTrgstat u) 0 = false := by
  rw [fireUnit_eq hf, qualified_armed]
  exact Chip.rdBit_wrBit_self _ _ false (by decide)

theorem fireUnit_notes {tick phase : Nat} (hf : (trgSt s u).fired ≠ some tick) : .event (448 + u) ∈ (fireUnit s u tick phase).notes := by
  have hraised : .event (448 + u) ∈ (unitStamped s u tick phase).notes := List.mem_append_right _ (List.mem_singleton_self _)
  have hshots := (shots_unitsKept (unitStamped s u tick phase) u tick phase fun i => trgTargets_lt (s := s) (u := u)).notes
  rw [fireUnit_eq hf, (qualified_rest _ _).2]
  show _ ∈ (unitShot s u tick phase).notes
  unfold unitShot
  extract_lets r
  split <;> exact hshots.subset hraised

theorem trgSt_setTrg (s : Chip) (u : Nat) (x : TrigUnit) : trgSt (setTrg s u x) u = x := Tab.get_set_self ..

theorem trgSt_setTrg_ne (s : Chip) {u v : Nat} (x : TrigUnit) (h : v ≠ u) : trgSt (setTrg s u x) v = trgSt s v := Tab.get_set_ne _ _ _ _ h

theorem trgSt_congr (h : x.recd.trig = s.recd.trig) (v : Nat) : trgSt x v = trgSt s v := by
  rw [trgSt, h]
  rfl

/-- The further state of a unit that has fired is that by its words as they stood (R508). -/
theorem trgSt_fireUnit {tick phase : Nat} (hu : u < 32) (hf : (trgSt s u).fired ≠ some tick) :
    trgSt (fireUnit s u tick phase) u = unitAfter s s u tick phase := by
  have hword : ∀ a, 0x10B02000 ≤ a → a < 0x10B03000 → a % 64 < 0x28 → (unitShot s u tick phase).rd a = s.rd a := fun a hlo hhi hmod =>
    (unitShot_rd s u tick phase hlo hhi (by omega)).trans (unitStamped_rd _ _ _ _ (.inl hmod))
  have hcfg : (unitShot s u tick phase).rd (Reg.recTrgcfg u) = s.rd (Reg.recTrgcfg u) := by
    apply hword <;> unfold Reg.recTrgcfg <;> omega
  have hhold : (unitShot s u tick phase).rd (Reg.recTrghold u) = s.rd (Reg.recTrghold u) := by
    apply hword <;> unfold Reg.recTrghold <;> omega
  rw [fireUnit_eq hf, trgSt_congr (congrArg Recorder.trig (qualified_rest _ _).1), trgSt_setTrg]
  rw [unitAfter, Chip.rdBit, Chip.rdF, hcfg, hhold]
  rfl

/-- A unit with no target set is counted as unused, and no set has changed (R508). -/
theorem fireUnit_untargeted {tick phase : Nat} (hf : (trgSt s u).fired ≠ some tick) (h : trgTargets s u = []) :
    (fireUnit s u tick phase).rd (Reg.recTrgunused u) = s.rd (Reg.recTrgunused u) + 1 ∧
      (fireUnit s u tick phase).recd.sets = s.recd.sets := by
  have hshot : unitShot s u tick phase = (unitStamped s u tick phase).bump (Reg.recTrgunused u) := by
    unfold unitShot
    rw [h]
    rfl
  rw [fireUnit_eq hf, (qualified_rest _ _).1, qualified_rd _ _ (by unfold Reg.recTrgunused; omega), hshot]
  refine ⟨(Chip.rd_wr_ne _ _ ?_).trans ((Chip.rd_bump ..).trans (congrArg (· + 1) (unitStamped_rd _ _ _ _ ?_))), rfl⟩
  · unfold Reg.recTrgunused Reg.recTrgstat
    omega
  · unfold Reg.recTrgunused
    omega

theorem fireUnit_fired {tick : Nat} (h : (trgSt s u).fired = some tick) (phase : Nat) : fireUnit s u tick phase = s := if_pos h

/-! ### Arming a unit -/

/-- A unit armed: its qualification not yet seen, no re-arm to come (R505, R508). -/
def unitArmed (s : Chip) (u : Nat) (x : TrigUnit) : Chip :=
  setTrg ((s.wrBit (Reg.recTrgstat u) 0 true).wrBit (Reg.recTrgstat u) 2 false) u { x with rearm := none }

theorem unitArmed_stat (s : Chip) (u : Nat) (x : TrigUnit) : (unitArmed s u x).rdBit (Reg.recTrgstat u) 0 = true ∧
    (unitArmed s u x).rdBit (Reg.recTrgstat u) 2 = false ∧ (trgSt (unitArmed s u x) u).rearm = none ∧
    KeepsRegsBut [Reg.recTrgstat u] s (unitArmed s u x) ∧ ∀ v, v ≠ u → trgSt (unitArmed s u x) v = trgSt s v := by
  refine ⟨?_, Chip.rdBit_wrBit_self _ _ false (by decide), congrArg TrigUnit.rearm (trgSt_setTrg ..), ?_, fun v hv => trgSt_setTrg_ne _ _ hv⟩
  · exact (Chip.rdBit_wrBit_bit _ _ false (by decide) (by decide)).trans (Chip.rdBit_wrBit_self _ _ true (by decide))
  · exact (((KeepsRegsBut.refl _ s).wr (List.mem_singleton_self _)).wr (List.mem_singleton_self _)).same rfl

/-- ARM of a unit takes an edge of its condition only from what comes after it (R505). -/
theorem armUnit_eq (s : Chip) (u : Nat) : ∃ r, armUnit s u = unitArmed s u r :=
  ⟨{ trgSt s u with prev := if trgCond (armUnit s u) u = 3 then none else (trgSt s u).prev }, rfl⟩

theorem disarmUnit_stat (s : Chip) (u : Nat) : (disarmUnit s u).rdBit (Reg.recTrgstat u) 0 = false ∧ (trgSt (disarmUnit s u) u).rearm = none ∧
    KeepsRegsBut [Reg.recTrgstat u] s (disarmUnit s u) ∧ ∀ v, v ≠ u → trgSt (disarmUnit s u) v = trgSt s v :=
  ⟨Chip.rdBit_wrBit_self _ _ false (by decide), congrArg TrigUnit.rearm (trgSt_setTrg ..),
    ((KeepsRegsBut.refl _ s).wr (List.mem_singleton_self _)).same rfl, fun _ hv => trgSt_setTrg_ne _ _ hv⟩

/-- A re-arm is due: its stamp is reached, or past by less than half of TICK's range (R508, notes/assumptions/84.md). -/
def RearmDue (s : Chip) (t : Nat × Nat) : Prop :=
  tickSince s.tb.tick t.1 < 2 ^ 47 ∧ (tickSince s.tb.tick t.1 ≠ 0 ∨ t.2 ≤ s.tb.phase)

theorem rearmUnit_due {t : Nat × Nat} (h : (trgSt s u).rearm = some t) (hdue : RearmDue s t) :
    rearmUnit s u = unitArmed s u (trgSt s u) := by
  unfold rearmUnit
  rw [h]
  exact if_pos hdue

theorem rearmUnit_notDue (h : ∀ t, (trgSt s u).rearm = some t → ¬ RearmDue s t) : rearmUnit s u = s := by
  unfold rearmUnit
  split
  · rfl
  · next t ht => exact if_neg (h t ht)

end Unit

/-! ### The commands of a unit -/

section Commands
variable {who : Agent} {st : State} {u : Fin 32}

theorem exec_trgArm (who : Agent) (u : Fin 32) (st : State) :
    exec (.trgArm who u) st = finish st (fun s => regCmd s who (Reg.recTrgcmd u.val) 1) := rfl
theorem exec_trgDisarm (who : Agent) (u : Fin 32) (st : State) :
    exec (.trgDisarm who u) st = finish st (fun s => regCmd s who (Reg.recTrgcmd u.val) 2) := rfl
theorem exec_trgFire (who : Agent) (u : Fin 32) (st : State) :
    exec (.trgFire who u) st = finish st (fun s => regCmd s who (Reg.recTrgcmd u.val) 4) := rfl
theorem exec_triggerRearm (u : Fin 32) (st : State) : exec (.triggerRearm u) st = finish st (fun s => rearmUnit s u.val) := rfl

/-- Each command of a unit does what its bit says (R528). -/
theorem exec_trgCommands (hm : MayWrite st.chip who (Reg.recTrgcmd u.val)) :
    exec (.trgArm who u) st = .next { st with chip := settle (armUnit st.chip u.val) } ∧
      exec (.trgDisarm who u) st = .next { st with chip := settle (disarmUnit st.chip u.val) } ∧
      exec (.trgFire who u) st = .next { st with chip := settle (fireUnit st.chip u.val st.chip.tb.tick st.chip.phaseRead) } := by
  rw [exec_trgArm, exec_trgDisarm, exec_trgFire, finish_eq, finish_eq, finish_eq, regCmd_trgCmd hm, regCmd_trgCmd hm, regCmd_trgCmd hm]
  exact ⟨rfl, rfl, rfl⟩

end Commands
end Sys2Proof.Machine
end

section
/-!
PROOFS of the recorder (11). The statement about capture sets and triggers.
-/

namespace Sys2Proof.Machine

/-! ### What a fire does, in the statement's words -/

/-- A fire of a unit that has not fired in this tick (R508, R527). -/
theorem fireUnit_fires {s : Chip} {u tick phase : Nat} (hu : u < 32) (hf : (trgSt s u).fired ≠ some tick) :
    let x := fireUnit s u tick phase
    x.rd (Reg.recTrgfirecnt u) = s.rd (Reg.recTrgfirecnt u) + 1 ∧ x.rd (Reg.recTrglastt u) = wn tick ∧
      x.rd (Reg.recTrglastp u) = wn phase ∧ .event (448 + u) ∈ x.notes ∧ x.rdBit (Reg.recTrgstat u) 0 = false ∧
      trgSt x u = unitAfter s s u tick phase := by
  intro x
  have hcnt : x.rd (Reg.recTrgfirecnt u) = _ := fireUnit_rd hf (by unfold Reg.recTrgfirecnt; omega) (by unfold Reg.recTrgfirecnt; omega)
    (by unfold Reg.recTrgfirecnt; omega)
  have hlast : x.rd (Reg.recTrglastt u) = _ := fireUnit_rd hf (by unfold Reg.recTrglastt; omega) (by unfold Reg.recTrglastt; omega)
    (by unfold Reg.recTrglastt; omega)
  have hphase : x.rd (Reg.recTrglastp u) = _ := fireUnit_rd hf (by unfold Reg.recTrglastp; omega) (by unfold Reg.recTrglastp; omega)
    (by unfold Reg.recTrglastp; omega)
  refine ⟨hcnt.trans ?_, hlast.trans ?_, hphase.trans (Chip.rd_wr_self ..), fireUnit_notes hf, fireUnit_disarmed hf, trgSt_fireUnit hu hf⟩
  · have hne : Reg.recTrgfirecnt u ≠ Reg.recTrglastp u ∧ Reg.recTrgfirecnt u ≠ Reg.recTrglastt u := by
      simp only [Reg.recTrgfirecnt, Reg.recTrglastp, Reg.recTrglastt]
      omega
    exact (Chip.rd_wr_ne _ _ hne.1).trans ((Chip.rd_wr_ne _ _ hne.2).trans (Chip.rd_bump ..))
  · have hne : Reg.recTrglastt u ≠ Reg.recTrglastp u := by
      simp only [Reg.recTrglastp, Reg.recTrglastt]
      omega
    exact (Chip.rd_wr_ne _ _ hne).trans (Chip.rd_wr_self ..)

/-- A software trigger is counted once, and once more as acted or as missed (R509, 19 R847). -/
theorem softTrigger_counts (s : Chip) {i : Nat} (hi : i < 64) :
    let x := softTrigger s i
    x.rd (Reg.ldgTrgin i) = s.rd (Reg.ldgTrgin i) + 1 ∧
      (x.rd (Reg.ldgTrgact i) - s.rd (Reg.ldgTrgact i)) + (x.rd (Reg.recLmisstrg i) - s.rd (Reg.recLmisstrg i)) = 1 := by
  intro x
  obtain ⟨hin, hact, hmiss⟩ := fireSet_counts s hi 0xFF s.tb.tick s.phaseRead
  have hone : ∀ a b : Word, a + 1 - a + (b - b) = 1 ∧ a - a + (b + 1 - b) = 1 := fun a b => by
    constructor <;> bv_omega
  refine ⟨hin, ?_⟩
  rw [show x.rd (Reg.ldgTrgact i) = _ from hact, show x.rd (Reg.recLmisstrg i) = _ from hmiss]
  split
  · exact (hone _ _).1
  · exact (hone _ _).2

/-- What ARM admits or sheds of a set that may be armed (R493, R497). -/
theorem armSet_counts {s : Chip} {i : Nat} (hi : i < 64) (h : MayArm s i) :
    let n := (armLead s i).length + 2
    let x := armSet s i
    (s.stage < 4 → s.recd.bytes + 16 * n ≤ 240000 →
      x.rd (Reg.recLissued i) = s.rd (Reg.recLissued i) + wn n ∧ waiting x = waiting s ++ armLead s i ++ armMarks s) ∧
    (4 ≤ s.stage ∨ 240000 < s.recd.bytes + 16 * n → x.rd (Reg.recLissued i) = s.rd (Reg.recLissued i) + 2 ∧
      x.rd (Reg.recLregshed i) = s.rd (Reg.recLregshed i) + 2 ∧ waiting x = waiting s) := by
  intro n x
  refine ⟨fun hstage hbytes => ?_, fun hshed => ?_⟩
  · rw [show x = _ from armSet_admitted hi h hstage hbytes, List.append_assoc]
    exact armAdmitted_counts s hi
  · obtain ⟨c, hc, heq⟩ := armSet_shed hi h hshed
    rw [show x = _ from heq]
    exact armShed_counts s hi hc

/-- Settles O35: each command of a set is brought to the operation of its bit, and each operation is taken apart by its case: ARM by what it
finds of the set, RELEASE by which halves are in DONE, a fire by whether region or stream acted. The units follow in the same way. -/
theorem captureSetsAndTriggers : Obligations.CaptureSetsAndTriggers := by
  refine ⟨fun s who j hm => ?_, fun s who u => ?_⟩
  · intro i h code t p lead waits
    have hi : i < 64 := j.isLt
    have hh : h < 2 := curHalf_lt s.chip i
    obtain ⟨harm, hrelease, hstop, htrig⟩ := exec_setCommands hm
    have hrefused : ∀ k, Still s.chip → armSet s.chip i = setRefuse s.chip i k → exec (.setArm who j) s = .next { s with chip := code k } :=
      fun k hs heq => by rw [harm, show armSet s.chip j.val = _ from heq, settle_still (setRefuse_still hs k)]; rfl
    refine ⟨fun hs hoff => hrefused 1 hs (armSet_off hoff), fun hs hon hno => ?_,
      fun hon hcap hreg => ⟨fun hs hbig => ?_, fun hs hpost hbusy => ?_, fun hpost hidle => ⟨_, harm, ?_⟩⟩,
      fun hcap hone hdone => ⟨_, hrelease, ?_⟩,
      fun htwo => ⟨fun hother hcur => ⟨_, hrelease, ?_⟩, fun hother hcur => ⟨_, hrelease, ?_⟩, fun hother hcur => ⟨_, hrelease, ?_⟩⟩,
      ⟨_, hstop, stopSet_halves s.chip i⟩, ⟨_, htrig, ?_⟩⟩
    · rw [harm, show armSet s.chip j.val = _ from armSet_noRegion hon hno, settle_still hs]
    · exact hrefused 3 hs (armSet_big hon hcap hreg hbig)
    · exact hrefused 7 hs (armSet_busy hon hcap hreg hpost hbusy)
    · have hmay : MayArm s.chip i := ⟨hon, hcap, hreg, hpost, hidle⟩
      have harmed := armSet_armed hi hmay
      exact ⟨harmed.cur, harmed.fill, harmed.goal, harmed.pre, harmed.whole, armSet_counts hi hmay⟩
    · have hfill : releaseSet s.chip j.val = startFill s.chip i 0 := releaseSet_single hcap hone hdone
      have hset := recSt_startFill s.chip i 0
      rw [hfill]
      exact ⟨halfState_startFill _ _ (by decide), curHalf_startFill _ _ (by decide), congrArg RecSet.pos hset,
        (congrArg RecSet.goal hset).trans rfl⟩
    · have hfill : releaseSet s.chip j.val = startFill s.chip i (1 - h) := releaseSet_both htwo hother hcur
      rw [hfill]
      exact ⟨curHalf_startFill _ _ (by omega), halfState_startFill _ _ (by omega),
        (halfState_startFill_ne _ _ (by omega) hh (by omega)).trans hcur⟩
    · have hidle : releaseSet s.chip j.val = setHalf s.chip i (1 - h) 0 := releaseSet_other htwo hother hcur
      rw [hidle]
      exact ⟨curHalf_setHalf _ _ (by omega), halfState_setHalf_self _ _ _ (by omega), halfState_setHalf_ne _ _ _ (by omega) (by omega)⟩
    · have hidle : releaseSet s.chip j.val = setHalf s.chip i h 0 := releaseSet_current htwo hother hcur
      rw [hidle]
      exact ⟨curHalf_setHalf _ _ hh, halfState_setHalf_self _ _ _ hh, halfState_setHalf_ne _ _ _ hh (by omega)⟩
    · obtain ⟨hin, hone⟩ := softTrigger_counts s.chip hi
      exact ⟨hin, hone, fun hon hreg hstage hcap hfill => fireSet_fills hi hon hreg hstage hcap hfill 0xFF t p⟩
  · intro stat
    refine ⟨fun hm => ?_, ?_⟩
    · obtain ⟨harm, hdisarm, hfire⟩ := exec_trgCommands hm
      refine ⟨⟨_, harm, ?_⟩, ⟨_, hdisarm, disarmUnit_stat s.chip u.val⟩, fun hf => ⟨_, hfire, ?_⟩, fun hs hf => ?_⟩
      · obtain ⟨r, heq⟩ := armUnit_eq s.chip u.val
        rw [heq]
        exact unitArmed_stat s.chip u.val r
      · obtain ⟨hcnt, hlast, hphase, hevent, hdisarmed, hafter⟩ := fireUnit_fires (phase := s.chip.phaseRead) u.isLt hf
        refine ⟨hcnt, hlast, hphase, hevent, hdisarmed, ?_, fun hrepeat => ?_, fun hrepeat => ?_, fireUnit_untargeted hf⟩
        · rw [hafter]
          rfl
        · rw [hafter, unitAfter, hrepeat]
          rfl
        · rw [hafter, unitAfter, hrepeat]
          rfl
      · rw [hfire, fireUnit_fired hf, settle_still hs]
    · intro due
      refine ⟨fun t ht hdue => ⟨_, (exec_triggerRearm ..).trans (finish_eq ..), ?_⟩, fun hs hno => ?_⟩
      · rw [rearmUnit_due ht hdue]
        obtain ⟨harmed, hqual, hrearm, hregs, -⟩ := unitArmed_stat s.chip u.val (trgSt s.chip u.val)
        exact ⟨harmed, hqual, hrearm, hregs⟩
      · rw [exec_triggerRearm, finish_eq, rearmUnit_notDue hno, settle_still hs]

end Sys2Proof.Machine
end

section
/-!
PROOFS of the recorder (11). EN of a recording set: the check of an enable, the ceilings, and what a set that is turned on starts with.
-/

namespace Sys2Proof.Machine

/-! ### A running fill brought up to now -/

section FillRuns
variable (s : Chip)

theorem fillWords_rest (a n pat : Nat) : (fillWords s a n pat).recd = s.recd ∧ KeepsRegsBut [Reg.memFilldoneb] s (fillWords s a n pat) := by
  have hsame : (clearChecks (touchWords (s.fillMem a n pat) a n) a n).recd = s.recd ∧
      (clearChecks (touchWords (s.fillMem a n pat) a n) a n).regs = s.regs := by
    unfold clearChecks
    split <;> exact ⟨rfl, rfl⟩
  exact ⟨hsame.1, ((KeepsRegsBut.refl _ s).same hsame.2).wr (List.mem_singleton_self _)⟩

/-- A running fill writes no register but its count of bytes, and nothing of the recorder (R605). -/
theorem advanceFill_rest : (advanceFill s).recd = s.recd ∧ KeepsRegsBut [Reg.memFilldoneb] s (advanceFill s) := by
  unfold advanceFill
  split
  · exact ⟨rfl, .refl _ _⟩
  · next a n pat t _ =>
    extract_lets k s1
    obtain ⟨hrecd, hregs⟩ := fillWords_rest s a k pat
    split
    · exact ⟨rfl, .refl _ _⟩
    · exact ⟨hrecd, hregs.same rfl⟩

end FillRuns

/-! ### The check of an enable -/

section Check
variable {s x : Chip} {i : Nat}

/-- `x` has the setup of set `i` as `s` has it, but for EN. -/
structure SetupAs (i : Nat) (s x : Chip) : Prop where
  bits : ∀ b, b ≠ 0 → b ≤ 31 → bit (setCfg x i) b = bit (setCfg s i) b
  slo : x.rd (Reg.recSetslo i) = s.rd (Reg.recSetslo i)
  shi : x.rd (Reg.recSetshi i) = s.rd (Reg.recSetshi i)
  chg : x.rd (Reg.recSetchg i) = s.rd (Reg.recSetchg i)
  red : x.rd (Reg.recSetred i) = s.rd (Reg.recSetred i)
  rs : x.rd (Reg.recSetrs i) = s.rd (Reg.recSetrs i)
  store : x.store = s.store
  ewn : x.ewn = s.ewn

theorem SetupAs.setCeil (h : SetupAs i s x) : setCeil x i = setCeil s i := by
  obtain ⟨hbits, hslo, hshi, hchg, hred, -, hstore, hewn⟩ := h
  simp only [Machine.setCeil, sidsOf, chansOf, cmax, redWindow, Chip.rdF, hslo, hshi, hchg, hred, hstore, hewn, hbits 2 (by decide) (by decide),
    hbits 3 (by decide) (by decide), hbits 4 (by decide) (by decide), hbits 5 (by decide) (by decide), hbits 7 (by decide) (by decide),
    hbits 8 (by decide) (by decide), hbits 9 (by decide) (by decide), hbits 10 (by decide) (by decide)]
  rfl

theorem SetupAs.capMode (h : SetupAs i s x) : capMode x i = capMode s i := by rw [Machine.capMode, Chip.rdF, h.rs]; rfl

theorem SetupAs.nrec (h : SetupAs i s x) : nrec x i = nrec s i := by
  obtain ⟨hbits, hslo, hshi, -, -, hrs, hstore, -⟩ := h
  simp only [Machine.nrec, rmax, halfBytes, pingpong, Machine.capMode, Chip.rdF, Chip.rdBit, hslo, hshi, hrs, hstore, hbits 2 (by decide) (by decide),
    hbits 3 (by decide) (by decide), hbits 5 (by decide) (by decide), hbits 7 (by decide) (by decide), hbits 8 (by decide) (by decide),
    hbits 9 (by decide) (by decide)]
  rfl

/-- The sum of the ceilings goes by the setup of the sets that are in it (R492). -/
theorem ceilSum_congr {b : Nat} {more also : List Nat} (hb : b ≠ 0) (hb31 : b ≤ 31) (h : ∀ k < 64, SetupAs k s x)
    (hin : ∀ k < 64, (bit (setCfg x k) 0 || more.contains k) = (bit (setCfg s k) 0 || also.contains k)) :
    ceilSum x b more = ceilSum s b also := by
  have hsets : (List.range 64).filter (fun k => (bit (setCfg x k) 0 || more.contains k) && bit (setCfg x k) b) =
      (List.range 64).filter (fun k => (bit (setCfg s k) 0 || also.contains k) && bit (setCfg s k) b) :=
    List.filter_congr fun k hk => by rw [hin k (List.mem_range.1 hk), (h k (List.mem_range.1 hk)).bits b hb hb31]
  unfold ceilSum
  rw [hsets]
  exact List.foldl_ext _ _ _ fun n k hk => by rw [(h k (List.mem_range.1 (List.mem_filter.1 hk).1)).setCeil]

theorem enableSetCheck_congr (hr : ∀ a, 0x10B01000 ≤ a → x.rd a = s.rd a) (hstore : x.store = s.store) (hewn : x.ewn = s.ewn) :
    enableSetCheck x i = enableSetCheck s i := by
  have hcfg : ∀ k, setCfg x k = setCfg s k := fun k => hr _ (by unfold Reg.recSetcfg; omega)
  have hslo : ∀ k, x.rd (Reg.recSetslo k) = s.rd (Reg.recSetslo k) := fun k => hr _ (by unfold Reg.recSetslo; omega)
  have hshi : ∀ k, x.rd (Reg.recSetshi k) = s.rd (Reg.recSetshi k) := fun k => hr _ (by unfold Reg.recSetshi; omega)
  have hchg : ∀ k, x.rd (Reg.recSetchg k) = s.rd (Reg.recSetchg k) := fun k => hr _ (by unfold Reg.recSetchg; omega)
  have hred : ∀ k, x.rd (Reg.recSetred k) = s.rd (Reg.recSetred k) := fun k => hr _ (by unfold Reg.recSetred; omega)
  have hrb : ∀ k, x.rd (Reg.recSetrb k) = s.rd (Reg.recSetrb k) := fun k => hr _ (by unfold Reg.recSetrb; omega)
  have hrs : ∀ k, x.rd (Reg.recSetrs k) = s.rd (Reg.recSetrs k) := fun k => hr _ (by unfold Reg.recSetrs; omega)
  have hstr : x.rd (Reg.recStrcfg i) = s.rd (Reg.recStrcfg i) := hr _ (by unfold Reg.recStrcfg; omega)
  have hset : ∀ k, SetupAs k s x := fun k => ⟨fun _ _ _ => by rw [hcfg], hslo k, hshi k, hchg k, hred k, hrs k, hstore, hewn⟩
  have hceil : ∀ b, b ≠ 0 → b ≤ 31 → ceilSum x b [i] = ceilSum s b [i] := fun b hb hb31 =>
    ceilSum_congr hb hb31 (fun k _ => hset k) fun k _ => by rw [hcfg]
  have hmem : memoryBad x i = memoryBad s i := by
    simp only [memoryBad, allotBad, inSet, rangeSize, Chip.rdF, hcfg, hslo, hshi, hchg, hred]
    rfl
  simp only [enableSetCheck, enabledSets, Chip.rdF, Chip.rdBit, hcfg, hslo, hshi, hrb, hrs, hstr, hmem, hceil 14 (by decide) (by decide),
    hceil 15 (by decide) (by decide)]
  rfl

theorem enableSetCheck_lt (s : Chip) (i : Nat) : enableSetCheck s i < 16 := by
  unfold enableSetCheck
  extract_lets c size others sz
  split_ifs <;> decide

/-- A set whose check passes stands within the ceilings of both destinations (R492). -/
theorem ceilSum_of_check (h : enableSetCheck s i = 0) : ceilSum s 14 [i] ≤ 240000 ∧ ceilSum s 15 [i] ≤ 120000 := by
  unfold enableSetCheck at h
  extract_lets c size others sz at h
  split_ifs at h with hrange hmem hceil
  all_goals exact ⟨by omega, by omega⟩

end Check

/-! ### A set turned on -/

/-- The registers that EN writes by itself: its word, the place of a region that begins anew, its stream's status, and the ceilings. -/
def enRegs (i : Nat) : List Nat :=
  [Reg.recSetcfg i, Reg.recSetpos i, Reg.recSetold i, Reg.recStrstat i, Reg.memFilldoneb, Reg.recDceil, Reg.recSceil]

/-- From `s` on, `x` has set `i` on, its window PARTIAL and a TIME record due; the rest of the sets' setup stands. -/
structure EnOn (i : Nat) (s x : Chip) : Prop where
  regs : KeepsRegsBut (enRegs i) s x
  cfg : setCfg x i = setBit (setCfg s i) 0 true
  sets : ∀ k, k ≠ i → recSt x k = recSt s k
  partW : (recSt x i).partW = true
  timeS : (recSt x i).timeS = none
  store : x.store = s.store
  ewn : x.ewn = s.ewn

section On
variable {s x : Chip} {i k : Nat}

/-- The set as it starts: what runs before the ceilings are summed (R480, R488, R513). -/
def setStarted (s : Chip) (i : Nat) : Chip :=
  let s1 := startSet ((advanceFill s).wrBit (Reg.recSetcfg i) 0 true) i
  if bit (setCfg s1 i) 15 then strRunning s1 i else s1

/-- A set whose check passes starts, its ceiling joins the sums, and AUTOARM arms it (R492, R497, R520). -/
theorem setEnable_on (hoff : bit (setCfg s i) 0 = false) (hcheck : enableSetCheck s i = 0) : setEnable s i true =
    if bit (setCfg (syncCeil (setStarted s i)) i) 1 then armSet (syncCeil (setStarted s i)) i else syncCeil (setStarted s i) := by
  unfold setEnable
  simp only [hoff, hcheck, Bool.false_beq, Bool.not_true, Bool.false_eq_true, if_false, ne_eq, not_true_eq_false]
  rfl

theorem setEnable_refused (hoff : bit (setCfg s i) 0 = false) (hcheck : enableSetCheck s i ≠ 0) :
    setEnable s i true = recRefuse s (enableSetCheck s i) (0x1000 + 0x40 * i) := by
  unfold setEnable
  simp only [hoff, hcheck, Bool.false_beq, Bool.not_true, Bool.false_eq_true, if_false, ne_eq, not_false_eq_true, if_true]

theorem setEnable_off (hon : bit (setCfg s i) 0 = true) : setEnable s i false =
    syncCeil (((advanceFill s).wrBit (Reg.recSetcfg i) 0 false).wr (Reg.recStrstat i) 0) := by
  unfold setEnable
  simp only [hon, Bool.true_beq, Bool.not_false, Bool.false_eq_true, if_false, if_true]

/-- A set turned off: its stream has status 0, and nothing of its further state changes (R475). -/
theorem setEnable_offs (hon : bit (setCfg s i) 0 = true) : (setEnable s i false).rdBit (Reg.recSetcfg i) 0 = false ∧
    (setEnable s i false).rd (Reg.recStrstat i) = 0 ∧ (setEnable s i false).recd = s.recd := by
  have hceil : ∀ {a}, 0x10B01000 ≤ a → ∀ z : Chip, (syncCeil z).rd a = z.rd a := fun {a} ha z =>
    (Chip.rd_wr_ne _ _ (by unfold Reg.recSceil; omega)).trans (Chip.rd_wr_ne _ _ (by unfold Reg.recDceil; omega))
  rw [setEnable_off hon]
  refine ⟨?_, ?_, (advanceFill_rest s).1⟩
  · rw [Chip.rdBit, hceil (by unfold Reg.recSetcfg; omega), Chip.rd_wr_ne _ _ (by unfold Reg.recSetcfg Reg.recStrstat; omega)]
    exact Chip.rdBit_wrBit_self _ _ false (by decide)
  · rw [hceil (by unfold Reg.recStrstat; omega), Chip.rd_wr_self]

theorem startSet_starts (s : Chip) (i : Nat) : KeepsRegsBut [Reg.recSetpos i, Reg.recSetold i] s (startSet s i) ∧
    (∀ k, k ≠ i → recSt (startSet s i) k = recSt s k) ∧ (recSt (startSet s i) i).partW = true ∧ (recSt (startSet s i) i).timeS = none ∧
    (startSet s i).store = s.store ∧ (startSet s i).ewn = s.ewn := by
  unfold startSet
  extract_lets n r cb rb own s1 r1
  split
  · refine ⟨(KeepsRegsBut.refl _ s).same rfl, fun k hk => (recSt_setRec_ne _ _ hk).trans rfl, ?_, ?_, rfl, rfl⟩ <;> rw [recSt_setRec]
  · have hsync : ∀ y : Chip, (syncPos y i).store = y.store ∧ (syncPos y i).ewn = y.ewn := fun y => by
      unfold syncPos
      dsimp only
      split <;> exact ⟨rfl, rfl⟩
    refine ⟨((KeepsRegsBut.refl _ s).same rfl).trans (syncPos_keepsRegs _ i) (List.Subset.refl _),
      fun k hk => recSt_syncPos.trans ((recSt_setRec_ne _ _ hk).trans rfl), ?_, ?_, (hsync _).1, (hsync _).2⟩ <;> rw [recSt_syncPos, recSt_setRec]

theorem EnOn.strRunning (h : EnOn i s x) : EnOn i s (strRunning x i) :=
  { h with
    regs := h.regs.wr (by simp [enRegs])
    cfg := (Chip.rd_wr_ne _ _ (by unfold Reg.recSetcfg Reg.recStrstat; omega)).trans h.cfg
    partW := h.partW }

theorem setStarted_enOn (s : Chip) (i : Nat) (hi : i < 64) : EnOn i s (setStarted s i) := by
  obtain ⟨hrecd, hfill⟩ := advanceFill_rest s
  obtain ⟨hregs, hsets, hpart, htime, hstore, hewn⟩ := startSet_starts ((advanceFill s).wrBit (Reg.recSetcfg i) 0 true) i
  have hplace : Reg.recSetcfg i ∉ [Reg.recSetpos i, Reg.recSetold i] ∧ Reg.recSetcfg i ≠ Reg.memFilldoneb := by
    simp only [List.mem_cons, List.not_mem_nil, or_false, Reg.recSetcfg, Reg.recSetpos, Reg.recSetold, Reg.memFilldoneb]
    omega
  have hon : EnOn i s (startSet ((advanceFill s).wrBit (Reg.recSetcfg i) 0 true) i) :=
    { regs := (((KeepsRegsBut.refl (enRegs i) s).trans hfill (by simp [enRegs])).wr (by simp [enRegs])).trans hregs (by simp [enRegs])
      cfg := by
        rw [setCfg, hregs _ hplace.1, Chip.wrBit, Chip.rd_wr_self, hfill _ (by simpa using hplace.2)]
        rfl
      sets := fun k hk => (hsets k hk).trans (recSt_congr (congrArg Recorder.sets hrecd) k)
      partW := hpart
      timeS := htime
      store := hstore.trans (EndKeeps.refl s).advanceFill.store
      ewn := hewn.trans (EndLeaves.refl s).advanceFill.ewn }
  unfold setStarted
  extract_lets s1
  split
  · exact hon.strRunning
  · exact hon

theorem EnOn.of_rewritten {a : Nat} (h : EnOn i (rewritten s a) x) : EnOn i s x where
  regs b hb := (h.regs b hb).trans (rd_rewritten s a b)
  cfg := h.cfg.trans (congrArg (setBit · 0 true) (rd_rewritten s a _))
  sets := h.sets
  partW := h.partW
  timeS := h.timeS
  store := h.store
  ewn := h.ewn

theorem EnOn.syncCeil (h : EnOn i s x) : EnOn i s (syncCeil x) :=
  { h with
    regs := (h.regs.wr (by simp [enRegs])).wr (by simp [enRegs])
    cfg := by
      refine Eq.trans ?_ h.cfg
      exact (Chip.rd_wr_ne _ _ (by unfold Reg.recSetcfg Reg.recSceil; omega)).trans
        (Chip.rd_wr_ne _ _ (by unfold Reg.recSetcfg Reg.recDceil; omega))
    partW := h.partW }

/-- The words of the sets stand, but for that with EN and the place of a region. -/
theorem EnOn.rd (h : EnOn i s x) (hi : i < 64) {a : Nat} (hlo : 0x10B01000 ≤ a) (hhi : a < 0x10B02000) (ha : a % 64 ≤ 0x2C)
    (hne : a ≠ Reg.recSetcfg i) : x.rd a = s.rd a := h.regs a (by
  simp only [enRegs, List.mem_cons, List.not_mem_nil, or_false, Reg.recSetpos, Reg.recSetold, Reg.recStrstat, Reg.memFilldoneb, Reg.recDceil,
    Reg.recSceil]
  omega)

theorem EnOn.setCfg_ne (h : EnOn i s x) (hi : i < 64) (hk : k < 64) (hne : k ≠ i) : setCfg x k = setCfg s k :=
  h.rd hi (by unfold Reg.recSetcfg; omega) (by unfold Reg.recSetcfg; omega) (by unfold Reg.recSetcfg; omega) (by unfold Reg.recSetcfg; omega)

theorem EnOn.setup (h : EnOn i s x) (hi : i < 64) (hk : k < 64) : SetupAs k s x := by
  have hword : ∀ n, 0 < n → n ≤ 0x2C → x.rd (0x10B01000 + n + 64 * k) = s.rd (0x10B01000 + n + 64 * k) := fun n h0 hn =>
    h.rd hi (by omega) (by omega) (by omega) (by unfold Reg.recSetcfg; omega)
  refine ⟨fun b hb hb31 => ?_, hword 0x4 (by decide) (by decide), hword 0x8 (by decide) (by decide), hword 0x10 (by decide) (by decide),
    hword 0x14 (by decide) (by decide), hword 0x20 (by decide) (by decide), h.store, h.ewn⟩
  by_cases hki : k = i
  · rw [hki, h.cfg, bit_setBit_ne _ true (by decide) hb]
  · rw [h.setCfg_ne hi hk hki]

/-- The ceilings are summed with the set that is now on (R492). -/
theorem EnOn.ceilSum (h : EnOn i s x) (hi : i < 64) {b : Nat} (hb : b ≠ 0) (hb31 : b ≤ 31) : ceilSum x b [] = ceilSum s b [i] := by
  refine ceilSum_congr hb hb31 (fun k hk => h.setup hi hk) fun k hk => ?_
  by_cases hki : k = i
  · rw [hki, h.cfg, bit_setBit_self _ true (by decide)]
    simp
  · rw [h.setCfg_ne hi hk hki]
    simp [hki]

theorem EnOn.halves (h : EnOn i s x) (hi : i < 64) : halfBits x i = halfBits s i :=
  congrArg (fld · 5 0) (h.rd hi (by unfold Reg.recSetstat; omega) (by unfold Reg.recSetstat; omega) (by unfold Reg.recSetstat; omega)
    (by unfold Reg.recSetstat Reg.recSetcfg; omega))

theorem EnOn.post (h : EnOn i s x) (hi : i < 64) : x.rd (Reg.recSetpost i) = s.rd (Reg.recSetpost i) :=
  h.rd hi (by unfold Reg.recSetpost; omega) (by unfold Reg.recSetpost; omega) (by unfold Reg.recSetpost; omega)
    (by unfold Reg.recSetpost Reg.recSetcfg; omega)

/-! ### AUTOARM -/

/-- From `s` on, `x` has set `i` armed, refused or as it was: its setup, its next window and its stream stand. -/
structure StaysOn (i : Nat) (s x : Chip) : Prop where
  regs : KeepsRegsBut (Reg.recCfgerr :: recordRegs i) s x
  sets : ∀ k, k ≠ i → recSt x k = recSt s k
  partW : (recSt x i).partW = (recSt s i).partW
  timeS : (recSt x i).timeS = (recSt s i).timeS

theorem StaysOn.rd (h : StaysOn i s x) (hi : i < 64) {a : Nat} (ha : BesideRecords a) (hne : a ≠ Reg.recCfgerr) : x.rd a = s.rd a :=
  h.regs a fun hmem => (List.mem_cons.1 hmem).elim hne (ha.not_mem hi)

theorem StaysOn.refl (i : Nat) (s : Chip) : StaysOn i s s := ⟨.refl _ _, fun _ _ => rfl, rfl, rfl⟩

theorem setRefuse_staysOn (s : Chip) (i code : Nat) : StaysOn i s (setRefuse s i code) :=
  ⟨((KeepsRegsBut.refl _ s).wr (by simp [recordRegs])).wr (by simp), fun _ _ => rfl, rfl, rfl⟩

theorem setRefuse_err (s : Chip) (i : Nat) {code : Nat} (h : code < 16) : (setRefuse s i code).rdF (Reg.recSetstat i) 31 28 = code := by
  have hne : Reg.recSetstat i ≠ Reg.recCfgerr := by
    unfold Reg.recSetstat Reg.recCfgerr
    omega
  rw [setRefuse, recRefuse, Chip.rdF, Chip.rd_wr_ne _ _ hne]
  exact (Chip.rdF_wrF_self s _ code (by decide) (by decide)).trans (Nat.mod_eq_of_lt h)

theorem setRefuse_halves (s : Chip) (i code : Nat) : halfBits (setRefuse s i code) i = halfBits s i :=
  (halfBits_wr _ _ (by unfold Reg.recSetstat Reg.recCfgerr; omega)).trans (halfBits_wrF s i (by decide) (by decide) (by decide))

/-- POST of a set exceeds NREC - 1 (R497). -/
abbrev PostBig (s : Chip) (i : Nat) : Prop := (s.rd (Reg.recSetpost i)).toNat > nrec s i - 1

/-- ARM of a capture set with a region, refused with its code (R497). -/
theorem armSet_refused (hon : bit (setCfg s i) 0 = true) (hcap : capMode s i = true) (hreg : bit (setCfg s i) 14 = true)
    (h : PostBig s i ∨ halfState s i (curHalf s i) ≠ 0) : armSet s i = setRefuse s i (if PostBig s i then 3 else 7) := by
  by_cases hbig : PostBig s i
  · rw [if_pos hbig, armSet_big hon hcap hreg hbig]
  · rw [if_neg hbig, armSet_busy hon hcap hreg (Nat.not_lt.1 hbig) (h.resolve_left hbig)]

theorem armSet_staysOn (hi : i < 64) (hon : bit (setCfg s i) 0 = true) : StaysOn i s (armSet s i) := by
  by_cases hno : capMode s i = false ∨ bit (setCfg s i) 14 = false
  · exact (armSet_noRegion hon hno).symm ▸ StaysOn.refl i s
  · obtain ⟨hcap, hreg⟩ : capMode s i = true ∧ bit (setCfg s i) 14 = true := by simpa using hno
    by_cases hrefused : PostBig s i ∨ halfState s i (curHalf s i) ≠ 0
    · exact (armSet_refused hon hcap hreg hrefused).symm ▸ setRefuse_staysOn s i _
    · obtain ⟨hpost, hidle⟩ := not_or.1 hrefused
      have harmed := armSet_armed hi ⟨hon, hcap, hreg, Nat.not_lt.1 hpost, not_not.1 hidle⟩
      exact ⟨fun a ha => harmed.regs a fun hmem => ha (List.mem_cons_of_mem _ hmem), harmed.sets, harmed.partW, harmed.timeS⟩

/-! ### EN on -/

/-- EN of a set written by an agent, the rest of its word as it stands. -/
def enWritten (s : Chip) (i : Nat) (on : Bool) : Chip := setEnable (rewritten s (Reg.recSetcfg i)) i on

/-- A set turned on by an agent's write, before AUTOARM acts (R492). -/
def turnedOn (s : Chip) (i : Nat) : Chip := syncCeil (setStarted (rewritten s (Reg.recSetcfg i)) i)

/-- What a set's AUTOARM then makes of it (R520). -/
def autoArmed (s : Chip) (i : Nat) : Chip := if bit (setCfg s i) 1 then armSet (turnedOn s i) i else turnedOn s i

section TurnedOn
variable (hi : i < 64)
include hi

theorem started_enOn (s : Chip) : EnOn i s (setStarted (rewritten s (Reg.recSetcfg i)) i) := (setStarted_enOn _ i hi).of_rewritten

theorem turnedOn_enOn (s : Chip) : EnOn i s (turnedOn s i) := (started_enOn hi s).syncCeil

theorem turnedOn_ceilings (s : Chip) : (turnedOn s i).rd Reg.recDceil = wn (ceilSum s 14 [i]) ∧
    (turnedOn s i).rd Reg.recSceil = wn (ceilSum s 15 [i]) := by
  have hon := started_enOn hi s
  rw [← hon.ceilSum hi (b := 14) (by decide) (by decide), ← hon.ceilSum hi (b := 15) (by decide) (by decide)]
  exact ⟨(Chip.rd_wr_ne _ _ (by decide)).trans (Chip.rd_wr_self ..), Chip.rd_wr_self ..⟩

theorem setEnable_autoArmed (hoff : bit (setCfg s i) 0 = false) (hcheck : enableSetCheck s i = 0) :
    enWritten s i true = autoArmed s i := by
  have hcheck' : enableSetCheck (rewritten s (Reg.recSetcfg i)) i = 0 :=
    (enableSetCheck_congr (fun a _ => rd_rewritten s _ a) rfl rfl).trans hcheck
  have hoff' : bit (setCfg (rewritten s (Reg.recSetcfg i)) i) 0 = false := (congrArg (bit · 0) (rd_rewritten s _ _)).trans hoff
  have hauto : bit (setCfg (turnedOn s i) i) 1 = bit (setCfg s i) 1 := ((turnedOn_enOn hi s).setup hi hi).bits 1 (by decide) (by decide)
  rw [enWritten, setEnable_on hoff' hcheck', autoArmed, ← hauto]
  rfl

theorem turnedOn_on (s : Chip) : bit (setCfg (turnedOn s i) i) 0 = true := by
  rw [(turnedOn_enOn hi s).cfg, bit_setBit_self _ true (by decide)]

theorem autoArmed_staysOn (s : Chip) : StaysOn i (turnedOn s i) (autoArmed s i) := by
  unfold autoArmed
  split
  · exact armSet_staysOn hi (turnedOn_on hi s)
  · exact .refl i _

/-- A set turned on is on within the ceilings, its next window PARTIAL and a TIME record due; the other sets stand (R475, R480, R488, R492). -/
theorem autoArmed_on (s : Chip) :
    let x := autoArmed s i
    setCfg x i = setBit (setCfg s i) 0 true ∧ (recSt x i).partW = true ∧ (recSt x i).timeS = none ∧
      x.rd Reg.recDceil = wn (ceilSum s 14 [i]) ∧ x.rd Reg.recSceil = wn (ceilSum s 15 [i]) ∧
      ∀ k, k < 64 → k ≠ i → setCfg x k = setCfg s k ∧ recSt x k = recSt s k := by
  intro x
  have hon := turnedOn_enOn hi s
  have hstays := autoArmed_staysOn hi s
  obtain ⟨hd, hs⟩ := turnedOn_ceilings hi s
  have hcfg : ∀ k < 64, setCfg x k = setCfg (turnedOn s i) k := fun k hk =>
    hstays.rd hi (by unfold BesideRecords Reg.recSetcfg; omega) (by unfold Reg.recSetcfg Reg.recCfgerr; omega)
  refine ⟨(hcfg i hi).trans hon.cfg, hstays.partW.trans hon.partW, hstays.timeS.trans hon.timeS, (hstays.rd hi ?_ (by decide)).trans hd,
    (hstays.rd hi ?_ (by decide)).trans hs,
    fun k hk hne => ⟨(hcfg k hk).trans (hon.setCfg_ne hi hk hne), (hstays.sets k hne).trans (hon.sets k hne)⟩⟩
  · exact .inr (.inr (.inl (by decide)))
  · exact .inr (.inr (.inl (by decide)))

/-- AUTOARM of a capture set with a region (R520). -/
def Arms (s : Chip) (i : Nat) : Prop := bit (setCfg s i) 1 = true ∧ capMode s i = true ∧ bit (setCfg s i) 14 = true

theorem autoArmed_arms (s : Chip) (h : Arms s i) : autoArmed s i = armSet (turnedOn s i) i ∧ capMode (turnedOn s i) i = true ∧
    bit (setCfg (turnedOn s i) i) 14 = true := by
  obtain ⟨hauto, hcap, hreg⟩ := h
  have hsetup := (turnedOn_enOn hi s).setup hi hi
  exact ⟨if_pos hauto, hsetup.capMode.trans hcap, (hsetup.bits 14 (by decide) (by decide)).trans hreg⟩

/-- What AUTOARM looks at stands as it stood before EN. -/
theorem turnedOn_postBig (s : Chip) : PostBig (turnedOn s i) i ↔ PostBig s i := by
  have hon := turnedOn_enOn hi s
  rw [PostBig, hon.post hi, (hon.setup hi hi).nrec]

theorem turnedOn_curHalf (s : Chip) : curHalf (turnedOn s i) i = curHalf s i := curHalf_congr ((turnedOn_enOn hi s).halves hi)

theorem turnedOn_halfState (s : Chip) {h : Nat} (hh : h < 2) : halfState (turnedOn s i) i h = halfState s i h :=
  halfState_congr ((turnedOn_enOn hi s).halves hi) hh

theorem turnedOn_idle (s : Chip) : halfState (turnedOn s i) i (curHalf (turnedOn s i) i) = halfState s i (curHalf s i) := by
  rw [turnedOn_curHalf hi, turnedOn_halfState hi s (curHalf_lt s i)]

theorem autoArmed_fills (h : Arms s i) (hpost : ¬ PostBig s i) (hidle : halfState s i (curHalf s i) = 0) :
    curHalf (autoArmed s i) i = curHalf s i ∧ halfState (autoArmed s i) i (curHalf s i) = 1 ∧
      (recSt (autoArmed s i) i).goal = (s.rd (Reg.recSetpost i)).toNat := by
  obtain ⟨heq, hcap, hreg⟩ := autoArmed_arms hi s h
  have harmed := armSet_armed hi ⟨turnedOn_on hi s, hcap, hreg, Nat.not_lt.1 (mt (turnedOn_postBig hi s).1 hpost),
    (turnedOn_idle hi s).trans hidle⟩
  rw [heq, ← (turnedOn_enOn hi s).post hi, ← turnedOn_curHalf hi s]
  exact ⟨harmed.cur, harmed.fill, harmed.goal⟩

theorem autoArmed_refused (h : Arms s i) (hno : PostBig s i ∨ halfState s i (curHalf s i) ≠ 0) :
    autoArmed s i = setRefuse (turnedOn s i) i (if PostBig s i then 3 else 7) := by
  obtain ⟨heq, hcap, hreg⟩ := autoArmed_arms hi s h
  have hno' : PostBig (turnedOn s i) i ∨ halfState (turnedOn s i) i (curHalf (turnedOn s i) i) ≠ 0 := by
    rwa [turnedOn_postBig hi, turnedOn_idle hi]
  rw [heq, armSet_refused (turnedOn_on hi s) hcap hreg hno']
  simp only [turnedOn_postBig hi]

theorem autoArmed_err (h : Arms s i) (hno : PostBig s i ∨ halfState s i (curHalf s i) ≠ 0) :
    (autoArmed s i).rdF (Reg.recSetstat i) 31 28 = if PostBig s i then 3 else 7 := by
  rw [autoArmed_refused hi h hno]
  exact setRefuse_err _ _ (by split <;> decide)

/-- Where nothing is armed, the halves stay (R497). -/
theorem autoArmed_halves (h : ¬ Arms s i ∨ PostBig s i ∨ halfState s i (curHalf s i) ≠ 0) {k : Nat} (hk : k < 2) :
    halfState (autoArmed s i) i k = halfState s i k := by
  refine (halfState_congr ?_ hk).trans (turnedOn_halfState hi s hk)
  by_cases harms : Arms s i
  · rw [autoArmed_refused hi harms (h.resolve_left (not_not.2 harms)), setRefuse_halves]
  · unfold autoArmed
    split
    · next hauto =>
      have hsetup := (turnedOn_enOn hi s).setup hi hi
      have hno : capMode (turnedOn s i) i = false ∨ bit (setCfg (turnedOn s i) i) 14 = false := by
        rw [hsetup.capMode, hsetup.bits 14 (by decide) (by decide)]
        by_contra hboth
        exact harms ⟨hauto, by simpa using hboth⟩
      rw [armSet_noRegion (turnedOn_on hi s) hno]
    · rfl

end TurnedOn
end On

/-! ### A write of EN -/

section Write
variable {s : Chip} {who : Agent} {j : Fin 64} {on : Bool}

theorem setcfgRow_onRow : OnRow setcfgRow := ⟨⟨rfl, rfl, rfl⟩, by decide, by decide⟩

/-- A set's code of refusal, told by REC_CFGERR cleared before (R516). -/
def setCode (s : Chip) (i : Nat) (on : Bool) : Nat :=
  (setEnable ((s.wrF Reg.recCfgerr 31 28 0).wr (Reg.recSetcfg i) (s.rd (Reg.recSetcfg i))) i on).rdF Reg.recCfgerr 31 28

variable (hm : MayWrite s who (Reg.recSetcfg j.val))
include hm

/-- An agent's write of a set's EN does what EN does, or is refused whole with the code that EN leaves (R516, R520). -/
theorem onCmd_setcfg_eq : onCmd s who (Reg.recSetcfg j.val) on =
    if setCode s j.val on ≠ 0 ∧ ((enWritten s j.val on).rdBit (Reg.recSetcfg j.val) 0 != on) = true then
      recRefuse s (setCode s j.val on) (0x1000 + 0x40 * j.val)
    else enWritten s j.val on := by
  obtain ⟨hlo, hhi, hmod, hset⟩ : 0x1000 ≤ 0x1000 + 0x40 * j.val ∧ 0x1000 + 0x40 * j.val < 0x2000 ∧ (0x1000 + 0x40 * j.val) % 64 = 0 ∧
      (0x1000 + 0x40 * j.val - 0x1000) / 64 = j.val := by omega
  have hunit : ¬ 0x2000 ≤ 0x1000 + 0x40 * j.val := by omega
  have hcs : ((setBit (s.rd (Reg.recSetcfg j.val)) 0 on ^^^ s.rd (Reg.recSetcfg j.val)) &&& wn setcfgRow.cs) = 0 :=
    setBit_changed _ on setcfgRow_onRow.cs
  have hrange : rangeCode s 11 0 (0x1000 + 0x40 * j.val) (Reg.recSetcfg j.val) (setBit (s.rd (Reg.recSetcfg j.val)) 0 on) = 0 := by
    simp [rangeCode, fieldRangeOk, hlo, hhi, hmod]
  have hact : actingWrite s (agentSrc who) (Reg.recSetcfg j.val) 11 0 (0x1000 + 0x40 * j.val) (setBit (s.rd (Reg.recSetcfg j.val)) 0 on) false =
      none := by
    simp [actingWrite, hmod, hunit]
  have hon : isOnWord 11 (0x1000 + 0x40 * j.val) = true := by simp [isOnWord, hlo, hhi, hmod]
  have hcode : refusalReg 11 0 (0x1000 + 0x40 * j.val) (Reg.recSetcfg j.val) = some (Reg.recCfgerr, 31, 28) := by simp [refusalReg, hmod]
  have hbit : bit (setBit (s.rd (Reg.recSetcfg j.val)) 0 on) 0 = on := bit_setBit_self _ on (by decide)
  have hclear : (s.wrF Reg.recCfgerr 31 28 0).rd (Reg.recSetcfg j.val) = s.rd (Reg.recSetcfg j.val) :=
    Chip.rd_wr_ne _ _ (by unfold Reg.recSetcfg Reg.recCfgerr; omega)
  have hword : writeOnWord s 11 0 (0x1000 + 0x40 * j.val) (Reg.recSetcfg j.val) setcfgRow (setBit (s.rd (Reg.recSetcfg j.val)) 0 on) =
      if setCode s j.val on ≠ 0 ∧ ((enWritten s j.val on).rdBit (Reg.recSetcfg j.val) 0 != on) = true then
        (recRefuse s (setCode s j.val on) (0x1000 + 0x40 * j.val), .range)
      else (enWritten s j.val on, .done) := by
    simp only [writeOnWord, refusalOf, hcode, onWrite, hbit, hset, setcfgRow_onRow.applyTypes_eq rfl,
      setcfgRow_onRow.applyTypes_eq hclear]
    rfl
  rw [onCmd, regCmd_row (placeOf_set j).1 (by decide) hm, writeRow]
  simp only [hcs, bne_self_eq_false, Bool.and_false, Bool.false_eq_true, if_false, hrange, ne_eq, not_true_eq_false, hact, hon, if_true, hword]
  split <;> rfl

/-- EN that ends as it was written is done. -/
theorem onCmd_setcfg_done (h : (enWritten s j.val on).rdBit (Reg.recSetcfg j.val) 0 = on) :
    onCmd s who (Reg.recSetcfg j.val) on = enWritten s j.val on := by
  rw [onCmd_setcfg_eq hm, h, bne_self_eq_false, if_neg fun hrefused => Bool.false_ne_true hrefused.2]

/-- A set whose check fails is refused with the code of the check (R475, R516). -/
theorem onCmd_setcfg_refused (hoff : bit (setCfg s j.val) 0 = false) (hcheck : enableSetCheck s j.val ≠ 0) :
    onCmd s who (Reg.recSetcfg j.val) true = recRefuse s (enableSetCheck s j.val) (0x1000 + 0x40 * j.val) := by
  have hall : ∀ {z : Chip}, (∀ a, 0x10B01000 ≤ a → z.rd a = s.rd a) → z.store = s.store → z.ewn = s.ewn →
      setEnable z j.val true = recRefuse z (enableSetCheck s j.val) (0x1000 + 0x40 * j.val) := fun {z} hr hstore hewn => by
    have hcfg : setCfg z j.val = setCfg s j.val := hr _ (by unfold Reg.recSetcfg; omega)
    have hsame := enableSetCheck_congr (i := j.val) hr hstore hewn
    rw [setEnable_refused (hcfg ▸ hoff) (hsame ▸ hcheck), hsame]
  have hcode : setCode s j.val true = enableSetCheck s j.val := by
    have hlt := enableSetCheck_lt s j.val
    have hclear : ∀ a, 0x10B01000 ≤ a →
        ((s.wrF Reg.recCfgerr 31 28 0).wr (Reg.recSetcfg j.val) (s.rd (Reg.recSetcfg j.val))).rd a = s.rd a := fun a ha => by
      rw [Chip.rd_wr]
      split
      · next h => rw [h]
      · exact Chip.rd_wr_ne _ _ (by unfold Reg.recCfgerr; omega)
    rw [setCode, hall hclear rfl rfl, recRefuse, Chip.rdF, Chip.rd_wr_self, fld, wn, BitVec.toNat_ofNat, Nat.shiftRight_eq_div_pow]
    omega
  have hstays : (enWritten s j.val true).rdBit (Reg.recSetcfg j.val) 0 = false := by
    rw [enWritten, hall (fun a _ => rd_rewritten s _ a) rfl rfl, recRefuse, Chip.rdBit,
      Chip.rd_wr_ne _ _ (by unfold Reg.recSetcfg Reg.recCfgerr; omega), rd_rewritten]
    exact hoff
  rw [onCmd_setcfg_eq hm, hcode, hstays, if_pos ⟨hcheck, rfl⟩]

end Write

theorem exec_setEnable (who : Agent) (j : Fin 64) (on : Bool) (st : State) :
    exec (.setEnable who j on) st = finish st (fun s => onCmd s who (Reg.recSetcfg j.val) on) := rfl

/-- Settles O34: a write of EN does what EN does or is refused whole (`onCmd_setcfg_eq`). A set turned on has its ceiling in the sums, since
nothing that a ceiling goes by has changed but EN (`EnOn.ceilSum`), and AUTOARM then finds of the set what stood before (`turnedOn_idle`,
`turnedOn_postBig`). At the end of a window the accumulators that are due are cleared one after the other (`writeAccs_clear`). -/
theorem recordingSetsKeepTheCeilings : Obligations.RecordingSetsKeepTheCeilings := by
  intro s j
  have hi : j.val < 64 := j.isLt
  refine ⟨fun who hm => ⟨fun hoff hcheck => ?_, fun hoff hcheck => ?_, fun hon => ?_⟩, ?_⟩
  · intro h arms big
    have hdone := setEnable_autoArmed hi hoff hcheck
    obtain ⟨hcfg, hpart, htime, hd, hs, hothers⟩ := autoArmed_on hi s.chip
    have hbit : bit (setCfg (autoArmed s.chip j.val) j.val) 0 = true := by rw [hcfg, bit_setBit_self _ true (by decide)]
    obtain ⟨hdle, hsle⟩ := ceilSum_of_check hcheck
    have hword : ∀ n : Nat, (wn n).toNat ≤ n := fun n => (BitVec.toNat_ofNat ..).trans_le (Nat.mod_le ..)
    refine ⟨autoArmed s.chip j.val, ?_, hbit, hpart, htime, hd, hd ▸ (hword _).trans hdle, hs, hs ▸ (hword _).trans hsle,
      fun harms hpost hidle => autoArmed_fills hi harms hpost hidle, fun harms hno => autoArmed_err hi harms hno,
      fun hno k hk => autoArmed_halves hi hno hk, hothers⟩
    rw [exec_setEnable, finish_eq, onCmd_setcfg_done hm (hdone ▸ hbit), hdone]
  · refine ⟨recRefuse s.chip (enableSetCheck s.chip j.val) (0x1000 + 0x40 * j.val), ?_, ?_, rfl, (Chip.rd_wr_self ..).trans ?_⟩
    · rw [exec_setEnable, finish_eq, onCmd_setcfg_refused hm hoff hcheck]
    · rw [setCfg, recRefuse, Chip.rd_wr_ne _ _ (by unfold Reg.recSetcfg Reg.recCfgerr; omega)]
      exact hoff
    · rw [Nat.add_assoc]
  · have hon' : bit (setCfg (rewritten s.chip (Reg.recSetcfg j.val)) j.val) 0 = true := (congrArg (bit · 0) (rd_rewritten ..)).trans hon
    obtain ⟨hoff, hstat, hrecd⟩ := setEnable_offs hon'
    exact ⟨enWritten s.chip j.val false, by rw [exec_setEnable, finish_eq, onCmd_setcfg_done hm hoff], hoff, hstat, hrecd⟩
  · intro c now ends n upto last
    refine ⟨fun hends => ⟨_, (exec_reductionWindowEnd ..).trans (finish_eq ..), ?_⟩, fun hs hno => ?_⟩
    · rw [windowEnd_ends hends]
      exact writeShare_windowSwapped s.chip hi now
    · rw [exec_reductionWindowEnd, finish_eq, windowEnd_stands hno, settle_still hs]

end Sys2Proof.Machine
end
